-- ==== Sys2Proof/Word.lean ====
section
/-! DEFINITION. The word types of the module: bytes, 16-, 32-, 64- and 128-bit words (spec/00_scope.md R10, R12, R17). -/

namespace Sys2Proof

/-- One byte. -/
abbrev Byte := BitVec 8

/-- A 16-bit word. -/
abbrev Word16 := BitVec 16

/-- A device control word (R9) or an FP32 pattern (R32). -/
abbrev Word32 := BitVec 32

/-- A scalar register or a 64-bit register (R10, R69). -/
abbrev Word64 := BitVec 64

/-- A core instruction word (R72). -/
abbrev Word128 := BitVec 128

end Sys2Proof
end

