-- ==== Sys2Proof/Syntax.lean ====
section
/-! DEFINITION. The commands of the block, one constructor per row of spec/opcode_table.json, and the operand types they
carry. A core instruction carries the core that issues it and its fields of R72 and R75; a Melhal command carries its
queue entry and buffers (R357); an event carries what happened. -/

namespace Sys2Proof

/-- The common fields of an instruction word (R72): RND, PN, PS, WV, WE, SV, SE. -/
structure Pre where
  rnd : BitVec 2
  pn : Bool
  ps : BitVec 5
  wv : Bool
  we : BitVec 5
  sv : Bool
  se : BitVec 5
  deriving DecidableEq, Repr

/-- Format A (R75): scalar, control, synchronisation, DMA and engine control. -/
structure FmtA where
  sd : BitVec 5
  sa : BitVec 5
  sb : BitVec 5
  sc : BitVec 5
  eng : BitVec 4
  ev : BitVec 5
  ib : Bool
  rsv : BitVec 6
  imm : BitVec 64
  deriving DecidableEq, Repr

/-- Format V (R75): vector. -/
structure FmtV where
  ve : Bool
  vd : BitVec 6
  va : BitVec 6
  vb : BitVec 6
  vc : BitVec 6
  ty : BitVec 3
  bs : Bool
  sa : BitVec 5
  fmts : BitVec 4
  fmtd : BitVec 4
  rsv : BitVec 10
  imm : BitVec 48
  deriving DecidableEq, Repr

/-- Format T (R75): tile, tensor and row unit. -/
structure FmtT where
  ad : BitVec 4
  clr : Bool
  pfmt : BitVec 4
  qfmt : BitVec 4
  psrc : Bool
  pt : BitVec 5
  qsrc : Bool
  qt : BitVec 5
  td : BitVec 3
  vs : BitVec 6
  sa : BitVec 5
  mask : BitVec 3
  ofmt : BitVec 4
  rsv : BitVec 22
  imm : BitVec 32
  deriving DecidableEq, Repr

/-- The operand part of an instruction word. -/
inductive Fmt where
  | a (f : FmtA)
  | v (f : FmtV)
  | t (f : FmtT)
  deriving DecidableEq, Repr

/-- A core instruction word: opcode, common fields, operands (R72). -/
structure CWord where
  op : Byte
  pre : Pre
  fmt : Fmt
  deriving DecidableEq, Repr

/-- How a Melhal command reached the Col die: a queue pair, or a command of another module (R357, R367). -/
inductive CmdPath where
  | qp (q : Nat)
  | fabric (port src reqId tenant : Nat)
  deriving DecidableEq, Repr

/-- A Melhal command as fetched: its 64-byte entry (R357), the parameter block and data-in the module reads from host
memory, and the offset in its buffer of a host read that failed, if one did. -/
structure Cmd where
  path : CmdPath
  entry : List Byte
  params : List Byte
  dataIn : List Byte
  hostFail : Option Nat
  deriving DecidableEq, Repr

/-- Who makes a memory access (the SOURCE codes of R191). -/
inductive Requester where
  | core (c : Nat)
  | coreDma (c : Nat)
  | ridgeDma (n : Nat)
  | near (n : Nat)
  | coll (n : Nat)
  | save (c : Nat)
  | restore (c : Nat)
  | responder (n : Nat)
  | admission
  | melhal
  | recordWrite (n : Nat)
  deriving DecidableEq, Repr

/-- The access kinds of R175. -/
inductive AccKind where
  | read
  | write
  | fetch
  | atomic
  | flush
  deriving DecidableEq, Repr

/-- An access: its kind, and whether it is served for another module. -/
structure Access where
  kind : AccKind
  remote : Bool
  deriving DecidableEq, Repr

/-- A DMA transfer: one of a core's four places, or the transfer of a DMA task. -/
inductive XferRef where
  | core (c slot : Nat)
  | task (handle task : Nat)
  deriving DecidableEq, Repr

/-- What a tag is drawn for: a transfer's next request, another request to a memory range, or a collective message. -/
inductive TagUse where
  | chunk (x : XferRef)
  | request (pa : Nat)
  | coll (handle task receiver chunk off : Nat)
  deriving DecidableEq, Repr

/-- A collective message (R203, R208, R209, R213): GROUP_ID, COLL_SEQ, participant identifiers of sender and receiver, ring
step, chunk or block, place of its data in the chunk, digest in a first message, send stamp, data. -/
structure CollMsg where
  group : Nat
  seq : Nat
  sender : Nat
  receiver : Nat
  step : Nat
  chunk : Nat
  off : Nat
  digest : Option Nat
  stamp : Nat
  data : List Byte
  deriving DecidableEq, Repr

/-- A failure notice (R209, R215): GROUP_ID, COLL_SEQ, the failed participant and the one told, its KIND and FSEQ, and
whether the failure is a group the other end does not share. -/
structure FailNotice where
  group : Nat
  seq : Nat
  sender : Nat
  receiver : Nat
  kind : Nat
  fseq : Nat
  undefinedGroup : Bool
  deriving DecidableEq, Repr

/-- Why a die-link port retrains (R237, R247). -/
inductive RetrainCause where
  | replays
  | clockLost (group : Nat)
  | parity (group : Nat)
  deriving DecidableEq, Repr

/-- The fence causes of R254. -/
inductive FenceCause where
  | clock
  | retryExhausted
  | width
  | reset
  | fatal
  | ident
  | command
  deriving DecidableEq, Repr

/-- The address of a register access, and whether the request is one dword with all four byte enables set (R9). -/
structure RegAddr where
  whole : Bool
  addr : Nat
  deriving DecidableEq, Repr

/-- A UCIe module of a Porger site of a base die (R258). -/
structure SiteModule where
  site : Nat
  module : Nat
  deriving DecidableEq, Repr

/-- A lane with a PRBS31 generator and checker (R263): a data lane 0 to 63 or the track lane 64 of a group of a Jexurri port, or a
lane of a UCIe module, 64 to 67 its redundant ones. -/
inductive TestLane where
  | jxl (n port group lane : Nat)
  | uci (k m lane : Nat)
  deriving DecidableEq, Repr

/-- What a private test instruction does with the hooks of R263: starts a lane's generator, lets it send a number of bits, feeds a
lane's checker, sets the far-end loopback of a port, or moves a lane's sampling phase in steps of 1/64 UI. -/
inductive TestHook where
  | generate (l : TestLane) (seed : Nat)
  | send (l : TestLane) (bits : Nat)
  | check (l : TestLane) (bits : List Bool)
  | loopback (n port : Nat) (on : Bool)
  | phase (l : TestLane) (step : Int)
  deriving DecidableEq, Repr

/-- A private instruction of the test access port (R471): the dies whose wrappers it opens, and what it does with a hook of R263. -/
structure TapOrder where
  dies : Nat
  hook : Option TestHook
  deriving DecidableEq, Repr

/-- An engine's answer to PARAM_SET (R261, R262). -/
structure ParamAnswer where
  accepted : Bool
  rate : Nat
  ports : Nat
  modes : Nat
  powerW : Nat
  feedfwd : Bool
  late : Bool
  deriving DecidableEq, Repr

/-- Why a fabric port goes DOWN (R309). -/
inductive DownCause where
  | allLock
  | oneLock (w : Nat)
  | replays
  | laserLost
  | siteLost
  | modulation
  deriving DecidableEq, Repr

/-- An interrupt source of R354. -/
inductive IrqSource where
  | reply (q : Nat)
  | completion (tenant ring : Nat)
  | fault (tenant : Nat)
  | trace (ring : Nat)
  deriving DecidableEq, Repr

/-- A clocked block released by the reset sequencer or fed by a PLL (R375, R401). -/
inductive Block where
  | col
  | base (n : Nat)
  | compute (d : Nat)
  | core (c : Nat)
  | porger (k : Nat)
  deriving DecidableEq, Repr

/-- What the ROM finds when it verifies component 0 (R419). -/
structure BootVerdict where
  activeOk : Bool
  fallbackOk : Bool
  deriving DecidableEq, Repr

/-- What the Cairn has measured of the interval so far (R449): energy, duration by its own clock, extremes. -/
structure Meter where
  energyMj : Nat
  durUs : Nat
  iMax : Nat
  vMin : Nat
  vMax : Nat
  deriving DecidableEq, Repr

/-- The commands: one constructor for each row of spec/opcode_table.json. -/
inductive Instr where
  /-- R77. Scalar sequencer instruction that does nothing apart from its wait and signal. -/
  | nop (c : Nat) (p : Pre) (f : FmtA)
  /-- R120. Ends the core's share of the task once every earlier instruction has completed. -/
  | endTask (c : Nat) (p : Pre) (f : FmtA)
  /-- R77. Adds 16 times IMM to the PC. -/
  | jmp (c : Nat) (p : Pre) (f : FmtA)
  /-- R77. Jumps as JMP if S[SA] is non-zero. -/
  | jnz (c : Nat) (p : Pre) (f : FmtA)
  /-- R77. Jumps as JMP if S[SA] is zero. -/
  | jz (c : Nat) (p : Pre) (f : FmtA)
  /-- R77. Decrements S[SA] and jumps if the result is non-zero. -/
  | loop (c : Nat) (p : Pre) (f : FmtA)
  /-- R77. Saves PC+16 in S[SD] and jumps. -/
  | call (c : Nat) (p : Pre) (f : FmtA)
  /-- R77. Loads the PC from S[SA], and ends the task MISALIGNED if the target is not a multiple of 16. -/
  | ret (c : Nat) (p : Pre) (f : FmtA)
  /-- R100. Takes a pending pre-emption at this point and otherwise does nothing. -/
  | yield (c : Nat) (p : Pre) (f : FmtA)
  /-- R100. Lowers the sheaf extent to S[SA], rounded up to 64 KiB. -/
  | sxt (c : Nat) (p : Pre) (f : FmtA)
  /-- R77. Ends the task with USER_TRAP, reporting IMM[15:0]. -/
  | trap (c : Nat) (p : Pre) (f : FmtA)
  /-- R77. 64-bit scalar addition modulo 2^64. -/
  | add (c : Nat) (p : Pre) (f : FmtA)
  /-- R77. 64-bit scalar subtraction modulo 2^64. -/
  | sub (c : Nat) (p : Pre) (f : FmtA)
  /-- R77. Low 64 bits of a scalar product. -/
  | mul (c : Nat) (p : Pre) (f : FmtA)
  /-- R77. Scalar bitwise AND. -/
  | andd (c : Nat) (p : Pre) (f : FmtA)
  /-- R77. Scalar bitwise OR. -/
  | orr (c : Nat) (p : Pre) (f : FmtA)
  /-- R77. Scalar bitwise XOR. -/
  | xorr (c : Nat) (p : Pre) (f : FmtA)
  /-- R77. Scalar shift left by b[5:0]. -/
  | shl (c : Nat) (p : Pre) (f : FmtA)
  /-- R77. Scalar logical shift right by b[5:0]. -/
  | shr (c : Nat) (p : Pre) (f : FmtA)
  /-- R77. Scalar arithmetic shift right by b[5:0]. -/
  | sar (c : Nat) (p : Pre) (f : FmtA)
  /-- R77. Signed scalar minimum. -/
  | minn (c : Nat) (p : Pre) (f : FmtA)
  /-- R77. Signed scalar maximum. -/
  | maxx (c : Nat) (p : Pre) (f : FmtA)
  /-- R77. Sets 1 if a is less than b, signed. -/
  | slt (c : Nat) (p : Pre) (f : FmtA)
  /-- R77. Sets 1 if a is less than b, unsigned. -/
  | sltu (c : Nat) (p : Pre) (f : FmtA)
  /-- R77. Sets 1 if a equals b. -/
  | seq (c : Nat) (p : Pre) (f : FmtA)
  /-- R77. Loads the 64-bit immediate into a scalar register. -/
  | li (c : Nat) (p : Pre) (f : FmtA)
  /-- R77. Reads the Crest time into a scalar register. -/
  | crst (c : Nat) (p : Pre) (f : FmtA)
  /-- R77. Loads a 64-bit sheaf word into a scalar register. -/
  | sld (c : Nat) (p : Pre) (f : FmtA)
  /-- R77. Stores a scalar register to a 64-bit sheaf word. -/
  | sst (c : Nat) (p : Pre) (f : FmtA)
  /-- R87. Loads a 64-bit word from a global virtual address. -/
  | sldg (c : Nat) (p : Pre) (f : FmtA)
  /-- R87. Stores a 64-bit word to a global virtual address. -/
  | sstg (c : Nat) (p : Pre) (f : FmtA)
  /-- R90. Waits until every earlier instruction of the core has completed. -/
  | fence (c : Nat) (p : Pre) (f : FmtA)
  /-- R160. Writes dirty sectors of a range back to the stacks and removes the requester's borrowed copies. -/
  | rflush (c : Nat) (p : Pre) (f : FmtA)
  /-- R161. Removes borrowed copies of a range from the requester's ridge cache. -/
  | rinv (c : Nat) (p : Pre) (f : FmtA)
  /-- R64. Vector floating-point addition, rounded once. -/
  | vadd (c : Nat) (p : Pre) (f : FmtV)
  /-- R64. Vector floating-point subtraction, rounded once. -/
  | vsub (c : Nat) (p : Pre) (f : FmtV)
  /-- R64. Vector floating-point multiplication, rounded once. -/
  | vmul (c : Nat) (p : Pre) (f : FmtV)
  /-- R64. Vector fused multiply-add, rounded once. -/
  | vfma (c : Nat) (p : Pre) (f : FmtV)
  /-- R82. Vector minimum, with -0 below +0 and the NaN rules. -/
  | vmin (c : Nat) (p : Pre) (f : FmtV)
  /-- R82. Vector maximum, with -0 below +0 and the NaN rules. -/
  | vmax (c : Nat) (p : Pre) (f : FmtV)
  /-- R64. Vector square root, rounded once. -/
  | vsqrt (c : Nat) (p : Pre) (f : FmtV)
  /-- R65. Vector reciprocal approximation. -/
  | vrcp (c : Nat) (p : Pre) (f : FmtV)
  /-- R65. Vector reciprocal square root approximation. -/
  | vrsqrt (c : Nat) (p : Pre) (f : FmtV)
  /-- R65. Vector base-2 exponential approximation. -/
  | vexp2 (c : Nat) (p : Pre) (f : FmtV)
  /-- R65. Vector base-2 logarithm approximation. -/
  | vlog2 (c : Nat) (p : Pre) (f : FmtV)
  /-- R77. Clears the sign of each vector element. -/
  | vabs (c : Nat) (p : Pre) (f : FmtV)
  /-- R82. Per-element less-than comparison giving all ones or zero. -/
  | vcmplt (c : Nat) (p : Pre) (f : FmtV)
  /-- R82. Per-element equality comparison giving all ones or zero. -/
  | vcmpeq (c : Nat) (p : Pre) (f : FmtV)
  /-- R82. Selects each element from a or b according to c. -/
  | vsel (c : Nat) (p : Pre) (f : FmtV)
  /-- R77. Copies a vector register. -/
  | vmov (c : Nat) (p : Pre) (f : FmtV)
  /-- R77. Vector INT32 addition with IOV on wrap. -/
  | viadd (c : Nat) (p : Pre) (f : FmtV)
  /-- R77. Vector INT32 subtraction with IOV on wrap. -/
  | visub (c : Nat) (p : Pre) (f : FmtV)
  /-- R77. Vector INT32 multiplication, low 32 bits. -/
  | vimul (c : Nat) (p : Pre) (f : FmtV)
  /-- R77. Vector bitwise AND. -/
  | vand (c : Nat) (p : Pre) (f : FmtV)
  /-- R77. Vector bitwise OR. -/
  | vor (c : Nat) (p : Pre) (f : FmtV)
  /-- R77. Vector bitwise XOR. -/
  | vxor (c : Nat) (p : Pre) (f : FmtV)
  /-- R77. Vector shift left. -/
  | vshl (c : Nat) (p : Pre) (f : FmtV)
  /-- R77. Vector logical shift right. -/
  | vshr (c : Nat) (p : Pre) (f : FmtV)
  /-- R77. Vector arithmetic shift right. -/
  | vsar (c : Nat) (p : Pre) (f : FmtV)
  /-- R77. Sets lane n to n plus a scalar. -/
  | viota (c : Nat) (p : Pre) (f : FmtV)
  /-- R77. Broadcasts a scalar to every lane. -/
  | vbcast (c : Nat) (p : Pre) (f : FmtV)
  /-- R83. Converts vector elements between formats, rounding or saturating under R49. -/
  | vcvt (c : Nat) (p : Pre) (f : FmtV)
  /-- R83. Quantises 256 FP32 lanes to eight MX or Emmer blocks. -/
  | vqb (c : Nat) (p : Pre) (f : FmtV)
  /-- R83. Expands eight block-scaled blocks to 256 FP32 lanes. -/
  | vdqb (c : Nat) (p : Pre) (f : FmtV)
  /-- R84. Sums the lanes of a vector by a pairwise tree into lane 0. -/
  | vrsum (c : Nat) (p : Pre) (f : FmtV)
  /-- R84. Maximum of the lanes of a vector into lane 0. -/
  | vrmax (c : Nat) (p : Pre) (f : FmtV)
  /-- R84. Minimum of the lanes of a vector into lane 0. -/
  | vrmin (c : Nat) (p : Pre) (f : FmtV)
  /-- R80. Row sums of an accumulator tile into a vector register. -/
  | arsum (c : Nat) (p : Pre) (f : FmtT)
  /-- R80. Row maxima of an accumulator tile into a vector register. -/
  | armax (c : Nat) (p : Pre) (f : FmtT)
  /-- R79. One online-softmax step on a score tile, writing P and updating the running state. -/
  | asmx (c : Nat) (p : Pre) (f : FmtT)
  /-- R80. Rescales the rows of an accumulator by the factors alpha. -/
  | aresc (c : Nat) (p : Pre) (f : FmtT)
  /-- R80. Normalises the rows of an accumulator by the reciprocal of l. -/
  | anorm (c : Nat) (p : Pre) (f : FmtT)
  /-- R77. Loads 1,024 sheaf bytes into a vector register. -/
  | vld (c : Nat) (p : Pre) (f : FmtV)
  /-- R77. Stores a vector register to 1,024 sheaf bytes. -/
  | vst (c : Nat) (p : Pre) (f : FmtV)
  /-- R87. Loads 1,024 bytes from a global virtual address into a vector register. -/
  | vldg (c : Nat) (p : Pre) (f : FmtV)
  /-- R87. Stores a vector register to 1,024 bytes at a global virtual address. -/
  | vstg (c : Nat) (p : Pre) (f : FmtV)
  /-- R77. Strided gather of 32-bit sheaf words into lanes. -/
  | vlds (c : Nat) (p : Pre) (f : FmtV)
  /-- R77. Strided scatter of lanes to 32-bit sheaf words. -/
  | vsts (c : Nat) (p : Pre) (f : FmtV)
  /-- R77. Loads sheaf bytes into a tile register. -/
  | tld (c : Nat) (p : Pre) (f : FmtT)
  /-- R77. Stores tile register bytes to sheaf memory. -/
  | tst (c : Nat) (p : Pre) (f : FmtT)
  /-- R77. Loads a sheaf array and writes its transpose to a tile register. -/
  | tldt (c : Nat) (p : Pre) (f : FmtT)
  /-- R77. Clears a tile register. -/
  | tzero (c : Nat) (p : Pre) (f : FmtT)
  /-- R54. Tile multiply accumulating chunk sums into an accumulator register. -/
  | tmm (c : Nat) (p : Pre) (f : FmtT)
  /-- R77. Clears an accumulator register. -/
  | azero (c : Nat) (p : Pre) (f : FmtT)
  /-- R81. Stores an accumulator to sheaf memory in the output format. -/
  | ast (c : Nat) (p : Pre) (f : FmtT)
  /-- R81. Loads raw 32-bit accumulator elements from sheaf memory. -/
  | ald (c : Nat) (p : Pre) (f : FmtT)
  /-- R77. Copies two accumulator rows into a vector register. -/
  | ardv (c : Nat) (p : Pre) (f : FmtT)
  /-- R77. Writes two accumulator rows from a vector register. -/
  | awrv (c : Nat) (p : Pre) (f : FmtT)
  /-- R88. Adds an immediate to an event counter. -/
  | evsig (c : Nat) (p : Pre) (f : FmtA)
  /-- R77. Waits until an event counter reaches a value, then subtracts it. -/
  | evwait (c : Nat) (p : Pre) (f : FmtA)
  /-- R77. Reads an event counter into a scalar register. -/
  | evrd (c : Nat) (p : Pre) (f : FmtA)
  /-- R89. Atomically waits for and subtracts from a semaphore word in the owning ridge cache. -/
  | semacq (c : Nat) (p : Pre) (f : FmtA)
  /-- R89. A semaphore acquire whose Crest limit passes first returns 0 and leaves the word unchanged. -/
  | semacqTimeout (c : Nat)
  /-- R89. Waits for earlier stores and DMAQs of the core, then atomically adds to a semaphore word. -/
  | semrel (c : Nat) (p : Pre) (f : FmtA)
  /-- R181. Starts a DMA transfer from a descriptor in sheaf memory. -/
  | dmaq (c : Nat) (p : Pre) (f : FmtA)
  /-- R77. Reads the number of this core's started and incomplete DMA transfers. -/
  | dmard (c : Nat) (p : Pre) (f : FmtA)
  /-- R77. Reads an engine's ACSW in that engine's queue order. -/
  | racsw (c : Nat) (p : Pre) (f : FmtA)
  /-- R61. Writes an engine's ACSW under its access codes. -/
  | wacsw (c : Nat) (p : Pre) (f : FmtA)
  /-- R46. Sets an engine's SEED and ESEQ. -/
  | seed (c : Nat) (p : Pre) (f : FmtA)
  /-- R77. Reads an engine's ESEQ. -/
  | rseq (c : Nat) (p : Pre) (f : FmtA)
  /-- R88. An instruction's results become visible and its SV signal increments its event counter. -/
  | instructionCompletion (c u : Nat)
  /-- R352. The Col die fetches a command from a queue pair once a reply slot can be reserved. -/
  | commandFetch (q : Nat) (entry : List Byte) (readOk : Bool)
  /-- R366. Returns device, topology, module and version information. -/
  | identify (h : Cmd)
  /-- R366. Returns the acting tenant's bound resources and shares. -/
  | tenantInfo (h : Cmd)
  /-- R366. Reads device control words for tenant 0. -/
  | regRead (h : Cmd)
  /-- R366. Writes device control words for tenant 0. -/
  | regWrite (h : Cmd)
  /-- R350. Creates a queue pair held by the issuing function. -/
  | qpCreate (h : Cmd)
  /-- R355. Deletes a queue pair, discarding replies of commands still running. -/
  | qpDelete (h : Cmd)
  /-- R350. Gives a queue pair to a function under a local index. -/
  | qpAssign (h : Cmd)
  /-- R132. Binds or unbinds cores in PREEMPT, DISCARD or DRAIN mode. -/
  | bindCores (h : Cmd)
  /-- R136. Binds or unbinds memory granules, clearing them unless KEEP. -/
  | bindMemory (h : Cmd)
  /-- R137. Binds or unbinds optical ports. -/
  | bindPorts (h : Cmd)
  /-- R112. Sets a tenant's scheduler share. -/
  | setShare (h : Cmd)
  /-- R116. Sets a tenant's priority pre-emption and backfill limit. -/
  | schedPolicy (h : Cmd)
  /-- R113. Submits a graph image for admission. -/
  | graphSubmit (h : Cmd)
  /-- R108. Releases a graph admitted with START_HELD. -/
  | graphStart (h : Cmd)
  /-- R128. Releases the handle of a retired graph. -/
  | graphRelease (h : Cmd)
  /-- R123. Aborts a task, a graph or every graph of a tenant. -/
  | abort (h : Cmd)
  /-- R119. Pre-empts a running task on host request. -/
  | preempt (h : Cmd)
  /-- R122. Restarts a HELD task from its entry address. -/
  | taskRestart (h : Cmd)
  /-- R117. Makes a HOST_GATE task final with status OK. -/
  | gateRelease (h : Cmd)
  /-- R125. Creates a completion ring. -/
  | ringCreate (h : Cmd)
  /-- R110. Deletes a completion ring no resident graph names. -/
  | ringDelete (h : Cmd)
  /-- R366. Copies records out of a completion, fault or trace ring and advances HEAD. -/
  | ringPop (h : Cmd)
  /-- R366. Reads tenant memory through the owning ridge cache into the data buffer. -/
  | memRead (h : Cmd)
  /-- R366. Writes tenant memory from the data buffer. -/
  | memWrite (h : Cmd)
  /-- R176. Sets a tenant's root table and table area, or disables translation. -/
  | aspace (h : Cmd)
  /-- R496. Maps pages in a tenant's address space and invalidates TLBs. -/
  | map (h : Cmd)
  /-- R496. Unmaps pages and invalidates TLBs. -/
  | unmap (h : Cmd)
  /-- R496. Changes the permissions of mapped pages. -/
  | protect (h : Cmd)
  /-- R156. Sets the cache policy and borrow flag of granules. -/
  | granuleAttr (h : Cmd)
  /-- R159. Sets a tenant's ridge-cache way mask. -/
  | rcWays (h : Cmd)
  /-- R162. Flushes or flushes and removes a range or a whole ridge cache. -/
  | rcFlush (h : Cmd)
  /-- R179. Sets a tenant's limit on shared tags of a ridge. -/
  | dmaLimit (h : Cmd)
  /-- R154. Maps a DRAM row to a spare, copying its codewords. -/
  | rowRepair (h : Cmd)
  /-- R257. Removes a rejoined stack's lines from the caches, zeroes it and sets STACK_UP. -/
  | stackRejoin (h : Cmd)
  /-- R320. Sets the module's fabric identifier once per reset. -/
  | moduleId (h : Cmd)
  /-- R321. Writes routing table entries in every base die. -/
  | routeSet (h : Cmd)
  /-- R323. Sets the source modules admitted for a tenant's remote requests. -/
  | acceptSet (h : Cmd)
  /-- R204. Defines or redefines a collective group. -/
  | groupDefine (h : Cmd)
  /-- R308. Sets the request-lane arbitration weights of a port. -/
  | vcWeight (h : Cmd)
  /-- R309. Takes a fabric port down. -/
  | portDown (h : Cmd)
  /-- R313. Ends a port's session, completing waiting requests as PATH_LOST. -/
  | portFlush (h : Cmd)
  /-- R285. Sets NRZ or PAM4 on a reach port. -/
  | portMode (h : Cmd)
  /-- R292. Places a port in or out of TEST. -/
  | portTest (h : Cmd)
  /-- R271. Commands a laser switch-over, first bringing the spare up if needed. -/
  | laserSwitch (h : Cmd)
  /-- R278. Substitutes a spare wavelength for a data stream. -/
  | wlSubst (h : Cmd)
  /-- R279. Moves a substituted stream back to its own line. -/
  | wlRestore (h : Cmd)
  /-- R367. Sends an embedded command to another module and returns its reply. -/
  | remote (h : Cmd)
  /-- R388. Changes the operating profile's four settings in order. -/
  | profileSet (h : Cmd)
  /-- R390. Sets or withdraws an override of one profile setting. -/
  | override (h : Cmd)
  /-- R387. Selects central or stacked thermal mode. -/
  | thermalMode (h : Cmd)
  /-- R392. Returns power and thermal telemetry. -/
  | powerRead (h : Cmd)
  /-- R461. Starts a named calibration of a unit. -/
  | calRun (h : Cmd)
  /-- R463. Returns the count and last-run stamp of each calibration of a unit. -/
  | calStatus (h : Cmd)
  /-- R422. Returns a signed attestation report for the acting tenant. -/
  | attest (h : Cmd)
  /-- R366. Returns a certificate by index. -/
  | certRead (h : Cmd)
  /-- R417. Writes an image chunk to a component's inactive bank. -/
  | fwStage (h : Cmd)
  /-- R418. Verifies the inactive bank and makes it active for the next taking effect. -/
  | fwActivate (h : Cmd)
  /-- R421. Returns the rollback counters and active SVNs. -/
  | rollbackRead (h : Cmd)
  /-- R192. Creates a tenant's fault ring or the module fault ring. -/
  | faultRing (h : Cmd)
  /-- R193. Makes a FAULT_WAIT task ready again. -/
  | faultResume (h : Cmd)
  /-- R196. Ends a FAULT_WAIT task with MEMORY_FAULT. -/
  | faultEnd (h : Cmd)
  /-- R255. Fences a die on command. -/
  | dieFence (h : Cmd)
  /-- R256. Resets, retrains and re-identifies a fenced die. -/
  | dieRejoin (h : Cmd)
  /-- R428. Sets the severity level of a fault source. -/
  | severity (h : Cmd)
  /-- R435. Drives or releases FAULT_N after any pulse. -/
  | faultPin (h : Cmd)
  /-- R453. Returns a signed Cairn record by number. -/
  | cairnRecord (h : Cmd)
  /-- R452. Returns the Cairn seal and tamper counters. -/
  | cairnStatus (h : Cmd)
  /-- R457. Returns the acting tenant's energy entries by binding epoch. -/
  | apportion (h : Cmd)
  /-- R338. Creates a trace ring for a mask of record types. -/
  | traceRing (h : Cmd)
  /-- R329. Steps the Crest counter forward to a value. -/
  | timeSet (h : Cmd)
  /-- R329. Steps the Crest counter backward while no tenant work exists. -/
  | timeStep (h : Cmd)
  /-- R330. Sets the candidate Crest parent ports. -/
  | parentSet (h : Cmd)
  /-- R332. A partner's Crest report arrives and the servo updates offset and rate. -/
  | crestReport (h : Cmd)
  /-- R425. Enters factory test mode with a signed token. -/
  | factoryEnter (h : Cmd)
  /-- R425. Leaves factory test mode. -/
  | factoryExit (h : Cmd)
  /-- R441. Injects occurrences of a fault source in factory test mode. -/
  | faultInject (h : Cmd)
  /-- R441. Each spaced injected occurrence sets the source and takes its severity reaction. -/
  | faultInjectOccurrence (source : Nat)
  /-- R366. Returns the management-firmware log. -/
  | logRead (h : Cmd)
  /-- R367. An MGT_REQ carrying a command arrives and is executed as the named tenant if admitted. -/
  | remoteCommandReceive (port src tenant reqId : Nat) (entry dataIn : List Byte)
  /-- R351. Host writes the command ring TAIL doorbell. -/
  | hstDbCmd (fn i : Nat) (tail : Word32)
  /-- R351. Host writes the reply ring HEAD doorbell. -/
  | hstDbRpl (fn i : Nat) (head : Word32)
  /-- R350. Writing EN=1 in HST_QPB_CFG creates local queue pair 0. -/
  | qpEnable (fn : Nat) (value : Word32)
  /-- R355. Writing EN=0 in HST_QPB_CFG deletes local queue pair 0. -/
  | qpDisable (fn : Nat) (value : Word32)
  /-- R394. RST_CTRL.SYS written with the key starts a system reset. -/
  | swSys (value : Word32)
  /-- R394. RST_CTRL.CORE written with the key starts a core reset. -/
  | swCore (value : Word32)
  /-- R402. Clearing a bit of RST_HOLD_CD requests release of a compute die's cores. -/
  | holdReleaseRequest (value : Word32)
  /-- R271. The base die writes GO to switch lasers at the next block boundary. -/
  | prgSwitch (k : Nat) (value : Word32)
  /-- R293. Writing INJ_ONE inserts one error into a test pattern. -/
  | injOne (k port : Nat) (value : Word32)
  /-- R286. A write to PRG_PAM4_LVL_p takes effect at the next block boundary if strictly increasing. -/
  | pam4LevelWrite (k port : Nat) (value : Word32)
  /-- R453. Host raises CRN_ACK, releasing acknowledged Cairn records to overwrite. -/
  | crnAckWrite (value : Word32)
  /-- R447. Sets a new interval length taking effect at the end of the current interval. -/
  | crnIntervalWrite (value : Word32)
  /-- R437. Writing 0 to FLT_SAFE_INFO.VALID re-arms the first-cause capture. -/
  | safeInfoClear (value : Word32)
  /-- R13. A write to a device control register with no row of its own, under its access codes. -/
  | registerWrite (addr : RegAddr) (value : Word32)
  /-- R10. Reading a 64-bit register's low word captures its high word into the read shadow. -/
  | reg64LowWordRead (addr : RegAddr)
  /-- R10. Writing a 64-bit register's low word commits all 64 bits with the write shadow. -/
  | reg64LowWordWrite (addr : RegAddr) (value : Word32)
  /-- R15. A read that returns an RC field clears it. -/
  | rcFieldRead (addr : RegAddr)
  /-- R113. A queued graph is admitted whole when room frees, and its submission reply is sent. -/
  | graphAdmission (tenant : Nat)
  /-- R115. A dispatch unit places and starts a ready task or gang on idle bound cores or its executing unit. -/
  | taskDispatch (ridge : Nat)
  /-- R116. The first waiting task passes its backfill limit, stopping backfill and possibly pre-empting for priority. -/
  | backfillLimitExpiry (ridge tenant : Nat)
  /-- R120. A task whose cores ended and transfers completed is committed final and its successors are released. -/
  | taskCommit (handle task : Nat)
  /-- R124. An abort reaches the home dispatch unit and is settled against the commit stamp. -/
  | abortArrival (handle task : Nat)
  /-- R98. A pre-emption request reaches a core, which stops issuing and drains its units. -/
  | preemptionRequest (c : Nat)
  /-- R98. The context image is written and the core reports the pre-emption. -/
  | contextSaveComplete (c : Nat)
  /-- R98. A pre-empted task's image is restored and its queues refilled on placement. -/
  | taskResume (ridge : Nat)
  /-- R127. A completion record waiting for ring room is written when a slot is free. -/
  | recordWrite (tenant ring : Nat)
  /-- R127. The module rereads a full ring's HEAD at most once per microsecond. -/
  | ringHeadReread (kind tenant ring : Nat)
  /-- R134. A binding core finishes clearing its sheaf and enters BOUND. -/
  | coreSheafClearDone (c : Nat)
  /-- R200. Once translated transactions into a granule drain, T_bind is stamped and the new binding takes effect. -/
  | granuleBindCommit (ridge g : Nat)
  /-- R136. The background clear of a granule finishes. -/
  | granuleClearComplete (ridge g : Nat)
  /-- R140. A read request is served through the owning ridge cache, filling from the stacks on a miss. -/
  | memoryReadRequest (rq : Requester) (tenant pa len : Nat)
  /-- R148. A write request is accepted by the owning ridge cache or merged into a codeword. -/
  | memoryWriteRequest (rq : Requester) (tenant pa : Nat) (bytes : List Byte) (mask : List Bool)
  /-- R153. The patrol scrubber reads the next codeword and writes back corrections. -/
  | patrolScrubRead (stack : Nat)
  /-- R377. A stack in self-refresh wakes on its first access or clear. -/
  | stackWake (stack : Nat)
  /-- R164. The NEAR unit reads a NEAR descriptor and starts the primitive. -/
  | nearTaskStart (handle task : Nat)
  /-- R169. A NEAR chunk is translated, computed and applied by the Spelt bases. -/
  | nearChunkComplete (handle task : Nat)
  /-- R177. A table walk completes its permission and binding check and stamps the translation. -/
  | pageWalkComplete (rq : Requester) (tenant : Nat) (va : Word64) (acc : Access)
  /-- R180. A requester waiting for a tag obtains one from its ridge pool. -/
  | tagAcquire (ridge : Nat) (rq : Requester) (tenant : Nat) (use : TagUse)
  /-- R188. A response to an outstanding tag arrives, or is discarded if its request was abandoned. -/
  | transactionResponse (ridge tag status kind server fseq : Nat) (data : List Byte)
  /-- R184. A chunk whose requests completed retires in order through the check-value unit. -/
  | dmaChunkRetire (x : XferRef)
  /-- R192. A fault record waiting in the Col die store is written to its fault rings. -/
  | faultRecordWrite (tenant : Nat)
  /-- R212. A collective starts once its group's sequence count reaches its COLL_SEQ. -/
  | collectiveTaskStart (handle task : Nat)
  /-- R213. A started collective sends its first message at T_NOT_BEFORE. -/
  | collectiveFirstSend (handle task : Nat)
  /-- R203. A collective message arrives and is checked and applied by the engine. -/
  | collectiveMessageReceive (ridge : Nat) (m : CollMsg)
  /-- R214. A collective chunk's bytes are accepted by the owning ridge cache. -/
  | collectiveChunkRetire (handle task : Nat)
  /-- R214. A participant whose chunks retired and messages were accepted commits and advances the sequence count. -/
  | collectiveCommit (handle task : Nat)
  /-- R215. A peer's failure notice ends this participant's collective in ERROR. -/
  | failureNoticeReceive (ridge : Nat) (m : FailNotice)
  /-- R224. After taking a FREE credit of every consumer the engine stages a block and raises every READY word. -/
  | attnBlockStage (handle task : Nat)
  /-- R235. A Jexurri beat is accepted if every flit's CRC and the BSEQ are good, applying credits and acknowledgements. -/
  | jxlBeatReceive (n port : Nat) (flits : List (List Byte))
  /-- R236. A received NAK makes the transmitter replay from ACK+1. -/
  | nak (n port ack : Nat)
  /-- R236. 128 ns without ACK progress makes the transmitter replay. -/
  | jxlReplayTimeout (n port : Nat)
  /-- R236. The receiver acknowledges after 16 beats or 16 ns. -/
  | jxlAckTimer (n port : Nat)
  /-- R237. A port retrains in service, keeping BSEQ, credits and the retry buffer. -/
  | jxlRetrain (n port : Nat) (cause : RetrainCause)
  /-- R243. With clock-good at both ends a port starts training its groups. Ports 0 to 5 are base-die BDn's; 8 to 10 are the compute
  dies' ends of its ports 0 to 2, and 11 the Col die's end of its port 5. -/
  | jxlTrainStart (n port : Nat) (failed : List Nat)
  /-- R247. A training marker arrives and width is agreed or a retrain with repair follows. -/
  | jxlMarkerReceive (n port : Nat) (marker : List Byte)
  /-- R249. An IDENT packet on a bridge gives a base die its identity. -/
  | ident (quadrant : Nat) (edgeE : Bool) (m : Nat)
  /-- R250. After 200 µs without link identity a base die takes its identity from its straps. -/
  | strapIdentityTimeout (quadrant : Nat)
  /-- R251. A base die reports its identity over its Stolon line and is fenced if it differs. -/
  | stolonIdentityReport (quadrant : Nat)
  /-- R254. Forwarded clocks stopped for t_CKL trigger a fence with cause CLOCK. -/
  | jxlClockLoss (n port : Nat)
  /-- R255. A fence trigger stops a port and begins completing its requests as PATH_LOST. -/
  | fenceTrigger (die : Nat) (cause : FenceCause)
  /-- R255. A fence completes, T_FENCE is stamped and the scheduler is told. -/
  | fenceComplete (die : Nat)
  /-- R259. A UCIe module trains at 16 or 8 GT/s or leaves its port down. -/
  | ucieModuleTrain (n k m rate : Nat)
  /-- R261. The base die asks the engine at a Porger site for its identity. -/
  | identQ (n k : Nat) (answer : List Byte) (late : Bool)
  /-- R262. The base die negotiates a site's parameters and optical acquisition begins. -/
  | paramSet (n k : Nat) (a : ParamAnswer)
  /-- R261. A sideband register read of the engine's window. -/
  | regRd (k addr : Nat) (late : Bool)
  /-- R261. A sideband register write of the engine's window. -/
  | regWr (k addr : Nat) (value : Word32) (late : Bool)
  /-- R261. Every 10 µs the base die polls the engine for fault summary and temperature. -/
  | statusQ (k temp : Nat) (late : Bool)
  /-- R275. Every 10 µs the base die sends the sensor reading used for ring feed-forward. -/
  | tempFf (k : Nat) (temp : Int)
  /-- R289. Every transmitter of the Porger goes dark within 1 µs. -/
  | blank (k : Nat) (late : Bool)
  /-- R289. Light returns within 5 µs. -/
  | unblank (k : Nat)
  /-- R261. An engine that answers late or outside the permitted values is refused. -/
  | engineRefused (n k : Nat)
  /-- R260. The sideband of a module of a site is lost; a site with no working sideband is fenced. -/
  | sidebandLost (n : Nat) (k : SiteModule)
  /-- R273. Every 100 µs the active laser monitor is sampled and an abrupt failure detected. -/
  | laserMonitorSample (k : Nat) (level : Int)
  /-- R269. Every 102.4 ms the fade is computed and warning, spare start or switch-over requested. -/
  | fadeUpdate (k : Nat)
  /-- R270. The spare reaches its temperature and starts locking. -/
  | spareWarmDone (k : Nat)
  /-- R270. The spare locks, takes the active laser's setpoints and enters standby. -/
  | spareStandby (k : Nat) (fade : Int)
  /-- R273. A spare not in standby within 20 ms is powered off and marked failed. -/
  | spareFailed (k : Nat)
  /-- R271. At a block boundary the selector turns to the spare and the switch is fused. -/
  | laserSwitchover (k : Nat)
  /-- R271. Once the spare's lines settle transmitters resume at a block boundary. -/
  | switchoverResume (k gapNs : Nat)
  /-- R276. A ring's lock error passes the slip threshold and it searches to relock. -/
  | ringSlip (k port x : Nat) (rx : Bool)
  /-- R276. A slipped ring relocks. -/
  | ringRelock (k port x : Nat) (rx : Bool) (heat : Nat)
  /-- R276. A ring that fails to relock in 1 ms is marked failed and its wavelength substituted. -/
  | ringFail (k port x : Nat) (rx : Bool)
  /-- R277. A spare wavelength above 10^-9 over 1 s is marked bad. -/
  | spareWlBad (k port ws : Nat)
  /-- R282. A receive line loses light and holds its thresholds, clock and heater. -/
  | lossOfSignal (k port x : Nat)
  /-- R282. Light returns and the receiver continues, re-adapts or reacquires by duration. -/
  | signalReturn (k port x darkNs : Nat)
  /-- R283. After 65,536 idle blocks a receive line freezes threshold adaptation. -/
  | adaptationFreeze (k port x : Nat)
  /-- R284. An in-service eye scan of a receive line completes its margins. -/
  | eyeScanPass (k port x : Nat) (margins : Word32)
  /-- R291. A site's active laser locks to the grid during acquisition. -/
  | siteAcquireLaserLocked (k : Nat) (fade : Int)
  /-- R291. All transmit rings of a site are acquired. -/
  | siteAcquireRings (k : Nat)
  /-- R291. Receivers adapt after partner light and the port becomes LIT. -/
  | receiversAdapted (k port : Nat)
  /-- R298. A stream loses block lock and resumes header hunt. -/
  | blockLockLoss (port w : Nat)
  /-- R298. A stream declares block lock after 64 valid headers. -/
  | blockLock (port w : Nat)
  /-- R303. A fabric packet is accepted, rejected or treated as a duplicate and then served, forwarded or delivered. -/
  | fabricPacketReceive (port : Nat) (sop body : List Byte)
  /-- R307. A packet waiting for credit and replay room is started on its lane. -/
  | fabricPacketSend (port lane : Nat)
  /-- R305. An ACK control block retires replay entries and raises the credit limit. -/
  | ack (port lane consumed limit : Nat)
  /-- R305. An RXSTAT reports ACCEPTED and with NAK starts a replay. -/
  | rxstat (port lane accepted : Nat) (nak : Bool)
  /-- R299. ALIGN blocks deskew streams and mark the point where agreed changes take effect. -/
  | align (port stream bip count : Nat)
  /-- R304. The receiver sends ACK and RXSTAT at least every 1 µs while its counts advance. -/
  | fabricAckTimer (port lane : Nat)
  /-- R305. An unretired packet waits 20 µs unreported and its lane is replayed. -/
  | fabricReplayTimeout (port lane : Nat)
  /-- R309. A port goes DOWN, stamps T_DOWN and holds its traffic. -/
  | linkDown (port : Nat) (cause : DownCause)
  /-- R309. A DOWN port tries to retrain every 1 ms. -/
  | fabricRetrainAttempt (port : Nat)
  /-- R312. Exchange of module identifier, port and mode requests at training. -/
  | helloA (port : Nat) (idSet : Bool) (modId partnerPort : Nat) (half pam4 : Bool)
  /-- R312. Exchange of incarnation and session, leading to UP, new session, STALE or waiting. -/
  | helloB (port incarnation session : Nat)
  /-- R315. Agrees a change of Full or Half link mode at a marker. -/
  | mode (port : Nat) (half : Bool) (m : Nat)
  /-- R316. Agrees a wavelength substitution or restore at a marker. -/
  | subst (port w spare m : Nat)
  /-- R317. Agrees the set of active streams at a marker. -/
  | stripe (port set m : Nat)
  /-- R314. Carries a partner's launch power for loss location. -/
  | mon (port x pwr : Nat)
  /-- R319. Yields the port's streams to the pattern generators or takes them back. -/
  | test (port : Nat) (enter : Bool)
  /-- R314. An unanswered LINK block is repeated every 1 µs. -/
  | linkExchangeRepeat (port : Nat)
  /-- R330. A TIME block arrives and is stamped for the two-way time exchange. -/
  | time (port stamp : Nat)
  /-- R318. A TIME block is sent at least every 100 µs. -/
  | timeBlockSend (port : Nat)
  /-- R316. A stream's BIP-8 error ratio exceeds 10^-8 over 100 ms and is reported for substitution. -/
  | streamErrorRatioExceeded (port w : Nat)
  /-- R327. Every 2^20 counts the Col die sends the epoch value and slew schedule, and dies realign. -/
  | crestEpochPulse
  /-- R331. Every 1 ms the base die sends a Crest report on each synchronisation port. -/
  | crestReportTimer (port : Nat)
  /-- R334. The Crest parent port goes down and the module moves to another candidate or holdover. -/
  | parentPortLost
  /-- R338. A stored trace record is written when its ring has room. -/
  | traceRecordWrite (ring : Nat)
  /-- R354. 16 µs after an unsignalled entry the MSI-X vector is signalled. -/
  | msixModerationTimer (src : IrqSource)
  /-- R356. An FLR deletes a function's queue pairs and clears its MSI-X table and control page. -/
  | functionLevelReset (fn : Nat)
  /-- R398. The PCIe link trains after PERST_N deasserts. -/
  | pcieLinkTraining (rate width : Nat) (eq16 eq32 : Bool)
  /-- R346. A partner's preset or coefficient request is applied or rejected. -/
  | eqCoefficientRequest (lane pre main post : Nat)
  /-- R348. The host-lane eye scan completes a lane. -/
  | hostEyeScanPass (lane : Nat) (margins : Word32)
  /-- R349. The host puts the link into Loopback and an armed pattern check starts. -/
  | loopbackEntry
  /-- R349. The link leaves Loopback; the check ends and ARM clears. -/
  | loopbackExit (errors : List Nat)
  /-- R432. The PCIe link leaves L0 for Detect or Disabled. -/
  | hostLinkDown (disabled : Bool)
  /-- R373. The input rises above 40 V and soft start and rail sequencing begin. -/
  | powerOn
  /-- R373. The last rails come up and the reset sequence begins. -/
  | railsComplete
  /-- R371. Every 0.25 µs the input voltage and current are sampled and compared with thresholds. -/
  | inputMonitorSample (mv ma : Nat)
  /-- R380. The input current stays above I_OCS for 20 µs and the slow signal is asserted. -/
  | overcurrent
  /-- R380. After t_REL with neither condition the slow signal is withdrawn. -/
  | slowRelease
  /-- R394. The input falls below V_BOR and starts a power-on reset. -/
  | bor
  /-- R394. Over-voltage shutdown starts a power-on reset. -/
  | ovs
  /-- R372. A stage-1 phase fails, is switched out and the cap may be lowered. -/
  | phaseLost
  /-- R375. A PLL loses lock or reference and withdraws clock-good. -/
  | clockGoodLoss (blk : Block)
  /-- R377. A bound core with no task for 1 µs gates its clocks. -/
  | coreIdleSleep (c : Nat)
  /-- R378. A woken core's rail, PLL and reset sequence complete and its clock is released. -/
  | coreWakeComplete (c : Nat)
  /-- R379. A core's rail drops below its setpoint and its clock is stretched. -/
  | droopStretch (c : Nat) (deep : Bool)
  /-- R379. The rail holds within 6 % for 32 stretched cycles and stretching ends. -/
  | droopRecover (c : Nat)
  /-- R382. Every 100 µs the power manager adjusts compute-die power limits against the cap. -/
  | powerCapStep (meanMw : Nat)
  /-- R383. Die temperature sensors are sampled every 10 µs. -/
  | temperatureSample (die : Nat) (temp : Int)
  /-- R385. Every 50 µs a die at or above its local throttle lowers its ceiling by 100 MHz. -/
  | localThrottleStep (die : Nat)
  /-- R385. Every 1 ms below release the local throttle ceiling rises by 100 MHz. -/
  | localThrottleReleaseStep (die : Nat)
  /-- R386. A die reaching its trip temperature stops its clocks and is fenced, or the module enters safe state. -/
  | trip (die : Nat)
  /-- R387. Every 100 µs in central mode the power manager adjusts thermal ceilings and issue limits. -/
  | thermalControlStep (raise : Bool)
  /-- R387. In stacked mode a base-die sensor enters or leaves a band and hardware sets ceilings and issue limits. -/
  | stackedBandChange (die : Nat) (temp : Int) (held : Bool)
  /-- R394. MRST_N released after a pulse of 1 µs to 1 s starts a system reset. -/
  | mrst
  /-- R394. MRST_N held low for 1 s starts a power-on reset. -/
  | mrstLong
  /-- R398. PERST_N assertion starts a system reset or resets the host link only. -/
  | perst
  /-- R398. PERST_N deasserts and link training may start within 20 ms. -/
  | perstDeassert
  /-- R394. The management firmware watchdog expires after 1 s and starts a system reset. -/
  | wdog
  /-- R395. An error in critical state starts the reset of its scope. -/
  | crit (row die : Nat) (corrected : Bool)
  /-- R401. A block is released from reset after 64 stable clock-good cycles. -/
  | blockResetRelease (blk : Block)
  /-- R406. The option load completes, or after three incomplete loads safe defaults are applied and cores held. -/
  | winnowerLoadComplete (image : List Byte) (fuseErr : Bool)
  /-- R419. The ROM verifies component 0, chooses a bank or recovery, and derives the alias key. -/
  | romBoot (v : BootVerdict)
  /-- R410. Management firmware runs and HST_FN_STATUS.READY is set. -/
  | firmwareReady
  /-- R429. A fault source occurs, sets its sticky bit and takes the reaction of its severity. -/
  | faultSourceOccurrence (source core : Nat)
  /-- R431. Every 1 ms the Col die reads the fault blocks of a ridge cut off from the main route. -/
  | stolonFaultPoll (n : Nat)
  /-- R435. At the end of the FAULT_N pulse the pin follows FLT_CTRL.PIN. -/
  | faultNPulseEnd
  /-- R436. A base die losing its Stolon reference for 1 µs enters its local safe state. -/
  | localSafeState (n : Nat)
  /-- R437. AUTO_DELAY after safe-state entry a system reset with cause FAULT starts. -/
  | safeAutoReset
  /-- R447. The Cairn closes and signs an interval record, and firmware apportions its energy. -/
  | intervalClose (m : Meter)
  /-- R451. The Cairn supply returns above 20 V and a POWER_UP record is written. -/
  | powerUp
  /-- R459. The Cairn supply falls below 20 V and the interval closes short with POWER_DOWN. -/
  | cairnSupplyLoss (m : Meter)
  /-- R451. The seal cover switch opens and TAMPER_COUNT rises. -/
  | coverOpen
  /-- R451. A field above 50 mT for 1 s at the shunt is recorded. -/
  | magnetic
  /-- R454. The Col die's 1 ms Crest value reaches the Cairn, which may detect a step or incarnation. -/
  | cairnCrestValue (m : Meter)
  /-- R451. No Crest value for 10 ms; the Cairn extrapolates its stamps. -/
  | crestLost
  /-- R462. A calibration run finishes and its result is applied or rejected against fused limits. -/
  | calibrationComplete (unit code inst : Nat) (within : Bool) (value : Word32)
  /-- R470. Loading EXTEST lets the boundary cells drive and capture the pins. -/
  | extest (pins : Nat)
  /-- R469. The TAP instruction that reads the identification code. -/
  | idcode
  /-- R469. The TAP bypass instruction. -/
  | bypass
  /-- R469. The TAP SAMPLE/PRELOAD instruction. -/
  | samplePreload (pins : Nat)
  /-- R471. A private TAP instruction opens die-stack access in factory test mode, fencing wrapped dies. -/
  | privateTestInstruction (dies : TapOrder)
  /-- R394. TRST_N resets the test access port only. -/
  | trstN
  /-- R484. SMBus block read of identity registers. -/
  | smbusIdentify (pecOk : Bool)
  /-- R484. SMBus block read of reset, power, fault and Cairn status. -/
  | smbusStatus (pecOk : Bool)
  /-- R484. SMBus block read of the telemetry layout. -/
  | smbusTelemetry (pecOk : Bool)
  /-- R484. SMBus block read of FLT_UNIT_PENDING. -/
  | smbusFaults (pecOk : Bool)
  /-- R484. SMBus block write selecting a Cairn record and offset. -/
  | cairnSelect (recno offset : Nat) (pecOk : Bool)
  /-- R484. SMBus block read of up to 240 bytes of the selected record, advancing the offset. -/
  | cairnRead (pecOk : Bool)
  /-- R484. SMBus block read of the highest record number. -/
  | cairnLast (pecOk : Bool)
  /-- R483. A read of the Alert Response Address while SMB_ALERT_N is asserted. -/
  | smbusAlertResponse (pecOk : Bool)
  /-- R483. The 35 ms clock-low timeout ends a transaction. -/
  | smbusClockLowTimeout
  /-- R341. The host reads or writes the PCIe configuration space of a function, enabling SR-IOV VFs, MSI-X and other capabilities, or is answered with Configuration Request Retry Status before firmware runs. -/
  | pcieConfigurationRequest (fn off : Nat) (write : Bool) (value : Word32)
  /-- R278. A data wavelength's receiver has been in loss of signal for 1 ms while the port's other active wavelengths have light, so the wavelength is substituted, or the port goes down if no substitution is possible. -/
  | lossOfSignal1Ms (k port x : Nat)
  deriving DecidableEq, Repr

end Sys2Proof
end

