-- ==== Sys2Proof/Decode.lean ====
section
/-! DEFINITION. The words of the core instructions, from the layouts of R72 and R75 (spec/03_cores_and_instruction_set.md),
and the commands that words of the opcode table spell: spec/opcode_table.json gives no row any bits, so none do. -/

namespace Sys2Proof

/-- The command a word of `nbits` bits spells by the table's bits: no row of the table has bits. -/
def decodeTableWord (_nbits _w : Nat) : Option Instr := none

/-- Bits `[lo + w - 1 : lo]` of an instruction word, as a number. -/
def wordField (x : Word128) (lo w : Nat) : Nat := x.toNat / 2 ^ lo % 2 ^ w

/-- The format of an opcode listed under R77: 0 for A, 1 for V, 2 for T; none for an opcode that is not listed. -/
def opFormat (op : Byte) : Option Nat :=
  let o := op.toNat
  if o ≤ 0x0A then some 0
  else if 0x10 ≤ o ∧ o ≤ 0x1F then some 0
  else if 0x20 ≤ o ∧ o ≤ 0x26 then some 0
  else if 0x30 ≤ o ∧ o ≤ 0x3F then some 1
  else if 0x40 ≤ o ∧ o ≤ 0x4A then some 1
  else if 0x50 ≤ o ∧ o ≤ 0x52 then some 1
  else if 0x60 ≤ o ∧ o ≤ 0x62 then some 1
  else if 0x63 ≤ o ∧ o ≤ 0x67 then some 2
  else if 0x70 ≤ o ∧ o ≤ 0x75 then some 1
  else if 0x80 ≤ o ∧ o ≤ 0x83 then some 2
  else if 0x90 ≤ o ∧ o ≤ 0x95 then some 2
  else if 0xA0 ≤ o ∧ o ≤ 0xA4 then some 0
  else if 0xB0 ≤ o ∧ o ≤ 0xB1 then some 0
  else if 0xC0 ≤ o ∧ o ≤ 0xC3 then some 0
  else none

/-- Joins fields given highest first, each with its width. -/
def joinFields : List (Nat × Nat) → Nat
  | [] => 0
  | (w, v) :: r => v % 2 ^ w * 2 ^ ((r.map (·.1)).foldl (· + ·) 0) + joinFields r

/-- The common fields, highest first (R72). -/
def preFields (op : Byte) (p : Pre) : List (Nat × Nat) :=
  [(8, op.toNat), (2, p.rnd.toNat), (1, p.pn.toNat), (5, p.ps.toNat), (1, p.wv.toNat), (5, p.we.toNat), (1, p.sv.toNat),
   (5, p.se.toNat)]

/-- The operand fields of bits [99:0], highest first (R75). -/
def fmtFields : Fmt → List (Nat × Nat)
  | .a f => [(5, f.sd.toNat), (5, f.sa.toNat), (5, f.sb.toNat), (5, f.sc.toNat), (4, f.eng.toNat), (5, f.ev.toNat),
      (1, f.ib.toNat), (6, f.rsv.toNat), (64, f.imm.toNat)]
  | .v f => [(1, f.ve.toNat), (6, f.vd.toNat), (6, f.va.toNat), (6, f.vb.toNat), (6, f.vc.toNat), (3, f.ty.toNat),
      (1, f.bs.toNat), (5, f.sa.toNat), (4, f.fmts.toNat), (4, f.fmtd.toNat), (10, f.rsv.toNat), (48, f.imm.toNat)]
  | .t f => [(4, f.ad.toNat), (1, f.clr.toNat), (4, f.pfmt.toNat), (4, f.qfmt.toNat), (1, f.psrc.toNat), (5, f.pt.toNat),
      (1, f.qsrc.toNat), (5, f.qt.toNat), (3, f.td.toNat), (6, f.vs.toNat), (5, f.sa.toNat), (3, f.mask.toNat),
      (4, f.ofmt.toNat), (22, f.rsv.toNat), (32, f.imm.toNat)]

/-- The 128-bit word of an instruction (R72, R75). -/
def encodeCore (w : CWord) : Word128 := BitVec.ofNat 128 (joinFields (preFields w.op w.pre ++ fmtFields w.fmt))

/-- The operand fields of a word in format A (R75). -/
def decodeA (x : Word128) : FmtA :=
  ⟨BitVec.ofNat 5 (wordField x 95 5), BitVec.ofNat 5 (wordField x 90 5), BitVec.ofNat 5 (wordField x 85 5),
   BitVec.ofNat 5 (wordField x 80 5), BitVec.ofNat 4 (wordField x 76 4), BitVec.ofNat 5 (wordField x 71 5),
   wordField x 70 1 == 1, BitVec.ofNat 6 (wordField x 64 6), BitVec.ofNat 64 (wordField x 0 64)⟩

/-- The operand fields of a word in format V (R75). -/
def decodeV (x : Word128) : FmtV :=
  ⟨wordField x 99 1 == 1, BitVec.ofNat 6 (wordField x 93 6), BitVec.ofNat 6 (wordField x 87 6),
   BitVec.ofNat 6 (wordField x 81 6), BitVec.ofNat 6 (wordField x 75 6), BitVec.ofNat 3 (wordField x 72 3),
   wordField x 71 1 == 1, BitVec.ofNat 5 (wordField x 66 5), BitVec.ofNat 4 (wordField x 62 4),
   BitVec.ofNat 4 (wordField x 58 4), BitVec.ofNat 10 (wordField x 48 10), BitVec.ofNat 48 (wordField x 0 48)⟩

/-- The operand fields of a word in format T (R75). -/
def decodeT (x : Word128) : FmtT :=
  ⟨BitVec.ofNat 4 (wordField x 96 4), wordField x 95 1 == 1, BitVec.ofNat 4 (wordField x 91 4),
   BitVec.ofNat 4 (wordField x 87 4), wordField x 86 1 == 1, BitVec.ofNat 5 (wordField x 81 5), wordField x 80 1 == 1,
   BitVec.ofNat 5 (wordField x 75 5), BitVec.ofNat 3 (wordField x 72 3), BitVec.ofNat 6 (wordField x 66 6),
   BitVec.ofNat 5 (wordField x 61 5), BitVec.ofNat 3 (wordField x 58 3), BitVec.ofNat 4 (wordField x 54 4),
   BitVec.ofNat 22 (wordField x 32 22), BitVec.ofNat 32 (wordField x 0 32)⟩

/-- The instruction of a 128-bit word, none for an opcode R77 does not list. -/
def decodeCore (x : Word128) : Option CWord :=
  let op : Byte := BitVec.ofNat 8 (wordField x 120 8)
  let pre : Pre := ⟨BitVec.ofNat 2 (wordField x 118 2), wordField x 117 1 == 1, BitVec.ofNat 5 (wordField x 112 5),
    wordField x 111 1 == 1, BitVec.ofNat 5 (wordField x 106 5), wordField x 105 1 == 1, BitVec.ofNat 5 (wordField x 100 5)⟩
  match opFormat op with
  | some 0 => some ⟨op, pre, .a (decodeA x)⟩
  | some 1 => some ⟨op, pre, .v (decodeV x)⟩
  | some _ => some ⟨op, pre, .t (decodeT x)⟩
  | none => none

end Sys2Proof
end

