-- ==== Sys2Proof/Machine/Map.lean ====
section
/-! DEFINITION. Sparse tables keyed by Nat in one canonical form (keys strictly rising, no entry equal to
the value an unlisted key reads as), and the small list and bit-field helpers used everywhere. -/

namespace Sys2Proof.Machine

/-- A sparse table: pairs of key and value, keys strictly rising. -/
abbrev Mp (α : Type) := List (Nat × α)

/-- The value at a key, `d` where the table lists none. -/
def Mp.get {α : Type} (d : α) : Mp α → Nat → α
  | [], _ => d
  | (k', v) :: r, k => if k' = k then v else Mp.get d r k

/-- The entry at a key, if listed. -/
def Mp.find {α : Type} : Mp α → Nat → Option α
  | [], _ => none
  | (k', v) :: r, k => if k' = k then some v else Mp.find r k

/-- Lists a value at a key, keeping keys strictly rising. -/
def Mp.ins {α : Type} : Mp α → Nat → α → Mp α
  | [], k, v => [(k, v)]
  | (k', v') :: r, k, v =>
    if k' < k then (k', v') :: Mp.ins r k v
    else if k' = k then (k, v) :: r
    else (k, v) :: (k', v') :: r

/-- Removes the entry at a key. -/
def Mp.del {α : Type} (m : Mp α) (k : Nat) : Mp α := m.filter (fun p => p.1 != k)

/-- Writes a value: a value equal to the default is not listed. -/
def Mp.put {α : Type} [DecidableEq α] (d : α) (m : Mp α) (k : Nat) (v : α) : Mp α :=
  if v = d then Mp.del m k else Mp.ins m k v

/-- Applies a function to the value at a key. -/
def Mp.upd {α : Type} [DecidableEq α] (d : α) (m : Mp α) (k : Nat) (f : α → α) : Mp α :=
  Mp.put d m k (f (Mp.get d m k))

/-- The listed entries of consecutive keys from `b` holding the values of a list. -/
def Mp.run {α : Type} [DecidableEq α] (d : α) : Nat → List α → Mp α
  | _, [] => []
  | b, v :: r => if v = d then Mp.run d (b + 1) r else (b, v) :: Mp.run d (b + 1) r

/-- Writes a list of values at consecutive keys from `b`. -/
def Mp.blit {α : Type} [DecidableEq α] (d : α) (m : Mp α) (b : Nat) (vs : List α) : Mp α :=
  m.filter (fun p => decide (p.1 < b)) ++ Mp.run d b vs
    ++ m.filter (fun p => decide (b + vs.length ≤ p.1))

/-- The values at `n` consecutive keys from `b`. -/
def Mp.slice {α : Type} (d : α) (m : Mp α) (b n : Nat) : List α :=
  let w := m.filter (fun p => decide (b ≤ p.1) && decide (p.1 < b + n))
  (List.range n).map (fun i => Mp.get d w (b + i))

/-- Writes only the values whose mask bit is set. -/
def Mp.blitMask {α : Type} [DecidableEq α] (d : α) (m : Mp α) (b : Nat) (vs : List α) (mask : List Bool) : Mp α :=
  let old := Mp.slice d m b vs.length
  Mp.blit d m b (List.zipWith (fun (p : α × α) (w : Bool) => if w then p.2 else p.1) (old.zip vs)
    (mask ++ List.replicate (vs.length - mask.length) true))

/-- The canonical form: keys strictly rising and no entry equal to the default. -/
def Mp.wf {α : Type} [DecidableEq α] (d : α) (m : Mp α) : Bool :=
  decide ((m.map (·.1)).Pairwise (· < ·)) && m.all (fun p => decide (p.2 ≠ d))

/-- Replaces element `i` of a list; a list too short is left as it is. -/
def setAt {α : Type} (l : List α) (i : Nat) (v : α) : List α := l.set i v

/-- Applies a function to element `i` of a list. -/
def modAt {α : Type} (l : List α) (i : Nat) (f : α → α) : List α :=
  match l[i]? with
  | some v => l.set i (f v)
  | none => l

/-- Bits `[lo + w - 1 : lo]` of a number (R6, R17). -/
def fieldOf (x lo w : Nat) : Nat := (x >>> lo) % 2 ^ w

/-- A number with bits `[lo + w - 1 : lo]` replaced. -/
def withField (x lo w v : Nat) : Nat :=
  x - (fieldOf x lo w) * 2 ^ lo + (v % 2 ^ w) * 2 ^ lo

/-- Bit `i` of a number. -/
def bitOf (x i : Nat) : Bool := x.testBit i

/-- The `n` little-endian bytes of a number (R12). -/
def leBytes : Nat → Nat → List Byte
  | 0, _ => []
  | n + 1, x => BitVec.ofNat 8 x :: leBytes n (x / 256)

/-- The number whose little-endian bytes are given (R12). -/
def leNat : List Byte → Nat
  | [] => 0
  | b :: r => b.toNat + 256 * leNat r

/-- `n` bytes of a list from `off`, missing bytes zero. -/
def bytesAt (l : List Byte) (off n : Nat) : List Byte :=
  (List.range n).map (fun i => (l.drop off).getD i 0#8)

/-- The little-endian field of `n` bytes at `off` of a structure (R12). -/
def leAt (l : List Byte) (off n : Nat) : Nat := leNat ((l.drop off).take n)

/-- The number packed from elements of `w` bits, element 0 lowest (R36). -/
def packBits (w : Nat) : List Nat → Nat
  | [] => 0
  | x :: r => x % 2 ^ w + 2 ^ w * packBits w r

/-- The first `n` elements of `w` bits of a bit string, element 0 lowest (R36). -/
def unpackBits (w : Nat) : Nat → Nat → List Nat
  | 0, _ => []
  | n + 1, x => x % 2 ^ w :: unpackBits w n (x / 2 ^ w)

/-- The signed value of a `w`-bit pattern. -/
def sext (w x : Nat) : Int :=
  let y := x % 2 ^ w
  if 2 * y < 2 ^ w then (y : Int) else (y : Int) - ((2 ^ w : Nat) : Int)

/-- The `w`-bit two's complement pattern of an integer. -/
def wrap (w : Nat) (x : Int) : Nat := (x % ((2 ^ w : Nat) : Int)).toNat

/-- One bit as a number. -/
def b2n (b : Bool) : Nat := if b then 1 else 0

/-- Rounds up to a multiple. -/
def alignUp (x a : Nat) : Nat := (x + a - 1) / a * a

/-- Joins a list of numbers as little-endian fields of the given widths in bytes. -/
def leFields (fs : List (Nat × Nat)) : List Byte := fs.flatMap (fun p => leBytes p.1 p.2)

end Sys2Proof.Machine
end

