-- ==== Sys2Proof/Machine/Codeword.lean ====
section
/-! DEFINITION. The Reed-Solomon code of the stacks (spec/05_memory_stacks_and_ridge_cache.md R145 to R147): 64 data symbols
and 8 check symbols over GF(2^8), its systematic encoder, and the bounded-distance decoder of both protection modes. -/

namespace Sys2Proof.Machine

/-! ## The field (R145) -/

/-- A field element times α = 0x02, modulo x^8 + x^4 + x^3 + x^2 + 1. -/
def gfDouble (a : Byte) : Byte := (a <<< 1) ^^^ (if a.msb then 0x1D#8 else 0#8)

/-- The product of two field elements, from the bits of the second, the highest first. -/
def gfMul (a b : Byte) : Byte :=
  (List.range 8).foldl (fun acc i => gfDouble acc ^^^ (if b.getLsbD (7 - i) then a else 0#8)) 0#8

/-- α to a power. -/
def gfPow : Nat → Byte
  | 0 => 1#8
  | k + 1 => gfDouble (gfPow k)

/-- The inverse of a field element other than zero: its 254th power. -/
def gfInv (a : Byte) : Byte :=
  (List.range 7).foldl (fun acc _ => gfMul (gfMul acc acc) a) 1#8 |> fun x => gfMul x x

/-! ## Encoding -/

/-- The coefficients of g(x) = (x − α^0) … (x − α^7), the highest first, without the leading 1. -/
def rsGen : List Byte :=
  ((List.range 8).foldl (fun g i => List.zipWith (· ^^^ ·) (g ++ [0#8]) (0#8 :: g.map (gfMul (gfPow i)))) [1#8]).drop 1

/-- One step of the division of d(x) · x^8 by g(x): the remainder so far, the highest coefficient first, takes a data byte. -/
def rsStep (r : List Byte) (d : Byte) : List Byte :=
  List.zipWith (fun x g => x ^^^ gfMul (d ^^^ r.headD 0#8) g) (r.drop 1 ++ [0#8]) rsGen

/-- The eight check bytes of 64 data bytes: check byte j is the coefficient of x^(7 − j) of the remainder. -/
def rsCheck (data : List Byte) : List Byte := data.foldl rsStep (List.replicate 8 0#8)

/-- The 72 symbols of a fresh codeword, data byte i the coefficient of x^(71 − i). -/
def rsWord (data : List Byte) : List Byte := data ++ rsCheck data

/-- A word with symbols in error, each given by its place and what it differs by. -/
def rsErr (word : List Byte) (errs : Mp Byte) : List Byte := errs.foldl (fun w p => modAt w p.1 (· ^^^ p.2)) word

/-! ## Decoding (R146) -/

/-- The value of a word at α^j. -/
def rsAt (word : List Byte) (j : Nat) : Byte := word.foldl (fun a b => gfMul a (gfPow j) ^^^ b) 0#8

/-- The eight syndromes of a word: all zero for a codeword. -/
def rsSyndromes (word : List Byte) : List Byte := (List.range 8).map (rsAt word)

/-- The value of a polynomial, its lowest coefficient first. -/
def gfEval (p : List Byte) (x : Byte) : Byte := p.foldr (fun c a => gfMul a x ^^^ c) 0#8

/-- The sum of two polynomials, the lowest coefficient first. -/
def gfAdd : List Byte → List Byte → List Byte
  | [], q => q
  | p, [] => p
  | a :: p, b :: q => (a ^^^ b) :: gfAdd p q

/-- The error locator under way: the polynomial, the one before its last change of length, the length, the distance since
that change and the discrepancy there. -/
structure Locator where
  c : List Byte
  b : List Byte
  len : Nat
  gap : Nat
  d : Byte
  deriving DecidableEq, Repr

/-- The locator takes syndrome `n`. -/
def locStep (syn : List Byte) (l : Locator) (n : Nat) : Locator :=
  let d := (List.range (l.len + 1)).foldl (fun a i => a ^^^ gfMul ((l.c[i]?).getD 0#8) (if i ≤ n then (syn[n - i]?).getD 0#8 else 0#8)) 0#8
  if d = 0#8 then { l with gap := l.gap + 1 }
  else
    let f := gfMul d (gfInv l.d)
    let c := gfAdd l.c (List.replicate l.gap 0#8 ++ l.b.map (gfMul f))
    if 2 * l.len ≤ n then ⟨c, l.c, n + 1 - l.len, 1, d⟩ else { l with c := c, gap := l.gap + 1 }

/-- The locator polynomial of eight syndromes. -/
def locator (syn : List Byte) : List Byte := ((List.range 8).foldl (locStep syn) ⟨[1#8], [1#8], 0, 1, 1#8⟩).c

/-- The product of the syndromes and a locator, the coefficients of x^0 to x^7. -/
def evaluator (syn loc : List Byte) : List Byte :=
  (List.range 8).map (fun n => (List.range (n + 1)).foldl (fun a i => a ^^^ gfMul ((loc[i]?).getD 0#8) ((syn[n - i]?).getD 0#8)) 0#8)

/-- The formal derivative of a polynomial. -/
def gfDeriv (p : List Byte) : List Byte := (p.drop 1).mapIdx (fun i c => if i % 2 = 0 then c else 0#8)

/-- The errors a locator names: each place i whose α^(71 − i) is the inverse of a root, with its value. -/
def locErrors (syn : List Byte) : Mp Byte :=
  let loc := locator syn
  let ev := evaluator syn loc
  (List.range 72).foldl (fun m i =>
    let x := gfPow (71 - i)
    let xi := gfInv x
    if gfEval loc xi = 0#8 then Mp.put 0#8 m i (gfMul x (gfMul (gfEval ev xi) (gfInv (gfEval (gfDeriv loc) xi)))) else m) []

/-- Decodes a stored word correcting up to `t` symbols: the errors of the one codeword within that distance, none where there
is no such codeword. -/
def rsDecode (t : Nat) (word : List Byte) : Option (Mp Byte) :=
  let syn := rsSyndromes word
  if syn.all (· == 0#8) then some []
  else
    let e := locErrors syn
    if e.length ≤ t ∧ (rsSyndromes (rsErr word e)).all (· == 0#8) then some e else none

end Sys2Proof.Machine
end

