-- ==== Sys2Proof/Config.lean ====
section
/-! DEFINITION. The values the manual leaves open: constants without a body, so that nothing can be proved
from a particular value (log entries 2 to 9 name each). -/

namespace Sys2Proof

/-- A value of some width the manual leaves open, drawn once for each value of the state's counter (log entry 3). -/
opaque Config.free : (use : Nat) → (counter : Nat) → Nat

/-- The result the part's unpublished approximation of 1 ÷ x gives (R65), used where it lies within the bound (log entry 4). -/
opaque Config.rcp : Word32 → Word32

/-- The result the part's unpublished approximation of 1 ÷ √x gives (R65), used where it lies within the bound (log entry 4). -/
opaque Config.rsqrt : Word32 → Word32

/-- The result the part's unpublished approximation of 2^x gives (R65), used where it lies within the bound (log entry 4). -/
opaque Config.exp2 : Word32 → Word32

/-- The result the part's unpublished approximation of log2 x gives (R65), used where it lies within the bound (log entry 4). -/
opaque Config.log2 : Word32 → Word32

/-- The offset byte of an Emmer block coded as NaN under R43, whose four offsets no rule states (log entry 5). -/
opaque Config.emmerNanOffsets : List Word32 → Byte

/-- The 32-bit digest of what the members of a group must agree on (R208), whose function no rule states (log entry 6). -/
opaque Config.collDigest : List Byte → BitVec 32

/-- SHA3-256 (R413, R420, R449), which FIPS 202 fixes and no rule computes (log entry 7). -/
opaque Config.sha3 : List Byte → List Byte

/-- Whether a HashML-DSA-44 signature verifies under a context and a public key (R413), which FIPS 204 fixes (log entry 7). -/
opaque Config.verify : (context : Nat) → (key message signature : List Byte) → Bool

/-- The signature made under a context with the key pair of a seed (R413; log entry 7). -/
opaque Config.sign : (context : Nat) → (seed message : List Byte) → List Byte

/-- The public key of the key pair of a seed (R416; log entry 7). -/
opaque Config.publicKey : (seed : List Byte) → List Byte

/-- The secrets of a module: 0 the device identity seed (R416), 1 the seed of the Cairn's key (R455; log entry 7). -/
opaque Config.secret : Nat → List Byte

/-- The public keys whose identifiers the three root slots hold (R415; log entry 7). -/
opaque Config.rootKey : Nat → List Byte

/-- The certificates a module is made with, by the index of CERT_READ (R422, R455; log entry 7). -/
opaque Config.certificate : Nat → List Byte

/-- The digest of the Cairn's firmware (R449; log entry 7). -/
opaque Config.cairnDigest : List Byte

end Sys2Proof
end

