-- ==== Sys2Proof/Machine/RegMap.lean ====
section
/-! DEFINITION. The registers of the device control space (R8, R13, R14): one description per register table of spec/, the
address of each register and the place of each field. -/

namespace Sys2Proof.Machine

/-- The kinds of unit of R8. -/
inductive UKind where
  | col
  | bd
  | cd
  | oe
  | crn
  | any
  deriving DecidableEq, Repr

/-- The access codes of R13. -/
inductive Acc where
  | ro
  | rw
  | rw1c
  | rws
  | wo
  | rc
  deriving DecidableEq, Repr

/-- A field's reset value (R14): stated, from fuses (F), or loaded by the Winnower (W). -/
inductive Rst where
  | v (n : Nat)
  | f
  | w
  deriving DecidableEq, Repr

/-- One field of a register table. -/
structure RField where
  lo : Nat
  w : Nat
  acc : Acc
  rst : Rst
  deriving DecidableEq, Repr

/-- One register table: unit kind, offset, index strides and counts, whether it is 64 bits wide, its fields. -/
structure RegDesc where
  kind : UKind
  off : Nat
  dims : List (Nat × Nat)
  wide : Bool
  fields : List RField
  deriving DecidableEq, Repr

/-- A named field's place. -/
structure Fld where
  lo : Nat
  w : Nat
  deriving DecidableEq, Repr

/-- The address of an offset in a unit's window (R8). -/
def unitA (u off : Nat) : Nat := u * 0x4000000 + off
def colA (off : Nat) : Nat := off
def bdA (n off : Nat) : Nat := unitA (1 + n) off
def cdA (d off : Nat) : Nat := unitA (8 + d) off
def oeA (k off : Nat) : Nat := unitA (0x20 + k) off
def crnA (off : Nat) : Nat := unitA 0x30 off

/-- R4. -/
def rMGT_DEVICE_ID : Nat := colA (0x0)
/-- R28. -/
def rMGT_TOPOLOGY : Nat := colA (0x10)
/-- R95. -/
def rFLT_SHEAF_ECC (d c : Nat) : Nat := cdA d (0x30000 + 0x10 * c)
/-- R95. -/
def rFLT_SHEAF_ECC_ADDR (d c : Nat) : Nat := cdA d (0x30004 + 0x10 * c)
/-- R113. -/
def rTSC_CAPACITY : Nat := colA (0x100000)
/-- R113. -/
def rTSC_IN_USE : Nat := colA (0x100004)
/-- R113. -/
def rTSC_SHARE_A (t : Nat) : Nat := colA (0x100100 + 0x8 * t)
/-- R113. -/
def rTSC_SHARE_B (t : Nat) : Nat := colA (0x100104 + 0x8 * t)
/-- R113. -/
def rTSC_RIDGE_STATUS (n : Nat) : Nat := bdA n (0x100000)
/-- R134. -/
def rTSC_CORE_BIND (d c : Nat) : Nat := cdA d (0x40000 + 0x4 * c)
/-- R154. -/
def rMEM_RIDGE_CFG (n : Nat) : Nat := bdA n (0x200000)
/-- R154. -/
def rMEM_SCRUB_CTRL (n : Nat) : Nat := bdA n (0x200004)
/-- R154. -/
def rMEM_STACK_STATUS (n s : Nat) : Nat := bdA n (0x200100 + 0x10 * s)
/-- R154. -/
def rMEM_ERR_ADDR (n s : Nat) : Nat := bdA n (0x200108 + 0x10 * s)
/-- R163. -/
def rMEM_RC_CTRL (n : Nat) : Nat := bdA n (0x200008)
/-- R163. -/
def rMEM_RC_WAYS (n t : Nat) : Nat := bdA n (0x200400 + 0x4 * t)
/-- R163. -/
def rMEM_GATTR (n g : Nat) : Nat := bdA n (0x201000 + 0x4 * g)
/-- R173. -/
def rMMU_ROOT (t : Nat) : Nat := colA (0x110000 + 0x8 * t)
/-- R180. -/
def rDMA_TAGS (n : Nat) : Nat := bdA n (0x300000)
/-- R180. -/
def rDMA_TENANT_TAGS (n t : Nat) : Nat := bdA n (0x300100 + 0x4 * t)
/-- R192. -/
def rFLT_FREC_STATUS : Nat := colA (0x120000)
/-- R226. -/
def rDMA_COLL_STATUS (n : Nat) : Nat := bdA n (0x300200)
/-- R257. -/
def rJXL_IDENT (n : Nat) : Nat := bdA n (0x400000)
/-- R257. -/
def rJXL_PORT_STATUS (n p : Nat) : Nat := bdA n (0x400100 + 0x20 * p)
/-- R257. -/
def rJXL_PORT_ERR (n p : Nat) : Nat := bdA n (0x400104 + 0x20 * p)
/-- R257. -/
def rJXL_PORT_EVT (n p : Nat) : Nat := bdA n (0x400108 + 0x20 * p)
/-- R257. -/
def rJXL_PORT_TFENCE (n p : Nat) : Nat := bdA n (0x400110 + 0x20 * p)
/-- R257. -/
def rJXL_CD_STATUS (d : Nat) : Nat := cdA d (0x50000)
/-- R262. -/
def rUCI_SITE_STATUS (n k : Nat) : Nat := bdA n (0x500000 + 0x10 * k)
/-- R293. -/
def rPRG_LASER_STATUS (k : Nat) : Nat := oeA k (0x100)
/-- R293. -/
def rPRG_LASER_EVT (k : Nat) : Nat := oeA k (0x104)
/-- R293. -/
def rPRG_SWITCH (k : Nat) : Nat := oeA k (0x108)
/-- R293. -/
def rPRG_FF_CTRL (k : Nat) : Nat := oeA k (0x300)
/-- R293. -/
def rPRG_PORT_STATUS (k p : Nat) : Nat := oeA k (0x1000 + 0x400 * p)
/-- R293. -/
def rPRG_WL_SUB (k p : Nat) : Nat := oeA k (0x1004 + 0x400 * p)
/-- R293. -/
def rPRG_PORT_EVT (k p : Nat) : Nat := oeA k (0x1008 + 0x400 * p)
/-- R293. -/
def rPRG_BUS_MON (k p : Nat) : Nat := oeA k (0x100C + 0x400 * p)
/-- R293. -/
def rPRG_PAT_CTRL (k p : Nat) : Nat := oeA k (0x1010 + 0x400 * p)
/-- R293. -/
def rPRG_PAM4_LVL (k p : Nat) : Nat := oeA k (0x1020 + 0x400 * p)
/-- R293. -/
def rPRG_WL_MON (k p x : Nat) : Nat := oeA k (0x1100 + 0x400 * p + 0x8 * x)
/-- R293. -/
def rPRG_WL_RING (k p x : Nat) : Nat := oeA k (0x1104 + 0x400 * p + 0x8 * x)
/-- R293. -/
def rPRG_EYE (k p x : Nat) : Nat := oeA k (0x1200 + 0x400 * p + 0x4 * x)
/-- R293. -/
def rPRG_PAT_ERR (k p x : Nat) : Nat := oeA k (0x1280 + 0x400 * p + 0x4 * x)
/-- R324. -/
def rFLK_PORT_STATUS (n q : Nat) : Nat := bdA n (0x600000 + 0x40 * q)
/-- R324. -/
def rFLK_PORT_EVT (n q : Nat) : Nat := bdA n (0x600004 + 0x40 * q)
/-- R324. -/
def rFLK_PORT_ERR (n q : Nat) : Nat := bdA n (0x600008 + 0x40 * q)
/-- R324. -/
def rFLK_PORT_HELD (n q : Nat) : Nat := bdA n (0x60000C + 0x40 * q)
/-- R324. -/
def rFLK_PORT_SESSION (n q : Nat) : Nat := bdA n (0x600010 + 0x40 * q)
/-- R324. -/
def rFLK_PORT_TDOWN (n q : Nat) : Nat := bdA n (0x600018 + 0x40 * q)
/-- R324. -/
def rFLK_ACCEPT (n t : Nat) : Nat := bdA n (0x601000 + 0x4 * t)
/-- R324. -/
def rFLK_ROUTE (n m : Nat) : Nat := bdA n (0x700000 + 0x4 * m)
/-- R324. -/
def rFLK_MODULE_ID : Nat := colA (0x130000)
/-- R324. -/
def rFLK_INCARNATION : Nat := colA (0x130004)
/-- R339. -/
def rCST_NOW : Nat := colA (0x140000)
/-- R339. -/
def rCST_STATUS : Nat := colA (0x140008)
/-- R339. -/
def rCST_PARENTS : Nat := colA (0x14000C)
/-- R339. -/
def rCST_OFFSET : Nat := colA (0x140010)
/-- R339. -/
def rCST_FREQ : Nat := colA (0x140014)
/-- R339. -/
def rTRC_STATUS : Nat := colA (0x150000)
/-- R349. -/
def rHST_LINK_STATUS : Nat := colA (0x160000)
/-- R349. -/
def rHST_TXEQ (l : Nat) : Nat := colA (0x160100 + 0x4 * l)
/-- R349. -/
def rHST_EYE (l : Nat) : Nat := colA (0x160200 + 0x4 * l)
/-- R349. -/
def rHST_PAT_CTRL : Nat := colA (0x160300)
/-- R349. -/
def rHST_PAT_ERR (l : Nat) : Nat := colA (0x160310 + 0x4 * l)
/-- R392. -/
def rPWR_STATUS : Nat := colA (0x170000)
/-- R392. -/
def rPWR_SAG_START : Nat := colA (0x170008)
/-- R392. -/
def rPWR_SAG_END : Nat := colA (0x170010)
/-- R392. -/
def rPWR_SAG_INFO : Nat := colA (0x170018)
/-- R392. -/
def rPWR_PROFILE : Nat := colA (0x170020)
/-- R392. -/
def rTHM_CTRL : Nat := colA (0x180000)
/-- R392. -/
def rTHM_BD_CTRL : Nat := colA (0x180004)
/-- R392. -/
def rTHM_CD_STATUS (d : Nat) : Nat := cdA d (0x60000)
/-- R392. -/
def rTHM_CD_DROOP (d : Nat) : Nat := cdA d (0x60004)
/-- R392. -/
def rCLK_CORE_FREQ (d c : Nat) : Nat := cdA d (0x60100 + 0x4 * c)
/-- R392. -/
def rTHM_BD_STATUS (n : Nat) : Nat := bdA n (0x800000)
/-- R411. -/
def rRST_CAUSE : Nat := colA (0x190000)
/-- R411. -/
def rRST_CTRL : Nat := colA (0x190004)
/-- R411. -/
def rRST_HOLD_CD : Nat := colA (0x190008)
/-- R411. -/
def rRST_TIME : Nat := colA (0x190010)
/-- R411. -/
def rRST_CRIT_INFO : Nat := colA (0x190018)
/-- R411. -/
def rRST_PIN_MAP : Nat := colA (0x190020)
/-- R411. -/
def rRST_BACKUP (i : Nat) : Nat := colA (0x190100 + 0x4 * i)
/-- R411. -/
def rRST_RETAIN_STATUS : Nat := colA (0x190200)
/-- R411. -/
def rWNW_STATUS : Nat := colA (0x1A0000)
/-- R411. -/
def rWNW_OPTIONS : Nat := colA (0x1A0004)
/-- R425. -/
def rSEC_BOOT_STATUS : Nat := colA (0x1B0000)
/-- R425. -/
def rSEC_FACTORY : Nat := colA (0x1B0004)
/-- R425. -/
def rSEC_CHALLENGE (i : Nat) : Nat := colA (0x1B0010 + 0x4 * i)
/-- R425. -/
def rSEC_RBC : Nat := colA (0x1B0030)
/-- R442. -/
def rFLT_STATUS (u b : Nat) : Nat := unitA u (0x3F00000 + 0x40 * b)
/-- R442. -/
def rFLT_SEV_LO (u b : Nat) : Nat := unitA u (0x3F00004 + 0x40 * b)
/-- R442. -/
def rFLT_SEV_HI (u b : Nat) : Nat := unitA u (0x3F00008 + 0x40 * b)
/-- R442. -/
def rFLT_FIRST (u b : Nat) : Nat := unitA u (0x3F0000C + 0x40 * b)
/-- R442. -/
def rFLT_FIRST_T (u b : Nat) : Nat := unitA u (0x3F00010 + 0x40 * b)
/-- R442. -/
def rFLT_COUNT (u b : Nat) : Nat := unitA u (0x3F00018 + 0x40 * b)
/-- R442. -/
def rFLT_BLOCKS (u : Nat) : Nat := unitA u (0x3F00400)
/-- R442. -/
def rFLT_CTRL : Nat := colA (0x120004)
/-- R442. -/
def rFLT_SAFE_INFO : Nat := colA (0x120008)
/-- R442. -/
def rFLT_SAFE_T : Nat := colA (0x120010)
/-- R442. -/
def rFLT_UNIT_PENDING : Nat := colA (0x120020)
/-- R459. -/
def rCRN_STATUS : Nat := crnA (0x0)
/-- R459. -/
def rCRN_INTERVAL : Nat := crnA (0x4)
/-- R459. -/
def rCRN_LAST_RECNO : Nat := crnA (0x8)
/-- R459. -/
def rCRN_ACK : Nat := crnA (0x10)
/-- R459. -/
def rCRN_COUNTS : Nat := crnA (0x18)
/-- R459. -/
def rCRN_APW (w : Nat) : Nat := crnA (0x100 + 0x4 * w)
/-- R465. -/
def rFLK_PORT_TSCAL (n q : Nat) : Nat := bdA n (0x600020 + 0x40 * q)
/-- R471. -/
def rMGT_TAP_STATUS : Nat := colA (0x1C0000)

def fMGT_DEVICE_ID_PRODUCT : Fld := ⟨16, 16⟩
def fMGT_DEVICE_ID_BUILD : Fld := ⟨8, 8⟩
def fMGT_DEVICE_ID_STEP : Fld := ⟨4, 4⟩
def fMGT_DEVICE_ID_METAL : Fld := ⟨0, 4⟩
def fMGT_TOPOLOGY_STOLON_UP : Fld := ⟨28, 4⟩
def fMGT_TOPOLOGY_CD_UP : Fld := ⟨16, 12⟩
def fMGT_TOPOLOGY_BRIDGE_UP : Fld := ⟨12, 4⟩
def fMGT_TOPOLOGY_RIDGE_UP : Fld := ⟨8, 4⟩
def fMGT_TOPOLOGY_RIDGE_PRESENT : Fld := ⟨0, 4⟩
def fFLT_SHEAF_ECC_UE : Fld := ⟨31, 1⟩
def fFLT_SHEAF_ECC_CE_COUNT : Fld := ⟨0, 16⟩
def fFLT_SHEAF_ECC_ADDR_ADDR : Fld := ⟨3, 22⟩
def fTSC_CAPACITY_EDGES : Fld := ⟨15, 17⟩
def fTSC_CAPACITY_TASKS : Fld := ⟨0, 15⟩
def fTSC_IN_USE_EDGES : Fld := ⟨15, 17⟩
def fTSC_IN_USE_TASKS : Fld := ⟨0, 15⟩
def fTSC_SHARE_A_EDGE_SHARE : Fld := ⟨15, 17⟩
def fTSC_SHARE_A_TASK_SHARE : Fld := ⟨0, 15⟩
def fTSC_SHARE_B_PRIO_PREEMPT : Fld := ⟨31, 1⟩
def fTSC_SHARE_B_BACKFILL_LIMIT : Fld := ⟨20, 11⟩
def fTSC_SHARE_B_RINGS : Fld := ⟨15, 5⟩
def fTSC_SHARE_B_HANDLES : Fld := ⟨0, 10⟩
def fTSC_RIDGE_STATUS_RESIDENT : Fld := ⟨16, 13⟩
def fTSC_RIDGE_STATUS_READY : Fld := ⟨0, 13⟩
def fTSC_CORE_BIND_EPOCH : Fld := ⟨16, 16⟩
def fTSC_CORE_BIND_TENANT : Fld := ⟨8, 6⟩
def fTSC_CORE_BIND_SLEEP : Fld := ⟨2, 1⟩
def fTSC_CORE_BIND_STATE : Fld := ⟨0, 2⟩
def fMEM_RIDGE_CFG_STACK_UP : Fld := ⟨8, 6⟩
def fMEM_RIDGE_CFG_PROT : Fld := ⟨4, 1⟩
def fMEM_RIDGE_CFG_INTERLEAVE : Fld := ⟨0, 2⟩
def fMEM_SCRUB_CTRL_EN : Fld := ⟨31, 1⟩
def fMEM_SCRUB_CTRL_PERIOD_H : Fld := ⟨16, 8⟩
def fMEM_SCRUB_CTRL_PROGRESS : Fld := ⟨8, 8⟩
def fMEM_SCRUB_CTRL_PASSES : Fld := ⟨0, 8⟩
def fMEM_STACK_STATUS_UE : Fld := ⟨31, 1⟩
def fMEM_STACK_STATUS_STATE : Fld := ⟨28, 3⟩
def fMEM_STACK_STATUS_SPARE_LEFT : Fld := ⟨20, 8⟩
def fMEM_STACK_STATUS_CE_COUNT : Fld := ⟨0, 16⟩
def fMEM_ERR_ADDR_UE : Fld := ⟨63, 1⟩
def fMEM_ERR_ADDR_SOURCE : Fld := ⟨60, 3⟩
def fMEM_ERR_ADDR_SYMBOLS : Fld := ⟨56, 4⟩
def fMEM_ERR_ADDR_PA : Fld := ⟨6, 35⟩
def fMEM_RC_CTRL_UE : Fld := ⟨31, 1⟩
def fMEM_RC_CTRL_BORROW_WAYS : Fld := ⟨16, 4⟩
def fMEM_RC_CTRL_CE_COUNT : Fld := ⟨0, 16⟩
def fMEM_RC_WAYS_WAYMASK : Fld := ⟨0, 16⟩
def fMEM_GATTR_CLEARING : Fld := ⟨15, 1⟩
def fMEM_GATTR_BOUND : Fld := ⟨14, 1⟩
def fMEM_GATTR_TENANT : Fld := ⟨8, 6⟩
def fMEM_GATTR_BORROW : Fld := ⟨3, 1⟩
def fMEM_GATTR_POLICY : Fld := ⟨0, 2⟩
def fMMU_ROOT_EN : Fld := ⟨63, 1⟩
def fMMU_ROOT_ROOT : Fld := ⟨12, 29⟩
def fDMA_TAGS_PEAK : Fld := ⟨15, 15⟩
def fDMA_TAGS_IN_USE : Fld := ⟨0, 15⟩
def fDMA_TENANT_TAGS_IN_USE : Fld := ⟨16, 15⟩
def fDMA_TENANT_TAGS_LIMIT : Fld := ⟨0, 15⟩
def fFLT_FREC_STATUS_LOST : Fld := ⟨16, 16⟩
def fFLT_FREC_STATUS_PENDING : Fld := ⟨0, 11⟩
def fDMA_COLL_STATUS_GROUPS : Fld := ⟨16, 9⟩
def fDMA_COLL_STATUS_WAITING : Fld := ⟨6, 10⟩
def fDMA_COLL_STATUS_ACTIVE : Fld := ⟨0, 6⟩
def fJXL_IDENT_FAILED : Fld := ⟨19, 1⟩
def fJXL_IDENT_CONFLICT : Fld := ⟨18, 1⟩
def fJXL_IDENT_MISMATCH : Fld := ⟨17, 1⟩
def fJXL_IDENT_STRAP_OK : Fld := ⟨16, 1⟩
def fJXL_IDENT_STRAP_ROT : Fld := ⟨14, 2⟩
def fJXL_IDENT_SOURCE : Fld := ⟨8, 3⟩
def fJXL_IDENT_ROT : Fld := ⟨2, 2⟩
def fJXL_IDENT_ID : Fld := ⟨0, 2⟩
def fJXL_PORT_STATUS_STATE : Fld := ⟨28, 4⟩
def fJXL_PORT_STATUS_ATTEMPT : Fld := ⟨26, 2⟩
def fJXL_PORT_STATUS_WIDTH : Fld := ⟨16, 8⟩
def fJXL_PORT_STATUS_PLAN : Fld := ⟨8, 8⟩
def fJXL_PORT_STATUS_SPARES_USED : Fld := ⟨4, 4⟩
def fJXL_PORT_STATUS_LOST : Fld := ⟨0, 4⟩
def fJXL_PORT_ERR_CRC_ERRS : Fld := ⟨16, 16⟩
def fJXL_PORT_ERR_REPLAYS : Fld := ⟨0, 16⟩
def fJXL_PORT_EVT_FENCED : Fld := ⟨31, 1⟩
def fJXL_PORT_EVT_RETRAINED : Fld := ⟨30, 1⟩
def fJXL_PORT_EVT_PLAN_MISMATCH : Fld := ⟨29, 1⟩
def fJXL_PORT_EVT_CAUSE : Fld := ⟨24, 3⟩
def fJXL_PORT_TFENCE_T_FENCE : Fld := ⟨0, 64⟩
def fJXL_CD_STATUS_STATE : Fld := ⟨28, 4⟩
def fJXL_CD_STATUS_ATTEMPT : Fld := ⟨26, 2⟩
def fJXL_CD_STATUS_WIDTH : Fld := ⟨16, 8⟩
def fJXL_CD_STATUS_INDEX : Fld := ⟨0, 4⟩
def fUCI_SITE_STATUS_MOD_UP : Fld := ⟨24, 8⟩
def fUCI_SITE_STATUS_MOD_HALF : Fld := ⟨16, 8⟩
def fUCI_SITE_STATUS_ENGINE : Fld := ⟨8, 8⟩
def fUCI_SITE_STATUS_REFUSED : Fld := ⟨7, 1⟩
def fUCI_SITE_STATUS_STATE : Fld := ⟨0, 4⟩
def fPRG_LASER_STATUS_ACTIVE : Fld := ⟨31, 1⟩
def fPRG_LASER_STATUS_SPARE_STATE : Fld := ⟨28, 3⟩
def fPRG_LASER_STATUS_FADE : Fld := ⟨12, 12⟩
def fPRG_LASER_STATUS_SPARE_FADE : Fld := ⟨0, 12⟩
def fPRG_LASER_EVT_WARN : Fld := ⟨31, 1⟩
def fPRG_LASER_EVT_SPARE_START : Fld := ⟨30, 1⟩
def fPRG_LASER_EVT_SWITCHED : Fld := ⟨29, 1⟩
def fPRG_LASER_EVT_SPARE_FAILED : Fld := ⟨28, 1⟩
def fPRG_LASER_EVT_NO_SPARE : Fld := ⟨27, 1⟩
def fPRG_LASER_EVT_LASER_LOST : Fld := ⟨26, 1⟩
def fPRG_LASER_EVT_ABRUPT : Fld := ⟨25, 1⟩
def fPRG_LASER_EVT_SWITCH_REQ : Fld := ⟨24, 1⟩
def fPRG_LASER_EVT_GAP_NS : Fld := ⟨0, 16⟩
def fPRG_SWITCH_GO : Fld := ⟨0, 1⟩
def fPRG_FF_CTRL_EN : Fld := ⟨31, 1⟩
def fPRG_FF_CTRL_GAIN : Fld := ⟨12, 12⟩
def fPRG_FF_CTRL_TAU : Fld := ⟨0, 12⟩
def fPRG_PORT_STATUS_STATE : Fld := ⟨28, 4⟩
def fPRG_PORT_STATUS_REACH_CAP : Fld := ⟨25, 1⟩
def fPRG_PORT_STATUS_PAM4 : Fld := ⟨24, 1⟩
def fPRG_PORT_STATUS_HALF : Fld := ⟨23, 1⟩
def fPRG_PORT_STATUS_ACTIVE : Fld := ⟨0, 16⟩
def fPRG_WL_SUB_SUB0_V : Fld := ⟨31, 1⟩
def fPRG_WL_SUB_SUB0 : Fld := ⟨24, 4⟩
def fPRG_WL_SUB_SUB1_V : Fld := ⟨23, 1⟩
def fPRG_WL_SUB_SUB1 : Fld := ⟨16, 4⟩
def fPRG_WL_SUB_WS0_BAD : Fld := ⟨15, 1⟩
def fPRG_WL_SUB_WS1_BAD : Fld := ⟨14, 1⟩
def fPRG_PORT_EVT_LOS : Fld := ⟨31, 1⟩
def fPRG_PORT_EVT_SLIP : Fld := ⟨30, 1⟩
def fPRG_PORT_EVT_RING_FAIL : Fld := ⟨29, 1⟩
def fPRG_PORT_EVT_SUBSTITUTED : Fld := ⟨28, 1⟩
def fPRG_PORT_EVT_SPARE_WL_BAD : Fld := ⟨27, 1⟩
def fPRG_PORT_EVT_SLIPS : Fld := ⟨0, 16⟩
def fPRG_BUS_MON_BUS_PWR : Fld := ⟨16, 16⟩
def fPRG_PAT_CTRL_GEN_EN : Fld := ⟨31, 1⟩
def fPRG_PAT_CTRL_CHK_EN : Fld := ⟨30, 1⟩
def fPRG_PAT_CTRL_PATTERN : Fld := ⟨28, 2⟩
def fPRG_PAT_CTRL_INJ_RATE : Fld := ⟨24, 4⟩
def fPRG_PAT_CTRL_INJ_ONE : Fld := ⟨23, 1⟩
def fPRG_PAT_CTRL_INJ_WL : Fld := ⟨18, 5⟩
def fPRG_PAM4_LVL_L3 : Fld := ⟨24, 6⟩
def fPRG_PAM4_LVL_L2 : Fld := ⟨16, 6⟩
def fPRG_PAM4_LVL_L1 : Fld := ⟨8, 6⟩
def fPRG_PAM4_LVL_L0 : Fld := ⟨0, 6⟩
def fPRG_WL_MON_TX_PWR : Fld := ⟨16, 16⟩
def fPRG_WL_MON_RX_PWR : Fld := ⟨0, 16⟩
def fPRG_WL_RING_TX_LOCK : Fld := ⟨30, 2⟩
def fPRG_WL_RING_RX_LOCK : Fld := ⟨28, 2⟩
def fPRG_WL_RING_FROZEN : Fld := ⟨27, 1⟩
def fPRG_WL_RING_TX_HEAT : Fld := ⟨12, 12⟩
def fPRG_WL_RING_RX_HEAT : Fld := ⟨0, 12⟩
def fPRG_EYE_LEFT : Fld := ⟨24, 8⟩
def fPRG_EYE_RIGHT : Fld := ⟨16, 8⟩
def fPRG_EYE_UP : Fld := ⟨8, 8⟩
def fPRG_EYE_DOWN : Fld := ⟨0, 8⟩
def fPRG_PAT_ERR_ERRORS : Fld := ⟨0, 32⟩
def fFLK_PORT_STATUS_STATE : Fld := ⟨28, 4⟩
def fFLK_PORT_STATUS_HALF : Fld := ⟨27, 1⟩
def fFLK_PORT_STATUS_PAM4 : Fld := ⟨26, 1⟩
def fFLK_PORT_STATUS_STREAMS : Fld := ⟨21, 5⟩
def fFLK_PORT_STATUS_PARTNER_V : Fld := ⟨14, 1⟩
def fFLK_PORT_STATUS_PARTNER : Fld := ⟨0, 14⟩
def fFLK_PORT_EVT_LINK_DOWN : Fld := ⟨31, 1⟩
def fFLK_PORT_EVT_RETRAINED : Fld := ⟨30, 1⟩
def fFLK_PORT_EVT_PARTNER_CHANGED : Fld := ⟨29, 1⟩
def fFLK_PORT_EVT_MODE_DOWNGRADED : Fld := ⟨28, 1⟩
def fFLK_PORT_EVT_MODE_MISMATCH : Fld := ⟨27, 1⟩
def fFLK_PORT_EVT_ROUTE_DROP : Fld := ⟨26, 1⟩
def fFLK_PORT_EVT_DUPS : Fld := ⟨0, 16⟩
def fFLK_PORT_ERR_CRC_ERRS : Fld := ⟨16, 16⟩
def fFLK_PORT_ERR_REPLAYS : Fld := ⟨0, 16⟩
def fFLK_PORT_HELD_REPLAY_BYTES : Fld := ⟨0, 21⟩
def fFLK_PORT_SESSION_SESSION : Fld := ⟨0, 16⟩
def fFLK_PORT_TDOWN_T_DOWN : Fld := ⟨0, 64⟩
def fFLK_ACCEPT_EN : Fld := ⟨31, 1⟩
def fFLK_ACCEPT_HI : Fld := ⟨14, 14⟩
def fFLK_ACCEPT_LO : Fld := ⟨0, 14⟩
def fFLK_ROUTE_V : Fld := ⟨31, 1⟩
def fFLK_ROUTE_N : Fld := ⟨28, 2⟩
def fFLK_ROUTE_PORT3 : Fld := ⟨21, 7⟩
def fFLK_ROUTE_PORT2 : Fld := ⟨14, 7⟩
def fFLK_ROUTE_PORT1 : Fld := ⟨7, 7⟩
def fFLK_ROUTE_PORT0 : Fld := ⟨0, 7⟩
def fFLK_MODULE_ID_VALID : Fld := ⟨31, 1⟩
def fFLK_MODULE_ID_ID : Fld := ⟨0, 14⟩
def fFLK_INCARNATION_INCARNATION : Fld := ⟨0, 32⟩
def fCST_NOW_NOW : Fld := ⟨0, 64⟩
def fCST_STATUS_STATE : Fld := ⟨29, 3⟩
def fCST_STATUS_ALIGN : Fld := ⟨28, 1⟩
def fCST_STATUS_PARENT_V : Fld := ⟨27, 1⟩
def fCST_STATUS_PARENT : Fld := ⟨20, 7⟩
def fCST_PARENTS_CAND3 : Fld := ⟨24, 8⟩
def fCST_PARENTS_CAND2 : Fld := ⟨16, 8⟩
def fCST_PARENTS_CAND1 : Fld := ⟨8, 8⟩
def fCST_PARENTS_CAND0 : Fld := ⟨0, 8⟩
def fCST_OFFSET_THETA : Fld := ⟨0, 32⟩
def fCST_FREQ_CORR : Fld := ⟨0, 32⟩
def fTRC_STATUS_LOST : Fld := ⟨16, 16⟩
def fTRC_STATUS_BIND_PENDING : Fld := ⟨0, 13⟩
def fHST_LINK_STATUS_RATE : Fld := ⟨28, 4⟩
def fHST_LINK_STATUS_WIDTH : Fld := ⟨24, 4⟩
def fHST_LINK_STATUS_LTSSM : Fld := ⟨20, 4⟩
def fHST_LINK_STATUS_EQ32 : Fld := ⟨17, 1⟩
def fHST_LINK_STATUS_EQ16 : Fld := ⟨16, 1⟩
def fHST_LINK_STATUS_RECOVERIES : Fld := ⟨0, 16⟩
def fHST_TXEQ_OVR : Fld := ⟨31, 1⟩
def fHST_TXEQ_PRE : Fld := ⟨16, 6⟩
def fHST_TXEQ_MAIN : Fld := ⟨8, 6⟩
def fHST_TXEQ_POST : Fld := ⟨0, 6⟩
def fHST_EYE_LEFT : Fld := ⟨24, 8⟩
def fHST_EYE_RIGHT : Fld := ⟨16, 8⟩
def fHST_EYE_UP : Fld := ⟨8, 8⟩
def fHST_EYE_DOWN : Fld := ⟨0, 8⟩
def fHST_PAT_CTRL_ARM : Fld := ⟨31, 1⟩
def fHST_PAT_CTRL_ACTIVE : Fld := ⟨30, 1⟩
def fHST_PAT_CTRL_PATTERN : Fld := ⟨28, 2⟩
def fHST_PAT_ERR_ERRORS : Fld := ⟨0, 32⟩
def fPWR_STATUS_SLOW : Fld := ⟨31, 1⟩
def fPWR_STATUS_SAG_SEEN : Fld := ⟨30, 1⟩
def fPWR_STATUS_OC_SEEN : Fld := ⟨29, 1⟩
def fPWR_STATUS_OVERVOLT : Fld := ⟨28, 1⟩
def fPWR_STATUS_PHASE_LOST : Fld := ⟨27, 1⟩
def fPWR_STATUS_CAP_UNREACHABLE : Fld := ⟨26, 1⟩
def fPWR_STATUS_STACKED : Fld := ⟨25, 1⟩
def fPWR_STATUS_PHASES : Fld := ⟨16, 4⟩
def fPWR_STATUS_SAG_COUNT : Fld := ⟨0, 16⟩
def fPWR_SAG_START_T_START : Fld := ⟨0, 64⟩
def fPWR_SAG_END_T_END : Fld := ⟨0, 64⟩
def fPWR_SAG_INFO_CAUSE : Fld := ⟨31, 1⟩
def fPWR_SAG_INFO_EXTREME : Fld := ⟨0, 16⟩
def fPWR_PROFILE_PROFILE : Fld := ⟨30, 2⟩
def fPWR_PROFILE_OVR_CLK : Fld := ⟨29, 1⟩
def fPWR_PROFILE_OVR_CAP : Fld := ⟨28, 1⟩
def fPWR_PROFILE_OVR_PROT : Fld := ⟨27, 1⟩
def fPWR_PROFILE_OVR_LINK : Fld := ⟨26, 1⟩
def fPWR_PROFILE_PROT : Fld := ⟨25, 1⟩
def fPWR_PROFILE_LINK : Fld := ⟨24, 1⟩
def fPWR_PROFILE_CLK_CEIL : Fld := ⟨16, 6⟩
def fPWR_PROFILE_CAP_W : Fld := ⟨0, 13⟩
def fTHM_CTRL_CD_TARGET : Fld := ⟨24, 8⟩
def fTHM_CTRL_CD_THROTTLE : Fld := ⟨16, 8⟩
def fTHM_CTRL_MS_TARGET : Fld := ⟨8, 8⟩
def fTHM_CTRL_MS_THROTTLE : Fld := ⟨0, 8⟩
def fTHM_BD_CTRL_BD_TARGET : Fld := ⟨0, 8⟩
def fTHM_CD_STATUS_T_MAX : Fld := ⟨24, 8⟩
def fTHM_CD_STATUS_THERMAL_CEIL : Fld := ⟨18, 6⟩
def fTHM_CD_STATUS_LOCAL_CEIL : Fld := ⟨12, 6⟩
def fTHM_CD_STATUS_POWER_LIMIT : Fld := ⟨6, 6⟩
def fTHM_CD_STATUS_THROTTLED : Fld := ⟨5, 1⟩
def fTHM_CD_STATUS_VCORE : Fld := ⟨0, 2⟩
def fTHM_CD_DROOP_DEEP : Fld := ⟨16, 16⟩
def fTHM_CD_DROOP_EPISODES : Fld := ⟨0, 16⟩
def fCLK_CORE_FREQ_ON : Fld := ⟨31, 1⟩
def fCLK_CORE_FREQ_HALVED : Fld := ⟨30, 1⟩
def fCLK_CORE_FREQ_MHZ : Fld := ⟨0, 12⟩
def fTHM_BD_STATUS_T_MAX : Fld := ⟨24, 8⟩
def fTHM_BD_STATUS_THROTTLED : Fld := ⟨23, 1⟩
def fTHM_BD_STATUS_MS_LIMITED : Fld := ⟨0, 6⟩
def fRST_CAUSE_LAST : Fld := ⟨28, 4⟩
def fRST_CAUSE_FAULT : Fld := ⟨10, 1⟩
def fRST_CAUSE_CRIT : Fld := ⟨9, 1⟩
def fRST_CAUSE_SW_CORE : Fld := ⟨8, 1⟩
def fRST_CAUSE_SW_SYS : Fld := ⟨7, 1⟩
def fRST_CAUSE_WDOG : Fld := ⟨6, 1⟩
def fRST_CAUSE_PERST : Fld := ⟨5, 1⟩
def fRST_CAUSE_MRST : Fld := ⟨4, 1⟩
def fRST_CAUSE_MRST_LONG : Fld := ⟨3, 1⟩
def fRST_CAUSE_OVS : Fld := ⟨2, 1⟩
def fRST_CAUSE_BOR : Fld := ⟨1, 1⟩
def fRST_CAUSE_POR : Fld := ⟨0, 1⟩
def fRST_CTRL_KEY : Fld := ⟨8, 8⟩
def fRST_CTRL_SYS : Fld := ⟨1, 1⟩
def fRST_CTRL_CORE : Fld := ⟨0, 1⟩
def fRST_HOLD_CD_DEFER : Fld := ⟨16, 12⟩
def fRST_HOLD_CD_HOLD : Fld := ⟨0, 12⟩
def fRST_TIME_T_RESET : Fld := ⟨0, 64⟩
def fRST_CRIT_INFO_STATE : Fld := ⟨24, 8⟩
def fRST_CRIT_INFO_UNIT : Fld := ⟨16, 8⟩
def fRST_CRIT_INFO_CE_COUNT : Fld := ⟨0, 16⟩
def fRST_PIN_MAP_MAP : Fld := ⟨0, 22⟩
def fRST_BACKUP_DATA : Fld := ⟨0, 32⟩
def fRST_RETAIN_STATUS_UE : Fld := ⟨31, 1⟩
def fRST_RETAIN_STATUS_PERR : Fld := ⟨30, 1⟩
def fRST_RETAIN_STATUS_ADDR : Fld := ⟨0, 12⟩
def fWNW_STATUS_DONE : Fld := ⟨31, 1⟩
def fWNW_STATUS_SAFE : Fld := ⟨30, 1⟩
def fWNW_STATUS_FUSE_ERR : Fld := ⟨29, 1⟩
def fWNW_STATUS_LAST_ERR : Fld := ⟨24, 3⟩
def fWNW_STATUS_ATTEMPTS : Fld := ⟨16, 2⟩
def fWNW_STATUS_RECORDS : Fld := ⟨0, 11⟩
def fWNW_OPTIONS_PERST_SCOPE : Fld := ⟨0, 1⟩
def fSEC_BOOT_STATUS_ROOT_SLOT : Fld := ⟨28, 4⟩
def fSEC_BOOT_STATUS_BANKS : Fld := ⟨24, 4⟩
def fSEC_BOOT_STATUS_DEBUG : Fld := ⟨3, 1⟩
def fSEC_BOOT_STATUS_RECOVERY : Fld := ⟨2, 1⟩
def fSEC_BOOT_STATUS_FALLBACK : Fld := ⟨1, 1⟩
def fSEC_BOOT_STATUS_FACTORY : Fld := ⟨0, 1⟩
def fSEC_FACTORY_ACTIVE : Fld := ⟨31, 1⟩
def fSEC_FACTORY_PERMS : Fld := ⟨0, 16⟩
def fSEC_CHALLENGE_VALUE : Fld := ⟨0, 32⟩
def fSEC_RBC_RBC3 : Fld := ⟨24, 8⟩
def fSEC_RBC_RBC2 : Fld := ⟨16, 8⟩
def fSEC_RBC_RBC1 : Fld := ⟨8, 8⟩
def fSEC_RBC_RBC0 : Fld := ⟨0, 8⟩
def fFLT_STATUS_STICKY : Fld := ⟨0, 32⟩
def fFLT_SEV_LO_LEVEL : Fld := ⟨0, 32⟩
def fFLT_SEV_HI_LEVEL : Fld := ⟨0, 32⟩
def fFLT_FIRST_VALID : Fld := ⟨31, 1⟩
def fFLT_FIRST_SRC : Fld := ⟨0, 5⟩
def fFLT_FIRST_T_T : Fld := ⟨0, 64⟩
def fFLT_COUNT_COUNT : Fld := ⟨0, 32⟩
def fFLT_BLOCKS_PRESENT : Fld := ⟨0, 16⟩
def fFLT_CTRL_SAFE : Fld := ⟨31, 1⟩
def fFLT_CTRL_PIN : Fld := ⟨30, 1⟩
def fFLT_CTRL_ALERT_LEVEL : Fld := ⟨28, 2⟩
def fFLT_CTRL_AUTO_RESET : Fld := ⟨27, 1⟩
def fFLT_CTRL_AUTO_DELAY : Fld := ⟨0, 16⟩
def fFLT_SAFE_INFO_VALID : Fld := ⟨31, 1⟩
def fFLT_SAFE_INFO_SOURCE : Fld := ⟨0, 24⟩
def fFLT_SAFE_T_T : Fld := ⟨0, 64⟩
def fFLT_UNIT_PENDING_UNITS : Fld := ⟨0, 49⟩
def fCRN_STATUS_PRESENT : Fld := ⟨31, 1⟩
def fCRN_STATUS_CREST_FED : Fld := ⟨30, 1⟩
def fCRN_STATUS_TAMPERED : Fld := ⟨29, 1⟩
def fCRN_STATUS_STORE_FULL : Fld := ⟨28, 1⟩
def fCRN_STATUS_REPLACED : Fld := ⟨27, 1⟩
def fCRN_INTERVAL_CODE : Fld := ⟨0, 3⟩
def fCRN_LAST_RECNO_RECNO : Fld := ⟨0, 64⟩
def fCRN_ACK_ACK : Fld := ⟨0, 64⟩
def fCRN_COUNTS_TAMPER : Fld := ⟨16, 16⟩
def fCRN_COUNTS_PWRFAIL : Fld := ⟨0, 16⟩
def fCRN_APW_WEIGHT : Fld := ⟨0, 32⟩
def fFLK_PORT_TSCAL_TX_LAT : Fld := ⟨16, 16⟩
def fFLK_PORT_TSCAL_RX_LAT : Fld := ⟨0, 16⟩
def fMGT_TAP_STATUS_EXTEST : Fld := ⟨31, 1⟩
def fMGT_TAP_STATUS_PRIVATE : Fld := ⟨30, 1⟩
def fMGT_TAP_STATUS_STACK_OPEN : Fld := ⟨29, 1⟩
def fMGT_TAP_STATUS_DIES : Fld := ⟨0, 16⟩

/-- Register tables, part 0. -/
def regTable0 : List RegDesc := [
  -- MGT_DEVICE_ID
  ⟨.col, 0x0, [], false,
    [⟨16, 16, .ro, .f⟩, ⟨8, 8, .ro, .f⟩, ⟨4, 4, .ro, .f⟩, ⟨0, 4, .ro, .f⟩]⟩,
  -- MGT_TOPOLOGY
  ⟨.col, 0x10, [], false,
    [⟨28, 4, .ro, .v 0⟩, ⟨16, 12, .ro, .v 0⟩, ⟨12, 4, .ro, .v 0⟩, ⟨8, 4, .ro, .v 0⟩, ⟨0, 4, .ro, .f⟩]⟩,
  -- FLT_SHEAF_ECC
  ⟨.cd, 0x30000, [(16, 16)], false,
    [⟨31, 1, .rw1c, .v 0⟩, ⟨0, 16, .rc, .v 0⟩]⟩,
  -- FLT_SHEAF_ECC_ADDR
  ⟨.cd, 0x30004, [(16, 16)], false,
    [⟨3, 22, .ro, .v 0⟩]⟩,
  -- TSC_CAPACITY
  ⟨.col, 0x100000, [], false,
    [⟨15, 17, .ro, .f⟩, ⟨0, 15, .ro, .f⟩]⟩,
  -- TSC_IN_USE
  ⟨.col, 0x100004, [], false,
    [⟨15, 17, .ro, .v 0⟩, ⟨0, 15, .ro, .v 0⟩]⟩,
  -- TSC_SHARE_A
  ⟨.col, 0x100100, [(8, 64)], false,
    [⟨15, 17, .ro, .v 0⟩, ⟨0, 15, .ro, .v 0⟩]⟩,
  -- TSC_SHARE_B
  ⟨.col, 0x100104, [(8, 64)], false,
    [⟨31, 1, .ro, .v 0⟩, ⟨20, 11, .ro, .v 10⟩, ⟨15, 5, .ro, .v 0⟩, ⟨0, 10, .ro, .v 0⟩]⟩,
  -- TSC_RIDGE_STATUS
  ⟨.bd, 0x100000, [], false,
    [⟨16, 13, .ro, .v 0⟩, ⟨0, 13, .ro, .v 0⟩]⟩,
  -- TSC_CORE_BIND
  ⟨.cd, 0x40000, [(4, 16)], false,
    [⟨16, 16, .ro, .v 0⟩, ⟨8, 6, .ro, .v 0⟩, ⟨2, 1, .ro, .v 1⟩, ⟨0, 2, .ro, .v 0⟩]⟩,
  -- MEM_RIDGE_CFG
  ⟨.bd, 0x200000, [], false,
    [⟨8, 6, .ro, .v 0⟩, ⟨4, 1, .ro, .v 0⟩, ⟨0, 2, .ro, .w⟩]⟩,
  -- MEM_SCRUB_CTRL
  ⟨.bd, 0x200004, [], false,
    [⟨31, 1, .rw, .v 1⟩, ⟨16, 8, .rw, .v 24⟩, ⟨8, 8, .ro, .v 0⟩, ⟨0, 8, .ro, .v 0⟩]⟩]

/-- Register tables, part 1. -/
def regTable1 : List RegDesc := [
  -- MEM_STACK_STATUS
  ⟨.bd, 0x200100, [(16, 6)], false,
    [⟨31, 1, .rw1c, .v 0⟩, ⟨28, 3, .ro, .v 0⟩, ⟨20, 8, .ro, .f⟩, ⟨0, 16, .rc, .v 0⟩]⟩,
  -- MEM_ERR_ADDR
  ⟨.bd, 0x200108, [(16, 6)], true,
    [⟨63, 1, .ro, .v 0⟩, ⟨60, 3, .ro, .v 0⟩, ⟨56, 4, .ro, .v 0⟩, ⟨6, 35, .ro, .v 0⟩]⟩,
  -- MEM_RC_CTRL
  ⟨.bd, 0x200008, [], false,
    [⟨31, 1, .rw1c, .v 0⟩, ⟨16, 4, .rw, .v 4⟩, ⟨0, 16, .rc, .v 0⟩]⟩,
  -- MEM_RC_WAYS
  ⟨.bd, 0x200400, [(4, 64)], false,
    [⟨0, 16, .ro, .v 65535⟩]⟩,
  -- MEM_GATTR
  ⟨.bd, 0x201000, [(4, 384)], false,
    [⟨15, 1, .ro, .v 0⟩, ⟨14, 1, .ro, .v 0⟩, ⟨8, 6, .ro, .v 0⟩, ⟨3, 1, .ro, .v 0⟩, ⟨0, 2, .ro, .v 0⟩]⟩,
  -- MMU_ROOT
  ⟨.col, 0x110000, [(8, 64)], true,
    [⟨63, 1, .ro, .v 0⟩, ⟨12, 29, .ro, .v 0⟩]⟩,
  -- DMA_TAGS
  ⟨.bd, 0x300000, [], false,
    [⟨15, 15, .rc, .v 0⟩, ⟨0, 15, .ro, .v 0⟩]⟩,
  -- DMA_TENANT_TAGS
  ⟨.bd, 0x300100, [(4, 64)], false,
    [⟨16, 15, .ro, .v 0⟩, ⟨0, 15, .ro, .v 15360⟩]⟩,
  -- FLT_FREC_STATUS
  ⟨.col, 0x120000, [], false,
    [⟨16, 16, .rc, .v 0⟩, ⟨0, 11, .ro, .v 0⟩]⟩,
  -- DMA_COLL_STATUS
  ⟨.bd, 0x300200, [], false,
    [⟨16, 9, .ro, .v 0⟩, ⟨6, 10, .ro, .v 0⟩, ⟨0, 6, .ro, .v 0⟩]⟩,
  -- JXL_IDENT
  ⟨.bd, 0x400000, [], false,
    [⟨19, 1, .ro, .v 0⟩, ⟨18, 1, .rw1c, .v 0⟩, ⟨17, 1, .rw1c, .v 0⟩, ⟨16, 1, .ro, .f⟩, ⟨14, 2, .ro, .f⟩, ⟨8, 3, .ro, .v 0⟩, ⟨2, 2, .ro, .v 0⟩, ⟨0, 2, .ro, .v 0⟩]⟩,
  -- JXL_PORT_STATUS
  ⟨.bd, 0x400100, [(32, 6)], false,
    [⟨28, 4, .ro, .v 0⟩, ⟨26, 2, .ro, .v 0⟩, ⟨16, 8, .ro, .v 0⟩, ⟨8, 8, .ro, .w⟩, ⟨4, 4, .ro, .v 0⟩, ⟨0, 4, .ro, .v 0⟩]⟩]

/-- Register tables, part 2. -/
def regTable2 : List RegDesc := [
  -- JXL_PORT_ERR
  ⟨.bd, 0x400104, [(32, 6)], false,
    [⟨16, 16, .rc, .v 0⟩, ⟨0, 16, .rc, .v 0⟩]⟩,
  -- JXL_PORT_EVT
  ⟨.bd, 0x400108, [(32, 6)], false,
    [⟨31, 1, .rw1c, .v 0⟩, ⟨30, 1, .rw1c, .v 0⟩, ⟨29, 1, .rw1c, .v 0⟩, ⟨24, 3, .ro, .v 0⟩]⟩,
  -- JXL_PORT_TFENCE
  ⟨.bd, 0x400110, [(32, 6)], true,
    [⟨0, 64, .ro, .v 0⟩]⟩,
  -- JXL_CD_STATUS
  ⟨.cd, 0x50000, [], false,
    [⟨28, 4, .ro, .v 1⟩, ⟨26, 2, .ro, .v 0⟩, ⟨16, 8, .ro, .v 0⟩, ⟨0, 4, .ro, .v 15⟩]⟩,
  -- UCI_SITE_STATUS
  ⟨.bd, 0x500000, [(16, 4)], false,
    [⟨24, 8, .ro, .v 0⟩, ⟨16, 8, .ro, .v 0⟩, ⟨8, 8, .ro, .v 0⟩, ⟨7, 1, .rw1c, .v 0⟩, ⟨0, 4, .ro, .v 0⟩]⟩,
  -- PRG_LASER_STATUS
  ⟨.oe, 0x100, [], false,
    [⟨31, 1, .ro, .f⟩, ⟨28, 3, .ro, .f⟩, ⟨12, 12, .ro, .v 0⟩, ⟨0, 12, .ro, .v 0⟩]⟩,
  -- PRG_LASER_EVT
  ⟨.oe, 0x104, [], false,
    [⟨31, 1, .rw1c, .v 0⟩, ⟨30, 1, .rw1c, .v 0⟩, ⟨29, 1, .rw1c, .v 0⟩, ⟨28, 1, .rw1c, .v 0⟩, ⟨27, 1, .rw1c, .v 0⟩, ⟨26, 1, .rw1c, .v 0⟩, ⟨25, 1, .rw1c, .v 0⟩, ⟨24, 1, .ro, .v 0⟩, ⟨0, 16, .ro, .v 0⟩]⟩,
  -- PRG_SWITCH
  ⟨.oe, 0x108, [], false,
    [⟨0, 1, .wo, .v 0⟩]⟩,
  -- PRG_FF_CTRL
  ⟨.oe, 0x300, [], false,
    [⟨31, 1, .rw, .v 1⟩, ⟨12, 12, .rw, .w⟩, ⟨0, 12, .rw, .w⟩]⟩,
  -- PRG_PORT_STATUS
  ⟨.oe, 0x1000, [(1024, 8)], false,
    [⟨28, 4, .ro, .v 0⟩, ⟨25, 1, .ro, .f⟩, ⟨24, 1, .ro, .v 0⟩, ⟨23, 1, .ro, .v 0⟩, ⟨0, 16, .ro, .v 0⟩]⟩,
  -- PRG_WL_SUB
  ⟨.oe, 0x1004, [(1024, 8)], false,
    [⟨31, 1, .ro, .v 0⟩, ⟨24, 4, .ro, .v 0⟩, ⟨23, 1, .ro, .v 0⟩, ⟨16, 4, .ro, .v 0⟩, ⟨15, 1, .ro, .v 0⟩, ⟨14, 1, .ro, .v 0⟩]⟩,
  -- PRG_PORT_EVT
  ⟨.oe, 0x1008, [(1024, 8)], false,
    [⟨31, 1, .rw1c, .v 0⟩, ⟨30, 1, .rw1c, .v 0⟩, ⟨29, 1, .rw1c, .v 0⟩, ⟨28, 1, .rw1c, .v 0⟩, ⟨27, 1, .rw1c, .v 0⟩, ⟨0, 16, .rc, .v 0⟩]⟩]

/-- Register tables, part 3. -/
def regTable3 : List RegDesc := [
  -- PRG_BUS_MON
  ⟨.oe, 0x100C, [(1024, 8)], false,
    [⟨16, 16, .ro, .v 32768⟩]⟩,
  -- PRG_PAT_CTRL
  ⟨.oe, 0x1010, [(1024, 8)], false,
    [⟨31, 1, .rw, .v 0⟩, ⟨30, 1, .rw, .v 0⟩, ⟨28, 2, .rw, .v 2⟩, ⟨24, 4, .rw, .v 0⟩, ⟨23, 1, .wo, .v 0⟩, ⟨18, 5, .rw, .v 31⟩]⟩,
  -- PRG_PAM4_LVL
  ⟨.oe, 0x1020, [(1024, 8)], false,
    [⟨24, 6, .rw, .w⟩, ⟨16, 6, .rw, .w⟩, ⟨8, 6, .rw, .w⟩, ⟨0, 6, .rw, .w⟩]⟩,
  -- PRG_WL_MON
  ⟨.oe, 0x1100, [(1024, 8), (8, 18)], false,
    [⟨16, 16, .ro, .v 32768⟩, ⟨0, 16, .ro, .v 32768⟩]⟩,
  -- PRG_WL_RING
  ⟨.oe, 0x1104, [(1024, 8), (8, 18)], false,
    [⟨30, 2, .ro, .v 0⟩, ⟨28, 2, .ro, .v 0⟩, ⟨27, 1, .ro, .v 0⟩, ⟨12, 12, .ro, .v 0⟩, ⟨0, 12, .ro, .v 0⟩]⟩,
  -- PRG_EYE
  ⟨.oe, 0x1200, [(1024, 8), (4, 18)], false,
    [⟨24, 8, .ro, .v 0⟩, ⟨16, 8, .ro, .v 0⟩, ⟨8, 8, .ro, .v 0⟩, ⟨0, 8, .ro, .v 0⟩]⟩,
  -- PRG_PAT_ERR
  ⟨.oe, 0x1280, [(1024, 8), (4, 18)], false,
    [⟨0, 32, .rc, .v 0⟩]⟩,
  -- FLK_PORT_STATUS
  ⟨.bd, 0x600000, [(64, 32)], false,
    [⟨28, 4, .ro, .v 0⟩, ⟨27, 1, .ro, .v 0⟩, ⟨26, 1, .ro, .v 0⟩, ⟨21, 5, .ro, .v 0⟩, ⟨14, 1, .ro, .v 0⟩, ⟨0, 14, .ro, .v 0⟩]⟩,
  -- FLK_PORT_EVT
  ⟨.bd, 0x600004, [(64, 32)], false,
    [⟨31, 1, .rw1c, .v 0⟩, ⟨30, 1, .rw1c, .v 0⟩, ⟨29, 1, .rw1c, .v 0⟩, ⟨28, 1, .rw1c, .v 0⟩, ⟨27, 1, .rw1c, .v 0⟩, ⟨26, 1, .rw1c, .v 0⟩, ⟨0, 16, .rc, .v 0⟩]⟩,
  -- FLK_PORT_ERR
  ⟨.bd, 0x600008, [(64, 32)], false,
    [⟨16, 16, .rc, .v 0⟩, ⟨0, 16, .rc, .v 0⟩]⟩,
  -- FLK_PORT_HELD
  ⟨.bd, 0x60000C, [(64, 32)], false,
    [⟨0, 21, .ro, .v 0⟩]⟩,
  -- FLK_PORT_SESSION
  ⟨.bd, 0x600010, [(64, 32)], false,
    [⟨0, 16, .ro, .v 0⟩]⟩]

/-- Register tables, part 4. -/
def regTable4 : List RegDesc := [
  -- FLK_PORT_TDOWN
  ⟨.bd, 0x600018, [(64, 32)], true,
    [⟨0, 64, .ro, .v 0⟩]⟩,
  -- FLK_ACCEPT
  ⟨.bd, 0x601000, [(4, 64)], false,
    [⟨31, 1, .ro, .v 0⟩, ⟨14, 14, .ro, .v 0⟩, ⟨0, 14, .ro, .v 0⟩]⟩,
  -- FLK_ROUTE
  ⟨.bd, 0x700000, [(4, 16384)], false,
    [⟨31, 1, .ro, .v 0⟩, ⟨28, 2, .ro, .v 0⟩, ⟨21, 7, .ro, .v 0⟩, ⟨14, 7, .ro, .v 0⟩, ⟨7, 7, .ro, .v 0⟩, ⟨0, 7, .ro, .v 0⟩]⟩,
  -- FLK_MODULE_ID
  ⟨.col, 0x130000, [], false,
    [⟨31, 1, .ro, .v 0⟩, ⟨0, 14, .ro, .v 0⟩]⟩,
  -- FLK_INCARNATION
  ⟨.col, 0x130004, [], false,
    [⟨0, 32, .ro, .f⟩]⟩,
  -- CST_NOW
  ⟨.col, 0x140000, [], true,
    [⟨0, 64, .ro, .v 1⟩]⟩,
  -- CST_STATUS
  ⟨.col, 0x140008, [], false,
    [⟨29, 3, .ro, .v 0⟩, ⟨28, 1, .rw1c, .v 0⟩, ⟨27, 1, .ro, .v 0⟩, ⟨20, 7, .ro, .v 0⟩]⟩,
  -- CST_PARENTS
  ⟨.col, 0x14000C, [], false,
    [⟨24, 8, .ro, .v 0⟩, ⟨16, 8, .ro, .v 0⟩, ⟨8, 8, .ro, .v 0⟩, ⟨0, 8, .ro, .v 0⟩]⟩,
  -- CST_OFFSET
  ⟨.col, 0x140010, [], false,
    [⟨0, 32, .ro, .v 0⟩]⟩,
  -- CST_FREQ
  ⟨.col, 0x140014, [], false,
    [⟨0, 32, .ro, .v 0⟩]⟩,
  -- TRC_STATUS
  ⟨.col, 0x150000, [], false,
    [⟨16, 16, .rc, .v 0⟩, ⟨0, 13, .ro, .v 0⟩]⟩,
  -- HST_LINK_STATUS
  ⟨.col, 0x160000, [], false,
    [⟨28, 4, .ro, .v 0⟩, ⟨24, 4, .ro, .v 0⟩, ⟨20, 4, .ro, .v 0⟩, ⟨17, 1, .ro, .v 0⟩, ⟨16, 1, .ro, .v 0⟩, ⟨0, 16, .rc, .v 0⟩]⟩]

/-- Register tables, part 5. -/
def regTable5 : List RegDesc := [
  -- HST_TXEQ
  ⟨.col, 0x160100, [(4, 8)], false,
    [⟨31, 1, .rw, .v 0⟩, ⟨16, 6, .rw, .v 0⟩, ⟨8, 6, .rw, .v 48⟩, ⟨0, 6, .rw, .v 0⟩]⟩,
  -- HST_EYE
  ⟨.col, 0x160200, [(4, 8)], false,
    [⟨24, 8, .ro, .v 0⟩, ⟨16, 8, .ro, .v 0⟩, ⟨8, 8, .ro, .v 0⟩, ⟨0, 8, .ro, .v 0⟩]⟩,
  -- HST_PAT_CTRL
  ⟨.col, 0x160300, [], false,
    [⟨31, 1, .rw, .v 0⟩, ⟨30, 1, .ro, .v 0⟩, ⟨28, 2, .rw, .v 2⟩]⟩,
  -- HST_PAT_ERR
  ⟨.col, 0x160310, [(4, 8)], false,
    [⟨0, 32, .rc, .v 0⟩]⟩,
  -- PWR_STATUS
  ⟨.col, 0x170000, [], false,
    [⟨31, 1, .ro, .v 0⟩, ⟨30, 1, .rw1c, .v 0⟩, ⟨29, 1, .rw1c, .v 0⟩, ⟨28, 1, .rw1c, .v 0⟩, ⟨27, 1, .rw1c, .v 0⟩, ⟨26, 1, .rw1c, .v 0⟩, ⟨25, 1, .ro, .v 0⟩, ⟨16, 4, .ro, .f⟩, ⟨0, 16, .ro, .v 0⟩]⟩,
  -- PWR_SAG_START
  ⟨.col, 0x170008, [], true,
    [⟨0, 64, .ro, .v 0⟩]⟩,
  -- PWR_SAG_END
  ⟨.col, 0x170010, [], true,
    [⟨0, 64, .ro, .v 0⟩]⟩,
  -- PWR_SAG_INFO
  ⟨.col, 0x170018, [], false,
    [⟨31, 1, .ro, .v 0⟩, ⟨0, 16, .ro, .v 0⟩]⟩,
  -- PWR_PROFILE
  ⟨.col, 0x170020, [], false,
    [⟨30, 2, .ro, .v 1⟩, ⟨29, 1, .ro, .v 0⟩, ⟨28, 1, .ro, .v 0⟩, ⟨27, 1, .ro, .v 0⟩, ⟨26, 1, .ro, .v 0⟩, ⟨25, 1, .ro, .v 0⟩, ⟨24, 1, .ro, .v 0⟩, ⟨16, 6, .ro, .v 32⟩, ⟨0, 13, .ro, .f⟩]⟩,
  -- THM_CTRL
  ⟨.col, 0x180000, [], false,
    [⟨24, 8, .rw, .v 95⟩, ⟨16, 8, .rw, .v 105⟩, ⟨8, 8, .rw, .v 90⟩, ⟨0, 8, .rw, .v 100⟩]⟩,
  -- THM_BD_CTRL
  ⟨.col, 0x180004, [], false,
    [⟨0, 8, .rw, .v 95⟩]⟩,
  -- THM_CD_STATUS
  ⟨.cd, 0x60000, [], false,
    [⟨24, 8, .ro, .v 0⟩, ⟨18, 6, .ro, .v 40⟩, ⟨12, 6, .ro, .v 40⟩, ⟨6, 6, .ro, .v 40⟩, ⟨5, 1, .rw1c, .v 0⟩, ⟨0, 2, .ro, .v 1⟩]⟩]

/-- Register tables, part 6. -/
def regTable6 : List RegDesc := [
  -- THM_CD_DROOP
  ⟨.cd, 0x60004, [], false,
    [⟨16, 16, .rc, .v 0⟩, ⟨0, 16, .rc, .v 0⟩]⟩,
  -- CLK_CORE_FREQ
  ⟨.cd, 0x60100, [(4, 16)], false,
    [⟨31, 1, .ro, .v 0⟩, ⟨30, 1, .ro, .v 0⟩, ⟨0, 12, .ro, .v 0⟩]⟩,
  -- THM_BD_STATUS
  ⟨.bd, 0x800000, [], false,
    [⟨24, 8, .ro, .v 0⟩, ⟨23, 1, .rw1c, .v 0⟩, ⟨0, 6, .ro, .v 0⟩]⟩,
  -- RST_CAUSE
  ⟨.col, 0x190000, [], false,
    [⟨28, 4, .ro, .v 1⟩, ⟨10, 1, .rw1c, .v 0⟩, ⟨9, 1, .rw1c, .v 0⟩, ⟨8, 1, .rw1c, .v 0⟩, ⟨7, 1, .rw1c, .v 0⟩, ⟨6, 1, .rw1c, .v 0⟩, ⟨5, 1, .rw1c, .v 0⟩, ⟨4, 1, .rw1c, .v 0⟩, ⟨3, 1, .rw1c, .v 0⟩, ⟨2, 1, .rw1c, .v 0⟩, ⟨1, 1, .rw1c, .v 0⟩, ⟨0, 1, .rw1c, .v 1⟩]⟩,
  -- RST_CTRL
  ⟨.col, 0x190004, [], false,
    [⟨8, 8, .wo, .v 0⟩, ⟨1, 1, .wo, .v 0⟩, ⟨0, 1, .wo, .v 0⟩]⟩,
  -- RST_HOLD_CD
  ⟨.col, 0x190008, [], false,
    [⟨16, 12, .ro, .v 0⟩, ⟨0, 12, .rw, .v 0⟩]⟩,
  -- RST_TIME
  ⟨.col, 0x190010, [], true,
    [⟨0, 64, .ro, .v 1⟩]⟩,
  -- RST_CRIT_INFO
  ⟨.col, 0x190018, [], false,
    [⟨24, 8, .ro, .v 0⟩, ⟨16, 8, .ro, .v 0⟩, ⟨0, 16, .rc, .v 0⟩]⟩,
  -- RST_PIN_MAP
  ⟨.col, 0x190020, [], false,
    [⟨0, 22, .ro, .f⟩]⟩,
  -- RST_BACKUP
  ⟨.col, 0x190100, [(4, 32)], false,
    [⟨0, 32, .rws, .v 0⟩]⟩,
  -- RST_RETAIN_STATUS
  ⟨.col, 0x190200, [], false,
    [⟨31, 1, .rw1c, .v 0⟩, ⟨30, 1, .rw1c, .v 0⟩, ⟨0, 12, .ro, .v 0⟩]⟩,
  -- WNW_STATUS
  ⟨.col, 0x1A0000, [], false,
    [⟨31, 1, .ro, .v 0⟩, ⟨30, 1, .ro, .v 0⟩, ⟨29, 1, .ro, .v 0⟩, ⟨24, 3, .ro, .v 0⟩, ⟨16, 2, .ro, .v 0⟩, ⟨0, 11, .ro, .v 0⟩]⟩]

/-- Register tables, part 7. -/
def regTable7 : List RegDesc := [
  -- WNW_OPTIONS
  ⟨.col, 0x1A0004, [], false,
    [⟨0, 1, .ro, .w⟩]⟩,
  -- SEC_BOOT_STATUS
  ⟨.col, 0x1B0000, [], false,
    [⟨28, 4, .ro, .f⟩, ⟨24, 4, .ro, .v 0⟩, ⟨3, 1, .ro, .v 0⟩, ⟨2, 1, .ro, .v 0⟩, ⟨1, 1, .ro, .v 0⟩, ⟨0, 1, .ro, .v 0⟩]⟩,
  -- SEC_FACTORY
  ⟨.col, 0x1B0004, [], false,
    [⟨31, 1, .ro, .v 0⟩, ⟨0, 16, .ro, .v 0⟩]⟩,
  -- SEC_CHALLENGE
  ⟨.col, 0x1B0010, [(4, 8)], false,
    [⟨0, 32, .ro, .f⟩]⟩,
  -- SEC_RBC
  ⟨.col, 0x1B0030, [], false,
    [⟨24, 8, .ro, .f⟩, ⟨16, 8, .ro, .f⟩, ⟨8, 8, .ro, .f⟩, ⟨0, 8, .ro, .f⟩]⟩,
  -- FLT_STATUS
  ⟨.any, 0x3F00000, [(64, 16)], false,
    [⟨0, 32, .rw1c, .v 0⟩]⟩,
  -- FLT_SEV_LO
  ⟨.any, 0x3F00004, [(64, 16)], false,
    [⟨0, 32, .rw, .w⟩]⟩,
  -- FLT_SEV_HI
  ⟨.any, 0x3F00008, [(64, 16)], false,
    [⟨0, 32, .rw, .w⟩]⟩,
  -- FLT_FIRST
  ⟨.any, 0x3F0000C, [(64, 16)], false,
    [⟨31, 1, .ro, .v 0⟩, ⟨0, 5, .ro, .v 0⟩]⟩,
  -- FLT_FIRST_T
  ⟨.any, 0x3F00010, [(64, 16)], true,
    [⟨0, 64, .ro, .v 0⟩]⟩,
  -- FLT_COUNT
  ⟨.any, 0x3F00018, [(64, 16)], false,
    [⟨0, 32, .rc, .v 0⟩]⟩,
  -- FLT_BLOCKS
  ⟨.any, 0x3F00400, [], false,
    [⟨0, 16, .ro, .f⟩]⟩]

/-- Register tables, part 8. -/
def regTable8 : List RegDesc := [
  -- FLT_CTRL
  ⟨.col, 0x120004, [], false,
    [⟨31, 1, .ro, .v 0⟩, ⟨30, 1, .rw, .v 0⟩, ⟨28, 2, .rw, .v 2⟩, ⟨27, 1, .rw, .v 0⟩, ⟨0, 16, .rw, .v 100⟩]⟩,
  -- FLT_SAFE_INFO
  ⟨.col, 0x120008, [], false,
    [⟨31, 1, .rws, .v 0⟩, ⟨0, 24, .rws, .v 0⟩]⟩,
  -- FLT_SAFE_T
  ⟨.col, 0x120010, [], true,
    [⟨0, 64, .rws, .v 0⟩]⟩,
  -- FLT_UNIT_PENDING
  ⟨.col, 0x120020, [], true,
    [⟨0, 49, .ro, .v 0⟩]⟩,
  -- CRN_STATUS
  ⟨.crn, 0x0, [], false,
    [⟨31, 1, .ro, .v 0⟩, ⟨30, 1, .ro, .v 0⟩, ⟨29, 1, .ro, .v 0⟩, ⟨28, 1, .ro, .v 0⟩, ⟨27, 1, .rw1c, .v 0⟩]⟩,
  -- CRN_INTERVAL
  ⟨.crn, 0x4, [], false,
    [⟨0, 3, .rw, .f⟩]⟩,
  -- CRN_LAST_RECNO
  ⟨.crn, 0x8, [], true,
    [⟨0, 64, .ro, .f⟩]⟩,
  -- CRN_ACK
  ⟨.crn, 0x10, [], true,
    [⟨0, 64, .rw, .f⟩]⟩,
  -- CRN_COUNTS
  ⟨.crn, 0x18, [], false,
    [⟨16, 16, .ro, .f⟩, ⟨0, 16, .ro, .f⟩]⟩,
  -- CRN_APW
  ⟨.crn, 0x100, [(4, 4)], false,
    [⟨0, 32, .rw, .w⟩]⟩,
  -- FLK_PORT_TSCAL
  ⟨.bd, 0x600020, [(64, 32)], false,
    [⟨16, 16, .ro, .f⟩, ⟨0, 16, .ro, .f⟩]⟩,
  -- MGT_TAP_STATUS
  ⟨.col, 0x1C0000, [], false,
    [⟨31, 1, .ro, .v 0⟩, ⟨30, 1, .ro, .v 0⟩, ⟨29, 1, .ro, .v 0⟩, ⟨0, 16, .ro, .v 0⟩]⟩]

/-- Every register table of the device control space. -/
def regTable : List RegDesc :=
  regTable0 ++ regTable1 ++ regTable2 ++ regTable3 ++ regTable4 ++ regTable5 ++ regTable6 ++ regTable7 ++ regTable8

end Sys2Proof.Machine
end

