-- ==== Sys2Proof/Machine/State.lean ====
section
/-! DEFINITION. The state of the module as plain data: every register, memory, queue and piece of state the manual names,
and the queue of commands that are waiting (INVENTORY.md lists each with its rule). -/

namespace Sys2Proof.Machine

/-- The machine stops with a fault. No meaning of this model does: every row of the table has an effect. -/
inductive Fault where
  /-- Raised by no command; kept so that the type is closed and named (safe). -/
  | none
  deriving DecidableEq, Repr

/-- A command is turned away. -/
inductive Refusal where
  /-- A command whose meaning is not written yet (safe: nothing can be proved of it). -/
  | notModelled (mnemonic : String)
  deriving DecidableEq, Repr

/-! ## Cores (chapters 2 and 3) -/

/-- An engine's ACSW, SEED and ESEQ (R46, R61). -/
structure Eng where
  acsw : Word32 := 0x4#32
  seed : Word64 := 0#64
  eseq : BitVec 51 := 0#51
  deriving DecidableEq, Repr

/-- An instruction in a unit's queue: its word, its address, its predicate outcome, its place in program order, whether it has
started, and whether it has completed, an earlier one of its queue not having done so yet (R68, R99). -/
structure QEnt where
  w : CWord
  pc : Word64
  pred : Bool
  place : Nat
  started : Bool
  done : Bool
  deriving DecidableEq, Repr

/-- One request's share of a chunk (R184): its place in the stream, its length, where it is read and written (a physical
address, or a virtual one in another module; none for a sheaf operand, a pattern or no destination), how far it is
(0 to be read, 1 reading, 2 read, 3 writing, 4 complete), and its data. -/
structure Piece where
  off : Nat
  len : Nat
  src : Option Nat
  dst : Option Nat
  st : Nat
  data : List Byte
  deriving DecidableEq, Repr

/-- A chunk of a transfer issued and not retired (R184). -/
structure Chunk where
  no : Nat
  pieces : List Piece
  deriving DecidableEq, Repr

/-- A DMA transfer and its park record (R185 to R187). -/
structure Xfer where
  slot : Nat
  desc : List Byte
  addr : Nat
  pc : Nat
  st : Nat
  chunk : Nat
  next : Nat
  bytesDone : Nat
  reg : Nat
  tEvent : Nat
  fseq : Nat
  status : Nat
  issued : List Chunk
  ent : Option QEnt
  deriving DecidableEq, Repr

/-- A core: registers, sheaf memory, unit queues and what it runs (R68 to R71, R97). -/
structure Core where
  task : Option (Nat × Nat × Nat) := none
  ended : Bool := false
  stop : Bool := false
  saved : Bool := false
  pc : Word64 := 0#64
  sreg : Mp Word64 := []
  vreg : Mp Word32 := []
  treg : Mp Byte := []
  areg : Mp Word32 := []
  ev : Mp Word16 := []
  eng : Mp Eng := []
  sheaf : List Host.Cell := []
  sheafErr : Mp Nat := []
  extent : Nat := 0
  queues : Mp (List QEnt) := []
  place : Nat := 0
  waited : Bool := false
  sem : Option (CWord × Nat) := none
  xfers : List Xfer := []
  bindTo : Option (Option Nat) := none
  bindMode : Nat := 0
  bindOld : Option Nat := none
  tBind : Nat := 0
  halved : Bool := false
  stretch : Option Bool := none
  deriving DecidableEq, Repr

/-! ## Task graphs (chapter 4) -/

/-- A NEAR task running (R164 to R170): descriptor, chunk reached, pairs skipped, and the turns its unit has given it. -/
structure NearRun where
  desc : List Byte
  chunk : Nat
  skipped : Nat
  turn : Nat
  deriving DecidableEq, Repr

/-- A COLLECTIVE task on its engine (R206 to R226): descriptor, layouts or attention-streaming descriptor, its group as it
stood at the start, what it owes and has been sent, how far it is, and the messages it forwards: those of whole 64 KiB units, and
those of the unit that is still arriving. -/
structure CollRun where
  desc : List Byte
  aux : List Byte
  gid : Nat
  members : List Nat
  rank : Nat
  started : Bool
  sent : Bool
  owed : List (Nat × Nat × Nat)
  unacked : List (Nat × Nat × Nat)
  got : List (Nat × Nat × List Byte)
  hello : List (Nat × List Byte)
  chunk : Nat
  stage : List (Nat × Nat × Nat × List Byte)
  freeIdx : Nat
  staged : Nat
  ended : Bool
  blocksIn : Nat
  tFirst : Nat
  tLast : Nat
  fail : Option (Nat × Nat)
  fwd : List CollMsg
  unit : List CollMsg
  deriving DecidableEq, Repr

/-- A task of a resident graph (R104, R118, R129). -/
structure Task where
  desc : List Byte
  st : Nat := 0
  status : Nat := 0
  detail : Nat := 0
  tReady : Nat := 0
  tStart : Nat := 0
  tEvent : Nat := 0
  runTime : Nat := 0
  runSince : Option Nat := none
  preempts : Nat := 0
  flags : Nat := 0
  causes : Nat := 0
  home : Nat := 0
  cores : List Nat := []
  endedRanks : List Nat := []
  endStatus : Option (Nat × Nat) := none
  faults : List (Nat × Nat) := []
  savedRanks : List Nat := []
  waitedRanks : List Nat := []
  imaged : Bool := false
  bfStop : Bool := false
  unit : Nat := 0
  slot : Bool := false
  recWaiting : Nat := 0
  gate : Bool := false
  xfer : Option Xfer := none
  near : Option NearRun := none
  coll : Option CollRun := none
  deriving DecidableEq, Repr

/-- An edge (R107); `done` once it is settled. -/
structure Edge where
  succ : Nat
  pred : Nat
  graph : Nat
  kind : Nat
  done : Bool
  deriving DecidableEq, Repr

/-- A graph held under a handle (R103, R112, R128). -/
structure Graph where
  tenant : Nat
  tag : Nat
  ring : Nat
  held : Bool
  startHeld : Bool
  seq : Nat
  tasks : List Task
  edges : List Edge
  retired : Bool
  retireSlot : Bool
  deriving DecidableEq, Repr

/-- A record waiting for ring room, its PHASE bit clear: its bytes, the byte holding PHASE, the task whose slot it frees
(R127), and whether a ring slot stays reserved for it, its write being only deferred (R200). -/
structure RecW where
  bytes : List Byte
  phase : Nat
  task : Option (Nat × Nat)
  held : Bool
  deriving DecidableEq, Repr

/-- A completion, fault or trace ring (R125, R126, R192, R338). -/
structure Ring where
  tenant : Nat
  base : Nat
  entries : Nat
  ctrl : Nat
  vector : Nat
  modc : Nat
  mask : Nat
  tail : Nat
  head : Nat
  reserved : Nat
  waiting : List RecW
  unsig : Nat
  deriving DecidableEq, Repr

/-- A fault record waiting in the Col die store (R192): its bytes, its tenant, and which rings still want it. -/
structure FRec where
  bytes : List Byte
  tenant : Nat
  toModule : Bool
  toTenant : Bool
  deriving DecidableEq, Repr

/-- A trace record waiting for ring space (R338). -/
structure TRec where
  source : Nat
  ring : Nat
  bytes : List Byte
  bind : Bool
  deriving DecidableEq, Repr

/-! ## Memory and translation (chapters 5 and 6) -/

/-- A ridge-cache line (R155): its 128 bytes with their valid marks, a dirty bit per sector, its tenant, its way, whether
it is a borrowed copy, and bits of each 64-bit word found in error. -/
structure Line where
  data : List (Option Byte)
  dirty0 : Bool
  dirty1 : Bool
  tenant : Nat
  way : Nat
  borrowed : Bool
  bad : Bool
  deriving DecidableEq, Repr

/-- One ridge cache: its lines by line address, and the pseudo-LRU bits of each set (R155). -/
structure RCache where
  lines : Mp Line := []
  plru : Mp Nat := []
  deriving DecidableEq, Repr

/-- A change of a granule's or port's binding under way (R200, R133). -/
structure Change where
  tgt : Option Nat
  keep : Bool
  deriving DecidableEq, Repr

/-- What the binding of a granule holds beside MEM_GATTR (R135, R136, R200). -/
structure Gran where
  last : Option Nat := none
  tBind : Nat := 0
  pend : List Change := []
  uncl : List Nat := []
  changes : Nat := 0
  deriving DecidableEq, Repr

/-- A TLB entry (R174 to R177): tenant, first address, size and leaf. -/
structure TlbEnt where
  tenant : Nat
  va : Nat
  size : Nat
  leaf : Nat
  deriving DecidableEq, Repr

/-- A tag in use (R179, R188, R302): its number and REQ_ID, its holder, the piece of a chunk or the address it is for, what
a write carries, the serving module of a remote request and the port it waits on, and whether it is abandoned. -/
structure TagEnt where
  tag : Nat
  reqId : Nat
  rq : Requester
  tenant : Nat
  use : TagUse
  chunk : Nat
  piece : Nat
  write : Bool
  pa : Nat
  data : List Byte
  remote : Option Nat
  port : Option Nat
  abandoned : Bool
  deriving DecidableEq, Repr

/-- A completion record of a descriptor whose write is only deferred (R186, R200): the engine that writes it, the tenant, the
virtual address, the bytes, and the task it belongs to. -/
structure DefRec where
  rq : Requester
  tenant : Nat
  va : Nat
  bytes : List Byte
  task : Option (Nat × Nat)
  deriving DecidableEq, Repr

/-- The binding of an optical port (R131, R137). -/
structure PortBind where
  tenant : Option Nat := none
  tBind : Nat := 0
  changes : Nat := 0
  deriving DecidableEq, Repr

/-! ## Fabric (chapter 10) -/

/-- A fabric packet (R302): the fields of its header, its byte mask and its data. -/
structure Pkt where
  kind : Nat
  vc : Nat
  hops : Nat
  tenant : Nat
  status : Nat
  seq : Nat
  dst : Nat
  src : Nat
  len : Nat
  tag : Nat
  addr : Nat
  reqId : Nat
  mask : List Byte
  data : List Byte
  deriving DecidableEq, Repr

/-- One lane of a port's session (R303 to R311): transmitter, receiver and response cache. `limit`, `sent` and `units` count
256-byte units; the `…Sent` fields are what the last reports said; `busy` says that the first queued packet, an MGT_REQ, is
being executed. -/
structure Lane where
  next : Nat := 1
  wait : List Pkt := []
  replay : List Pkt := []
  sent : Nat := 0
  limit : Nat := 64
  seen : Nat := 0
  accepted : Nat := 0
  consumed : Nat := 0
  units : Nat := 0
  queue : List Pkt := []
  discard : Bool := false
  cache : List (Nat × Pkt) := []
  lastRx : Nat := 0
  ackSent : Nat := 0
  statSent : Nat := 0
  limitSent : Nat := 64
  unitSent : Nat := 0
  busy : Bool := false
  deriving DecidableEq, Repr

/-- A change that both ends of a link make at a marker (R314): MODE, SUBST or STRIPE, its fields and its marker. -/
structure LinkChange where
  sub : Nat
  a : Nat
  b : Nat
  m : Nat
  deriving DecidableEq, Repr

/-- A fabric port (R294 to R319): its lanes, the partner it recorded, the HELLO it holds, the streams in block lock and those
active, the lanes' turns in the round, responses discarded as unexpected, changes agreed and not yet made, exchanges not yet
answered, weights, TIME stamps; and of what it sends, the block period and the place in it, its own marker count, and by stream
the bits sent, the scrambler's last 58 and the BIP-8 since ALIGN (R259, R295, R296, R299). -/
structure Port where
  lanes : Mp Lane := []
  partner : Option (Nat × Nat × Nat × Nat) := none
  helloA : Option (Nat × Nat × Bool × Bool) := none
  lock : Nat := 0
  active : Nat := 1
  marker : Nat := 0
  turns : Mp Nat := []
  stray : Nat := 0
  changes : List LinkChange := []
  asked : List LinkChange := []
  weights : List Nat := [1, 1, 1, 1, 1, 1, 1]
  dropped : Bool := false
  partnerPwr : Mp Nat := []
  timeOut : Nat := 0
  timeIn : Nat := 0
  timeArr : Nat := 0
  period : Nat := 0
  place : Nat := 0
  count : Nat := 0
  sent : Mp Nat := []
  scram : Mp Nat := []
  bip : Mp Nat := []
  deriving DecidableEq, Repr

/-- A base die's end of a die link (R234 to R248): the groups its record shows failed in the order they failed, those this
end failed in the training under way, the training attempt, whether the training is in service; BSEQ, the beats sent and
not acknowledged, the BSEQ expected, whether a NAK is out, beats accepted since the last acknowledgement; received stream
bytes, the whole packets in the receive buffers with their classes, credits held and to be returned by class, packets waiting
to be sent, and the replays started at one BSEQ; the bump or spare group that carries each logical group, the parity errors of
each group with the time its 1 ms began, and whether an identity conflict keeps the bridge down (R250). -/
structure JPort where
  failed : List Nat := []
  own : List Nat := []
  att : Nat := 0
  inService : Bool := false
  seq : Nat := 0
  retry : List (List (List Byte)) := []
  expect : Nat := 0
  naked : Bool := false
  heard : Nat := 0
  rx : List Byte := []
  rxq : List (Nat × List Byte) := []
  credits : List Nat := [0, 0, 0, 0]
  ret : List Nat := [0, 0, 0, 0]
  sendq : List (Nat × List Byte) := []
  replays : Nat := 0
  map : List Nat := []
  parity : Mp (Nat × Nat) := []
  conflict : Bool := false
  deriving DecidableEq, Repr

/-- A Porger's own state (chapter 9; what its fuses record stands in Fuses): its last 1,024 monitor
samples in 0.01 dB against the calibrated value, how many running lie 6 dB below, whether the warning stands and whether an
abrupt failure waits for the spare; whether the switch is commanded, the link layers idle for it, the transmitters are silent
in its gap, light is blanked; the state of each port before blanking; lines without light by port; the sensor reading that
TEMP_FF brought, whether PARAM_SET enabled it, the temperature of STATUS_Q, and the modules whose sideband is down (R260). -/
structure Porger where
  samples : List Int := []
  low : Nat := 0
  warn : Bool := false
  abrupt : Bool := false
  go : Bool := false
  hold : Bool := false
  gap : Bool := false
  blanked : Bool := false
  prev : List Nat := []
  los : Mp Nat := []
  ports : Nat := 0
  sensor : Int := 0
  ffOn : Bool := false
  lag : Int := 0
  base : Mp Int := []
  refs : Mp Nat := []
  temp : Nat := 0
  sbDown : Nat := 0
  deriving DecidableEq, Repr

/-- A collective group (R204, R212, R216): GROUP_ID, owner, participants, the tenant named for each, the sequence count of
each participant of this module, and one more than the lowest COLL_SEQ known there to have failed. -/
structure Group where
  gid : Nat
  owner : Nat
  members : List Nat
  tenants : List Nat
  counts : Mp Nat
  failed : Mp Nat
  deriving DecidableEq, Repr

/-- A tenant's table area and the free places in it (R176). -/
structure Area where
  pa : Nat := 0
  units : Nat := 0
  used : List (Nat × Nat) := []
  deriving DecidableEq, Repr

/-! ## Host interface (chapter 12) -/

/-- A queue pair (R350 to R355). -/
structure QP where
  owner : Nat := 0
  idx : Nat := 0
  created : Bool := false
  error : Bool := false
  cmdBase : Nat := 0
  rplBase : Nat := 0
  log2 : Nat := 4
  vector : Nat := 0
  modc : Nat := 1
  tail : Nat := 0
  fetched : Nat := 0
  head : Nat := 0
  replies : Nat := 0
  unsig : Nat := 0
  deriving DecidableEq, Repr

/-- A command fetched and not yet replied, in the order of acceptance (R352, R362). -/
structure Inflight where
  path : CmdPath
  entry : List Byte
  tAccept : Nat
  discard : Bool
  deriving DecidableEq, Repr

/-- A started command whose reply waits for something: what is left of it and its RESULT so far (R363); `discard` if its
queue pair has been deleted. -/
structure Wait where
  path : CmdPath
  op : Nat
  tag : Nat
  tAccept : Nat
  tenant : Nat
  dataAddr : Nat
  dataLen : Nat
  keys : List Nat
  a : Nat
  b : Nat
  result : Nat
  tDone : Nat
  discard : Bool
  deriving DecidableEq, Repr

/-- What a function holds: its control page and MSI-X table (R344, R345, R354). -/
structure Fn where
  cmdBase : Nat := 0
  rplBase : Nat := 0
  log2 : Nat := 4
  modc : Nat := 1
  vector : Nat := 0
  winBase : Nat := 0
  rdCmd : Nat := 0
  rdRpl : Nat := 0
  wrCmd : Nat := 0
  wrRpl : Nat := 0
  msix : Mp Nat := []
  pend : Nat := 0
  cfg : Mp Word32 := []
  deriving DecidableEq, Repr

/-! ## What leaves the module -/

/-- What an outside party sees: the model's own record of it, newest first. -/
inductive Out where
  /-- A write to host memory: data out, or a reply (R353). -/
  | hostWrite (addr : Nat) (bytes : List Byte)
  /-- An MSI-X message of a function's vector (R354). -/
  | msix (fn vector : Nat)
  /-- The answer to a register read. -/
  | reg (addr value : Nat)
  /-- The answer to a memory read. -/
  | mem (pa : Nat) (bytes : List Byte)
  /-- A memory request completed with error. -/
  | memError (pa kind : Nat)
  /-- Something sent on a die-link port of a die. -/
  | die (n port : Nat) (bytes : List Byte)
  /-- What the wires of a die-link port carry for it: each group used, with a word for each unit interval: the group's 64 data
  lanes in bits 63 to 0 and its track lane in bit 64 (R232, R233). -/
  | wires (n port : Nat) (groups : List (Nat × List Nat))
  /-- Something sent on a fabric port's lane. -/
  | fabric (port lane : Nat) (bytes : List Byte)
  /-- The 66-bit blocks that carry it over a UCIe module at 8 or 16 GT/s, each with its logical stream, the number of its first
  bit in that stream, and bit 0 the bit sent first (R259, R295, R299). -/
  | blocks (port : Nat) (rate8 : Bool) (bs : List (Nat × Nat × Nat))
  /-- The light that carries them, from a fibre position of a Porger's connector: each with its line's grid frequency in GHz, the
  number of its first symbol on that stream, and the symbols in the order sent, a bit each in NRZ, a code of the ring's DAC each in
  PAM4 (R265, R285, R487). -/
  | light (k pos : Nat) (pam4 : Bool) (bs : List (Nat × Nat × List Nat))
  /-- The feed-forward term of each ring's heater: the ring, and its resonance shift in 1/256 GHz (R275). -/
  | heaters (k : Nat) (terms : List (Nat × Int))
  /-- The answer to a configuration read; none is Configuration Request Retry Status (R341). -/
  | cfg (fn off : Nat) (value : Option Nat)
  /-- A sideband message to a Porger site (R261). -/
  | sideband (k code : Nat) (bytes : List Byte)
  /-- A sideband register message of a module of a Porger site: the offset in the engine's unit, and what is written (R260, R261). -/
  | uciReg (k m : Nat) (write : Bool) (off value : Nat)
  /-- A collective message or notice sent (R203, R215). -/
  | coll (m : CollMsg)
  | notice (n : FailNotice)
  /-- A pin driven to a level: FAULT_N, SMB_ALERT_N (R16). -/
  | pin (name : String) (high : Bool)
  /-- An SMBus answer (R484). -/
  | smbus (bytes : List Byte)
  /-- A test access port answer (R469). -/
  | tap (value : Nat)
  /-- The bits a lane's PRBS31 generator sends (R263). -/
  | prbs (l : TestLane) (bits : List Bool)
  deriving DecidableEq, Repr

/-- The containment of a die, stack or Porger site (R254 to R257): 0 none, 1 triggered, 2 fenced, 3 rejoining; its cause. -/
structure DieSt where
  st : Nat := 0
  cause : Nat := 0
  tFence : Nat := 0
  localSafe : Bool := false
  deriving DecidableEq, Repr

/-- What the fuses and straps of a module fix (R4, R14); `repaired` holds the rows of each stack mapped to spares since, each
named by the codeword address that ROW_REPAIR gave (R154); `lasersB` and `sparesBad` hold the Porger sites whose fuses record
a switch to laser LB and a failed spare (R271, R272). -/
structure Fuses where
  a12 : Bool := true
  build : Nat := 0
  step : Nat := 1
  metal : Nat := 0
  spareRows : Nat := 255
  repaired : Mp (List Nat) := []
  lasersB : List Nat := []
  sparesBad : List Nat := []
  strapOk : Bool := true
  strapRot : List Nat := [0, 1, 2, 3]
  pinMap : Nat := 0
  rootBlown : Nat := 1
  rootRevoked : Nat := 0
  rbc : List Nat := [0, 0, 0, 0]
  txLat : Nat := 0
  rxLat : Nat := 0
  deriving DecidableEq, Repr

/-! ## Power, reset, security, metrology, calibration and test (chapters 13 to 15, 17 to 19) -/

/-- Power and thermal control (R370 to R392): the last input sample in mV and mA, the mean power of the last control step in
mW, the input energy in units of 0.25 pJ; whether a sag, an overcurrent and an unreachable cap stand; the overriding cap; the
hottest reading of each die by its code, and of the base-die sensor under each compute die and stack; the dies whose local
throttle acts; each stack's issue limit by thermal control in percent, where it differs from 100; the stacked band each
compute die and stack is in; THM_CTRL and THM_BD_CTRL as the last control step took them; whether stacked mode is asked for. -/
structure Pwr where
  vin : Nat := 0
  iin : Nat := 0
  mean : Nat := 0
  energy : Nat := 0
  sag : Bool := false
  overI : Bool := false
  unreach : Bool := false
  capOvr : Nat := 0
  temps : Mp Int := []
  under : Mp Int := []
  hot : List Nat := []
  limit : Mp Nat := []
  band : Mp Nat := []
  thm : Nat := 0x5F695A64
  thmBd : Nat := 95
  stacked : Bool := false
  deriving DecidableEq, Repr

/-- Where a start of the module stands (R373, R401 to R410): the rails (0 down, 1 rising, 2 complete); whether the Col die's
logic is released; the blocks whose clock-good has met R401; whether the Winnower is loading, and whether the load that was
interrupted last was the third; whether the Col die's clock has been lost (R440); whether a bank of component 0 has been chosen and whether the management firmware runs;
whether PERST_N is asserted. -/
structure Boot where
  rails : Nat := 0
  up : Bool := false
  stable : List Block := []
  loading : Bool := false
  safeNow : Bool := false
  lost : Bool := false
  chosen : Bool := false
  fw : Bool := false
  perst : Bool := false
  deriving DecidableEq, Repr

/-- The security engine and the option store (R415 to R425): the banks by 2 × component + bank; the bank
each component runs from at its next taking effect; whether a newly activated component 0 has not reached READY yet, and
whether the watchdog has struck it; the images measured at the last boot, the counters and the boot
status that went into BOOT_DIGEST. -/
structure Sec where
  banks : Mp (List Byte) := []
  active : Mp Nat := []
  fresh : Bool := false
  struck : Bool := false
  meas : List (List Byte) := [[], [], [], []]
  bootRbc : List Nat := [0, 0, 0, 0]
  bootStatus : Nat := 0
  deriving DecidableEq, Repr

/-- One binding change as apportionment sees it (R456): when, which resource (a core c, 4096 + a granule, 8192 + a port), and
the tenant that holds it from then on. -/
structure Held where
  t : Nat
  res : Nat
  tenant : Nat
  deriving DecidableEq, Repr

/-- The Cairn and the apportionment outside its seal (R443 to R459): whether its supply stands; SERIAL, and SERIAL as the Col
die last read it; the records held, by number, and the signed part of the last; CRN_ACK; the interval code in force and the
one asked for; E_CUM and E_CUM of the last interval record; where the interval began, the last Crest value that came and how many µs of the interval had passed then;
whether Crest values are missing; the incarnation received; the seal counters, and covers opened while the supply was lost; what each resource's holder was at T_START,
the changes since, the weights at T_START, whether the interval began after the last system reset, and the entries made. -/
structure Crn where
  supply : Bool := true
  serial : List Byte := List.replicate 16 0#8
  lastSerial : List Byte := List.replicate 16 0#8
  store : Mp (List Byte) := []
  recno : Nat := 0
  signed : List Byte := []
  ack : Nat := 0
  code : Nat := 2
  want : Option Nat := none
  eCum : Nat := 0
  eLast : Nat := 0
  tStart : Nat := 0
  crest : Nat := 0
  dur : Nat := 0
  lost : Bool := false
  incarnation : Nat := 0
  tamper : Nat := 0
  param : Nat := 0
  pwrfail : Nat := 0
  overwrite : Nat := 0
  covers : Nat := 0
  holders : Mp Nat := []
  changes : List Held := []
  weights : List Nat := [0, 0, 0, 0]
  apportioned : Bool := false
  entries : List (Nat × List Byte) := []
  deriving DecidableEq, Repr

/-- What a calibration keeps (R463): the result of the last run, the applied results, when the last was applied. -/
structure Cal where
  result : Nat := 0
  count : Nat := 0
  tLast : Nat := 0
  deriving DecidableEq, Repr

/-- Where a loss of light lies (R281). -/
inductive LossPlace where
  /-- The active laser; R269 to R273 act. -/
  | laser
  /-- The splitter or transmit bus of a port: a Porger fault. -/
  | splitter
  /-- A transmit ring. -/
  | ring
  /-- Connectors, fibre or switch. -/
  | fibre
  /-- The partner's receive ring, or a switch's loss at one wavelength. -/
  | partnerRing
  /-- No loss: receiver, timing or crosstalk. -/
  | receiver
  deriving DecidableEq, Repr

/-- The hooks of a lane (R263): the generator's last 31 bits, zero if it does not run; the last 31 bits at the checker, how many it has
seen, the errors it has counted; the sampling phase in 1/64 UI. -/
structure Hook where
  gen : Nat := 0
  hist : Nat := 0
  seen : Nat := 0
  errors : Nat := 0
  phase : Int := 0
  deriving DecidableEq, Repr

/-- The test access port (R469 to R471): the instruction (0 IDCODE, 1 BYPASS, 2 SAMPLE/PRELOAD, 3 EXTEST, 4 private) and the
boundary cells; the hooks of lanes, and the die-link ports that loop back (R263); and the sideband's read selection (R484). -/
structure Test where
  tap : Nat := 0
  cells : Nat := 0
  hooks : Mp Hook := []
  loops : List Nat := []
  recno : Nat := 0
  offset : Nat := 0
  deriving DecidableEq, Repr

/-- The state of the block. -/
structure State where
  pending : List Instr := []
  outputs : List Out := []
  freeCtr : Nat := 0
  fuses : Fuses := {}
  crest : Nat := 1
  crestRun : Bool := false
  skew : Mp Int := []
  aligning : List Nat := []
  regs : Mp Word64 := []
  rdShadow : Mp Word32 := []
  wrShadow : Mp Word32 := []
  sram : Mp Word32 := []
  cores : Mp Core := []
  mem : List Host.Cell := []
  cwErr : Mp (Mp Byte) := []
  scrub : Mp Nat := []
  caches : Mp RCache := []
  grans : Mp Gran := []
  areas : Mp Area := []
  tlbs : Mp (List TlbEnt) := []
  tags : Mp (List TagEnt) := []
  portBind : Mp PortBind := []
  reqSeq : Nat := 0
  deferred : List DefRec := []
  ports : Mp Port := []
  jports : Mp JPort := []
  sites : Mp (List Nat) := []
  porgers : Mp Porger := []
  groups : Mp Group := []
  collNet : List CollMsg := []
  notices : List FailNotice := []
  recLost : Bool := false
  graphs : Mp Graph := []
  graphSeq : Nat := 0
  cRings : Mp Ring := []
  fRings : Mp Ring := []
  tRings : Mp Ring := []
  fseq : Nat := 1
  frecs : List FRec := []
  trecs : List TRec := []
  trcSeq : Mp Nat := []
  trcLost : Mp Nat := []
  qps : Mp QP := []
  fns : Mp Fn := []
  inflight : List Inflight := []
  waits : List Wait := []
  lastAccept : Nat := 0
  lastQp : Nat := 0
  lastZero : Bool := false
  ready : Bool := false
  dies : Mp DieSt := []
  pulse : Bool := false
  inj : Mp Nat := []
  unseen : List (Nat × Nat × Nat × Nat) := []
  txeq : Mp Nat := []
  pwr : Pwr := {}
  boot : Boot := {}
  sec : Sec := {}
  crn : Crn := {}
  cals : Mp Cal := []
  test : Test := {}
  streak : Nat := 0
  deriving DecidableEq, Repr

/-- The module right after power-on reset: every register at the Reset column of its table (R14). -/
def State.reset : State := {}

end Sys2Proof.Machine
end

