-- ==== Sys2Proof/Machine/Ops.lean ====
section
/-! DEFINITION. The named operations over the state: registers, free values, outputs, units and dies, fault records and
fault sources, trace records, cores and tasks (spec/00_scope.md R4 to R18, spec/06_translation_dma_and_faults.md R189 to
R192, spec/11_crest_timebase_and_trace.md R335 to R338, spec/16_faults_and_redundancy.md R427 to R437). -/

namespace Sys2Proof.Machine

/-- Applies a function a number of times. -/
def iter {α : Type} (f : α → α) : Nat → α → α
  | 0, x => x
  | n + 1, x => iter f n (f x)

/-! ## Free values and outputs -/

/-- A value the manual leaves open: free, and a fresh one at each use (log entry 3). -/
def freeVal (use : Nat) (s : State) : Nat := Config.free use s.freeCtr

/-- Moves on to the next free value. -/
def nextFree (s : State) : State := { s with freeCtr := s.freeCtr + 1 }

/-- Something leaves the module. -/
def emit (o : Out) (s : State) : State := { s with outputs := o :: s.outputs }

/-! ## Registers -/

/-- Catalogue of R432: kind is condition, default level and lowest level of a source of a unit; none if there is none. -/
def srcInfo (unit b src : Nat) : Option (Bool × Nat × Nat) :=
  if unit = 0 then
    if b = 0 then
      if src ≤ 4 then some (false, 1, 0) else if src = 5 then some (false, 3, 3) else none
    else if b = 1 then
      if src = 0 then some (false, 0, 0) else if src ≤ 4 then some (false, 1, 1)
      else if src = 5 then some (false, 0, 0) else if src = 6 then some (false, 1, 0)
      else if src ≤ 8 then some (true, 1, 0) else if src = 9 then some (false, 1, 1)
      else if src = 10 then some (false, 1, 0) else if src = 11 then some (false, 0, 0) else none
    else none
  else if 1 ≤ unit ∧ unit ≤ 4 then
    if b = 0 then
      if src < 18 then (if src % 3 = 1 then some (false, 0, 0) else some (false, 1, 1))
      else if src ≤ 19 then some (false, 1, 1) else if src = 20 then some (false, 2, 2) else none
    else if b = 1 then
      if src < 24 then
        (if src % 4 = 0 then some (false, 1, 1) else if src % 4 = 1 then some (false, 0, 0)
         else if src % 4 = 2 then some (false, 2, 2) else some (true, 0, 0))
      else if src = 24 then some (false, 1, 1) else none
    else if b = 2 then (if src < 8 then some (false, 1, 1) else none)
    else if b = 3 then (if src < 32 then some (false, 1, 0) else none)
    else if b = 4 then
      (if src = 0 ∨ src = 2 then some (false, 1, 1) else if src = 1 ∨ src = 3 then some (false, 0, 0) else none)
    else if b = 5 then
      (if src = 0 ∨ src = 2 then some (false, 2, 2) else if src = 1 then some (true, 0, 0)
       else if src = 3 then some (false, 0, 0) else none)
    else none
  else if 8 ≤ unit ∧ unit ≤ 19 then
    if b = 0 then (if src < 16 then some (false, 1, 1) else none)
    else if b = 1 then
      (if src = 0 then some (false, 2, 2) else if src = 1 then some (true, 0, 0)
       else if src = 2 then some (false, 0, 0) else if src = 3 then some (false, 2, 2) else none)
    else none
  else if 32 ≤ unit ∧ unit ≤ 47 then
    if b = 0 then
      (if src = 0 then some (true, 1, 0) else if src ≤ 6 then some (false, 1, 0)
       else if src = 7 then some (false, 2, 2) else if src = 8 then some (false, 1, 0) else none)
    else if b = 1 then
      (if src < 32 then (if src % 4 ≤ 1 then some (false, 0, 0) else some (false, 1, 0)) else none)
    else none
  else none

/-- The number of fault blocks a unit has (R432). -/
def blockCount (unit : Nat) : Nat :=
  if unit = 0 then 2 else if 1 ≤ unit ∧ unit ≤ 4 then 6
  else if (8 ≤ unit ∧ unit ≤ 19) ∨ (32 ≤ unit ∧ unit ≤ 47) then 2 else 0

/-- The default levels of the 16 sources from `base` of a block, packed as FLT_SEV_LO_b and FLT_SEV_HI_b hold them. -/
def defaultLevels (unit b base : Nat) : Nat :=
  packBits 2 ((List.range 16).map fun i => match srcInfo unit b (base + i) with
    | some (_, d, _) => d
    | none => 0)

/-- Number of ridges of the grade (R2). -/
def Fuses.ridges (fz : Fuses) : Nat := if fz.a12 then 4 else 2

/-- The value of a field taken from fuses or straps (F), or of one no Reset column states, by unit, offset and place. -/
def fuseField (fz : Fuses) (unit off lo : Nat) : Nat :=
  if unit = 0 then
    if off = 0 then (if lo = 16 then (if fz.a12 then 0x0A12 else 0x0A06) else if lo = 8 then fz.build
      else if lo = 4 then fz.step else fz.metal)
    else if off = 0x10 then 2 ^ fz.ridges - 1
    else if off = 0x100000 then (if lo = 15 then 16384 * fz.ridges else 4096 * fz.ridges)
    else if off = 0x170000 then (if fz.a12 then 13 else 7)
    else if off = 0x190020 then fz.pinMap
    else if off = 0x170020 then (if fz.a12 then 4300 else 2180)
    else if off = 0x1B0000 then ((List.range 3).find? (fun k => bitOf fz.rootBlown k && !bitOf fz.rootRevoked k)).getD 15
    else if off = 0x1B0030 then (fz.rbc[lo / 8]?).getD 0
    else if off = 0x3F00400 then 2 ^ blockCount unit - 1
    else 0
  else if off = 0x3F00400 then 2 ^ blockCount unit - 1
  else if 1 ≤ unit ∧ unit ≤ 4 then
    if 0x200100 ≤ off ∧ off < 0x200160 then fz.spareRows - (Mp.get [] fz.repaired (6 * (unit - 1) + (off - 0x200100) / 16)).length
    else if off = 0x400000 then (if lo = 16 then b2n fz.strapOk else (fz.strapRot[unit - 1]?).getD 0)
    else if 0x600000 ≤ off ∧ off < 0x600800 then (if lo = 16 then fz.txLat else fz.rxLat)
    else 0
  else if 32 ≤ unit ∧ unit ≤ 47 then
    if 0x1000 ≤ off then b2n (decide (6 ≤ (off - 0x1000) / 0x400))
    else if off = 0x100 then
      (if lo = 31 then b2n (fz.lasersB.contains (unit - 32))
       else if fz.lasersB.contains (unit - 32) then 5 else if fz.sparesBad.contains (unit - 32) then 4 else 0)
    else 0
  else 0

/-- The value before option loading of a field the Winnower loads (W): the catalogue's default levels, the Cairn's base
weights of the grade, and otherwise zero (log entry 12). -/
def winnowField (fz : Fuses) (unit off : Nat) : Nat :=
  if 0x3F00000 ≤ off ∧ off < 0x3F00400 then
    if off % 0x40 = 4 then defaultLevels unit ((off - 0x3F00000) / 0x40) 0
    else defaultLevels unit ((off - 0x3F00000) / 0x40) 16
  else if unit = 0x30 then
    (if off = 0x100 then 15000 else if off = 0x104 then 600 else if off = 0x108 then 1600
     else (if fz.a12 then 1200000 else 600000))
  else 0

/-- Whether a unit number is of a kind. -/
def UKind.has (k : UKind) (unit : Nat) : Bool :=
  match k with
  | .col => unit == 0
  | .bd => decide (1 ≤ unit ∧ unit ≤ 4)
  | .cd => decide (8 ≤ unit ∧ unit ≤ 19)
  | .oe => decide (32 ≤ unit ∧ unit ≤ 47)
  | .crn => unit == 0x30
  | .any => decide (unit = 0 ∨ (1 ≤ unit ∧ unit ≤ 4) ∨ (8 ≤ unit ∧ unit ≤ 19) ∨ (32 ≤ unit ∧ unit ≤ 47))

/-- Where an offset lies in an indexed register: the remainder after taking out every index in range. -/
def dimRest : List (Nat × Nat) → Nat → Option Nat
  | [], d => some d
  | (st, n) :: r, d => if d / st < n then dimRest r (d % st) else none

/-- The register at an offset of a unit: its description, and whether the offset is its high word. -/
def findReg (unit off : Nat) : Option (RegDesc × Bool) :=
  regTable.findSome? fun r =>
    if r.kind.has unit ∧ r.off ≤ off ∧ (r.kind = .any → off = 0x3F00400 ∨ (off - 0x3F00000) / 0x40 < blockCount unit) then
      match dimRest r.dims (off - r.off) with
      | some 0 => some (r, false)
      | some 4 => if r.wide then some (r, true) else none
      | _ => none
    else none

/-- The value of a register after power-on reset, before anything is written to it (R14). -/
def resetReg (fz : Fuses) (a : Nat) : Word64 :=
  let unit := a / 0x4000000
  let off := a % 0x4000000
  match findReg unit off with
  | none => 0#64
  | some (r, _) => BitVec.ofNat 64 (r.fields.foldl (fun v f => v + 2 ^ f.lo * (match f.rst with
      | .v n => n
      | .f => fuseField fz unit off f.lo % 2 ^ f.w
      | .w => winnowField fz unit off % 2 ^ f.w)) 0)

/-- The whole stored value of the register at an address. -/
def regVal (s : State) (a : Nat) : Word64 :=
  match Mp.find s.regs a with
  | some v => v
  | none => resetReg s.fuses a

/-- Sets the whole stored value of a register. -/
def regPut (a : Nat) (v : Word64) (s : State) : State := { s with regs := Mp.ins s.regs a v }

/-- A field's stored value. -/
def fget (s : State) (a : Nat) (f : Fld) : Nat := fieldOf (regVal s a).toNat f.lo f.w

/-- Sets a field, truncated to its width. -/
def fset (a : Nat) (f : Fld) (v : Nat) (s : State) : State :=
  regPut a (BitVec.ofNat 64 (withField (regVal s a).toNat f.lo f.w v)) s

/-- Bit `i` of a field. -/
def fbit (s : State) (a : Nat) (f : Fld) (i : Nat) : Bool := bitOf (fget s a f) i

/-- Sets bit `i` of a field. -/
def fsetBit (a : Nat) (f : Fld) (i : Nat) (b : Bool) (s : State) : State :=
  fset a f (withField (fget s a f) i 1 (b2n b)) s

/-- Adds to a counter field, saturating at its largest value. -/
def fcount (a : Nat) (f : Fld) (n : Nat) (s : State) : State :=
  fset a f (min (2 ^ f.w - 1) (fget s a f + n)) s

/-! ## Units, dies and time -/

def nRidges (s : State) : Nat := s.fuses.ridges
def nDies (s : State) : Nat := 3 * nRidges s
def nCores (s : State) : Nat := 48 * nRidges s
def nStacks (s : State) : Nat := 6 * nRidges s
def nSites (s : State) : Nat := 4 * nRidges s
def nPorts (s : State) : Nat := 32 * nRidges s

/-- The Crest count at a die, by UNIT code of R191: the master's, moved by the die's own difference (R325). -/
def stampAt (s : State) (unit : Nat) : Nat :=
  ((s.crest : Int) + Mp.get 0 s.skew unit).toNat

/-- One Crest count passes at every die but those that R329 holds until the master catches up. -/
def tick (s : State) : State :=
  let held := s.aligning
  let skew := held.foldl (fun m u => Mp.upd 0 m u (· - 1)) s.skew
  { s with crest := s.crest + 1, skew := skew, aligning := held.filter (fun u => decide (0 < Mp.get 0 skew u)) }

/-- The state of a die, stack or site by its code: 0 to 11, 16 to 19, 32 to 55, or 80 + k for OEk. -/
def dieOf (s : State) (u : Nat) : DieSt := Mp.get {} s.dies u

def setDie (u : Nat) (d : DieSt) (s : State) : State := { s with dies := Mp.put {} s.dies u d }

/-- Whether a die is neither fenced nor being fenced. -/
def dieOk (s : State) (u : Nat) : Bool := (dieOf s u).st == 0

/-- A ridge whose base die is populated, out of reset and not fenced (R142); RIDGE_UP, the reach of the main route, plays no
part. -/
def ridgeServes (s : State) (n : Nat) : Bool := decide (n < nRidges s) && dieOk s (16 + n) && s.boot.stable.contains (.base n)

/-! ## The ring of base dies (R23) -/

/-- The state of a die-link port of a base die. -/
def jxlState (s : State) (n p : Nat) : Nat := fget s (rJXL_PORT_STATUS n p) fJXL_PORT_STATUS_STATE
def jxlSet (n p v : Nat) (s : State) : State :=
  if n < nRidges s then fset (rJXL_PORT_STATUS n p) fJXL_PORT_STATUS_STATE v s else s

/-- The bridge from BDi to BD(i + 1): both its ends are up, and its dies are populated (R23, R28). -/
def bridgeUp (s : State) (i : Nat) : Bool :=
  let j := (i + 1) % 4
  decide (i < nRidges s) && decide (j < nRidges s) && jxlState s i 3 == 3 && jxlState s j 4 == 3

/-- The dies passed from BDa up the ring to BDb, BDb last, if every bridge on the way is up. -/
def ringUp (s : State) : Nat → Nat → Nat → Option (List Nat)
  | 0, a, b => if a = b then some [] else none
  | f + 1, a, b =>
    if a = b then some []
    else if bridgeUp s a then (ringUp s f ((a + 1) % 4) b).map (fun l => (a + 1) % 4 :: l) else none

/-- The same down the ring. -/
def ringDown (s : State) (a b : Nat) : Option (List Nat) := (ringUp s 3 b a).map (fun l => ((b :: l).reverse).drop 1)

/-- The dies that a transfer from BDa to BDb for a PA passes, BDb last (R23): over the common bridge of neighbours; between
diagonal dies by the lower-numbered intermediate die if PA[12] is 0, the higher-numbered if it is 1; the other way round the
ring where a bridge on the way is down. -/
def dieRoute (s : State) (a b pa : Nat) : Option (List Nat) :=
  let d := (b + 4 - a) % 4
  let up := if d = 2 then decide ((a + 1) % 4 < (a + 3) % 4) != bitOf pa 12 else d == 1
  if up then (ringUp s 3 a b).or (ringDown s a b) else (ringDown s a b).or (ringUp s 3 a b)

/-- Whether the Col attach is up (R26). -/
def colAttach (s : State) : Bool := jxlState s 0 5 == 3

/-- The base dies reached from BD0 over bridges that are up. -/
def reachGrow (s : State) (l : List Nat) : List Nat :=
  (List.range 4).filter (fun n => l.contains n || (bridgeUp s n && l.contains ((n + 1) % 4))
    || (bridgeUp s ((n + 3) % 4) && l.contains ((n + 3) % 4)))

/-- The base dies on the main route: BD0 through the Col attach, the others through bridges (R26). -/
def mainRoute (s : State) : List Nat := if colAttach s then iter (reachGrow s) 3 [0] else []

/-- Whether the Col die reaches a base die over the main route, which alone carries task graphs, DMA data and bulk command
traffic (R26, R27). -/
def onRoute (s : State) (n : Nat) : Bool := dieOk s (16 + n) && (mainRoute s).contains n

/-- Whether a requester in a ridge reaches the memory of a PA's ridge (R22, R23, R142). -/
def reaches (s : State) (ridge n pa : Nat) : Bool := ridgeServes s n && (ridge == n || (dieRoute s ridge n pa).isSome)

/-- Whether the module is in the safe state (R433). -/
def isSafe (s : State) : Bool := fget s rFLT_CTRL fFLT_CTRL_SAFE == 1

/-- The code of R191 of the die a unit number of R8 stands for; a Porger reports as its base die. -/
def unitDie (u : Nat) : Nat :=
  if u = 0 then 64 else if u ≤ 4 then 15 + u else if u ≤ 19 then u - 8 else 16 + (u - 32) / 4

/-! ## Trace (R336 to R338) -/

/-- The trace source that belongs to a die: 0 the Col die, 1 + n the dispatch unit of BDn, 5 + n its link layers, 9 the
fault path. -/
def traceStoreDie (src : Nat) : Nat := if src = 0 ∨ src = 9 then 64 else if src ≤ 4 then 15 + src else 11 + src

/-- Pads a payload to 16 bytes. -/
def pad16 (l : List Byte) : List Byte := (l ++ List.replicate 16 0#8).take 16

/-- Makes a trace record: its number is used whether or not it is stored; each ring that takes the type stores it while
its die's store has room (R336, R338). -/
def trace (src unit type tenant t : Nat) (payload : List Byte) (s : State) : State :=
  let q := Mp.get 0 s.trcSeq src
  let bytes := leBytes 8 t ++ leBytes 4 q ++ leFields [(1, unit), (1, type), (1, tenant), (1, 0)] ++ pad16 payload
  let s := { s with trcSeq := Mp.put 0 s.trcSeq src ((q + 1) % 2 ^ 32) }
  s.tRings.foldl (fun s p =>
    if bitOf p.2.mask type then
      let die := traceStoreDie src
      let held := (s.trecs.filter (fun r => traceStoreDie r.source == die && !r.bind)).length
      if type = 1 ∨ held < 2048 then
        { s with trecs := s.trecs ++ [⟨src, p.1, bytes, type == 1⟩] }
      else
        let s := { s with trcLost := Mp.upd 0 s.trcLost src (· + 1) }
        fcount rTRC_STATUS fTRC_STATUS_LOST 1 s
    else s) s

/-- Whether the BIND records a command would add still fit the Col die's 4,096 (R338). -/
def bindRoom (s : State) (n : Nat) : Bool :=
  let taking := s.tRings.any (fun p => bitOf p.2.mask 1)
  !taking || decide ((s.trecs.filter (·.bind)).length + n ≤ 4096)

/-! ## Fault records (R189 to R192) -/

/-- The fields of a fault record (R191). -/
structure FaultInfo where
  kind : Nat
  t : Nat
  va : Nat := 0
  pa : Nat := 0
  access : Nat := 0
  source : Nat
  tenant : Nat := 0
  flags : Nat := 0
  unit : Nat
  handle : Nat := 0
  task : Nat := 0xFFFF
  core : Nat := 0xFFFF
  chunk : Nat := 0
  detail : Nat := 0
  origin : Nat := 0
  deriving DecidableEq, Repr

/-- The 64 bytes of a fault record with PHASE clear (R191). -/
def FaultInfo.bytes (f : FaultInfo) (fseq : Nat) : List Byte :=
  leFields [(8, fseq), (8, f.t), (8, f.va), (8, f.pa), (2, f.kind), (1, f.access), (1, f.source), (1, f.tenant),
    (1, f.flags), (1, f.unit), (1, 0), (2, f.handle), (2, f.task), (2, f.core), (2, f.chunk), (8, f.detail), (8, f.origin)]

/-- Makes a fault record: takes the next FSEQ, stores it if the store has room or counts it lost, and traces it. -/
def faultRec (f : FaultInfo) (s : State) : State :=
  let q := s.fseq
  let s := { s with fseq := q + 1 }
  let s := if s.frecs.length < 1024 then
      let toT := f.tenant != 0 && (Mp.find s.fRings f.tenant).isSome
      { s with frecs := s.frecs ++ [⟨f.bytes q, f.tenant, true, toT⟩] }
    else fcount rFLT_FREC_STATUS fFLT_FREC_STATUS_LOST 1 { s with recLost := true }
  trace 9 f.unit 3 f.tenant f.t (leFields [(8, q), (2, f.kind)]) s

/-- The FSEQ the next fault record takes. -/
def nextFseq (s : State) : Nat := s.fseq

/-! ## Fences and the safe state (R254, R255, R433) -/

/-- A die-link port stops: what it was sending and what has arrived in part are gone; whole packets received stay (R242, R255). -/
def jStop (n p : Nat) (s : State) : State :=
  { s with jports := Mp.upd {} s.jports (8 * n + p) (fun j => { j with rx := [], sendq := [], retry := [] }) }

/-- One unit stops at a fence's trigger (R254, R255 step 1); one already fenced stays as it is. Codes as `dieOf` takes them. -/
def fenceOne (cause : Nat) (s : State) (u : Nat) : State :=
  if (dieOf s u).st = 0 ∨ (dieOf s u).st = 3 then
    let s := setDie u { dieOf s u with st := 1, cause := cause } s
    if u < 12 then
      let p := u % 3
      let n := u / 3
      fset (rJXL_PORT_EVT n p) fJXL_PORT_EVT_FENCED 1 (fset (rJXL_PORT_EVT n p) fJXL_PORT_EVT_CAUSE cause
        (fset (rJXL_PORT_STATUS n p) fJXL_PORT_STATUS_STATE 5 (fset (rJXL_CD_STATUS u) fJXL_CD_STATUS_STATE 5 (jStop n p s))))
    else if 32 ≤ u ∧ u < 56 then fset (rMEM_STACK_STATUS ((u - 32) / 6) ((u - 32) % 6)) fMEM_STACK_STATUS_STATE 4 s
    else if 80 ≤ u then fset (rUCI_SITE_STATUS ((u - 80) / 4) ((u - 80) % 4)) fUCI_SITE_STATUS_STATE 5 s
    else s
  else s

/-- The dies, stacks and sites of a ridge. -/
def ridgeUnits (n : Nat) : List Nat :=
  (List.range 3).map (· + 3 * n) ++ (List.range 6).map (· + (32 + 6 * n)) ++ (List.range 4).map (· + (80 + 4 * n))

/-- The trigger of a fence; a base die takes its whole ridge with it (R255, R256). -/
def fenceStart (u : Nat) (cause : Nat) (s : State) : State :=
  if 16 ≤ u ∧ u < 20 then (ridgeUnits (u - 16)).foldl (fenceOne cause) (fenceOne cause s u) else fenceOne cause s u

def causeCode : FenceCause → Nat
  | .clock => 1
  | .retryExhausted => 2
  | .width => 3
  | .reset => 4
  | .fatal => 5
  | .ident => 6
  | .command => 7

/-- FAULT_N is low during the pulse of R435, while FLT_CTRL.PIN is 1, and while a base die is in its local safe state (R436). -/
def faultLow (s : State) : Bool :=
  s.pulse || fget s rFLT_CTRL fFLT_CTRL_PIN == 1 || s.dies.any (fun p => p.2.localSafe)

/-- Shows FAULT_N at the pin, unless the boundary register drives it (R470). -/
def showFault (s : State) : State := if s.test.tap = 3 then s else emit (.pin "FAULT_N" (!faultLow s)) s

/-- Entry into the safe state (R433, R435, R437): transmitters blanked, FAULT_N pulsed, the first cause kept. -/
def enterSafe (source : Nat) (s : State) : State :=
  let s := if fget s rFLT_SAFE_INFO fFLT_SAFE_INFO_VALID = 0 then
      regPut rFLT_SAFE_T (BitVec.ofNat 64 s.crest)
        (fset rFLT_SAFE_INFO fFLT_SAFE_INFO_VALID 1 (fset rFLT_SAFE_INFO fFLT_SAFE_INFO_SOURCE source s))
    else s
  let s := if isSafe s then s else
    (List.range (nSites s)).foldl (fun s k => emit (.sideband k 6 []) s) s
  showFault { fset rFLT_CTRL fFLT_CTRL_SAFE 1 s with pulse := true }

/-! ## Fault sources (R427 to R430) -/

/-- The level of a source: its two bits of FLT_SEV_LO_b or FLT_SEV_HI_b. -/
def srcLevel (s : State) (u b src : Nat) : Nat :=
  if src < 16 then fieldOf (regVal s (rFLT_SEV_LO u b)).toNat (2 * src) 2
  else fieldOf (regVal s (rFLT_SEV_HI u b)).toNat (2 * (src - 16)) 2

/-- Sets a source's level, no lower than its lowest. -/
def setLevel (u b src lvl : Nat) (s : State) : State :=
  match srcInfo u b src with
  | none => s
  | some (_, _, lowest) =>
    let a := if src < 16 then rFLT_SEV_LO u b else rFLT_SEV_HI u b
    regPut a (BitVec.ofNat 64 (withField (regVal s a).toNat (2 * (src % 16)) 2 (max lvl lowest))) s

/-- The 24-bit source code of R427. -/
def srcCode (u b src : Nat) : Nat := u * 65536 + b * 256 + src

/-- The die, stack or site that a FENCE reaction of a source fences (R428). -/
def fenceTarget (u b src : Nat) : Nat :=
  if 1 ≤ u ∧ u ≤ 4 then (if b = 1 ∧ src < 24 then 32 + 6 * (u - 1) + src / 4 else 15 + u)
  else if u < 20 then u - 8 else 80 + (u - 32)

/-- The ridge a unit of R8 stands on; none for the Col die. -/
def unitRidge (u : Nat) : Option Nat :=
  if u = 0 then none else if u ≤ 4 then some (u - 1) else if u ≤ 19 then some ((u - 8) / 3) else some ((u - 32) / 4)

/-- The block-event record of an occurrence (R430). -/
def blockEvent (u t core detail : Nat) (s : State) : State :=
  faultRec { kind := 0x20, t := t, source := 12, unit := unitDie u, core := core, detail := detail } s

/-- A unit reports a sticky event: at once over the main route, and otherwise when the Col die next reads the blocks of its
ridge over the Stolon line (R431). -/
def report (u t core detail : Nat) (s : State) : State :=
  match unitRidge u with
  | none => blockEvent u t core detail s
  | some n =>
    if fbit s rMGT_TOPOLOGY fMGT_TOPOLOGY_RIDGE_UP n then blockEvent u t core detail s
    else { s with unseen := s.unseen ++ [(u, t, core, detail)] }

/-- The Col die learns the sticky events of a ridge that it has not seen. -/
def readUnseen (n : Nat) (s : State) : State :=
  let mine := s.unseen.filter (fun e => unitRidge e.1 == some n)
  mine.foldl (fun s e => blockEvent e.1 e.2.1 e.2.2.1 e.2.2.2 s) { s with unseen := s.unseen.filter (fun e => unitRidge e.1 != some n) }

/-- An occurrence of a fault source (R428 to R430). `core` is the module-wide core of a per-core source, else 0xFFFF. -/
def occur (u b src core : Nat) (inj : Bool) (s : State) : State :=
  match srcInfo u b src with
  | none => s
  | some _ =>
    let st := rFLT_STATUS u b
    let was := fbit s st fFLT_STATUS_STICKY src
    let clear := fget s st fFLT_STATUS_STICKY == 0
    let lvl := srcLevel s u b src
    let now := stampAt s (unitDie u)
    let s := fcount (rFLT_COUNT u b) fFLT_COUNT_COUNT 1 (fsetBit st fFLT_STATUS_STICKY src true s)
    let s := if clear then
        regPut (rFLT_FIRST_T u b) (BitVec.ofNat 64 now)
          (fset (rFLT_FIRST u b) fFLT_FIRST_VALID 1 (fset (rFLT_FIRST u b) fFLT_FIRST_SRC src s))
      else s
    let s := if was || lvl == 0 then s else
      report u now core (srcCode u b src + lvl * 2 ^ 24 + b2n inj * 2 ^ 26) s
    if lvl = 2 then (if u = 0 then enterSafe (srcCode u b src) s else fenceStart (fenceTarget u b src) 5 s)
    else if lvl = 3 then enterSafe (srcCode u b src) s
    else s

/-- A source with no core of its own. -/
def occurs (u b src : Nat) (s : State) : State := occur u b src 0xFFFF false s

/-- An address fault of the device control space (R9): ADDR_FAULT of the Col die. -/
def addrFault (s : State) : State := occurs 0 1 0 s

/-- Units whose sticky bits include one at a level or above (R431, FLT_UNIT_PENDING). -/
def unitAtLevel (s : State) (u lvl : Nat) : Bool :=
  (List.range (blockCount u)).any fun b =>
    (List.range 32).any fun i => fbit s (rFLT_STATUS u b) fFLT_STATUS_STICKY i && decide (lvl ≤ srcLevel s u b i)

/-- SMB_ALERT_N is asserted (R431). -/
def alertLow (s : State) : Bool :=
  let l := fget s rFLT_CTRL fFLT_CTRL_ALERT_LEVEL
  l != 0 && (List.range 48).any (fun u => unitAtLevel s u l)

/-- A change of MGT_TOPOLOGY raises TOPOLOGY (R28, R432). -/
def topoSet (f : Fld) (i : Nat) (b : Bool) (s : State) : State :=
  if fbit s rMGT_TOPOLOGY f i = b then s
  else
    occurs 0 1 1 (fsetBit rMGT_TOPOLOGY f i b s)

/-! ## Cores and tasks -/

def coreOf (s : State) (c : Nat) : Core := Mp.get {} s.cores c
def setCore (c : Nat) (k : Core) (s : State) : State := { s with cores := Mp.put {} s.cores c k }
def updCore (c : Nat) (f : Core → Core) (s : State) : State := setCore c (f (coreOf s c)) s

/-- The register TSC_CORE_BIND of a module-wide core number (R7, R134). -/
def bindReg (c : Nat) : Nat := rTSC_CORE_BIND (c / 16) (c % 16)

def coreState (s : State) (c : Nat) : Nat := fget s (bindReg c) fTSC_CORE_BIND_STATE
def coreTenant (s : State) (c : Nat) : Nat := fget s (bindReg c) fTSC_CORE_BIND_TENANT

def graphOf (s : State) (h : Nat) : Option Graph := Mp.find s.graphs h
def setGraph (h : Nat) (g : Graph) (s : State) : State := { s with graphs := Mp.ins s.graphs h g }
def taskOf (s : State) (h t : Nat) : Option Task := (graphOf s h).bind (fun g => g.tasks[t]?)
def tenantOfGraph (s : State) (h : Nat) : Nat := ((graphOf s h).map (·.tenant)).getD 0

/-- Applies a function to a task of a resident graph. -/
def updTask (h t : Nat) (f : Task → Task) (s : State) : State :=
  match graphOf s h with
  | none => s
  | some g => setGraph h { g with tasks := modAt g.tasks t f } s

/-- The cores a task holds; the list names a core per rank, 0xFFFF for a rank that holds none. -/
def Task.held (t : Task) : List Nat := t.cores.filter (· != 0xFFFF)

/-- Fields of a task descriptor (R104). -/
def Task.kind (t : Task) : Nat := leAt t.desc 0 1
def Task.prio (t : Task) : Nat := leAt t.desc 1 1 % 8
def Task.nCores (t : Task) : Nat := leAt t.desc 2 2
def Task.affMode (t : Task) : Nat := leAt t.desc 4 1
def Task.affTarget (t : Task) : Nat := leAt t.desc 5 1
def Task.extentUnits (t : Task) : Nat := leAt t.desc 6 2
def Task.userTag (t : Task) : Nat := leAt t.desc 8 4
def Task.target (t : Task) : Nat := leAt t.desc 0x10 8
def Task.context (t : Task) : Nat := leAt t.desc 0x18 8
def Task.arg (t : Task) : Nat := leAt t.desc 0x20 8
def Task.argw (t : Task) (i : Nat) : Nat := leAt t.desc (0x40 + 8 * i) 8

/-- The state numbers of R118. -/
def tsPending : Nat := 0
def tsReady : Nat := 1
def tsRunning : Nat := 2
def tsPreempting : Nat := 3
def tsPreempted : Nat := 4
def tsFaultWait : Nat := 5
def tsHeld : Nat := 6
def tsFinal : Nat := 7

/-- The place of a core's task instance in DETAIL: rank in [63:48], PC in [47:0] (R130). -/
def rankPc (rank pc : Nat) : Nat := rank % 2 ^ 16 * 2 ^ 48 + pc % 2 ^ 48

/-- The six flags of every engine of a core as bits [5:0] of a record's FLAGS (R62). -/
def coreFlags (k : Core) : Nat :=
  (k.eng.foldl (fun a p => a ||| p.2.acsw) 0#32).toNat / 2 ^ 16 % 64

/-- The status codes of R130. -/
def stOK : Nat := 0
def stUserTrap : Nat := 1
def stIllegal : Nat := 2
def stMisaligned : Nat := 3
def stSheafBound : Nat := 4
def stSheafUncorrectable : Nat := 5
def stEventOverflow : Nat := 6
def stMemoryFault : Nat := 7
def stMemoryUncorrectable : Nat := 8
def stDmaError : Nat := 9
def stPathLost : Nat := 10
def stContextLost : Nat := 11
def stCancelled : Nat := 12
def stAborted : Nat := 13
def stUnbound : Nat := 14

/-- Cancels a core's transfers: their completion records say CANCELLED, their requests are abandoned (R123, R185). -/
def cancelTags (x : XferRef) (s : State) : State :=
  { s with tags := s.tags.map fun p => (p.1, p.2.map fun e => if e.use = .chunk x then { e with abandoned := true } else e) }

/-- The 64-byte completion record of a transfer (R186). -/
def xferRecord (x : Xfer) (check : Nat) (valid : Bool) : List Byte :=
  leFields [(1, x.st), (1, b2n valid), (2, x.status), (4, 0), (8, x.bytesDone), (8, check), (8, x.tEvent),
    (8, if x.st = 2 ∨ x.st = 6 then x.fseq else 0), (8, 0), (8, 0), (8, 0)]

/-- Writes bytes into a core's sheaf memory; a whole 64-bit word written clears an error mark on it. -/
def sheafPut (off : Nat) (bs : List Byte) (k : Core) : Core :=
  { k with sheaf := Mp.blit 0#8 k.sheaf off bs
           sheafErr := k.sheafErr.filter (fun p => !(decide (off ≤ 8 * p.1) && decide (8 * p.1 + 8 ≤ off + bs.length))) }

/-- Ends one of a core's transfers in a final state and writes its completion record into the sheaf (R185, R186). -/
def endXferRec (st status t : Nat) (x : Xfer) (k : Core) : Core :=
  sheafPut (x.addr + 0x40) (xferRecord { x with st := st, status := status, tEvent := t } x.reg false) k

/-- Stops a core as in an abort (R123): queues emptied, transfers cancelled with the given status, nothing saved. -/
def stopCore (c status : Nat) (s : State) : State :=
  let k := coreOf s c
  let t := stampAt s (c / 16)
  let k' := k.xfers.foldl (fun k x => if x.st < 5 then endXferRec 7 status t x k else k) k
  let s := (List.range 4).foldl (fun s i => cancelTags (.core c i) s) s
  setCore c { k' with ended := true, stop := true, queues := [], xfers := [], waited := false, sem := none } s

/-- Ends a task abnormally (R120): the first status stands, and every core of the task stops. The commit is TASK_COMMIT's. -/
def failTask (h t status detail : Nat) (s : State) : State :=
  match taskOf s h t with
  | none => s
  | some k =>
    if k.st = tsFinal ∨ k.endStatus.isSome then s
    else
      let s := updTask h t (fun k => { k with endStatus := some (status, detail) }) s
      k.held.foldl (fun s c => stopCore c stAborted s) s

/-- A core ends its task abnormally, reporting its rank and a PC (R130). -/
def coreFail (c status pc : Nat) (s : State) : State :=
  match (coreOf s c).task with
  | none => s
  | some (h, t, rank) => failTask h t status (rankPc rank pc) s

/-- One round of adding the WITH neighbours of a set of tasks (R109). -/
def gangGrow (es : List Edge) (ms : List Nat) : List Nat :=
  es.foldl (fun ms e =>
    if e.kind = 2 then
      if ms.contains e.succ && !ms.contains e.pred then ms ++ [e.pred]
      else if ms.contains e.pred && !ms.contains e.succ then ms ++ [e.succ]
      else ms
    else ms) ms

/-- The gang of a task: every task joined to it by a chain of WITH edges, the task first (R109). -/
def gangOf (g : Graph) (t : Nat) : List Nat :=
  iter (gangGrow g.edges) (g.edges.filter (fun e => e.kind == 2)).length [t]

/-- A running task and its gang are pre-empted for a cause (R109, R119): 0 host, 1 priority, 2 unbinding, 3 fault. -/
def preemptTask (h t cause : Nat) (s : State) : State :=
  match graphOf s h with
  | none => s
  | some g =>
    (gangOf g t).foldl (fun s m => updTask h m (fun k =>
      if k.st = tsRunning ∧ k.kind = 0 then { k with st := tsPreempting, causes := k.causes ||| 2 ^ cause }
      else if k.st = tsPreempting then { k with causes := k.causes ||| 2 ^ cause }
      else k) s) s

/-- Notes a fault against a task and pre-empts it for it (R193, R194). -/
def faultTask (h t tF fseq : Nat) (s : State) : State :=
  preemptTask h t 3 (updTask h t (fun k => { k with faults := k.faults ++ [(tF, fseq)] }) s)

end Sys2Proof.Machine
end

