-- ==== Sys2Proof/Machine/Memory.lean ====
section
/-! DEFINITION. Physical addresses, stacks and their codewords, and the ridge caches
(spec/05_memory_stacks_and_ridge_cache.md R140 to R163). -/

namespace Sys2Proof.Machine

/-- The outcome of a memory access: data, an uncorrectable codeword, or a unit that is fenced (R151, R255). -/
inductive MRes where
  | ok (bytes : List Byte)
  | uncorr (pa : Nat)
  | lost (unit pa : Nat)
  deriving DecidableEq, Repr

/-! ## Addresses (R141 to R144) -/

def paRidge (pa : Nat) : Nat := pa / 2 ^ 39
def paOffset (pa : Nat) : Nat := pa % 2 ^ 39
def paGranule (pa : Nat) : Nat := paOffset pa / 2 ^ 30
/-- The key of a granule in the module: ridge × 512 + granule, as BIND records name it (R337). -/
def granKey (n g : Nat) : Nat := n * 512 + g
def paKey (pa : Nat) : Nat := granKey (paRidge pa) (paGranule pa)

/-- A PA that R142 lets reach a stack. -/
def paValid (s : State) (pa : Nat) : Bool :=
  decide (pa < 2 ^ 41) && decide (paOffset pa < 0x6000000000) && ridgeServes s (paRidge pa)

/-- LINEAR interleave in force on a ridge (R143). -/
def linear (s : State) (n : Nat) : Bool := fget s (rMEM_RIDGE_CFG n) fMEM_RIDGE_CFG_INTERLEAVE == 1

/-- The stack of a PA within its ridge, and the address within the stack (R143). -/
def stackOf (s : State) (pa : Nat) : Nat × Nat :=
  let o := paOffset pa
  if linear s (paRidge pa) then (o / 2 ^ 36, o % 2 ^ 36)
  else ((o / 4096) % 6, (o / 4096) / 6 * 4096 + o % 4096)

/-- The granule record beside MEM_GATTR. -/
def granOf (s : State) (k : Nat) : Gran := Mp.get {} s.grans k
def setGran (k : Nat) (g : Gran) (s : State) : State := { s with grans := Mp.put {} s.grans k g }

/-- Whether a granule is bound to a tenant (R135). -/
def granBound (s : State) (n g t : Nat) : Bool :=
  fget s (rMEM_GATTR n g) fMEM_GATTR_BOUND == 1 && fget s (rMEM_GATTR n g) fMEM_GATTR_TENANT == t

/-- The cache policy of a PA's granule (R156): 0 WB, 1 STREAM, 2 BYPASS. -/
def policyOf (s : State) (pa : Nat) : Nat := fget s (rMEM_GATTR (paRidge pa) (paGranule pa)) fMEM_GATTR_POLICY
def borrowable (s : State) (pa : Nat) : Bool := fget s (rMEM_GATTR (paRidge pa) (paGranule pa)) fMEM_GATTR_BORROW == 1

/-- The state field of a stack of a ridge (MEM_STACK_STATUS.STATE). -/
def stackState (s : State) (n k : Nat) : Nat := fget s (rMEM_STACK_STATUS n k) fMEM_STACK_STATUS_STATE

/-! ## Codewords (R145 to R154) -/

/-- Reach protection in force on a ridge. -/
def reachMode (s : State) (n : Nat) : Bool := fget s (rMEM_RIDGE_CFG n) fMEM_RIDGE_CFG_PROT == 1

/-- The 2 MiB block of its granule a PA lies in. -/
def paBlock (pa : Nat) : Nat := paOffset pa % 2 ^ 30 / 2 ^ 21

/-- Whether a PA lies in a block its binding has not cleared yet (R136). -/
def uncleared (s : State) (pa : Nat) : Bool := (granOf s (paKey pa)).uncl.contains (paBlock pa)

/-- Zeroes a PA range in the stacks with fresh codewords (R136, R163). -/
def zeroRange (pa len : Nat) (s : State) : State :=
  { s with mem := s.mem.filter (fun p => !(decide (pa ≤ p.1) && decide (p.1 < pa + len)))
           cwErr := s.cwErr.filter (fun p => !(decide (pa ≤ 64 * p.1) && decide (64 * p.1 < pa + len))) }

/-- Clears the 2 MiB block of a PA that its binding had not cleared yet (R136). -/
def clearBlock (pa : Nat) (s : State) : State :=
  if uncleared s pa then
    let k := paKey pa
    let g := granOf s k
    zeroRange (pa / 2 ^ 21 * 2 ^ 21) (2 ^ 21) (setGran k { g with uncl := g.uncl.filter (· != paBlock pa) } s)
  else s

/-- Records a codeword error in MEM_ERR_ADDR_s (R149, R151). -/
def errAddr (n k pa src sym : Nat) (ue : Bool) (s : State) : State :=
  regPut (rMEM_ERR_ADDR n k) (BitVec.ofNat 64
    (b2n ue * 2 ^ 63 + src * 2 ^ 60 + sym * 2 ^ 56 + pa / 64 * 64)) s

/-- The 64 data bytes last encoded into the codeword of a PA. -/
def storedCw (s : State) (pa : Nat) : List Byte := Mp.slice 0#8 s.mem (pa / 64 * 64) 64

/-- The 72 symbols stored for the codeword of a PA (R145): the encoded data with the symbols in error. -/
def storedWord (s : State) (pa : Nat) : List Byte := rsErr (rsWord (storedCw s pa)) (Mp.get [] s.cwErr (pa / 64))

/-- Stores 64 bytes as a fresh codeword. -/
def freshCw (pa : Nat) (bs : List Byte) (s : State) : State :=
  { s with mem := Mp.blit 0#8 s.mem (pa / 64 * 64) bs, cwErr := Mp.del s.cwErr (pa / 64) }

/-- Puts a number of symbols in error at places and by differences that a free number picks. -/
def drawErrs : Nat → List Nat → Nat → Mp Byte → Mp Byte
  | 0, _, _, m => m
  | n + 1, l, v, m =>
    let i := v % max 1 l.length
    match l[i]? with
    | none => m
    | some p => drawErrs n (l.eraseIdx i) (v / max 1 l.length / 255) (Mp.upd 0#8 m p (· ^^^ BitVec.ofNat 8 (1 + v / max 1 l.length % 255)))

/-- An injected codeword error strikes the next codeword read from a stack (R442). -/
def strikeCw (n k pa : Nat) (s : State) : State :=
  let u := 1 + n
  match s.inj.find? (fun p => decide (p.1 / 65536 = u ∧ p.1 / 256 % 256 = 0xF0 ∧ p.1 % 16 = k)) with
  | none => s
  | some p =>
    nextFree { s with inj := Mp.upd 0 s.inj p.1 (· - 1)
                      cwErr := Mp.upd [] s.cwErr (pa / 64) (drawErrs (p.1 % 256 / 16) (List.range 72) (freeVal 1 s)) }

/-- Reads and decodes the codeword of a PA (R146 to R151) in the protection mode in force. `src` is the SOURCE of
MEM_ERR_ADDR_s. A pattern beyond certain detection that lies within the decoder's reach of another codeword is returned as
that one, as the code has it. -/
def readCw (pa src : Nat) (s : State) : MRes × State :=
  let n := paRidge pa
  let k := (stackOf s pa).1
  let stk := stackState s n k
  if stk = 4 ∨ stk = 5 then (.lost (32 + 6 * n + k) pa, s)
  else if uncleared s pa then (.ok (List.replicate 64 0#8), s)
  else
    let s := strikeCw n k pa s
    let lim := if reachMode s n then 4 else 2
    if Mp.get [] s.cwErr (pa / 64) = [] then (.ok (storedCw s pa), s)
    else match rsDecode lim (storedWord s pa) with
      | some errs =>
        let bs := (rsErr (storedWord s pa) errs).take 64
        if errs = [] then (.ok bs, s)
        else
          let s := freshCw pa bs s
          let s := fcount (rMEM_STACK_STATUS n k) fMEM_STACK_STATUS_CE_COUNT 1 (errAddr n k pa src errs.length false s)
          (.ok bs, if (lim + 2) / 2 ≤ errs.length then occurs (1 + n) 1 (4 * k + 1) s else s)
      | none =>
        let s := fset (rMEM_STACK_STATUS n k) fMEM_STACK_STATUS_UE 1 (errAddr n k pa src 0 true s)
        (.uncorr pa, occurs (1 + n) 1 (4 * k) s)

/-- The fault record of an uncorrectable codeword (R151): the detecting die is its stack. -/
def uncorrFault (pa source tenant va access handle task core origin : Nat) (s : State) : State :=
  faultRec { kind := 0x10, t := stampAt s (32 + 6 * paRidge pa + (stackOf s pa).1), va := va, pa := pa, access := access,
             source := source, tenant := tenant, unit := 32 + 6 * paRidge pa + (stackOf s pa).1, handle := handle,
             task := task, core := core, origin := origin } s

/-- Merges written bytes over old ones. -/
def mergeBytes (old new : List Byte) (mask : List Bool) : List Byte :=
  List.zipWith (fun (p : Byte × Byte) m => if m then p.2 else p.1) (old.zip new) mask

/-- What a stack does with bytes written into a codeword: it takes them, drops them (R152), or cannot be reached. -/
inductive CwRes where
  | taken
  | dropped
  | refused
  deriving DecidableEq, Repr

/-- Writes bytes into the codeword of a PA (R148, R152): whole, or merged; a merge that meets an uncorrectable codeword is
dropped and the codeword left as stored. -/
def writeCw (pa src : Nat) (bs : List Byte) (mask : List Bool) (s : State) : CwRes × State :=
  let n := paRidge pa
  let k := (stackOf s pa).1
  let stk := stackState s n k
  if stk = 4 ∨ stk = 5 then (.refused, s)
  else
    let s := clearBlock pa s
    if mask.all id then (.taken, freshCw pa bs s)
    else match readCw pa src s with
      | (.ok old, s) => (.taken, freshCw pa (mergeBytes old bs mask) s)
      | (.uncorr _, s) => (.dropped, s)
      | (.lost _ _, s) => (.refused, s)

/-- A write of a ridge cache into a stack: one that is dropped is recorded against the tenant whose write was lost (R152). -/
def cacheWrite (pa tenant : Nat) (bs : List Byte) (mask : List Bool) (s : State) : CwRes × State :=
  match writeCw pa 2 bs mask s with
  | (.dropped, s) => (.dropped, uncorrFault (pa / 64 * 64) 8 tenant 0 2 0 0xFFFF 0xFFFF 0 s)
  | r => r

/-! ## Ridge caches (R155 to R163) -/

def cacheOf (s : State) (n : Nat) : RCache := Mp.get {} s.caches n
def setCache (n : Nat) (r : RCache) (s : State) : State := { s with caches := Mp.put {} s.caches n r }

/-- The slice of a line (R155): an exclusive or of four PA fields. -/
def lineSlice (la : Nat) : Nat :=
  fieldOf la 0 5 ^^^ fieldOf la 5 5 ^^^ fieldOf la 10 5 ^^^ fieldOf la 15 5

/-- The set of a line address: its slice and PA[19:7] (R155). -/
def lineSet (la : Nat) : Nat := lineSlice la * 8192 + la % 8192

/-- Walks the tree pseudo-LRU bits down to a way among those allowed. Node 1 is the root; a node's bit set points right. -/
def plruPick (bits allowed : Nat) : Nat → Nat → Nat → Nat
  | 0, _, way => way
  | d + 1, node, way =>
    let half := 2 ^ d
    let l := fieldOf allowed way half
    let r := fieldOf allowed (way + half) half
    if (bitOf bits node && r != 0) || l == 0 then plruPick bits allowed d (2 * node + 1) (way + half)
    else plruPick bits allowed d (2 * node) way

/-- Points every node on the path to a way away from it, or towards it when `away` is false. -/
def plruTouch (away : Bool) (w : Nat) : Nat → Nat → Nat → Nat
  | 0, _, bits => bits
  | d + 1, node, bits =>
    let right := bitOf w d
    let bits := withField bits node 1 (b2n (right != away))
    plruTouch away w d (2 * node + b2n right) bits

/-- Marks a way of a line's set as just used, or, for STREAM, as the next victim (R155, R156). -/
def touchLine (n la way : Nat) (away : Bool) (s : State) : State :=
  let r := cacheOf s n
  setCache n { r with plru := Mp.upd 0 r.plru (lineSet la) (plruTouch away way 4 1) } s

/-- The dirty bytes of a sector as values and a mask; bytes never written are not in it. -/
def sectorBytes (l : Line) (hi : Bool) : List Byte × List Bool :=
  let d := if hi then l.data.drop 64 else l.data.take 64
  (d.map (fun b => b.getD 0#8), d.map Option.isSome)

/-- The fault record and source of a lost dirty line (R155, R160). -/
def lineLost (n la : Nat) (l : Line) (s : State) : State :=
  let bytes := (if l.dirty0 then ((l.data.take 64).filter Option.isSome).length else 0)
    + (if l.dirty1 then ((l.data.drop 64).filter Option.isSome).length else 0)
  let s := fset (rMEM_RC_CTRL n) fMEM_RC_CTRL_UE 1 s
  let s := faultRec { kind := 0x11, t := stampAt s (16 + n), pa := la * 128, source := 8, tenant := l.tenant,
                      unit := 16 + n, detail := bytes } s
  occurs (1 + n) 1 24 s

/-- A sector of a line after its write-back: clean where the stack took it or dropped it; dropped bytes are no longer held, so
that every later reader meets the codeword (R152). -/
def sectorAfter (hi : Bool) (r : CwRes) (l : Line) : Line :=
  match r with
  | .refused => l
  | .taken => if hi then { l with dirty1 := false } else { l with dirty0 := false }
  | .dropped =>
    let d := l.data.mapIdx (fun i b => if decide (64 ≤ i) = hi then none else b)
    if hi then { l with data := d, dirty1 := false } else { l with data := d, dirty0 := false }

/-- Writes a line's dirty sectors back. The Bool says no sector was refused. -/
def writeBack (la : Nat) (l : Line) (s : State) : Line × Bool × State :=
  let go (hi : Bool) (r : Line × Bool × State) : Line × Bool × State :=
    if (if hi then r.1.dirty1 else r.1.dirty0) then
      let p := sectorBytes r.1 hi
      let w := cacheWrite (la * 128 + 64 * b2n hi) l.tenant p.1 p.2 r.2.2
      (sectorAfter hi w.1 r.1, r.2.1 && w.1 != .refused, w.2)
    else r
  go true (go false (l, true, s))

def lineOf (s : State) (n la : Nat) : Option Line := Mp.find (cacheOf s n).lines la
def putLine (n la : Nat) (l : Line) (s : State) : State :=
  setCache n { cacheOf s n with lines := Mp.ins (cacheOf s n).lines la l } s
def dropLine (n la : Nat) (s : State) : State :=
  setCache n { cacheOf s n with lines := Mp.del (cacheOf s n).lines la } s

/-- Evicts a line: its dirty sectors are written back, and what cannot be is lost (R155, R160). -/
def evict (n la : Nat) (s : State) : State :=
  match lineOf s n la with
  | none => s
  | some l =>
    let (l', ok, s) := writeBack la l s
    dropLine n la (if ok then s else lineLost n la l' s)

/-- The ways a tenant's line may take (R158, R159). -/
def allowedWays (s : State) (n tenant : Nat) (borrowed : Bool) : Nat :=
  let m := fget s (rMEM_RC_WAYS n tenant) fMEM_RC_WAYS_WAYMASK
  if borrowed then
    let b := fget s (rMEM_RC_CTRL n) fMEM_RC_CTRL_BORROW_WAYS
    m &&& ((2 ^ b - 1) * 2 ^ (16 - b))
  else m

/-- Makes room for a line and lists it empty; none if its tenant may take no way (R155, R159). -/
def allocLine (n la tenant : Nat) (borrowed stream : Bool) (s : State) : Option State :=
  let allowed := allowedWays s n tenant borrowed
  if allowed = 0 then none
  else
    let here := (cacheOf s n).lines.filter (fun p => lineSet p.1 == lineSet la)
    let free := (List.range 16).filter (fun w => bitOf allowed w && !here.any (fun p => p.2.way == w))
    let way := match free with
      | w :: _ => w
      | [] => plruPick (Mp.get 0 (cacheOf s n).plru (lineSet la)) allowed 4 1 0
    let s := match here.find? (fun p => p.2.way == way) with
      | some p => evict n p.1 s
      | none => s
    let l : Line := ⟨List.replicate 128 none, false, false, tenant, way, borrowed, false⟩
    some (touchLine n la way (!stream) (putLine n la l s))

/-- A line met with a tag or data error: a clean one is dropped and fetched again, a dirty one is lost (R155). -/
def checkLine (n la : Nat) (s : State) : State :=
  match lineOf s n la with
  | some l => if l.bad then dropLine n la (if l.dirty0 || l.dirty1 then lineLost n la l s else s) else s
  | none => s

/-- Places bytes into a line at an offset and marks them valid. -/
def lineFill (l : Line) (off : Nat) (bs : List Byte) (mask : List Bool) : Line :=
  { l with data := l.data.mapIdx fun i b =>
      if off ≤ i ∧ i < off + bs.length ∧ (mask[i - off]?).getD true then bs[i - off]? else b }

/-- Marks a dirty line of a ridge cache, picked by a free value, as met with a tag or data error, and acts on it (R155): what an
occurrence of LINE_LOST stands for. Without a dirty line the source alone occurs. -/
def strikeLine (n : Nat) (s : State) : State :=
  let l := (cacheOf s n).lines.filter (fun p => p.2.dirty0 || p.2.dirty1)
  match l[freeVal 61 s % max 1 l.length]? with
  | none => occurs (1 + n) 1 24 s
  | some p => checkLine n p.1 (putLine n p.1 { p.2 with bad := true } (nextFree s))

/-- Whether a tenant's accesses behave as BYPASS in a ridge cache: the granule's policy, or an empty way mask (R156, R159). -/
def bypasses (s : State) (tenant pa : Nat) : Bool :=
  policyOf s pa == 2 || fget s (rMEM_RC_WAYS (paRidge pa) tenant) fMEM_RC_WAYS_WAYMASK == 0

/-- Bytes of a line's sector from `lo` on, `k` of them. -/
def lineBytes (l : Line) (off lo k : Nat) : List (Option Byte) := (((l.data.drop off).take 64).drop lo).take k

/-- Reads bytes `lo` to `lo + k − 1` of one 64-byte sector through the ridge cache that owns it (R140, R155, R156): the sector
comes back whole, with zeros for bytes not asked for that are not valid. A sector whose bytes asked for are not all valid is
filled. -/
def ownRead (tenant pa lo k : Nat) (s : State) : MRes × State :=
  let n := paRidge pa
  let la := pa / 128
  let off := pa / 64 * 64 % 128
  let s := checkLine n la s
  let pol := policyOf s pa
  let take (l : Line) : List Byte := (lineBytes l off 0 64).map (fun b => b.getD 0#8)
  match lineOf s n la with
  | some l =>
    if (lineBytes l off lo k).all Option.isSome then (.ok (take l), touchLine n la l.way (pol != 1) s)
    else (match readCw pa 0 s with
      | (.ok bs, s) =>
        let l' := { l with data := l.data.mapIdx fun i b =>
          if off ≤ i ∧ i < off + 64 ∧ b.isNone then bs[i - off]? else b }
        (.ok (take l'), putLine n la l' (touchLine n la l.way (pol != 1) s))
      | r => r)
  | none =>
    match readCw pa 0 s with
    | (.ok bs, s) =>
      if bypasses s tenant pa then (.ok bs, s)
      else (match allocLine n la tenant false (pol == 1) s with
        | none => (.ok bs, s)
        | some s =>
          match lineOf s n la with
          | some l => (.ok bs, putLine n la (lineFill l off bs []) s)
          | none => (.ok bs, s))
    | r => r

/-- Writes bytes of one sector through the ridge cache that owns it (R140, R155, R156, R159). False: completed with error. -/
def ownWrite (tenant pa : Nat) (bs : List Byte) (mask : List Bool) (s : State) : Bool × State :=
  let n := paRidge pa
  let la := pa / 128
  let hi := decide (64 ≤ pa % 128)
  let off := pa / 64 * 64 % 128
  let s := checkLine n la s
  let pol := policyOf s pa
  let through (s : State) : CwRes × State := cacheWrite pa tenant bs mask s
  let mark (l : Line) : Line :=
    let l := { lineFill l off bs mask with tenant := tenant }
    if hi then { l with dirty1 := true } else { l with dirty0 := true }
  match lineOf s n la with
  | some l =>
    if bypasses s tenant pa then
      (match through s with
      | (.taken, s) => (true, putLine n la (lineFill l off bs mask) s)
      | (.dropped, s) => (true, s)
      | (.refused, s) => (false, s))
    else (true, putLine n la (mark l) (touchLine n la l.way (pol != 1) s))
  | none =>
    if bypasses s tenant pa then ((through s).1 != .refused, (through s).2)
    else (match allocLine n la tenant false (pol == 1) s with
      | none => ((through s).1 != .refused, (through s).2)
      | some s =>
        match lineOf s n la with
        | some l => (true, putLine n la (mark l) s)
        | none => (true, s))

/-- Whether the stack of a PA waits for STACK_REJOIN: every access to it completes as PATH_LOST, whatever a ridge cache holds of
it (R257). -/
def awaitsRejoin (s : State) (pa : Nat) : Bool := stackState s (paRidge pa) (stackOf s pa).1 == 5

/-- Reads at the ridge cache that owns a sector, for a requester in a ridge (R22, R23): a ridge that no way leads to completes
the request with error. -/
def farRead (ridge tenant pa lo k : Nat) (s : State) : MRes × State :=
  if !reaches s ridge (paRidge pa) pa then (.lost (16 + paRidge pa) pa, s)
  else if awaitsRejoin s pa then (.lost (32 + 6 * paRidge pa + (stackOf s pa).1) pa, s)
  else ownRead tenant pa lo k s

/-- Reads bytes of one sector for a requester in a ridge: from its own ridge's borrowed copy where it has one (R158). -/
def sectorRead (ridge tenant pa lo k : Nat) (s : State) : MRes × State :=
  let n := paRidge pa
  let la := pa / 128
  let off := pa / 64 * 64 % 128
  if ridge = n ∨ !borrowable s pa ∨ awaitsRejoin s pa then farRead ridge tenant pa lo k s
  else
    let have? := match lineOf s ridge la with
      | some l => if l.borrowed && (lineBytes l off lo k).all Option.isSome then some l else none
      | none => none
    match have? with
    | some l => (.ok ((lineBytes l off 0 64).map (fun b => b.getD 0#8)), touchLine ridge la l.way true s)
    | none =>
      match farRead ridge tenant pa lo k s with
      | (.ok bs, s) =>
        let mask := match lineOf s n la with
          | some l => (lineBytes l off 0 64).map Option.isSome
          | none => List.replicate 64 true
        let s' := if (lineOf s ridge la).isSome then some s else allocLine ridge la tenant true false s
        (match s' with
        | none => (.ok bs, s)
        | some s =>
          match lineOf s ridge la with
          | some l => (.ok bs, putLine ridge la (lineFill l off bs mask) s)
          | none => (.ok bs, s))
      | r => r

/-- Writes bytes of one sector for a requester in a ridge; its own borrowed copy is updated (R158). -/
def sectorWrite (ridge tenant pa : Nat) (bs : List Byte) (mask : List Bool) (s : State) : Bool × State :=
  if !reaches s ridge (paRidge pa) pa ∨ awaitsRejoin s pa then (false, s)
  else
    let (ok, s) := ownWrite tenant pa bs mask s
    if ridge ≠ paRidge pa ∧ ok then
      match lineOf s ridge (pa / 128) with
      | some l => if l.borrowed then (ok, putLine ridge (pa / 128) (lineFill l (pa / 64 * 64 % 128) bs mask) s) else (ok, s)
      | none => (ok, s)
    else (ok, s)

/-- The unit that keeps a request to a PA from completing: the ridge's base die where no way leads there, else the stack. -/
def lostUnit (s : State) (ridge pa : Nat) : Nat :=
  if reaches s ridge (paRidge pa) pa then 32 + 6 * paRidge pa + (stackOf s pa).1 else 16 + paRidge pa

/-- The sectors a byte range touches: first byte of each, the start within it, and how many bytes. -/
def sectors : Nat → Nat → Nat → List (Nat × Nat × Nat)
  | 0, _, _ => []
  | f + 1, pa, len =>
    if len = 0 then []
    else
      let k := min len (64 - pa % 64)
      (pa / 64 * 64, pa % 64, k) :: sectors f (pa + k) (len - k)

def sectorsOf (pa len : Nat) : List (Nat × Nat × Nat) := sectors (len / 64 + 2) pa len

/-- Reads a physical range for a requester in a ridge (R140). -/
def memRead (ridge tenant pa len : Nat) (s : State) : MRes × State :=
  (sectorsOf pa len).foldl (fun r p => match r with
    | (.ok acc, s) => match sectorRead ridge tenant p.1 p.2.1 p.2.2 s with
      | (.ok bs, s) => (.ok (acc ++ (bs.drop p.2.1).take p.2.2), s)
      | e => e
    | e => e) (.ok [], s)

/-- Reads a physical range at its owning ridge cache only, whatever copies the requester's ridge has borrowed (R176). -/
def ownerRead (ridge tenant pa len : Nat) (s : State) : MRes × State :=
  (sectorsOf pa len).foldl (fun r p => match r with
    | (.ok acc, s) => match farRead ridge tenant p.1 p.2.1 p.2.2 s with
      | (.ok bs, s) => (.ok (acc ++ (bs.drop p.2.1).take p.2.2), s)
      | e => e
    | e => e) (.ok [], s)

/-- Writes a physical range for a requester in a ridge (R140). On error, bytes below the failing sector are written. -/
def memWrite (ridge tenant pa : Nat) (bytes : List Byte) (s : State) : MRes × State :=
  (sectorsOf pa bytes.length).foldl (fun r p => match r with
    | (.ok done, s) =>
      let bs := (bytes.drop done.length).take p.2.2
      let whole := List.replicate p.2.1 0#8 ++ bs ++ List.replicate (64 - p.2.1 - p.2.2) 0#8
      let mask := List.replicate p.2.1 false ++ List.replicate p.2.2 true ++ List.replicate (64 - p.2.1 - p.2.2) false
      match sectorWrite ridge tenant p.1 whole mask s with
      | (true, s) => (.ok (done ++ bs), s)
      | (false, s) => (.lost (lostUnit s ridge p.1) p.1, s)
    | e => e) (.ok [], s)

/-- Flushes one line in its owning ridge cache and drops the requester's borrowed copy (R160). False: not accepted. -/
def flushLine (ridge la : Nat) (s : State) : Bool × State :=
  let n := paRidge (la * 128)
  let s := if ridge ≠ n then (match lineOf s ridge la with
      | some l => if l.borrowed then dropLine ridge la s else s
      | none => s) else s
  let s := checkLine n la s
  match lineOf s n la with
  | none => (true, s)
  | some l =>
    let (l', ok, s) := writeBack la l s
    (ok, putLine n la l' s)

/-- Drops every line of a PA range from every ridge cache without writing it back (R163). -/
def dropRange (pa len : Nat) (s : State) : State :=
  { s with caches := s.caches.map fun p =>
      (p.1, { p.2 with lines := p.2.lines.filter (fun l => !(decide (pa ≤ l.1 * 128) && decide (l.1 * 128 < pa + len))) }) }

/-- Drops the borrowed copies of a PA range from one ridge cache, or from all (R158, R161). -/
def dropBorrowed (ridge : Option Nat) (pa len : Nat) (s : State) : State :=
  { s with caches := s.caches.map fun p =>
      if ridge = none ∨ ridge = some p.1 then
        (p.1, { p.2 with lines := p.2.lines.filter (fun l =>
          !(l.2.borrowed && decide (pa / 128 ≤ l.1) && decide (l.1 * 128 < pa + len))) })
      else p }

/-- The addresses of the lines an owning cache holds of a PA range. -/
def linesIn (s : State) (n pa len : Nat) : List Nat :=
  ((cacheOf s n).lines.filter (fun l => !l.2.borrowed && decide (pa / 128 ≤ l.1) && decide (l.1 * 128 < pa + len))).map (·.1)

/-- The UNIT code of the stack a PA lies in (R191). -/
def stackUnit (s : State) (pa : Nat) : Nat := 32 + 6 * paRidge pa + (stackOf s pa).1

/-- Writes back every dirty line of a PA range in its owning cache, keeping lines, and drops the requester's borrowed
copies (R160, R162); the first part is the PA of the first dirty sector that no stack accepted. -/
def flushRange (ridge pa len : Nat) (s : State) : Option Nat × State :=
  if len = 0 then (none, s)
  else if !reaches s ridge (paRidge pa) pa then (some pa, dropBorrowed (some ridge) pa len s)
  else
    (linesIn s (paRidge pa) pa len).foldl (fun r la =>
      let q := flushLine ridge la r.2
      let bad := match lineOf q.2 (paRidge pa) la with
        | some l => la * 128 + (if l.dirty0 then 0 else 64)
        | none => la * 128
      (if q.1 then r.1 else (match r.1 with
        | some u => some u
        | none => some bad), q.2)) (none, if ridge = paRidge pa then s else dropBorrowed (some ridge) pa len s)

/-- Writes back and drops a granule's lines everywhere at an unbinding (R136); what no stack accepts is lost. -/
def evictRange (pa len : Nat) (s : State) : State :=
  dropRange pa len ((linesIn s (paRidge pa) pa len).foldl (fun s la => evict (paRidge pa) la s) s)

end Sys2Proof.Machine
end

