-- ==== Sys2Proof/Machine/Tags.lean ====
section
/-! DEFINITION. The tags of outstanding transactions: the pool of each ridge, who may draw one more, and its registers
(spec/06_translation_dma_and_faults.md R179, R180). -/

namespace Sys2Proof.Machine

def tagsOf (s : State) (n : Nat) : List TagEnt := Mp.get [] s.tags n

/-- Tenant 0 has 64 tags of its own, the fabric responder 960; the other 15,360 are shared. -/
def isResponder : Requester → Bool
  | .responder _ => true
  | _ => false

/-- The most tags a requester may hold. -/
def rqLimit : Requester → Nat
  | .core _ | .coreDma _ => 128
  | .ridgeDma _ => 8192
  | .near _ => 1024
  | .coll _ => 8192
  | .responder _ => 960
  | _ => 16384

/-- Requesters that share one limit: a core and its DMA unit. -/
def rqSame (a b : Requester) : Bool :=
  match a, b with
  | .core x, .coreDma y => x == y
  | .coreDma x, .core y => x == y
  | x, y => x == y

/-- The shared tags in use on a ridge, tenant 0's use counting first against its reserve. -/
def sharedUse (l : List TagEnt) : Nat :=
  let shared := l.filter (fun e => !isResponder e.rq)
  let own := (shared.filter (fun e => e.tenant == 0)).length
  shared.length - min own 64

/-- Whether a requester may draw one more tag from a ridge's pool. -/
def tagFree (s : State) (n : Nat) (rq : Requester) (tenant : Nat) : Bool :=
  let l := tagsOf s n
  decide ((l.filter (fun e => rqSame e.rq rq)).length < rqLimit rq) &&
  (isResponder rq ||
    (let mine := (l.filter (fun e => e.tenant == tenant && !isResponder e.rq)).length
     if tenant = 0 ∧ mine < 64 then true
     else decide (sharedUse l < 15360)
       && decide ((if tenant = 0 then mine - 64 else mine) < fget s (rDMA_TENANT_TAGS n tenant) fDMA_TENANT_TAGS_LIMIT)))

/-- The lowest tag number free in a list of those in use, which is in rising order. -/
def lowestFree : Nat → List Nat → Nat
  | t, [] => t
  | t, x :: r => if x = t then lowestFree (t + 1) r else if x < t then lowestFree t r else t

/-- Brings the registers of a ridge's pool up to date (R180). -/
def tagRegs (n tenant : Nat) (s : State) : State :=
  let l := tagsOf s n
  let s := fset (rDMA_TAGS n) fDMA_TAGS_IN_USE l.length s
  let s := if fget s (rDMA_TAGS n) fDMA_TAGS_PEAK < l.length then fset (rDMA_TAGS n) fDMA_TAGS_PEAK l.length s else s
  fset (rDMA_TENANT_TAGS n tenant) fDMA_TENANT_TAGS_IN_USE ((l.filter (fun e => e.tenant == tenant)).length) s

/-- Takes a tag; the entry's own tag and REQ_ID are given here. -/
def takeTag (n : Nat) (e : TagEnt) (s : State) : TagEnt × State :=
  let t := lowestFree 0 (((tagsOf s n).map (·.tag)).mergeSort (· ≤ ·))
  let e := { e with tag := t, reqId := s.reqSeq % 2 ^ 32 }
  (e, tagRegs n e.tenant { s with tags := Mp.put [] s.tags n (tagsOf s n ++ [e]), reqSeq := s.reqSeq + 1 })

/-- Gives a tag back. -/
def freeTag (n tag : Nat) (s : State) : State :=
  match (tagsOf s n).find? (fun e => e.tag == tag) with
  | none => s
  | some e => tagRegs n e.tenant { s with tags := Mp.put [] s.tags n ((tagsOf s n).filter (fun x => x.tag != tag)) }

/-- One transaction of a requester that is issued and answered at once holds a tag meanwhile (R179, R180): none if it has to
wait for one; PEAK counts it. -/
def tagPass (n : Nat) (rq : Requester) (tenant : Nat) (s : State) : Option State :=
  if tagFree s n rq tenant then
    some (if fget s (rDMA_TAGS n) fDMA_TAGS_PEAK < (tagsOf s n).length + 1 then
      fset (rDMA_TAGS n) fDMA_TAGS_PEAK ((tagsOf s n).length + 1) s else s)
  else none

end Sys2Proof.Machine
end

