-- ==== Sys2Proof/Machine/Translate.lean ====
section
/-! DEFINITION. Address translation: TLBs, table walks, permission and binding checks, and access by virtual address
(spec/06_translation_dma_and_faults.md R173 to R178, R190, R191). -/

namespace Sys2Proof.Machine

/-- The outcome of a translation: a PA, a wait for a binding change under way (R200), or a fault of R190 with the level,
DETAIL, PA and detecting die of its record, or a table whose ridge a fence has taken (R190, R255). -/
inductive TRes where
  | ok (pa : Nat)
  | wait
  | lost (unit pa : Nat)
  | fault (kind level detail pa unit : Nat)
  deriving DecidableEq, Repr

/-- The ridge whose base die translates for a requester. -/
def rqRidge : Requester → Nat
  | .core c | .coreDma c | .save c | .restore c => c / 48
  | .ridgeDma n | .near n | .coll n | .responder n | .recordWrite n => n
  | .admission | .melhal => 0

/-- The SOURCE code of R191. -/
def rqSource : Requester → Nat
  | .core _ => 0
  | .coreDma _ => 1
  | .ridgeDma _ => 2
  | .near _ => 3
  | .coll _ => 4
  | .save _ => 5
  | .restore _ => 6
  | .responder _ => 7
  | .admission => 9
  | .melhal => 10
  | .recordWrite _ => 13

/-- The core of a requester, 0xFFFF for the others. -/
def rqCore : Requester → Nat
  | .core c | .coreDma c | .save c | .restore c => c
  | _ => 0xFFFF

/-- The TLB of a requester: a core's own for cores, else the base die's shared one (R177). Base dies are 192 + n. -/
def rqTlb (rq : Requester) : Nat := if rqCore rq = 0xFFFF then 192 + rqRidge rq else rqCore rq

/-- The ACCESS byte of R191; RFLUSH and RINV are reported as reads (log entry 20). -/
def accCode (a : Access) : Nat :=
  (match a.kind with
    | .read => 1
    | .write => 2
    | .fetch => 4
    | .atomic => 11
    | .flush => 1) + 16 * b2n a.remote

/-- Whether a leaf's permission bits allow an access (R175). -/
def leafAllows (leaf : Nat) (a : Access) : Bool :=
  (match a.kind with
    | .read => bitOf leaf 2
    | .write => bitOf leaf 3
    | .fetch => bitOf leaf 4
    | .atomic => bitOf leaf 2 && bitOf leaf 3
    | .flush => bitOf leaf 2 || bitOf leaf 3) && (!a.remote || bitOf leaf 5)

/-- The page size of a leaf at a level (R174). -/
def levelSize (level : Nat) : Nat := if level = 1 then 2 ^ 30 else if level = 2 then 2 ^ 21 else 2 ^ 16

/-- The index of a VA at a level (R174). -/
def levelIndex (level va : Nat) : Nat :=
  if level = 0 then fieldOf va 39 9 else if level = 1 then fieldOf va 30 9
  else if level = 2 then fieldOf va 21 9 else fieldOf va 16 5

/-- Whether a valid entry breaks R175 at its level. -/
def malformed (level e : Nat) : Bool :=
  let leaf := bitOf e 1
  fieldOf e 41 15 != 0 || fieldOf e 6 2 != 0 || (level == 0 && leaf) || (level == 3 && !leaf)
    || (if leaf then fieldOf e 8 33 * 256 % levelSize level != 0
        else fieldOf e 2 4 != 0 || (level != 2 && fieldOf e 8 4 != 0))

/-- The PA an entry holds (ADDR). -/
def entryPa (e : Nat) : Nat := fieldOf e 8 33 * 256

/-- What a walk of the tables finds: a leaf and its level, a fault kind with its level and DETAIL, or a table that a fence has
taken. -/
inductive WRes where
  | leaf (level e : Nat)
  | fault (kind level detail : Nat)
  | lost (unit pa : Nat)
  deriving DecidableEq, Repr

/-- One table entry as it is read. -/
inductive EntRes where
  | ok (e : Nat)
  | bad
  | lost (unit pa : Nat)
  deriving DecidableEq, Repr

/-- One table entry, read for a requester through the ridge cache that owns it with tenant 0's way mask (R140, R176): an
uncorrectable one is recorded as such (R151), beside the fault of kind TABLE that it raises. -/
def readEntry (rq : Requester) (pa : Nat) (s : State) : EntRes × State :=
  if paValid s pa ∧ granBound s (paRidge pa) (paGranule pa) 0 then
    match ownerRead (rqRidge rq) 0 pa 8 s with
    | (.ok bs, s) => (.ok (leNat bs), s)
    | (.uncorr p, s) => (.bad, uncorrFault p (rqSource rq) 0 0 1 0 0xFFFF (rqCore rq) 0 s)
    | (.lost u p, s) => (.lost u p, s)
  else if decide (pa < 2 ^ 41) && decide (paOffset pa < 0x6000000000) && decide (paRidge pa < nRidges s)
      && granBound s (paRidge pa) (paGranule pa) 0 then (.lost (16 + paRidge pa) pa, s)
  else (.bad, s)

/-- Walks from a level down (R174 to R176). -/
def walkFrom (rq : Requester) (va : Nat) : Nat → Nat → Nat → State → WRes × State
  | 0, level, _, s => (.fault 3 level 0, s)
  | f + 1, level, table, s =>
    match readEntry rq (table + 8 * levelIndex level va) s with
    | (.bad, s) => (.fault 6 level 0, s)
    | (.lost u p, s) => (.lost u p, s)
    | (.ok e, s) =>
      if !bitOf e 0 then (.fault 1 level 0, s)
      else if malformed level e then (.fault 3 level e, s)
      else if bitOf e 1 then (.leaf level e, s)
      else walkFrom rq va f (level + 1) (entryPa e) s

/-- Finds the leaf that maps a VA of a tenant (R173 to R176). -/
def walk (rq : Requester) (tenant va : Nat) (s : State) : WRes × State :=
  let root := rMMU_ROOT tenant
  if 2 ^ 48 ≤ va then (.fault 1 0 0, s)
  else if fget s root fMMU_ROOT_EN = 0 then (.fault 1 0 0, s)
  else walkFrom rq va 4 0 (fget s root fMMU_ROOT_ROOT * 4096) s

def tlbOf (s : State) (u : Nat) : List TlbEnt := Mp.get [] s.tlbs u

/-- Lists a translation in a TLB; a full one gives up an entry the manual does not name (a free value). -/
def tlbAdd (u : Nat) (e : TlbEnt) (s : State) : State :=
  let l := (tlbOf s u).filter (fun x => !(x.tenant == e.tenant && x.va == e.va && x.size == e.size))
  let cap := if u < 192 then 512 else 16384
  if l.length < cap then { s with tlbs := Mp.put [] s.tlbs u (e :: l) }
  else nextFree { s with tlbs := Mp.put [] s.tlbs u (e :: l.eraseIdx (freeVal 4 s % l.length)) }

/-- The entry of a TLB that holds a VA of a tenant. -/
def tlbFind (s : State) (u tenant va : Nat) : Option TlbEnt :=
  (tlbOf s u).find? (fun e => e.tenant == tenant && decide (e.va ≤ va) && decide (va < e.va + e.size))

/-- The permission, address and binding check of a leaf (R135, R142, R175, R177). -/
def checkLeaf (unit tenant va leaf level size : Nat) (a : Access) (s : State) : TRes :=
  let pa := entryPa leaf + va % size
  if !leafAllows leaf a then .fault 2 level leaf 0 unit
  else if !paValid s pa then .fault 5 level 0 pa unit
  else if (granOf s (paKey pa)).pend ≠ [] then .wait
  else if granBound s (paRidge pa) (paGranule pa) tenant then .ok pa
  else .fault 4 level (granOf s (paKey pa)).tBind pa unit

/-- The level whose leaves have a size. -/
def sizeLevel (size : Nat) : Nat := if size = 2 ^ 30 then 1 else if size = 2 ^ 21 then 2 else 3

/-- Translates one VA for a requester: its TLBs, then a walk (R177). -/
def translate (rq : Requester) (tenant va : Nat) (a : Access) (s : State) : TRes × State :=
  let u := rqTlb rq
  let b := 192 + rqRidge rq
  let bd := 16 + rqRidge rq
  match tlbFind s u tenant va with
  | some e => (checkLeaf (if u < 192 then u / 16 else bd) tenant va e.leaf (sizeLevel e.size) e.size a s, s)
  | none =>
    match tlbFind s b tenant va with
    | some e => (checkLeaf bd tenant va e.leaf (sizeLevel e.size) e.size a s, tlbAdd u e s)
    | none =>
      match walk rq tenant va s with
      | (.fault k l d, s) => (.fault k l d 0 bd, s)
      | (.lost u p, s) => (.lost u p, s)
      | (.leaf l e, s) =>
        let size := levelSize l
        let ent : TlbEnt := ⟨tenant, va / size * size, size, e⟩
        let s := tlbAdd b ent s
        let s := if u = b then s else tlbAdd u ent s
        (checkLeaf bd tenant va e l size a s, s)

/-- The record of a translation fault (R191), FLAGS.PARKED as given. -/
def transFault (rq : Requester) (tenant va : Nat) (a : Access) (kind level detail pa unit : Nat) (parked : Bool)
    (handle task chunk origin : Nat) (s : State) : State :=
  faultRec { kind := kind, t := stampAt s unit, va := va, pa := pa, access := accCode a, source := rqSource rq,
             tenant := tenant, flags := b2n parked + 2 + 4 * level, unit := unit, handle := handle, task := task,
             core := rqCore rq, chunk := chunk % 65536, detail := detail, origin := origin } s

/-- The pieces of a VA range that lie in one 64 KiB page each. -/
def vaPieces : Nat → Nat → Nat → List (Nat × Nat)
  | 0, _, _ => []
  | f + 1, va, len =>
    if len = 0 then []
    else
      let k := min len (65536 - va % 65536)
      (va, k) :: vaPieces f ((va + k) % 2 ^ 64) (len - k)

def piecesOf (va len : Nat) : List (Nat × Nat) := vaPieces (len / 65536 + 2) va len

/-- Translates every page of a range: its PA pieces, or the first fault with its VA. -/
def translateRange (rq : Requester) (tenant va len : Nat) (a : Access) (s : State) :
    (List (Nat × Nat) ⊕ (Nat × TRes)) × State :=
  (piecesOf va len).foldl (fun r p => match r.1 with
    | .inr _ => r
    | .inl acc => match translate rq tenant p.1 a r.2 with
      | (.ok pa, s) => (.inl (acc ++ [(pa, p.2)]), s)
      | (e, s) => (.inr (p.1, e), s)) (.inl [], s)

/-- What an access by virtual address comes to. -/
inductive VRes where
  | ok (bytes : List Byte)
  | wait
  | fault (va kind level detail pa unit : Nat)
  | uncorr (va pa : Nat)
  | lost (unit pa : Nat)
  deriving DecidableEq, Repr

/-- The ridge cache a requester's accesses go through first (R158). -/
def readPieces (ridge tenant va : Nat) (ps : List (Nat × Nat)) (s : State) : VRes × State :=
  ps.foldl (fun r p => match r with
    | (.ok acc, s) => match memRead ridge tenant p.1 p.2 s with
      | (.ok bs, s) => (.ok (acc ++ bs), s)
      | (.uncorr pa, s) => (.uncorr ((va + acc.length) % 2 ^ 64) pa, s)
      | (.lost u pa, s) => (.lost u pa, s)
    | e => e) (.ok [], s)

def writePieces (ridge tenant va : Nat) (ps : List (Nat × Nat)) (bytes : List Byte) (s : State) : VRes × State :=
  ps.foldl (fun r p => match r with
    | (.ok done, s) =>
      let bs := (bytes.drop done.length).take p.2
      match memWrite ridge tenant p.1 bs s with
      | (.ok _, s) => (.ok (done ++ bs), s)
      | (.uncorr pa, s) => (.uncorr ((va + done.length) % 2 ^ 64) pa, s)
      | (.lost u pa, s) => (.lost u pa, s)
    | e => e) (.ok [], s)

/-- The failure of a translation as the failure of an access. -/
def vresOf (va : Nat) : TRes → VRes
  | .ok _ => .wait
  | .wait => .wait
  | .lost u pa => .lost u pa
  | .fault k l d pa u => .fault va k l d pa u

/-- Whether an access of the Col die cannot leave it, the Col attach being down (R26, R27). -/
def colCut (rq : Requester) (s : State) : Bool := (rq == .melhal || rq == .admission) && !colAttach s

/-- Reads a virtual range: it waits for a tag (R180), and is translated whole first, so a fault reads nothing. -/
def vread (rq : Requester) (tenant va len : Nat) (a : Access) (s : State) : VRes × State :=
  if colCut rq s then (.lost 16 0, s)
  else match tagPass (rqRidge rq) rq tenant s with
  | none => (.wait, s)
  | some s => match translateRange rq tenant va len a s with
    | (.inr (v, e), s) => (vresOf v e, s)
    | (.inl ps, s) => readPieces (rqRidge rq) tenant va ps s

/-- Writes a virtual range: it waits for a tag (R180), and is translated whole first, so a fault writes nothing. -/
def vwrite (rq : Requester) (tenant va : Nat) (bytes : List Byte) (a : Access) (s : State) : VRes × State :=
  if colCut rq s then (.lost 16 0, s)
  else match tagPass (rqRidge rq) rq tenant s with
  | none => (.wait, s)
  | some s => match translateRange rq tenant va bytes.length a s with
    | (.inr (v, e), s) => (vresOf v e, s)
    | (.inl ps, s) => writePieces (rqRidge rq) tenant va ps bytes s

def accRead : Access := ⟨.read, false⟩
def accWrite : Access := ⟨.write, false⟩
def accFetch : Access := ⟨.fetch, false⟩
def accAtomic : Access := ⟨.atomic, false⟩
def accFlush : Access := ⟨.flush, false⟩

/-- Writes the fault record of a failed access; none for one that only waits or succeeded. `parked`, the graph handle, the
task, the chunk and ORIGIN are the operation's. -/
def recordFail (rq : Requester) (tenant va0 : Nat) (a : Access) (r : VRes) (parked : Bool)
    (handle task chunk origin : Nat) (s : State) : State :=
  match r with
  | .ok _ => s
  | .wait => s
  | .fault va k l d pa u => transFault rq tenant va a k l d pa u parked handle task chunk origin s
  | .uncorr va pa => uncorrFault pa (rqSource rq) tenant va (accCode a) handle task (rqCore rq) origin s
  | .lost u pa =>
    faultRec { kind := 0x12, t := stampAt s (16 + rqRidge rq), va := va0, pa := pa, access := accCode a,
               source := rqSource rq, tenant := tenant, unit := u, handle := handle, task := task,
               core := rqCore rq, chunk := chunk % 65536, origin := origin } s

/-- T_FAULT of a failed access: the time at the unit that detected it (R191). -/
def failStamp (rq : Requester) (s : State) : VRes → Nat
  | .fault _ _ _ _ _ u => stampAt s u
  | .uncorr _ pa => stampAt s (32 + 6 * paRidge pa + (stackOf s pa).1)
  | _ => stampAt s (16 + rqRidge rq)

/-- The task status of a terminal failure of an access (R190). -/
def failStatus : VRes → Nat
  | .uncorr _ _ => 8
  | .lost _ _ => 10
  | _ => 7

end Sys2Proof.Machine
end

