-- ==== Sys2Proof/Machine/Records.lean ====
section
/-! DEFINITION. Rings and the records written to them, and the interrupts they cause
(spec/04_task_graphs_and_binding.md R125 to R130, R497; spec/06_translation_dma_and_faults.md R192;
spec/11_crest_timebase_and_trace.md R337, R338; spec/12_host_interface_and_melhal.md R354). -/

namespace Sys2Proof.Machine

/-! ## Interrupts (R354) -/

def fnOf (s : State) (f : Nat) : Fn := Mp.get {} s.fns f
def setFn (f : Nat) (x : Fn) (s : State) : State := { s with fns := Mp.put {} s.fns f x }

/-- Where the model places the MSI-X and SR-IOV capabilities in configuration space (log entry 31). -/
def cfgMsix : Nat := 0xB0
def cfgSriov : Nat := 0x160

/-- A dword of a function's configuration space as software last wrote it. -/
def cfgGet (s : State) (f off : Nat) : Nat := (Mp.get 0#32 (fnOf s f).cfg off).toNat

/-- Whether a function is enabled: the PF always, a VF through SR-IOV, but none in recovery (R342, R419). -/
def fnEnabled (s : State) (f : Nat) : Bool :=
  f == 0 || (fget s rSEC_BOOT_STATUS fSEC_BOOT_STATUS_RECOVERY == 0 && bitOf (cfgGet s 0 (cfgSriov + 8)) 0
    && decide (f ≤ cfgGet s 0 (cfgSriov + 0x10) % 65536))

/-- A dword of a function's MSI-X table; a vector's mask bit is set until software clears it (log entry 31). -/
def msixGet (s : State) (f k : Nat) : Nat := (Mp.find (fnOf s f).msix k).getD (b2n (k % 4 == 3))

/-- Signals an MSI-X vector of a function: a message, or its pending bit while it is masked. -/
def signalVector (f v : Nat) (s : State) : State :=
  if !fnEnabled s f || !bitOf (cfgGet s f cfgMsix) 31 then s
  else if bitOf (cfgGet s f cfgMsix) 30 || msixGet s f (4 * v + 3) % 2 == 1 then
    setFn f { fnOf s f with pend := (fnOf s f).pend ||| 2 ^ v } s
  else emit (.msix f v) s

/-- The moderation of one more entry: whether it signals, and how many entries are then not signalled. -/
def moderate (modc unsig : Nat) : Bool × Nat :=
  if modc = 0 then (false, 0)
  else if modc ≤ unsig + 1 then (true, 0)
  else (false, unsig + 1)

/-! ## Rings (R125 to R127, R192, R338, R497) -/

/-- A ring: completion (tenant × 16 + number), fault (tenant) or trace (number). -/
inductive RingRef where
  | completion (key : Nat)
  | fault (tenant : Nat)
  | trace (ring : Nat)
  deriving DecidableEq, Repr

def getRing (s : State) : RingRef → Option Ring
  | .completion k => Mp.find s.cRings k
  | .fault t => Mp.find s.fRings t
  | .trace r => Mp.find s.tRings r

def setRing (r : RingRef) (x : Ring) (s : State) : State :=
  match r with
  | .completion k => { s with cRings := Mp.ins s.cRings k x }
  | .fault t => { s with fRings := Mp.ins s.fRings t x }
  | .trace n => { s with tRings := Mp.ins s.tRings n x }

/-- The bytes of a record and which of its bytes holds PHASE in bit 7. -/
def ringRecSize : RingRef → Nat
  | .trace _ => 32
  | _ => 64
def ringPhaseByte : RingRef → Nat
  | .completion _ => 0x0E
  | .fault _ => 0x25
  | .trace _ => 0x0F

/-- Room for `n` more records beside those reserved. -/
def ringRoom (x : Ring) (n : Nat) : Bool := decide (x.tail - x.head + x.reserved + n ≤ x.entries)

/-- The virtual address of the slot of the next record. -/
def ringSlot (r : RingRef) (x : Ring) : Nat := (x.base + x.tail % x.entries * ringRecSize r) % 2 ^ 64

/-- A record with its PHASE bit. -/
def phased (r : RingRef) (x : Ring) (bytes : List Byte) : List Byte :=
  modAt bytes (ringPhaseByte r) (fun b => b ||| (if x.tail / x.entries % 2 = 0 then 0x80#8 else 0#8))

/-- The base die through which records are written: the lowest that serves (log entry 1010). -/
def recRidge (s : State) : Nat := ((List.range (nRidges s)).find? (ridgeServes s)).getD 0

/-- The requester of record writes. -/
def recRq (s : State) : Requester := .recordWrite (recRidge s)

/-- The failure of a TAIL write: only an uncorrectable codeword is recorded (R151, R497). -/
def tailFail (r : RingRef) (x : Ring) (e : VRes) (s : State) : State :=
  match r, e with
  | .fault _, _ => s
  | _, .uncorr va pa => recordFail (recRq s) x.tenant x.ctrl accWrite (.uncorr va pa) false 0 0xFFFF 0 0 s
  | _, _ => s

/-- A record that could not be written (R497): it writes a fault record, unless it is one itself. -/
def recordLost (r : RingRef) (x : Ring) (va : Nat) (e : VRes) (s : State) : State :=
  match r with
  | .fault _ => fcount rFLT_FREC_STATUS fFLT_FREC_STATUS_LOST 1 s
  | _ => recordFail (recRq s) x.tenant va accWrite e false 0 0xFFFF 0 0 s

/-- Whether the write of a ring's next record is only deferred: its translation waits for a binding change, or for a tag
(R180, R200). -/
def ringDefers (r : RingRef) (bytes : List Byte) (s : State) : Bool :=
  match getRing s r with
  | none => false
  | some x => (vwrite (recRq s) x.tenant (ringSlot r x) (phased r x bytes) accWrite s).1 == .wait

/-- Writes a record into a ring that has room, then TAIL, and signals under moderation (R125, R126, R354, R497). -/
def ringWrite (r : RingRef) (bytes : List Byte) (s : State) : State :=
  match getRing s r with
  | none => s
  | some x =>
    let va := ringSlot r x
    match vwrite (recRq s) x.tenant va (phased r x bytes) accWrite s with
    | (.ok _, s) =>
      let m := moderate x.modc x.unsig
      let x := { x with tail := x.tail + 1, unsig := m.2 }
      let s := setRing r x s
      let s := match vwrite (recRq s) x.tenant x.ctrl (leBytes 8 x.tail) accWrite s with
        | (.ok _, s) => s
        | (e, s) => tailFail r x e s
      if m.1 then signalVector x.tenant x.vector s else s
    | (e, s) => recordLost r x va e s

/-- The ring of a graph. -/
def graphRing (g : Graph) : RingRef := .completion (g.tenant * 16 + g.ring)

/-- Reserves the retire slots of graphs of a completion ring that were admitted when it was full, while it has room (R127). -/
def reserveLate (r : RingRef) (s : State) : State :=
  s.graphs.foldl (fun s p =>
    if graphRing p.2 = r ∧ !p.2.retired ∧ !p.2.retireSlot then
      (match getRing s r with
      | some x => if ringRoom x 1 then
          setGraph p.1 { p.2 with retireSlot := true } (setRing r { x with reserved := x.reserved + 1 } s) else s
      | none => s)
    else s) s

/-- Rereads HEAD (R127, R497): a read that fails counts as HEAD unchanged, one beyond TAIL as TAIL. -/
def ringReread (r : RingRef) (s : State) : State :=
  match getRing s r with
  | none => s
  | some x =>
    match vread (recRq s) x.tenant ((x.ctrl + 8) % 2 ^ 64) 8 accRead s with
    | (.ok bs, s) => reserveLate r (setRing r { x with head := min (leNat bs) x.tail } s)
    | (_, s) => s

/-! ## Task records (R129, R130) -/

/-- The 64 bytes of a record of a task, PHASE clear (R129). -/
def taskRecBytes (g : Graph) (h t : Nat) (k : Task) (status detail tEvent : Nat) (cores : List Nat) : List Byte :=
  leFields [(8, g.tag), (2, h), (2, t), (2, status), (1, k.flags % 64), (1, min 255 k.preempts), (8, k.tReady),
    (8, k.tStart), (8, tEvent), (8, detail), (4, k.userTag), (2, (cores.head?).getD 0xFFFF), (2, (cores.filter (· != 0xFFFF)).length),
    (8, k.runTime)]

/-- The retire record of a graph (R128). -/
def retireBytes (g : Graph) (h status detail tEvent : Nat) : List Byte :=
  leFields [(8, g.tag), (2, h), (2, 0xFFFF), (2, status), (1, 0), (1, 0), (8, 0), (8, 0), (8, tEvent), (8, detail), (4, 0),
    (2, 0xFFFF), (2, 0), (8, 0)]

/-- Takes a reserved slot of a ring, or gives one up. -/
def ringReserve (r : RingRef) (up : Bool) (s : State) : State :=
  match getRing s r with
  | none => s
  | some x => setRing r { x with reserved := if up then x.reserved + 1 else x.reserved - 1 } s

/-- Writes a completion record: into the slot reserved for it, or at once if the ring has room, or else it waits (R127); it
waits too, with its slot, while its write is deferred (R200). The safe state writes none (R433). -/
def putRecord (r : RingRef) (bytes : List Byte) (task : Option (Nat × Nat)) (reserved : Bool) (s : State) : State :=
  match getRing s r with
  | none => s
  | some x =>
    if isSafe s then s
    else if reserved && !ringDefers r bytes s then ringWrite r bytes (ringReserve r false s)
    else if x.waiting.isEmpty && ringRoom x 1 && !ringDefers r bytes s then ringWrite r bytes s
    else
      let s := setRing r { x with waiting := x.waiting ++ [⟨bytes, ringPhaseByte r, task, reserved⟩] } s
      match task with
      | some (h, t) => updTask h t (fun k => { k with recWaiting := k.recWaiting + 1 }) s
      | none => s

/-- The TASK trace record of an event of a task (R337). -/
def traceTask (h t status ev now : Nat) (cores : List Nat) (s : State) : State :=
  match taskOf s h t with
  | none => s
  | some k =>
    trace (1 + k.home) (16 + k.home) 2 (tenantOfGraph s h) now
      (leFields [(2, h), (2, t), (2, status), (2, (cores.head?).getD 0xFFFF),
        (2, (cores.filter (· != 0xFFFF)).length), (1, ev)]) s

/-- The home unit's Crest time of a task. -/
def homeStamp (s : State) (h t : Nat) : Nat := stampAt s (16 + ((taskOf s h t).map (·.home)).getD 0)

/-- Writes a task's next record, using up the slot reserved for it. -/
def taskRecord (h t status detail tEvent : Nat) (cores : List Nat) (s : State) : State :=
  match graphOf s h, taskOf s h t with
  | some g, some k =>
    let s := updTask h t (fun k => { k with slot := false }) s
    putRecord (graphRing g) (taskRecBytes g h t k status detail tEvent cores) (some (h, t)) k.slot s
  | _, _ => s

/-- Stops the running time of a task (R129). -/
def stopRun (now : Nat) (k : Task) : Task :=
  match k.runSince with
  | some r => { k with runTime := k.runTime + (now - r), runSince := none }
  | none => k

/-- The earliest fault of a task by T_FAULT: its FSEQ (R193). -/
def earliestFault (l : List (Nat × Nat)) : Nat :=
  ((l.foldl (fun a p => match a with
    | none => some p
    | some q => if p.1 < q.1 then some p else some q) (none : Option (Nat × Nat))).map (·.2)).getD 0

/-- A DMA, NEAR or COLLECTIVE task whose operation has parked on a fault enters FAULT_WAIT (R195). -/
def unitFaultWait (h t tF fseq : Nat) (s : State) : State :=
  let now := homeStamp s h t
  let s := updTask h t (fun k => stopRun now { k with st := tsFaultWait, tEvent := now, faults := k.faults ++ [(tF, fseq)] }) s
  let d := ((taskOf s h t).map (fun k => earliestFault k.faults)).getD 0
  traceTask h t 0x81 2 now [] (taskRecord h t 0x81 d now [] s)

end Sys2Proof.Machine
end

