-- ==== Sys2Proof/Machine/Fp.lean ====
section
/-! DEFINITION. The number formats, the three rounding modes, the stochastic draw, narrowing conversion, overflow,
underflow and the block formats (spec/02_arithmetic_and_tensor_engines.md R32 to R50, R64, R65). -/

namespace Sys2Proof.Machine

/-- A number under R33: NaN, an infinity, or sign, integer magnitude and power of two. -/
inductive Num where
  | nan
  | inf (neg : Bool)
  | fin (neg : Bool) (m : Nat) (e : Int)
  deriving DecidableEq, Repr

/-- Which encodings of a floating-point format are not finite (R32). -/
inductive Special where
  | none
  | nanOnly
  | ieee
  deriving DecidableEq, Repr

/-- A floating-point format of R32: exponent width, mantissa width, bias and its special encodings. -/
structure FFmt where
  eb : Nat
  mb : Nat
  bias : Nat
  sp : Special
  deriving DecidableEq, Repr

/-- The element formats of R32. -/
inductive Elem where
  | flt (f : FFmt)
  | int (w : Nat)
  deriving DecidableEq, Repr

def fmtE2M1 : FFmt := ⟨2, 1, 1, .none⟩
def fmtE2M3 : FFmt := ⟨2, 3, 1, .none⟩
def fmtE3M2 : FFmt := ⟨3, 2, 3, .none⟩
def fmtE4M3 : FFmt := ⟨4, 3, 7, .nanOnly⟩
def fmtE5M2 : FFmt := ⟨5, 2, 15, .ieee⟩
def fmtBF16 : FFmt := ⟨8, 7, 127, .ieee⟩
def fmtFP16 : FFmt := ⟨5, 10, 15, .ieee⟩
def fmtFP32 : FFmt := ⟨8, 23, 127, .ieee⟩

/-- The width of a floating-point format in bits. -/
def FFmt.width (f : FFmt) : Nat := 1 + f.eb + f.mb

/-- The width of an element in bits. -/
def Elem.width : Elem → Nat
  | .flt f => f.width
  | .int w => w

/-- The largest finite magnitude's bit pattern (R32). -/
def FFmt.maxBits (f : FFmt) : Nat :=
  match f.sp with
  | .none => 2 ^ (f.eb + f.mb) - 1
  | .nanOnly => 2 ^ (f.eb + f.mb) - 2
  | .ieee => (2 ^ f.eb - 1) * 2 ^ f.mb - 1

/-- The pattern of infinity's magnitude, for the formats that have it. -/
def FFmt.infBits (f : FFmt) : Nat := (2 ^ f.eb - 1) * 2 ^ f.mb

/-- The canonical NaN of a format (R34). -/
def FFmt.nanBits (f : FFmt) : Nat :=
  match f.sp with
  | .ieee => (2 ^ f.eb - 1) * 2 ^ f.mb + 2 ^ (f.mb - 1)
  | _ => 2 ^ (f.eb + f.mb) - 1

/-- A magnitude pattern with a sign. -/
def FFmt.signed (f : FFmt) (neg : Bool) (mag : Nat) : Nat := b2n neg * 2 ^ (f.eb + f.mb) + mag

/-- The value of a bit pattern under R33. -/
def FFmt.decode (f : FFmt) (x : Nat) : Num :=
  let neg := bitOf x (f.eb + f.mb)
  let e := fieldOf x f.mb f.eb
  let m := fieldOf x 0 f.mb
  let spec := match f.sp with
    | .none => false
    | .nanOnly => e == 2 ^ f.eb - 1 && m == 2 ^ f.mb - 1
    | .ieee => e == 2 ^ f.eb - 1
  if spec then
    if f.sp = .ieee ∧ m = 0 then .inf neg else .nan
  else if e = 0 then .fin neg m (1 - (f.bias : Int) - f.mb)
  else .fin neg (2 ^ f.mb + m) ((e : Int) - f.bias - f.mb)

/-- The value of an integer. -/
def numOfInt (x : Int) (e : Int := 0) : Num := .fin (decide (x < 0)) x.natAbs e

/-- The value of an element's pattern. -/
def Elem.decode : Elem → Nat → Num
  | .flt f, x => f.decode x
  | .int w, x => numOfInt (sext w x)

/-- The value times a power of two; NaN and infinity keep their meaning (R38). -/
def Num.scale (x : Num) (k : Int) : Num :=
  match x with
  | .fin n m e => .fin n m (e + k)
  | y => y

def Num.isNan : Num → Bool
  | .nan => true
  | _ => false

def Num.isInf : Num → Bool
  | .inf _ => true
  | _ => false

def Num.isZero : Num → Bool
  | .fin _ m _ => m == 0
  | _ => false

def Num.sign : Num → Bool
  | .nan => false
  | .inf n => n
  | .fin n _ _ => n

def Num.neg : Num → Num
  | .nan => .nan
  | .inf n => .inf !n
  | .fin n m e => .fin (!n) m e

/-- The exact sum of two finite values; a zero from cancellation is +0, and −0 + −0 is −0 (R57). -/
def finAdd (n1 : Bool) (m1 : Nat) (e1 : Int) (n2 : Bool) (m2 : Nat) (e2 : Int) : Num :=
  let e := min e1 e2
  let a := m1 * 2 ^ (e1 - e).toNat
  let b := m2 * 2 ^ (e2 - e).toNat
  if n1 = n2 then .fin n1 (a + b) e
  else if a = b then .fin false 0 e
  else if b < a then .fin n1 (a - b) e
  else .fin n2 (b - a) e

/-- The exact sum, and whether it is an invalid operation (infinities of both signs). -/
def Num.add (x y : Num) : Num × Bool :=
  match x, y with
  | .nan, _ => (.nan, false)
  | _, .nan => (.nan, false)
  | .inf a, .inf b => if a = b then (.inf a, false) else (.nan, true)
  | .inf a, _ => (.inf a, false)
  | _, .inf b => (.inf b, false)
  | .fin n1 m1 e1, .fin n2 m2 e2 => (finAdd n1 m1 e1 n2 m2 e2, false)

/-- The exact product, and whether it is an invalid operation (zero times infinity). -/
def Num.mul (x y : Num) : Num × Bool :=
  match x, y with
  | .nan, _ => (.nan, false)
  | _, .nan => (.nan, false)
  | .inf a, .inf b => (.inf (a != b), false)
  | .inf a, .fin b m _ => if m = 0 then (.nan, true) else (.inf (a != b), false)
  | .fin a m _, .inf b => if m = 0 then (.nan, true) else (.inf (a != b), false)
  | .fin a m1 e1, .fin b m2 e2 => (.fin (a != b) (m1 * m2) (e1 + e2), false)

/-- Whether the first value is below the second; both zeros are equal. -/
def Num.lt (x y : Num) : Bool :=
  match x, y with
  | .nan, _ => false
  | _, .nan => false
  | .inf a, .inf b => a && !b
  | .inf a, .fin _ _ _ => a
  | .fin _ _ _, .inf b => !b
  | .fin n1 m1 e1, .fin n2 m2 e2 =>
    match finAdd n1 m1 e1 (!n2) m2 e2 with
    | .fin n m _ => n && m != 0
    | _ => false

/-- Whether two values are equal; both zeros are equal. -/
def Num.eq (x y : Num) : Bool :=
  match x, y with
  | .nan, _ => false
  | _, .nan => false
  | a, b => !(a.lt b) && !(b.lt a)

/-- Whether the first value comes before the second when −0 is ordered below +0 (R82). -/
def Num.before (x y : Num) : Bool :=
  if x.isZero && y.isZero then x.sign && !y.sign else x.lt y

/-- The rounding modes of R44. -/
inductive Mode where
  | rne
  | rtz
  | sr
  deriving DecidableEq, Repr

/-- The sticky flags of R61 as the bits of the ACSW. -/
abbrev Flags := Word32

def flNI : Flags := 0x0001_0000#32
def flNV : Flags := 0x0002_0000#32
def flOF : Flags := 0x0004_0000#32
def flUF : Flags := 0x0008_0000#32
def flSD : Flags := 0x0010_0000#32
def flIOV : Flags := 0x0020_0000#32

/-- A flag if a condition holds. -/
def flIf (c : Bool) (f : Flags) : Flags := if c then f else 0#32

/-- The draw of R46: 16 bits from SEED, ESEQ, the rounding step and the element index. -/
def draw (seed eseq s e : Nat) : Nat :=
  let z0 := ((((eseq + s) % 2 ^ 51) * 2 ^ 13) ||| e) % 2 ^ 64
  let z1 := (seed + z0 * 0x9E3779B97F4A7C15) % 2 ^ 64
  let z2 := ((z1 ^^^ (z1 >>> 30)) * 0xBF58476D1CE4E5B9) % 2 ^ 64
  let z3 := ((z2 ^^^ (z2 >>> 27)) * 0x94D049BB133111EB) % 2 ^ 64
  (z3 ^^^ (z3 >>> 31)) % 2 ^ 16

/-- How one rounding is done: the effective mode and, for SR, the draw (R44, R45). -/
structure Rnd where
  mode : Mode
  r : Nat
  deriving DecidableEq, Repr

def rndNear : Rnd := ⟨.rne, 0⟩

/-- Rounds m × 2^e to an integer count of 2^q; the second part says whether it was inexact (R44, R45). -/
def roundAt (rnd : Rnd) (m : Nat) (e q : Int) : Nat × Bool :=
  if q ≤ e then (m * 2 ^ (e - q).toNat, false)
  else
    let sh := (q - e).toNat
    let lo := m / 2 ^ sh
    let rem := m % 2 ^ sh
    let up := match rnd.mode with
      | .rtz => false
      | .rne => decide (2 ^ sh < 2 * rem) || (decide (2 * rem = 2 ^ sh) && lo % 2 == 1)
      | .sr => decide (65536 ≤ rem * 65536 / 2 ^ sh + rnd.r)
    (if up && rem != 0 then lo + 1 else lo, rem != 0)

/-- The power of two of a format's last place for a magnitude m × 2^e, exponents unbounded at the top. -/
def FFmt.quantum (f : FFmt) (m : Nat) (e : Int) : Int :=
  max ((Nat.log2 m : Int) + e) (1 - (f.bias : Int)) - f.mb

/-- The magnitude pattern of n × 2^q, where n has at most mb + 2 bits; above the top it exceeds `maxBits`. -/
def FFmt.pack (f : FFmt) (n : Nat) (q : Int) : Nat :=
  if n < 2 ^ f.mb then n
  else if n < 2 ^ (f.mb + 1) then (q + f.mb + f.bias).toNat * 2 ^ f.mb + (n - 2 ^ f.mb)
  else (q + 1 + f.mb + f.bias).toNat * 2 ^ f.mb

/-- Rounds a non-zero magnitude to a format without a top: the pattern and whether it was inexact. -/
def FFmt.roundMag (f : FFmt) (rnd : Rnd) (m : Nat) (e : Int) : Nat × Bool :=
  let q := f.quantum m e
  let p := roundAt rnd m e q
  (f.pack p.1 q, p.2)

/-- Whether a magnitude pattern is below the smallest normal. -/
def FFmt.subnormal (f : FFmt) (mag : Nat) : Bool := decide (mag < 2 ^ f.mb)

/-- The result of an operation that rounds to FP32, BF16 or FP16 under IEEE 754 (R49, R50, R64); `ftz` acts on FP32 only. -/
def FFmt.result (f : FFmt) (rnd : Rnd) (ftz : Bool) (x : Num) : Nat × Flags :=
  match x with
  | .nan => (f.nanBits, 0#32)
  | .inf n => (f.signed n f.infBits, 0#32)
  | .fin n m e =>
    if m = 0 then (f.signed n 0, 0#32)
    else
      let p := f.roundMag rnd m e
      if f.maxBits < p.1 then
        (f.signed n (if rnd.mode = .rtz then f.maxBits else f.infBits), flOF)
      else if f.subnormal p.1 then
        if ftz && f == fmtFP32 && p.1 != 0 then (f.signed n 0, flUF)
        else (f.signed n p.1, flIf p.2 flUF)
      else (f.signed n p.1, 0#32)

/-- A narrowing conversion to a floating-point format (R49, R50). -/
def FFmt.narrow (f : FFmt) (rnd : Rnd) (sat : Bool) (x : Num) : Nat × Flags :=
  let noInf := f.sp == .none
  match x with
  | .nan => (if noInf then f.maxBits else f.nanBits, flNI)
  | .inf n =>
    match f.sp with
    | .none => (f.signed n f.maxBits, flNV)
    | .nanOnly => if sat then (f.signed n f.maxBits, flSD) else (f.nanBits, flNV)
    | .ieee => (f.signed n f.infBits, 0#32)
  | .fin n m e =>
    if m = 0 then (f.signed n 0, 0#32)
    else
      let p := f.roundMag rnd m e
      if f.maxBits < p.1 then
        if rnd.mode = .rtz then (f.signed n f.maxBits, flOF)
        else if sat then (f.signed n f.maxBits, flSD)
        else match f.sp with
          | .none => (f.signed n f.maxBits, flOF)
          | .nanOnly => (f.nanBits, flOF)
          | .ieee => (f.signed n f.infBits, flOF)
      else (f.signed n p.1, flIf (p.2 && f.subnormal p.1) flUF)

/-- A narrowing conversion to a two's complement integer (the INT8 and INT32 rows of R49). -/
def intNarrow (w : Nat) (rnd : Rnd) (x : Num) : Nat × Flags :=
  let top : Nat := 2 ^ (w - 1) - 1
  match x with
  | .nan => (0, flNI)
  | .inf n => (if n then 2 ^ (w - 1) else top, flNV)
  | .fin n m e =>
    let k := (roundAt rnd m e 0).1
    if n then (if 2 ^ (w - 1) < k then (2 ^ (w - 1), flSD) else (wrap w (-(k : Int)), 0#32))
    else (if top < k then (top, flSD) else (k, 0#32))

/-- A narrowing conversion to an element format. -/
def Elem.narrow (f : Elem) (rnd : Rnd) (sat : Bool) (x : Num) : Nat × Flags :=
  match f with
  | .flt g => g.narrow rnd sat x
  | .int w => intNarrow w rnd x

/-- A float's value as FP32 where FP32 holds it exactly, else infinity with OF (R83). -/
def widen32 (x : Num) : Nat × Flags :=
  match x with
  | .nan => (fmtFP32.nanBits, flNI)
  | y => fmtFP32.result rndNear false y

/-- Whether every value of the source is exact in the destination (R495, R83). -/
def exactConv (src dst : Elem) : Bool :=
  match src, dst with
  | .flt a, .flt b =>
    a == b || (decide (a.mb ≤ b.mb)
      && decide ((b.bias : Int) + b.mb ≥ (a.bias : Int) + a.mb)
      && decide ((2 ^ a.eb : Int) - a.bias ≤ (2 ^ b.eb : Int) - b.bias)
      && (a.sp == .none || b.sp == .ieee))
  | .int a, .int b => decide (a ≤ b)
  | .int a, .flt b => decide (a ≤ b.mb + 1 ∧ a + 1 < 2 ^ b.eb - b.bias + 1 ∧ a = 8)
  | .flt _, .int _ => false

/-- One floating-point operation's outcome: NI if an operand is NaN, else NV if it was invalid, and the rounded result. -/
def finish (f : FFmt) (rnd : Rnd) (ftz : Bool) (anyNan : Bool) (r : Num × Bool) : Nat × Flags :=
  if anyNan then (f.nanBits, flNI)
  else if r.2 then (f.nanBits, flNV)
  else f.result rnd ftz r.1

def fpAdd (f : FFmt) (rnd : Rnd) (ftz : Bool) (a b : Nat) : Nat × Flags :=
  let x := f.decode a
  let y := f.decode b
  finish f rnd ftz (x.isNan || y.isNan) (x.add y)

def fpSub (f : FFmt) (rnd : Rnd) (ftz : Bool) (a b : Nat) : Nat × Flags :=
  let x := f.decode a
  let y := f.decode b
  finish f rnd ftz (x.isNan || y.isNan) (x.add y.neg)

def fpMul (f : FFmt) (rnd : Rnd) (ftz : Bool) (a b : Nat) : Nat × Flags :=
  let x := f.decode a
  let y := f.decode b
  finish f rnd ftz (x.isNan || y.isNan) (x.mul y)

def fpFma (f : FFmt) (rnd : Rnd) (ftz : Bool) (a b c : Nat) : Nat × Flags :=
  let x := f.decode a
  let y := f.decode b
  let z := f.decode c
  let p := x.mul y
  let r := p.1.add z
  finish f rnd ftz (x.isNan || y.isNan || z.isNan) (r.1, p.2 || r.2)

/-- The integer square root, by bisection on bits from `2^k` downward. -/
def isqrtFrom (x : Nat) : Nat → Nat → Nat
  | 0, r => r
  | k + 1, r => if (r + 2 ^ k) * (r + 2 ^ k) ≤ x then isqrtFrom x k (r + 2 ^ k) else isqrtFrom x k r

def isqrt (x : Nat) : Nat := isqrtFrom x (Nat.log2 x / 2 + 1) 0

/-- The square root to 60 or more places with a sticky last place, enough for every mode to round once. -/
def sqrtNum (m : Nat) (e : Int) : Num :=
  let k : Nat := 120 + (if (e % 2 == 0) then 0 else 1)
  let x := m * 2 ^ k
  let r := isqrt x
  .fin false (2 * r + b2n (r * r != x)) ((e - (k : Int)) / 2 - 1)

def fpSqrt (f : FFmt) (rnd : Rnd) (ftz : Bool) (a : Nat) : Nat × Flags :=
  match f.decode a with
  | .nan => (f.nanBits, flNI)
  | .inf n => if n then (f.nanBits, flNV) else (f.infBits, 0#32)
  | .fin n m e =>
    if m = 0 then (f.signed n 0, 0#32)
    else if n then (f.nanBits, flNV)
    else f.result rnd ftz (sqrtNum m e)

/-- VMIN and VMAX of two patterns (R82): −0 below +0, one NaN gives the other operand, NI if either is NaN. -/
def fpMinMax (isMax : Bool) (f : FFmt) (a b : Nat) : Nat × Flags :=
  let x := f.decode a
  let y := f.decode b
  match x.isNan, y.isNan with
  | true, true => (f.nanBits, flNI)
  | true, false => (b, flNI)
  | false, true => (a, flNI)
  | false, false =>
    (if isMax then (if x.before y then b else a) else (if y.before x then b else a), 0#32)

/-! The approximated functions of R65. Each takes the result of the part's unpublished approximation where that result
lies within the published bound, and the nearest value otherwise, so it is free within the bound and nowhere else. -/

/-- The last place of a finite FP32 pattern as a power of two. -/
def ulpExp (mag : Nat) : Int :=
  let e := fieldOf mag 23 8
  (if e = 0 then 1 else (e : Int)) - 150

/-- Whether a candidate lies within `k` last places of the value `v × 2^ve`, known to within one count of `v`. -/
def within (k : Nat) (cand : Num) (mag : Nat) (neg : Bool) (v : Nat) (ve : Int) : Bool :=
  match cand with
  | .fin n m e =>
    let u := ulpExp mag
    let lo := min e (min ve u)
    let c : Int := (if n then -1 else 1) * ((m * 2 ^ (e - lo).toNat : Nat) : Int)
    let x : Int := (if neg then -1 else 1) * ((v * 2 ^ (ve - lo).toNat : Nat) : Int)
    let slack : Int := ((k * 2 ^ (u - lo).toNat + 2 ^ (ve - lo).toNat : Nat) : Int)
    decide ((c - x).natAbs ≤ slack.natAbs)
  | _ => false

/-- The part's own value for a non-zero value, as R50 delivers it: one below the smallest normal underflows unless it is that
value exactly, and FTZ flushes it to a zero of its sign. -/
def ownResult (ftz : Bool) (own : Word32) (exact : Num) : Nat × Flags :=
  let mag := own.toNat % 2 ^ 31
  if !fmtFP32.subnormal mag then (own.toNat, 0#32)
  else if ftz then (fmtFP32.signed (own.toNat != mag) 0, flUF)
  else (own.toNat, flIf (fmtFP32.result rndNear false exact != (own.toNat, 0#32)) flUF)

/-- The FP32 result of an approximation: the part's own value if within `k` last places, else the nearest value. -/
def approx (k : Nat) (ftz : Bool) (own : Word32) (neg : Bool) (v : Nat) (ve : Int) : Nat × Flags :=
  let near := fmtFP32.result rndNear ftz (.fin neg v ve)
  if within k (fmtFP32.decode own.toNat) (own.toNat % 2 ^ 31) neg v ve && !(near.2 == flOF) then
    ownResult ftz own (.fin neg v ve)
  else near

/-- RCP of an FP32 pattern (R65). -/
def fpRcp (ftz : Bool) (a : Nat) : Nat × Flags :=
  match fmtFP32.decode a with
  | .nan => (fmtFP32.nanBits, flNI)
  | .inf n => (fmtFP32.signed n 0, 0#32)
  | .fin n m e =>
    if m = 0 then (fmtFP32.signed n fmtFP32.infBits, 0#32)
    else
      let q := 2 ^ 150 / m
      approx 1 ftz (Config.rcp (BitVec.ofNat 32 a)) n (2 * q + b2n (2 ^ 150 % m != 0)) (-151 - e)

/-- RSQRT of an FP32 pattern (R65). -/
def fpRsqrt (ftz : Bool) (a : Nat) : Nat × Flags :=
  match fmtFP32.decode a with
  | .nan => (fmtFP32.nanBits, flNI)
  | .inf n => if n then (fmtFP32.nanBits, flNV) else (0, 0#32)
  | .fin n m e =>
    if m = 0 then (fmtFP32.signed n fmtFP32.infBits, 0#32)
    else if n then (fmtFP32.nanBits, flNV)
    else
      let e' := if e % 2 == 0 then e else e - 1
      let m' := if e % 2 == 0 then m else 2 * m
      let r := isqrt (2 ^ 200 / m')
      approx 1 ftz (Config.rsqrt (BitVec.ofNat 32 a)) false (2 * r + 1) (-101 - e' / 2)

/-- 2^(x / 2^24) × 2^100 for x below 2^24, by successive square roots of 2 from the highest bit of x. -/
def exp2Frac : Nat → Nat → Nat → Nat → Nat
  | 0, _, _, acc => acc
  | k + 1, x, root, acc =>
    exp2Frac k x (isqrt (root * 2 ^ 100)) (if bitOf x k then acc * root / 2 ^ 100 else acc)

/-- EXP2 of an FP32 pattern (R65). The exact results of the rule are those of integers from −149; at −150, which it gives
neither to them nor to the values below −150, the bound of 2 ulp alone holds (log entry 201). -/
def fpExp2 (ftz : Bool) (a : Nat) : Nat × Flags :=
  match fmtFP32.decode a with
  | .nan => (fmtFP32.nanBits, flNI)
  | .inf n => if n then (0, 0#32) else (fmtFP32.infBits, 0#32)
  | .fin n m e =>
    let x : Num := .fin n m e
    if !(x.lt (numOfInt 128)) then (fmtFP32.infBits, flOF)
    else if x.lt (numOfInt (-150)) then (0, flUF)
    else
      let t : Int := (if n then -1 else 1) * ((m * 2 ^ (e + 176).toNat : Nat) : Int)
      let i : Int := t / ((2 ^ 176 : Nat) : Int)
      let f : Nat := (t % ((2 ^ 176 : Nat) : Int)).toNat
      if f = 0 ∧ -149 ≤ i then fmtFP32.result rndNear ftz (.fin false 1 i)
      else
        approx 2 ftz (Config.exp2 (BitVec.ofNat 32 a)) false
          (exp2Frac 176 f (isqrt (2 ^ 201)) (2 ^ 100)) (i - 100)

/-- The fraction bits of log2 of y × 2^-100, y from 2^100 to 2^101, by repeated squaring. -/
def log2Frac : Nat → Nat → Nat → Nat
  | 0, _, acc => acc
  | k + 1, y, acc =>
    let z := y * y / 2 ^ 100
    if 2 ^ 101 ≤ z then log2Frac k (z / 2) (2 * acc + 1) else log2Frac k z (2 * acc)

/-- Whether a candidate lies within an absolute error of 2^-22 of `v × 2^ve` (R65). -/
def withinAbs (cand : Num) (neg : Bool) (v : Nat) (ve : Int) : Bool :=
  match cand.add (.fin (!neg) v ve) with
  | (.fin _ m e, _) => !((Num.fin false 1 (-22)).lt (.fin false m e))
  | _ => false

/-- LOG2 of an FP32 pattern (R65). -/
def fpLog2 (ftz : Bool) (a : Nat) : Nat × Flags :=
  match fmtFP32.decode a with
  | .nan => (fmtFP32.nanBits, flNI)
  | .inf n => if n then (fmtFP32.nanBits, flNV) else (fmtFP32.infBits, 0#32)
  | .fin n m e =>
    if m = 0 then (fmtFP32.signed true fmtFP32.infBits, 0#32)
    else if n then (fmtFP32.nanBits, flNV)
    else
      let l := Nat.log2 m
      let i : Int := (l : Int) + e
      let fr := log2Frac 60 (m * 2 ^ (100 - l)) 0
      let v : Int := i * ((2 ^ 60 : Nat) : Int) + (fr : Int)
      if v = 0 then (0, 0#32)
      else
        let own := Config.log2 (BitVec.ofNat 32 a)
        let narrow := decide (i = 0) || decide (i = -1) || (decide (i = 1) && decide (m = 2 ^ l))
        if narrow && !(withinAbs (fmtFP32.decode own.toNat) (decide (v < 0)) v.natAbs (-60)) then
          fmtFP32.result rndNear ftz (.fin (decide (v < 0)) v.natAbs (-60))
        else if narrow then ownResult ftz own (.fin (decide (v < 0)) v.natAbs (-60))
        else approx 2 ftz own (decide (v < 0)) v.natAbs (-60)

/-! Block formats (R37 to R43). -/

/-- The exponent of the largest normal of an MX element format (R41). -/
def mxEmax (el : Elem) : Int :=
  match el with
  | .int _ => 0
  | .flt f => (if f = fmtE5M2 then 15 else if f = fmtE4M3 then 8 else if f = fmtE3M2 then 4 else 2)

/-- floor(log2) of a finite magnitude, none for zero. -/
def Num.floorLog2 : Num → Option Int
  | .fin _ m e => if m = 0 then none else some ((Nat.log2 m : Int) + e)
  | _ => none

/-- The largest floor(log2) of a list of finite values, none if all are zero. -/
def maxLog2 (xs : List Num) : Option Int :=
  xs.foldl (fun a x => match a, x.floorLog2 with
    | some p, some q => some (max p q)
    | none, q => q
    | p, none => p) none

/-- One element of a block, its value divided by 2^s and converted; MXINT8 counts in 2^-6 (R37, R41). -/
def quantElem (el : Elem) (rnd : Rnd) (sat : Bool) (s : Int) (x : Num) : Nat × Flags :=
  match el with
  | .int w => intNarrow w rnd (x.scale (6 - s))
  | .flt f => f.narrow rnd sat (x.scale (-s))

/-- The flags of a block coded as NaN (R43). -/
def nanBlockFlags (xs : List Num) : Flags := flIf (xs.any (·.isNan)) flNI ||| flIf (xs.any (·.isInf)) flNV

/-- An MX block of 32 values: the scale byte, the element patterns and the flags (R41, R43). `rnd i` rounds element i. -/
def quantMx (el : Elem) (rnd : Nat → Rnd) (sat : Bool) (xs : List Num) : Nat × List Nat × Flags :=
  if xs.any (fun x => x.isNan || x.isInf) then (255, xs.map (fun _ => 0), nanBlockFlags xs)
  else
    let s : Int := match maxLog2 xs with
      | none => -127
      | some l => max (-127) (min 127 (l - mxEmax el))
    let es := xs.mapIdx (fun i x => quantElem el (rnd i) sat s x)
    ((s + 127).toNat, es.map (·.1), es.foldl (fun a p => a ||| p.2) 0#32)

/-- An Emmer block of 32 values: its 18 bytes as a number, and the flags (R39, R42, R43). -/
def quantEmmer (rnd : Nat → Rnd) (sat : Bool) (raw : List Word32) (xs : List Num) : Nat × Flags :=
  if xs.any (fun x => x.isNan || x.isInf) then
    (255 + 256 * (Config.emmerNanOffsets raw).toNat, nanBlockFlags xs)
  else
    let top := maxLog2 xs
    let s : Int := match top with
      | none => -127
      | some l => max (-127) (min 127 (l - 2))
    let off (j : Nat) : Nat := match top, maxLog2 ((xs.drop (8 * j)).take 8) with
      | some l, some lj => min 3 (l - lj).toNat
      | _, _ => 3
    let es := xs.mapIdx (fun i x => fmtE2M1.narrow (rnd i) sat (x.scale (-(s - (off (i / 8) : Int)))))
    ((s + 127).toNat + 256 * packBits 2 [off 0, off 1, off 2, off 3] + 65536 * packBits 4 (es.map (·.1)),
      es.foldl (fun a p => a ||| p.2) 0#32)

/-- The value of an MX element under its scale byte (R38). -/
def mxValue (el : Elem) (scale x : Nat) : Num :=
  if scale = 255 then .nan
  else match el with
    | .int w => (numOfInt (sext w x)).scale (-6 + (scale : Int) - 127)
    | .flt f => (f.decode x).scale ((scale : Int) - 127)

/-- The value of element i of an Emmer block given as its 144-bit number (R40). -/
def emmerValue (blk i : Nat) : Num :=
  let x := blk % 256
  if x = 255 then .nan
  else (fmtE2M1.decode (fieldOf blk (16 + 4 * i) 4)).scale ((x : Int) - 127 - (fieldOf blk (8 + 2 * (i / 8)) 2 : Int))

end Sys2Proof.Machine
end

