-- ==== Sys2Proof/Machine/Flags.lean ====
section
/-! DEFINITION. An engine's arithmetic control and status word, effective rounding mode, draws and sticky flags
(spec/02_arithmetic_and_tensor_engines.md R44 to R48, R61, R62). -/

namespace Sys2Proof.Machine

/-- The state of an engine of a core: 0 to 7 for TE0 to TE7, 8 and 9 for VE0 and VE1. -/
def engOf (k : Core) (e : Nat) : Eng := Mp.get {} k.eng e

def setEng (e : Nat) (g : Eng) (k : Core) : Core := { k with eng := Mp.put {} k.eng e g }

/-- The effective mode of an instruction (R44): its RND field, or ACSW.RMODE, whose reserved value is RNE (R61). -/
def effMode (g : Eng) (rnd : BitVec 2) : Mode :=
  let m := if rnd = 0#2 then g.acsw.toNat % 4 else rnd.toNat - 1
  if m = 1 then .rtz else if m = 2 then .sr else .rne

def satOf (g : Eng) : Bool := g.acsw.toNat.testBit 2
def ftzOf (g : Eng) : Bool := g.acsw.toNat.testBit 4

/-- The rounding of step `st` of element `el` of an instruction (R45 to R47). -/
def rndFor (g : Eng) (m : Mode) (st el : Nat) : Rnd :=
  ⟨m, if m = .sr then draw g.seed.toNat g.eseq.toNat st el else 0⟩

/-- Sets sticky flags in an engine's ACSW (R61, R62). -/
def raiseFlags (e : Nat) (f : Flags) (k : Core) : Core :=
  let g := engOf k e
  setEng e { g with acsw := g.acsw ||| f } k

/-- Advances ESEQ by the steps of an instruction that rounded under SR (R47). -/
def advanceSeq (e : Nat) (m : Mode) (steps : Nat) (k : Core) : Core :=
  if m = .sr then
    let g := engOf k e
    setEng e { g with eseq := g.eseq + BitVec.ofNat 51 steps } k
  else k

/-- A software write of the ACSW under its access codes (R61): flags clear where one is written, SAT, FTZ and RMODE take
the value written, reserved bits stay zero. -/
def writeAcsw (old v : Word32) : Word32 :=
  (old &&& 0x003F_0000#32 &&& ~~~v) ||| (v &&& 0x0000_0017#32)

end Sys2Proof.Machine
end

