-- ==== Sys2Proof/Machine/Operands.lean ====
section
/-! DEFINITION. The operands of core instructions: register files, format codes, legality at issue, the registers an
instruction reads and writes, and sheaf memory (spec/03_cores_and_instruction_set.md R69, R74 to R76, R85, R91 to R95, R495). -/

namespace Sys2Proof.Machine

/-! ## Register files (R69) -/

/-- S0 reads as zero. -/
def sget (k : Core) (r : BitVec 5) : Word64 := if r = 0#5 then 0#64 else Mp.get 0#64 k.sreg r.toNat

/-- Writes to S0 are discarded. -/
def sset (r : BitVec 5) (v : Word64) (k : Core) : Core :=
  if r = 0#5 then k else { k with sreg := Mp.put 0#64 k.sreg r.toNat v }

/-- The 256 lanes of a vector register. -/
def vget (k : Core) (r : BitVec 6) : List Word32 := Mp.slice 0#32 k.vreg (256 * r.toNat) 256
def vset (r : BitVec 6) (v : List Word32) (k : Core) : Core :=
  { k with vreg := Mp.blit 0#32 k.vreg (256 * r.toNat) (v.take 256) }

/-- Bytes of a tile register. -/
def tget (k : Core) (r n : Nat) : List Byte := Mp.slice 0#8 k.treg (32768 * r) n
def tset (r off : Nat) (bs : List Byte) (k : Core) : Core :=
  { k with treg := Mp.blit 0#8 k.treg (32768 * r + off) bs }

/-- Elements of an accumulator register, row-major from (0, 0). -/
def aget (k : Core) (r : BitVec 4) : List Word32 := Mp.slice 0#32 k.areg (8192 * r.toNat) 8192
def aset (r : BitVec 4) (v : List Word32) (k : Core) : Core :=
  { k with areg := Mp.blit 0#32 k.areg (8192 * r.toNat) (v.take 8192) }

/-- The lanes of a vector register as one bit string, lane 0 lowest (R36, R83). -/
def lanesNat (v : List Word32) : Nat := packBits 32 (v.map BitVec.toNat)
def natLanes (x : Nat) : List Word32 := (unpackBits 32 256 x).map (BitVec.ofNat 32)

/-- Little-endian 32-bit words of bytes. -/
def bytesWords : List Byte → List Word32
  | a :: b :: c :: d :: r => BitVec.ofNat 32 (leNat [a, b, c, d]) :: bytesWords r
  | _ => []
def wordsBytes (v : List Word32) : List Byte := v.flatMap (fun w => leBytes 4 w.toNat)

/-! ## Format codes (R76) -/

/-- The element format of a code below 8 or of the element of an MX code. -/
def codeElem (code : Nat) : Elem :=
  if code = 0 ∨ code = 8 ∨ code = 14 then .flt fmtE2M1
  else if code = 1 ∨ code = 9 then .flt fmtE2M3
  else if code = 2 ∨ code = 10 then .flt fmtE3M2
  else if code = 3 ∨ code = 11 then .flt fmtE4M3
  else if code = 4 ∨ code = 12 then .flt fmtE5M2
  else if code = 5 ∨ code = 13 then .int 8
  else if code = 6 then .flt fmtBF16
  else .flt fmtFP16

/-- The lane type of a TYPE field: FP32, BF16, FP16 or INT32 (R75). -/
def tyElem (ty : Nat) : Elem :=
  if ty = 0 then .flt fmtFP32 else if ty = 1 then .flt fmtBF16 else if ty = 2 then .flt fmtFP16 else .int 32

/-- The float format of lane types 0 to 2. -/
def tyFmt (ty : Nat) : FFmt := if ty = 1 then fmtBF16 else if ty = 2 then fmtFP16 else fmtFP32

/-- The element of a VCVT format code, 15 being the lane type. -/
def cvtElem (code ty : Nat) : Elem := if code = 15 then tyElem ty else codeElem code

/-- The three families of R53: 1 the 4-, 6- and 8-bit float family, 2 INT8, 3 MXINT8, 4 BF16, 5 FP16, 0 for code 15. -/
def family (code : Nat) : Nat :=
  if code = 5 then 2 else if code = 13 then 3 else if code = 6 then 4 else if code = 7 then 5
  else if code = 15 then 0 else 1

/-- The pairings R53 allows. -/
def pairOk (p q : Nat) : Bool := family p == family q && family p != 0

/-! ## Legality at issue (R74, R495) -/

/-- Whether the word may carry a non-zero RND (R495). -/
def mayRound (w : CWord) : Bool :=
  let o := w.op.toNat
  match w.fmt with
  | .a _ => false
  | .v f =>
    o == 0x30 || o == 0x31 || o == 0x32 || o == 0x33 || o == 0x36 || o == 0x51
      || (o == 0x50 && !(exactConv (cvtElem f.fmts.toNat f.ty.toNat) (cvtElem f.fmtd.toNat f.ty.toNat))
          && !(cvtElem f.fmts.toNat f.ty.toNat == .int 32 && cvtElem f.fmtd.toNat f.ty.toNat == .int 8))
  | .t f =>
    (o == 0x90 && !(f.pfmt == 5#4 && f.qfmt == 5#4))
      || (o == 0x92 && (f.ofmt == 3#4 || f.ofmt == 4#4 || f.ofmt == 6#4 || f.ofmt == 7#4))

/-- TYPE, format codes, SA and register fields a format-V opcode allows (R74, R77, R83). VSEL runs in TYPE 3 as well: the heading of its
group says TYPE 0 to 2, R82 speaks of VSEL in TYPE 3 (DESIGN CHOICE; log entry 303). -/
def legalV (o : Nat) (f : FmtV) : Bool :=
  let ty := f.ty.toNat
  let cvt (c : Nat) : Bool := c ≤ 7 || c == 15
  if o = 0x37 ∨ o = 0x38 ∨ o = 0x39 ∨ o = 0x3A then ty == 0
  else if o = 0x3E then ty ≤ 3
  else if o < 0x40 then ty ≤ 2
  else if o < 0x50 then ty == 3
  else if o = 0x50 then
    cvt f.fmts.toNat && cvt f.fmtd.toNat && ((f.fmts != 15#4 && f.fmtd != 15#4) || ty ≤ 3)
  else if o = 0x51 then
    f.fmts == 15#4 && ty == 0 && 8 ≤ f.fmtd.toNat && f.fmtd.toNat ≤ 14 && (f.fmtd != 14#4 || f.sa == 0#5)
  else if o = 0x52 then
    8 ≤ f.fmts.toNat && f.fmts.toNat ≤ 14 && f.fmtd == 15#4 && ty == 0 && (f.fmts != 14#4 || f.sa == 0#5)
  else if o ≤ 0x62 then ty ≤ 3
  else true

/-- The bytes of one element of a TLDT array. -/
def tldtSize (ofmt : Nat) : Nat := if ofmt = 6 ∨ ofmt = 7 then 2 else 1

/-- What a format-T opcode allows (R74, R75, R77 to R81). -/
def legalT (o : Nat) (f : FmtT) : Bool :=
  let imm := f.imm.toNat
  if o = 0x65 then
    f.mask.toNat ≤ 1 && (f.ofmt == 3#4 || f.ofmt == 6#4)
      && (f.psrc || (f.pt.toNat < 8 && (f.ofmt != 6#4 || f.pt.toNat % 2 == 0)))
  else if o = 0x80 ∨ o = 0x81 then imm % 64 == 0 && imm ≤ 32768
  else if o = 0x82 then
    3 ≤ f.ofmt.toNat && f.ofmt.toNat ≤ 7 && imm % 65536 * (imm / 65536) * tldtSize f.ofmt.toNat ≤ 16384
  else if o = 0x90 then
    pairOk f.pfmt.toNat f.qfmt.toNat && (f.psrc || f.pt.toNat < 8) && (f.qsrc || f.qt.toNat < 8)
  else if o = 0x92 then (3 ≤ f.ofmt.toNat && f.ofmt.toNat ≤ 7) || f.ofmt == 15#4
  else if o = 0x94 ∨ o = 0x95 then imm % 2 == 0 && imm ≤ 62
  else true

/-- Whether the SQ accepts a word at issue (R74). A field that the instruction does not use is not checked, whatever the layout's table
calls its value (DESIGN CHOICE; log entry 304). -/
def legal (w : CWord) : Bool :=
  let o := w.op.toNat
  (w.pre.rnd == 0#2 || mayRound w) && !(w.pre.ps == 0#5 && w.pre.pn) &&
  (match w.fmt with
    | .a f => opFormat w.op == some 0 && f.rsv == 0#6 && (o < 0xC0 || f.eng.toNat ≤ 9)
    | .v f => opFormat w.op == some 1 && f.rsv == 0#10 && legalV o f
    | .t f => opFormat w.op == some 2 && f.rsv == 0#22 && legalT o f)

/-! ## The unit an instruction runs on (R68) -/

/-- 0 to 7 for TE0 to TE7, 8 and 9 for VE0 and VE1, 10 the tile unit, 11 the DMA unit; none for the SQ. -/
def unitOf (w : CWord) : Option Nat :=
  let g := w.op.toNat / 16
  match w.fmt with
  | .a f => if g = 0xB then some 11 else if g = 0xC then some f.eng.toNat else none
  | .v f => some (8 + b2n f.ve)
  | .t f => if g = 8 then some 10 else some (f.ad.toNat / 2)

/-- The queue depth of a unit (R68); of the DMA unit's, the instructions not yet started. -/
def unitDepth (u : Nat) : Nat := if u < 8 then 4 else if u < 10 then 8 else if u = 10 then 4 else 12

/-- The row-unit opcodes of a tensor engine; the array executes the others (R68). -/
def isRow (o : Nat) : Bool := (0x63 ≤ o && o ≤ 0x67) || o == 0x94 || o == 0x95

/-! ## Registers read and written (R85) -/

def rS (r : BitVec 5) : List Nat := if r = 0#5 then [] else [r.toNat]
def rV (r : BitVec 6) : List Nat := [100 + r.toNat]
def rT (r : Nat) : List Nat := [200 + r]
def rA (r : BitVec 4) : List Nat := [300 + r.toNat]

/-- Registers a format-A opcode reads and writes. -/
def rwA (o : Nat) (f : FmtA) : List Nat × List Nat :=
  let sb := if f.ib then [] else rS f.sb
  if o = 0x03 ∨ o = 0x04 ∨ o = 0x07 ∨ o = 0x09 then (rS f.sa, [])
  else if o = 0x05 then (rS f.sa, rS f.sa)
  else if o = 0x06 then ([], rS f.sd)
  else if 0x10 ≤ o ∧ o ≤ 0x1D then (rS f.sa ++ sb, rS f.sd)
  else if o = 0x1E ∨ o = 0x1F ∨ o = 0xA2 ∨ o = 0xB1 ∨ o = 0xC0 ∨ o = 0xC3 then ([], rS f.sd)
  else if o = 0x20 ∨ o = 0x22 then (rS f.sa, rS f.sd)
  else if o = 0x21 ∨ o = 0x23 ∨ o = 0x25 ∨ o = 0x26 ∨ o = 0xA4 ∨ o = 0xC2 then (rS f.sa ++ rS f.sb, [])
  else if o = 0xA3 then (rS f.sa ++ rS f.sb ++ rS f.sc, rS f.sd)
  else if o = 0xB0 ∨ o = 0xC1 then (rS f.sa, [])
  else ([], [])

/-- Registers a format-V opcode reads and writes. -/
def rwV (o : Nat) (f : FmtV) : List Nat × List Nat :=
  let b := if f.bs then rS (f.vb.setWidth 5) else rV f.vb
  if o = 0x33 ∨ o = 0x3E then (rV f.va ++ b ++ rV f.vc, rV f.vd)
  else if o = 0x49 ∨ o = 0x4A then (rS f.sa, rV f.vd)
  else if (0x36 ≤ o ∧ o ≤ 0x3B) ∨ o = 0x3F ∨ o = 0x50 ∨ (0x60 ≤ o ∧ o ≤ 0x62) then (rV f.va, rV f.vd)
  else if o < 0x50 then (rV f.va ++ b, rV f.vd)
  else if o = 0x51 then (rV f.va, rV f.vd ++ (if f.fmtd = 14#4 then [] else rS f.sa))
  else if o = 0x52 then (rV f.va ++ (if f.fmts = 14#4 then [] else rS f.sa), rV f.vd)
  else if o = 0x70 ∨ o = 0x72 ∨ o = 0x74 then (rS f.sa, rV f.vd)
  else (rS f.sa ++ rV f.va, [])

/-- Registers a format-T opcode reads and writes. -/
def rwT (o : Nat) (f : FmtT) : List Nat × List Nat :=
  let src (mem : Bool) (r : BitVec 5) : List Nat := if mem then rS r else rT (r.toNat % 8)
  if o = 0x63 ∨ o = 0x64 ∨ o = 0x94 then (rA f.ad, rV f.vs)
  else if o = 0x65 then
    (rA f.ad ++ rV f.vs ++ (if f.mask = 1#3 then rS f.sa else []) ++ (if f.psrc then rS f.pt else []),
     rV f.vs ++ (if f.psrc then [] else rT (f.pt.toNat % 8) ++ (if f.ofmt = 6#4 then rT (f.pt.toNat % 8 + 1) else [])))
  else if o = 0x66 ∨ o = 0x67 then (rA f.ad ++ rV f.vs, rA f.ad)
  else if o = 0x80 ∨ o = 0x82 then (rS f.sa, rT f.td.toNat)
  else if o = 0x81 then (rS f.sa ++ rT f.td.toNat, [])
  else if o = 0x83 then ([], rT f.td.toNat)
  else if o = 0x90 then (src f.psrc f.pt ++ src f.qsrc f.qt ++ (if f.clr then [] else rA f.ad), rA f.ad)
  else if o = 0x91 then ([], rA f.ad)
  else if o = 0x92 then (rA f.ad ++ rS f.sa, [])
  else if o = 0x93 then (rS f.sa, rA f.ad)
  else if o = 0x95 then (rV f.vs, rA f.ad)
  else ([], [])

/-- The registers an instruction that takes effect reads and writes. -/
def rwSet (w : CWord) : List Nat × List Nat :=
  match w.fmt with
  | .a f => rwA w.op.toNat f
  | .v f => rwV w.op.toNat f
  | .t f => rwT w.op.toNat f

/-- Whether two access sets conflict (R85). -/
def setsConflict (x y : List Nat × List Nat) : Bool :=
  x.2.any (fun r => y.1.contains r || y.2.contains r) || y.2.any (fun r => x.1.contains r)

/-- The accesses a queued instruction has not finished: none if its predicate is false, and a started ASMX has finished
reading its accumulator (R73, R85). -/
def entSet (e : QEnt) : List Nat × List Nat :=
  if !e.pred then ([], [])
  else
    let r := rwSet e.w
    if e.started && e.w.op == 0x65#8 then (r.1.filter (fun x => decide (x < 300)), r.2) else r

/-- Every instruction in a core's queues, and the DMAQ entries of its running transfers. -/
def allEnts (k : Core) : List QEnt := (k.queues.flatMap (·.2)).filter (fun e => !e.done)

/-! ## Sheaf memory (R91 to R95) -/

/-- A sheaf access that breaks its alignment or the extent, as a status (R87, R91): alignment is checked first. -/
def sheafCheck (k : Core) (off len align : Nat) : Option Nat :=
  if off % align ≠ 0 then some stMisaligned
  else if k.extent < off + len then some stSheafBound
  else none

/-- The error registers of a core's sheaf memory (R95). -/
def sheafEccReg (c : Nat) : Nat := rFLT_SHEAF_ECC (c / 16) (c % 16)
def sheafEccAddr (c : Nat) : Nat := rFLT_SHEAF_ECC_ADDR (c / 16) (c % 16)

/-- An injected error strikes the next sheaf word a core reads (R442). -/
def strikeSheaf (c word : Nat) (s : State) : State :=
  let u := 8 + c / 16
  let k1 := u * 65536 + 0xF0 * 256 + c % 16
  let k2 := u * 65536 + 0xF1 * 256 + c % 16
  let hit (key bits : Nat) (s : State) : State :=
    updCore c (fun k => { k with sheafErr := Mp.put 0 k.sheafErr word bits })
      { s with inj := Mp.upd 0 s.inj key (· - 1) }
  if Mp.get 0 s.inj k2 ≠ 0 then hit k2 2 s else if Mp.get 0 s.inj k1 ≠ 0 then hit k1 1 s else s

/-- Checks the words a sheaf access reads: single-bit errors are corrected and counted, a double-bit error is reported.
False if one was uncorrectable (R94, R95). -/
def sheafScan (c off len : Nat) (s : State) : Bool × State :=
  if len = 0 then (true, s)
  else
    let s := strikeSheaf c (off / 8) s
    let bad := (coreOf s c).sheafErr.filter (fun p => decide (off / 8 ≤ p.1) && decide (8 * p.1 < off + len))
    bad.foldl (fun r p =>
      let s := fset (sheafEccAddr c) fFLT_SHEAF_ECC_ADDR_ADDR p.1 r.2
      if p.2 = 1 then
        (r.1, fcount (sheafEccReg c) fFLT_SHEAF_ECC_CE_COUNT 1
          (updCore c (fun k => { k with sheafErr := Mp.del k.sheafErr p.1 }) s))
      else
        (false, occur (8 + c / 16) 0 (c % 16) c false (fset (sheafEccReg c) fFLT_SHEAF_ECC_UE 1 s))) (true, s)

/-- Reads sheaf bytes; none if a word was uncorrectable. -/
def sheafRead (c off len : Nat) (s : State) : Option (List Byte) × State :=
  let (ok, s) := sheafScan c off len s
  (if ok then some (Mp.slice 0#8 (coreOf s c).sheaf off len) else none, s)

/-- Writes sheaf bytes: a word written only in part is read and merged (R92, R94). False if it was uncorrectable. -/
def sheafWrite (c off : Nat) (bs : List Byte) (s : State) : Bool × State :=
  if bs.isEmpty then (true, s)
  else
    let last := off + bs.length
    let (ok1, s) := if off % 8 = 0 ∧ 8 ≤ bs.length then (true, s) else sheafScan c off 1 s
    let (ok2, s) := if last % 8 = 0 ∨ off / 8 = last / 8 then (true, s) else sheafScan c last 1 s
    if ok1 && ok2 then (true, updCore c (sheafPut off bs) s) else (false, s)

end Sys2Proof.Machine
end

