-- ==== Sys2Proof/Machine/Vector.lean ====
section
/-! DEFINITION. What the vector instructions compute: groups 0x3, 0x4, 0x5 and opcodes 0x60 to 0x62
(spec/03_cores_and_instruction_set.md R77, R82 to R84; spec/02_arithmetic_and_tensor_engines.md R41 to R50, R64, R65). -/

namespace Sys2Proof.Machine

/-- What executing an instruction in its unit comes to: done, the task ended with a status and the PC, the task ended by a
fault record, or not performed and left in the queue (R85, R87, R88). -/
inductive ERes where
  | done (s : State)
  | fail (status : Nat) (s : State)
  | ended (s : State)
  | held (s : State)

/-- One element-wise operation: `f` takes the element index and the elements of a, b and c (R82). Sixteen-bit lane types
hold the even element in bits [15:0] and the odd one in bits [31:16]. -/
def lanewise (ty : Nat) (f : Nat → Nat → Nat → Nat → Nat × Flags) (a b c : List Word32) : List Word32 × Flags :=
  let rs := (a.zip (b.zip c)).mapIdx fun n p =>
    let x := p.1.toNat
    let y := p.2.1.toNat
    let z := p.2.2.toNat
    if ty = 1 ∨ ty = 2 then
      let lo := f (2 * n) (x % 65536) (y % 65536) (z % 65536)
      let hi := f (2 * n + 1) (x / 65536) (y / 65536) (z / 65536)
      (BitVec.ofNat 32 (lo.1 + 65536 * hi.1), lo.2 ||| hi.2)
    else
      let r := f n x y z
      (BitVec.ofNat 32 r.1, r.2)
  (rs.map (·.1), rs.foldl (fun a p => a ||| p.2) 0#32)

/-- The second source: V[VB], or the low half of S[VB[4:0]] in every lane (R75); bit 5 of VB is then ignored (DESIGN CHOICE; log
entry 305). -/
def srcB (k : Core) (f : FmtV) : List Word32 :=
  if f.bs then List.replicate 256 ((sget k (f.vb.setWidth 5)).setWidth 32) else vget k f.vb

/-- The engine a format-V instruction runs on. -/
def veOf (f : FmtV) : Nat := 8 + b2n f.ve

/-- Writes a vector result, its flags, and the ESEQ steps of a rounding instruction. -/
def vecDone (c : Nat) (f : FmtV) (r : List Word32 × Flags) (m : Mode) (steps : Nat) (s : State) : ERes :=
  .done (updCore c (fun k => advanceSeq (veOf f) m steps (raiseFlags (veOf f) r.2 (vset f.vd r.1 k))) s)

/-- An element-wise instruction that rounds under the effective mode (R64). -/
def vecRound (op : FFmt → Rnd → Bool → Nat → Nat → Nat → Nat × Flags) (c : Nat) (w : Pre) (f : FmtV) (s : State) : ERes :=
  let k := coreOf s c
  let g := engOf k (veOf f)
  let m := effMode g w.rnd
  let ty := f.ty.toNat
  vecDone c f (lanewise ty (fun e x y z => op (tyFmt ty) (rndFor g m 0 e) (ty == 0 && ftzOf g) x y z)
    (vget k f.va) (srcB k f) (vget k f.vc)) m 1 s

/-- An element-wise instruction that does not round. -/
def vecPlain (op : FFmt → Nat → Nat → Nat → Nat × Flags) (c : Nat) (f : FmtV) (s : State) : ERes :=
  let k := coreOf s c
  vecDone c f (lanewise f.ty.toNat (fun _ x y z => op (tyFmt f.ty.toNat) x y z) (vget k f.va) (srcB k f) (vget k f.vc)) .rne 0 s

def effVadd (c : Nat) (w : Pre) (f : FmtV) : State → ERes := vecRound (fun ff r z x y _ => fpAdd ff r z x y) c w f
def effVsub (c : Nat) (w : Pre) (f : FmtV) : State → ERes := vecRound (fun ff r z x y _ => fpSub ff r z x y) c w f
def effVmul (c : Nat) (w : Pre) (f : FmtV) : State → ERes := vecRound (fun ff r z x y _ => fpMul ff r z x y) c w f
def effVfma (c : Nat) (w : Pre) (f : FmtV) : State → ERes := vecRound (fun ff r z x y v => fpFma ff r z x y v) c w f
def effVsqrt (c : Nat) (w : Pre) (f : FmtV) : State → ERes := vecRound (fun ff r z x _ _ => fpSqrt ff r z x) c w f
def effVmin (c : Nat) (f : FmtV) : State → ERes := vecPlain (fun ff x y _ => fpMinMax false ff x y) c f
def effVmax (c : Nat) (f : FmtV) : State → ERes := vecPlain (fun ff x y _ => fpMinMax true ff x y) c f

/-- The approximated functions: FP32 only, no rounding mode (R65). -/
def vecApprox (op : Bool → Nat → Nat × Flags) (c : Nat) (f : FmtV) (s : State) : ERes :=
  vecPlain (fun _ x _ _ => op (ftzOf (engOf (coreOf s c) (veOf f))) x) c f s

def effVrcp (c : Nat) (f : FmtV) : State → ERes := vecApprox fpRcp c f
def effVrsqrt (c : Nat) (f : FmtV) : State → ERes := vecApprox fpRsqrt c f
def effVexp2 (c : Nat) (f : FmtV) : State → ERes := vecApprox fpExp2 c f
def effVlog2 (c : Nat) (f : FmtV) : State → ERes := vecApprox fpLog2 c f

/-- The sign cleared; the operand passes through otherwise (R50, R77; log entry 21). -/
def effVabs (c : Nat) (f : FmtV) : State → ERes :=
  vecPlain (fun ff x _ _ => (x % 2 ^ (ff.eb + ff.mb), 0#32)) c f

/-- All ones of an element. -/
def onesOf (ff : FFmt) : Nat := 2 ^ ff.width - 1

/-- A comparison: false if either operand is NaN, which is a NaN operand consumed (R61, R82). -/
def cmpOp (test : Num → Num → Bool) (ff : FFmt) (x y : Nat) : Nat × Flags :=
  let a := ff.decode x
  let b := ff.decode y
  (if test a b then onesOf ff else 0, flIf (a.isNan || b.isNan) flNI)

def effVcmplt (c : Nat) (f : FmtV) : State → ERes := vecPlain (fun ff x y _ => cmpOp Num.lt ff x y) c f
def effVcmpeq (c : Nat) (f : FmtV) : State → ERes := vecPlain (fun ff x y _ => cmpOp Num.eq ff x y) c f
def effVsel (c : Nat) (f : FmtV) : State → ERes := vecPlain (fun _ x y z => (if z ≠ 0 then x else y, 0#32)) c f
def effVmov (c : Nat) (f : FmtV) : State → ERes := vecPlain (fun _ x _ _ => (x, 0#32)) c f

/-- An INT32 result modulo 2^32, with IOV if the exact result does not fit (R64, R77). -/
def intResult (x : Int) : Nat × Flags :=
  (wrap 32 x, flIf (decide (x < -(2 ^ 31 : Int)) || decide ((2 ^ 31 : Int) ≤ x)) flIOV)

def effViadd (c : Nat) (f : FmtV) : State → ERes := vecPlain (fun _ x y _ => intResult (sext 32 x + sext 32 y)) c f
def effVisub (c : Nat) (f : FmtV) : State → ERes := vecPlain (fun _ x y _ => intResult (sext 32 x - sext 32 y)) c f
def effVimul (c : Nat) (f : FmtV) : State → ERes := vecPlain (fun _ x y _ => intResult (sext 32 x * sext 32 y)) c f
def effVand (c : Nat) (f : FmtV) : State → ERes := vecPlain (fun _ x y _ => (x &&& y, 0#32)) c f
def effVor (c : Nat) (f : FmtV) : State → ERes := vecPlain (fun _ x y _ => (x ||| y, 0#32)) c f
def effVxor (c : Nat) (f : FmtV) : State → ERes := vecPlain (fun _ x y _ => (x ^^^ y, 0#32)) c f
def effVshl (c : Nat) (f : FmtV) : State → ERes := vecPlain (fun _ x y _ => (x * 2 ^ (y % 32) % 2 ^ 32, 0#32)) c f
def effVshr (c : Nat) (f : FmtV) : State → ERes := vecPlain (fun _ x y _ => (x / 2 ^ (y % 32), 0#32)) c f
def effVsar (c : Nat) (f : FmtV) : State → ERes :=
  vecPlain (fun _ x y _ => (wrap 32 (sext 32 x / ((2 ^ (y % 32) : Nat) : Int)), 0#32)) c f

/-- Lane n is n + S[SA][31:0]; a wrap sets IOV as any INT32 operation of R64. -/
def effViota (c : Nat) (f : FmtV) (s : State) : ERes :=
  let b := sext 32 (sget (coreOf s c) f.sa).toNat
  let rs := (List.range 256).map (fun (n : Nat) => intResult (b + (n : Int)))
  vecDone c f (rs.map (fun p => BitVec.ofNat 32 p.1), rs.foldl (fun a p => a ||| p.2) 0#32) .rne 0 s

def effVbcast (c : Nat) (f : FmtV) (s : State) : ERes :=
  vecDone c f (List.replicate 256 ((sget (coreOf s c) f.sa).setWidth 32), 0#32) .rne 0 s

/-! ## Conversions (R83) -/

/-- The number of elements a VCVT converts, by its wider format. -/
def cvtCount (a b : Elem) : Nat :=
  let w := max a.width b.width
  if w = 32 then 256 else if w = 16 then 512 else if w = 8 then 1024 else if w = 6 then 1364 else 2048

/-- One element converted: exact where the destination holds every source value, else rounded (R49, R83). -/
def cvtElemVal (src dst : Elem) (rnd : Rnd) (sat : Bool) (x : Nat) : Nat × Flags :=
  let v := src.decode x
  if exactConv src dst then
    match dst with
    | .int w => (wrap w (sext src.width x), 0#32)
    | .flt f => match v with
      | .nan => (f.nanBits, flNI)
      | y => f.result rndNear false y
  else dst.narrow rnd sat v

def effVcvt (c : Nat) (w : Pre) (f : FmtV) (s : State) : ERes :=
  let k := coreOf s c
  let g := engOf k (veOf f)
  let src := cvtElem f.fmts.toNat f.ty.toNat
  let dst := cvtElem f.fmtd.toNat f.ty.toNat
  let rounds := mayRound ⟨0x50#8, w, .v f⟩
  let m := if rounds then effMode g w.rnd else .rne
  let n := cvtCount src dst
  let es := unpackBits src.width n (lanesNat (vget k f.va))
  let rs := es.mapIdx (fun i x => cvtElemVal src dst (rndFor g m 0 i) (satOf g) x)
  vecDone c f (natLanes (packBits dst.width (rs.map (·.1))), rs.foldl (fun a p => a ||| p.2) 0#32) m 1 s

/-- Lanes 32b to 32b + 31. -/
def blockLanes (v : List Word32) (b : Nat) : List Word32 := (v.drop (32 * b)).take 32

def effVqb (c : Nat) (w : Pre) (f : FmtV) (s : State) : ERes :=
  let k := coreOf s c
  let g := engOf k (veOf f)
  let m := effMode g w.rnd
  let v := vget k f.va
  let nums (b : Nat) : List Num := (blockLanes v b).map (fun x => fmtFP32.decode x.toNat)
  let rnd (b i : Nat) : Rnd := rndFor g m 0 (32 * b + i)
  if f.fmtd = 14#4 then
    let bs := (List.range 8).map (fun b => quantEmmer (rnd b) (satOf g) (blockLanes v b) (nums b))
    vecDone c f (natLanes (packBits 144 (bs.map (·.1))), bs.foldl (fun a p => a ||| p.2) 0#32) m 1 s
  else
    let el := codeElem f.fmtd.toNat
    let bs := (List.range 8).map (fun b => quantMx el (rnd b) (satOf g) (nums b))
    let s := updCore c (sset f.sa (BitVec.ofNat 64 (packBits 8 (bs.map (·.1))))) s
    vecDone c f (natLanes (packBits el.width (bs.flatMap (fun p => p.2.1))),
      bs.foldl (fun a p => a ||| p.2.2) 0#32) m 1 s

def effVdqb (c : Nat) (f : FmtV) (s : State) : ERes :=
  let k := coreOf s c
  let x := lanesNat (vget k f.va)
  let el := codeElem f.fmts.toNat
  let scales := (sget k f.sa).toNat
  let val (n : Nat) : Num :=
    if f.fmts = 14#4 then emmerValue (x / 2 ^ (144 * (n / 32)) % 2 ^ 144) (n % 32)
    else mxValue el (scales / 2 ^ (8 * (n / 32)) % 256) (x / 2 ^ (el.width * n) % 2 ^ el.width)
  let rs := (List.range 256).map (fun n => widen32 (val n))
  vecDone c f (rs.map (fun p => BitVec.ofNat 32 p.1), rs.foldl (fun a p => a ||| p.2) 0#32) .rne 0 s

/-! ## Reductions (R84) -/

/-- One level of the pairwise tree. -/
def pairUp (op : Nat → Nat → Nat × Flags) : List Nat → List Nat × Flags
  | a :: b :: r =>
    let p := op a b
    let q := pairUp op r
    (p.1 :: q.1, p.2 ||| q.2)
  | l => (l, 0#32)

/-- Eight levels of the tree over 256 elements. -/
def treeReduce (op : Nat → Nat → Nat × Flags) (xs : List Nat) : Nat × Flags :=
  let r := (List.range 8).foldl (fun a _ =>
    let q := pairUp op a.1
    (q.1, a.2 ||| q.2)) (xs, 0#32)
  ((r.1.head?).getD 0, r.2)

/-- A reduction into lane 0; 16-bit lane types reduce the even and the odd elements as two trees. -/
def vecReduce (op : FFmt → Nat → Nat → Nat × Flags) (iop : Nat → Nat → Nat × Flags) (c : Nat) (f : FmtV) (s : State) : ERes :=
  let v := (vget (coreOf s c) f.va).map BitVec.toNat
  let ty := f.ty.toNat
  let r : Nat × Flags :=
    if ty = 1 ∨ ty = 2 then
      let lo := treeReduce (op (tyFmt ty)) (v.map (· % 65536))
      let hi := treeReduce (op (tyFmt ty)) (v.map (· / 65536))
      (lo.1 + 65536 * hi.1, lo.2 ||| hi.2)
    else treeReduce (if ty = 3 then iop else op (tyFmt ty)) v
  vecDone c f (BitVec.ofNat 32 r.1 :: List.replicate 255 0#32, r.2) .rne 0 s

/-- Signed maximum or minimum of INT32 lanes. -/
def intMinMax (isMax : Bool) (x y : Nat) : Nat × Flags :=
  (if decide (sext 32 x < sext 32 y) == isMax then y else x, 0#32)

def effVrsum (c : Nat) (f : FmtV) (s : State) : ERes :=
  vecReduce (fun ff x y => fpAdd ff rndNear (ff == fmtFP32 && ftzOf (engOf (coreOf s c) (veOf f))) x y)
    (fun x y => intResult (sext 32 x + sext 32 y)) c f s
def effVrmax (c : Nat) (f : FmtV) : State → ERes := vecReduce (fpMinMax true) (intMinMax true) c f
def effVrmin (c : Nat) (f : FmtV) : State → ERes := vecReduce (fpMinMax false) (intMinMax false) c f

/-! ## Vector memory (group 0x7) -/

/-- The sheaf or global address of a format-V memory instruction: S[SA] + IMM. -/
def vecAddr (k : Core) (f : FmtV) : Nat := wrap 64 ((sget k f.sa).toNat + sext 48 f.imm.toNat)

/-- Performs a sheaf load and hands the bytes on, or says why not. -/
def sheafLoad (c off len align : Nat) (s : State) (go : List Byte → State → ERes) : ERes :=
  match sheafCheck (coreOf s c) off len align with
  | some st => .fail st s
  | none => match sheafRead c off len s with
    | (some bs, s) => go bs s
    | (none, s) => .fail stSheafUncorrectable s

/-- Performs a sheaf store, or says why not. -/
def sheafStore (c off align : Nat) (bs : List Byte) (s : State) : ERes :=
  match sheafCheck (coreOf s c) off bs.length align with
  | some st => .fail st s
  | none => match sheafWrite c off bs s with
    | (true, s) => .done s
    | (false, s) => .fail stSheafUncorrectable s

def effVld (c : Nat) (f : FmtV) (s : State) : ERes :=
  sheafLoad c (vecAddr (coreOf s c) f) 1024 64 s fun bs s => .done (updCore c (vset f.vd (bytesWords bs)) s)

def effVst (c : Nat) (f : FmtV) (s : State) : ERes :=
  sheafStore c (vecAddr (coreOf s c) f) 64 (wordsBytes (vget (coreOf s c) f.va)) s

/-- The address of lane n of a strided access: S[SA] + n × IMM. -/
def laneAddr (k : Core) (f : FmtV) (n : Nat) : Nat := wrap 64 ((sget k f.sa).toNat + n * sext 48 f.imm.toNat)

def effVlds (c : Nat) (f : FmtV) (s : State) : ERes :=
  let k := coreOf s c
  let r := (List.range 256).foldl (fun (r : List Word32 × ERes) n => match r.2 with
    | .done s => match sheafLoad c (laneAddr k f n) 4 4 s (fun _ s => .done s) with
      | .done s' => (BitVec.ofNat 32 (leNat (Mp.slice 0#8 (coreOf s' c).sheaf (laneAddr k f n) 4)) :: r.1, .done s')
      | e => (r.1, e)
    | e => (r.1, e)) ([], .done s)
  match r.2 with
  | .done s => .done (updCore c (vset f.vd r.1.reverse) s)
  | e => e

/-- VSTS (R91): the lanes are stored in order, and those before one that fails stay stored (DESIGN CHOICE; log entry 306). -/
def effVsts (c : Nat) (f : FmtV) (s : State) : ERes :=
  let k := coreOf s c
  (vget k f.va).zipIdx.foldl (fun r p => match r with
    | .done s => sheafStore c (laneAddr k f p.2) 4 (leBytes 4 p.1.toNat) s
    | e => e) (.done s)

/-- What a core's global access comes to when it does not succeed (R87, R194, R190): a serviceable fault pre-empts the
task and the instruction is not performed; a terminal one ends it. -/
def coreAccessFail (c pc va : Nat) (a : Access) (r : VRes) (s : State) : ERes :=
  match (coreOf s c).task with
  | none => .held s
  | some (h, t, _) =>
    let tn := tenantOfGraph s h
    let q := nextFseq s
    match r with
    | .ok _ => .held s
    | .wait => .held s
    | .fault .. =>
      let tF := failStamp (.core c) s r
      .held (updCore c (fun k => { k with stop := true })
        (faultTask h t tF q (recordFail (.core c) tn va a r false h t 0 pc s)))
    | _ => .ended (failTask h t (failStatus r) q (recordFail (.core c) tn va a r false h t 0 pc s))

/-- The tenant of the task a core runs. -/
def coreTaskTenant (s : State) (c : Nat) : Nat :=
  match (coreOf s c).task with
  | some (h, _, _) => tenantOfGraph s h
  | none => 0

def effVldg (c pc : Nat) (f : FmtV) (s : State) : ERes :=
  let va := vecAddr (coreOf s c) f
  if va % 64 ≠ 0 then .fail stMisaligned s
  else match vread (.core c) (coreTaskTenant s c) va 1024 accRead s with
    | (.ok bs, s) => .done (updCore c (vset f.vd (bytesWords bs)) s)
    | (r, s) => coreAccessFail c pc va accRead r s

def effVstg (c pc : Nat) (f : FmtV) (s : State) : ERes :=
  let va := vecAddr (coreOf s c) f
  if va % 64 ≠ 0 then .fail stMisaligned s
  else match vwrite (.core c) (coreTaskTenant s c) va (wordsBytes (vget (coreOf s c) f.va)) accWrite s with
    | (.ok _, s) => .done s
    | (r, s) => coreAccessFail c pc va accWrite r s

end Sys2Proof.Machine
end

