-- ==== Sys2Proof/Machine/Tensor.lean ====
section
/-! DEFINITION. What the row-unit, tile and tensor instructions compute: opcodes 0x63 to 0x67 and groups 0x8 and 0x9
(spec/03_cores_and_instruction_set.md R77 to R81; spec/02_arithmetic_and_tensor_engines.md R51 to R59). -/

namespace Sys2Proof.Machine

/-- The tensor engine of a format-T instruction. -/
def teOf (f : FmtT) : Nat := f.ad.toNat / 2

/-- Row i of an accumulator: 128 elements. -/
def rowOf (a : List Word32) (i : Nat) : List Nat := ((a.drop (128 * i)).take 128).map BitVec.toNat

def lane (v : List Word32) (i : Nat) : Nat := ((v[i]?).getD 0#32).toNat

/-- ORs a list of flags. -/
def orFlags (l : List Flags) : Flags := l.foldl (fun a b => a ||| b) 0#32

/-- Adds values in order under RNE (R80). -/
def sumRne (ftz : Bool) : List Nat → Nat × Flags
  | [] => (0, 0#32)
  | x :: r => r.foldl (fun a y =>
      let q := fpAdd fmtFP32 rndNear ftz a.1 y
      (q.1, a.2 ||| q.2)) (x, 0#32)

/-- Maximum of values in order (R82). -/
def maxFold : List Nat → Nat × Flags
  | [] => (0, 0#32)
  | x :: r => r.foldl (fun a y =>
      let q := fpMinMax true fmtFP32 a.1 y
      (q.1, a.2 ||| q.2)) (x, 0#32)

/-- Writes lanes 0 to 63 of V[VS] from one value per row; lanes 64 to 255 are unchanged (R77). -/
def rowsToVec (c : Nat) (f : FmtT) (op : Bool → List Nat → Nat × Flags) (s : State) : ERes :=
  let k := coreOf s c
  let a := aget k f.ad
  let ftz := ftzOf (engOf k (teOf f))
  let rs := (List.range 64).map (fun i => op ftz (rowOf a i))
  let v := rs.map (fun p => BitVec.ofNat 32 p.1) ++ (vget k f.vs).drop 64
  .done (updCore c (fun k => raiseFlags (teOf f) (orFlags (rs.map (·.2))) (vset f.vs v k)) s)

def effArsum (c : Nat) (f : FmtT) : State → ERes := rowsToVec c f sumRne
def effArmax (c : Nat) (f : FmtT) : State → ERes := rowsToVec c f (fun _ l => maxFold l)

def negInf32 : Nat := 0xFF800000
def one32 : Nat := 0x3F800000
def nan32 : Nat := 0x7FC00000

/-- What one row of ASMX gives: n, α, l and the 128 converted p with flags (R79). -/
structure SmxRow where
  m : Nat
  l : Nat
  alpha : Nat
  p : List Nat
  fl : Flags

/-- One row of the online-softmax step (R79). `out` is the format p is converted to; `q` says which columns are masked. -/
def smxRow (ftz sat : Bool) (out : FFmt) (cst : Nat) (masked : Nat → Bool) (row : List Nat) (m l : Nat) : SmxRow :=
  let xs := row.mapIdx (fun j a => if masked j then (negInf32, 0#32) else fpMul fmtFP32 rndNear ftz cst a)
  let raw := row.mapIdx (fun j a => if masked j then (fpMul fmtFP32 rndNear ftz cst a).2 else 0#32)
  let fx := orFlags (xs.map (·.2)) ||| orFlags raw
  let x := xs.map (·.1)
  if x.any (fun v => (fmtFP32.decode v).isNan) then
    ⟨nan32, nan32, nan32, x.map (fun _ => out.nanBits), fx ||| flNI⟩
  else
    let n := (x.foldl (fun a y =>
      let q := fpMinMax true fmtFP32 a.1 y
      (q.1, a.2 ||| q.2)) (m, 0#32))
    if n.1 = negInf32 then ⟨n.1, l, one32, x.map (fun _ => 0), fx ||| n.2⟩
    else
      let d := fpSub fmtFP32 rndNear ftz m n.1
      let al := fpExp2 ftz d.1
      let ps := x.map (fun v =>
        let d := fpSub fmtFP32 rndNear ftz v n.1
        let e := fpExp2 ftz d.1
        let p := out.narrow rndNear sat (fmtFP32.decode e.1)
        (p.1, d.2 ||| e.2 ||| p.2))
      let sum := sumRne ftz (ps.map (fun p => (fmtFP32.result rndNear false (out.decode p.1)).1))
      let la := fpMul fmtFP32 rndNear ftz l al.1
      let l' := fpAdd fmtFP32 rndNear ftz la.1 sum.1
      ⟨n.1, l'.1, al.1, ps.map (·.1),
        fx ||| n.2 ||| d.2 ||| al.2 ||| orFlags (ps.map (·.2)) ||| sum.2 ||| la.2 ||| l'.2⟩

/-- The 8,192-byte tiles P is written as: one of E4M3, or two BF16 halves of 64 columns (R79). -/
def smxTiles (bf : Bool) (rows : List (List Nat)) : List (List Byte) :=
  if bf then
    [rows.flatMap (fun r => (r.take 64).flatMap (leBytes 2)), rows.flatMap (fun r => (r.drop 64).flatMap (leBytes 2))]
  else [rows.flatMap (fun r => r.map (BitVec.ofNat 8))]

def effAsmx (c : Nat) (f : FmtT) (s : State) : ERes :=
  let k := coreOf s c
  let g := engOf k (teOf f)
  let a := aget k f.ad
  let v := vget k f.vs
  let pos := (sget k f.sa).toNat
  let bf := f.ofmt == 6#4
  let out := if bf then fmtBF16 else fmtE4M3
  let rows := (List.range 64).map fun i =>
    smxRow (ftzOf g) (satOf g) out f.imm.toNat
      (fun j => f.mask == 1#3 && decide (pos % 2 ^ 32 + i < pos / 2 ^ 32 + j)) (rowOf a i)
      (if f.clr then negInf32 else lane v i) (if f.clr then 0 else lane v (64 + i))
  let v' := (rows.map (fun r => BitVec.ofNat 32 r.m)) ++ (rows.map (fun r => BitVec.ofNat 32 r.l))
    ++ (rows.map (fun r => BitVec.ofNat 32 r.alpha)) ++ v.drop 192
  let tiles := smxTiles bf (rows.map (·.p))
  let fin (s : State) : ERes :=
    .done (updCore c (fun k => raiseFlags (teOf f) (orFlags (rows.map (·.fl))) (vset f.vs v' k)) s)
  if f.psrc then
    match sheafStore c (sget k f.pt).toNat 64 tiles.flatten s with
    | .done s => fin s
    | e => e
  else fin (updCore c (fun k => tiles.zipIdx.foldl (fun k p => tset (f.pt.toNat % 8 + p.2) 0 p.1 k) k) s)

/-- Rewrites every row of A[AD] (ARESC, ANORM). -/
def rowScale (c : Nat) (f : FmtT) (op : Bool → List Word32 → Nat → List Nat → List (Nat × Flags)) (s : State) : ERes :=
  let k := coreOf s c
  let a := aget k f.ad
  let v := vget k f.vs
  let ftz := ftzOf (engOf k (teOf f))
  let rs := (List.range 64).flatMap (fun i => op ftz v i (rowOf a i))
  .done (updCore c (fun k => raiseFlags (teOf f) (orFlags (rs.map (·.2)))
    (aset f.ad (rs.map (fun p => BitVec.ofNat 32 p.1)) k)) s)

def effAresc (c : Nat) (f : FmtT) : State → ERes :=
  rowScale c f fun ftz v i row => row.map (fun x => fpMul fmtFP32 rndNear ftz x (lane v (128 + i)))

/-- A[i][j] × RCP(l_i); a row whose l_i is +0 is +0 throughout (R80). -/
def effAnorm (c : Nat) (f : FmtT) : State → ERes :=
  rowScale c f fun ftz v i row =>
    let l := lane v (64 + i)
    if l = 0 then row.map (fun _ => (0, 0#32))
    else
      let r := fpRcp ftz l
      row.map (fun x =>
        let p := fpMul fmtFP32 rndNear ftz x r.1
        (p.1, p.2 ||| r.2))

/-! ## Tile unit (group 0x8) -/

def effTld (c : Nat) (f : FmtT) (s : State) : ERes :=
  sheafLoad c (sget (coreOf s c) f.sa).toNat f.imm.toNat 64 s fun bs s => .done (updCore c (tset f.td.toNat 0 bs) s)

def effTst (c : Nat) (f : FmtT) (s : State) : ERes :=
  sheafStore c (sget (coreOf s c) f.sa).toNat 64 (tget (coreOf s c) f.td.toNat f.imm.toNat) s

/-- The transpose of a row-major array of elements of `sz` bytes. -/
def transposeBytes (rows cols sz : Nat) (bs : List Byte) : List Byte :=
  (List.range cols).flatMap fun j => (List.range rows).flatMap fun i => bytesAt bs ((i * cols + j) * sz) sz

def effTldt (c : Nat) (f : FmtT) (s : State) : ERes :=
  let rows := f.imm.toNat % 65536
  let cols := f.imm.toNat / 65536
  let sz := tldtSize f.ofmt.toNat
  sheafLoad c (sget (coreOf s c) f.sa).toNat (rows * cols * sz) 64 s fun bs s =>
    .done (updCore c (tset f.td.toNat 0 (transposeBytes rows cols sz bs)) s)

def effTzero (c : Nat) (f : FmtT) (s : State) : ERes :=
  .done (updCore c (tset f.td.toNat 0 (List.replicate 32768 0#8)) s)

/-! ## Tensor array (group 0x9) -/

/-- K of a pairing: that of its wider operand (R51, R53). -/
def tmmK (p q : Nat) : Nat :=
  let w := max (codeElem p).width (codeElem q).width
  if w = 16 then 64 else if w = 8 then 128 else 256

/-- The bytes of an operand of `rows` rows (or columns) of K elements, its MX scales included (R51, R78). -/
def opBytes (code rows k : Nat) : Nat :=
  if code = 14 then rows * (k / 32) * 18
  else rows * k * (codeElem code).width / 8 + (if 8 ≤ code then rows * (k / 32) else 0)

/-- The value of element k of row r of an operand held as bytes (R38, R40, R52). -/
def opValue (code kk rows : Nat) (x : Nat) (r k : Nat) : Num :=
  if code = 14 then emmerValue (x / 2 ^ (144 * (r * (kk / 32) + k / 32)) % 2 ^ 144) (k % 32)
  else
    let el := codeElem code
    let e := x / 2 ^ (el.width * (r * kk + k)) % 2 ^ el.width
    if 8 ≤ code then mxValue el (x / 2 ^ (el.width * rows * kk + 8 * (r * (kk / 32) + k / 32)) % 256) e
    else el.decode e

/-- A product; an integer zero has no sign (R57). -/
def tmmProd (isInt : Bool) (x y : Num) : Num × Bool :=
  let p := x.mul y
  match p.1 with
  | .fin n m e => if isInt && m == 0 then (.fin false 0 e, p.2) else (.fin n m e, p.2)
  | _ => p

/-- Truncates a product toward zero to a multiple of 2^q (R56). -/
def truncTo (q : Int) (x : Num) : Num :=
  match x with
  | .fin n m e => if q ≤ e then x else .fin n (m / 2 ^ (q - e).toNat) q
  | y => y

/-- The chunk sum S_c of a list of products, and its flags (R55 to R57). -/
def chunkSum (wide16 : Bool) (anyNan : Bool) (ps : List (Num × Bool)) : Num × Flags :=
  let invalid := ps.any (·.2) || (ps.any (fun p => p.1 == .inf false) && ps.any (fun p => p.1 == .inf true))
  if anyNan || invalid then (.nan, flIf anyNan flNI ||| flIf invalid flNV)
  else if ps.any (fun p => p.1 == .inf false) then (.inf false, 0#32)
  else if ps.any (fun p => p.1 == .inf true) then (.inf true, 0#32)
  else if ps.all (fun p => p.1.isZero && p.1.sign) then (.fin true 0 0, 0#32)
  else
    let xs := ps.map (·.1)
    let xs := if wide16 then (match maxLog2 xs with
        | some l => xs.map (truncTo (l - 40))
        | none => xs) else xs
    (xs.foldl (fun a x => (a.add x).1) (.fin false 0 0), 0#32)

/-- One chunk update of an accumulator element: C + S_c rounded once to FP32 (R54, R57). -/
def chunkStep (rnd : Rnd) (ftz : Bool) (cbits : Nat) (sc : Num × Flags) : Nat × Flags :=
  let cv := fmtFP32.decode cbits
  if sc.1.isNan then (nan32, sc.2 ||| flIf cv.isNan flNI)
  else if cv.isNan then (nan32, sc.2 ||| flNI)
  else
    let r := cv.add sc.1
    if r.2 then (nan32, sc.2 ||| flNV)
    else
      let q := fmtFP32.result rnd ftz r.1
      (q.1, sc.2 ||| q.2)

/-- The new value of one accumulator element of a float tile multiply. -/
def tmmElem (g : Eng) (m : Mode) (isInt wide16 : Bool) (chunk el : Nat) (ps qs : List Num) (c0 : Nat) : Nat × Flags :=
  let n := ps.length / chunk
  (List.range n).foldl (fun a t =>
    let px := (ps.drop (t * chunk)).take chunk
    let qx := (qs.drop (t * chunk)).take chunk
    let sc := chunkSum wide16 (px.any (·.isNan) || qx.any (·.isNan)) (List.zipWith (tmmProd isInt) px qx)
    let r := chunkStep (rndFor g m t el) (ftzOf g) a.1 sc
    (r.1, a.2 ||| r.2)) (c0, 0#32)

/-- The new value of one accumulator element of an INT8 tile multiply (R58). -/
def tmmInt (ps qs : List Int) (c0 : Nat) : Nat × Flags :=
  (List.range (ps.length / 32)).foldl (fun a t =>
    let sc := (List.zipWith (· * ·) ((ps.drop (32 * t)).take 32) ((qs.drop (32 * t)).take 32)).foldl (· + ·) 0
    let r := intResult (sext 32 a.1 + sc)
    (r.1, a.2 ||| r.2)) (c0, 0#32)

/-- An operand's bytes: from a tile register, or from sheaf memory (R78). -/
def tmmOperand (c : Nat) (mem : Bool) (r : BitVec 5) (len : Nat) (s : State) (go : List Byte → State → ERes) : ERes :=
  if mem then sheafLoad c (sget (coreOf s c) r).toNat len 64 s go
  else go (tget (coreOf s c) (r.toNat % 8) len) s

/-- The accumulator after a tile multiply of two operands given as bytes (R51 to R58). -/
def tmmCompute (g : Eng) (m : Mode) (pf qf : Nat) (pb qb : List Byte) (c0 : List Word32) : List (Nat × Flags) :=
  let kk := tmmK pf qf
  let px := leNat pb
  let qx := leNat qb
  if pf = 5 then
    let row (x n r : Nat) : List Int := (List.range n).map (fun k => sext 8 (x / 2 ^ (8 * (r * kk + k)) % 256))
    let ps := (List.range 64).map (row px kk)
    let qs := (List.range 128).map (row qx kk)
    (List.range 8192).map fun e =>
      tmmInt ((ps[e / 128]?).getD []) ((qs[e % 128]?).getD []) (lane c0 e)
  else
    let ps := (List.range 64).map (fun i => (List.range kk).map (opValue pf kk 64 px i))
    let qs := (List.range 128).map (fun j => (List.range kk).map (opValue qf kk 128 qx j))
    let w16 := pf = 6 ∨ pf = 7
    (List.range 8192).map fun e =>
      tmmElem g m (pf == 13) w16 (if w16 then 8 else 32) e ((ps[e / 128]?).getD []) ((qs[e % 128]?).getD []) (lane c0 e)

def effTmm (c : Nat) (w : Pre) (f : FmtT) (s : State) : ERes :=
  let pf := f.pfmt.toNat
  let qf := f.qfmt.toNat
  let kk := tmmK pf qf
  tmmOperand c f.psrc f.pt (opBytes pf 64 kk) s fun pb s =>
    tmmOperand c f.qsrc f.qt (opBytes qf 128 kk) s fun qb s =>
      let k := coreOf s c
      let g := engOf k (teOf f)
      let m := if pf = 5 then .rne else effMode g w.rnd
      let c0 := if f.clr then List.replicate 8192 0#32 else aget k f.ad
      let rs := tmmCompute g m pf qf pb qb c0
      .done (updCore c (fun k => advanceSeq (teOf f) m (if pf = 6 ∨ pf = 7 then kk / 8 else kk / 32)
        (raiseFlags (teOf f) (orFlags (rs.map (·.2))) (aset f.ad (rs.map (fun p => BitVec.ofNat 32 p.1)) k))) s)

def effAzero (c : Nat) (f : FmtT) (s : State) : ERes :=
  .done (updCore c (aset f.ad (List.replicate 8192 0#32)) s)

def effAst (c : Nat) (w : Pre) (f : FmtT) (s : State) : ERes :=
  let k := coreOf s c
  let g := engOf k (teOf f)
  let a := aget k f.ad
  let o := f.ofmt.toNat
  if o = 15 then sheafStore c (sget k f.sa).toNat 64 (wordsBytes a) s
  else
    let el := codeElem o
    let m := if o = 5 then .rne else effMode g w.rnd
    let rs := a.mapIdx (fun e x =>
      if o = 5 then intNarrow 8 rndNear (numOfInt (sext 32 x.toNat))
      else el.narrow (rndFor g m 0 e) (satOf g) (fmtFP32.decode x.toNat))
    match sheafStore c (sget k f.sa).toNat 64 (rs.flatMap (fun p => leBytes (el.width / 8) p.1)) s with
    | .done s => .done (updCore c (fun k => advanceSeq (teOf f) m 1 (raiseFlags (teOf f) (orFlags (rs.map (·.2))) k)) s)
    | e => e

def effAld (c : Nat) (f : FmtT) (s : State) : ERes :=
  sheafLoad c (sget (coreOf s c) f.sa).toNat 32768 64 s fun bs s => .done (updCore c (aset f.ad (bytesWords bs)) s)

def effArdv (c : Nat) (f : FmtT) (s : State) : ERes :=
  let k := coreOf s c
  .done (updCore c (vset f.vs (((aget k f.ad).drop (128 * f.imm.toNat)).take 256)) s)

def effAwrv (c : Nat) (f : FmtT) (s : State) : ERes :=
  let k := coreOf s c
  let a := aget k f.ad
  .done (updCore c (aset f.ad (a.take (128 * f.imm.toNat) ++ vget k f.vs ++ a.drop (128 * f.imm.toNat + 256))) s)

end Sys2Proof.Machine
end

