-- ==== Sys2Proof/Machine/Dma.lean ====
section
/-! DEFINITION. DMA descriptors, their check, the check-value unit, and the start, park and end of a transfer
(spec/06_translation_dma_and_faults.md R181 to R188, R201, R202), and event counters
(spec/03_cores_and_instruction_set.md R88). -/

namespace Sys2Proof.Machine

/-! ## Event counters (R88) -/

def evGet (k : Core) (e : Nat) : Nat := (Mp.get 0#16 k.ev e).toNat
def evSet (e v : Nat) (k : Core) : Core := { k with ev := Mp.put 0#16 k.ev e (BitVec.ofNat 16 v) }

/-- Adds to an event counter; past 65,535 the task ends with EVENT_OVERFLOW. -/
def evAdd (c pc e n : Nat) (s : State) : State :=
  let v := evGet (coreOf s c) e + n
  if 65535 < v then coreFail c stEventOverflow pc s else updCore c (evSet e v) s

/-- The signal of an instruction that completes. -/
def signalEv (c pc : Nat) (p : Pre) (s : State) : State := if p.sv then evAdd c pc p.se.toNat 1 s else s

/-! ## Descriptor fields (R181) -/

def dOp (d : List Byte) : Nat := leAt d 0 1
def dFlag (d : List Byte) (i : Nat) : Bool := bitOf (leAt d 1 1) i
def dVc (d : List Byte) : Nat := leAt d 2 1
def dRidge (d : List Byte) : Nat := leAt d 3 1
def dRemote (d : List Byte) : Nat := leAt d 4 2
def dSrc (d : List Byte) : Nat := leAt d 8 8
def dDst (d : List Byte) : Nat := leAt d 0x10 8
def dLen (d : List Byte) : Nat := leAt d 0x18 8
def dPitch (d : List Byte) : Nat := leAt d 0x20 8
def dPoly (d : List Byte) : Nat := leAt d 0x28 8
def dInit (d : List Byte) : Nat := leAt d 0x30 8
def dCtrl (d : List Byte) : Nat := leAt d 0x38 4
def dSeqBase (d : List Byte) : Nat := leAt d 0x3C 4

/-- FLAGS.CVU, SRC_REMOTE, DST_REMOTE, SHEAF_SRC, SHEAF_DST. -/
def dCvu (d : List Byte) : Bool := dFlag d 0
def dSrcRem (d : List Byte) : Bool := dFlag d 1
def dDstRem (d : List Byte) : Bool := dFlag d 2
def dSrcSheaf (d : List Byte) : Bool := dFlag d 3
def dDstSheaf (d : List Byte) : Bool := dFlag d 4

/-- ROW_BYTES and ROWS of a COPY2D. -/
def dRowBytes (d : List Byte) : Nat := dLen d % 2 ^ 32
def dRows (d : List Byte) : Nat := dLen d / 2 ^ 32

/-- The length of the stream (R182). -/
def dTotal (d : List Byte) : Nat := if dOp d = 2 then dRowBytes d * dRows d else dLen d

/-- The address of stream byte `k` at the source or at the destination (R182). -/
def dAddr (d : List Byte) (dst : Bool) (k : Nat) : Nat :=
  let base := if dst then dDst d else dSrc d
  if dOp d = 2 then
    let pitch := if dst then dPitch d / 2 ^ 32 else dPitch d % 2 ^ 32
    (base + k / dRowBytes d * pitch + k % dRowBytes d) % 2 ^ 64
  else (base + k) % 2 ^ 64

/-- The end of a sheaf range of the descriptor, 0 if its stream is empty. -/
def dEnd (d : List Byte) (dst : Bool) : Nat :=
  if dTotal d = 0 then 0
  else
    let base := if dst then dDst d else dSrc d
    if dOp d = 2 then base + (dRows d - 1) * (if dst then dPitch d / 2 ^ 32 else dPitch d % 2 ^ 32) + dRowBytes d
    else base + dLen d

/-- WIDTH, FOLD and FBLK of CVU_CTRL (R201). -/
def cvuWidth (d : List Byte) : Nat := fieldOf (dCtrl d) 0 7
def cvuFold (d : List Byte) : Nat := fieldOf (dCtrl d) 18 2
def cvuBlk (d : List Byte) : Nat := 64 * 2 ^ fieldOf (dCtrl d) 20 4

/-- The fields R183 blames, as offsets. `coreExtent` is the task's extent for a DMAQ, none for a DMA task. -/
def dBlamed (ridges : Nat) (coreExtent : Option Nat) (d : List Byte) : List Nat :=
  let op := dOp d
  let anyRem := dSrcRem d || dDstRem d
  let valid := bitOf (dRemote d) 15
  let sheaf := dSrcSheaf d || dDstSheaf d
  let chk (b : Bool) (o : Nat) : List Nat := if b then [o] else []
  chk (decide (3 < op)) 0
  ++ chk (decide (leAt d 1 1 / 32 ≠ 0) || (dSrcRem d && dDstRem d) || (anyRem && !valid)
      || (sheaf && (coreExtent.isNone || anyRem || op == 3)) || (dSrcSheaf d && op == 1)) 1
  ++ chk (decide (7 < dVc d) || (!anyRem && dVc d != 0)) 2
  ++ chk (match coreExtent with
      | some _ => dRidge d != 0
      | none => dRidge d != 0xFF && decide (ridges ≤ dRidge d)) 3
  ++ chk (bitOf (dRemote d) 14 || (valid && !anyRem)) 4
  ++ chk (leAt d 6 2 != 0) 6
  ++ chk (dSrcSheaf d && decide (coreExtent.getD 0 < dEnd d false)) 8
  ++ chk ((op == 3 && dDst d != 0) || (dDstSheaf d && decide (coreExtent.getD 0 < dEnd d true))) 0x10
  ++ chk (op != 2 && decide (2 ^ 44 < dLen d)) 0x18
  ++ chk (op != 2 && dPitch d != 0) 0x20
  ++ (if dCvu d then
        chk (decide (2 ^ min 64 (cvuWidth d) ≤ dPoly d)) 0x28
        ++ chk (decide (2 ^ min 64 (cvuWidth d) ≤ dInit d)) 0x30
        ++ chk (cvuWidth d == 0 || decide (64 < cvuWidth d) || fieldOf (dCtrl d) 7 8 != 0 || cvuFold d == 3
            || decide (6 < fieldOf (dCtrl d) 20 4) || fieldOf (dCtrl d) 24 8 != 0) 0x38
      else [])

/-! ## The check-value unit (R201, R202) -/

/-- Reverses the low `w` bits. -/
def revBits : Nat → Nat → Nat
  | 0, _ => 0
  | w + 1, x => x % 2 * 2 ^ w + revBits w (x / 2)

/-- One step of the register: bit `i` of the byte fed, from 7 down. -/
def cvuBits (w poly b : Nat) : Nat → Nat → Nat
  | 0, reg => reg
  | i + 1, reg =>
    let top := bitOf reg (w - 1)
    let r := reg * 2 % 2 ^ w
    cvuBits w poly b i (if top != bitOf b i then r ^^^ poly else r)

/-- Feeds one byte. -/
def cvuFeed (d : List Byte) (reg b : Nat) : Nat :=
  cvuBits (cvuWidth d) (dPoly d) (if bitOf (dCtrl d) 15 then revBits 8 b else b) 8 reg

/-- The bytes fed before stream byte `k`, when `k` begins a fold block. -/
def foldBytes (d : List Byte) (k : Nat) : List Byte :=
  if k % cvuBlk d ≠ 0 then []
  else if cvuFold d = 1 then leBytes 8 (dAddr d (dOp d != 3) k)
  else if cvuFold d = 2 then leBytes 4 (dSeqBase d + k / cvuBlk d)
  else []

/-- Feeds stream bytes from offset `k`. -/
def cvuStream (d : List Byte) : Nat → List Byte → Nat → Nat
  | _, [], reg => reg
  | k, b :: r, reg =>
    cvuStream d (k + 1) r (cvuFeed d ((foldBytes d k).foldl (fun a x => cvuFeed d a x.toNat) reg) b.toNat)

/-- The check value of a finished register. -/
def cvuResult (d : List Byte) (reg : Nat) : Nat :=
  let r := if bitOf (dCtrl d) 16 then revBits (cvuWidth d) reg else reg
  if bitOf (dCtrl d) 17 then r ^^^ (2 ^ cvuWidth d - 1) else r

/-! ## Transfers (R184 to R187) -/

/-- The transfer a reference names. -/
def getXfer (s : State) : XferRef → Option Xfer
  | .core c slot => (coreOf s c).xfers.find? (fun x => x.slot == slot)
  | .task h t => (taskOf s h t).bind (·.xfer)

def setXfer (r : XferRef) (x : Xfer) (s : State) : State :=
  match r with
  | .core c slot => updCore c (fun k => { k with xfers := k.xfers.map (fun y => if y.slot = slot then x else y) }) s
  | .task h t => updTask h t (fun k => { k with xfer := some x }) s

def dropXfer (r : XferRef) (s : State) : State :=
  match r with
  | .core c slot => updCore c (fun k => { k with xfers := k.xfers.filter (fun y => y.slot != slot) }) s
  | .task h t => updTask h t (fun k => { k with xfer := none }) s

/-- The ridge whose unit executes a task of another kind than CORE. -/
def taskUnitRidge (s : State) (h t : Nat) : Nat := ((taskOf s h t).map (·.unit)).getD 0

/-- The tenant, requester and time stamp of a transfer. -/
def xferTenant (s : State) : XferRef → Nat
  | .core c _ => coreTaskTenant s c
  | .task h _ => tenantOfGraph s h
def xferRq (s : State) : XferRef → Requester
  | .core c _ => .coreDma c
  | .task h t => .ridgeDma (taskUnitRidge s h t)
def xferStamp (s : State) : XferRef → Nat
  | .core c _ => stampAt s (c / 16)
  | .task h t => stampAt s (16 + taskUnitRidge s h t)

/-- Writes a completion record into a descriptor (R186). One whose write fails is dropped and recorded (R497); one whose write
is only deferred waits, and so does every later one of the same descriptor (R200). -/
def putDescRecord (w : DefRec) (s : State) : State :=
  if s.deferred.any (fun x => x.tenant == w.tenant && x.va == w.va) then { s with deferred := s.deferred ++ [w] }
  else match vwrite w.rq w.tenant w.va w.bytes accWrite s with
    | (.ok _, s) => s
    | (.wait, s) => { s with deferred := s.deferred ++ [w] }
    | (e, s) => recordFail (.recordWrite (rqRidge w.rq)) w.tenant w.va accWrite e false 0 0xFFFF 0 0 s

/-- Writes again the records that waited, in their order; those that still wait stay (R200). -/
def flushDeferred (s : State) : State := s.deferred.foldl (fun s w => putDescRecord w s) { s with deferred := [] }

/-- Whether a task's record in its descriptor still waits. -/
def recDeferred (s : State) (h t : Nat) : Bool := s.deferred.any (fun x => x.task == some (h, t))

/-- Writes a transfer's completion record into its descriptor (R186, R497). -/
def putXferRecord (r : XferRef) (x : Xfer) (s : State) : State :=
  let ok := x.st = 5 ∧ dCvu x.desc
  let bytes := xferRecord x (if ok then cvuResult x.desc x.reg else x.reg) ok
  match r with
  | .core c _ => updCore c (sheafPut (x.addr + 0x40) bytes) s
  | .task h t =>
    putDescRecord ⟨xferRq s r, tenantOfGraph s h, (x.addr + 0x40) % 2 ^ 64, bytes, some (h, t)⟩ s

/-- Stops a transfer at its oldest unretired chunk and abandons what it has issued (R187, R188). -/
def parkXfer (r : XferRef) (st fseq : Nat) (s : State) : State :=
  match getXfer s r with
  | none => s
  | some x =>
    let x := { x with st := st, next := x.chunk, issued := [], tEvent := xferStamp s r, fseq := fseq }
    putXferRecord r x (setXfer r x (cancelTags r s))

/-- Ends a transfer in DONE, ERROR or CANCELLED; it is counted no longer (R185). -/
def finishXfer (r : XferRef) (st status fseq : Nat) (s : State) : State :=
  match getXfer s r with
  | none => s
  | some x =>
    let x := { x with st := st, status := status, issued := [], tEvent := xferStamp s r, fseq := fseq }
    dropXfer r (putXferRecord r x (cancelTags r s))

/-- The graph handle and task a transfer belongs to. -/
def xferTask (s : State) : XferRef → Option (Nat × Nat)
  | .core c _ => (coreOf s c).task.map (fun p => (p.1, p.2.1))
  | .task h t => some (h, t)

/-- A terminal failure of a transfer: state ERROR, and its task ends (R197, R94). A zero FSEQ is an uncorrectable sheaf word. -/
def xferError (r : XferRef) (status fseq : Nat) (s : State) : State :=
  match getXfer s r, xferTask s r with
  | some x, some (h, t) =>
    let detail := match r, (coreOf s (match r with | .core c _ => c | .task _ _ => 0)).task with
      | .core _ _, some (_, _, rank) => if fseq = 0 then rankPc rank x.pc else fseq
      | _, _ => fseq
    failTask h t status detail (finishXfer r 6 status fseq s)
  | _, _ => s

/-- The fault record of a transfer's failed access and what follows: a serviceable fault parks it and its task (R193,
R195), a terminal one ends them (R197). -/
def xferFail (r : XferRef) (va : Nat) (a : Access) (e : VRes) (s : State) : State :=
  match getXfer s r, xferTask s r with
  | some x, some (h, t) =>
    let q := nextFseq s
    let now := failStamp (xferRq s r) s e
    let rec1 (parked : Bool) (s : State) : State :=
      recordFail (xferRq s r) (xferTenant s r) va a e parked h t x.chunk x.addr s
    match e with
    | .ok _ => s
    | .wait => s
    | .fault .. =>
      let s := parkXfer r 2 q (rec1 true s)
      match r with
      | .core _ _ => faultTask h t now q s
      | .task _ _ => unitFaultWait h t now q s
    | e => xferError r (failStatus e) q (rec1 false s)
  | _, _ => s

/-- Refuses a descriptor (R183). -/
def xferRefuse (r : XferRef) (off : Nat) (s : State) : State :=
  match getXfer s r, xferTask s r with
  | some x, some (h, t) =>
    let q := nextFseq s
    let s := faultRec { kind := 0x14, t := xferStamp s r, source := rqSource (xferRq s r), tenant := xferTenant s r,
                        unit := (match r with
                          | .core c _ => c / 16
                          | .task h t => 16 + taskUnitRidge s h t),
                        handle := h, task := t, core := rqCore (xferRq s r), detail := off, origin := x.addr } s
    xferError r stDmaError q s
  | _, _ => s

/-- Ends a transfer whose every chunk has retired; a DMAQ's signal follows its record (R186, R88). -/
def xferDone (r : XferRef) (s : State) : State :=
  match getXfer s r with
  | none => s
  | some x =>
    let s := finishXfer r 5 0 0 s
    match r, x.ent with
    | .core c _, some e => signalEv c x.pc e.w.pre s
    | .task h t, _ => updTask h t (fun k => if k.endStatus.isSome then k else { k with endStatus := some (0, 0) }) s
    | _, _ => s

/-- The lowest of a list of offsets. -/
def lowestOff (l : List Nat) : Option Nat := l.foldl (fun a x => match a with
  | none => some x
  | some y => some (min x y)) none

/-- What starting a listed transfer comes to: refused, done at once if its stream is empty, else QUEUED (R182 to R185). -/
def xferBegin (r : XferRef) (extent : Option Nat) (s : State) : State :=
  match getXfer s r with
  | none => s
  | some x =>
    match lowestOff (dBlamed (nRidges s) extent x.desc) with
    | some o => xferRefuse r o s
    | none => if dTotal x.desc = 0 then xferDone r s else s

/-- Starts the transfer of a DMAQ whose descriptor lies at a sheaf offset (R181). The status is of a descriptor that cannot
be read. -/
def dmaStart (c : Nat) (e : QEnt) (s : State) : ERes :=
  match e.w.fmt with
  | .a f =>
    let k := coreOf s c
    let off := (sget k f.sa).toNat
    match sheafCheck k off 128 64 with
    | some st => .fail st s
    | none =>
      let add (desc : List Byte) (s : State) : State × Nat :=
        let slot := ((List.range 4).find? (fun i => !(k.xfers.any (fun x => x.slot == i)))).getD 0
        let x : Xfer := ⟨slot, desc, off, e.pc.toNat, 0, 0, 0, 0, if dCvu desc then dInit desc else 0, 0, 0, 0, [], some e⟩
        (updCore c (fun k => { k with xfers := k.xfers ++ [x] }) s, slot)
      match sheafRead c off 64 s with
      | (some desc, s) =>
        let p := add desc s
        .done (xferBegin (.core c p.2) (some k.extent) p.1)
      | (none, s) =>
        let p := add [] s
        .done (xferError (.core c p.2) stSheafUncorrectable 0 p.1)
  | _ => .done s

end Sys2Proof.Machine
end

