-- ==== Sys2Proof/Machine/Packet.lean ====
section
/-! DEFINITION. Fabric packets, routing and the queues of a port's lanes
(spec/10_fabric_link_layer.md R300 to R308, R321, R323; spec/06_translation_dma_and_faults.md R179, R180). -/

namespace Sys2Proof.Machine

/-! ## Packets (R297, R300 to R302) -/

/-- A cyclic redundancy check as the check-value unit computes it (R202). -/
def crcOf (w poly init : Nat) (refl inv : Bool) (bytes : List Byte) : Nat :=
  let r := bytes.foldl (fun reg b => cvuBits w poly (if refl then revBits 8 b.toNat else b.toNat) 8 reg) init
  let r := if refl then revBits w r else r
  if inv then r ^^^ (2 ^ w - 1) else r

/-- The CRC of a packet (R301). -/
def packetCrc (bytes : List Byte) : Nat := crcOf 32 0x1EDC6F41 0xFFFFFFFF true true bytes

/-- Pads with zeros to a multiple of 8 bytes. -/
def pad8 (l : List Byte) : List Byte := l ++ List.replicate ((8 - l.length % 8) % 8) 0#8

/-- The header of a packet (R302). -/
def Pkt.header (p : Pkt) : List Byte :=
  leFields [(1, p.kind), (1, p.vc % 8 + 16 * (p.hops % 16)), (1, p.tenant), (1, p.status), (4, p.seq % 2 ^ 24), (2, p.dst),
    (2, p.src), (2, p.len), (2, p.tag), (8, p.addr), (4, p.reqId), (4, 0)]

/-- Requests and responses (R302). -/
def isRequest (kind : Nat) : Bool := kind == 1 || kind == 2 || kind == 3 || kind == 8 || kind == 0xA
def isResponse (kind : Nat) : Bool := kind == 5 || kind == 6 || kind == 9 || kind == 0xC

/-- The lane of a packet (R303). -/
def Pkt.lane (p : Pkt) : Nat := 2 * p.vc + b2n (isResponse p.kind)

/-- The bytes of a packet after its header and before its trailer. -/
def Pkt.body (p : Pkt) : List Byte := (if p.kind = 3 then pad8 p.mask else []) ++ pad8 p.data

/-- The data blocks of a packet, header and trailer included (R297, R300). -/
def Pkt.blocks (p : Pkt) : Nat := 5 + p.body.length / 8

/-- The SOP block and the data blocks of a packet (R297, R300, R301). -/
def Pkt.sop (p : Pkt) : List Byte := leFields [(1, 0x2D), (2, p.blocks), (1, p.lane), (4, 0)]
def Pkt.bytes (p : Pkt) : List Byte :=
  let b := p.header ++ p.body
  b ++ leFields [(4, packetCrc (p.sop.drop 1 ++ b)), (4, 0)]

/-- Lane bytes of a packet and the 256-byte units it takes in a receive buffer (R306, R307). -/
def Pkt.laneBytes (p : Pkt) : Nat := 8 + 8 * p.blocks
def Pkt.units (p : Pkt) : Nat := (p.laneBytes + 255) / 256

/-- The packet in the blocks received, if its CRC is good and BLOCKS and LANE agree with its header (R301). -/
def parsePkt (sop body : List Byte) : Option Pkt :=
  let n := leAt sop 1 2
  if sop.length ≠ 8 ∨ body.length ≠ 8 * n ∨ n < 5 then none
  else if leAt body (8 * n - 8) 4 ≠ packetCrc (sop.drop 1 ++ body.take (8 * n - 8)) then none
  else
    let kind := leAt body 0 1
    let len := leAt body 0xC 2
    let ml := if kind = 3 then (len + 7) / 8 else 0
    let mb := alignUp ml 8
    let hasData := kind = 2 ∨ kind = 3 ∨ kind = 5 ∨ kind = 8 ∨ kind = 9 ∨ kind = 0xA
    let dl := if hasData then len else 0
    let p : Pkt := ⟨kind, leAt body 1 1 % 8, leAt body 1 1 / 16, leAt body 2 1 % 64, leAt body 3 1, leAt body 4 4 % 2 ^ 24,
      leAt body 8 2 % 16384, leAt body 0xA 2 % 16384, len, leAt body 0xE 2 % 16384, leAt body 0x10 8, leAt body 0x18 4,
      (body.drop 32).take ml, (body.drop (32 + mb)).take dl⟩
    if 4096 < len ∨ !(isRequest kind || isResponse kind) ∨ n ≠ p.blocks ∨ leAt sop 3 1 ≠ p.lane then none else some p

/-! ## Ports and lanes -/

def portOf (s : State) (p : Nat) : Port := Mp.get {} s.ports p
def setPort (p : Nat) (x : Port) (s : State) : State := { s with ports := Mp.put {} s.ports p x }
def updPort (p : Nat) (f : Port → Port) (s : State) : State := setPort p (f (portOf s p)) s
def laneOf (s : State) (p l : Nat) : Lane := Mp.get {} (portOf s p).lanes l
def updLane (p l : Nat) (f : Lane → Lane) (s : State) : State :=
  updPort p (fun x => { x with lanes := Mp.upd {} x.lanes l f }) s

/-- The state of a port: 0 absent, 1 down, 2 training, 3 up, 4 stale, 5 test. -/
def portState (s : State) (p : Nat) : Nat := fget s (rFLK_PORT_STATUS (p / 32) (p % 32)) fFLK_PORT_STATUS_STATE
def setPortState (p v : Nat) (s : State) : State := fset (rFLK_PORT_STATUS (p / 32) (p % 32)) fFLK_PORT_STATUS_STATE v s

/-- The module identifier (R320). -/
def moduleId (s : State) : Nat := fget s rFLK_MODULE_ID fFLK_MODULE_ID_ID
def moduleIdSet (s : State) : Bool := fget s rFLK_MODULE_ID fFLK_MODULE_ID_VALID == 1

/-- The tenant a port is bound to. -/
def portTenant (s : State) (p : Nat) : Option Nat := (Mp.get {} s.portBind p).tenant

/-- The ports a route entry lists, none if it is not valid (R321). -/
def routePorts (s : State) (ridge dst : Nat) : Option (List Nat) :=
  let r := rFLK_ROUTE ridge dst
  if fget s r fFLK_ROUTE_V = 0 then none
  else some ([fget s r fFLK_ROUTE_PORT0, fget s r fFLK_ROUTE_PORT1, fget s r fFLK_ROUTE_PORT2, fget s r fFLK_ROUTE_PORT3].take
    (fget s r fFLK_ROUTE_N + 1))

/-- The flow key of a packet (R321). -/
def flowKey (p : Pkt) : Nat :=
  if p.kind = 1 ∨ p.kind = 2 ∨ p.kind = 3 then fieldOf p.addr 12 36
  else if p.kind = 0xA then p.addr % 2 ^ 32
  else if p.kind = 8 ∨ p.kind = 9 then 0 else p.reqId

/-- Where a packet goes: no valid entry, no eligible port, or a port (R321). -/
inductive Route where
  | noEntry
  | noPort
  | port (p : Nat)
  deriving DecidableEq, Repr

def routeOf (s : State) (ridge : Nat) (p : Pkt) : Route :=
  match routePorts s ridge p.dst with
  | none => .noEntry
  | some ps =>
    let el := if p.tenant = 0 then ps else ps.filter (fun q => portTenant s q == some p.tenant)
    if el = [] then .noPort
    else
      let v := crcOf 16 0x1021 0xFFFF false false
        (leFields [(2, p.src), (2, p.dst), (1, p.vc), (8, flowKey p)])
      .port ((el[v % el.length]?).getD 0)

/-- Puts a packet into the queue of its lane of a port. -/
def enqueuePkt (port : Nat) (p : Pkt) (s : State) : State :=
  updLane port p.lane (fun l => { l with wait := l.wait ++ [p] }) s

/-- VC7 carries tenant-0 management only (R308). -/
def sendVc (tenant vc : Nat) : Nat := if vc = 7 ∧ tenant ≠ 0 then 6 else vc

end Sys2Proof.Machine
end

