-- ==== Sys2Proof/Machine/Blocks.lean ====
section
/-! DEFINITION. The 66-bit blocks of a fabric port: sync headers, the scrambler of a stream, and the striping of the port's
block sequence over its active streams (spec/10_fabric_link_layer.md R295 to R297, R299), and the lanes of the UCIe module that
carry them to the engine (spec/08_die_links_and_discovery.md R259). The blocks that leave are those that
carry something, the ALIGN blocks, and the IDLE blocks that fill the periods these stand in; the further IDLE blocks, which
carry nothing and pass with time alone, are not listed (log entry 801). -/

namespace Sys2Proof.Machine

/-! ## Places of a port -/

/-- Base die, local index, Porger site and port of a module-wide port (R7). -/
def pN (p : Nat) : Nat := p / 32
def pQ (p : Nat) : Nat := p % 32
def pK (p : Nat) : Nat := p / 8
def pP (p : Nat) : Nat := p % 8

def porgerOf (s : State) (k : Nat) : Porger := Mp.get {} s.porgers k
def updPorger (k : Nat) (f : Porger → Porger) (s : State) : State := { s with porgers := Mp.upd {} s.porgers k f }

/-! ## The scrambler (R296) -/

/-- The scrambler's next output bit: bit `i` of its history `h` is the scrambled bit sent `i + 1` bits ago. -/
def scramBit (h : Nat) (x : Bool) : Bool := x ^^ (bitOf h 38 ^^ bitOf h 57)

/-- The history after one more scrambled bit. -/
def scramPush (h : Nat) (y : Bool) : Nat := (2 * h + b2n y) % 2 ^ 58

/-- Scrambles bits in transmission order by 1 + x^39 + x^58: the scrambled bits and the history after them. -/
def scramble : Nat → List Bool → List Bool × Nat
  | h, [] => ([], h)
  | h, x :: r =>
    let y := scramBit h x
    let p := scramble (scramPush h y) r
    (y :: p.1, p.2)

/-- What a receiver does: the same polynomial over the bits it receives. -/
def descramble : Nat → List Bool → List Bool × Nat
  | h, [] => ([], h)
  | h, y :: r =>
    let p := descramble (scramPush h y) r
    (scramBit h y :: p.1, p.2)

/-! ## Blocks (R295) -/

/-- The payload bits of eight bytes: bit `i` is bit (i mod 8) of byte i div 8. -/
def payloadBits (bytes : List Byte) : List Bool := bytes.flatMap (fun b => (List.range 8).map (fun i => b.toNat.testBit i))

/-- The number whose bit `i` is the bit sent `i`-th. -/
def bitsNat : List Bool → Nat
  | [] => 0
  | b :: r => b2n b + 2 * bitsNat r

/-- The sync header: 0, 1 of a data block, 1, 0 of a control block, in the order sent. -/
def syncHeader (ctl : Bool) : List Bool := [ctl, !ctl]

/-- A block of the port's sequence goes out on stream `w`, its payload scrambled and counted in the stream's BIP-8. -/
def streamBlock (w : Nat) (ctl : Bool) (bytes : List Byte) (x : Port) : (Nat × Nat × Nat) × Port :=
  let r := scramble (Mp.get 0 x.scram w) (payloadBits bytes)
  ((w, Mp.get 0 x.sent w, bitsNat (syncHeader ctl ++ r.1)),
   { x with sent := Mp.upd 0 x.sent w (· + 66), scram := Mp.put 0 x.scram w r.2, bip := Mp.upd 0 x.bip w (fun v => bytes.foldl (fun v b => v ^^^ b.toNat) v) })

/-! ## Striping (R299) -/

/-- The active streams in increasing logical number. -/
def activeStreams (x : Port) : List Nat := (List.range 16).filter (bitOf x.active)

/-- An ALIGN block: its stream, the BIP-8 since the stream's previous ALIGN, and the marker count (R297). -/
def alignBytes (x : Port) (w : Nat) : List Byte := leFields [(1, 0x55), (1, w), (1, Mp.get 0 x.bip w), (4, x.count), (1, 0)]

/-- Every 16,384 periods every active stream sends ALIGN in one period. -/
def alignPeriod (x : Port) : List (Nat × Nat × Nat) × Port :=
  if x.place = 0 ∧ x.period % 16384 = 0 then
    let r := (activeStreams x).foldl (fun (r : List (Nat × Nat × Nat) × Port) w =>
      let o := streamBlock w true (alignBytes x w) r.2
      (r.1 ++ [o.1], { o.2 with bip := Mp.put 0 o.2.bip w 0 })) ([], x)
    (r.1, { r.2 with period := x.period + 1, count := (x.count + 1) % 2 ^ 32 })
  else ([], x)

/-- The next block of the port's sequence: in period `t` the `j`-th active stream carries block t × S + j. -/
def nextBlock (ctl : Bool) (bytes : List Byte) (x : Port) : List (Nat × Nat × Nat) × Port :=
  let a := alignPeriod x
  let ws := activeStreams a.2
  match ws[a.2.place]? with
  | none => (a.1, { a.2 with place := 0 })
  | some w =>
    let o := streamBlock w ctl bytes a.2
    let last := o.2.place + 1 = ws.length
    (a.1 ++ [o.1], { o.2 with place := if last then 0 else o.2.place + 1, period := if last then o.2.period + 1 else o.2.period })

/-- Blocks of the port's sequence, in order. -/
def nextBlocks (bs : List (Bool × List Byte)) (x : Port) : List (Nat × Nat × Nat) × Port :=
  bs.foldl (fun r b => let o := nextBlock b.1 b.2 r.2; (r.1 ++ o.1, o.2)) ([], x)

/-- The IDLE blocks that end a period begun (R297, R299). -/
def idleFill (x : Port) : List (Bool × List Byte) :=
  if x.place = 0 then [] else List.replicate ((activeStreams x).length - x.place) (true, leFields [(1, 0x1E), (7, 0)])

/-- The lane of a UCIe module and the unit interval in which bit `i` of stream `w` travels, at 16 GT/s or at 8 GT/s (R259). -/
def uciPlace (rate8 : Bool) (w i : Nat) : Nat × Nat := if rate8 then (8 * w + i % 8, i / 8) else (4 * w + i % 4, i / 4)

/-- The bits of a block that leaves, each with its lane and unit interval. -/
def uciBits (rate8 : Bool) (b : Nat × Nat × Nat) : List ((Nat × Nat) × Bool) :=
  (List.range 66).map (fun i => (uciPlace rate8 b.1 (b.2.1 + i), bitOf b.2.2 i))

/-- Whether the UCIe module of a port trained at 8 GT/s only (R259). -/
def uciRate8 (s : State) (p : Nat) : Bool := fbit s (rUCI_SITE_STATUS (p / 32) (p / 8 % 4)) fUCI_SITE_STATUS_MOD_HALF (p % 8)

/-! ## The light that carries them (R265, R278, R285, R286) -/

/-- The position in a Porger's connector that a port transmits on (R487); it receives on position 16 − p. -/
def txFibre (p : Nat) : Nat := p + 1

/-- The grid frequency of a line, in GHz. -/
def lineGHz (k : Nat) : Nat := 227300 + 200 * k

/-- The line of a wavelength index: W0 to W15 on L1 to L16, WS0 on L0 and WS1 on L17. -/
def waveLine (x : Nat) : Nat := if x < 16 then x + 1 else if x = 16 then 0 else 17

/-- The stream a spare carries, if any. -/
def spareStream (s : State) (p sp : Nat) : Option Nat :=
  let r := rPRG_WL_SUB (pK p) (pP p)
  if sp = 16 then (if fget s r fPRG_WL_SUB_SUB0_V = 1 then some (fget s r fPRG_WL_SUB_SUB0) else none)
  else (if fget s r fPRG_WL_SUB_SUB1_V = 1 then some (fget s r fPRG_WL_SUB_SUB1) else none)

/-- The spare that carries a stream. -/
def streamSpare (s : State) (p w : Nat) : Option Nat :=
  if spareStream s p 16 = some w then some 16 else if spareStream s p 17 = some w then some 17 else none

/-- Gray coding of a pair of stream bits, the first in time the more significant (R285). -/
def grayLevel : Bool → Bool → Nat
  | false, false => 0
  | false, true => 1
  | true, true => 2
  | true, false => 3

/-- The levels of consecutive stream bits. -/
def pam4Levels : List Bool → List Nat
  | a :: b :: r => grayLevel a b :: pam4Levels r
  | _ => []

/-- The DAC code of a level of a reach port (R286). -/
def levelCode (s : State) (p level : Nat) : Nat := fieldOf (regVal s (rPRG_PAM4_LVL (pK p) (pP p))).toNat (8 * level) 6

/-- The light of a block: its line, its first symbol's number, and its symbols. -/
def blockLight (s : State) (p : Nat) (pam4 : Bool) (b : Nat × Nat × Nat) : Nat × Nat × List Nat :=
  let bits := (List.range 66).map (bitOf b.2.2)
  let line := lineGHz (waveLine ((streamSpare s p b.1).getD b.1))
  if pam4 then (line, b.2.1 / 2, (pam4Levels bits).map (levelCode s p)) else (line, b.2.1, bits.map b2n)

/-- Whether a port's transmitters have light: its line is lit, asleep or in TEST, and no gap or blanking darkens it (R271, R289). -/
def transmits (s : State) (p : Nat) : Bool :=
  let st := fget s (rPRG_PORT_STATUS (pK p) (pP p)) fPRG_PORT_STATUS_STATE
  decide (3 ≤ st ∧ st ≤ 5) && !(porgerOf s (pK p)).gap && !(porgerOf s (pK p)).blanked

/-- Blocks leave the link layer, and the Porger carries them unaltered as light, or loses them while it is dark (R264). -/
def emitBlocks (p : Nat) (bs : List (Bool × List Byte)) (s : State) : State :=
  let r := nextBlocks bs (portOf s p)
  let pam4 := fget s (rPRG_PORT_STATUS (pK p) (pP p)) fPRG_PORT_STATUS_PAM4 == 1
  let lit := transmits s p
  let light := r.1.map (blockLight s p pam4)
  let s := emit (.blocks p (uciRate8 s p) r.1) (setPort p r.2 s)
  if lit then emit (.light (pK p) (txFibre (pP p)) pam4 light) s else s

/-- The blocks of bytes that follow an SOP. -/
def dataBlocks (body : List Byte) : List (Bool × List Byte) :=
  (List.range (body.length / 8)).map (fun i => (false, bytesAt body (8 * i) 8))

/-- A packet leaves a lane of a port: its bytes, and the blocks that carry them (R300). -/
def sendOnLane (p l : Nat) (sop body : List Byte) (s : State) : State :=
  emitBlocks p ((true, sop) :: dataBlocks body) (emit (.fabric p l (sop ++ body)) s)

/-- A control block leaves a port, between any two blocks (R300). -/
def sendBlock (p : Nat) (bytes : List Byte) (s : State) : State := emitBlocks p [(true, bytes)] (emit (.fabric p 16 bytes) s)

/-- A control block leaves on the lowest-numbered active stream (R314, R318). -/
def sendLowest (p : Nat) (bytes : List Byte) (s : State) : State :=
  emitBlocks p (idleFill (portOf s p) ++ [(true, bytes)]) (emit (.fabric p 16 bytes) s)

end Sys2Proof.Machine
end

