-- ==== Sys2Proof/Machine/CollMsg.lean ====
section
/-! DEFINITION. Collective messages and failure notices: how they are carried and sent
(spec/07_long_sequences_and_resharding.md R203, R204, R209, R213, R215). The layout of a MSG payload is the model's own. -/

namespace Sys2Proof.Machine

/-- The participant of a ridge of this module (R204). -/
def partId (s : State) (ridge : Nat) : Nat := moduleId s * 4 + ridge

/-- A group by its GROUP_ID: its handle and definition. -/
def groupByGid (s : State) (gid : Nat) : Option (Nat × Group) := s.groups.find? (fun p => p.2.gid == gid)

/-- A message as MSG data, and back. -/
def encodeColl (m : CollMsg) : List Byte :=
  leFields [(8, m.group), (4, m.seq), (2, m.sender), (2, m.receiver), (4, m.step), (4, m.chunk), (4, m.off),
    (4, b2n m.digest.isSome), (8, m.digest.getD 0), (8, m.stamp)] ++ m.data
def decodeColl (d : List Byte) : CollMsg :=
  ⟨leAt d 0 8, leAt d 8 4, leAt d 12 2, leAt d 14 2, leAt d 16 4, leAt d 20 4, leAt d 24 4,
    if bitOf (leAt d 28 4) 0 then some (leAt d 32 8) else none, leAt d 40 8, d.drop 48⟩

/-- A notice as MSG data, marked by bit 1 of the same word, and back. -/
def encodeNotice (n : FailNotice) : List Byte :=
  leFields [(8, n.group), (4, n.seq), (2, n.sender), (2, n.receiver), (8, n.fseq), (4, n.kind), (4, 2 + 4 * b2n n.undefinedGroup),
    (8, 0), (8, 0)]
def decodeNotice (d : List Byte) : FailNotice :=
  ⟨leAt d 0 8, leAt d 8 4, leAt d 12 2, leAt d 14 2, leAt d 24 4, leAt d 16 8, bitOf (leAt d 28 4) 2⟩
def isNotice (d : List Byte) : Bool := bitOf (leAt d 28 4) 1

/-- The data bytes of one message: what a 4,096-byte packet leaves beside the message's own fields. -/
def collPiece : Nat := 4032

/-- A MSG packet to a participant of another module (R302). -/
def msgPkt (s : State) (tenant vc receiver : Nat) (data : List Byte) : Pkt :=
  ⟨0xA, sendVc tenant vc, 0, tenant, 0, 0, receiver / 4, moduleId s, data.length, 0, receiver % 4, 0, [], data⟩

/-- What sending comes to: sent, waiting for a tag or a port, or without a route. -/
inductive Sent where
  | ok (s : State)
  | wait (s : State)
  | noRoute (s : State)

/-- Whether two ridges of this module reach each other for an address (R23). -/
def ringPath (s : State) (a b addr : Nat) : Bool := ridgeServes s a && ridgeServes s b && (a == b || (dieRoute s a b addr).isSome)

/-- The address by which a message's way round the ring is chosen: where its data lies in the destination (R203; log entry 704). -/
def msgAddr (m : CollMsg) : Nat := m.chunk * 65536 + m.off

/-- Sends a message: over the bridges of this module, or over the fabric under a tag (R23, R179, R203). -/
def sendColl (ridge tenant vc : Nat) (use : TagUse) (m : CollMsg) (s : State) : Sent :=
  if m.receiver / 4 = moduleId s then
    (if ringPath s ridge (m.receiver % 4) (msgAddr m) then .ok { s with collNet := s.collNet ++ [m] } else .wait s)
  else if !tagFree s ridge (.coll ridge) tenant then .wait s
  else
    let p := msgPkt s tenant vc m.receiver (encodeColl m)
    match routeOf s ridge p with
    | .noEntry => .noRoute s
    | .noPort => .wait s
    | .port q =>
      let te := takeTag ridge ⟨0, 0, .coll ridge, tenant, use, 0, 0, false, 0, [], some p.dst, some q, false⟩ s
      .ok (enqueuePkt q { p with tag := te.1.tag, reqId := te.1.reqId } te.2)

/-- Sends a failure notice, over VC7 as tenant 0 where it leaves the module. -/
def sendNotice (ridge : Nat) (n : FailNotice) (s : State) : State :=
  let s := emit (.notice n) s
  if n.receiver / 4 = moduleId s then { s with notices := s.notices ++ [n] }
  else
    let p := msgPkt s 0 7 n.receiver (encodeNotice n)
    match routeOf s ridge p with
    | .port q => enqueuePkt q p s
    | _ => s

/-- Notes that a participant's task of a COLL_SEQ has failed: its sequence count does not pass it (R216). -/
def markFailed (gid rank seq : Nat) (s : State) : State :=
  match groupByGid s gid with
  | none => s
  | some (n, g) =>
    let old := Mp.get 0 g.failed rank
    { s with groups := Mp.ins s.groups n { g with failed := Mp.put 0 g.failed rank (if old = 0 then seq + 1 else min old (seq + 1)) } }

/-- A participant that ends other than OK tells every peer (R215). -/
def notifyPeers (ridge : Nat) (r : CollRun) (fail : Nat × Nat) (seq : Nat) (s : State) : State :=
  r.members.foldl (fun s m =>
    if m = partId s ridge then s
    else sendNotice ridge ⟨r.gid, seq, partId s ridge, m, fail.1, fail.2, false⟩ s) s

end Sys2Proof.Machine
end

