-- ==== Sys2Proof/Machine/Issue.lean ====
section
/-! DEFINITION. Issue by the scalar sequencer, the queues of the other units, and the start and completion of queued
instructions (spec/03_cores_and_instruction_set.md R68, R73, R74, R85 to R90). -/

namespace Sys2Proof.Machine

/-- What a unit's instruction does when it starts: its opcode's operation (R77). -/
def unitEffect (c pc : Nat) (e : QEnt) (s : State) : ERes :=
  let o := e.w.op.toNat
  let p := e.w.pre
  match e.w.fmt with
  | .v f =>
    if o = 0x30 then effVadd c p f s else if o = 0x31 then effVsub c p f s else if o = 0x32 then effVmul c p f s
    else if o = 0x33 then effVfma c p f s else if o = 0x34 then effVmin c f s else if o = 0x35 then effVmax c f s
    else if o = 0x36 then effVsqrt c p f s else if o = 0x37 then effVrcp c f s else if o = 0x38 then effVrsqrt c f s
    else if o = 0x39 then effVexp2 c f s else if o = 0x3A then effVlog2 c f s else if o = 0x3B then effVabs c f s
    else if o = 0x3C then effVcmplt c f s else if o = 0x3D then effVcmpeq c f s else if o = 0x3E then effVsel c f s
    else if o = 0x3F then effVmov c f s else if o = 0x40 then effViadd c f s else if o = 0x41 then effVisub c f s
    else if o = 0x42 then effVimul c f s else if o = 0x43 then effVand c f s else if o = 0x44 then effVor c f s
    else if o = 0x45 then effVxor c f s else if o = 0x46 then effVshl c f s else if o = 0x47 then effVshr c f s
    else if o = 0x48 then effVsar c f s else if o = 0x49 then effViota c f s else if o = 0x4A then effVbcast c f s
    else if o = 0x50 then effVcvt c p f s else if o = 0x51 then effVqb c p f s else if o = 0x52 then effVdqb c f s
    else if o = 0x60 then effVrsum c f s else if o = 0x61 then effVrmax c f s else if o = 0x62 then effVrmin c f s
    else if o = 0x70 then effVld c f s else if o = 0x71 then effVst c f s else if o = 0x72 then effVldg c pc f s
    else if o = 0x73 then effVstg c pc f s else if o = 0x74 then effVlds c f s else effVsts c f s
  | .t f =>
    if o = 0x63 then effArsum c f s else if o = 0x64 then effArmax c f s else if o = 0x65 then effAsmx c f s
    else if o = 0x66 then effAresc c f s else if o = 0x67 then effAnorm c f s else if o = 0x80 then effTld c f s
    else if o = 0x81 then effTst c f s else if o = 0x82 then effTldt c f s else if o = 0x83 then effTzero c f s
    else if o = 0x90 then effTmm c p f s else if o = 0x91 then effAzero c f s else if o = 0x92 then effAst c p f s
    else if o = 0x93 then effAld c f s else if o = 0x94 then effArdv c f s else effAwrv c f s
  | .a f =>
    let k := coreOf s c
    let n := f.eng.toNat
    let g := engOf k n
    if o = 0xB0 then dmaStart c e s
    else if o = 0xB1 then .done (setCore c (sset f.sd (BitVec.ofNat 64 k.xfers.length) k) s)
    else if o = 0xC0 then .done (setCore c (sset f.sd (g.acsw.setWidth 64) k) s)
    else if o = 0xC1 then .done (setCore c (setEng n { g with acsw := writeAcsw g.acsw ((sget k f.sa).setWidth 32) } k) s)
    else if o = 0xC2 then .done (setCore c (setEng n { g with seed := sget k f.sa, eseq := (sget k f.sb).setWidth 51 } k) s)
    else .done (setCore c (sset f.sd (g.eseq.setWidth 64) k) s)

/-- Whether a unit's instruction is of group 0xC. -/
def isEngCtl (e : QEnt) : Bool := decide (0xC0 ≤ e.w.op.toNat)

/-- Whether the first unstarted instruction of a unit's queue may start (R68, R85, R88). -/
def mayStart (k : Core) (u : Nat) (q : List QEnt) (e : QEnt) : Bool :=
  let earlier := (q.takeWhile (fun x => x.place != e.place)).filter (fun x => !x.done)
  !(isEngCtl e && !earlier.isEmpty) && !(earlier.any isEngCtl)
    && !((allEnts k).any (fun x => decide (x.place < e.place) && setsConflict (entSet x) (entSet e)))
    && (!e.w.pre.wv || decide (1 ≤ evGet k e.w.pre.we.toNat))
    && (u != 11 || e.w.op != 0xB0#8 || !e.pred || decide (k.xfers.length < 4))

def updQueue (u : Nat) (f : List QEnt → List QEnt) (k : Core) : Core := { k with queues := Mp.upd [] k.queues u f }

/-- Whether a unit's queue is full (R68): an instruction that executes keeps its place (log entry 301). The DMA unit holds 12
that have not started, and 16 with its transfers. -/
def queueFull (k : Core) (u : Nat) : Bool :=
  let q := Mp.get [] k.queues u
  if u = 11 then decide (12 ≤ (q.filter (fun e => !e.started)).length) || decide (16 ≤ q.length + k.xfers.length)
  else decide (unitDepth u ≤ q.length)

/-- Marks a queued instruction as started; a DMAQ that takes effect becomes a transfer and leaves the queue (R68). -/
def markStarted (u : Nat) (e : QEnt) (k : Core) : Core :=
  updQueue u (fun q =>
    if e.w.op = 0xB0#8 ∧ e.pred then q.filter (fun x => x.place != e.place)
    else q.map (fun x => if x.place = e.place then { x with started := true } else x)) k

/-- Starts the next instruction of one unit if it may start; the Bool says it did. -/
def startNext (c u : Nat) (s : State) : State × Bool :=
  let k := coreOf s c
  let q := Mp.get [] k.queues u
  match q.find? (fun x => !x.started) with
  | none => (s, false)
  | some e =>
    if k.ended || k.stop || !mayStart k u q e then (s, false)
    else
      let pc := e.pc.toNat
      let w := e.w.pre
      let s1 := if w.wv then updCore c (evSet w.we.toNat (evGet k w.we.toNat - 1)) s else s
      if e.pred then
        match unitEffect c pc e (if e.w.op = 0xB0#8 then updCore c (markStarted u e) s1 else s1) with
        | .done s => (if e.w.op = 0xB0#8 then s else updCore c (markStarted u e) s, true)
        | .fail st s => (coreFail c st pc s, true)
        | .ended s => (s, true)
        | .held s => (if w.wv then updCore c (evSet w.we.toNat (evGet k w.we.toNat)) s else s, false)
      else (updCore c (markStarted u e) s1, true)

/-- Starts what may start, unit by unit in the order of R88, until nothing more can. -/
def pumpN (c : Nat) : Nat → State → State
  | 0, s => s
  | n + 1, s =>
    let r := (List.range 12).foldl (fun (r : State × Bool) u =>
      let q := startNext c u r.1
      (q.1, r.2 || q.2)) (s, false)
    if r.2 then pumpN c n r.1 else r.1

def pump (c : Nat) (s : State) : State := pumpN c 64 s

/-! ## Issue -/

/-- The SQ of a core issues: a task runs on it and has not ended there, and neither a pre-emption nor the safe state, its base
die's own included, has stopped it (R98, R433, R436). -/
def canIssue (s : State) (c : Nat) : Bool :=
  let k := coreOf s c
  decide (c < nCores s) && k.task.isSome && !k.ended && !k.stop && !isSafe s && !(dieOf s (16 + c / 48)).localSafe

/-- The predicate register of a word as a read. -/
def predSet (w : CWord) : List Nat × List Nat := (rS w.pre.ps, [])

/-- Whether an access set must wait for a queued instruction (R85). -/
def blocked (k : Core) (x : List Nat × List Nat) : Bool := (allEnts k).any (fun e => setsConflict (entSet e) x)

/-- The outcome of the predicate (R73). -/
def predOk (k : Core) (w : CWord) : Bool := w.pre.ps == 0#5 || ((sget k w.pre.ps != 0#64) != w.pre.pn)

/-- Another instruction is in hand: a SEMACQ that waits (R87). -/
def otherInHand (k : Core) (w : CWord) : Bool :=
  match k.sem with
  | some (x, _) => x != w
  | none => false

/-- An instruction of the SQ's own: its check, its wait, its predicate, its operation, its signal (R73, R74, R85, R88).
The operation is given the address of the instruction; the PC already stands at the next one. -/
def sqRun (c : Nat) (w : CWord) (eff : Nat → State → ERes) (s : State) : State :=
  let k := coreOf s c
  let pc := k.pc.toNat
  if !canIssue s c || otherInHand k w then s
  else if !legal w then coreFail c stIllegal pc s
  else if blocked k (predSet w) || (predOk k w && blocked k (rwSet w)) then s
  else if w.pre.wv && !k.waited && evGet k w.pre.we.toNat == 0 then s
  else
    let k1 := if w.pre.wv && !k.waited then evSet w.pre.we.toNat (evGet k w.pre.we.toNat - 1) { k with waited := true } else k
    let s1 := setCore c { k1 with pc := k.pc + 16#64 } s
    let fin (s : State) : State := pump c (signalEv c pc w.pre (updCore c (fun k => { k with waited := false }) s))
    if predOk k w then
      match eff pc s1 with
      | .done s => fin s
      | .fail st s => coreFail c st pc s
      | .ended s => s
      | .held s => updCore c (fun x => { x with pc := k.pc }) s
    else fin s1

/-- An instruction of another unit: its check and its predicate, then its unit's queue (R68, R73, R74). -/
def unitIssue (c : Nat) (w : CWord) (s : State) : State :=
  let k := coreOf s c
  if !canIssue s c || otherInHand k w then s
  else if !legal w then coreFail c stIllegal k.pc.toNat s
  else match unitOf w with
    | none => s
    | some u =>
      if blocked k (predSet w) || queueFull k u then s
      else
        let e : QEnt := ⟨w, k.pc, predOk k w, k.place, false, false⟩
        pump c (setCore c { updQueue u (· ++ [e]) k with pc := k.pc + 16#64, place := k.place + 1, waited := false } s)

/-- Completes the oldest started instruction of a unit: its signal, and what may start next (R88). Units 12 to 19 are the
row units of TE0 to TE7, whose instructions complete apart from the array's and leave the queue in its order (R68). -/
def complete (c u : Nat) (s : State) : State :=
  let qi := if 12 ≤ u then u - 12 else u
  let k := coreOf s c
  let pick (e : QEnt) : Bool := e.started && !e.done && (if u < 8 then !isRow e.w.op.toNat else if 12 ≤ u then isRow e.w.op.toNat else true)
  if 20 ≤ u then s
  else match (Mp.get [] k.queues qi).find? pick with
    | none => s
    | some e =>
      pump c (signalEv c e.pc.toNat e.w.pre (setCore c (updQueue qi (fun q =>
        (q.map (fun x => if x.place = e.place then { x with done := true } else x)).dropWhile (·.done)) k) s))

/-! ## Scalar results -/

/-- The second operand of the ALU (R75). -/
def aluB (k : Core) (f : FmtA) : Word64 := if f.ib then f.imm else sget k f.sb

/-- A scalar operation on two operands. -/
def effAlu (op : Word64 → Word64 → Word64) (c : Nat) (f : FmtA) (_pc : Nat) (s : State) : ERes :=
  let k := coreOf s c
  .done (setCore c (sset f.sd (op (sget k f.sa) (aluB k f)) k) s)

/-- The target of a branch: PC + 16 × IMM (R77). -/
def branchTo (pc : Nat) (f : FmtA) : Word64 := BitVec.ofNat 64 pc + 16#64 * f.imm

def setPc (c : Nat) (v : Word64) (s : State) : State := updCore c (fun k => { k with pc := v }) s

/-- A jump taken under a condition. -/
def effJump (c : Nat) (cond : Bool) (f : FmtA) (pc : Nat) (s : State) : ERes :=
  .done (if cond then setPc c (branchTo pc f) s else s)

/-- The virtual or sheaf address of a scalar access: a + IMM. -/
def scalarAddr (k : Core) (f : FmtA) : Nat := (sget k f.sa + f.imm).toNat

/-- Whether everything issued before has completed on a core (R90). -/
def allDone (k : Core) : Bool := (allEnts k).isEmpty && k.xfers.isEmpty

/-- Whether every earlier global store and DMAQ of a core has completed (R89). -/
def storesDone (k : Core) : Bool :=
  k.xfers.isEmpty && !(allEnts k).any (fun e => e.pred && (e.w.op == 0x73#8 || e.w.op == 0xB0#8))

/-- Reads a semaphore word at the owning ridge (R89); it waits for a tag (R180). -/
def semRead (c va : Nat) (s : State) : (Nat × Nat ⊕ VRes) × State :=
  match tagPass (c / 48) (.core c) (coreTaskTenant s c) s with
  | none => (.inr .wait, s)
  | some s => match translate (.core c) (coreTaskTenant s c) va accAtomic s with
    | (.ok pa, s) => (match ownerRead (c / 48) (coreTaskTenant s c) pa 8 s with
      | (.ok bs, s) => (.inl (pa, leNat bs), s)
      | (.uncorr p, s) => (.inr (.uncorr va p), s)
      | (.lost u p, s) => (.inr (.lost u p), s))
    | (e, s) => (.inr (vresOf va e), s)

/-- Writes a semaphore word at the owning ridge, whose cache performs the operation (R89). -/
def semWrite (c va pa v : Nat) (s : State) : Option VRes × State :=
  match memWrite (paRidge pa) (coreTaskTenant s c) pa (leBytes 8 v) s with
  | (.ok _, s) => (none, s)
  | (.uncorr p, s) => (some (.uncorr va p), s)
  | (.lost u p, s) => (some (.lost u p), s)

end Sys2Proof.Machine
end

