-- ==== Sys2Proof/Machine/Sched.lean ====
section
/-! DEFINITION. The scheduler: settling of edges, readiness, placement and start, commit, pre-emption and resumption, and
the states a core passes through when its binding changes (spec/04_task_graphs_and_binding.md R101 to R139;
spec/03_cores_and_instruction_set.md R97 to R100). -/

namespace Sys2Proof.Machine

/-! ## Core binding (R132 to R134, R139) -/

/-- Notes a change of holder for apportionment (R456). -/
def noteHeld (t res tenant : Nat) (s : State) : State :=
  { s with crn := { s.crn with changes := s.crn.changes ++ [⟨t, res, tenant⟩] } }

/-- A BIND trace record (R337): resource 0 core, 1 granule, 2 port. -/
def bindRecord (res id : Nat) (old new : Option Nat) (epoch mode tb : Nat) (s : State) : State :=
  noteHeld tb (4096 * res + id) (new.getD 0) <| trace 0 64 1 ((new.or old).getD 0xFF) tb
    (leFields [(1, res), (1, 0), (2, id), (1, old.getD 0xFF), (1, new.getD 0xFF), (2, epoch), (1, mode)]) s

/-- A core enters its new binding state: EPOCH, T_bind, BIND record (R134, R139). -/
def bindDone (c : Nat) (new : Option Nat) (s : State) : State :=
  let k := coreOf s c
  let r := bindReg c
  let ep := (fget s r fTSC_CORE_BIND_EPOCH + 1) % 65536
  let tb := stampAt s (c / 16)
  let s := fset r fTSC_CORE_BIND_EPOCH ep s
  let s := match new with
    | some _ => fset r fTSC_CORE_BIND_STATE 2 s
    | none => regPut (rCLK_CORE_FREQ (c / 16) (c % 16)) 0#64
        (fset r fTSC_CORE_BIND_STATE 0 (fset r fTSC_CORE_BIND_TENANT 0 (fset r fTSC_CORE_BIND_SLEEP 1 s)))
  bindRecord 0 c k.bindOld new ep k.bindMode tb
    (setCore c { k with bindTo := none, bindOld := none, bindMode := 0, tBind := tb } s)

/-- A core whose change of binding is under way and which no task holds takes the next step (R134). -/
def bindAdvance (c : Nat) (s : State) : State :=
  let k := coreOf s c
  match k.task, k.bindTo with
  | none, some none => bindDone c none s
  | none, some (some t) =>
    if coreState s c = 1 then fset (bindReg c) fTSC_CORE_BIND_TENANT t s
    else
      let asleep := coreState s c = 0
      let s := fset (bindReg c) fTSC_CORE_BIND_STATE 1 (fset (bindReg c) fTSC_CORE_BIND_TENANT t s)
      if asleep then s else fset (bindReg c) fTSC_CORE_BIND_SLEEP 0 s
  | _, _ => s

/-- The core is woken and its sheaf memory cleared: it enters BOUND (R134). -/
def sheafCleared (c : Nat) (s : State) : State :=
  let k := coreOf s c
  if coreState s c = 1 ∧ fget s (bindReg c) fTSC_CORE_BIND_SLEEP = 0 then
    match k.bindTo with
    | some (some t) => bindDone c (some t) (setCore c { k with sheaf := [], sheafErr := [] } s)
    | _ => s
  else s

/-- Frees a core of its task. -/
def releaseCore (c : Nat) (s : State) : State :=
  bindAdvance c (updCore c (fun k => { k with
    task := none, ended := false, stop := false, saved := false, queues := [], xfers := [], waited := false, sem := none }) s)

/-! ## Tasks, edges and retirement (R108, R111, R128) -/

/-- Every task: handle, index, graph, task. -/
def allTasks (s : State) : List (Nat × Nat × Graph × Task) :=
  s.graphs.flatMap fun p => p.2.tasks.zipIdx.map fun q => (p.1, q.2, p.2, q.1)

/-- A task is resident until it is final and its final record has been written (R111). -/
def Task.resident (k : Task) : Bool := !(k.st == tsFinal && k.recWaiting == 0)

/-- The handle of the graph of an edge's predecessor (R107). -/
def edgePred (h : Nat) (e : Edge) : Nat := if e.graph = 0 then h else e.graph

def isFinal (s : State) (h t : Nat) : Bool := ((taskOf s h t).map (fun k => k.st == tsFinal)).getD true

/-- An edge is resident until its predecessor is final, a WITH edge until both its tasks are (R111). -/
def edgeResident (s : State) (h : Nat) (e : Edge) : Bool :=
  !isFinal s (edgePred h e) e.pred || (e.kind == 2 && !isFinal s h e.succ)

def tasksInUse (s : State) (tenant : Option Nat) : Nat :=
  ((allTasks s).filter (fun q => q.2.2.2.resident && (tenant.isNone || tenant == some q.2.2.1.tenant))).length

def edgesInUse (s : State) (tenant : Option Nat) : Nat :=
  (s.graphs.map (fun p => if tenant.isNone || tenant == some p.2.tenant then
    (p.2.edges.filter (edgeResident s p.1)).length else 0)).foldl (· + ·) 0

/-- The graph retires once its every task is final (R128); its record has the status and DETAIL of its lowest-indexed task that
did not end OK (R129). -/
def retireCheck (h now : Nat) (s : State) : State :=
  match graphOf s h with
  | none => s
  | some g =>
    if g.retired || !g.tasks.all (fun k => k.st == tsFinal) then s
    else
      let st := ((g.tasks.find? (fun k => k.status != 0)).map (fun k => (k.status, k.detail))).getD (0, 0)
      putRecord (graphRing g) (retireBytes g h st.1 st.2 now) none g.retireSlot
        (setGraph h { g with retired := true, retireSlot := false } s)

/-- A task becomes final: its record, its trace, its cores freed, its graph's retirement (R120, R123, R128). -/
def makeFinal (h t status detail tEvent : Nat) (s : State) : State :=
  match taskOf s h t with
  | none => s
  | some k =>
    if k.st = tsFinal then s
    else
      let fl := k.held.foldl (fun a c => a ||| coreFlags (coreOf s c)) k.flags
      let cores := k.cores
      let s := updTask h t (fun k => stopRun tEvent { k with
        st := tsFinal, status := status, detail := detail, tEvent := tEvent, flags := fl, cores := [], causes := 0,
        faults := [], savedRanks := [], waitedRanks := [], imaged := false, xfer := none, near := none,
        coll := none, bfStop := false }) s
      let s := taskRecord h t status detail tEvent cores s
      let s := traceTask h t status 3 tEvent cores s
      let s := match k.coll with
        | some r => if status = 0 then s
            else notifyPeers k.unit r (r.fail.getD (0, 0)) (leAt r.desc 8 4) (markFailed r.gid r.rank (leAt r.desc 8 4) s)
        | none => s
      retireCheck h tEvent (k.held.foldl (fun s c => releaseCore c s) s)

/-- Settles one edge whose predecessor is final (R108). -/
def settleEdge (h i : Nat) (s : State) : State :=
  match graphOf s h with
  | none => s
  | some g =>
    match g.edges[i]? with
    | none => s
    | some e =>
      if e.done || e.kind = 2 || !isFinal s (edgePred h e) e.pred then s
      else
        let st := ((taskOf s (edgePred h e) e.pred).map (·.status)).getD 0
        let s := setGraph h { g with edges := modAt g.edges i (fun e => { e with done := true }) } s
        if e.kind = 0 ∧ st ≠ 0 then makeFinal h e.succ stCancelled (edgePred h e * 65536 + e.pred) (homeStamp s h e.succ) s
        else s

/-- A task whose every AFTER edge is satisfied becomes ready; a MARKER, or a HOST_GATE released, becomes final (R108, R117). -/
def readyTask (h t : Nat) (s : State) : State :=
  match graphOf s h, taskOf s h t with
  | some g, some k =>
    let now := homeStamp s h t
    if k.st = tsPending ∧ !g.startHeld ∧ g.edges.all (fun e => e.succ != t || e.kind == 2 || e.done) then
      let s := updTask h t (fun k => { k with st := tsReady, tReady := now }) s
      if k.kind = 4 ∨ (k.kind = 5 ∧ k.gate) then makeFinal h t 0 0 now s else s
    else if k.st = tsReady ∧ k.kind = 5 ∧ k.gate then makeFinal h t 0 0 now s
    else s
  | _, _ => s

/-- One round of settling and readiness over every graph. -/
def settleRound (s : State) : State :=
  let s := s.graphs.foldl (fun s p => (List.range p.2.edges.length).foldl (fun s i => settleEdge p.1 i s) s) s
  s.graphs.foldl (fun s p => (List.range p.2.tasks.length).foldl (fun s t => readyTask p.1 t s) s) s

/-- What settling can still change: tasks that wait for edges, tasks that are not final, and edges not settled. -/
def unsettled (s : State) : Nat :=
  ((allTasks s).map (fun q => if q.2.2.2.st = tsPending then 2 else if q.2.2.2.st = tsFinal then 0 else 1)).foldl (· + ·) 0
    + (s.graphs.map (fun p => (p.2.edges.filter (fun e => !e.done)).length)).foldl (· + ·) 0

/-- Rounds until nothing more settles. -/
def settleN : Nat → State → State
  | 0, s => s
  | n + 1, s =>
    let s' := settleRound s
    if unsettled s' = unsettled s then s' else settleN n s'

def settle (s : State) : State := settleN (unsettled s + 1) s

/-! ## Ready order and placement (R114 to R117) -/

/-- The members of a task's gang in increasing index. -/
def gangMembers (g : Graph) (t : Nat) : List Nat := (gangOf g t).mergeSort (· ≤ ·)

/-- The priority of a task's gang: the highest of its members' (R109). -/
def gangPrio (g : Graph) (t : Nat) : Nat := ((gangOf g t).filterMap (fun m => (g.tasks[m]?).map Task.prio)).foldl max 0

/-- A task or gang that waits in a dispatch unit: its handle and members. -/
structure Waiting where
  handle : Nat
  members : List Nat
  tenant : Nat
  prio : Nat
  tReady : Nat
  seq : Nat
  deriving DecidableEq, Repr

/-- Whether a task waits in the ready order (R114). -/
def Task.waits (k : Task) : Bool := (k.st == tsReady && k.kind != 5) || k.st == tsPreempted

/-- The order of R114. -/
def Waiting.before (a b : Waiting) : Bool :=
  if a.prio ≠ b.prio then decide (b.prio < a.prio)
  else if a.tReady ≠ b.tReady then decide (a.tReady < b.tReady)
  else if a.seq ≠ b.seq then decide (a.seq < b.seq)
  else decide ((a.members.head?).getD 0 ≤ (b.members.head?).getD 0)

/-- The waiting task or gang led by a task, if the task is its lowest member that is not final and every such member waits
(R109; log entry 402: a final member holds no other back). -/
def waitingOf (h t : Nat) (g : Graph) : Option Waiting :=
  let ms := (gangMembers g t).filter (fun m => ((g.tasks[m]?).map (fun k => k.st != tsFinal)).getD true)
  let ks := ms.filterMap (fun m => g.tasks[m]?)
  if ms.head? = some t ∧ ks.all Task.waits ∧ ks.length = ms.length then
    some ⟨h, ms, g.tenant, gangPrio g t, (ks.map (·.tReady)).foldl max 0, g.seq⟩
  else none

/-- Everything that waits in a dispatch unit, in order (R114). -/
def waitList (s : State) (ridge : Nat) : List Waiting :=
  ((allTasks s).filterMap (fun q => if q.2.2.2.home = ridge then waitingOf q.1 q.2.1 q.2.2.1 else none)).mergeSort Waiting.before

/-- A core that may take a task of a tenant (R115): bound, idle, on a die in service and not held. -/
def coreFree (s : State) (tenant c : Nat) : Bool :=
  coreState s c == 2 && coreTenant s c == tenant && (coreOf s c).task.isNone && (coreOf s c).bindTo.isNone
    && dieOk s (c / 16) && dieOk s (16 + c / 48) && !fbit s rRST_HOLD_CD fRST_HOLD_CD_HOLD (c / 16)

/-- How far a core is for a task, by the classes of R115; none if the affinity shuts it out. -/
def coreClass (k : Task) (c : Nat) : Option Nat :=
  let d := c / 16
  let n := c / 48
  let base (r : Nat) : Nat := if n = r then 0 else if (n + r) % 2 = 1 then 1 else 2
  if k.affMode = 0 then some (1 + base k.home)
  else if k.affMode = 1 then some (1 + base k.affTarget)
  else if k.affMode = 2 then (if n = k.affTarget then some 0 else none)
  else if k.affMode = 3 then (if d = k.affTarget then some 0 else some (1 + base (k.affTarget / 3)))
  else if d = k.affTarget then some 0 else none

/-- Candidate cores in order. -/
def candidates (s : State) (free : Nat → Bool) (k : Task) : List Nat :=
  let cs := (List.range (nCores s)).filter free
  (List.range 4).flatMap (fun cl => cs.filter (fun c => coreClass k c == some cl))

/-- The ranks of a task that need a core: a resumed task leaves out those that had executed END. -/
def ranksNeeded (k : Task) : List Nat := (List.range k.nCores).filter (fun r => !k.endedRanks.contains r)

/-- Places the members of a gang in turn: for each the cores by rank, or none if one does not fit. -/
def placeAll (s : State) (free : Nat → Bool) : List (Nat × Task) → List Nat → Option (List (Nat × List Nat))
  | [], _ => some []
  | (t, k) :: r, used =>
    let cs := (candidates s (fun c => free c && !used.contains c) k).take (ranksNeeded k).length
    if cs.length < (ranksNeeded k).length then none
    else
      let byRank := (List.range k.nCores).map (fun i => match (ranksNeeded k).idxOf? i with
        | some j => (cs[j]?).getD 0xFFFF
        | none => 0xFFFF)
      match placeAll s free r (used ++ cs) with
      | none => none
      | some l => some ((t, byRank) :: l)

/-- The members of a waiting gang with their tasks. -/
def waitTasks (s : State) (w : Waiting) : List (Nat × Task) :=
  w.members.filterMap (fun m => (taskOf s w.handle m).map (fun k => (m, k)))

/-- The transfers a ridge DMA engine runs (R181: at most 64). -/
def ridgeXfers (s : State) (n : Nat) : Nat :=
  ((allTasks s).filter (fun q => q.2.2.2.kind == 1 && q.2.2.2.st == tsRunning && q.2.2.2.unit == n)).length

/-- The ring slots a start or resumption needs can be reserved (R127). -/
def slotsFree (s : State) (w : Waiting) : Bool :=
  match graphOf s w.handle with
  | none => false
  | some g => match getRing s (graphRing g) with
    | some x => ringRoom x w.members.length
    | none => false

/-- The first member of a waiting gang. -/
def headTask (s : State) (w : Waiting) : Option Task := (w.members.head?).bind (taskOf s w.handle)

/-- What can be placed now: the cores by rank of each member; a task of another kind needs none. -/
def placement (s : State) (w : Waiting) : Option (List (Nat × List Nat)) :=
  match headTask s w with
  | none => none
  | some k =>
    if !slotsFree s w || isSafe s then none
    else if k.kind ≠ 0 then
      (if k.kind = 1 ∧ 64 ≤ ridgeXfers s k.unit then none else some (w.members.map (fun m => (m, []))))
    else placeAll s (coreFree s w.tenant) (waitTasks s w) []

/-- The first of a dispatch unit's waiting list that may be placed: past one that cannot, later tasks of its tenant are
started only while backfill is allowed (R116). -/
def pickFrom (s : State) : List Waiting → List Nat → Option (Waiting × List (Nat × List Nat))
  | [], _ => none
  | w :: r, stopped =>
    let isCore := ((headTask s w).map (fun k => k.kind == 0)).getD false
    if isCore && stopped.contains w.tenant then pickFrom s r stopped
    else match placement s w with
      | some p => some (w, p)
      | none =>
        let limit0 := fget s (rTSC_SHARE_B w.tenant) fTSC_SHARE_B_BACKFILL_LIMIT == 0
        let stop := isCore && (limit0 || ((headTask s w).map (·.bfStop)).getD false)
        pickFrom s r (if stop then w.tenant :: stopped else stopped)

/-! ## Starting (R70, R105, R115) -/

/-- The scalar registers of a rank at task start (R105). -/
def startRegs (k : Task) (rank : Nat) : Mp Word64 :=
  ([(1, rank), (2, k.nCores), (3, k.arg)] ++ (List.range 8).map (fun i => (4 + i, k.argw i))).foldl
    (fun (m : Mp Word64) (p : Nat × Nat) => Mp.put 0#64 m p.1 (BitVec.ofNat 64 p.2)) []

/-- A core as a task finds it at its start (R70, R71). -/
def freshCore (k : Core) (h t rank : Nat) (x : Task) : Core :=
  { k with task := some (h, t, rank), ended := false, stop := false, saved := false, pc := BitVec.ofNat 64 x.target,
           sreg := startRegs x rank, vreg := [], treg := [], areg := [], ev := [], eng := [],
           extent := 65536 * x.extentUnits, queues := [], place := 0, waited := false, sem := none, xfers := [] }

/-- Wakes the clocks of a bound core for a task (R377). -/
def wakeCore (c : Nat) (s : State) : State := fset (bindReg c) fTSC_CORE_BIND_SLEEP 0 s

/-- Starts a CORE task on cores given by rank. -/
def startCores (h t : Nat) (cores : List Nat) (s : State) : State :=
  match taskOf s h t with
  | none => s
  | some k =>
    let now := homeStamp s h t
    let s := cores.zipIdx.foldl (fun s (p : Nat × Nat) =>
      if p.1 = 0xFFFF then s else wakeCore p.1 (setCore p.1 (freshCore (coreOf s p.1) h t p.2 k) s)) s
    traceTask h t 0 0 now cores (updTask h t (fun k => { k with
      st := tsRunning, tStart := now, runSince := some now, cores := cores, slot := true, bfStop := false }) s)

/-- Reads the 64 bytes of a DMA task's descriptor and begins its transfer (R181). While the read, or the translation that tells
the executing ridge, is only deferred, the transfer stands with no descriptor, and TAG_ACQUIRE reads again (R180, R200). -/
def readDmaDesc (h t : Nat) (s : State) : State :=
  match taskOf s h t with
  | none => s
  | some k =>
    let r : XferRef := .task h t
    if k.target % 64 ≠ 0 then xferRefuse r 0 (setXfer r ⟨0, [], k.target, 0, 0, 0, 0, 0, 0, 0, 0, 0, [], none⟩ s) else
    match vread (.ridgeDma k.unit) (tenantOfGraph s h) k.target 64 accRead s with
    | (.ok d, s) =>
      let x : Xfer := ⟨0, d, k.target, 0, 0, 0, 0, 0, if dCvu d then dInit d else 0, 0, 0, 0, [], none⟩
      if lowestOff (dBlamed (nRidges s) none d) ≠ none then xferBegin r none (setXfer r x s)
      else
        let a := if dOp d = 3 then dSrc d else dDst d
        let rem := if dOp d = 3 then dSrcRem d else dDstRem d
        let (tr, s) : Option Nat × State := if dRidge d ≠ 0xFF then (some (dRidge d), s) else if rem then (some k.home, s) else
          match translate (.ridgeDma k.home) (tenantOfGraph s h) a (if dOp d = 3 then accRead else accWrite) s with
          | (.ok pa, s) => (some (paRidge pa), s)
          | (.wait, s) => (none, s)
          | (_, s) => (some k.home, s)
        match tr with
        | none => setXfer r { x with desc := [] } s
        | some n =>
        let s := updTask h t (fun k => { k with unit := n }) (setXfer r x s)
        if ridgeServes s n then xferBegin r none s
        else
          let q := nextFseq s
          let s := faultRec { kind := 0x12, t := xferStamp s r, source := 2, tenant := tenantOfGraph s h, unit := 16 + n,
                              handle := h, task := t, origin := k.target } s
          xferError r stPathLost q s
    | (e, s) =>
      let x : Xfer := ⟨0, [], k.target, 0, 0, 0, 0, 0, 0, 0, 0, 0, [], none⟩
      xferFail r k.target accRead e (setXfer r x s)

/-- Starts a task on its executing unit, or continues it from where it parked (R117, R195). -/
def startUnit (h t : Nat) (s : State) : State :=
  match taskOf s h t with
  | none => s
  | some k =>
    let now := homeStamp s h t
    let again := k.tStart ≠ 0
    let s := updTask h t (fun k => { k with
      st := tsRunning, tStart := if again then k.tStart else now, runSince := some now, slot := true,
      faults := [], unit := if again then k.unit else k.home
      coll := k.coll.map (fun r => { r with fail := none }) }) s
    let s := traceTask h t 0 (if again then 1 else 0) now [] s
    if k.kind = 1 then
      match k.xfer with
      | some x => if x.desc = [] then readDmaDesc h t s
          else setXfer (.task h t) { x with st := 1, next := x.chunk, fseq := 0 } s
      | none => readDmaDesc h t s
    else s

/-! ## Pre-emption and context images (R97 to R100, R119, R121) -/

/-- The address of a rank's context slot and of its park area (R106, R187). -/
def slotAddr (k : Task) (rank : Nat) : Nat := (k.context + rank * (14 + k.extentUnits) * 65536) % 2 ^ 64
def parkAddr (k : Task) (rank : Nat) : Nat :=
  (slotAddr k rank + (14 + k.extentUnits) * 65536 - 1024) % 2 ^ 64

/-- The queue slots of the image in order: unit and number of slots (R99). -/
def imageSlots : List (Nat × Nat) :=
  (List.range 8).map (fun u => (u, 4)) ++ [(8, 8), (9, 8), (10, 4), (11, 12)]

/-- The unstarted instructions of a core in program order. -/
def savedEnts (k : Core) : List QEnt := ((allEnts k).filter (fun e => !e.started)).mergeSort (fun a b => decide (a.place ≤ b.place))

/-- One 64-entry view of the saved queues: each slot's instruction, if any. -/
def slotView (k : Core) : List (Option QEnt) :=
  imageSlots.flatMap fun (p : Nat × Nat) =>
    let q := (Mp.get [] k.queues p.1).filter (fun e => !e.started)
    (List.range p.2).map (fun i => q[i]?)

/-- The 8-byte slot record of a saved instruction (R99). -/
def slotRecord (k : Core) (e : QEnt) : Nat :=
  let pl := ((savedEnts k).idxOf? e).getD 0
  e.pc.toNat % 2 ^ 48 + pl % 64 * 2 ^ 48 + b2n e.pred * 2 ^ 62 + 2 ^ 63

/-- The registers and state of a context image, 0xD1000 bytes (R99); the version and the SQ status are free values. -/
def imageHead (k : Core) (version status : Nat) : List Byte :=
  let sect (n : Nat) (l : List Byte) : List Byte := (l ++ List.replicate (n - l.length) 0#8).take n
  sect 0x120 (leFields [(8, version), (8, k.pc.toNat), (8, status), (8, k.extent)]
    ++ (List.range 32).flatMap (fun i => leBytes 8 (Mp.get 0#64 k.sreg i).toNat))
  ++ sect 0x30 ((List.range 10).flatMap (fun e => leBytes 4 (engOf k e).acsw.toNat))
  ++ sect 0x50 ((List.range 10).flatMap (fun e => leBytes 8 (engOf k e).seed.toNat))
  ++ sect 0x60 ((List.range 10).flatMap (fun e => leBytes 8 (engOf k e).eseq.toNat))
  ++ sect 0x200 ((List.range 32).flatMap (fun e => leBytes 2 (evGet k e)))
  ++ sect 0x400 ((slotView k).flatMap (fun e => match e with
      | some e => leBytes 16 (encodeCore e.w).toNat
      | none => List.replicate 16 0#8))
  ++ sect 0x800 ((slotView k).flatMap (fun e => match e with
      | some e => leBytes 8 (slotRecord k e)
      | none => List.replicate 8 0#8))
  ++ wordsBytes (Mp.slice 0#32 k.vreg 0 (256 * 64)) ++ Mp.slice 0#8 k.treg 0 262144
  ++ wordsBytes (Mp.slice 0#32 k.areg 0 (8192 * 16))

/-- The queues of a restored core, from the two slot arrays of an image. -/
def imageQueues (img : List Byte) : Mp (List QEnt) :=
  let ent (i : Nat) : Option QEnt :=
    let r := leAt img (0x800 + 8 * i) 8
    if bitOf r 63 then
      (decodeCore (BitVec.ofNat 128 (leAt img (0x400 + 16 * i) 16))).map
        (fun w => ⟨w, BitVec.ofNat 64 (r % 2 ^ 48), bitOf r 62, fieldOf r 48 6, false, false⟩)
    else none
  (imageSlots.foldl (fun (a : Mp (List QEnt) × Nat) (p : Nat × Nat) =>
    (Mp.put [] a.1 p.1 ((List.range p.2).filterMap (fun i => ent (a.2 + i))), a.2 + p.2)) ([], 0)).1

/-- A park record (R187): 256 bytes, holding the descriptor as the engine read it, the chunk, BYTES_DONE, the check register and
the state, and then the place of the descriptor and the DMAQ itself; where each lies is the model's choice (log entry 601). -/
def parkRecord (x : Xfer) : List Byte :=
  (x.desc ++ List.replicate 64 0#8).take 64
  ++ leFields [(8, x.chunk), (8, x.bytesDone), (8, x.reg), (8, x.st), (8, x.addr), (8, x.pc),
    (16, (x.ent.map (fun e => (encodeCore e.w).toNat)).getD 0), (8, x.slot)]
  ++ List.replicate 120 0#8

/-- The transfer that the `i`-th park record of a park area holds, ready to go on from its chunk; none if it is unused. -/
def parkedXfer (park : List Byte) (i : Nat) : Option Xfer :=
  let b := (park.drop (256 * i)).take 256
  let c := leAt b 0x40 8
  if leAt b 0x58 8 = 0 then none
  else some ⟨i, b.take 64, leAt b 0x60 8, leAt b 0x68 8, 1, c, c, leAt b 0x48 8, leAt b 0x50 8, 0, 0, 0, [],
    (decodeCore (BitVec.ofNat 128 (leAt b 0x70 16))).map (fun w => ⟨w, BitVec.ofNat 64 (leAt b 0x68 8), true, 0, true, false⟩)⟩

/-- The 1,024 bytes of a core's park area (R187). -/
def parkArea (k : Core) : List Byte :=
  ((k.xfers.flatMap parkRecord) ++ List.replicate 1024 0#8).take 1024

/-- A core restored from an image with the park area after it (R98, R99, R187); sheaf memory above the image's extent keeps its
contents (R71). -/
def imageCore (k : Core) (h t rank : Nat) (waited : Bool) (all : List Byte) : Core :=
  let img := all.take (all.length - 1024)
  let park := all.drop (all.length - 1024)
  let words (off n : Nat) : Mp Word32 := Mp.run 0#32 0 (bytesWords ((img.drop off).take (4 * n)))
  { sheafPut 0 (img.drop 0xD1000) k with
    task := some (h, t, rank), ended := false, stop := false, saved := false
    pc := BitVec.ofNat 64 (leAt img 8 8), extent := leAt img 0x18 8
    sreg := Mp.run 0#64 0 ((List.range 32).map (fun i => BitVec.ofNat 64 (leAt img (0x20 + 8 * i) 8)))
    eng := Mp.run {} 0 ((List.range 10).map (fun e =>
      ⟨BitVec.ofNat 32 (leAt img (0x120 + 4 * e) 4), BitVec.ofNat 64 (leAt img (0x150 + 8 * e) 8),
       BitVec.ofNat 51 (leAt img (0x1A0 + 8 * e) 8)⟩))
    ev := Mp.run 0#16 0 ((List.range 32).map (fun e => BitVec.ofNat 16 (leAt img (0x200 + 2 * e) 2)))
    queues := imageQueues img, place := 64, waited := waited, sem := none
    vreg := words 0x1000 (256 * 64), treg := Mp.run 0#8 0 ((img.drop 0x11000).take 262144), areg := words 0x51000 (8192 * 16)
    xfers := (List.range 4).filterMap (parkedXfer park) }

/-- The failure of a context save ends the task with CONTEXT_LOST (R121, R198). -/
def saveFail (c h t rank : Nat) (va : Nat) (e : VRes) (s : State) : State :=
  let pa := match e with
    | .fault _ _ _ _ pa _ => pa
    | .uncorr _ pa => pa
    | .lost _ pa => pa
    | _ => 0
  let va := match e with
    | .fault v .. => v
    | .uncorr v _ => v
    | _ => va
  let s := faultRec { kind := 0x15, t := stampAt s (c / 16), va := va, pa := pa, access := 2, source := 5,
                      tenant := tenantOfGraph s h, unit := c / 16, handle := h, task := t, core := c } s
  failTask h t stContextLost (rankPc rank 0) s

/-- Every rank saved or ended: the task is in FAULT_WAIT if it met a fault, else PREEMPTED (R119, R193). A gang's member stopped
for a fault of another member met none: its record is PREEMPTED with that cause (R109; log entry 403). -/
def preemptDone (h t : Nat) (s : State) : State :=
  match taskOf s h t with
  | none => s
  | some k =>
    if k.st ≠ tsPreempting ∨ k.endStatus.isSome ∨ !(ranksNeeded k).all (fun r => k.savedRanks.contains r) then s
    else
      let now := homeStamp s h t
      let fault := !k.faults.isEmpty
      let fl := k.held.foldl (fun a c => a ||| coreFlags (coreOf s c)) k.flags
      let cores := k.cores
      let status := if fault then 0x81 else 0x80
      let detail := if fault then earliestFault k.faults else k.causes
      let s := updTask h t (fun k => stopRun now { k with
        st := if fault then tsFaultWait else tsPreempted, preempts := k.preempts + 1, tEvent := now, tReady := now,
        flags := fl, cores := [], imaged := true, savedRanks := [] }) s
      -- the record shows T_READY of the run that ends
      let s := match graphOf s h, taskOf s h t with
        | some g, some k' =>
          let s := updTask h t (fun x => { x with slot := false, causes := 0 }) s
          putRecord (graphRing g) (taskRecBytes g h t { k' with tReady := k.tReady } status detail now cores) (some (h, t)) k'.slot s
        | _, _ => s
      let s := traceTask h t status 2 now cores s
      k.held.foldl (fun s c => releaseCore c s) s

/-- A pre-emption request reaches a core: it issues nothing further and its transfers park (R98 steps 1 and 3). -/
def preemptCore (c : Nat) (s : State) : State :=
  let k := coreOf s c
  match k.task with
  | none => s
  | some (h, t, _) =>
    if ((taskOf s h t).map (·.st)) = some tsPreempting ∧ !k.ended then
      let s := setCore c { k with stop := true, sem := none } s
      k.xfers.foldl (fun s x => if x.st < 2 then parkXfer (.core c x.slot) 3 0 s else s) s
    else s

/-- Writes a core's image and park records, and reports the pre-emption (R98 steps 4 and 5, R187). A write that is only deferred
is made later (R200). -/
def saveCore (c : Nat) (s : State) : State :=
  let k := coreOf s c
  match k.task with
  | none => s
  | some (h, t, rank) =>
    match taskOf s h t with
    | none => s
    | some x =>
      if x.st ≠ tsPreempting || !k.stop || k.saved || k.ended || (allEnts k).any (·.started)
          || k.xfers.any (fun y => decide (y.st < 2)) then s
      else
        let va := slotAddr x rank
        let v := freeVal 10 s
        let st := freeVal 11 s
        let s := nextFree s
        match sheafRead c 0 k.extent s with
        | (none, s) => coreFail c stSheafUncorrectable k.pc.toNat s
        | (some sh, s) =>
          match vwrite (.save c) (tenantOfGraph s h) va (imageHead k v st ++ sh) accWrite s with
          | (.ok _, s) =>
            match vwrite (.save c) (tenantOfGraph s h) (parkAddr x rank) (parkArea k) accWrite s with
            | (.ok _, s) =>
              let s := updCore c (fun k => { k with saved := true }) s
              preemptDone h t (updTask h t (fun y => { y with
                savedRanks := y.savedRanks ++ [rank],
                waitedRanks := if k.waited then y.waitedRanks ++ [rank] else y.waitedRanks }) s)
            | (.wait, s) => s
            | (e, s) => saveFail c h t rank (parkAddr x rank) e s
          | (.wait, s) => s
          | (e, s) => saveFail c h t rank va e s

/-- The bytes of an image to read back, 0xD1000 and the extent it holds, no more than the task's own, and after them those of
the park area. -/
def restoreRank (h t rank c : Nat) (s : State) : VRes × State :=
  match taskOf s h t with
  | none => (.wait, s)
  | some x =>
    match vread (.restore c) (tenantOfGraph s h) (slotAddr x rank) 0x20 accRead s with
    | (.ok hd, s) =>
      (match vread (.restore c) (tenantOfGraph s h) (slotAddr x rank)
          (0xD1000 + min (leAt hd 0x18 8) (65536 * x.extentUnits)) accRead s with
      | (.ok img, s) => (match vread (.restore c) (tenantOfGraph s h) (parkAddr x rank) 1024 accRead s with
        | (.ok park, s) => (.ok (img ++ park), s)
        | r => r)
      | r => r)
    | r => r

/-- A fault of a context restore: the task stays out of the running set, or ends (R151, R198). -/
def restoreFail (h t c : Nat) (e : VRes) (s : State) : State :=
  match taskOf s h t with
  | none => s
  | some x =>
    let q := nextFseq s
    let s := recordFail (.restore c) (tenantOfGraph s h) x.context accRead e false h t 0 0 s
    match e with
    | .fault .. =>
      let now := homeStamp s h t
      let s := updTask h t (fun k => stopRun now { k with st := tsFaultWait, tEvent := now, faults := k.faults ++ [(now, q)] }) s
      let d := ((taskOf s h t).map (fun k => earliestFault k.faults)).getD 0
      traceTask h t 0x81 2 now [] (taskRecord h t 0x81 d now [] s)
    | .uncorr _ _ => settle (makeFinal h t stMemoryUncorrectable q (homeStamp s h t) s)
    | .lost _ _ => settle (makeFinal h t stPathLost q (homeStamp s h t) s)
    | _ => s

/-- Reads the images of a task's ranks for the cores placed for them: the cores restored, or the first failure. -/
def readImages (h t : Nat) (cores : List Nat) (s : State) : (List (Nat × Core) ⊕ (Nat × VRes)) × State :=
  let waited := ((taskOf s h t).map (·.waitedRanks)).getD []
  cores.zipIdx.foldl (fun r p =>
    match r with
    | (.inr e, s) => (.inr e, s)
    | (.inl l, s) =>
      if p.1 = 0xFFFF then (.inl l, s)
      else match restoreRank h t p.2 p.1 s with
        | (.ok img, s) => (.inl (l ++ [(p.1, imageCore (coreOf s p.1) h t p.2 (waited.contains p.2) img)]), s)
        | (e, s) => (.inr (p.1, e), s)) (.inl [], s)

/-- Puts a task whose images have been read back on its cores (R98). -/
def resumeTask (h t : Nat) (cores : List Nat) (l : List (Nat × Core)) (s : State) : State :=
  let now := homeStamp s h t
  let s := l.foldl (fun s p => wakeCore p.1 (setCore p.1 p.2 s)) s
  let s := updTask h t (fun k => { k with
    st := tsRunning, runSince := some now, cores := cores, slot := true, waitedRanks := [], faults := [],
    imaged := false, bfStop := false }) s
  (l.map (·.1)).foldl (fun s c => pump c s) (traceTask h t 0 1 now cores s)

/-- Reads the images of every pre-empted member of a gang: those of each, or the first that failed. -/
def readGang (h : Nat) : List (Nat × List Nat) → State → (List (Nat × List Nat × List (Nat × Core)) ⊕ (Nat × Nat × VRes)) × State
  | [], s => (.inl [], s)
  | (t, cores) :: r, s =>
    if ((taskOf s h t).map (·.st)) ≠ some tsPreempted then
      (match readGang h r s with
      | (.inl l, s) => (.inl ((t, cores, []) :: l), s)
      | e => e)
    else match readImages h t cores s with
      | (.inr (c, e), s) => (.inr (t, c, e), s)
      | (.inl l, s) => match readGang h r s with
        | (.inl m, s) => (.inl ((t, cores, l) :: m), s)
        | e => e

/-! ## Placing what waits (R114 to R117) -/

/-- Reserves the record slots of a number of a graph's tasks, or gives them up (R127). -/
def reserveSlots (h n : Nat) (up : Bool) (s : State) : State :=
  match graphOf s h with
  | none => s
  | some g => iter (ringReserve (graphRing g) up) n s

/-- Places the first placeable of a dispatch unit if it is new work (`fresh`) or resumed work. A gang is resumed together: none of
its members is, if the image of one cannot be read (R109, R198). -/
def dispatch (ridge : Nat) (fresh : Bool) (s : State) : State :=
  match pickFrom s (waitList s ridge) [] with
  | none => s
  | some (w, p) =>
    match headTask s w with
    | none => s
    | some k =>
      if (k.st = tsPreempted) = fresh then s
      else
        match readGang w.handle p (reserveSlots w.handle w.members.length true s) with
        | (.inr (t, c, e), s) =>
          if e = .wait then reserveSlots w.handle w.members.length false s
          else restoreFail w.handle t c e (updTask w.handle t (fun k => { k with slot := true })
            (reserveSlots w.handle (w.members.length - 1) false s))
        | (.inl l, s) =>
          l.foldl (fun s q => match taskOf s w.handle q.1 with
            | none => s
            | some x => if x.kind ≠ 0 then startUnit w.handle q.1 s
                else if x.st = tsPreempted then resumeTask w.handle q.1 q.2.1 q.2.2 s
                else startCores w.handle q.1 q.2.1 s) s

/-- The running tasks of a tenant whose gangs have lower priority, each with that priority, its start and the cores its gang gives
up: the lowest first, then the latest T_START (R109, R117). -/
def victims (s : State) (tenant prio : Nat) : List (Nat × Nat × Nat × Nat × List Nat) :=
  (((allTasks s).filter (fun q => q.2.2.1.tenant == tenant && q.2.2.2.kind == 0 && q.2.2.2.st == tsRunning
      && decide (gangPrio q.2.2.1 q.2.1 < prio))).map (fun q => (q.1, q.2.1, gangPrio q.2.2.1 q.2.1, q.2.2.2.tStart,
        (gangOf q.2.2.1 q.2.1).flatMap (fun m => ((taskOf s q.1 m).map Task.held).getD [])))).mergeSort
    (fun a b => if a.2.2.1 ≠ b.2.2.1 then decide (a.2.2.1 < b.2.2.1) else decide (b.2.2.2.1 ≤ a.2.2.2.1))

/-- Whether a gang would fit if the cores of some running tasks fell idle. -/
def wouldFit (s : State) (w : Waiting) (cs : List Nat) : Bool :=
  (placeAll s (fun c => coreFree s w.tenant c || (cs.contains c && coreTenant s c == w.tenant && (coreOf s c).bindTo.isNone))
    (waitTasks s w) []).isSome

/-- Pre-empts victims in order until the gang fits (R117). -/
def preemptFor (w : Waiting) : List (Nat × Nat × Nat × Nat × List Nat) → List Nat → State → State
  | [], _, s => s
  | v :: r, cs, s =>
    if wouldFit s w cs then s
    else preemptFor w r (cs ++ v.2.2.2.2) (preemptTask v.1 v.2.1 1 s)

/-- The cores already being given up by tasks of a tenant. -/
def leaving (s : State) (tenant : Nat) : List Nat :=
  (allTasks s).flatMap (fun q => if q.2.2.1.tenant = tenant ∧ q.2.2.2.st = tsPreempting then q.2.2.2.held else [])

/-- The first waiting gang of a tenant in a dispatch unit that cannot be placed: its backfill stops, and with PRIO_PREEMPT
running tasks of lower priority are pre-empted for it (R116, R117). -/
def backfillExpire (ridge tenant : Nat) (s : State) : State :=
  match (waitList s ridge).find? (fun w => w.tenant == tenant && ((headTask s w).map (fun k => k.kind == 0)).getD false) with
  | none => s
  | some w =>
    if (placement s w).isSome || isSafe s then s
    else
      let s := w.members.foldl (fun s m => updTask w.handle m (fun k => { k with bfStop := true }) s) s
      if fget s (rTSC_SHARE_B tenant) fTSC_SHARE_B_PRIO_PREEMPT = 1 then
        preemptFor w (victims s tenant w.prio) (leaving s tenant) s
      else s

/-! ## Commit and abort (R120, R123, R124) -/

/-- Whether a task's ending is ready to be committed: every core ended, every transfer complete, and no record of its
descriptor still to be written. -/
def commitReady (s : State) (h t : Nat) (k : Task) : Bool :=
  (k.st == tsRunning || k.st == tsPreempting) && k.endStatus.isSome && !recDeferred s h t
    && k.held.all (fun c => (coreOf s c).ended && (coreOf s c).xfers.isEmpty)

/-- The home unit commits a task that has ended (R120). -/
def commitTask (h t : Nat) (s : State) : State :=
  match taskOf s h t with
  | none => s
  | some k => match k.endStatus with
    | some (st, d) => if commitReady s h t k ∧ !isSafe s then settle (makeFinal h t st d (homeStamp s h t) s) else s
    | none => s

/-- A DISCARD unbinding stops a task, which ends UNBOUND (R132). -/
def discardTask (h t tb : Nat) (s : State) : State :=
  match taskOf s h t with
  | none => s
  | some k => settle (makeFinal h t stUnbound tb (homeStamp s h t) (k.held.foldl (fun s c => stopCore c stUnbound s) s))

end Sys2Proof.Machine
end

