-- ==== Sys2Proof/Machine/Transfer.lean ====
section
/-! DEFINITION. The requests of DMA transfers: drawing tags, translation and issue of chunks, responses, retirement
(spec/06_translation_dma_and_faults.md R179 to R188, R197). -/

namespace Sys2Proof.Machine

/-! ## Cutting a chunk into requests (R184) -/

/-- Whether an end of the transfer is a sheaf operand, in another module, or neither. -/
def dGlobal (d : List Byte) (dst : Bool) : Bool :=
  if dst then dOp d != 3 && !dDstSheaf d else dOp d != 1 && !dSrcSheaf d

/-- Bytes from stream offset `k` that one request may cover. -/
def cutLen (d : List Byte) (k stop : Nat) : Nat :=
  let row := if dOp d = 2 then dRowBytes d - k % dRowBytes d else stop - k
  let a := if dGlobal d false then 4096 - dAddr d false k % 4096 else 4096
  let b := if dGlobal d true then 4096 - dAddr d true k % 4096 else 4096
  min (stop - k) (min row (min a b))

/-- The cuts of a stretch of the stream: offset and length of each request. -/
def cuts (d : List Byte) : Nat → Nat → Nat → List (Nat × Nat)
  | 0, _, _ => []
  | f + 1, k, stop =>
    if stop ≤ k then [] else (k, cutLen d k stop) :: cuts d f (k + max 1 (cutLen d k stop)) stop

/-- The cuts of chunk `n`. -/
def chunkCuts (d : List Byte) (n : Nat) : List (Nat × Nat) :=
  cuts d 65536 (65536 * n) (min (dTotal d) (65536 * (n + 1)))

/-- Pattern bytes of a FILL from stream offset `k` (R182). -/
def patternBytes (d : List Byte) (k len : Nat) : List Byte :=
  (List.range len).map (fun i => (d.drop 8).getD ((k + i) % 8) 0#8)

/-- Translates one end of a request; an end in another module keeps its virtual address, a sheaf end has none. -/
def pieceAddr (r : XferRef) (d : List Byte) (dst : Bool) (k : Nat) (s : State) : (Option Nat ⊕ (Nat × TRes)) × State :=
  if !dGlobal d dst then (.inl none, s)
  else if (if dst then dDstRem d else dSrcRem d) then (.inl (some (dAddr d dst k)), s)
  else match translate (xferRq s r) (xferTenant s r) (dAddr d dst k) (if dst then accWrite else accRead) s with
    | (.ok pa, s) => (.inl (some pa), s)
    | (e, s) => (.inr (dAddr d dst k, e), s)

/-- Translates every page of a chunk (R184 step 1): its pieces, or the failure with its VA and whether it is at the source. -/
def buildPieces (r : XferRef) (d : List Byte) : List (Nat × Nat) → State → (List Piece ⊕ (Bool × Nat × TRes)) × State
  | [], s => (.inl [], s)
  | (k, len) :: rest, s =>
    match pieceAddr r d false k s with
    | (.inr (va, e), s) => (.inr (false, va, e), s)
    | (.inl src, s) => match pieceAddr r d true k s with
      | (.inr (va, e), s) => (.inr (true, va, e), s)
      | (.inl dst, s) => match buildPieces r d rest s with
        | (.inr x, s) => (.inr x, s)
        | (.inl l, s) => (.inl (⟨k, len, src, dst, if dGlobal d false then 0 else 2, []⟩ :: l), s)

/-- Whether a destination byte lies in the source range of the same transfer (R182). -/
def inSource (d : List Byte) (a : Nat) : Bool :=
  if dOp d = 2 then
    (List.range (dRows d)).any (fun r => let b := dSrc d + r * (dPitch d % 2 ^ 32); decide (b ≤ a ∧ a < b + dRowBytes d))
  else dOp d == 0 && decide (dSrc d ≤ a ∧ a < dSrc d + dLen d)

/-- The data a write lands: bytes where source and destination overlap are free values (R182). -/
def landData (d : List Byte) (off : Nat) (data : List Byte) (s : State) : List Byte :=
  if dSrcRem d || dDstRem d || dSrcSheaf d != dDstSheaf d then data
  else data.mapIdx (fun i b => if inSource d (dAddr d true (off + i)) then BitVec.ofNat 8 (freeVal 13 s / 256 ^ i) else b)

/-- The core a transfer's sheaf operands lie in. -/
def xferCore : XferRef → Nat
  | .core c _ => c
  | .task _ _ => 0

/-- Moves data that needs no request: the pattern of a FILL, a sheaf source, a sheaf destination. None: a sheaf word was
uncorrectable. -/
def settlePiece (r : XferRef) (d : List Byte) (p : Piece) (s : State) : Option Piece × State :=
  let c := xferCore r
  let go (p : Piece) (s : State) : Option Piece × State :=
    if dOp d = 3 then (some { p with st := 4 }, s)
    else if dDstSheaf d then
      match sheafWrite c (dAddr d true p.off) (landData d p.off p.data s) (nextFree s) with
      | (true, s) => (some { p with st := 4 }, s)
      | (false, s) => (none, s)
    else (some p, s)
  if p.st ≠ 2 then (some p, s)
  else if p.data ≠ [] then go p s
  else if dOp d = 1 then go { p with data := patternBytes d p.off p.len } s
  else match sheafRead c (dAddr d false p.off) p.len s with
    | (some bs, s) => go { p with data := bs } s
    | (none, s) => (none, s)

/-- Settles every piece of a new chunk. -/
def settlePieces (r : XferRef) (d : List Byte) : List Piece → State → Option (List Piece) × State
  | [], s => (some [], s)
  | p :: rest, s => match settlePiece r d p s with
    | (none, s) => (none, s)
    | (some p, s) => match settlePieces r d rest s with
      | (none, s) => (none, s)
      | (some l, s) => (some (p :: l), s)

/-! ## Issue -/

/-- A piece that waits for a tag: its chunk, its place in it, and the piece. -/
def nextPiece (x : Xfer) : Option (Nat × Nat × Piece) :=
  x.issued.findSome? (fun ch => (ch.pieces.zipIdx.find? (fun p => p.1.st == 0 || p.1.st == 2)).map (fun p => (ch.no, p.2, p.1)))

/-- The physical addresses of this module that a transfer's listed requests are still to read or write: translated, and not yet
complete (R171). What comes from another module is translated again before it is written. -/
def xferPas (x : Xfer) : List (Nat × Nat) :=
  x.issued.flatMap (fun ch => ch.pieces.flatMap (fun p =>
    (if p.st ≤ 1 ∧ !dSrcRem x.desc then (p.src.map (fun a => (a, p.len))).toList else [])
      ++ (if p.st ≤ 3 ∧ !dDstRem x.desc ∧ !dSrcRem x.desc then (p.dst.map (fun a => (a, p.len))).toList else [])))

/-- Every transfer of the module with its tenant. -/
def allXfers (s : State) : List (Nat × Xfer) :=
  s.cores.flatMap (fun c => c.2.xfers.map (fun x => (xferTenant s (.core c.1 x.slot), x)))
    ++ s.graphs.flatMap (fun g => g.2.tasks.filterMap (fun k => k.xfer.map (fun x => (g.2.tenant, x))))

/-- Every transaction translated into this module's memory and not complete: its tenant, its address and its length (R171, R178,
R200). -/
def underWay (s : State) : List (Nat × Nat × Nat) :=
  s.tags.flatMap (fun p => (p.2.filter (fun e => e.remote.isNone && decide (e.pa < 2 ^ 41))).map (fun e => (e.tenant, e.pa, 1)))
    ++ (allXfers s).flatMap (fun q => (xferPas q.2).map (fun a => (q.1, a.1, a.2)))

/-- Replaces a piece of a chunk. -/
def setPiece (no i : Nat) (f : Piece → Piece) (x : Xfer) : Xfer :=
  { x with issued := x.issued.map (fun ch => if ch.no = no then { ch with pieces := modAt ch.pieces i f } else ch) }

/-- The failure of a remote request: 3 XLATE parks the transfer, the others end it (R190, R323). -/
def remoteFail (r : XferRef) (va : Nat) (write : Bool) (status kind server fseq : Nat) (s : State) : State :=
  match getXfer s r, xferTask s r with
  | some x, some (h, t) =>
    let q := nextFseq s
    let now := stampAt s (16 + rqRidge (xferRq s r))
    let park := status = 3
    let k := if status = 1 then 0x10 else if status = 2 then 0x12 else kind
    let s := faultRec { kind := if park then 7 else 0x13, t := now, va := va, access := (if write then 2 else 1) + 16,
                        source := rqSource (xferRq s r), tenant := xferTenant s r, flags := b2n park,
                        unit := 16 + rqRidge (xferRq s r), handle := h, task := t, core := rqCore (xferRq s r),
                        chunk := x.chunk % 65536,
                        detail := server % 16384 + k % 65536 * 2 ^ 16 + fseq % 2 ^ 32 * 2 ^ 32, origin := x.addr } s
    if park then
      let s := parkXfer r 2 q s
      match r with
      | .core _ _ => faultTask h t now q s
      | .task _ _ => unitFaultWait h t now q s
    else xferError r stDmaError q s
  | _, _ => s

/-- The packet of a remote request (R302). -/
def remotePkt (s : State) (r : XferRef) (d : List Byte) (p : Piece) : Pkt :=
  let write := p.st == 2
  let a := (if write then p.dst else p.src).getD 0
  let whole := a % 64 = 0 ∧ p.len % 64 = 0
  let kind := if !write then 1 else if whole then 2 else 3
  ⟨kind, sendVc (xferTenant s r) (dVc d), 0, xferTenant s r, 0, 0, dRemote d % 16384, moduleId s, p.len, 0, a, 0,
    if kind = 3 then leBytes ((p.len + 7) / 8) (2 ^ p.len - 1) else [], if write then p.data else []⟩

/-- Issues one request of a transfer with a tag of its own. What came from another module is translated again before it is
written here: that answer may have taken without limit, and a change of binding waits only for what is translated (R180, R200;
log entry 602). -/
def issuePiece (r : XferRef) (no i : Nat) (p : Piece) (s : State) : State :=
  match getXfer s r with
  | none => s
  | some x =>
    let d := x.desc
    let rq := xferRq s r
    let n := rqRidge rq
    let write := p.st == 2
    let rem := if write then dDstRem d else dSrcRem d
    let e : TagEnt := ⟨0, 0, rq, xferTenant s r, .chunk r, no, i, write, (if write then p.dst else p.src).getD 0, p.data,
      if rem then some (dRemote d % 16384) else none, none, false⟩
    let mark (s : State) : State := setXfer r { setPiece no i (fun p => { p with st := p.st + 1 }) x with st := 1 } s
    if rem then
      let pkt := remotePkt s r d p
      match routeOf s n pkt with
      | .noEntry => remoteFail r e.pa write 2 0 (moduleId s) 0 s
      | .noPort => parkXfer r 4 0 s
      | .port q =>
        let te := takeTag n { e with port := some q } s
        enqueuePkt q { pkt with tag := te.1.tag, reqId := te.1.reqId } (mark te.2)
    else if write && dSrcRem d then
      (match translate rq (xferTenant s r) (dAddr d true p.off) accWrite s with
      | (.ok pa, s) => mark (takeTag n { e with pa := pa } s).2
      | (f, s) => xferFail r (dAddr d true p.off) accWrite (vresOf (dAddr d true p.off) f) s)
    else mark (takeTag n e s).2

/-- Whether an engine may issue for a transfer now: its core has not stopped, and the module is not in the safe state. -/
def xferRuns (s : State) (r : XferRef) (x : Xfer) : Bool :=
  (decide (x.st < 2) || x.st == 4) && !isSafe s && (match r with
    | .core c _ => !(coreOf s c).stop && !(coreOf s c).ended
    | .task h t => ((taskOf s h t).map (fun k => k.st == tsRunning && k.endStatus.isNone)).getD false)

/-- Translates and lists the next chunk (R184). -/
def listChunk (r : XferRef) (x : Xfer) (s : State) : State :=
  match buildPieces r x.desc (chunkCuts x.desc x.next) s with
  | (.inr (atDst, va, e), s) => xferFail r va (if atDst then accWrite else accRead) (vresOf va e) s
  | (.inl ps, s) => match settlePieces r x.desc ps s with
    | (none, s) => xferError r stSheafUncorrectable 0 s
    | (some ps, s) => setXfer r { x with st := 1, next := x.next + 1, issued := x.issued ++ [⟨x.next, ps⟩] } s

/-- Whether the sheaf accesses of a transfer's stream have all been made: its source read, its destination written. -/
def sheafDone (x : Xfer) : Bool :=
  !(dSrcSheaf x.desc || dDstSheaf x.desc)
    || (decide (dTotal x.desc ≤ x.next * 65536) && (!dDstSheaf x.desc || x.issued.all (fun ch => ch.pieces.all (fun p => p.st == 4))))

/-- A transfer that uses sheaf memory waits for the sheaf accesses of the earlier DMAQs of its core, whose transfers are listed in
program order (R86; log entry 302). -/
def sheafWaits (s : State) (r : XferRef) (x : Xfer) : Bool :=
  match r with
  | .task _ _ => false
  | .core c slot => (dSrcSheaf x.desc || dDstSheaf x.desc)
      && ((coreOf s c).xfers.takeWhile (fun y => y.slot != slot)).any (fun y => !sheafDone y)

/-- Issues the next request of a transfer, translating its next chunk first where none is waiting (R180, R184). -/
def acquireChunk (r : XferRef) (s : State) : State :=
  match getXfer s r with
  | none => s
  | some x =>
    if !xferRuns s r x then s
    else if x.desc = [] then
      match r with
      | .task h t => readDmaDesc h t s
      | .core _ _ => s
    else match nextPiece x with
      | some (no, i, p) => issuePiece r no i p s
      | none =>
        if x.next * 65536 < dTotal x.desc ∧ x.next < x.chunk + 9 ∧ !sheafWaits s r x then
          let s := listChunk r x s
          match getXfer s r with
          | none => s
          | some x => if x.st ≠ 1 then s else match nextPiece x with
            | some (no, i, p) => issuePiece r no i p s
            | none => s
        else s

/-- A requester obtains a tag of its ridge's pool (R179, R180). -/
def tagAcquire (ridge : Nat) (rq : Requester) (tenant : Nat) (use : TagUse) (s : State) : State :=
  if rqRidge rq ≠ ridge || !tagFree s ridge rq tenant then s
  else match use with
    | .chunk r => if xferRq s r = rq ∧ xferTenant s r = tenant then acquireChunk r s else s
    | .coll .. => s
    | .request pa => (takeTag ridge ⟨0, 0, rq, tenant, use, 0, 0, false, pa, [], none, none, false⟩ s).2

/-! ## Responses (R188, R302) -/

/-- A completed piece moves on, or its sheaf destination fails. -/
def pieceRead (r : XferRef) (no i : Nat) (data : List Byte) (s : State) : State :=
  match getXfer s r with
  | none => s
  | some x =>
    match (x.issued.find? (fun ch => ch.no == no)).bind (fun ch => ch.pieces[i]?) with
    | none => s
    | some p =>
      match settlePiece r x.desc { p with st := 2, data := data } s with
      | (some p, s) => (match getXfer s r with
        | some x => setXfer r (setPiece no i (fun _ => p) x) s
        | none => s)
      | (none, s) => xferError r stSheafUncorrectable 0 s

/-- The response to a request of a transfer. -/
def chunkResponse (r : XferRef) (e : TagEnt) (status kind server fseq : Nat) (data : List Byte) (s : State) : State :=
  match getXfer s r with
  | none => s
  | some x =>
    match (x.issued.find? (fun ch => ch.no == e.chunk)).bind (fun ch => ch.pieces[e.piece]?) with
    | none => s
    | some p =>
      let va := dAddr x.desc e.write p.off
      let a := if e.write then accWrite else accRead
      match e.remote with
      | some _ =>
        if status ≠ 0 then remoteFail r va e.write status kind server fseq s
        else if e.write then setXfer r (setPiece e.chunk e.piece (fun p => { p with st := 4 }) x) s
        else pieceRead r e.chunk e.piece (bytesAt data 0 p.len) s
      | none =>
        if e.write then
          match memWrite (rqRidge e.rq) e.tenant e.pa (landData x.desc p.off p.data s) (nextFree s) with
          | (.ok _, s) => setXfer r (setPiece e.chunk e.piece (fun p => { p with st := 4 }) x) s
          | (.uncorr pa, s) => xferFail r va a (.uncorr va pa) s
          | (.lost u pa, s) => xferFail r va a (.lost u pa) s
        else
          match memRead (rqRidge e.rq) e.tenant e.pa p.len s with
          | (.ok bs, s) => pieceRead r e.chunk e.piece bs s
          | (.uncorr pa, s) => xferFail r va a (.uncorr va pa) s
          | (.lost u pa, s) => xferFail r va a (.lost u pa) s

/-- Whether the response to a local request cannot come yet: the network delivers one requester's requests to one 4 KiB granule in
issue order, and an earlier one is outstanding (R24). Tags stand in the order they were drawn in. -/
def outOfOrder (s : State) (ridge : Nat) (e : TagEnt) : Bool :=
  e.remote.isNone && !e.abandoned && ((tagsOf s ridge).takeWhile (fun x => x.tag != e.tag)).any (fun x =>
    x.rq == e.rq && x.remote.isNone && !x.abandoned && x.pa / 4096 == e.pa / 4096)

/-- A response to an outstanding tag (R188): one of an abandoned request is discarded, though its write may land. Records that
waited for a tag are written once it is free (R180). -/
def transactionResponse (ridge tag status kind server fseq : Nat) (data : List Byte) (s : State) : State :=
  match (tagsOf s ridge).find? (fun e => e.tag == tag) with
  | none => s
  | some e =>
    if outOfOrder s ridge e then s else
    let s := freeTag ridge tag s
    flushDeferred <| if e.abandoned then
      if e.write && e.remote.isNone && freeVal 14 s % 2 == 1 then
        (memWrite (rqRidge e.rq) e.tenant e.pa e.data (nextFree s)).2
      else nextFree s
    else match e.use with
      | .request _ => s
      | .coll .. => s
      | .chunk r => chunkResponse r e status kind server fseq data s

/-! ## Retirement (R184) -/

/-- The oldest chunk retires once its every request has completed. -/
def chunkRetire (r : XferRef) (s : State) : State :=
  match getXfer s r with
  | none => s
  | some x =>
    match x.issued with
    | [] => s
    | ch :: rest =>
      if 2 ≤ x.st ∨ ch.no ≠ x.chunk ∨ !ch.pieces.all (fun p => p.st == 4) then s
      else
        let data := ch.pieces.flatMap (·.data)
        let reg := if dCvu x.desc then cvuStream x.desc (65536 * ch.no) data x.reg else x.reg
        let x := { x with reg := reg, chunk := x.chunk + 1, bytesDone := x.bytesDone + data.length, issued := rest }
        let s := setXfer r x s
        let s := if x.bytesDone = dTotal x.desc then xferDone r s else s
        match r with
        | .core c _ => pump c s
        | .task _ _ => s

def execTagAcquire (ridge : Nat) (rq : Requester) (tenant : Nat) (use : TagUse) (s : State) : Host.Outcome State Fault Refusal :=
  .next (tagAcquire ridge rq tenant use s)

def execTransactionResponse (ridge tag status kind server fseq : Nat) (data : List Byte) (s : State) :
    Host.Outcome State Fault Refusal :=
  .next (transactionResponse ridge tag status kind server fseq data s)

def execDmaChunkRetire (x : XferRef) (s : State) : Host.Outcome State Fault Refusal := .next (chunkRetire x s)

end Sys2Proof.Machine
end

