-- ==== Sys2Proof/Machine/Collective.lean ====
section
/-! DEFINITION. The re-shard and collective engine (spec/07_long_sequences_and_resharding.md R203 to R226;
spec/02_arithmetic_and_tensor_engines.md R67). -/

namespace Sys2Proof.Machine

/-! ## Descriptor fields (R206, R217, R221) -/

def cOp (d : List Byte) : Nat := leAt d 0 1
def cType (d : List Byte) : Nat := leAt d 1 1
def cFlags (d : List Byte) : Nat := leAt d 2 1
def cVc (d : List Byte) : Nat := leAt d 3 1
def cGroup (d : List Byte) : Nat := leAt d 4 2
def cRoot (d : List Byte) : Nat := leAt d 6 2
def cSeq (d : List Byte) : Nat := leAt d 8 4
def cRidge (d : List Byte) : Nat := leAt d 0xC 1
def cSrc (d : List Byte) : Nat := leAt d 0x10 8
def cDst (d : List Byte) : Nat := leAt d 0x18 8
def cCount (d : List Byte) : Nat := leAt d 0x20 8
def cAux (d : List Byte) : Nat := leAt d 0x28 8
def cAux2 (d : List Byte) : Nat := leAt d 0x30 8

def eBytes (d : List Byte) : Nat := if cType d = 1 then 2 else if cType d = 3 then 1 else 4

def layE (l : List Byte) : Nat := leAt l 0 1
def layRepl (l : List Byte) : Nat := leAt l 2 2
def layN (l : List Byte) (a : Nat) : Nat := leAt l (8 + 4 * a) 4
def layG (l : List Byte) (a : Nat) : Nat := leAt l (0x18 + 2 * a) 2
def layB (l : List Byte) (a : Nat) : Nat := leAt l (0x20 + 4 * a) 4
def layShards (l : List Byte) : Nat := layG l 0 * layG l 1 * layG l 2 * layG l 3
/-- The extent of a local array on an axis (R219). -/
def layLocal (l : List Byte) (a : Nat) : Nat := layN l a / layG l a

/-- The source and the destination layout of a RESHARD. -/
def CollRun.srcLay (r : CollRun) : List Byte := r.aux.take 64
def CollRun.dstLay (r : CollRun) : List Byte := r.aux.drop 64

/-- Whether a layout breaks R217 or R218 by itself, for `p` participants. -/
def layBad (l : List Byte) (p : Nat) : Bool :=
  !(layE l == 1 || layE l == 2 || layE l == 4 || layE l == 8) || leAt l 1 1 == 0 || decide (4 < leAt l 1 1)
    || layRepl l == 0 || leAt l 4 4 != 0 || leAt l 0x30 8 != 0 || leAt l 0x38 8 != 0
    || (List.range 4).any (fun a => layB l a == 0 || layG l a == 0 || layN l a == 0
      || layN l a % (layB l a * layG l a) != 0 || (decide (leAt l 1 1 ≤ a) && (layN l a != 1 || layG l a != 1)))
    || layShards l * layRepl l != p

/-- Whether the two layouts of a RESHARD disagree, or disagree with COUNT (R218). -/
def laysBad (s d : List Byte) (count : Nat) : Bool :=
  layE s != layE d || (List.range 4).any (fun a => layN s a != layN d a)
    || layN s 0 * layN s 1 * layN s 2 * layN s 3 != count

def aTokens (a : List Byte) : Nat := leAt a 0 4
def aBytes (a : List Byte) : Nat := leAt a 4 4
def aSlots (a : List Byte) : Nat := leAt a 0x20 2
def aFlags (a : List Byte) : Nat := leAt a 0x22 2
def aConsumers (a : List Byte) : Nat := leAt a 0x24 2

/-- Whether an attention-streaming descriptor breaks R221 or R222. -/
def attnBad (a : List Byte) : Bool :=
  let t := aTokens a
  t < 128 || decide (65536 < t) || t % 128 != 0 || aBytes a % 64 != 0 || aBytes a < 64 || decide (67108864 < aBytes a)
    || leAt a 0xC 4 % t != 0 || leAt a 0x14 4 % t != 0 || decide (2 ^ 32 < leAt a 8 4 + leAt a 0xC 4)
    || decide (2 ^ 32 < leAt a 0x10 4 + leAt a 0x14 4) || leAt a 0x1C 4 == 0 || decide (33554432 < leAt a 0x1C 4)
    || aSlots a < 2 || decide (64 < aSlots a) || decide (3 < aFlags a) || aConsumers a == 0 || decide (192 < aConsumers a)
    || leAt a 0x26 2 != 0 || leAt a 0x38 8 % 64 != 0 || leAt a 0x40 8 % 64 != 0 || leAt a 0x48 8 % 8 != 0
    || leAt a 0x50 8 % 8 != 0 || !(a.drop 0x58).all (· == 0#8)

/-- The 16 bytes of positions and lengths a participant's first message tells its peers in an ATTN_STREAM. -/
def attnKeys (a : List Byte) : List Byte := bytesAt a 8 16
/-- Blocks of a participant, and the first position of its block `j` (R223). -/
def keyBlocks (a k : List Byte) : Nat := leAt k 4 4 / aTokens a + leAt k 12 4 / aTokens a
def blockPos (a k : List Byte) (j : Nat) : Nat :=
  let n0 := leAt k 4 4 / aTokens a
  if j < n0 then leAt k 0 4 + j * aTokens a else leAt k 8 4 + (j - n0) * aTokens a

/-! ## Which bytes go where (R210, R219, R220) -/

/-- A row-major index taken apart over four extents, and put together. -/
def unravel (e : Nat → Nat) (x : Nat) : List Nat :=
  [x / (e 3 * e 2 * e 1), x / (e 3 * e 2) % e 1, x / e 3 % e 2, x % e 3]
def ravel (e : Nat → Nat) (v : List Nat) : Nat :=
  ((leAtN v 0 * e 1 + leAtN v 1) * e 2 + leAtN v 2) * e 3 + leAtN v 3
where leAtN (v : List Nat) (i : Nat) : Nat := (v[i]?).getD 0

/-- The rank and source offset that supply byte `o` of destination rank `d` of a RESHARD. -/
def reshardSupply (sl dl : List Byte) (d o : Nat) : Nat × Nat :=
  let es := layE dl
  let sd := d % layShards dl
  let rd := d / layShards dl
  let l := unravel (layLocal dl) (o / es)
  let g := unravel (layG dl) sd
  let at' (v : List Nat) (i : Nat) : Nat := (v[i]?).getD 0
  let gi (a : Nat) : Nat := at' l a / layB dl a * (layB dl a * layG dl a) + at' g a * layB dl a + at' l a % layB dl a
  let sg := (List.range 4).map (fun a => gi a / layB sl a % layG sl a)
  let ll := (List.range 4).map (fun a => gi a / (layB sl a * layG sl a) * layB sl a + gi a % layB sl a)
  (rd % layRepl sl * layShards sl + ravel (layG sl) sg, ravel (layLocal sl) ll * es + o % es)

/-- Whether an operation adds the contributions of every rank. -/
def isReduce (op : Nat) : Bool := op == 3 || op == 4

/-- The bytes of a rank's destination; SMERGE counts its source, which has the same layout. -/
def CollRun.dstLen (r : CollRun) : Nat :=
  let n := cCount r.desc
  let op := cOp r.desc
  if op = 1 then n else if op = 2 ∨ op = 5 then r.members.length * n
  else if op = 3 ∨ op = 4 then n * eBytes r.desc
  else if op = 6 then layLocal r.dstLay 0 * layLocal r.dstLay 1 * layLocal r.dstLay 2 * layLocal r.dstLay 3 * layE r.dstLay
  else if op = 8 then (2 + cAux r.desc) * n * 4
  else 0

def CollRun.chunks (r : CollRun) : Nat := (r.dstLen + 65535) / 65536

/-- Destination offsets of a chunk. -/
def CollRun.chunkOffs (r : CollRun) (c : Nat) : List Nat :=
  (List.range (min 65536 (r.dstLen - 65536 * c))).map (· + 65536 * c)

/-- The source offsets rank `q` reads for chunk `c` of rank `d`, in order of destination. -/
def CollRun.supply (r : CollRun) (q d c : Nat) : List Nat :=
  let n := cCount r.desc
  let op := cOp r.desc
  let os := r.chunkOffs c
  if op = 1 then (if q = cRoot r.desc then os else [])
  else if op = 2 then (os.filter (fun o => o / n == q)).map (· % n)
  else if op = 5 then (os.filter (fun o => o / n == q)).map (fun o => d * n + o % n)
  else if op = 3 then os.map (fun o => d * n * eBytes r.desc + o)
  else if op = 4 ∨ op = 8 then os
  else if op = 6 then os.filterMap (fun o =>
    let p := reshardSupply r.srcLay r.dstLay d o
    if p.1 = q then some p.2 else none)
  else []

/-- The rank that supplies a destination byte, for operations that do not add. -/
def CollRun.supplier (r : CollRun) (o : Nat) : Nat :=
  let op := cOp r.desc
  if op = 1 then cRoot r.desc else if op = 6 then (reshardSupply r.srcLay r.dstLay r.rank o).1 else o / cCount r.desc

/-- Consecutive offsets joined into runs. -/
def offRuns : List Nat → List (Nat × Nat)
  | [] => []
  | o :: r => match offRuns r with
    | (a, n) :: t => if a = o + 1 then (o, n + 1) :: t else (o, 1) :: (a, n) :: t
    | [] => [(o, 1)]

/-! ## The engine's tasks -/

def collOf (s : State) (h t : Nat) : Option CollRun := (taskOf s h t).bind (·.coll)
def setColl (h t : Nat) (r : CollRun) (s : State) : State := updTask h t (fun k => { k with coll := some r }) s

/-- COLLECTIVE tasks of a ridge. -/
def collTasks (s : State) (ridge : Nat) : List (Nat × Nat × Graph × Task) :=
  (allTasks s).filter (fun q => q.2.2.2.kind == 3 && q.2.2.2.unit == ridge && q.2.2.2.st != tsFinal && q.2.2.2.coll.isSome)

/-- The completion record of a collective (R207). -/
def collRecord (r : CollRun) (st status fseq : Nat) : List Byte :=
  leFields [(1, st), (1, 0), (2, status), (4, if cOp r.desc = 7 then r.staged - b2n r.ended else 0), (8, r.chunk),
    (8, r.tFirst), (8, r.tLast), (8, fseq), (8, 0), (8, 0), (8, 0)]

/-- A run of which nothing but its descriptor is known. -/
def blankRun (d : List Byte) (gid : Nat) (members : List Nat) (rank : Nat) : CollRun :=
  ⟨d, [], gid, members, rank, false, false, [], [], [], [], 0, [], 0, 0, false, 0, 0, 0, none, [], []⟩

/-- Writes it into the descriptor, of a task that has not been taken in too (R206, R207, R497). -/
def putCollRecord (h t st status fseq : Nat) (s : State) : State :=
  match taskOf s h t with
  | none => s
  | some k =>
    putDescRecord ⟨.coll k.unit, tenantOfGraph s h, (k.target + 0x40) % 2 ^ 64,
      collRecord (k.coll.getD (blankRun [] 0 [] 0)) st status fseq, some (h, t)⟩ s

/-- Ends a collective in ERROR: its record, its task's ending; a task that is not running ends at once (R208, R215). -/
def collEnd (h t status kind fseq : Nat) (s : State) : State :=
  match taskOf s h t with
  | none => s
  | some k =>
    let s := putCollRecord h t 6 status fseq (match k.coll with
      | some r => setColl h t { r with fail := some (kind, fseq) } s
      | none => s)
    if k.st = tsRunning then failTask h t status fseq s
    else settle (makeFinal h t status fseq (homeStamp s h t) s)

/-- A DESCRIPTOR fault of the engine, and the end of the task (R208, R209). -/
def collRefuse (h t detail : Nat) (s : State) : State :=
  match taskOf s h t with
  | none => s
  | some k =>
    let q := nextFseq s
    collEnd h t stDmaError 0x14 q (faultRec { kind := 0x14, t := stampAt s (16 + k.unit), source := 4,
                                              tenant := tenantOfGraph s h, unit := 16 + k.unit, handle := h, task := t, detail := detail, origin := k.target } s)

/-- A failed access of the engine: a serviceable fault parks the task, another ends it (R195, R190). -/
def collFail (h t va : Nat) (a : Access) (e : VRes) (s : State) : State :=
  match taskOf s h t with
  | none => s
  | some k =>
    let q := nextFseq s
    let ch := (k.coll.map (·.chunk)).getD 0
    let rec1 (parked : Bool) (s : State) : State :=
      recordFail (.coll k.unit) (tenantOfGraph s h) va a e parked h t ch k.target s
    match e with
    | .ok _ => s
    | .wait => s
    | .fault _ kind _ _ _ _ =>
      let s := rec1 true s
      let s := putCollRecord h t 2 0 q (match k.coll with
        | some r => setColl h t { r with fail := some (kind, q) } s
        | none => s)
      unitFaultWait h t (failStamp (.coll k.unit) s e) q s
    | .uncorr _ _ => collEnd h t stMemoryUncorrectable 0x10 q (rec1 false s)
    | .lost _ _ => collEnd h t stPathLost 0x12 q (rec1 false s)

/-! ## Start (R205, R208, R212) -/

/-- The digest of R208 of a run. -/
def CollRun.digest (r : CollRun) (tenants : List Nat) : Nat :=
  (Config.collDigest (leFields [(1, cOp r.desc), (1, cType r.desc), (8, cCount r.desc), (4, cSeq r.desc), (8, r.gid)]
    ++ r.members.flatMap (leBytes 2) ++ tenants.flatMap (leBytes 1)
    ++ (if cOp r.desc = 6 then bytesAt r.aux 0 1 ++ bytesAt r.aux 8 16 else if cOp r.desc = 7 then bytesAt r.aux 0 8 ++ bytesAt r.aux 0x1C 4 else []))).toNat

/-- The fields of a descriptor that R206 and R208 refuse, as offsets. -/
def collBlamed (d : List Byte) (ridges p : Nat) : List Nat :=
  let op := cOp d
  let chk (b : Bool) (o : Nat) : List Nat := if b then [o] else []
  chk (decide (8 < op)) 0
  ++ chk (decide (3 < cType d) || (cType d == 3 && isReduce op) || (cType d != 0 && op == 8)) 1
  ++ chk (decide (1 < cFlags d) || (cFlags d == 1 && op != 8)) 2
  ++ chk (decide (7 < cVc d)) 3
  ++ chk (if op = 1 then decide (p ≤ cRoot d) else cRoot d != 0) 6
  ++ chk (if cRidge d = 0xFF then op == 0 else decide (ridges ≤ cRidge d)) 0xC
  ++ chk (leAt d 0xD 3 != 0) 0xD
  ++ chk ((op == 0 || op == 7) && cCount d != 0) 0x20
  ++ chk (if op = 8 then cAux d == 0 || decide (4096 < cAux d) else if op = 6 ∨ op = 7 then cAux d % 64 != 0 else cAux d != 0) 0x28
  ++ chk (if op = 6 then cAux2 d % 64 != 0 else cAux2 d != 0) 0x30

/-- Reads a structure the descriptor names; a failure is handled and nothing is handed on. -/
def collRead (h t va len : Nat) (s : State) (go : List Byte → State → State) : State :=
  match taskOf s h t with
  | none => s
  | some k => match vread (.coll k.unit) (tenantOfGraph s h) va len accRead s with
    | (.ok bs, s) => go bs s
    | (e, s) => collFail h t va accRead e s

/-- Everything a participant owes: a first message to every peer, then the pieces of every chunk it supplies; blocks of an
ATTN_STREAM go to the next rank (R208, R213, R223). The first messages carry the chunk number 2^32 − 1. -/
def helloChunk : Nat := 2 ^ 32 - 1

/-- The pieces of `len` bytes. -/
def pieceOffs (len : Nat) : List Nat := (List.range ((len + collPiece - 1) / collPiece)).map (· * collPiece)

/-- The bytes of the piece of a block at an offset: no piece crosses a unit of 64 KiB (R223). -/
def blockPiece (len o : Nat) : Nat := min collPiece (min (65536 - o % 65536) (len - o))

/-- The pieces of a block of `len` bytes. -/
def blockOffs (len : Nat) : List Nat :=
  (List.range ((len + 65535) / 65536)).flatMap (fun u => (pieceOffs (min 65536 (len - 65536 * u))).map (· + 65536 * u))

def CollRun.owes (r : CollRun) : List (Nat × Nat × Nat) :=
  let p := r.members.length
  ((List.range p).filter (· != r.rank)).map (fun d => (d, helloChunk, 0))
  ++ (if cOp r.desc = 7 then
        (if p = 1 then [] else (List.range (keyBlocks r.aux (attnKeys r.aux))).flatMap (fun j =>
          (blockOffs (aBytes r.aux)).map (fun o => ((r.rank + 1) % p, j, o))))
      else (List.range p).flatMap (fun d => (List.range r.chunks).flatMap (fun c =>
        (pieceOffs (r.supply r.rank d c).length).map (fun o => (d, c, o)))))

/-- The blocks of its own a participant stages: at step 0, with STAGE_LOCAL set (R223, R226). -/
def CollRun.ownStage (r : CollRun) : List (Nat × Nat × Nat × List Byte) :=
  if cOp r.desc = 7 ∧ bitOf (aFlags r.aux) 1 then
    ((List.range (keyBlocks r.aux (attnKeys r.aux))).filter (fun j =>
      !(bitOf (aFlags r.aux) 0 && decide (leAt r.aux 0x18 4 < blockPos r.aux (attnKeys r.aux) j)))).map (fun j => (r.rank, 0, j, []))
  else []

/-- Starts a listed run whose turn has come, with what its descriptor names read. -/
def collBegin (h t : Nat) (r : CollRun) (s : State) : State :=
  let r := { r with started := true }
  let r := { r with owed := r.owes, stage := r.ownStage }
  setColl h t r s

/-- Reads the layouts or the attention-streaming descriptor, checks them, and begins (R208, R212). -/
def collAux (h t : Nat) (r : CollRun) (s : State) : State :=
  let p := r.members.length
  if cOp r.desc = 6 then
    collRead h t (cAux r.desc) 64 s fun a s =>
      collRead h t (cAux2 r.desc) 64 s fun b s =>
        if layBad a p then collRefuse h t 0x28 s
        else if layBad b p || laysBad a b (cCount r.desc) then collRefuse h t 0x30 s
        else collBegin h t { r with aux := a ++ b } s
  else if cOp r.desc = 7 then
    collRead h t (cAux r.desc) 128 s fun a s =>
      if attnBad a || (p == 1 && leAt a 0xC 4 + leAt a 0x14 4 != leAt a 0x1C 4) then collRefuse h t 0x28 s
      else collBegin h t { r with aux := a } s
  else collBegin h t r s

/-- The sequence count of a participant in a group. -/
def seqCount (g : Group) (rank : Nat) : Nat := Mp.get 0 g.counts rank

/-- Whether a tenant may use a group at a rank (R205). -/
def mayUse (g : Group) (tn rank : Nat) : Bool := g.owner == tn || g.tenants[rank]? == some tn

/-- The order of R114 between two tasks of an engine. -/
def collBefore (a b : Nat × Nat × Graph × Task) : Bool :=
  Waiting.before ⟨a.1, [a.2.1], 0, a.2.2.2.prio, a.2.2.2.tReady, a.2.2.1.seq⟩ ⟨b.1, [b.2.1], 0, b.2.2.2.prio, b.2.2.2.tReady, b.2.2.1.seq⟩

/-- Whether a run that has not started may start: its COLL_SEQ is the count, no task of that COLL_SEQ has failed, and no other of
its group runs at this participant (R212, R216). -/
def collDue (s : State) (ridge : Nat) (r : CollRun) : Bool :=
  match groupByGid s r.gid with
  | none => false
  | some (_, g) => seqCount g r.rank == cSeq r.desc
      && (Mp.get 0 g.failed r.rank == 0 || decide (cSeq r.desc + 1 < Mp.get 0 g.failed r.rank))
      && !(collTasks s ridge).any (fun q => (q.2.2.2.coll.map (fun x => x.started && x.gid == r.gid && x.rank == r.rank)).getD false)

/-- The tasks an engine runs at once, and those before a task in the order of R114 that could start (R214). -/
def collRunning (s : State) (ridge : Nat) : Nat :=
  ((collTasks s ridge).filter (fun q => q.2.2.2.st == tsRunning && (q.2.2.2.coll.map (·.started)).getD false)).length
def collAhead (s : State) (ridge h t : Nat) : Nat :=
  match (collTasks s ridge).find? (fun q => q.1 == h && q.2.1 == t) with
  | none => 0
  | some me => ((collTasks s ridge).filter (fun q => (q.1 != h || q.2.1 != t) && q.2.2.2.st == tsRunning
      && (q.2.2.2.coll.map (fun x => !x.started && collDue s ridge x)).getD false && collBefore q me)).length

/-- A listed run starts if its turn has come and its engine has room; one that the count has passed is refused (R208, R212,
R214). -/
def collGo (h t : Nat) (s : State) : State :=
  match taskOf s h t, collOf s h t with
  | some k, some r =>
    if r.started then s
    else if ((groupByGid s r.gid).map (fun p => decide (cSeq r.desc < seqCount p.2 r.rank))).getD false then collRefuse h t 8 s
    else if collDue s k.unit r && decide (collRunning s k.unit + collAhead s k.unit h t < 32) then collAux h t r s
    else s
  | _, _ => s

/-- Lists a task's run on the engine of a ridge; none if R205 refuses the task there. -/
def collList (h t tn : Nat) (d : List Byte) (g : Group) (n : Nat) (s : State) : Option State :=
  match g.members.idxOf? (partId s n) with
  | none => none
  | some rank =>
    if mayUse g tn rank then
      some (updTask h t (fun k => { k with unit := n, coll := some (blankRun d g.gid g.members rank) }) s)
    else none

/-- A notice that came before a task was listed is kept for it (R215). -/
def keptNotice (s : State) (h t : Nat) : Option FailNotice :=
  match taskOf s h t, collOf s h t with
  | some k, some r => s.notices.find? (fun n => n.receiver == partId s k.unit && n.group == r.gid && n.seq == cSeq r.desc
      && n.sender / 4 != moduleId s)
  | _, _ => none

/-- A collective whose descriptor is accepted goes to the engine of a ridge (R205, R212). -/
def collPick (h t tn : Nat) (d : List Byte) (g : Group) (n : Nat) (s : State) : State :=
  if !ridgeServes s n then
    let q := nextFseq s
    collEnd h t stPathLost 0x12 q (faultRec { kind := 0x12, t := stampAt s (16 + n), source := 4, tenant := tn,
                                              unit := 16 + n, handle := h, task := t, origin := ((taskOf s h t).map Task.target).getD 0 }
      (updTask h t (fun k => { k with unit := n }) s))
  else match collList h t tn d g n s with
    | none => collRefuse h t 4 (updTask h t (fun k => { k with unit := n }) s)
    | some s => collGo h t s

/-- It goes to the ridge that owns an address (R205). -/
def collOwner (h t tn : Nat) (k : Task) (d : List Byte) (g : Group) (va : Nat) (s : State) : State :=
  match translate (.coll k.unit) tn va accWrite s with
  | (.ok pa, s) => collPick h t tn d g (paRidge pa) s
  | (e, s) => collFail h t va accWrite (vresOf va e) s

/-- A peer's failure notice ends this participant's task (R209, R215). -/
def applyNotice (h t : Nat) (n : FailNotice) (s : State) : State :=
  match taskOf s h t with
  | none => s
  | some k =>
    if k.endStatus.isSome then s
    else if n.undefinedGroup then collRefuse h t 1 s
    else
      let q := nextFseq s
      collEnd h t stDmaError 0x13 q (faultRec { kind := 0x13, t := stampAt s (16 + k.unit), source := 4,
                                                tenant := tenantOfGraph s h, unit := 16 + k.unit, handle := h, task := t,
                                                detail := n.sender / 4 + n.kind % 65536 * 2 ^ 16 + n.fseq % 2 ^ 32 * 2 ^ 32, origin := k.target } s)

/-- Reads and checks the descriptor of a task, and lists its run (R205 to R208). A task that is refused is listed too where its
participant is known, so that its peers learn of it (R215; log entry 701). -/
def collRegister (h t : Nat) (s : State) : State :=
  match taskOf s h t with
  | none => s
  | some k =>
    if k.target % 64 ≠ 0 then collRefuse h t 0 s
    else collRead h t k.target 64 s fun d s =>
      let tn := tenantOfGraph s h
      match Mp.find s.groups (cGroup d) with
      | none => collRefuse h t 4 s
      | some g =>
        match lowestOff (collBlamed d (nRidges s) g.members.length) with
        | some o => collRefuse h t o (if cRidge d < nRidges s then (collList h t tn d g (cRidge d) s).getD s else s)
        | none =>
          if cRidge d ≠ 0xFF then collPick h t tn d g (cRidge d) s
          else if cOp d = 7 then collRead h t (cAux d) 128 s fun x s => collOwner h t tn k d g (leAt x 0x40 8) s
          else collOwner h t tn k d g (cDst d) s

/-- A COLLECTIVE task reaches its engine: its descriptor is read and checked, and it starts once the sequence count reaches
its COLL_SEQ (R205, R208, R212, R214). A notice kept for it ends it (R215). -/
def collStart (h t : Nat) (s : State) : State :=
  match taskOf s h t with
  | none => s
  | some k =>
    if k.kind ≠ 3 ∨ k.st ≠ tsRunning ∨ k.endStatus.isSome ∨ isSafe s then s
    else
      let s := match k.coll with
        | some _ => collGo h t s
        | none => collRegister h t s
      match keptNotice s h t with
      | some n => applyNotice h t n { s with notices := s.notices.erase n }
      | none => s

/-! ## Sending (R213, R223) -/

/-- Reads runs of source bytes. -/
def collGather (ridge tenant base : Nat) : List (Nat × Nat) → State → VRes × State
  | [], s => (.ok [], s)
  | (o, n) :: r, s => match vread (.coll ridge) tenant ((base + o) % 2 ^ 64) n accRead s with
    | (.ok bs, s) => (match collGather ridge tenant base r s with
      | (.ok l, s) => (.ok (bs ++ l), s)
      | e => e)
    | e => e

/-- The virtual address of a participant's own block (R221, R223). -/
def ownBlockVa (a : List Byte) (j : Nat) : Nat :=
  let n0 := leAt a 0xC 4 / aTokens a
  (if j < n0 then leAt a 0x28 8 + j * aBytes a else leAt a 0x30 8 + (j - n0) * aBytes a) % 2 ^ 64

/-- The data of one message a participant owes. -/
def owedData (s : State) (h ridge : Nat) (r : CollRun) (d c o : Nat) : VRes × State :=
  let tn := tenantOfGraph s h
  if c = helloChunk then (.ok (if cOp r.desc = 7 then attnKeys r.aux else []), s)
  else if cOp r.desc = 7 then
    vread (.coll ridge) tn ((ownBlockVa r.aux c + o) % 2 ^ 64) (blockPiece (aBytes r.aux) o) accRead s
  else collGather ridge tn (cSrc r.desc) (offRuns (((r.supply r.rank d c).drop o).take collPiece)) s

/-- Adds received data to a contribution, which is listed in the order in which contributions begin to arrive. -/
def addGot (q c : Nat) (bs : List Byte) : List (Nat × Nat × List Byte) → List (Nat × Nat × List Byte)
  | [] => [(q, c, bs)]
  | (a, b, l) :: r => if a = q ∧ b = c then (a, b, l ++ bs) :: r else (a, b, l) :: addGot q c bs r

/-- Sends what a started participant owes, in order, as far as tags, ports and memory allow (R213). -/
def sendOwed (h t : Nat) : Nat → State → State
  | 0, s => s
  | f + 1, s =>
    match taskOf s h t with
    | none => s
    | some k => match k.coll with
      | none => s
      | some r => match r.owed with
        | [] => s
        | (d, c, o) :: rest =>
          if k.st ≠ tsRunning ∨ k.endStatus.isSome ∨ (!r.sent ∧ stampAt s (16 + k.unit) < leAt r.desc 0x38 8) then s
          else match owedData s h k.unit r d c o with
            | (.ok bs, s) =>
              if d = r.rank then
                sendOwed h t f (setColl h t { r with owed := rest, got := addGot r.rank c bs r.got } s)
              else
                let now := stampAt s (16 + k.unit)
                let tenants := ((groupByGid s r.gid).map (fun p => p.2.tenants)).getD []
                let m : CollMsg := ⟨r.gid, cSeq r.desc, partId s k.unit, (r.members[d]?).getD 0, if cOp r.desc = 7 then 1 else 0, c, o,
                  if c = helloChunk then some (r.digest tenants) else none, now, bs⟩
                let r' := { r with owed := rest, unacked := r.unacked ++ [(d, c, o)], sent := true,
                                   tFirst := if r.sent then r.tFirst else now }
                match sendColl k.unit (tenantOfGraph s h) (cVc r.desc) (.coll h t d c o) m s with
                | .ok s => sendOwed h t f (setColl h t r' s)
                | .wait s => s
                | .noRoute s =>
                  let q := nextFseq s
                  collEnd h t stDmaError 0x13 q (faultRec { kind := 0x13, t := now, source := 4, tenant := tenantOfGraph s h,
                                                            unit := 16 + k.unit, handle := h, task := t, detail := moduleId s + 0x12 * 2 ^ 16, origin := k.target } s)
            | (e, s) => collFail h t (cSrc r.desc) accRead e s

/-- Sends what a participant forwards, once all its own blocks are on their way (R223). -/
def sendFwd (h t : Nat) : Nat → State → State
  | 0, s => s
  | f + 1, s =>
    match taskOf s h t, collOf s h t with
    | some k, some r => (match r.fwd with
      | [] => s
      | m :: rest =>
        if k.st ≠ tsRunning ∨ k.endStatus.isSome ∨ !r.owed.isEmpty then s
        else
          let next := (r.rank + 1) % r.members.length
          match sendColl k.unit (tenantOfGraph s h) (cVc r.desc) (.coll h t next m.chunk m.off)
              { m with stamp := stampAt s (16 + k.unit) } s with
          | .ok s => sendFwd h t f (setColl h t { r with fwd := rest, unacked := r.unacked ++ [(next, m.chunk, m.off)] } s)
          | .wait s => s
          | .noRoute s => s)
    | _, _ => s

/-- A started collective sends what it owes, its first message no earlier than T_NOT_BEFORE, and what it forwards (R213,
R223). -/
def collFirstSend (h t : Nat) (s : State) : State :=
  match collOf s h t with
  | none => s
  | some r => if r.started ∧ !isSafe s then sendFwd h t (r.fwd.length + 1) (sendOwed h t (r.owed.length + 1) s) else s

/-! ## Receiving (R203, R208, R209, R223) -/

/-- The task of a ridge that takes part in a collective of a group. -/
def collFind (s : State) (ridge gid seq : Nat) : Option (Nat × Nat × Task × CollRun) :=
  (collTasks s ridge).findSome? (fun q => q.2.2.2.coll.bind (fun r =>
    if r.gid = gid ∧ cSeq r.desc = seq then some (q.1, q.2.1, q.2.2.2, r) else none))

/-- A message accepted: its sender in this module is told (R214). -/
def collAck (m : CollMsg) (rank : Nat) (s : State) : State :=
  if m.sender / 4 ≠ moduleId s then s
  else match collFind s (m.sender % 4) m.group m.seq with
    | some (h, t, _, r) => setColl h t { r with unacked := r.unacked.filter (· != (rank, m.chunk, m.off)) } s
    | none => s

/-- Whether a contribution to a chunk, or a block, has arrived whole. -/
def gotLen (r : CollRun) (q c : Nat) : Nat :=
  ((r.got.find? (fun p => p.1 == q && p.2.1 == c)).map (fun p => p.2.2.length)).getD 0
def gotData (r : CollRun) (q c : Nat) : List Byte :=
  ((r.got.find? (fun p => p.1 == q && p.2.1 == c)).map (fun p => p.2.2)).getD []

/-- The blocks a participant receives in all, once every peer's first message has come. -/
def CollRun.blocksDue (r : CollRun) : Nat := (r.hello.map (fun p => keyBlocks r.aux p.2)).foldl (· + ·) 0

/-- The blocks of the steps from `s` on, `n` steps: step, origin and number of blocks; none past a rank whose first message has not
come (R223). -/
def stepBlocks (r : CollRun) : Nat → Nat → List (Nat × Nat)
  | 0, _ => []
  | n + 1, s =>
    let p := r.members.length
    match r.hello.find? (fun x => x.1 == (r.rank + p - s) % p) with
    | none => []
    | some (_, keys) => (s, keyBlocks r.aux keys) :: stepBlocks r n (s + 1)

/-- The step and number in its origin of the `i`-th block to come (R223). -/
def expectBlock : List (Nat × Nat) → Nat → Option (Nat × Nat)
  | [], _ => none
  | (s, n) :: l, i => if i < n then some (s, i) else expectBlock l (i - n)

/-- Whether every consumer's FREE word leaves a slot for one more block than wait to be staged (R223, R224). -/
def slotFree (s : State) (ridge tenant : Nat) (r : CollRun) : Bool :=
  (List.range (aConsumers r.aux)).all fun c =>
    match (vread (.coll ridge) tenant ((leAt r.aux 0x50 8 + 8 * c) % 2 ^ 64) 8 accRead s).1 with
    | .ok bs => decide (r.stage.length < leNat bs + b2n (decide (c < r.freeIdx)))
    | _ => false

/-- Whether the next rank gives credit for what is forwarded to it: in this module, its engine runs the collective and can be
reached; elsewhere, a tag is free (R223; log entry 703). -/
def fwdCredit (s : State) (ridge tenant : Nat) (r : CollRun) : Bool :=
  let next := (r.members[(r.rank + 1) % r.members.length]?).getD 0
  if next / 4 = moduleId s then
    ringPath s ridge (next % 4) 0 && (collTasks s (next % 4)).any (fun q => q.2.2.2.st == tsRunning &&
      (q.2.2.2.coll.map (fun x => x.started && x.gid == r.gid && cSeq x.desc == cSeq r.desc)).getD false)
  else tagFree s ridge (.coll ridge) tenant

/-- A piece of an ATTN_STREAM block is taken in, in the order of the steps: forwarded, 64 KiB at a time, unless its origin is the
next rank, and staged when whole unless CAUSAL_SKIP passes it over (R223, R226). None: it cannot be taken yet. -/
def takeBlock (h t : Nat) (k : Task) (r : CollRun) (m : CollMsg) (s : State) : Option State :=
  let p := r.members.length
  let origin := (r.rank + p - m.step % p) % p
  let tn := tenantOfGraph s h
  if expectBlock (stepBlocks r (p - 1) 1) r.blocksIn ≠ some (m.step, m.chunk) ∨ m.off ≠ gotLen r origin m.chunk then none
  else
    let keys := ((r.hello.find? (fun x => x.1 == origin)).map (·.2)).getD []
    let skip := bitOf (aFlags r.aux) 0 && decide (leAt r.aux 0x18 4 < blockPos r.aux keys m.chunk)
    let relay := (r.rank + 1) % p != origin
    if (m.off == 0 && !skip && !slotFree s k.unit tn r) || (relay && m.off % 65536 == 0 && !fwdCredit s k.unit tn r) then none
    else
      let got := addGot origin m.chunk m.data r.got
      let len := gotLen { r with got := got } origin m.chunk
      let whole := decide (aBytes r.aux ≤ len)
      let data := gotData { r with got := got } origin m.chunk
      let m' := { m with sender := partId s k.unit, receiver := (r.members[(r.rank + 1) % p]?).getD 0, step := m.step + 1 }
      let unit := if relay then r.unit ++ [m'] else r.unit
      let full := whole || len % 65536 == 0
      some (collFirstSend h t (setColl h t { r with
        tLast := m.stamp
        got := if whole then got.filter (fun x => !(x.1 == origin && x.2.1 == m.chunk)) else got
        blocksIn := r.blocksIn + b2n whole
        stage := if whole && !skip then r.stage ++ [(origin, m.step, m.chunk, data)] else r.stage
        fwd := if full then r.fwd ++ unit else r.fwd
        unit := if full then [] else unit } s))

/-- A module that does not share the group answers with a notice (R209). -/
def collUnknown (ridge : Nat) (m : CollMsg) (s : State) : State :=
  let s := faultRec { kind := 0x14, t := stampAt s (16 + ridge), source := 4, unit := 16 + ridge, detail := 1 } s
  sendNotice ridge ⟨m.group, m.seq, partId s ridge, m.sender, 0x14, nextFseq s - 1, true⟩ s

/-- A first message: the digests must agree, and one that differs is answered with this participant's own (R208); the lengths of an ATTN_STREAM are noted, and must sum to TOTAL_K (R222). -/
def takeHello (h t : Nat) (k : Task) (r : CollRun) (rank d : Nat) (m : CollMsg) (s : State) : Option State :=
  let tenants := ((groupByGid s r.gid).map (fun p => p.2.tenants)).getD []
  if d ≠ r.digest tenants then
    let own := r.owed.find? (fun x => x.1 == rank && x.2.1 == helloChunk)
    match own with
      | none => some (collRefuse h t 0 s)
      | some _ =>
        match sendColl k.unit (tenantOfGraph s h) (cVc r.desc) (.coll h t rank helloChunk 0)
          ⟨r.gid, cSeq r.desc, partId s k.unit, m.sender, 0, helloChunk, 0, some (r.digest tenants), stampAt s (16 + k.unit), []⟩ s with
        | .ok s => some (collRefuse h t 0 s)
        | .wait _ => none
        | .noRoute s => some (collRefuse h t 0 s)
  else
    let r := { r with hello := r.hello ++ [(rank, m.data)], tLast := m.stamp }
    let s := setColl h t r s
    if cOp r.desc = 7 ∧ r.hello.length + 1 = r.members.length
        ∧ ((r.hello.map (fun p => leAt p.2 4 4 + leAt p.2 12 4)).foldl (· + ·) 0) + leAt r.aux 0xC 4 + leAt r.aux 0x14 4
            ≠ leAt r.aux 0x1C 4 then
      some (collRefuse h t 0x28 s)
    else some s

/-- A collective that is over at a participant: its count has passed it, or a task of it has failed (R212, R216). What still
arrives for it is accepted and discarded. -/
def collPast (g : Group) (rank seq : Nat) : Bool :=
  decide (seq < seqCount g rank) || (Mp.get 0 g.failed rank != 0 && decide (Mp.get 0 g.failed rank ≤ seq + 1))

/-- A collective message reaches its engine; none: it is not accepted yet (R203, R209, R214). -/
def collReceive (ridge : Nat) (m : CollMsg) (s : State) : Option State :=
  match groupByGid s m.group with
  | none => some (collUnknown ridge m s)
  | some (_, g) =>
    if !g.members.contains m.sender || !g.members.contains (partId s ridge) then some (collUnknown ridge m s)
    else match collFind s ridge m.group m.seq with
      | none => if collPast g ((g.members.idxOf? (partId s ridge)).getD 0) m.seq then some (collAck m ((g.members.idxOf? (partId s ridge)).getD 0) s) else none
      | some (h, t, k, r) =>
        if !r.started || k.st != tsRunning || k.endStatus.isSome then none
        else
          let rank := (r.members.idxOf? m.sender).getD 0
          match m.digest with
          | some d => (takeHello h t k r rank d m s).map (collAck m r.rank)
          | none =>
            if cOp r.desc = 7 then (takeBlock h t k r m s).map (collAck m r.rank)
            else if m.off ≠ gotLen r rank m.chunk then none
            else some (collAck m r.rank (setColl h t { r with got := addGot rank m.chunk m.data r.got, tLast := m.stamp } s))

/-- The event of a message's arrival: one between ridges of this module must be under way, the oldest of its pair and collective,
and its way round the ring up (R23, R213). -/
def collMessage (ridge : Nat) (m : CollMsg) (s : State) : State :=
  if isSafe s then s
  else if m.sender / 4 = moduleId s then
    (if s.collNet.find? (fun x => x.sender == m.sender && x.receiver == m.receiver && x.group == m.group && x.seq == m.seq) = some m
        ∧ m.receiver = partId s ridge ∧ ringPath s (m.sender % 4) ridge (msgAddr m) then
      (match collReceive ridge m { s with collNet := s.collNet.erase m } with
        | some s => s
        | none => s)
    else s)
  else (collReceive ridge m s).getD s

/-! ## Retirement (R67, R211, R214) -/

/-- The contributions to a chunk in order of arrival. -/
def contributions (r : CollRun) (c : Nat) : List (List Byte) := (r.got.filter (fun p => p.2.1 == c)).map (fun p => p.2.2)

/-- Elements of a chunk. -/
def elems (n : Nat) (bs : List Byte) : List Nat := (List.range (bs.length / n)).map (fun i => leAt bs (n * i) n)

/-- The sum of contributions in arrival order (R67). -/
def sumChunks (ty : Nat) : List (List Byte) → List Byte × Flags
  | [] => ([], 0#32)
  | b :: rest =>
    let n := if ty = 1 then 2 else 4
    let add (x y : Nat) : Nat × Flags :=
      if ty = 2 then intResult (sext 32 x + sext 32 y) else fpAdd (if ty = 1 then fmtBF16 else fmtFP32) rndNear false x y
    let r := rest.foldl (fun (a : List Nat × Flags) bs =>
      let q := List.zipWith add a.1 (elems n bs)
      (q.map (·.1), q.foldl (fun f p => f ||| p.2) a.2)) (elems n b, 0#32)
    (r.1.flatMap (leBytes n), r.2)

/-- The assembled bytes of a chunk of an operation that moves bytes. -/
def assemble (r : CollRun) (c : Nat) : List Byte :=
  ((r.chunkOffs c).foldl (fun (a : List Byte × List (Nat × List Byte)) o =>
    let q := r.supplier o
    match a.2.find? (fun p => p.1 == q) with
    | some (_, b :: l) => (b :: a.1, a.2.map (fun p => if p.1 = q then (q, l) else p))
    | _ => (0#8 :: a.1, a.2)) ([], (List.range r.members.length).map (fun q => (q, gotData r q c)))).1.reverse

/-- A rank's whole SMERGE source as FP32 values, in order of arrival of the ranks. -/
def smergeSources (r : CollRun) : List (List Nat) :=
  let ranks := (r.got.map (·.1)).eraseDups
  ranks.map (fun q => elems 4 ((List.range r.chunks).flatMap (fun c => gotData r q c)))

/-- The merged state of one row (R211). -/
def smergeRow (norm : Bool) (n dd i : Nat) (srcs : List (List Nat)) : (Nat × Nat × List Nat) × Flags :=
  let at' (l : List Nat) (j : Nat) : Nat := (l[j]?).getD 0
  let mul := fpMul fmtFP32 rndNear false
  let add := fpAdd fmtFP32 rndNear false
  let fl2 (a : Nat × Flags) (b : Nat × Flags) : Flags := a.2 ||| b.2
  let m := (srcs.drop 1).foldl (fun (a : Nat × Flags) l =>
    let x := fpMinMax true fmtFP32 a.1 (at' l i)
    (x.1, fl2 a x)) (at' (srcs.headD []) i, 0#32)
  if srcs.all (fun l => at' l i == 0xFF800000) then ((m.1, 0, List.replicate dd 0), m.2)
  else
    let as := srcs.map (fun l =>
      let d := fpSub fmtFP32 rndNear false (at' l i) m.1
      let e := fpExp2 false d.1
      (e.1, fl2 d e))
    let comb (f : List Nat → Nat) : Nat × Flags :=
      let ps := (srcs.zip as).map (fun p => mul (f p.1) p.2.1)
      (ps.drop 1).foldl (fun (a : Nat × Flags) p =>
        let x := add a.1 p.1
        (x.1, a.2 ||| p.2 ||| x.2)) (ps.headD (0, 0#32))
    let l := comb (fun v => at' v (n + i))
    let os := (List.range dd).map (fun j => comb (fun v => at' v (2 * n + i * dd + j)))
    let inv := fpRcp false l.1
    let outs := if !norm then os else if l.1 = 0 then os.map (fun o => (0, o.2))
      else os.map (fun o => let x := mul o.1 inv.1; (x.1, o.2 ||| x.2 ||| inv.2))
    ((m.1, l.1, outs.map (·.1)), as.foldl (fun f a => f ||| a.2) (outs.foldl (fun f o => f ||| o.2) (m.2 ||| l.2)))

/-- The whole merged state as bytes. -/
def smergeAll (r : CollRun) : List Byte × Flags :=
  let n := cCount r.desc
  let dd := cAux r.desc
  let rows := (List.range n).map (fun i => smergeRow (cFlags r.desc == 1) n dd i (smergeSources r))
  (rows.flatMap (fun x => leBytes 4 x.1.1) ++ rows.flatMap (fun x => leBytes 4 x.1.2.1)
    ++ rows.flatMap (fun x => x.1.2.2.flatMap (leBytes 4)), rows.foldl (fun f x => f ||| x.2) 0#32)

/-- Whether everything a chunk needs has arrived. -/
def chunkReady (r : CollRun) (c : Nat) : Bool :=
  let cs := if cOp r.desc = 8 then List.range r.chunks else [c]
  cs.all (fun c => (List.range r.members.length).all (fun q => gotLen r q c == (r.supply q r.rank c).length))

/-- The bytes of a chunk of the destination, and the flags its arithmetic raises. -/
def chunkBytes (r : CollRun) (c : Nat) : List Byte × Flags :=
  if isReduce (cOp r.desc) then sumChunks (cType r.desc) (contributions r c)
  else if cOp r.desc = 8 then
    let m := smergeAll r
    ((m.1.drop (65536 * c)).take 65536, m.2)
  else (assemble r c, 0#32)

/-- The next chunk retires: translated whole, written, accepted by its owning ridge cache (R195, R214). -/
def collChunkRetire (h t : Nat) (s : State) : State :=
  match taskOf s h t with
  | none => s
  | some k => match k.coll with
    | none => s
    | some r =>
      if !r.started || k.st != tsRunning || k.endStatus.isSome || isSafe s || cOp r.desc == 7
          || decide (r.chunks ≤ r.chunk) || !chunkReady r r.chunk then s
      else
        let b := chunkBytes r r.chunk
        let va := (cDst r.desc + 65536 * r.chunk) % 2 ^ 64
        match vwrite (.coll k.unit) (tenantOfGraph s h) va b.1 accWrite s with
        | (.ok _, s) =>
          updTask h t (fun k => { k with
            flags := k.flags ||| b.2.toNat / 65536 % 64,
            coll := some { r with chunk := r.chunk + 1,
                                  got := if cOp r.desc = 8 then r.got else r.got.filter (fun p => p.2.1 != r.chunk) } }) s
        | (e, s) => collFail h t va accWrite e s

/-! ## Staging of attention blocks (R224, R225) -/

/-- Adds to a 64-bit word atomically at its owning ridge, if it is at least `need`. The Bool says it was done. It waits for a tag
(R180). -/
def atomicAdd (ridge tenant va need : Nat) (add : Nat → Nat) (s : State) : (Bool ⊕ VRes) × State :=
  match tagPass ridge (.coll ridge) tenant s with
  | none => (.inr .wait, s)
  | some s => match translate (.coll ridge) tenant va accAtomic s with
    | (.ok pa, s) => (match ownerRead ridge tenant pa 8 s with
      | (.ok bs, s) =>
        if leNat bs < need then (.inl false, s)
        else (match memWrite (paRidge pa) tenant pa (leBytes 8 (add (leNat bs) % 2 ^ 64)) s with
          | (.ok _, s) => (.inl true, s)
          | (.uncorr p, s) => (.inr (.uncorr va p), s)
          | (.lost u p, s) => (.inr (.lost u p), s))
      | (.uncorr p, s) => (.inr (.uncorr va p), s)
      | (.lost u p, s) => (.inr (.lost u p), s))
    | (e, s) => (.inr (vresOf va e), s)

/-- Takes one FREE credit of every consumer in turn, from the first not yet taken. The Bool says all are taken. -/
def takeFree (h t : Nat) : Nat → State → Bool × State
  | 0, s => (false, s)
  | f + 1, s =>
    match taskOf s h t with
    | none => (false, s)
    | some k => match k.coll with
      | none => (false, s)
      | some r =>
        if aConsumers r.aux ≤ r.freeIdx then (true, s)
        else
          let va := (leAt r.aux 0x50 8 + 8 * r.freeIdx) % 2 ^ 64
          match atomicAdd k.unit (tenantOfGraph s h) va 1 (· - 1) s with
          | (.inl true, s) => takeFree h t f (setColl h t { r with freeIdx := r.freeIdx + 1 } s)
          | (.inl false, s) => (false, s)
          | (.inr e, s) => (false, collFail h t va accAtomic e s)

/-- Raises every READY word in turn; `freeIdx` counts on past the consumers. -/
def raiseReady (h t : Nat) : Nat → State → Bool × State
  | 0, s => (false, s)
  | f + 1, s =>
    match taskOf s h t with
    | none => (false, s)
    | some k => match k.coll with
      | none => (false, s)
      | some r =>
        let n := aConsumers r.aux
        if 2 * n ≤ r.freeIdx then (true, s)
        else
          let va := (leAt r.aux 0x48 8 + 8 * (r.freeIdx - n)) % 2 ^ 64
          match atomicAdd k.unit (tenantOfGraph s h) va 0 (· + 1) s with
          | (.inl _, s) => raiseReady h t f (setColl h t { r with freeIdx := r.freeIdx + 1 } s)
          | (.inr e, s) => (false, collFail h t va accAtomic e s)

/-- The keys of a rank: its own, or those its first message gave. -/
def keysOf (r : CollRun) (q : Nat) : List Byte :=
  if q = r.rank then attnKeys r.aux else ((r.hello.find? (fun x => x.1 == q)).map (·.2)).getD []

/-- What is staged next: the oldest block waiting, or the end marker after the last (R224). -/
def stageNext (r : CollRun) : Option (Nat × Nat × Nat × List Byte) :=
  match r.stage with
  | b :: _ => some b
  | [] =>
    if !r.ended ∧ r.hello.length + 1 = r.members.length ∧ r.blocksIn = r.blocksDue then some (0, 0, helloChunk, []) else none

/-- Translates every page of a list of ranges: the first failure with its VA (R195). -/
def translateAll (rq : Requester) (tenant : Nat) : List (Nat × Nat × Access) → State → Option (Nat × Access × TRes) × State
  | [], s => (none, s)
  | (va, len, a) :: l, s => match translateRange rq tenant va len a s with
    | (.inl _, s) => translateAll rq tenant l s
    | (.inr (v, e), s) => (some (v, a, e), s)

/-- Stages a block whose credits are taken: once every page it touches is translated, its data and header are written, then every
READY word is raised (R195, R224). -/
def attnPut (h t tn : Nat) (k : Task) (r : CollRun) (q step j : Nat) (data : List Byte) (s0 : State) : State :=
  let mark := j = helloChunk
  let slot := r.staged % aSlots r.aux
  let now := stampAt s0 (16 + k.unit)
  let put (data : List Byte) (s : State) : VRes × State :=
    if mark then (.ok [], s)
    else vwrite (.coll k.unit) tn ((leAt r.aux 0x40 8 + slot * aBytes r.aux) % 2 ^ 64) data accWrite s
  let hdr := leFields [(4, if mark then 0 else blockPos r.aux (keysOf r q) j), (4, if mark then 0 else aTokens r.aux),
    (2, q), (2, step), (4, r.staged), (8, now)] ++ List.replicate 40 0#8
  let whole := (if mark then [] else [((leAt r.aux 0x40 8 + slot * aBytes r.aux) % 2 ^ 64, aBytes r.aux, accWrite)])
    ++ [((leAt r.aux 0x38 8 + 64 * slot) % 2 ^ 64, 64, accWrite), (leAt r.aux 0x48 8, 8 * aConsumers r.aux, accAtomic)]
  match translateAll (.coll k.unit) tn whole s0 with
  | (some (va, a, e), s) => collFail h t va a (vresOf va e) s
  | (none, s0) =>
  let src := if mark ∨ q ≠ r.rank then (VRes.ok data, s0)
    else vread (.coll k.unit) tn (ownBlockVa r.aux j) (aBytes r.aux) accRead s0
  match src with
  | (.ok bs, s) => match put bs s with
    | (.ok _, s) => match vwrite (.coll k.unit) tn ((leAt r.aux 0x38 8 + 64 * slot) % 2 ^ 64) hdr accWrite s with
      | (.ok _, s) =>
        let g := raiseReady h t (aConsumers r.aux + 1) s
        if !g.1 then g.2
        else match collOf g.2 h t with
          | none => g.2
          | some r => setColl h t { r with
              staged := r.staged + 1, freeIdx := 0, ended := r.ended || decide mark,
              chunk := if mark then r.chunk else r.chunk + 1, stage := if mark then r.stage else r.stage.drop 1 } g.2
      | (e, s) => collFail h t (leAt r.aux 0x38 8) accWrite e s
    | (e, s) => collFail h t (leAt r.aux 0x40 8) accWrite e s
  | (e, s) => collFail h t (ownBlockVa r.aux j) accRead e s

/-- Stages one block, or the end marker: credits, payload, header, READY (R224, R225). -/
def attnStage (h t : Nat) (s : State) : State :=
  match collOf s h t, taskOf s h t with
  | some r0, some k =>
    if !r0.started || cOp r0.desc != 7 || k.st != tsRunning || k.endStatus.isSome || isSafe s then s
    else match stageNext r0 with
      | none => s
      | some (q, step, j, data) =>
        let tn := tenantOfGraph s h
        let f := takeFree h t (aConsumers r0.aux + 1) s
        if !f.1 then f.2
        else match collOf f.2 h t with
          | none => f.2
          | some r =>
            attnPut h t tn k r q step j data f.2
  | _, _ => s

/-! ## Commit and failure (R212, R214 to R216) -/

/-- Everything a participant does is done. -/
def collDone (r : CollRun) : Bool :=
  r.started && r.owed.isEmpty && r.unacked.isEmpty && r.fwd.isEmpty && r.unit.isEmpty &&
    (if cOp r.desc = 0 then r.hello.length + 1 == r.members.length
     else if cOp r.desc = 7 then r.ended else decide (r.chunks ≤ r.chunk))

/-- A participant commits and advances its sequence count (R212, R214). -/
def collCommit (h t : Nat) (s : State) : State :=
  match taskOf s h t with
  | none => s
  | some k => match k.coll with
    | none => s
    | some r =>
      if k.st ≠ tsRunning ∨ k.endStatus.isSome ∨ !collDone r ∨ isSafe s then s
      else
        let s := putCollRecord h t 5 0 0 s
        let s := match groupByGid s r.gid with
          | some (n, g) => { s with groups := Mp.ins s.groups n { g with counts := Mp.put 0 g.counts r.rank (cSeq r.desc + 1) } }
          | none => s
        settle (makeFinal h t 0 0 (homeStamp s h t) s)

/-- A failure notice arrives: it ends the participant's task, which need not have started, or is kept for one not listed yet; the
sequence count does not pass it (R215, R216). -/
def takeNotice (ridge : Nat) (n : FailNotice) (s : State) : State :=
  match collFind s ridge n.group n.seq, groupByGid s n.group with
  | some (h, t, _, _), _ => applyNotice h t n s
  | none, some (_, g) =>
    (match g.members.idxOf? (partId s ridge) with
    | some rank => if collPast g rank n.seq then s
        else markFailed n.group rank n.seq { s with notices := s.notices ++ [n] }
    | none => s)
  | none, none => s

/-- The event of a notice's arrival: one from a ridge of this module must be under way. -/
def noticeReceive (ridge : Nat) (n : FailNotice) (s : State) : State :=
  if n.sender / 4 = moduleId s then
    (if s.notices.contains n ∧ n.receiver = partId s ridge ∧ ringPath s (n.sender % 4) ridge 0 then takeNotice ridge n { s with notices := s.notices.erase n } else s)
  else takeNotice ridge n s

def execCollectiveTaskStart (h t : Nat) (s : State) : Host.Outcome State Fault Refusal := .next (collStart h t s)
def execCollectiveFirstSend (h t : Nat) (s : State) : Host.Outcome State Fault Refusal := .next (collFirstSend h t s)
def execCollectiveMessageReceive (ridge : Nat) (m : CollMsg) (s : State) : Host.Outcome State Fault Refusal :=
  .next (collMessage ridge m s)
def execCollectiveChunkRetire (h t : Nat) (s : State) : Host.Outcome State Fault Refusal := .next (collChunkRetire h t s)
def execCollectiveCommit (h t : Nat) (s : State) : Host.Outcome State Fault Refusal := .next (collCommit h t s)
def execFailureNoticeReceive (ridge : Nat) (m : FailNotice) (s : State) : Host.Outcome State Fault Refusal :=
  .next (noticeReceive ridge m s)
def execAttnBlockStage (h t : Nat) (s : State) : Host.Outcome State Fault Refusal := .next (attnStage h t s)

end Sys2Proof.Machine
end

