-- ==== Sys2Proof/Machine/Near.lean ====
section
/-! DEFINITION. The near-memory primitives (spec/05_memory_stacks_and_ridge_cache.md R140, R162, R164 to R170;
spec/02_arithmetic_and_tensor_engines.md R67), and aborts (spec/04_task_graphs_and_binding.md R123, R124). -/

namespace Sys2Proof.Machine

/-! ## Descriptors (R164) -/

def nOp (d : List Byte) : Nat := leAt d 0 1
def nType (d : List Byte) : Nat := leAt d 1 1
def nAccum (d : List Byte) : Bool := bitOf (leAt d 2 1) 0
def nAuto (d : List Byte) : Bool := bitOf (leAt d 2 1) 1
def nIdx (d : List Byte) : Nat := if bitOf (leAt d 2 1) 2 then 8 else 4
def nSrcs (d : List Byte) : Nat := leAt d 3 1
def nDst (d : List Byte) : Nat := leAt d 8 8
def nSrc (d : List Byte) : Nat := leAt d 0x10 8
def nAux (d : List Byte) : Nat := leAt d 0x18 8
def nCount (d : List Byte) : Nat := leAt d 0x20 8
def nLo (d : List Byte) : Nat := leAt d 0x20 4
def nHi (d : List Byte) : Nat := leAt d 0x24 4
def nParam (d : List Byte) : Nat := leAt d 0x28 8

/-- Bytes of an element of REDUCE and SCATTER_ADD, and bits of an element of TRANSPOSE. -/
def nElem (d : List Byte) : Nat := if nType d = 1 then 2 else 4
def nBits (d : List Byte) : Nat := 4 * 2 ^ nType d

/-- The alignment its elements need. -/
def nAlign (d : List Byte) : Nat :=
  if nOp d = 3 then 1 else if nOp d = 2 then (nBits d + 7) / 8 else nElem d

/-- Bytes of the destination, as far as chunks count them. -/
def nTotal (d : List Byte) : Nat :=
  if nOp d = 0 then nCount d * nElem d else if nOp d = 2 then nLo d * nHi d * nBits d / 8 else nLo d * nHi d

/-- The chunks of an operation (R169). -/
def nChunks (d : List Byte) : Nat := if nOp d = 1 then (nCount d + 255) / 256 else (nTotal d + 4095) / 4096

/-- The fields R164 blames, as offsets. -/
def nearBlamed (d : List Byte) : List Nat :=
  let op := nOp d
  let chk (b : Bool) (o : Nat) : List Nat := if b then [o] else []
  chk (decide (3 < op)) 0
  ++ chk (if op = 2 then decide (3 < nType d) else if op = 3 then nType d != 0 else decide (2 < nType d)) 1
  ++ chk (decide (7 < leAt d 2 1) || (nAccum d && op != 0) || (bitOf (leAt d 2 1) 2 && op != 1)) 2
  ++ chk (if op = 0 then nSrcs d == 0 || decide (16 < nSrcs d) else nSrcs d != 0) 3
  ++ chk (leAt d 4 4 != 0) 4
  ++ chk (nDst d % nAlign d != 0) 8
  ++ chk (nSrc d % nAlign d != 0) 0x10
  ++ chk (if op = 0 then nAux d % nAlign d != 0 else if op = 1 then nAux d % nIdx d != 0 else nAux d != 0) 0x18
  ++ chk (op == 2 && nType d == 0 && (nLo d % 2 != 0 || nHi d % 2 != 0)) 0x20
  ++ chk ((op == 0 || op == 2) && nParam d != 0) 0x28
  ++ chk (!((d.drop 0x30).all (· == 0#8))) 0x30

/-! ## The stacks, past the caches (R140, R167) -/

/-- Reads a physical range of the stacks. -/
def rawRead (pa len : Nat) (s : State) : MRes × State :=
  (sectorsOf pa len).foldl (fun r p => match r with
    | (.ok acc, s) => match readCw p.1 3 s with
      | (.ok bs, s) => (.ok (acc ++ (bs.drop p.2.1).take p.2.2), s)
      | e => e
    | e => e) (.ok [], s)

/-- Writes a physical range of the stacks: how many bytes have been dealt with, and the sectors that failed, each a codeword that
could not be merged, whose part alone is dropped, or a stack that is fenced (R152, R169). -/
def rawWrite (pa : Nat) (bytes : List Byte) (s : State) : List MRes × State :=
  let r := (sectorsOf pa bytes.length).foldl (fun (r : Nat × List MRes × State) p =>
      let bs := (bytes.drop r.1).take p.2.2
      let whole := List.replicate p.2.1 0#8 ++ bs ++ List.replicate (64 - p.2.1 - p.2.2) 0#8
      let mask := List.replicate p.2.1 false ++ List.replicate p.2.2 true ++ List.replicate (64 - p.2.1 - p.2.2) false
      match writeCw p.1 3 whole mask r.2.2 with
      | (.taken, s) => (r.1 + p.2.2, r.2.1, s)
      | (.dropped, s) => (r.1 + p.2.2, r.2.1 ++ [.uncorr p.1], s)
      | (.refused, s) => (r.1 + p.2.2, r.2.1 ++ [.lost (stackUnit s p.1) p.1], s)) (0, [], s)
  r.2

/-- Writes back and removes every line of a PA range in its owning cache; a sector no stack accepts keeps its line (R160, R162). -/
def flushOut (pa len : Nat) (s : State) : State :=
  (linesIn s (paRidge pa) pa len).foldl (fun s la =>
    let q := flushLine (paRidge pa) la s
    if q.1 then dropLine (paRidge pa) la q.2 else q.2) s

/-! ## Records and failures -/

/-- Writes DONE and SKIPPED into a NEAR descriptor when its task ends (R164, R497). -/
def putNearRecord (h t : Nat) (s : State) : State :=
  match taskOf s h t with
  | none => s
  | some k =>
    let r := k.near.getD ⟨[], 0, 0, 0⟩
    putDescRecord ⟨.near k.unit, tenantOfGraph s h, (k.target + 0x70) % 2 ^ 64,
      leFields [(8, r.chunk), (4, r.skipped), (4, 0)], some (h, t)⟩ s

/-- Ends a NEAR task. -/
def nearEnd (h t status detail : Nat) (s : State) : State := failTask h t status detail (putNearRecord h t s)

/-- A DESCRIPTOR fault that names a field. -/
def nearRefuse (h t off : Nat) (s : State) : State :=
  match taskOf s h t with
  | none => s
  | some k =>
    let q := nextFseq s
    let f : FaultInfo := {
      kind := 0x14, t := stampAt s (16 + k.unit), source := 3, tenant := tenantOfGraph s h, unit := 16 + k.unit
      handle := h, task := t, detail := off, origin := k.target }
    nearEnd h t stDmaError q (faultRec f s)

/-- A failed access: a serviceable fault parks the task at its chunk (R169, R195), another ends it. -/
def nearFail (h t va : Nat) (a : Access) (e : VRes) (s : State) : State :=
  match taskOf s h t with
  | none => s
  | some k =>
    let q := nextFseq s
    let now := failStamp (.near k.unit) s e
    let ch := (k.near.map (·.chunk)).getD 0
    match e with
    | .ok _ => s
    | .wait => s
    | .fault .. => unitFaultWait h t now q (recordFail (.near k.unit) (tenantOfGraph s h) va a e true h t ch k.target s)
    | e => nearEnd h t (failStatus e) q (recordFail (.near k.unit) (tenantOfGraph s h) va a e false h t ch k.target s)

/-- Several failures of one chunk: each is recorded, and the first ends the task (R151, R169). -/
def nearFails (h t : Nat) (a : Access) (l : List (Nat × VRes)) (s : State) : State :=
  match l with
  | [] => s
  | (va, e) :: rest =>
    let n := ((taskOf s h t).map (·.unit)).getD 0
    let ch := (((taskOf s h t).bind (·.near)).map (·.chunk)).getD 0
    let tgt := ((taskOf s h t).map Task.target).getD 0
    rest.foldl (fun s p => recordFail (.near n) (tenantOfGraph s h) p.1 a p.2 false h t ch tgt s) (nearFail h t va a e s)

/-- A memory failure at a VA as the failure of an access. -/
def vresOfMem (va : Nat) : MRes → VRes
  | .ok bs => .ok bs
  | .uncorr pa => .uncorr va pa
  | .lost u pa => .lost u pa

/-- What the translation of operands comes to: their PAs, a failed access, or an operand in another ridge. -/
inductive NearTr where
  | ok (pas : List (List (Nat × Nat)))
  | fail (va : Nat) (a : Access) (e : VRes)
  | elsewhere (off : Nat)
  deriving DecidableEq, Repr

/-- Translates operand ranges, each with the descriptor offset of its address (R166, R169). -/
def nearTranslate (n tenant : Nat) : List (Nat × Nat × Nat × Access) → State → NearTr × State
  | [], s => (.ok [], s)
  | (off, va, len, a) :: r, s => match translateRange (.near n) tenant (va % 2 ^ 64) len a s with
    | (.inr (v, e), s) => (.fail v a (vresOf v e), s)
    | (.inl ps, s) =>
      if ps.any (fun p => paRidge p.1 != n) then (.elsewhere off, s)
      else match nearTranslate n tenant r s with
        | (.ok l, s) => (.ok (ps :: l), s)
        | e => e

/-- Reads the pieces of one operand range. -/
def nearRead (va : Nat) (ps : List (Nat × Nat)) (s : State) : VRes × State :=
  ps.foldl (fun r p => match r with
    | (.ok acc, s) => match rawRead p.1 p.2 s with
      | (.ok bs, s) => (.ok (acc ++ bs), s)
      | (e, s) => (vresOfMem ((va + acc.length) % 2 ^ 64) e, s)
    | e => e) (.ok [], s)

/-- Writes the pieces of one operand range: what failed, each with its VA. -/
def nearWrite (va : Nat) (ps : List (Nat × Nat)) (bytes : List Byte) (s : State) : List (Nat × VRes) × State :=
  (ps.foldl (fun (r : Nat × List (Nat × VRes) × State) p =>
    let w := rawWrite p.1 ((bytes.drop r.1).take p.2) r.2.2
    let fs := w.1.map (fun e =>
      let at' : Nat := (va + r.1 + ((match e with
        | .uncorr pa => pa
        | .lost _ pa => pa
        | .ok _ => p.1) - p.1)) % 2 ^ 64
      (at', vresOfMem at' e))
    (r.1 + p.2, r.2.1 ++ fs, w.2)) (0, [], s)).2

/-- The pages of operand ranges, wherever they lie: every piece, or the first failure (R162, R167). -/
def nearPages (n tenant : Nat) : List (Nat × Nat × Nat × Access) → State → (List (Nat × Nat) ⊕ (Nat × Access × TRes)) × State
  | [], s => (.inl [], s)
  | (_, va, len, a) :: r, s => match translateRange (.near n) tenant (va % 2 ^ 64) len a s with
    | (.inr (v, e), s) => (.inr (v, a, e), s)
    | (.inl ps, s) => match nearPages n tenant r s with
      | (.inl l, s) => (.inl (ps ++ l), s)
      | e => e

/-- Reads several operand ranges. -/
def nearReads : List (Nat × List (Nat × Nat)) → State → (List (List Byte) ⊕ (Nat × VRes)) × State
  | [], s => (.inl [], s)
  | (va, ps) :: r, s => match nearRead va ps s with
    | (.ok bs, s) => (match nearReads r s with
      | (.inl l, s) => (.inl (bs :: l), s)
      | e => e)
    | (e, s) => (.inr (va, e), s)

/-! ## What a chunk reads and computes (R165, R169) -/

/-- Destination byte range of a chunk. -/
def nearSpan (d : List Byte) (c : Nat) : Nat × Nat := (4096 * c, min 4096 (nTotal d - 4096 * c))

/-- A list in an order a free number picks (R67: contributions are added in the order in which they arrive). -/
def permute {α : Type} : Nat → List α → Nat → List α
  | 0, l, _ => l
  | f + 1, l, v =>
    match l[v % max 1 l.length]? with
    | none => l
    | some x => x :: permute f (l.eraseIdx (v % max 1 l.length)) (v / max 1 l.length)

/-- One addition of a reduction (R67). -/
def nearAdd (ty x y : Nat) : Nat × Flags :=
  if ty = 2 then intResult (sext 32 x + sext 32 y) else fpAdd (if ty = 1 then fmtBF16 else fmtFP32) rndNear false x y

/-- The sum of the contributions to one element, in order. -/
def sumList (ty : Nat) : List Nat → Nat × Flags
  | [] => (0, 0#32)
  | x :: r => r.foldl (fun (a : Nat × Flags) y =>
      let z := nearAdd ty a.1 y
      (z.1, a.2 ||| z.2)) (x, 0#32)

/-- The source ranges of a chunk: TRANSPOSE reads element by element, RESTRIDE row by row. -/
def nearSources (d : List Byte) (c : Nat) : List (Nat × Nat) :=
  let (o, n) := nearSpan d c
  if nOp d = 0 then (List.range (nSrcs d)).map (fun i => (nSrc d + i * nAux d + o, n))
  else if nOp d = 2 then
    let w := nBits d
    (List.range (n * 8 / w)).map (fun i =>
      let e := o * 8 / w + i
      let k := e % nLo d * nHi d + e / nLo d
      (nSrc d + k * w / 8, (w + 7) / 8))
  else
    (List.range (nHi d)).filterMap (fun r =>
      let lo := max o (r * nLo d)
      let hi := min (o + n) (r * nLo d + nLo d)
      if lo < hi then some (nSrc d + r * (nParam d % 2 ^ 32) + (lo - r * nLo d), hi - lo) else none)

/-- The destination ranges of a chunk. -/
def nearDests (d : List Byte) (c : Nat) : List (Nat × Nat) :=
  let (o, n) := nearSpan d c
  if nOp d = 3 then
    (List.range (nHi d)).filterMap (fun r =>
      let lo := max o (r * nLo d)
      let hi := min (o + n) (r * nLo d + nLo d)
      if lo < hi then some (nDst d + r * (nParam d / 2 ^ 32) + (lo - r * nLo d), hi - lo) else none)
  else [(nDst d + o, n)]

/-- The bytes of a chunk of the destination, from the bytes read, and the flags raised. -/
def nearCompute (d : List Byte) (c : Nat) (srcs : List (List Byte)) (old : List Byte) (s : State) : List Byte × Flags :=
  if nOp d = 0 then
    let es := nElem d
    let n := (nearSpan d c).2 / es
    let rs := (List.range n).map (fun i =>
      let l := permute 16 (srcs.map (fun b => leAt b (i * es) es)) (Config.free 20 (s.freeCtr + i))
      sumList (nType d) (if nAccum d then leAt old (i * es) es :: l else l))
    (rs.flatMap (fun r => leBytes es r.1), rs.foldl (fun f r => f ||| r.2) 0#32)
  else if nOp d = 2 ∧ nType d = 0 then
    let o := 2 * (nearSpan d c).1
    let nibs := srcs.mapIdx (fun i b =>
      let e := o + i
      let k := e % nLo d * nHi d + e / nLo d
      fieldOf (leNat b) (4 * (k % 2)) 4)
    ((List.range (nibs.length / 2)).map (fun i => BitVec.ofNat 8 ((nibs[2 * i]?).getD 0 + 16 * (nibs[2 * i + 1]?).getD 0)), 0#32)
  else (srcs.flatten, 0#32)

/-- A finished chunk, and the end of the task after the last (R164). -/
def nearChunkDone (h t : Nat) (r : NearRun) (fl : Flags) (s : State) : State :=
  let s := updTask h t (fun k => { k with flags := k.flags ||| fl.toNat / 65536 % 64, near := some { r with chunk := r.chunk + 1 } }) s
  if nChunks r.desc ≤ r.chunk + 1 then nearEnd h t 0 0 s else s

/-- A chunk of REDUCE, TRANSPOSE or RESTRIDE: translated whole, read whole, computed whole, then written (R169). -/
def nearMove (h t n : Nat) (r : NearRun) (s : State) : State :=
  let d := r.desc
  let tn := tenantOfGraph s h
  let ss := nearSources d r.chunk
  let ds := nearDests d r.chunk
  let wr : Access := if nOp d = 0 ∧ nAccum d then accAtomic else accWrite
  match nearTranslate n tn (ss.map (fun p => (0x10, p.1, p.2, accRead)) ++ ds.map (fun p => (8, p.1, p.2, wr))) s with
  | (.elsewhere off, s) => nearRefuse h t off s
  | (.fail va a e, s) => nearFail h t va a e s
  | (.ok pss, s) =>
    let sp := (ss.map (·.1)).zip pss
    let dp := (ds.map (·.1)).zip (pss.drop ss.length)
    match nearReads sp s with
    | (.inr (va, e), s) => nearFail h t va accRead e s
    | (.inl bs, s) =>
      match (if wr = accAtomic then nearReads dp s else (.inl [], s)) with
      | (.inr (va, e), s) => nearFail h t va accAtomic e s
      | (.inl old, s) =>
        let q := nearCompute d r.chunk bs old.flatten s
        let s := { s with freeCtr := s.freeCtr + 4096 }
        let w := dp.foldl (fun (a : List (Nat × VRes) × Nat × State) p =>
          let len := (p.2.map (·.2)).foldl (· + ·) 0
          let x := nearWrite p.1 p.2 ((q.1.drop a.2.1).take len) a.2.2
          (a.1 ++ x.1, a.2.1 + len, x.2)) ([], 0, s)
        if w.1 = [] then nearChunkDone h t r q.2 w.2.2 else nearFails h t accWrite w.1 w.2.2

/-- One pair of a SCATTER_ADD applied to memory: an uncorrectable destination codeword leaves its update out (R169). -/
def nearApply (d : List Byte) (a : List (Nat × VRes) × Flags × State) (p : Nat × Nat × List (Nat × Nat)) :
    List (Nat × VRes) × Flags × State :=
  match nearRead p.1 p.2.2 a.2.2 with
  | (.ok bs, s) =>
    let z := nearAdd (nType d) (leNat bs) p.2.1
    let w := nearWrite p.1 p.2.2 (leBytes (nElem d) z.1) s
    (a.1 ++ w.1, if w.1 = [] then a.2.1 ||| z.2 else a.2.1, w.2)
  | (e, s) => (a.1 ++ [(p.1, e)], a.2.1, s)

/-- A chunk of SCATTER_ADD (R165, R169). -/
def nearScatter (h t n : Nat) (r : NearRun) (s : State) : State :=
  let d := r.desc
  let tn := tenantOfGraph s h
  let es := nElem d
  let lo := 256 * r.chunk
  let m := min 256 (nCount d - lo)
  let vi := nAux d + lo * nIdx d
  let vv := nSrc d + lo * es
  match nearTranslate n tn [(0x18, vi, m * nIdx d, accRead), (0x10, vv, m * es, accRead)] s with
  | (.elsewhere off, s) => nearRefuse h t off s
  | (.fail va a e, s) => nearFail h t va a e s
  | (.ok pss, s) =>
    match nearReads ([vi, vv].zip pss) s with
    | (.inr (va, e), s) => nearFail h t va accRead e s
    | (.inl l, s) =>
      let ib := (l[0]?).getD []
      let vb := (l[1]?).getD []
      let pairs := (List.range m).map (fun j => (leAt ib (j * nIdx d) (nIdx d), leAt vb (j * es) es))
      let good := permute m (pairs.filter (fun p => decide (p.1 < nParam d))) (freeVal 21 s)
      match nearTranslate n tn (good.map (fun p => (8, nDst d + p.1 * es, es, accAtomic))) (nextFree s) with
      | (.elsewhere off, s) => nearRefuse h t off s
      | (.fail va a e, s) => nearFail h t va a e s
      | (.ok pas, s) =>
        let ups := (good.zip pas).map (fun q => (nDst d + q.1.1 * es, q.1.2, q.2))
        let a := ups.foldl (nearApply d) ([], 0#32, s)
        if a.1 ≠ [] then nearFails h t accAtomic a.1 a.2.2
        else nearChunkDone h t { r with skipped := (r.skipped + (m - good.length)) % 2 ^ 32 } a.2.1 a.2.2

/-- Every operand range of a task, for the walk of CACHE_AUTO (R167). -/
def nearOperands (d : List Byte) : List (Nat × Nat × Nat × Access) :=
  if nOp d = 0 then (8, nDst d, nTotal d, accWrite) :: (List.range (nSrcs d)).map (fun i => (0x10, nSrc d + i * nAux d, nTotal d, accRead))
  else if nOp d = 1 then
    [(8, nDst d, nParam d * nElem d, accAtomic), (0x10, nSrc d, nCount d * nElem d, accRead), (0x18, nAux d, nCount d * nIdx d, accRead)]
  else if nOp d = 2 then [(8, nDst d, nTotal d, accWrite), (0x10, nSrc d, nTotal d, accRead)]
  else (List.range (nHi d)).flatMap (fun r =>
    [(8, nDst d + r * (nParam d / 2 ^ 32), nLo d, accWrite), (0x10, nSrc d + r * (nParam d % 2 ^ 32), nLo d, accRead)])

/-! ## Running (R164 to R170) -/

/-- NEAR tasks a ridge's unit runs (R170: at most eight). -/
def nearRunning (s : State) (n : Nat) : Nat :=
  ((allTasks s).filter (fun q => q.2.2.2.kind == 2 && q.2.2.2.st == tsRunning && q.2.2.2.near.isSome && q.2.2.2.unit == n)).length

/-- The NEAR tasks of a unit that wait before a task, in the order of R114. -/
def nearAhead (s : State) (n h t : Nat) : Nat :=
  let ws := (allTasks s).filter (fun q => q.2.2.2.kind == 2 && q.2.2.2.st == tsRunning && q.2.2.2.endStatus.isNone
    && q.2.2.2.near.isNone && q.2.2.2.unit == n)
  match ws.find? (fun q => q.1 == h && q.2.1 == t) with
  | none => 0
  | some me => (ws.filter (fun q => (q.1 != h || q.2.1 != t) && collBefore q me)).length

/-- The turns that the running tasks of a NEAR unit have had, of those with chunks left and but for one task (R170). -/
def nearTurns (s : State) (n h t : Nat) : List Nat :=
  (allTasks s).filterMap (fun q => match q.2.2.2.near with
    | some r => if q.2.2.2.st = tsRunning ∧ q.2.2.2.endStatus.isNone ∧ q.2.2.2.unit = n ∧ r.chunk < nChunks r.desc
        ∧ (q.1 ≠ h ∨ q.2.1 ≠ t) then some r.turn else none
    | none => none)

/-- A NEAR task reaches its unit: the descriptor is read and checked, and with CACHE_AUTO its operands leave the cache. A unit that
runs eight takes it later, in the order of R114. -/
def nearStart (h t : Nat) (s : State) : State :=
  match taskOf s h t with
  | none => s
  | some k =>
    if k.kind ≠ 2 ∨ k.st ≠ tsRunning ∨ k.endStatus.isSome ∨ k.near.isSome ∨ isSafe s then s
    else
      let tn := tenantOfGraph s h
      if k.target % 64 ≠ 0 then nearRefuse h t 0 s else
      match vread (.near k.unit) tn k.target 64 accRead s with
      | (.ok d, s) =>
        let begin' (s : State) : State := updTask h t (fun k => { k with
          near := some ⟨d, 0, 0, (nearTurns s k.unit h t).foldl min ((nearTurns s k.unit h t).headD 0)⟩ }) s
        (match lowestOff (nearBlamed d) with
        | some off => nearRefuse h t off (begin' s)
        | none =>
          match translate (.near k.unit) tn (nDst d) accWrite s with
          | (.ok pa, s) =>
            let n := paRidge pa
            let s := updTask h t (fun k => { k with unit := n }) s
            if 8 ≤ nearRunning s n + nearAhead s n h t then s
            else if !ridgeServes s n then nearFail h t (nDst d) accWrite (.lost (16 + n) pa) (begin' s)
            else if nChunks d = 0 then nearEnd h t 0 0 (begin' s)
            else if nAuto d then
              (match nearPages n tn (nearOperands d) s with
              | (.inr (va, a, e), s) => nearFail h t va a (vresOf va e) s
              | (.inl ps, s) => begin' ((ps.filter (fun p => paRidge p.1 == n)).foldl (fun s p => flushOut p.1 p.2 s) s))
            else begin' s
          | (e, s) => nearFail h t (nDst d) accWrite (vresOf (nDst d) e) s)
      | (e, s) => nearFail h t k.target accRead e s

/-- The next chunk of a NEAR task, when its turn has come and a tag is free (R169, R170, R180). -/
def nearChunk (h t : Nat) (s : State) : State :=
  match taskOf s h t with
  | none => s
  | some k => match k.near with
    | none => s
    | some r =>
      if k.st ≠ tsRunning ∨ k.endStatus.isSome ∨ isSafe s ∨ nChunks r.desc ≤ r.chunk
          ∨ (nearTurns s k.unit h t).any (fun x => decide (x < r.turn)) then s
      else
        let ts := nearTurns s k.unit h t
        let r := { r with turn := max r.turn (ts.foldl min (ts.headD 0)) + 1 }
        match tagPass k.unit (.near k.unit) (tenantOfGraph s h) (updTask h t (fun k => { k with near := some r }) s) with
        | none => updTask h t (fun k => { k with near := some r }) s
        | some s => if nOp r.desc = 1 then nearScatter h t k.unit r s else nearMove h t k.unit r s

/-! ## Aborts (R123, R124) -/

/-- What the unit of a DMA, NEAR or COLLECTIVE task leaves behind when the task is ended from outside, whether it runs or is
parked (R123, R185, R207); its peers are told of no fault (R215). -/
def endUnit (h t status : Nat) (s : State) : State :=
  match taskOf s h t with
  | none => s
  | some k =>
    let s := if k.xfer.isSome then finishXfer (.task h t) 7 status 0 s else cancelTags (.task h t) s
    let s := if k.near.isSome then putNearRecord h t s else s
    match k.coll with
    | some r => putCollRecord h t 7 status 0 (setColl h t { r with fail := none } s)
    | none => s

/-- An abort takes effect on a task that is not final (R123, R124). -/
def abortTask (h t : Nat) (s : State) : State :=
  match taskOf s h t with
  | none => s
  | some k =>
    if k.st = tsFinal then s
    else
      let now := homeStamp s h t
      let s := k.held.foldl (fun s c => stopCore c stAborted s) s
      settle (makeFinal h t stAborted now now (endUnit h t stAborted s))

def execNearTaskStart (h t : Nat) (s : State) : Host.Outcome State Fault Refusal := .next (nearStart h t s)
def execNearChunkComplete (h t : Nat) (s : State) : Host.Outcome State Fault Refusal := .next (nearChunk h t s)

end Sys2Proof.Machine
end

