-- ==== Sys2Proof/Machine/Fabric.lean ====
section
/-! DEFINITION. The link layer of a fabric port: sending, reports, replay, drops, training and link exchanges
(spec/10_fabric_link_layer.md R294 to R319). -/

namespace Sys2Proof.Machine

/-- A port of the grade. -/
def isPort (s : State) (p : Nat) : Bool := decide (p < nPorts s)

def portNow (s : State) (p : Nat) : Nat := stampAt s (16 + pN p)
def portSession (s : State) (p : Nat) : Nat := fget s (rFLK_PORT_SESSION (pN p) (pQ p)) fFLK_PORT_SESSION_SESSION
def portHalf (s : State) (p : Nat) : Bool := fget s (rFLK_PORT_STATUS (pN p) (pQ p)) fFLK_PORT_STATUS_HALF == 1

/-- Sets an event bit of FLK_PORT_EVT. -/
def portEvt (p : Nat) (f : Fld) (s : State) : State := fset (rFLK_PORT_EVT (pN p) (pQ p)) f 1 s

/-- The LINK trace record (R337). -/
def traceLink (p code : Nat) (s : State) : State :=
  trace (5 + pN p) (16 + pN p) 4 0 (portNow s p) (leFields [(1, p), (1, code), (4, portSession s p)]) s

/-- REPLAY_BYTES: the lane bytes of every replay buffer entry. -/
def replayBytes (x : Port) (take : Nat → Bool) : Nat :=
  ((x.lanes.filter (fun (l : Nat × Lane) => take l.1)).flatMap (fun (l : Nat × Lane) => l.2.replay.map Pkt.laneBytes)).foldl (· + ·) 0
def heldReg (p : Nat) (s : State) : State :=
  fset (rFLK_PORT_HELD (pN p) (pQ p)) fFLK_PORT_HELD_REPLAY_BYTES (replayBytes (portOf s p) (fun _ => true)) s

/-- Modulo-2^24 order of sequence numbers and limits (R303). -/
def seqLater (a b : Nat) : Bool :=
  let d := (a + 2 ^ 24 - b % 2 ^ 24) % 2 ^ 24
  decide (1 ≤ d ∧ d ≤ 2 ^ 23 - 1)

/-! ## Sending (R306 to R308) -/

/-- Whether lane `l` may start a packet: credit, the 4,096 of R307 and replay room (R306). -/
def laneRoom (x : Port) (l : Nat) (p : Pkt) : Bool :=
  let ln := Mp.get {} x.lanes l
  !seqLater (ln.sent + p.units) ln.limit && decide (ln.replay.length < 4096) &&
  (if l % 2 = 1 ∧ l < 14 then decide (replayBytes x (fun _ => true) + p.laneBytes ≤ 1048576 - 65536)
   else if 14 ≤ l then decide (replayBytes x (fun _ => true) + p.laneBytes ≤ 1048576)
   else decide (replayBytes x (fun l => l % 2 == 0 && decide (l < 14)) + p.laneBytes ≤ 851968
      ∧ replayBytes x (fun _ => true) + p.laneBytes ≤ 1048576))

/-- The arbitration class of a lane (R308): VC7, responses, requests. -/
def laneClass (l : Nat) : Nat := if 14 ≤ l then 0 else if l % 2 = 1 then 1 else 2

/-- Lanes that could start a packet now. -/
def readyLanes (x : Port) : List Nat :=
  (List.range 16).filter (fun l => match (Mp.get {} x.lanes l).wait with
    | p :: _ => laneRoom x l p
    | [] => false)

/-- A lane's weight in its round: 1 for responses, the VC weight for requests (R308). -/
def laneWeight (x : Port) (l : Nat) : Nat := if l % 2 = 1 then 1 else (x.weights[l / 2]?).getD 1

/-- Whether the arbiter lets a lane start a packet, and the turns of its round before it does (R308). -/
def arbitrate (x : Port) (l : Nat) : Option (Mp Nat) :=
  let rs := readyLanes x
  if !rs.contains l || rs.any (fun r => decide (laneClass r < laneClass l)) then none
  else if laneClass l = 0 then some x.turns
  else
    let peers := rs.filter (fun r => laneClass r == laneClass l)
    if Mp.get 0 x.turns l < laneWeight x l then some x.turns
    else if peers.all (fun r => decide (laneWeight x r ≤ Mp.get 0 x.turns r)) then
      some (x.turns.filter (fun t => laneClass t.1 != laneClass l))
    else none

/-- Whether packets move on a port: UP, out of the safe state, with a module identifier (R314). -/
def portCarries (s : State) (p : Nat) : Bool := isPort s p && portState s p == 3 && moduleIdSet s && !isSafe s

/-- Whether a port's Porger lets packets start: no switch-over holds them and its transmitters have light (R271, R289). -/
def portLit (s : State) (p : Nat) : Bool := !(porgerOf s (pK p)).hold && !(porgerOf s (pK p)).gap && !(porgerOf s (pK p)).blanked

/-- An injected error turns one bit, which no rule chooses, of the next data sent on a port (R442). -/
def strikeData (p : Nat) (bytes : List Byte) (s : State) : List Byte × State :=
  let key := (1 + pN p) * 65536 + 0xF1 * 256 + pQ p
  if bytes = [] ∨ Mp.get 0 s.inj key = 0 then (bytes, s)
  else
    let b := freeVal 45 s % (8 * bytes.length)
    (modAt bytes (b / 8) (· ^^^ BitVec.ofNat 8 (2 ^ (b % 8))), nextFree { s with inj := Mp.upd 0 s.inj key (· - 1) })

/-- Whether a packet may enter a port: it is tenant 0's, or of the tenant the port is bound to (R137); another stays held where it
waits, and is overtaken (R322). -/
def mayEnter (s : State) (p : Nat) (pk : Pkt) : Bool := pk.tenant == 0 || portTenant s p == some pk.tenant

/-- A port with only the waiting packets that may enter it. -/
def portView (s : State) (p : Nat) : Port :=
  let x := portOf s p
  { x with lanes := x.lanes.map (fun l => (l.1, { l.2 with wait := l.2.wait.filter (mayEnter s p) })) }

/-- Starts the next packet of a lane. -/
def packetSend (p l : Nat) (s : State) : State :=
  let x := portOf s p
  if !portCarries s p || !portLit s p then s
  else match arbitrate (portView s p) l, (Mp.get {} (portView s p).lanes l).wait with
    | some turns, first :: _ =>
      let ln := Mp.get {} x.lanes l
      let pk := { first with seq := ln.next % 2 ^ 24 }
      let ln := { ln with next := ln.next + 1, wait := ln.wait.erase first, replay := ln.replay ++ [pk], sent := ln.sent + pk.units }
      let (out, s) := strikeData p pk.bytes s
      heldReg p (sendOnLane p l pk.sop out
        (setPort p { x with lanes := Mp.put {} x.lanes l ln, turns := Mp.upd 0 turns l (· + 1) } s))
    | _, _ => s

/-! ## Acknowledgement and replay (R304, R305, R310) -/

/-- The eight bytes of a control block (R297). -/
def ctlBytes (fs : List (Nat × Nat)) : List Byte := bytesAt (leFields fs) 0 8

/-- A control block goes out on a port. -/
def sendCtl (p : Nat) (fs : List (Nat × Nat)) (s : State) : State := sendBlock p (ctlBytes fs) s

/-- Sends the RXSTAT of a lane. -/
def sendRxstat (p l : Nat) (nak : Bool) (s : State) : State :=
  let ln := laneOf s p l
  sendCtl p [(1, 0x4B), (1, l), (3, ln.accepted % 2 ^ 24), (1, b2n nak)] (updLane p l (fun x => { x with statSent := x.accepted }) s)

/-- The limit a receiver may report: the lane's 16 KiB and its share of the pool among lanes heard in the last 10 µs,
never lowered (R307). -/
def laneLimit (s : State) (p l : Nat) : Nat :=
  let now := portNow s p
  let n := ((portOf s p).lanes.filter (fun x => x.2.lastRx != 0 && decide (now ≤ x.2.lastRx + 40000))).length
  let ln := laneOf s p l
  let share := if ln.lastRx != 0 ∧ now ≤ ln.lastRx + 40000 then 3072 / max 1 n else 0
  max ln.limitSent (ln.units + 64 + share)

/-- Sends the ACK of a lane. -/
def sendAck (p l : Nat) (s : State) : State :=
  let lim := laneLimit s p l
  let ln := laneOf s p l
  sendCtl p [(1, 0x33), (1, l), (3, ln.consumed % 2 ^ 24), (3, lim % 2 ^ 24)]
    (updLane p l (fun x => { x with ackSent := x.consumed, limitSent := lim, unitSent := x.units }) s)

/-- Reports due on a lane: ACK while CONSUMED advances, RXSTAT while ACCEPTED advances. -/
def laneReports (p l : Nat) (s : State) : State :=
  let s := if (laneOf s p l).ackSent = (laneOf s p l).consumed then s else sendAck p l s
  if (laneOf s p l).statSent = (laneOf s p l).accepted then s else sendRxstat p l false s

/-- A packet leaves a lane's receive buffer: CONSUMED advances, with an ACK at every 64 KiB. -/
def laneConsume (p l : Nat) (s : State) : State :=
  match (laneOf s p l).queue with
  | [] => s
  | pk :: rest =>
    let s := updLane p l (fun x => { x with
      queue := rest, consumed := pk.seq, units := x.units + pk.units, busy := false }) s
    if 256 ≤ (laneOf s p l).units - (laneOf s p l).unitSent then sendAck p l s else s

/-- Resends the unretired packets of a lane that are later than a number. -/
def resend (p l : Nat) (keep : Pkt → Bool) (s : State) : State :=
  ((laneOf s p l).replay.filter keep).foldl (fun s k => sendOnLane p l k.sop k.bytes s) s

/-- A replay starts: it is counted in REPLAYS. -/
def replay (p l : Nat) (keep : Pkt → Bool) (s : State) : State :=
  if (laneOf s p l).replay.any keep then
    resend p l keep (fcount (rFLK_PORT_ERR (pN p) (pQ p)) fFLK_PORT_ERR_REPLAYS 1 s)
  else s

/-- An ACK retires every packet at or below CONSUMED and raises the limit (R305, R307). -/
def ackReceive (p l consumed limit : Nat) (s : State) : State :=
  if !portCarries s p then s
  else
    heldReg p (updLane p l (fun x => { x with
      replay := x.replay.filter (fun k => seqLater k.seq consumed)
      limit := if seqLater limit x.limit then limit % 2 ^ 24 else x.limit }) s)

/-- An RXSTAT reports ACCEPTED; with NAK the lane is resent from there (R305). -/
def rxstatReceive (p l accepted : Nat) (nak : Bool) (s : State) : State :=
  if !portCarries s p then s
  else
    let s := updLane p l (fun x => { x with seen := if seqLater accepted x.seen then accepted % 2 ^ 24 else x.seen }) s
    if nak then replay p l (fun k => seqLater k.seq accepted) s else s

/-- 20 µs pass without a report on the oldest unretired packet (R305). -/
def replayTimeout (p l : Nat) (s : State) : State :=
  match (laneOf s p l).replay with
  | [] => s
  | k :: _ => if portCarries s p ∧ seqLater k.seq (laneOf s p l).seen then replay p l (fun _ => true) s else s

/-! ## Sessions and drops (R309 to R313) -/

/-- Ends a port's session (R312). -/
def newSession (p : Nat) (s : State) : State :=
  let r := rFLK_PORT_SESSION (pN p) (pQ p)
  let st := rFLK_PORT_STATUS (pN p) (pQ p)
  let s := fset r fFLK_PORT_SESSION_SESSION (fget s r fFLK_PORT_SESSION_SESSION + 1) s
  let s := fset st fFLK_PORT_STATUS_PARTNER_V 0 (fset st fFLK_PORT_STATUS_PARTNER 0 s)
  heldReg p (updPort p (fun x => { x with lanes := [], partner := none, helloA := none, turns := [] }) s)

/-- A port goes DOWN: its traffic stays held, changes agreed and not yet made are dropped (R309, R310, R313). -/
def portDrop (p : Nat) (s : State) : State :=
  let st := portState s p
  if st = 0 ∨ st = 1 ∨ st = 4 then s
  else
    let s := setPortState p 1 s
    let s := regPut (rFLK_PORT_TDOWN (pN p) (pQ p)) (BitVec.ofNat 64 (portNow s p)) s
    let s := updPort p (fun x => { x with changes := [], helloA := none, dropped := true }) s
    let line := rPRG_PORT_STATUS (pK p) (pP p)
    let s := if fget s line fPRG_PORT_STATUS_STATE = 5 then fset line fPRG_PORT_STATUS_STATE 3 s else s
    traceLink p 0 (occurs (1 + pN p) 3 (pQ p) (portEvt p fFLK_PORT_EVT_LINK_DOWN s))

/-- The modulation modes of the two ends differ (R309, R315). -/
def modMismatch (p : Nat) (s : State) : State :=
  portDrop p (occurs (1 + pN p) 4 2 (portEvt p fFLK_PORT_EVT_MODE_MISMATCH s))

/-! ## Training (R312, R314) -/

/-- Sends a LINK block (R314). -/
def sendLink (p sub : Nat) (fs : List (Nat × Nat)) (s : State) : State := sendLowest p (ctlBytes ((1, 0x66) :: (1, sub) :: fs)) s

/-- Whether this end requests Half, by its profile or because its UCIe module runs at 8 GT/s (R259, R315), and whether its
port runs PAM4. -/
def wantHalf (s : State) (p : Nat) : Bool :=
  fget s rPWR_PROFILE fPWR_PROFILE_LINK == 1
    || fbit s (rUCI_SITE_STATUS (pN p) (pK p % 4)) fUCI_SITE_STATUS_MOD_HALF (pP p)
def ownPam4 (s : State) (p : Nat) : Bool := fget s (rPRG_PORT_STATUS (pK p) (pP p)) fPRG_PORT_STATUS_PAM4 == 1

def sendHelloA (p : Nat) (s : State) : State :=
  sendLink p 1 [(2, if moduleIdSet s then 2 ^ 15 + moduleId s else 0), (1, p), (1, b2n (wantHalf s p) + 2 * b2n (ownPam4 s p))] s
def sendHelloB (p : Nat) (s : State) : State :=
  sendLink p 2 [(4, fget s rFLK_INCARNATION fFLK_INCARNATION_INCARNATION), (2, portSession s p)] s

/-- Starts training: HELLO goes out (R312). -/
def portTrain (p : Nat) (s : State) : State :=
  sendHelloB p (sendHelloA p (setPortState p 2 (updPort p (fun x => { x with helloA := none }) s)))

/-- A DOWN port tries to retrain; it needs the Porger's light and a stream in block lock. -/
def retrainAttempt (p : Nat) (s : State) : State :=
  if isPort s p ∧ portState s p = 1 ∧ (portOf s p).lock ≠ 0 ∧ !isSafe s then portTrain p s else s

/-- Number of set bits among the low 16. -/
def popcount16 (x : Nat) : Nat := ((List.range 16).filter (bitOf x)).length

/-- The streams this end needs (R317). -/
def portNeed (s : State) (p : Nat) : Nat :=
  if (portTenant s p).isSome then (if portHalf s p then 0xFF else 0xFFFF) else 1

/-- Sets the active streams. -/
def setActive (p a : Nat) (s : State) : State :=
  let s := updPort p (fun x => { x with active := a, place := 0 }) s
  fset (rPRG_PORT_STATUS (pK p) (pP p)) fPRG_PORT_STATUS_ACTIVE a
    (fset (rFLK_PORT_STATUS (pN p) (pQ p)) fFLK_PORT_STATUS_STREAMS (popcount16 a) s)

/-- Sets the link mode in force, noting a downgrade (R315). -/
def setHalf (p : Nat) (h : Bool) (s : State) : State :=
  let s := fset (rFLK_PORT_STATUS (pN p) (pQ p)) fFLK_PORT_STATUS_HALF (b2n h) s
  let s := fset (rPRG_PORT_STATUS (pK p) (pP p)) fPRG_PORT_STATUS_HALF (b2n h) s
  if h && !wantHalf s p then occurs (1 + pN p) 4 1 (portEvt p fFLK_PORT_EVT_MODE_DOWNGRADED s) else s

/-- The fields of an exchange that names a marker (R314). -/
def linkFields (c : LinkChange) : List (Nat × Nat) :=
  if c.sub = 3 then [(1, c.a), (4, c.m)] else if c.sub = 4 then [(1, c.a), (1, c.b), (4, c.m)] else [(2, c.a), (4, c.m)]

/-- Asks the partner for a change; the marker a module chooses is a free value ahead of the present count. -/
def askChange (p sub a b : Nat) (s : State) : State :=
  let m := ((portOf s p).marker + 1 + freeVal 31 s % 65536) % 2 ^ 32
  let c : LinkChange := ⟨sub, a, b, m⟩
  let s := updPort p (fun x => { x with asked := x.asked ++ [c] }) (nextFree s)
  if portState s p = 3 then sendLink p sub (linkFields c) s else s

/-- Asks for the streams this end needs, if they are not all active, or for fewer if it needs fewer (R317). -/
def askStripe (p : Nat) (s : State) : State :=
  if portState s p = 3 ∧ (portOf s p).active ≠ portNeed s p then askChange p 5 (portNeed s p) 0 s else s

/-- The port comes UP: what is unretired is resent, exchanges not answered are asked again (R310, R312, R313). -/
def portUp (p : Nat) (s : State) : State :=
  let s := if (portOf s p).dropped then portEvt p fFLK_PORT_EVT_RETRAINED s else s
  let s := setPortState p 3 (updPort p (fun x => { x with dropped := false }) s)
  let s := (List.range 16).foldl (fun s l => resend p l (fun _ => true) s) s
  let s := (portOf s p).asked.foldl (fun s c => sendLink p c.sub (linkFields c) s) s
  askStripe p (setActive p (portOf s p).active (traceLink p 1 s))

/-- HELLO_A of the partner: it is answered, and the modes are compared (R312, R314, R315). -/
def helloAReceive (p : Nat) (idSet : Bool) (id pp : Nat) (half pam4 : Bool) (s : State) : State :=
  if !isPort s p ∨ portState s p ≠ 2 then s
  else if pam4 != ownPam4 s p then modMismatch p s
  else
    let s := fset (rFLK_PORT_STATUS (pN p) (pQ p)) fFLK_PORT_STATUS_PAM4 (b2n pam4) s
    let s := setHalf p (half || wantHalf s p) s
    sendHelloB p (sendHelloA p (updPort p (fun x => { x with helloA := some (if idSet then id else 16384, pp, half, pam4) }) s))

/-- HELLO_B of the partner: the partner is compared with the one recorded (R312). Whether a partner that this end has no
record of holds one itself is not told: a free value. -/
def helloBReceive (p inc ses : Nat) (s : State) : State :=
  if !isPort s p ∨ portState s p ≠ 2 then s
  else
    let x := portOf s p
    match x.helloA with
    | none => s
    | some (id, pp, _, _) =>
      let now := (id, pp, inc, ses)
      match x.partner with
      | some old =>
        if old = now then portUp p s
        else traceLink p 2 (occurs (1 + pN p) 4 0 (portEvt p fFLK_PORT_EVT_PARTNER_CHANGED (setPortState p 4 s)))
      | none =>
        if freeVal 30 s % 2 = 1 then nextFree s
        else
          let st := rFLK_PORT_STATUS (pN p) (pQ p)
          let s := fset st fFLK_PORT_STATUS_PARTNER_V 1 (fset st fFLK_PORT_STATUS_PARTNER (id % 16384) (nextFree s))
          portUp p (updPort p (fun x => { x with partner := some now }) s)

/-! ## Changes at a marker (R314 to R317) -/

/-- Whether a spare of a port is bad (R277), and whether it is free to substitute (R278). -/
def spareBad (s : State) (p sp : Nat) : Bool :=
  fget s (rPRG_WL_SUB (pK p) (pP p)) (if sp = 16 then fPRG_WL_SUB_WS0_BAD else fPRG_WL_SUB_WS1_BAD) == 1
def spareFree (s : State) (p sp : Nat) : Bool :=
  (spareStream s p sp).isNone && !spareBad s p sp
    && !((portOf s p).changes ++ (portOf s p).asked).any (fun c => c.sub == 4 && c.b == sp)

/-- Puts a stream on a spare, or takes it off. -/
def setSpare (p sp : Nat) (w : Option Nat) (s : State) : State :=
  let r := rPRG_WL_SUB (pK p) (pP p)
  let fv := if sp = 16 then fPRG_WL_SUB_SUB0_V else fPRG_WL_SUB_SUB1_V
  let fw := if sp = 16 then fPRG_WL_SUB_SUB0 else fPRG_WL_SUB_SUB1
  fset r fw (w.getD 0) (fset r fv (b2n w.isSome) s)

/-- Makes one agreed change. -/
def makeChange (p : Nat) (c : LinkChange) (s : State) : State :=
  if c.sub = 3 then
    let s := traceLink p 5 (setHalf p (c.a == 1) s)
    setActive p (if c.a = 1 then (if (portOf s p).active &&& 0xFF = 0 then 1 else (portOf s p).active &&& 0xFF)
      else if (portTenant s p).isSome then 0xFFFF else (portOf s p).active) s
  else if c.sub = 4 then
    if c.b = 0xFF then
      (match streamSpare s p c.a with
      | some sp => setSpare p sp none s
      | none => s)
    else if c.b = 16 ∨ c.b = 17 then
      traceLink p 3 (occurs (32 + pK p) 1 (4 * pP p + 3)
        (fset (rPRG_PORT_EVT (pK p) (pP p)) fPRG_PORT_EVT_SUBSTITUTED 1 (setSpare p c.b (some c.a) s)))
    else s
  else setActive p (c.a % 65536) s

/-- Schedules an agreed change and drops the request it answers. -/
def agree (p : Nat) (c : LinkChange) (s : State) : State :=
  updPort p (fun x => { x with
    asked := x.asked.filter (fun y => !(y.sub == c.sub && y.m == c.m)), changes := x.changes ++ [c] }) s

/-- Whether this end asked for an exchange at a marker. -/
def hasAsked (s : State) (p sub m : Nat) : Bool := (portOf s p).asked.any (fun c => c.sub == sub && c.m == m)

def modeReceive (p : Nat) (half : Bool) (m : Nat) (s : State) : State :=
  if !isPort s p ∨ portState s p ≠ 3 then s
  else
    let c : LinkChange := ⟨3, b2n (half || wantHalf s p), 0, m % 2 ^ 32⟩
    if hasAsked s p 3 c.m then agree p c s else agree p c (sendLink p 3 (linkFields c) s)

def substReceive (p w sp m : Nat) (s : State) : State :=
  if !isPort s p ∨ portState s p ≠ 3 then s
  else
    let c : LinkChange := ⟨4, w, sp, m % 2 ^ 32⟩
    if hasAsked s p 4 c.m then
      (if sp = 0xFE then updPort p (fun x => { x with asked := x.asked.filter (fun y => !(y.sub == 4 && y.m == c.m)) }) s
      else agree p c s)
    else if sp = 0xFF ∨ ((sp = 16 ∨ sp = 17) ∧ spareFree s p sp ∧ w < 16) then agree p c (sendLink p 4 (linkFields c) s)
    else sendLink p 4 (linkFields { c with b := 0xFE }) s

def stripeReceive (p set m : Nat) (s : State) : State :=
  if !isPort s p ∨ portState s p ≠ 3 then s
  else
    let c : LinkChange := ⟨5, set % 65536, 0, m % 2 ^ 32⟩
    if hasAsked s p 5 c.m then agree p c s
    else if portNeed s p ||| c.a = c.a then agree p c (sendLink p 5 (linkFields c) s)
    else askChange p 5 (portNeed s p ||| c.a) 0 s

/-- An ALIGN of a stream: the changes agreed for its marker count are made, once (R299, R314). -/
def alignReceive (p stream count : Nat) (s : State) : State :=
  let x := portOf s p
  if !isPort s p ∨ portState s p ≠ 3 ∨ !bitOf x.active stream then s
  else
    let due := x.changes.filter (fun c => c.m == count % 2 ^ 32)
    let s := updPort p (fun x => { x with
      marker := count % 2 ^ 32, changes := x.changes.filter (fun c => c.m != count % 2 ^ 32) }) s
    due.foldl (fun s c => makeChange p c s) s

/-- Substitutes a spare for a stream of a port, if one is free (R278). -/
def startSubst (p w : Nat) (s : State) : Option State :=
  if w < 16 ∧ (streamSpare s p w).isNone then
    if spareFree s p 16 then some (askChange p 4 w 16 s)
    else if spareFree s p 17 then some (askChange p 4 w 17 s)
    else none
  else none

/-- The event of a drop: block-lock causes need the lock to be out, and a stream that can still be substituted takes no
port down (R278, R309). -/
def linkDown (p : Nat) (c : DownCause) (s : State) : State :=
  let x := portOf s p
  if !isPort s p then s
  else match c with
    | .allLock => if x.lock &&& x.active = 0 then portDrop p s else s
    | .oneLock w =>
      if bitOf x.active w && !bitOf x.lock w && !x.asked.any (fun c => c.sub == 4 && c.a == w) then
        (startSubst p w s).getD (portDrop p s)
      else s
    | .modulation => modMismatch p s
    | .replays => portDrop p s
    | .laserLost => portDrop p s
    | .siteLost => portDrop p s

/-- The error ratio of a stream passes the limit (R316). -/
def ratioExceeded (p w : Nat) (s : State) : State :=
  if isPort s p ∧ portState s p = 3 ∧ bitOf (portOf s p).active w then (startSubst p w s).getD s else s

/-! ## TEST, TIME, MON and repetition (R314, R318, R319) -/

/-- The TEST exchange: answered, and the port enters or leaves TEST. -/
def testReceive (p : Nat) (enter : Bool) (s : State) : State :=
  if !isPort s p then s
  else
    let st := portState s p
    let own := (portOf s p).asked.any (fun c => c.sub == 7)
    let s := updPort p (fun x => { x with asked := x.asked.filter (fun c => c.sub != 7) }) s
    let s := if own then s else sendLink p 7 [(1, b2n enter)] s
    if enter then
      (if st = 3 then fset (rPRG_PORT_STATUS (pK p) (pP p)) fPRG_PORT_STATUS_STATE 5 (setPortState p 5 s) else s)
    else if st = 5 then portTrain p (fset (rPRG_PORT_STATUS (pK p) (pP p)) fPRG_PORT_STATUS_STATE 3 s) else s

/-- An unanswered exchange is repeated every 1 µs (R314). -/
def linkRepeat (p : Nat) (s : State) : State :=
  if !isPort s p then s
  else if portState s p = 2 then sendHelloB p (sendHelloA p s)
  else (portOf s p).asked.foldl (fun s c => if c.sub = 7 then sendLink p 7 [(1, c.a)] s else sendLink p c.sub (linkFields c) s) s

/-- The latencies of a port's path in Crest counts: FLK_PORT_TSCAL_q holds sixteenths (R330). -/
def txLatency (s : State) (p : Nat) : Nat := fget s (rFLK_PORT_TSCAL (pN p) (pQ p)) fFLK_PORT_TSCAL_TX_LAT / 16
def rxLatency (s : State) (p : Nat) : Nat := fget s (rFLK_PORT_TSCAL (pN p) (pQ p)) fFLK_PORT_TSCAL_RX_LAT / 16

/-- A TIME block goes out while block lock holds, in every port state but TEST (R318, R319); its stamp is that of the MPO
face. -/
def timeSend (p : Nat) (s : State) : State :=
  if isPort s p ∧ (portOf s p).lock ≠ 0 ∧ !isSafe s ∧ portState s p ≠ 5 then
    let t := (portNow s p + txLatency s p) % 2 ^ 56
    sendLowest p (ctlBytes [(1, 0x78), (7, t)]) (updPort p (fun x => { x with timeOut := t }) s)
  else s

/-- A TIME block arrives and is stamped (R318, R330). -/
def timeReceive (p stamp : Nat) (s : State) : State :=
  if isPort s p ∧ (portOf s p).lock ≠ 0 then
    updPort p (fun x => { x with timeIn := stamp % 2 ^ 56, timeArr := portNow s p - rxLatency s p }) s
  else s

/-- Block lock of a stream (R298). -/
def blockLock (p w : Nat) (on : Bool) (s : State) : State :=
  if isPort s p ∧ w < 16 then updPort p (fun x => { x with lock := withField x.lock w 1 (b2n on) }) s else s

def execFabricPacketSend (port lane : Nat) (s : State) : Host.Outcome State Fault Refusal := .next (packetSend port lane s)
def execAck (port lane consumed limit : Nat) (s : State) : Host.Outcome State Fault Refusal :=
  .next (ackReceive port lane consumed limit s)
def execRxstat (port lane accepted : Nat) (nak : Bool) (s : State) : Host.Outcome State Fault Refusal :=
  .next (rxstatReceive port lane accepted nak s)
def execAlign (port stream _bip count : Nat) (s : State) : Host.Outcome State Fault Refusal :=
  .next (alignReceive port stream count s)
def execFabricReplayTimeout (port lane : Nat) (s : State) : Host.Outcome State Fault Refusal := .next (replayTimeout port lane s)
def execLinkDown (port : Nat) (cause : DownCause) (s : State) : Host.Outcome State Fault Refusal := .next (linkDown port cause s)
def execFabricRetrainAttempt (port : Nat) (s : State) : Host.Outcome State Fault Refusal := .next (retrainAttempt port s)
def execHelloA (port : Nat) (idSet : Bool) (modId partnerPort : Nat) (half pam4 : Bool) (s : State) :
    Host.Outcome State Fault Refusal := .next (helloAReceive port idSet modId partnerPort half pam4 s)
def execHelloB (port incarnation session : Nat) (s : State) : Host.Outcome State Fault Refusal :=
  .next (helloBReceive port incarnation session s)
def execMode (port : Nat) (half : Bool) (m : Nat) (s : State) : Host.Outcome State Fault Refusal := .next (modeReceive port half m s)
def execSubst (port w spare m : Nat) (s : State) : Host.Outcome State Fault Refusal := .next (substReceive port w spare m s)
def execStripe (port set m : Nat) (s : State) : Host.Outcome State Fault Refusal := .next (stripeReceive port set m s)
def execMon (port x pwr : Nat) (s : State) : Host.Outcome State Fault Refusal :=
  .next (if isPort s port then updPort port (fun y => { y with partnerPwr := Mp.put 0 y.partnerPwr x pwr }) s else s)
def execTest (port : Nat) (enter : Bool) (s : State) : Host.Outcome State Fault Refusal := .next (testReceive port enter s)
def execLinkExchangeRepeat (port : Nat) (s : State) : Host.Outcome State Fault Refusal := .next (linkRepeat port s)
def execTime (port stamp : Nat) (s : State) : Host.Outcome State Fault Refusal := .next (timeReceive port stamp s)
def execTimeBlockSend (port : Nat) (s : State) : Host.Outcome State Fault Refusal := .next (timeSend port s)
def execStreamErrorRatioExceeded (port w : Nat) (s : State) : Host.Outcome State Fault Refusal := .next (ratioExceeded port w s)
def execBlockLockLoss (port w : Nat) (s : State) : Host.Outcome State Fault Refusal := .next (blockLock port w false s)
def execBlockLock (port w : Nat) (s : State) : Host.Outcome State Fault Refusal := .next (blockLock port w true s)

end Sys2Proof.Machine
end

