-- ==== Sys2Proof/Machine/Melhal.lean ====
section
/-! DEFINITION. The Melhal command protocol: queue pairs, fetching, the checks of R360, replies, commands that wait, and
commands that arrive over the fabric (spec/12_host_interface_and_melhal.md R350 to R368). -/

namespace Sys2Proof.Machine

/-! ## Reply status codes (R361) -/

def rsOK : Nat := 0
def rsAlready : Nat := 1
def rsBadOpcode : Nat := 2
def rsNotPermitted : Nat := 3
def rsBadParam : Nat := 4
def rsNotFound : Nat := 5
def rsState : Nat := 6
def rsCapacity : Nat := 7
def rsGraphRefused : Nat := 8
def rsHostAccess : Nat := 9
def rsMemoryFault : Nat := 0xA
def rsMemoryUncorrectable : Nat := 0xB
def rsPathLost : Nat := 0xC
def rsAuthFailed : Nat := 0xD
def rsFactoryOnly : Nat := 0xE

/-! ## Queue pairs (R350 to R352, R355) -/

def qpOf (s : State) (q : Nat) : QP := Mp.get {} s.qps q
def setQp (q : Nat) (x : QP) (s : State) : State := { s with qps := Mp.put {} s.qps q x }

/-- The function that holds a queue pair; 0 always belongs to the PF. -/
def qpOwner (s : State) (q : Nat) : Nat := if q = 0 then 0 else (qpOf s q).owner

/-- The queue pair a function reaches under a local index (R350). -/
def qpLocal (s : State) (fn i : Nat) : Option Nat :=
  if fn = 0 then (if i < 64 ∧ qpOwner s i = 0 then some i else none)
  else (List.range 64).find? (fun q => qpOwner s q == fn && (qpOf s q).idx == i)

/-- Commands of a queue pair that are fetched and not yet replied. -/
def qpBusy (s : State) (q : Nat) : Nat :=
  (s.inflight.filter (fun i => i.path == .qp q && !i.discard)).length + (s.waits.filter (fun w => w.path == .qp q && !w.discard)).length

/-- Whether the next command of a queue pair may be fetched (R352). -/
def qpFetchable (s : State) (q : Nat) : Bool :=
  let x := qpOf s q
  x.created && !x.error && x.tail != x.fetched && decide ((x.fetched + 2 ^ 32 - x.head) % 2 ^ 32 < 2 ^ x.log2)
    && decide (qpBusy s q < 256) && decide (s.inflight.length + s.waits.length < 4096)

/-- The queue pair whose turn it is: queue pair 0 every other turn, the others in round robin (R352). -/
def qpTurn (s : State) : Option Nat :=
  let rr := ((List.range 63).map (fun i => (s.lastQp + i) % 63 + 1)).find? (qpFetchable s)
  if s.lastZero then (match rr with
    | some q => some q
    | none => if qpFetchable s 0 then some 0 else none)
  else if qpFetchable s 0 then some 0 else rr

/-- A queue pair enters ERROR: vector 0 of its function is signalled (R354, R355). -/
def qpError (q : Nat) (s : State) : State :=
  if (qpOf s q).error then s else signalVector (qpOwner s q) 0 (setQp q { qpOf s q with error := true } s)

/-- A queue pair is created with cleared counts (R350, R351). -/
def qpMake (q cmd rpl log2 vector modc : Nat) (s : State) : State :=
  setQp q { qpOf s q with
    created := true, error := false, cmdBase := cmd, rplBase := rpl, log2 := if 4 ≤ log2 ∧ log2 ≤ 12 then log2 else 4
    vector := vector, modc := modc, tail := 0, fetched := 0, head := 0, replies := 0, unsig := 0 } s

/-- Deleting a queue pair discards the replies of its commands; it keeps its assignment (R355). -/
def qpDrop (q : Nat) (s : State) : State :=
  let x := qpOf s q
  let s := setQp q { ({} : QP) with owner := x.owner, idx := x.idx } s
  { s with inflight := s.inflight.map (fun i => if i.path = .qp q then { i with discard := true } else i)
           waits := s.waits.map (fun w => if w.path = .qp q then { w with discard := true } else w) }

/-! ## Replies (R353, R354, R359, R364, R368) -/

/-- The 32 bytes of a reply, PHASE clear. -/
def replyBytes (op status tag tAccept tDone result : Nat) : List Byte :=
  leFields [(2, op % 4096), (2, status), (4, tag), (8, tAccept), (8, tDone), (8, result % 2 ^ 64)]

/-- The lane of a port whose first packet is a given MGT_REQ. -/
def mgtLane (s : State) (port src reqId : Nat) : Option Nat :=
  (List.range 16).find? (fun l => match (laneOf s port l).queue with
    | p :: _ => p.kind == 8 && p.src == src && p.reqId == reqId
    | [] => false)

/-- A response to a request, which goes back to its sender (R302, R303). -/
def responseTo (s : State) (p : Pkt) (kind status addr : Nat) (data : List Byte) : Pkt :=
  ⟨kind, p.vc, 0, p.tenant, status, 0, p.src, moduleId s, data.length, p.tag, addr, p.reqId, [], data⟩

/-- A packet dropped for want of a route (R323): the record of a fabric responder. -/
def pathLostRec (n tenant detail : Nat) (s : State) : State :=
  faultRec { kind := 0x12, t := stampAt s (16 + n), source := 7, tenant := tenant, unit := 16 + n, detail := detail } s

/-- Routes a packet of this module or of transit from the base die of a port; with no eligible port it takes the port itself. -/
def routeOut (port : Nat) (p : Pkt) (s : State) : State :=
  match routeOf s (pN port) p with
  | .port q => enqueuePkt q p s
  | .noPort => enqueuePkt port p s
  | .noEntry => pathLostRec (pN port) p.tenant 0 s

/-- The first packet of a request lane is consumed with its response, which the cache keeps (R303, R311). -/
def respond (port l : Nat) (rsp : Pkt) (s : State) : State :=
  match (laneOf s port l).queue with
  | [] => s
  | p :: _ =>
    let kept := if rsp.kind = 5 then { rsp with data := [] } else rsp
    let s := updLane port l (fun x => { x with cache := (x.cache ++ [(p.seq, kept)]).drop (x.cache.length + 1 - 4096) }) s
    laneConsume port l (routeOut port rsp s)

/-- Sends a reply by the path its command came on; a Crest report's carries no data (R369). -/
def sendReply (path : CmdPath) (discard : Bool) (op tag tAccept tDone status result daddr dlen : Nat) (data : List Byte)
    (s : State) : State :=
  match path with
  | .qp q =>
    let x := qpOf s q
    if discard || !x.created then s
    else
      let d := data.take dlen
      let s := if d = [] then s else emit (.hostWrite daddr d) s
      let ph := if x.replies / 2 ^ x.log2 % 2 = 0 then 2 ^ 15 else 0
      let bytes := replyBytes op status tag tAccept tDone result
      let s := emit (.hostWrite (x.rplBase + 32 * (x.replies % 2 ^ x.log2)) (modAt bytes 1 (fun b => b ||| BitVec.ofNat 8 (ph / 256)))) s
      let m := moderate x.modc x.unsig
      let s := setQp q { x with replies := x.replies + 1, unsig := m.2 } s
      if m.1 then signalVector (qpOwner s q) x.vector s else s
  | .fabric port src reqId _ =>
    match mgtLane s port src reqId with
    | none => s
    | some l => match (laneOf s port l).queue with
      | [] => s
      | p :: _ =>
        let d := if op = 0xB80 then [] else replyBytes op status tag tAccept tDone result ++ data.take (min dlen 4064)
        respond port l (responseTo s p 9 0 0 d) s

/-- The Crest time at the Col die. -/
def colNow (s : State) : Nat := stampAt s 64

/-- Answers a waiting command. -/
def answerWait (w : Wait) (status result tDone : Nat) (data : List Byte) (s : State) : State :=
  sendReply w.path w.discard w.op w.tag w.tAccept tDone status result w.dataAddr w.dataLen data { s with waits := s.waits.erase w }

/-- Answers every waiting command of an opcode that a test picks. -/
def answerAll (op : Nat) (pick : Wait → Bool) (f : Wait → Nat × Nat × Nat × List Byte) (s : State) : State :=
  (s.waits.filter (fun w => w.op == op && pick w)).foldl (fun s w =>
    let r := f w
    answerWait w r.1 r.2.1 r.2.2.1 r.2.2.2 s) s

/-! ## Entries (R357) -/

def eOp (e : List Byte) : Nat := leAt e 0 2
def eFlags (e : List Byte) : Nat := leAt e 2 1
def ePtr (e : List Byte) : Bool := bitOf (eFlags e) 0
def eOrdered (e : List Byte) : Bool := bitOf (eFlags e) 1
def eTag (e : List Byte) : Nat := leAt e 4 4
def eTenant (e : List Byte) : Nat := leAt e 8 1
def eParamLen (e : List Byte) : Nat := leAt e 0xA 2
def eDataLen (e : List Byte) : Nat := leAt e 0xC 4
def eDataAddr (e : List Byte) : Nat := leAt e 0x18 8

/-- Opcodes the tables of R366 list. -/
def opcodes : List Nat :=
  [0x100, 0x101, 0x102, 0x103, 0x110, 0x111, 0x112, 0x200, 0x201, 0x202, 0x203, 0x204]
  ++ (List.range 10).map (0x300 + ·) ++ (List.range 12).map (0x400 + ·) ++ (List.range 13).map (0x500 + ·)
  ++ [0x600, 0x601, 0x602, 0x603, 0x700, 0x701] ++ (List.range 5).map (0x800 + ·) ++ (List.range 7).map (0x900 + ·)
  ++ [0xA00, 0xA01, 0xA02, 0xB00, 0xB01, 0xB02, 0xB03, 0xB80, 0xF00, 0xF01, 0xF02, 0xF03]

/-- What the ROM accepts in recovery (R419): IDENTIFY, QP_CREATE, CERT_READ, FW_STAGE, FW_ACTIVATE, ROLLBACK_READ. -/
def recoveryOps : List Nat := [0x100, 0x110, 0x801, 0x802, 0x803, 0x804]

/-- Whether an opcode is available on a path (R360 step 1, R366, R367, R369, R419). -/
def opAvailable (s : State) (path : CmdPath) (op : Nat) : Bool :=
  opcodes.contains op && (fget s rSEC_BOOT_STATUS fSEC_BOOT_STATUS_RECOVERY == 0 || recoveryOps.contains op) && (match path with
    | .qp _ => op != 0xB80
    | .fabric .. => op / 256 != 0xF && op != 0x110 && op != 0x111 && op != 0x112 && op != 0x50C)

/-- The tenant a path issues for (R342, R367). -/
def issuerOf (s : State) : CmdPath → Nat
  | .qp q => qpOwner s q
  | .fabric _ _ _ t => t

/-- The acting tenant of an entry. -/
def actingOf (s : State) (path : CmdPath) (e : List Byte) : Nat := if eTenant e = 0xFF then issuerOf s path else eTenant e

/-- The first invalid header field (R357, R360 step 3); R368 ignores the addresses of the fabric path. -/
def headerBad (path : CmdPath) (e : List Byte) : Option Nat :=
  let host := match path with
    | .qp _ => true
    | .fabric .. => false
  ([(0, decide (4096 ≤ eOp e)), (2, decide (4 ≤ eFlags e) || (ePtr e && !host)), (3, leAt e 3 1 != 0),
    (8, decide (63 < eTenant e) && eTenant e != 0xFF), (9, leAt e 9 1 != 0),
    (0xA, decide ((if ePtr e then 4096 else 32) < eParamLen e)), (0xC, decide (1048576 < eDataLen e)),
    (0x10, host && !ePtr e && leAt e 0x10 8 != 0), (0x18, host && eDataLen e == 0 && eDataAddr e != 0)].find? (·.2)).map
    (fun p => 0x8000 + p.1)

/-- The parameter block of a command (R357, R358). -/
def paramsOf (h : Cmd) : List Byte := (if ePtr h.entry then h.params else h.entry.drop 0x20).take (eParamLen h.entry)

/-- The offset of a non-zero parameter byte that no field uses (R358). -/
def unusedBad (ps : List Byte) (fields : List (Nat × Nat)) : Option Nat :=
  (List.range ps.length).find? (fun i => ps[i]? != some 0#8 && !fields.any (fun f => decide (f.1 ≤ i ∧ i < f.1 + f.2)))

/-! ## Fetching (R352, R362) -/

/-- A command is accepted: its T_ACCEPT, which no other command shares, and its CMD trace record. -/
def acceptCmd (path : CmdPath) (qp : Nat) (entry : List Byte) (s : State) : State :=
  let t := max (colNow s) (s.lastAccept + 1)
  let s := { s with lastAccept := t, inflight := s.inflight ++ [⟨path, entry, t, false⟩] }
  if eOp entry = 0xB80 ∧ qp = 0xFF then s
  else trace 0 64 6 (issuerOf s path) t (leFields [(2, eOp entry), (1, qp), (4, eTag entry)]) s

/-- Refuses at once the command accepted last. -/
def refuseLast (status : Nat) (s : State) : State :=
  match s.inflight.getLast? with
  | none => s
  | some i =>
    sendReply i.path false (eOp i.entry % 4096) (eTag i.entry) i.tAccept (colNow s) status 0 0 0 []
      { s with inflight := s.inflight.dropLast }

/-- The Col die fetches the next command of a queue pair whose turn it is; one whose opcode is not available is answered
at once. -/
def fetchCmd (q : Nat) (entry : List Byte) (readOk : Bool) (s : State) : State :=
  if !s.ready || qpTurn s != some q then s
  else
    let s := { s with lastZero := q == 0, lastQp := if q = 0 then s.lastQp else q }
    if !readOk then qpError q s
    else
      let x := qpOf s q
      let e := bytesAt entry 0 64
      let s := acceptCmd (.qp q) q e (setQp q { x with fetched := (x.fetched + 1) % 2 ^ 32 } s)
      if opAvailable s (.qp q) (eOp e % 4096) then s else refuseLast rsBadOpcode s

/-- An MGT_REQ at the head of a lane reaches the Col die (R367). -/
def remoteReceive (port src tenant reqId : Nat) (entry dataIn : List Byte) (s : State) : State :=
  match mgtLane s port src reqId with
  | none => s
  | some l => match (laneOf s port l).queue with
    | [] => s
    | p :: _ =>
      let e := bytesAt p.data 0 64
      let a := rFLK_ACCEPT (pN port) p.tenant
      if !s.ready || (laneOf s port l).busy || p.tenant != tenant || e != bytesAt entry 0 64 || p.data.drop 64 != dataIn then s
      else
        let path := CmdPath.fabric port src reqId tenant
        let s := acceptCmd path 0xFF e (updLane port l (fun x => { x with busy := true }) s)
        if !opAvailable s path (eOp e % 4096) then refuseLast rsBadOpcode s
        else if eOp e % 4096 ≠ 0xB80 ∧ !(fget s a fFLK_ACCEPT_EN == 1 && decide (fget s a fFLK_ACCEPT_LO ≤ src)
            && decide (src ≤ fget s a fFLK_ACCEPT_HI)) then refuseLast rsNotPermitted s
        else s

/-! ## Running a command (R360, R363) -/

/-- What a command comes to: a reply now, with T_DONE if it is not the present time, a reply later, or not started yet. -/
inductive Ans where
  | done (status result : Nat) (data : List Byte) (tDone : Option Nat) (s : State)
  | wait (keys : List Nat) (a b result tDone : Nat) (s : State)
  | stay

def Ans.ok (result : Nat) (data : List Byte) (s : State) : Ans := .done 0 result data none s
def Ans.no (status result : Nat) (s : State) : Ans := .done status result [] none s

/-- Whether an ORDERED command still has earlier commands of its path before it (R363). -/
def orderedBlocked (s : State) (before : List Inflight) (i : Inflight) : Bool :=
  eOrdered i.entry && (before.any (fun j => j.path == i.path) || s.waits.any (fun w => w.path == i.path))

/-- The accepted command that a row names, if it may start: commands start in the order of acceptance, past ORDERED ones of
other paths that still wait. -/
def startable (s : State) (path : CmdPath) (entry : List Byte) : List Inflight → List Inflight → Option Inflight
  | _, [] => none
  | before, i :: r =>
    if orderedBlocked s before i then startable s path entry (before ++ [i]) r
    else if i.path = path ∧ i.entry = bytesAt entry 0 64 ∧ !before.any (fun j => j.path == i.path) then some i else none

/-- The checks of R360 up to the parameters: the status and RESULT of the first failure. -/
def cmdCheck (h : Cmd) (op : Nat) (t0 : Bool) (fields : List (Nat × Nat)) (bad : List Byte → Nat → List (Nat × Bool))
    (s : State) : Option (Nat × Nat) :=
  let e := bytesAt h.entry 0 64
  let iss := issuerOf s h.path
  if !opAvailable s h.path op then some (rsBadOpcode, 0)
  else if iss ≠ 0 ∧ (t0 ∨ (eTenant e ≠ 0xFF ∧ eTenant e ≠ iss)) then some (rsNotPermitted, 0)
  else match headerBad h.path e with
    | some o => some (rsBadParam, o)
    | none => match h.hostFail with
      | some o => some (rsHostAccess, o)
      | none =>
        let ps := paramsOf { h with entry := e }
        let offs := (((bad ps (actingOf s h.path e)).filter (·.2)).map (·.1)) ++ (unusedBad ps fields).toList
        match lowestOff offs with
        | some o => some (rsBadParam, o)
        | none => none

/-- Runs a command: takes it up, checks it, and replies or waits. `body` is given the parameters and the acting tenant. -/
def runCmd (h : Cmd) (op : Nat) (t0 : Bool) (fields : List (Nat × Nat)) (bad : List Byte → Nat → List (Nat × Bool))
    (body : List Byte → Nat → State → Ans) (s0 : State) : State :=
  match startable s0 h.path h.entry [] s0.inflight with
  | none => s0
  | some i =>
    let e := i.entry
    if eOp e % 4096 ≠ op ∨ !s0.ready then s0
    else
      let s := { s0 with inflight := s0.inflight.erase i }
      let say (st r : Nat) (d : List Byte) (t : Nat) (s : State) : State :=
        sendReply i.path i.discard op (eTag e) i.tAccept t st r (eDataAddr e) (eDataLen e) d s
      match cmdCheck h op t0 fields bad s with
      | some (st, r) => say st r [] (colNow s) s
      | none => match body (paramsOf { h with entry := e }) (actingOf s h.path e) s with
        | .done st r d t s => say st r d (t.getD (colNow s)) s
        | .wait ks a b r t s =>
          { s with waits := s.waits ++ [⟨i.path, op, eTag e, i.tAccept, actingOf s h.path e, eDataAddr e, eDataLen e, ks, a, b, r, t, i.discard⟩] }
        | .stay => s0

def execCommandFetch (q : Nat) (entry : List Byte) (readOk : Bool) (s : State) : Host.Outcome State Fault Refusal :=
  .next (fetchCmd q entry readOk s)

def execRemoteCommandReceive (port src tenant reqId : Nat) (entry dataIn : List Byte) (s : State) :
    Host.Outcome State Fault Refusal := .next (remoteReceive port src tenant reqId entry dataIn s)

end Sys2Proof.Machine
end

