-- ==== Sys2Proof/Machine/FabricRx.lean ====
section
/-! DEFINITION. What a port does with the packets it receives: acceptance, duplicates, forwarding, serving and delivery
(spec/10_fabric_link_layer.md R302 to R304, R310, R311, R320 to R323), and memory requests
(spec/05_memory_stacks_and_ridge_cache.md R140, R148). -/

namespace Sys2Proof.Machine

/-! ## Memory requests -/

/-- Writes the bytes of a physical range whose mask is set (R140, R148, R241). -/
def memWriteM (ridge tenant pa : Nat) (bytes : List Byte) (mask : List Bool) (s : State) : MRes × State :=
  (sectorsOf pa bytes.length).foldl (fun r p => match r with
    | (.ok done, s) =>
      let bs := (bytes.drop done.length).take p.2.2
      let ms := (mask.drop done.length).take p.2.2
      let whole := List.replicate p.2.1 0#8 ++ bs ++ List.replicate (64 - p.2.1 - p.2.2) 0#8
      let m := List.replicate p.2.1 false ++ ms ++ List.replicate (64 - p.2.1 - ms.length) false
      if !m.any id then (.ok (done ++ bs), s)
      else match sectorWrite ridge tenant p.1 whole m s with
        | (true, s) => (.ok (done ++ bs), s)
        | (false, s) => (.lost (lostUnit s ridge p.1) p.1, s)
    | e => e) (.ok [], s)

/-- Writes masked bytes of a virtual range: it waits for a tag (R180), and is translated whole first. -/
def vwriteM (rq : Requester) (tenant va : Nat) (bytes : List Byte) (mask : List Bool) (a : Access) (s : State) : VRes × State :=
  match tagPass (rqRidge rq) rq tenant s with
  | none => (.wait, s)
  | some s => match translateRange rq tenant va bytes.length a s with
  | (.inr (v, e), s) => (vresOf v e, s)
  | (.inl ps, s) => ps.foldl (fun r p => match r with
    | (.ok done, s) =>
      let bs := (bytes.drop done.length).take p.2
      (match memWriteM (rqRidge rq) tenant p.1 bs ((mask.drop done.length).take p.2) s with
      | (.ok _, s) => (.ok (done ++ bs), s)
      | (.uncorr pa, s) => (.uncorr ((va + done.length) % 2 ^ 64) pa, s)
      | (.lost u pa, s) => (.lost u pa, s))
    | e => e) (.ok [], s)

/-- A request that meets an uncorrectable codeword or a lost unit completes with error, with its record (R151, R190). -/
def memoryFail (rq : Requester) (tenant pa : Nat) (a : Access) (e : VRes) (s : State) : State :=
  let kind := match e with
    | .uncorr _ _ => 0x10
    | _ => 0x12
  emit (.memError pa kind) (recordFail rq tenant 0 a e false 0 0xFFFF 0 0 s)

/-- A request whose address breaks R142 completes with error and accesses no stack; its record is of kind ADDRESS
(R190; log entry 1003). -/
def badAddress (rq : Requester) (tenant pa : Nat) (a : Access) (s : State) : State :=
  let unit := 16 + rqRidge rq
  emit (.memError pa 5) (faultRec { kind := 5, t := stampAt s unit, pa := pa, access := accCode a, source := rqSource rq,
                                    tenant := tenant, unit := unit, core := rqCore rq } s)

/-- A read request at the ridge cache that owns its address: the answer leaves, or the error with its record (R140, R151). -/
def memoryRead (rq : Requester) (tenant pa len : Nat) (s : State) : State :=
  if !paValid s pa then badAddress rq tenant pa accRead s
  else match memRead (rqRidge rq) tenant pa len s with
    | (.ok bs, s) => emit (.mem pa bs) s
    | (.uncorr p, s) => memoryFail rq tenant pa accRead (.uncorr 0 p) s
    | (.lost u p, s) => memoryFail rq tenant pa accRead (.lost u p) s

/-- A write request at the ridge cache that owns its address. -/
def memoryWrite (rq : Requester) (tenant pa : Nat) (bytes : List Byte) (mask : List Bool) (s : State) : State :=
  if !paValid s pa then badAddress rq tenant pa accWrite s
  else match memWriteM (rqRidge rq) tenant pa bytes (mask ++ List.replicate (bytes.length - mask.length) true) s with
    | (.ok _, s) => s
    | (.uncorr p, s) => memoryFail rq tenant pa accWrite (.uncorr 0 p) s
    | (.lost u p, s) => memoryFail rq tenant pa accWrite (.lost u p) s

/-! ## Serving (R323) -/

/-- What serving a request comes to: its response, or not yet. -/
inductive Served where
  | answer (p : Pkt) (s : State)
  | later (s : State)

/-- Whether FLK_ACCEPT admits a source module for a tenant (R323). -/
def admits (s : State) (n tenant src : Nat) : Bool :=
  let a := rFLK_ACCEPT n tenant
  fget s a fFLK_ACCEPT_EN == 1 && decide (fget s a fFLK_ACCEPT_LO ≤ src) && decide (src ≤ fget s a fFLK_ACCEPT_HI)

/-- The response to a memory request that failed: KIND and FSEQ travel in ADDR with STATUS 3. -/
def servedFail (n : Nat) (p : Pkt) (a : Access) (e : VRes) (s : State) : Served :=
  let kind := if p.kind = 1 then 5 else 6
  let q := nextFseq s
  let rec1 (s : State) : State := recordFail (.responder n) p.tenant p.addr a e false 0 0xFFFF 0 0 s
  match e with
  | .ok _ => .later s
  | .wait => .later s
  | .fault _ k _ _ _ _ => .answer (responseTo s p kind 3 (k + q % 2 ^ 32 * 2 ^ 16) []) (rec1 s)
  | .uncorr _ _ => .answer (responseTo s p kind 1 0 []) (rec1 s)
  | .lost _ _ => .answer (responseTo s p kind 2 0 []) s

/-- Serves a READ, WRITE or WRITE_PARTIAL in the address space of its tenant. -/
def serveMem (n : Nat) (p : Pkt) (s : State) : Served :=
  let write := p.kind ≠ 1
  let a : Access := ⟨if write then .write else .read, true⟩
  if !admits s n p.tenant p.src then
    let q := nextFseq s
    .answer (responseTo s p (if write then 6 else 5) 3 (2 + q % 2 ^ 32 * 2 ^ 16) [])
      (faultRec { kind := 2, t := stampAt s (16 + n), va := p.addr, access := accCode a, source := 7, tenant := p.tenant,
                  unit := 16 + n } s)
  else if !write then
    match vread (.responder n) p.tenant p.addr p.len a s with
    | (.ok bs, s) => .answer (responseTo s p 5 0 0 bs) s
    | (e, s) => servedFail n p a e s
  else
    let mask := if p.kind = 3 then (List.range p.len).map (fun i => bitOf (leNat p.mask) i) else List.replicate p.len true
    match vwriteM (.responder n) p.tenant p.addr (bytesAt p.data 0 p.len) mask a s with
    | (.ok _, s) => .answer (responseTo s p 6 0 0 []) s
    | (e, s) => servedFail n p a e s

/-- Delivers a MSG to the engine of its ridge. -/
def serveMsg (p : Pkt) (s : State) : Served :=
  let r := p.addr % 4
  if nRidges s ≤ r || !dieOk s (16 + r) then .answer (responseTo s p 0xC 2 0 []) s
  else if isNotice p.data then .answer (responseTo s p 0xC 0 0 []) (takeNotice r (decodeNotice p.data) s)
  else match collReceive r (decodeColl p.data) s with
    | some s => .answer (responseTo s p 0xC 0 0 []) s
    | none => .later s

/-- The REMOTE command that waits for a MGT_RSP (R367). -/
def remoteWait (s : State) (p : Pkt) : Option Wait := s.waits.find? (fun w => w.op == 0x50C && w.keys == [p.tag, p.reqId])

/-- A MSG_DONE: the message it answers is acknowledged, or its participant fails (R213, R323). -/
def msgDone (e : TagEnt) (p : Pkt) (s : State) : State :=
  match e.use with
  | .coll h t d c o =>
    match collOf s h t, taskOf s h t with
    | some r, some k =>
      if p.status = 0 then setColl h t { r with unacked := r.unacked.filter (· != (d, c, o)) } s
      else
        let q := nextFseq s
        let f : FaultInfo := {
          kind := 0x13, t := stampAt s (16 + k.unit), source := 4, tenant := p.tenant, unit := 16 + k.unit, handle := h, task := t
          detail := p.src + (if p.status = 1 then 0x10 else 0x12) * 2 ^ 16, origin := k.target }
        collEnd h t stDmaError 0x13 q (faultRec f s)
    | _, _ => s
  | _ => s

/-- A response reaches this module: taken if its TAG is outstanding with its REQ_ID, else discarded and counted (R302). -/
def takeResponse (port : Nat) (p : Pkt) (s : State) : State :=
  if p.kind = 9 ∧ (remoteWait s p).isSome then
    match remoteWait s p with
    | some w =>
      if p.status = 0 then answerWait w 0 0 (colNow s) p.data (freeTag 0 p.tag s)
      else answerWait w rsPathLost 16 (colNow s) [] (freeTag 0 p.tag s)
    | none => s
  else
    match (List.range (nRidges s)).findSome? (fun n =>
      ((tagsOf s n).find? (fun e => e.tag == p.tag && e.reqId == p.reqId && e.remote.isSome)).map (fun e => (n, e))) with
    | none => updPort port (fun x => { x with stray := x.stray + 1 }) s
    | some (n, e) =>
      if p.kind = 0xC then msgDone e p (freeTag n p.tag s)
      else if p.kind = 9 then freeTag n p.tag s
      else if p.kind = 5 ∨ p.kind = 6 then
        transactionResponse n p.tag p.status (p.addr % 65536) p.src (fieldOf p.addr 16 32) p.data s
      else updPort port (fun x => { x with stray := x.stray + 1 }) s

/-- A packet for another module (R321, R323). None: it cannot leave yet. -/
def forward (port l : Nat) (p : Pkt) (s : State) : Option State :=
  let n := pN port
  let drop (s : State) : State := occurs (1 + n) 4 3 (portEvt port fFLK_PORT_EVT_ROUTE_DROP (pathLostRec n p.tenant 0 s))
  let lost (s : State) : State :=
    if isRequest p.kind then
      let k := if p.kind = 1 then 5 else if p.kind = 8 then 9 else if p.kind = 0xA then 0xC else 6
      respond port l (responseTo s p k 2 0 []) (drop s)
    else laneConsume port l (drop s)
  if 15 ≤ p.hops then some (lost s)
  else match routeOf s n p with
    | .noEntry => some (lost s)
    | .noPort => none
    | .port q => some (laneConsume port l (enqueuePkt q { p with hops := p.hops + 1 } s))

/-- Executes the first packet of a lane's receive buffer. None: it cannot be executed yet. -/
def laneStep (port l : Nat) (s : State) : Option State :=
  match (laneOf s port l).queue with
  | [] => none
  | p :: _ =>
    if p.dst ≠ moduleId s then forward port l p s
    else if p.kind = 8 then none
    else if isResponse p.kind then some (laneConsume port l (takeResponse port p s))
    else match (if p.kind = 0xA then serveMsg p s else serveMem (pN port) p s) with
      | .answer r s => some (respond port l r s)
      | .later _ => none

/-- Executes what a lane holds, in order, as far as it goes. -/
def laneDrain (port l : Nat) : Nat → State → State
  | 0, s => s
  | f + 1, s => match laneStep port l s with
    | some s => laneDrain port l f s
    | none => s

/-! ## Reception (R303, R304, R310, R311) -/

/-- A duplicate request is answered from the response cache; a READ with its data read again (R311). -/
def answerDup (port l : Nat) (p : Pkt) (s : State) : State :=
  match (laneOf s port l).cache.find? (fun c => c.1 == p.seq) with
  | none => s
  | some (_, r) =>
    let s := fcount (rFLK_PORT_EVT (pN port) (pQ port)) fFLK_PORT_EVT_DUPS 1 s
    if p.kind = 1 ∧ r.status = 0 then
      match serveMem (pN port) p s with
      | .answer r s => routeOut port r s
      | .later _ => s
    else routeOut port r s

/-- A packet is rejected: later packets of the lane are discarded until the replay, and one NAK goes out (R303, R304). -/
def rejectPkt (port l : Nat) (s : State) : State :=
  if (laneOf s port l).discard then s else sendRxstat port l true (updLane port l (fun x => { x with discard := true }) s)

/-- A block that is not idle ends the freeze of a port's receive lines (R283). -/
def thaw (port : Nat) (s : State) : State :=
  (List.range 18).foldl (fun s x =>
    let r := rPRG_WL_RING (pK port) (pP port) x
    if fget s r fPRG_WL_RING_FROZEN = 1 then fset r fPRG_WL_RING_FROZEN 0 s else s) s

/-- A packet arrives on a port. -/
def packetReceive (port : Nat) (sop body : List Byte) (s0 : State) : State :=
  let s := thaw port s0
  if !portCarries s port then s
  else match parsePkt sop body with
    | none => rejectPkt port (leAt sop 3 1 % 16) (fcount (rFLK_PORT_ERR (pN port) (pQ port)) fFLK_PORT_ERR_CRC_ERRS 1 s)
    | some p =>
      let l := p.lane
      let ln := laneOf s port l
      if p.seq = (ln.accepted + 1) % 2 ^ 24 then
        laneDrain port l (ln.queue.length + 1) (updLane port l (fun x => { x with
          accepted := p.seq, discard := false, queue := x.queue ++ [p], lastRx := portNow s port }) s)
      else if !seqLater p.seq ln.consumed then (if isRequest p.kind then answerDup port l p s else s)
      else if !seqLater p.seq ln.accepted then s
      else rejectPkt port l s

/-- The receiver's 1 µs timer: what waits in the lane is tried again, and the reports due are sent (R304). -/
def ackTimer (port l : Nat) (s : State) : State :=
  if !isPort s port ∨ isSafe s then s
  else
    let s := laneDrain port l ((laneOf s port l).queue.length) s
    if portCarries s port then laneReports port l s else s

def execFabricPacketReceive (port : Nat) (sop body : List Byte) (s : State) : Host.Outcome State Fault Refusal :=
  .next (packetReceive port sop body s)
def execFabricAckTimer (port lane : Nat) (s : State) : Host.Outcome State Fault Refusal := .next (ackTimer port lane s)
def execMemoryReadRequest (rq : Requester) (tenant pa len : Nat) (s : State) : Host.Outcome State Fault Refusal :=
  .next (memoryRead rq tenant pa len s)
def execMemoryWriteRequest (rq : Requester) (tenant pa : Nat) (bytes : List Byte) (mask : List Bool) (s : State) :
    Host.Outcome State Fault Refusal := .next (memoryWrite rq tenant pa bytes mask s)

end Sys2Proof.Machine
end

