-- ==== Sys2Proof/Machine/Graphs.lean ====
section
/-! DEFINITION. Graph commands (group 0x03xx): images, admission, aborts, pre-emption, rings
(spec/04_task_graphs_and_binding.md R101 to R128; spec/12_host_interface_and_melhal.md R366). -/

namespace Sys2Proof.Machine

/-! ## Failures of memory commands (R198, R361) -/

/-- The answer of a memory command that failed: the fault record is written, and the reply carries its FSEQ. -/
def memFail (tenant va : Nat) (a : Access) (e : VRes) (s : State) : Ans :=
  let q := nextFseq s
  let s' := recordFail .melhal tenant va a e false 0 0xFFFF 0 0 s
  match e with
  | .ok _ => .stay
  | .wait => .stay
  | .fault .. => .no rsMemoryFault q s'
  | .uncorr _ _ => .no rsMemoryUncorrectable q s'
  | .lost u _ => .no rsPathLost u s'

/-! ## Waiting commands settled by what happens to tasks and cores -/

/-- PREEMPT replies when the pre-emption completes, or as the task's end or loss decides (R124, R366). -/
def flushPreempts (s : State) : State :=
  (s.waits.filter (fun w => w.op == 0x304)).foldl (fun s w =>
    match w.keys with
    | [h, t] => (match taskOf s h t with
      | none => answerWait w rsNotFound 0 (colNow s) [] s
      | some k =>
        if k.st = tsPreempted ∨ k.st = tsFaultWait then answerWait w 0 0 w.tDone [] s
        else if k.st = tsFinal then answerWait w rsAlready k.tEvent w.tDone [] s
        else if k.st = tsHeld then answerWait w rsState k.st (colNow s) [] s
        else s)
    | _ => s) s

/-! ## Task commands -/

/-- The graph a handle names for a tenant, if it has not been released. -/
def graphFor (s : State) (tenant h : Nat) : Option Graph :=
  (graphOf s h).bind (fun g => if g.tenant = tenant ∧ g.held then some g else none)

/-- The task a command names by handle at 2 and index at 4. -/
def withTask (ps : List Byte) (tenant : Nat) (s : State) (go : Nat → Nat → Task → Ans) : Ans :=
  let h := leAt ps 2 2
  let t := leAt ps 4 2
  match graphFor s tenant h with
  | none => .no rsNotFound 0 s
  | some g => match g.tasks[t]? with
    | none => .no rsNotFound 0 s
    | some k => go h t k

/-! ## Checking an image (R103, R104, R107, R110) -/

def ghCount (g : List Byte) : Nat := leAt g 0x10 4
def ghEdges (g : List Byte) : Nat := leAt g 0x14 4

/-- Whether R103 or R110 refuses the header. -/
def headerRefused (s : State) (tenant : Nat) (g : List Byte) : Bool :=
  leAt g 0 4 != 1 || decide (3 < leAt g 4 4) || ghCount g == 0 || decide (16384 < ghCount g) || decide (65536 < ghEdges g)
    || leAt g 0x18 8 % 64 != 0 || (ghEdges g != 0 && leAt g 0x20 8 % 16 != 0) || decide (15 < leAt g 0x28 1)
    || !((g.drop 0x29).all (· == 0#8)) || (Mp.find s.cRings (tenant * 16 + leAt g 0x28 1)).isNone

/-- Whether R104 or R110 refuses a task descriptor. -/
def taskRefused (ridges : Nat) (d : List Byte) : Bool :=
  let k : Task := { desc := d }
  let core := k.kind = 0
  decide (5 < k.kind) || decide (8 ≤ leAt d 1 1) || (if core then k.nCores == 0 || decide (192 < k.nCores) else k.nCores != 0)
    || decide (4 < k.affMode) || (k.affMode == 0 && k.affTarget != 0)
    || ((k.affMode == 1 || k.affMode == 2) && decide (ridges ≤ k.affTarget))
    || ((k.affMode == 3 || k.affMode == 4) && decide (3 * ridges ≤ k.affTarget))
    || (if core then k.extentUnits == 0 || decide (384 < k.extentUnits) else k.extentUnits != 0)
    || leAt d 0xC 4 != 0 || (core && k.target % 16 != 0)
    || (decide (4 ≤ k.kind) && k.target != 0)
    || (if core then k.context % 65536 != 0 else k.context != 0)
    || !(((d.drop 0x28).take 24).all (· == 0#8))
    || (k.affMode == 4 && decide (16 < k.nCores)) || (k.affMode == 2 && decide (48 < k.nCores))

/-- The edges of an image. -/
def edgeOf (b : List Byte) : Edge := ⟨leAt b 0 2, leAt b 2 2, leAt b 4 2, leAt b 6 1, false⟩
def chunksOf (n : Nat) : Nat → List Byte → List (List Byte)
  | 0, _ => []
  | f + 1, l => l.take n :: chunksOf n f (l.drop n)

/-- Whether R107 or R110 refuses an edge by itself. -/
def edgeRefused (s : State) (tenant : Nat) (ts : List Task) (b : List Byte) : Bool :=
  let e := edgeOf b
  let kindOf (i : Nat) : Nat := ((ts[i]?).map Task.kind).getD 0
  decide (2 < e.kind) || !((b.drop 7).all (· == 0#8)) || decide (ts.length ≤ e.succ) || decide (1023 < e.graph)
    || (if e.graph = 0 then decide (ts.length ≤ e.pred) || e.pred == e.succ
        else match graphFor s tenant e.graph with
          | none => true
          | some g => decide (g.tasks.length ≤ e.pred))
    || (e.kind == 2 && (e.graph != 0 || kindOf e.succ != 0 || kindOf e.pred != 0))

/-- The representative of a task's gang. -/
def gangRep (g : Graph) (t : Nat) : Nat := ((gangMembers g t).head?).getD t

/-- One round of taking away the AFTER edges of this graph whose source has no edge into it, or whose end has none out of it. -/
def peelEdges (es : List (Nat × Nat × Nat)) : List (Nat × Nat × Nat) :=
  es.filter (fun e => es.any (fun f => f.2.2 == e.2.1) && es.any (fun f => f.2.1 == e.2.2))

/-- One round of adding the ends of the edges that leave a set. -/
def growEnds (es : List (Nat × Nat × Nat)) (l : List Nat) : List Nat :=
  es.foldl (fun l e => if l.contains e.2.1 && !l.contains e.2.2 then l ++ [e.2.2] else l) l

/-- The lowest AFTER edge on a cycle of gangs: one whose end leads back to its source. Entries are (index, from, to); peeling leaves
none where there is no cycle. -/
def cycleEdge (g : Graph) : Option Nat :=
  let all := (g.edges.zipIdx.filter (fun p => p.1.kind != 2 && p.1.graph == 0)).map (fun p => (p.2, gangRep g p.1.pred, gangRep g p.1.succ))
  let es := iter peelEdges all.length all
  (es.find? (fun e => (iter (growEnds es) es.length [e.2.2]).contains e.2.1)).map (·.1)

/-- The first thing R110 refuses of a graph's tasks and edges: the RESULT of GRAPH_REFUSED without its FSEQ. -/
def imageRefused (s : State) (tenant : Nat) (g : Graph) (descs edges : List (List Byte)) : Option Nat :=
  let gangCores (t : Nat) : Nat := ((gangMembers g t).map (fun m => ((g.tasks[m]?).map Task.nCores).getD 0)).foldl (· + ·) 0
  match descs.findIdx? (taskRefused (nRidges s)) with
  | some i => some i
  | none => match edges.findIdx? (edgeRefused s tenant g.tasks) with
    | some i => some (i + 65536)
    | none => match (List.range g.tasks.length).find? (fun t => decide (192 < gangCores t)) with
      | some i => some i
      | none => (cycleEdge g).map (· + 65536)

/-! ## Capacity and homes (R111 to R113) -/

/-- Tasks and edges a dispatch unit holds. -/
def unitTasks (s : State) (n : Nat) : Nat := ((allTasks s).filter (fun q => q.2.2.2.home == n && q.2.2.2.resident)).length
def unitEdges (s : State) (n : Nat) : Nat :=
  (s.graphs.map (fun p => (p.2.edges.filter (fun e => edgeResident s p.1 e
    && ((p.2.tasks[e.succ]?).map (·.home)) == some n)).length)).foldl (· + ·) 0

/-- The ridge the affinity target of a CORE task names; affinity applies to no other kind (R104). -/
def affRidge (k : Task) : Option Nat :=
  if k.kind ≠ 0 then none
  else if k.affMode = 1 ∨ k.affMode = 2 then some k.affTarget else if 3 ≤ k.affMode then some (k.affTarget / 3) else none

/-- Homes the tasks of a graph gang by gang; `use` is what each unit holds already. A gang takes the first member's target, and of
units with equally many free slots the lowest is taken (R112; log entry 1004). -/
def homeTasks (s : State) (g : Graph) : List Nat → List (Nat × Nat × Nat) → List Nat → Option (List Nat)
  | [], _, homes => some homes
  | t :: r, use, homes =>
    if gangRep g t ≠ t then homeTasks s g r use homes
    else
      let ms := gangMembers g t
      let ne := (g.edges.filter (fun e => ms.contains e.succ)).length
      let fits := use.filter (fun u => decide (u.2.1 + ms.length ≤ 4096 ∧ u.2.2 + ne ≤ 16384))
      let want := ms.findSome? (fun m => (g.tasks[m]?).bind affRidge)
      let best := fits.foldl (fun (b : Option (Nat × Nat × Nat)) u => match b with
        | none => some u
        | some v => if u.2.1 < v.2.1 then some u else some v) none
      match (fits.find? (fun u => some u.1 == want)).or best with
      | none => none
      | some u =>
        homeTasks s g r (use.map (fun v => if v.1 = u.1 then (v.1, v.2.1 + ms.length, v.2.2 + ne) else v))
          (ms.foldl (fun h m => h.set m u.1) homes)

/-- The homes of a graph's tasks, if every gang finds room in a unit that the main route delivers it to (R26, R27). -/
def homesOf (s : State) (g : Graph) : Option (List Nat) :=
  homeTasks s g (List.range g.tasks.length)
    (((List.range (nRidges s)).filter (onRoute s)).map (fun n => (n, unitTasks s n, unitEdges s n)))
    (List.replicate g.tasks.length 0)

/-- The lowest free graph handle. -/
def freeHandle (s : State) : Option Nat := ((List.range 1023).map (· + 1)).find? (fun h => (graphOf s h).isNone)

/-- Graph handles a tenant holds. -/
def handlesOf (s : State) (tenant : Nat) : Nat := (s.graphs.filter (fun p => p.2.tenant == tenant && p.2.held)).length

/-- What an attempt at admission comes to. -/
inductive Admit where
  | admitted (h : Nat) (s : State)
  | room
  | refused (result : Nat) (s : State)
  | path (u : Nat)
  | later
  | queue (hdr : List Byte) (s : State)
  | full

/-- Whether a graph fits its tenant's free room now, a handle included, and the tenant holds no more rings than its share
(R112, R138). -/
def hasRoom (s : State) (tenant : Nat) (hdr : List Byte) : Bool :=
  decide (tasksInUse s (some tenant) + ghCount hdr ≤ fget s (rTSC_SHARE_A tenant) fTSC_SHARE_A_TASK_SHARE)
    && decide (edgesInUse s (some tenant) + ghEdges hdr ≤ fget s (rTSC_SHARE_A tenant) fTSC_SHARE_A_EDGE_SHARE)
    && decide (handlesOf s tenant < fget s (rTSC_SHARE_B tenant) fTSC_SHARE_B_HANDLES) && (freeHandle s).isSome
    && decide ((s.cRings.filter (fun p => p.1 / 16 == tenant)).length ≤ fget s (rTSC_SHARE_B tenant) fTSC_SHARE_B_RINGS)

/-- Reads part of an image; a failure is the refusal of the graph with its record (R102, R198). -/
def readImage (tenant va len : Nat) (s : State) (go : List Byte → State → Admit) : Admit :=
  let q := nextFseq s
  match vread .admission tenant va len accRead s with
  | (.ok bs, s) => go bs s
  | (.wait, _) => .later
  | (e, s) => .refused (q % 2 ^ 32 * 2 ^ 32) (recordFail .admission tenant va accRead e false 0 0xFFFF 0 0 s)

/-- Builds the graph of a whole image, header, descriptors and edges, if every check passes and it has room. -/
def buildGraph (tenant : Nat) (hdr tb eb : List Byte) (s : State) : Admit :=
  let descs := chunksOf 128 (ghCount hdr) tb
  let es := chunksOf 16 (ghEdges hdr) eb
  let ring := leAt hdr 0x28 1
  let g : Graph := ⟨tenant, leAt hdr 8 8, ring, true, bitOf (leAt hdr 4 4) 1, s.graphSeq,
    descs.map (fun d => { desc := d }), es.map edgeOf, false, false⟩
  match imageRefused s tenant g descs es with
  | some r => .refused r s
  | none => match homesOf s g, freeHandle s with
    | some homes, some h =>
      let rr := RingRef.completion (tenant * 16 + ring)
      let slot := match getRing s rr with
        | some x => ringRoom x 1
        | none => false
      let s := if slot then ringReserve rr true s else s
      let g := { g with retireSlot := slot, tasks := (g.tasks.zip homes).map (fun p => { p.1 with home := p.2 }) }
      .admitted h (settle (setGraph h g { s with graphSeq := s.graphSeq + 1 }))
    | _, _ => .room

/-- Admits a graph whose header has been read, if it has room and the main route leaves the Col die (R26, R108, R110 to R113,
R122, R127). A header at fault is named by index 0xFFFF, no task or edge being so (log entry 1001). -/
def admitGraph (tenant : Nat) (hdr : List Byte) (s : State) : Admit :=
  if !onRoute s 0 then .path 16
  else if headerRefused s tenant hdr then .refused 0xFFFF s
  else if !hasRoom s tenant hdr then .room
  else readImage tenant (leAt hdr 0x18 8) (128 * ghCount hdr) s fun tb s =>
    if ghEdges hdr = 0 then buildGraph tenant hdr tb [] s
    else readImage tenant (leAt hdr 0x20 8) (16 * ghEdges hdr) s (buildGraph tenant hdr tb)

/-- The graphs of a tenant that wait for admission, in order of submission. -/
def admissionQueue (s : State) (tenant : Nat) : List Wait := s.waits.filter (fun w => w.op == 0x300 && w.tenant == tenant)

/-- Bytes kept in a waiting command. -/
def toKeys (l : List Byte) : List Nat := l.map BitVec.toNat
def ofKeys (l : List Nat) : List Byte := l.map (BitVec.ofNat 8)

/-- The parameter fields of opcode 0x300, which of them are out of range, and its effect (R366). A tenant whose share of handles
is 0 is refused at once as one whose graph could never fit (R113; log entry 1002). -/
def graphSubmitFields : List (Nat × Nat) := [(0, 8)]
def graphSubmitBad : List Byte → Nat → List (Nat × Bool) := fun _ _ => []
def graphSubmitBody : List Byte → Nat → State → Ans := fun ps tn s =>
    if !onRoute s 0 then .no rsPathLost 16 s
    else match readImage tn (leAt ps 0 8) 64 s (fun hd s =>
      if headerRefused s tn hd then .refused 0xFFFF s
      else if fget s (rTSC_SHARE_A tn) fTSC_SHARE_A_TASK_SHARE < ghCount hd ∨ fget s (rTSC_SHARE_A tn) fTSC_SHARE_A_EDGE_SHARE < ghEdges hd
        ∨ fget s (rTSC_SHARE_B tn) fTSC_SHARE_B_HANDLES = 0 then .full
      else if (admissionQueue s tn).isEmpty then (match admitGraph tn hd s with
        | .room => if bitOf (leAt hd 4 4) 0 then .full else .queue hd s
        | a => a)
      else if bitOf (leAt hd 4 4) 0 ∨ 64 ≤ (admissionQueue s tn).length then .full
      else .queue hd s) with
    | .admitted n s => .ok n [] s
    | .path u => .no rsPathLost u s
    | .refused r s => .no rsGraphRefused r s
    | .queue hd s => .wait (toKeys hd) 0 0 0 0 s
    | .full => .no rsCapacity 0 s
    | .room => .no rsCapacity 0 s
    | .later => .stay
/-- GRAPH_SUBMIT (R102, R110 to R113). -/
def graphSubmit (h : Cmd) (s : State) : State :=
  runCmd h 0x300 false graphSubmitFields graphSubmitBad graphSubmitBody s

/-- A waiting graph of a tenant is admitted when room frees (R113). -/
def graphAdmission (tenant : Nat) (s : State) : State :=
  match admissionQueue s tenant with
  | [] => s
  | w :: _ => match admitGraph tenant (ofKeys w.keys) s with
    | .admitted n s => answerWait w 0 n (colNow s) [] s
    | .refused r s => answerWait w rsGraphRefused r (colNow s) [] s
    | .path u => answerWait w rsPathLost u (colNow s) [] s
    | .room => s
    | .later => s
    | .queue _ _ => s
    | .full => s

/-- The parameter fields of opcode 0x301, which of them are out of range, and its effect (R366). -/
def graphStartFields : List (Nat × Nat) := [(0, 2)]
def graphStartBad : List Byte → Nat → List (Nat × Bool) := fun _ _ => []
def graphStartBody : List Byte → Nat → State → Ans := fun ps tn s => match graphFor s tn (leAt ps 0 2) with
    | none => .no rsNotFound 0 s
    | some g => if g.startHeld then .ok 0 [] (settle (setGraph (leAt ps 0 2) { g with startHeld := false } s)) else .no rsState 0 s
/-- GRAPH_START (R108). -/
def graphStart (h : Cmd) (s : State) : State :=
  runCmd h 0x301 false graphStartFields graphStartBad graphStartBody s

/-- A released graph whose every record has been written is forgotten. -/
def forgetGraph (h : Nat) (s : State) : State :=
  match graphOf s h with
  | none => s
  | some g => if !g.held ∧ g.tasks.all (fun k => k.recWaiting == 0) then { s with graphs := Mp.del s.graphs h } else s

/-- The parameter fields of opcode 0x302, which of them are out of range, and its effect (R366). -/
def graphReleaseFields : List (Nat × Nat) := [(0, 2)]
def graphReleaseBad : List Byte → Nat → List (Nat × Bool) := fun _ _ => []
def graphReleaseBody : List Byte → Nat → State → Ans := fun ps tn s => match graphFor s tn (leAt ps 0 2) with
    | none => .no rsNotFound 0 s
    | some g =>
      if g.retired then .ok 0 [] (forgetGraph (leAt ps 0 2) (setGraph (leAt ps 0 2) { g with held := false } s)) else .no rsState 0 s
/-- GRAPH_RELEASE (R128). -/
def graphRelease (h : Cmd) (s : State) : State :=
  runCmd h 0x302 false graphReleaseFields graphReleaseBad graphReleaseBody s

/-! ## ABORT, PREEMPT and the task commands -/

def taskKey (h t : Nat) : Nat := h * 65536 + t

/-- The tasks of a graph that are not final. -/
def openTasks (h : Nat) (g : Graph) : List Nat :=
  (g.tasks.zipIdx.filter (fun p => p.1.st != tsFinal)).map (fun p => taskKey h p.2)

/-- The parameter fields of opcode 0x303, which of them are out of range, and its effect (R366). -/
def abortFields : List (Nat × Nat) := [(0, 1), (2, 2), (4, 2)]
def abortBad : List Byte → Nat → List (Nat × Bool) := fun ps _ => [(0, decide (2 < leAt ps 0 1))]
def abortBody : List Byte → Nat → State → Ans := fun ps tn s =>
    let go (l : List Nat) : Ans := if l = [] then .ok 0 [] s else .wait l (leAt ps 0 1) 0 0 0 s
    if leAt ps 0 1 = 0 then withTask ps tn s (fun g t _ => .wait [taskKey g t] 0 0 0 0 s)
    else if leAt ps 0 1 = 1 then
      (match graphFor s tn (leAt ps 2 2) with
      | none => .no rsNotFound 0 s
      | some g => go (openTasks (leAt ps 2 2) g))
    else go ((s.graphs.filter (fun p => p.2.tenant == tn)).flatMap (fun p => openTasks p.1 p.2))
/-- ABORT is sent to the home dispatch units of the tasks it names (R123, R124). -/
def abortCmd (h : Cmd) (s : State) : State :=
  runCmd h 0x303 false abortFields abortBad abortBody s

/-- An abort reaches the home unit of a task: it takes effect unless the task has committed (R124). A task whose graph has been
forgotten meanwhile is passed over, unless the abort named it alone. -/
def abortArrive (h t : Nat) (s : State) : State :=
  match s.waits.find? (fun w => w.op == 0x303 && w.keys.contains (taskKey h t)) with
  | none => s
  | some w =>
    let ks := w.keys.filter (· != taskKey h t)
    match taskOf s h t with
    | none =>
      if w.a = 0 then answerWait w rsNotFound 0 (colNow s) [] s
      else if ks = [] then answerWait w 0 w.result (max w.tDone (colNow s)) [] s
      else { s with waits := s.waits.map (fun x => if x = w then { w with keys := ks } else x) }
    | some k =>
      let now := homeStamp s h t
      let live := k.st ≠ tsFinal
      let s := if live then abortTask h t s else s
      let w' := { w with keys := ks, result := w.result + b2n (live && w.a != 0), tDone := max w.tDone now }
      let s := if ks = [] then
          (if w.a = 0 ∧ !live then answerWait w rsAlready k.tEvent now [] s else answerWait w 0 w'.result w'.tDone [] s)
        else { s with waits := s.waits.map (fun x => if x = w then w' else x) }
      forgetGraph h s

/-- The parameter fields of opcode 0x304, which of them are out of range, and its effect (R366). -/
def preemptFields : List (Nat × Nat) := [(2, 2), (4, 2)]
def preemptBad : List Byte → Nat → List (Nat × Bool) := fun _ _ => []
def preemptBody : List Byte → Nat → State → Ans := fun ps tn s => withTask ps tn s (fun g t k =>
    let now := homeStamp s g t
    if k.st = tsFinal then .done rsAlready k.tEvent [] (some now) s
    else if k.kind = 0 ∧ (k.st = tsRunning ∨ k.st = tsPreempting) then .wait [g, t] 0 0 0 now (preemptTask g t 0 s)
    else .no rsState k.st s)
/-- PREEMPT (R119): replies when the pre-emption completes. -/
def preemptCmd (h : Cmd) (s : State) : State :=
  runCmd h 0x304 false preemptFields preemptBad preemptBody s

/-- The parameter fields of opcode 0x305, which of them are out of range, and its effect (R366). -/
def taskRestartFields : List (Nat × Nat) := [(2, 2), (4, 2)]
def taskRestartBad : List Byte → Nat → List (Nat × Bool) := fun _ _ => []
def taskRestartBody : List Byte → Nat → State → Ans := fun ps tn s => withTask ps tn s (fun g t k =>
    if k.st = tsHeld then
      .ok 0 [] (settle (updTask g t (fun k => { k with
        st := tsPending, status := 0, detail := 0, tReady := 0, tStart := 0, causes := 0, cores := [], endedRanks := []
        endStatus := none, faults := [], savedRanks := [], waitedRanks := [], imaged := false, bfStop := false, xfer := none
        near := none, coll := none, flags := 0 }) s))
    else .no rsState k.st s)
/-- TASK_RESTART (R122): a new run from the entry address. -/
def taskRestart (h : Cmd) (s : State) : State :=
  runCmd h 0x305 false taskRestartFields taskRestartBad taskRestartBody s

/-- The parameter fields of opcode 0x306, which of them are out of range, and its effect (R366). -/
def gateReleaseFields : List (Nat × Nat) := [(2, 2), (4, 2)]
def gateReleaseBad : List Byte → Nat → List (Nat × Bool) := fun _ _ => []
def gateReleaseBody : List Byte → Nat → State → Ans := fun ps tn s => withTask ps tn s (fun g t k =>
    if k.kind = 5 ∧ k.st ≠ tsFinal then .ok 0 [] (settle (updTask g t (fun k => { k with gate := true }) s))
    else .no rsState k.st s)
/-- GATE_RELEASE (R117); a release before the gate is ready is kept. -/
def gateRelease (h : Cmd) (s : State) : State :=
  runCmd h 0x306 false gateReleaseFields gateReleaseBad gateReleaseBody s

/-! ## Rings (R125, R192, R338) -/

/-- A ring as its command creates it. -/
def newRing (tenant vector modc entries base ctrl mask : Nat) : Ring :=
  ⟨tenant, base, entries, ctrl, vector, modc, mask, 0, 0, 0, [], 0⟩

/-- The faults of the fields every ring command shares (R125). -/
def ringBad (ps : List Byte) : List (Nat × Bool) :=
  let n := leAt ps 4 4
  [(1, decide (31 < leAt ps 1 1)), (4, n < 64 || decide (65536 < n) || !((List.range 17).any (fun i => n == 2 ^ i))),
   (8, leAt ps 8 8 % 4096 != 0), (16, leAt ps 16 8 % 64 != 0)]
def ringFields : List (Nat × Nat) := [(0, 1), (1, 1), (2, 1), (4, 4), (8, 8), (16, 8)]

/-- The parameter fields of opcode 0x307, which of them are out of range, and its effect (R366). A ring that exists already answers
STATE (R125; log entry 1005). -/
def ringCreateFields : List (Nat × Nat) := ringFields
def ringCreateBad : List Byte → Nat → List (Nat × Bool) := fun ps _ => (0, decide (15 < leAt ps 0 1)) :: ringBad ps
def ringCreateBody : List Byte → Nat → State → Ans := fun ps tn s =>
    let key := tn * 16 + leAt ps 0 1
    if (Mp.find s.cRings key).isSome then .no rsState 0 s
    else if fget s (rTSC_SHARE_B tn) fTSC_SHARE_B_RINGS ≤ (s.cRings.filter (fun p => p.1 / 16 == tn)).length then .no rsCapacity 0 s
    else .ok 0 [] (setRing (.completion key)
      (newRing tn (leAt ps 1 1) (leAt ps 2 1) (leAt ps 4 4) (leAt ps 8 8) (leAt ps 16 8) 0) s)
def ringCreate (h : Cmd) (s : State) : State :=
  runCmd h 0x307 false ringCreateFields ringCreateBad ringCreateBody s

/-- The parameter fields of opcode 0x308, which of them are out of range, and its effect (R366). -/
def ringDeleteFields : List (Nat × Nat) := [(0, 1)]
def ringDeleteBad : List Byte → Nat → List (Nat × Bool) := fun ps _ => [(0, decide (15 < leAt ps 0 1))]
def ringDeleteBody : List Byte → Nat → State → Ans := fun ps tn s =>
    let key := tn * 16 + leAt ps 0 1
    if (Mp.find s.cRings key).isNone then .no rsNotFound 0 s
    else if s.graphs.any (fun p => p.2.tenant == tn && p.2.ring == leAt ps 0 1) then .no rsState 0 s
    else .ok 0 [] { s with cRings := Mp.del s.cRings key }
/-- RING_DELETE: STATE while a resident graph names the ring (R110). -/
def ringDelete (h : Cmd) (s : State) : State :=
  runCmd h 0x308 false ringDeleteFields ringDeleteBad ringDeleteBody s

/-- Reads records `k` to `k + n - 1` of a ring's life. -/
def popRead (tenant : Nat) (r : RingRef) (x : Ring) : Nat → Nat → State → VRes × State
  | 0, _, s => (.ok [], s)
  | n + 1, k, s =>
    match vread .melhal tenant ((x.base + k % x.entries * ringRecSize r) % 2 ^ 64) (ringRecSize r) accRead s with
    | (.ok bs, s) => (match popRead tenant r x n (k + 1) s with
      | (.ok l, s) => (.ok (bs ++ l), s)
      | e => e)
    | e => e

/-- The parameter fields of opcode 0x309, which of them are out of range, and its effect (R366). -/
def ringPopFields : List (Nat × Nat) := [(0, 1), (1, 1), (4, 4)]
def ringPopBad : List Byte → Nat → List (Nat × Bool) := fun ps _ =>
    [(0, decide (2 < leAt ps 0 1)), (1, decide (15 < leAt ps 1 1) || (leAt ps 0 1 == 1 && leAt ps 1 1 != 0)),
     (4, leAt ps 4 4 == 0 || decide (4096 < leAt ps 4 4))]
def ringPopBody (h : Cmd) : List Byte → Nat → State → Ans := fun ps tn s =>
    let kind := leAt ps 0 1
    let r : RingRef := if kind = 0 then .completion (tn * 16 + leAt ps 1 1) else if kind = 1 then .fault tn else .trace (leAt ps 1 1)
    if kind = 2 ∧ issuerOf s h.path ≠ 0 then .no rsNotPermitted 0 s
    else
      let s := ringReread r s
      match getRing s r with
      | none => .no rsNotFound 0 s
      | some x =>
        let n := min (x.tail - x.head) (min (leAt ps 4 4) (eDataLen h.entry / ringRecSize r))
        match popRead x.tenant r x n x.head s with
        | (.ok bs, s) => (match vwrite .melhal x.tenant ((x.ctrl + 8) % 2 ^ 64) (leBytes 8 (x.head + n)) accWrite s with
          | (.ok _, s) => .ok n bs (setRing r { x with head := x.head + n } s)
          | (e, s) => memFail x.tenant ((x.ctrl + 8) % 2 ^ 64) accWrite e s)
        | (e, s) => memFail x.tenant x.base accRead e s
/-- RING_POP: copies records out and advances HEAD past them (R366). -/
def ringPop (h : Cmd) (s : State) : State :=
  runCmd h 0x309 false ringPopFields ringPopBad (ringPopBody h) s

def execGraphSubmit (h : Cmd) (s : State) : Host.Outcome State Fault Refusal := .next (graphSubmit h s)
def execGraphAdmission (tenant : Nat) (s : State) : Host.Outcome State Fault Refusal := .next (graphAdmission tenant s)
def execGraphStart (h : Cmd) (s : State) : Host.Outcome State Fault Refusal := .next (graphStart h s)
def execGraphRelease (h : Cmd) (s : State) : Host.Outcome State Fault Refusal := .next (graphRelease h s)
def execAbort (h : Cmd) (s : State) : Host.Outcome State Fault Refusal := .next (abortCmd h s)
def execPreempt (h : Cmd) (s : State) : Host.Outcome State Fault Refusal := .next (preemptCmd h s)
def execTaskRestart (h : Cmd) (s : State) : Host.Outcome State Fault Refusal := .next (taskRestart h s)
def execGateRelease (h : Cmd) (s : State) : Host.Outcome State Fault Refusal := .next (gateRelease h s)
def execRingCreate (h : Cmd) (s : State) : Host.Outcome State Fault Refusal := .next (ringCreate h s)
def execRingDelete (h : Cmd) (s : State) : Host.Outcome State Fault Refusal := .next (ringDelete h s)
def execRingPop (h : Cmd) (s : State) : Host.Outcome State Fault Refusal := .next (ringPop h s)

end Sys2Proof.Machine
end

