-- ==== Sys2Proof/Machine/Binding.lean ====
section
/-! DEFINITION. Binding commands (group 0x02xx), the changes of binding of cores, granules and ports, and the events that
finish them (spec/04_task_graphs_and_binding.md R131 to R139; spec/06_translation_dma_and_faults.md R200;
spec/05_memory_stacks_and_ridge_cache.md R156, R163). -/

namespace Sys2Proof.Machine

/-! ## Cores (R132 to R134) -/

/-- A tenant parameter: 0xFF unbinds. -/
def bindTarget (x : Nat) : Option Nat := if x = 0xFF then none else some x

/-- The tenant a core is bound to. -/
def coreHolder (s : State) (c : Nat) : Option Nat := if coreState s c = 2 then some (coreTenant s c) else none

/-- Treats the task that runs on a core whose binding is being taken away (R132). The Binding stamp that a DISCARD's UNBOUND record
carries is that of the core's entry into UNBINDING (R130; log entry 401). -/
def bindEvict (c mode : Nat) (s : State) : State :=
  match (coreOf s c).task with
  | none => s
  | some (h, t, _) =>
    if mode = 0 then preemptTask h t 2 s
    else if mode = 1 then discardTask h t (stampAt s (c / 16)) s
    else s

/-- Starts a core's change of binding (R134). -/
def bindBegin (c : Nat) (new : Option Nat) (mode : Nat) (s : State) : State :=
  let old := if (coreOf s c).bindTo.isSome then (coreOf s c).bindOld else coreHolder s c
  let s := updCore c (fun k => { k with bindTo := some new, bindMode := mode, bindOld := old }) s
  let s := if coreState s c = 2 then noteHeld (stampAt s (c / 16)) c 0 (fset (bindReg c) fTSC_CORE_BIND_STATE 3 s) else s
  bindAdvance c (bindEvict c mode s)

/-- A core's key in a waiting command once its change has begun. -/
def begun (c : Nat) : Nat := c + 1024

/-- Whether a waiting command stands before another. -/
def waitsBefore (s : State) (w : Wait) : List Wait := s.waits.takeWhile (fun x => x != w)

/-- Replaces a waiting command in its place. -/
def setWait (w w' : Wait) (s : State) : State := { s with waits := s.waits.map (fun x => if x = w then w' else x) }

/-- One core of a waiting BIND_CORES: its change begins once no earlier one is under way, a PREEMPT taking over a DRAIN; and
it is counted when it has finished. -/
def bindKey (c : Nat) (w : Wait) (s : State) : Wait × State :=
  let early := (waitsBefore s w).filter (fun x => x.op == 0x200)
  let drain := early.find? (fun x => x.b == 2 && x.keys.contains (begun c))
  let done (w : Wait) (s : State) : Wait × State :=
    if w.keys.contains (begun c) ∧ (coreOf s c).bindTo.isNone then
      let w' := { w with keys := w.keys.filter (· != begun c), result := w.result + 1, tDone := max w.tDone (coreOf s c).tBind }
      (w', setWait w w' s)
    else (w, s)
  if !w.keys.contains c then done w s
  else
    let start (s : State) : Wait × State :=
      let w' := { w with keys := begun c :: w.keys.filter (· != c) }
      done w' (bindBegin c (bindTarget w.a) w.b (setWait w w' s))
    match drain with
    | some d =>
      if w.b = 0 then start (setWait d { d with keys := d.keys.filter (· != begun c) } s) else (w, s)
    | none =>
      if early.any (fun x => x.keys.contains c || x.keys.contains (begun c)) then (w, s)
      else if (coreOf s c).bindTo.isSome then (w, s)
      else if coreHolder s c = bindTarget w.a then
        let w' := { w with keys := w.keys.filter (· != c) }
        (w', setWait w w' s)
      else start s

/-- Carries every waiting BIND_CORES as far as it goes, and answers those that are done. -/
def flushBinds (s : State) : State :=
  (s.waits.filter (fun w => w.op == 0x200)).foldl (fun s w0 =>
    match s.waits.find? (fun x => x.path == w0.path && x.tAccept == w0.tAccept && x.op == w0.op) with
    | none => s
    | some w =>
      let r := w.keys.foldl (fun (a : Wait × State) k => bindKey (k % 1024) a.1 a.2) (w, s)
      if r.1.keys = [] then answerWait r.1 0 r.1.result (if r.1.tDone = 0 then colNow r.2 else r.1.tDone) [] r.2 else r.2) s

/-- What follows every event that may end a task or free a core: waiting commands and edges are settled. -/
def flushWaits (s : State) : State := flushPreempts (flushBinds s)

/-- Bits of a bitmap. -/
def bitsOf (l : List Byte) (n : Nat) : List Nat := (List.range n).filter (bitOf (leNat l))

/-- The first fenced die a core of a list needs. -/
def coreFenced (s : State) (cs : List Nat) : Option Nat :=
  cs.findSome? (fun c => if !dieOk s (c / 16) then some (c / 16) else if !dieOk s (16 + c / 48) then some (16 + c / 48) else none)

/-- In factory test mode no binding command names a tenant other than 0 (R425). -/
def factoryBars (s : State) (tenant : Nat) : Bool :=
  fget s rSEC_FACTORY fSEC_FACTORY_ACTIVE == 1 && tenant != 0 && tenant != 0xFF

/-- Whether a core's die is held in reset (R402). -/
def heldDie (s : State) (c : Nat) : Bool := fbit s rRST_HOLD_CD fRST_HOLD_CD_HOLD (c / 16)

/-- The parameter fields of opcode 0x200, which of them are out of range, and its effect (R366). -/
def bindCoresFields : List (Nat × Nat) := [(0, 1), (1, 1), (8, 24)]
def bindCoresBad (s : State) : List Byte → Nat → List (Nat × Bool) := fun ps _ =>
    [(0, decide (63 < leAt ps 0 1) && leAt ps 0 1 != 0xFF), (1, decide (2 < leAt ps 1 1)),
     (8, decide (2 ^ nCores s ≤ leAt ps 8 24))]
def bindCoresBody : List Byte → Nat → State → Ans := fun ps _ s =>
    let cs := bitsOf ((ps.drop 8).take 24) 192
    match coreFenced s cs with
    | some u => .no rsPathLost u s
    | none =>
      if factoryBars s (leAt ps 0 1) || cs.any (heldDie s) then .no rsState 0 s
      else if !bindRoom s cs.length then .no rsCapacity 0 s
      else if cs = [] then .ok 0 [] s
      else .wait cs (leAt ps 0 1) (leAt ps 1 1) 0 0 s
def bindCores (h : Cmd) (s : State) : State :=
  flushBinds (runCmd h 0x200 true bindCoresFields (bindCoresBad s) bindCoresBody s)

/-! ## Granules (R135, R136, R163, R200) -/

/-- The holder a granule will have once every change under way is made. -/
def granTarget (s : State) (n g : Nat) : Option Nat :=
  match (granOf s (granKey n g)).pend.getLast? with
  | some c => c.tgt
  | none => if fget s (rMEM_GATTR n g) fMEM_GATTR_BOUND = 1 then some (fget s (rMEM_GATTR n g) fMEM_GATTR_TENANT) else none

/-- The last holder of a granule once every change under way is made. -/
def granLast (s : State) (n g : Nat) : Option Nat :=
  (granOf s (granKey n g)).pend.foldl (fun l c => match c.tgt with
    | some t => some t
    | none => l) (granOf s (granKey n g)).last

/-- The parameter fields of opcode 0x201, which of them are out of range, and its effect (R366). -/
def bindMemoryFields : List (Nat × Nat) := [(0, 1), (2, 1), (3, 1), (4, 2), (6, 2)]
def bindMemoryBad (s : State) : List Byte → Nat → List (Nat × Bool) := fun ps _ =>
    [(0, decide (63 < leAt ps 0 1) && leAt ps 0 1 != 0xFF), (2, decide (1 < leAt ps 2 1)), (3, decide (nRidges s ≤ leAt ps 3 1)),
     (4, decide (384 ≤ leAt ps 4 2)), (6, leAt ps 6 2 == 0 || decide (384 < leAt ps 4 2 + leAt ps 6 2))]
def bindMemoryBody : List Byte → Nat → State → Ans := fun ps _ s =>
    let tgt := bindTarget (leAt ps 0 1)
    let keep := leAt ps 2 1 = 1
    let n := leAt ps 3 1
    let gs := (List.range (leAt ps 6 2)).map (· + leAt ps 4 2)
    if !dieOk s (16 + n) then .no rsPathLost (16 + n) s
    else if factoryBars s (leAt ps 0 1) then .no rsState 0 s
    else if keep ∧ gs.any (fun g => granLast s n g != tgt || tgt.isNone) then .no rsState 0 s
    else
      let ch := gs.filter (fun g => granTarget s n g != tgt)
      if !bindRoom s ch.length then .no rsCapacity 0 s
      else if ch = [] then .ok 0 [] s
      else .wait (ch.map (granKey n)) 0 0 0 0
        (ch.foldl (fun s g => let x := granOf s (granKey n g)
          setGran (granKey n g) { x with pend := x.pend ++ [⟨tgt, keep⟩] } s) s)
def bindMemory (h : Cmd) (s : State) : State :=
  runCmd h 0x201 true bindMemoryFields (bindMemoryBad s) bindMemoryBody s

/-- Drops every TLB entry into a granule (R200). -/
def dropTlbs (key : Nat) (s : State) : State :=
  { s with tlbs := s.tlbs.filterMap (fun p =>
      let l := p.2.filter (fun e => decide (e.size = 2 ^ 30 → paKey (entryPa e.leaf) ≠ key) && decide (paKey (entryPa e.leaf) ≠ key))
      if l = [] then none else some (p.1, l)) }

/-- Whether a transaction into a granule is still under way (R200). -/
def granBusy (s : State) (key : Nat) : Bool := (underWay s).any (fun a => paKey a.2.1 == key)

/-- The stacks of a ridge whose every granule is unbound enter self-refresh (R136, R377). -/
def stackSleep (n : Nat) (s : State) : State :=
  (List.range 6).foldl (fun s k =>
    let gs := if linear s n then (List.range 64).map (· + 64 * k) else List.range 384
    if stackState s n k = 2 ∧ gs.all (fun g => fget s (rMEM_GATTR n g) fMEM_GATTR_BOUND == 0) then
      fset (rMEM_STACK_STATUS n k) fMEM_STACK_STATUS_STATE 3 s
    else s) s

/-- A granule's attributes as a change leaves them: bound, and cleared unless its contents are kept, or unbound and its lines
written back (R135, R136). -/
def granTake (n g : Nat) (c : Change) (s : State) : State :=
  let r := rMEM_GATTR n g
  let base := n * 2 ^ 39 + g * 2 ^ 30
  match c.tgt with
  | some t =>
    let s := fset r fMEM_GATTR_BOUND 1 (fset r fMEM_GATTR_TENANT t s)
    if c.keep then s
    else dropRange base (2 ^ 30) (fset r fMEM_GATTR_POLICY 0 (fset r fMEM_GATTR_BORROW 0 (fset r fMEM_GATTR_CLEARING 1 s)))
  | none => stackSleep n (fset r fMEM_GATTR_BOUND 0 (evictRange base (2 ^ 30) s))

/-- A granule's first pending change takes effect at its T_bind (R135, R136, R163, R200). -/
def granCommit (n g : Nat) (s : State) : State :=
  let key := granKey n g
  let x := granOf s key
  match x.pend with
  | [] => s
  | c :: rest =>
    if granBusy s key then s
    else
      let r := rMEM_GATTR n g
      let old := if fget s r fMEM_GATTR_BOUND = 1 then some (fget s r fMEM_GATTR_TENANT) else none
      let tb := stampAt s (16 + n)
      let s := dropTlbs key s
      let s := granTake n g c s
      let y := granOf s key
      let s := setGran key { y with
        last := c.tgt.or y.last, tBind := tb, pend := rest, changes := y.changes + 1
        uncl := if c.tgt.isSome && !c.keep then List.range 512 else y.uncl } s
      let s := bindRecord 1 key old c.tgt ((x.changes + 1) % 65536) (if c.keep then 3 else 0) tb s
      match s.waits.find? (fun w => w.op == 0x201 && w.keys.contains key) with
      | none => s
      | some w =>
        let w' := { w with keys := w.keys.filter (· != key), result := w.result + 1, tDone := max w.tDone tb }
        if w'.keys = [] then answerWait w 0 w'.result w'.tDone [] s else setWait w w' s

/-- What a granule's change lets go on: records whose writes it deferred (R186, R200). -/
def granChange (n g : Nat) (s : State) : State := flushDeferred (granCommit n g s)

/-- The background clear of a granule finishes (R136). -/
def granCleared (n g : Nat) (s : State) : State :=
  let key := granKey n g
  if fget s (rMEM_GATTR n g) fMEM_GATTR_CLEARING = 0 then s
  else
    let x := granOf s key
    let s := x.uncl.foldl (fun s b => zeroRange (n * 2 ^ 39 + g * 2 ^ 30 + b * 2 ^ 21) (2 ^ 21) s) s
    fset (rMEM_GATTR n g) fMEM_GATTR_CLEARING 0 (setGran key { granOf s key with uncl := [] } s)

/-! ## Ports (R137) -/

/-- A request of the old tenant that waits for a port is taken back: its tag is freed and its piece is to be issued again, over
another port (R137). -/
def unhandPiece (n : Nat) (r : XferRef) (e : TagEnt) (s : State) : State :=
  let s := freeTag n e.tag s
  match getXfer s r with
  | none => s
  | some x => setXfer r (setPiece e.chunk e.piece (fun p => { p with st := p.st - 1 }) x) s

/-- A collective message that waits for a port is taken back: it is owed again. -/
def unhandMsg (n h t d c o : Nat) (e : TagEnt) (pk : Pkt) (s : State) : State :=
  let s := freeTag n e.tag s
  match collOf s h t with
  | none => s
  | some r =>
    let m := decodeColl pk.data
    let r := { r with unacked := r.unacked.erase (d, c, o) }
    setColl h t (if 1 < m.step then { r with fwd := m :: r.fwd } else { r with owed := (d, c, o) :: r.owed }) s

/-- The requests of this module's own that wait in a port's lanes and may no longer enter it, last first. -/
def strandedPkts (s : State) (p : Nat) : List (Nat × Pkt × TagEnt) :=
  let pks := (portOf s p).lanes.flatMap (fun l => l.2.wait.filter (fun pk => !mayEnter s p pk && isRequest pk.kind && pk.src == moduleId s))
  (pks.reverse).filterMap (fun pk => (List.range (nRidges s)).findSome? (fun n =>
    ((tagsOf s n).find? (fun e => e.tag == pk.tag && e.reqId == pk.reqId && e.remote.isSome)).map (fun e => (n, pk, e))))

/-- Whether a transfer has handed a packet to the link layer that is not answered yet. -/
def handed (s : State) (r : XferRef) : Bool :=
  s.tags.any (fun q => q.2.any (fun e => e.use == .chunk r && e.remote.isSome && !e.abandoned))

/-- What a rebinding does to the old tenant's requests that have not entered the port: a transfer that has handed nothing to the
link layer is parked, and what others had queued is issued again over a port the tenant holds (R137). -/
def unhandPort (p : Nat) (s : State) : State :=
  (strandedPkts s p).foldl (fun s q =>
    let s := updLane p q.2.1.lane (fun l => { l with wait := l.wait.erase q.2.1 }) s
    match q.2.2.use with
    | .chunk r =>
      if q.2.2.abandoned then freeTag q.1 q.2.2.tag s
      else
        let s := unhandPiece q.1 r q.2.2 s
        if handed s r then s else parkXfer r 4 0 s
    | .coll h t d c o => unhandMsg q.1 h t d c o q.2.2 q.2.1 s
    | .request _ => freeTag q.1 q.2.2.tag s) s

/-- One port takes its new binding; a test on it ends first (R292). -/
def bindPort (p : Nat) (tgt : Option Nat) (s : State) : State :=
  let s := if portState s p = 5 then testReceive p false s else s
  let x := Mp.get {} s.portBind p
  let tb := stampAt s (16 + pN p)
  let s := unhandPort p { s with portBind := Mp.put {} s.portBind p ⟨tgt, tb, x.changes + 1⟩ }
  let r := rPRG_PORT_STATUS (pK p) (pP p)
  let st := fget s r fPRG_PORT_STATUS_STATE
  let s := if tgt.isSome ∧ st = 4 then fset r fPRG_PORT_STATUS_STATE 3 s
    else if tgt.isNone ∧ st = 3 then fset r fPRG_PORT_STATUS_STATE 4 s else s
  askStripe p (bindRecord 2 p x.tenant tgt ((x.changes + 1) % 65536) 0 tb s)

/-- The parameter fields of opcode 0x202, which of them are out of range, and its effect (R366). -/
def bindPortsFields : List (Nat × Nat) := [(0, 1), (8, 16)]
def bindPortsBad (s : State) : List Byte → Nat → List (Nat × Bool) := fun ps _ =>
    [(0, decide (63 < leAt ps 0 1) && leAt ps 0 1 != 0xFF), (8, decide (2 ^ nPorts s ≤ leAt ps 8 16))]
def bindPortsBody : List Byte → Nat → State → Ans := fun ps _ s =>
    let tgt := bindTarget (leAt ps 0 1)
    let all := bitsOf ((ps.drop 8).take 16) 128
    match all.find? (fun p => !dieOk s (16 + pN p)) with
    | some p => .no rsPathLost (16 + pN p) s
    | none =>
      if factoryBars s (leAt ps 0 1) then .no rsState 0 s else
      let ch := all.filter (fun p => portTenant s p != tgt)
      if !bindRoom s ch.length then .no rsCapacity 0 s
      else
        let s := ch.foldl (fun s p => bindPort p tgt s) s
        .done 0 ch.length [] (some ((ch.map (fun p => (Mp.get {} s.portBind p).tBind)).foldl max (colNow s))) s
def bindPorts (h : Cmd) (s : State) : State :=
  runCmd h 0x202 true bindPortsFields (bindPortsBad s) bindPortsBody s

/-! ## Shares (R112, R116, R138) -/

/-- The sum of a share field over every tenant but one. -/
def otherShares (s : State) (tenant : Nat) (r : Nat → Nat) (f : Fld) : Nat :=
  (((List.range 64).filter (· != tenant)).map (fun t => fget s (r t) f)).foldl (· + ·) 0

/-- The parameter fields of opcode 0x203, which of them are out of range, and its effect (R366). -/
def setShareFields : List (Nat × Nat) := [(0, 1), (4, 4), (8, 4), (12, 2), (14, 1)]
def setShareBad : List Byte → Nat → List (Nat × Bool) := fun ps _ =>
    [(0, decide (63 < leAt ps 0 1)), (14, decide (16 < leAt ps 14 1))]
def setShareBody : List Byte → Nat → State → Ans := fun ps _ s =>
    let t := leAt ps 0 1
    let tooMany (r : Nat → Nat) (f : Fld) (v lim : Nat) : Bool := decide (lim < otherShares s t r f + v)
    let ts := if s.fuses.a12 then 16384 else 8192
    if tooMany rTSC_SHARE_A fTSC_SHARE_A_TASK_SHARE (leAt ps 4 4) ts || tooMany rTSC_SHARE_A fTSC_SHARE_A_EDGE_SHARE (leAt ps 8 4) (4 * ts)
        || tooMany rTSC_SHARE_B fTSC_SHARE_B_HANDLES (leAt ps 12 2) 1023 then .no rsCapacity 0 s
    else
      let s := fset (rTSC_SHARE_A t) fTSC_SHARE_A_TASK_SHARE (leAt ps 4 4) (fset (rTSC_SHARE_A t) fTSC_SHARE_A_EDGE_SHARE (leAt ps 8 4) s)
      .ok 0 [] (fset (rTSC_SHARE_B t) fTSC_SHARE_B_HANDLES (leAt ps 12 2) (fset (rTSC_SHARE_B t) fTSC_SHARE_B_RINGS (leAt ps 14 1) s))
def setShare (h : Cmd) (s : State) : State :=
  runCmd h 0x203 true setShareFields setShareBad setShareBody s

/-- The parameter fields of opcode 0x204, which of them are out of range, and its effect (R366). -/
def schedPolicyFields : List (Nat × Nat) := [(0, 1), (1, 1), (2, 2)]
def schedPolicyBad : List Byte → Nat → List (Nat × Bool) := fun ps _ =>
    [(0, decide (63 < leAt ps 0 1)), (1, decide (1 < leAt ps 1 1)), (2, decide (2047 < leAt ps 2 2))]
def schedPolicyBody : List Byte → Nat → State → Ans := fun ps _ s =>
    let r := rTSC_SHARE_B (leAt ps 0 1)
    .ok 0 [] (fset r fTSC_SHARE_B_PRIO_PREEMPT (leAt ps 1 1) (fset r fTSC_SHARE_B_BACKFILL_LIMIT (leAt ps 2 2) s))
def schedPolicy (h : Cmd) (s : State) : State :=
  runCmd h 0x204 true schedPolicyFields schedPolicyBad schedPolicyBody s

/-! ## Scheduler events -/

def execBindCores (h : Cmd) (s : State) : Host.Outcome State Fault Refusal := .next (flushWaits (bindCores h s))
def execBindMemory (h : Cmd) (s : State) : Host.Outcome State Fault Refusal := .next (bindMemory h s)
def execBindPorts (h : Cmd) (s : State) : Host.Outcome State Fault Refusal := .next (bindPorts h s)
def execSetShare (h : Cmd) (s : State) : Host.Outcome State Fault Refusal := .next (setShare h s)
def execSchedPolicy (h : Cmd) (s : State) : Host.Outcome State Fault Refusal := .next (schedPolicy h s)
def execTaskDispatch (ridge : Nat) (s : State) : Host.Outcome State Fault Refusal := .next (dispatch ridge true s)
def execTaskResume (ridge : Nat) (s : State) : Host.Outcome State Fault Refusal := .next (dispatch ridge false s)
def execBackfillLimitExpiry (ridge tenant : Nat) (s : State) : Host.Outcome State Fault Refusal :=
  .next (backfillExpire ridge tenant s)
def execTaskCommit (h t : Nat) (s : State) : Host.Outcome State Fault Refusal := .next (flushWaits (commitTask h t s))
def execAbortArrival (h t : Nat) (s : State) : Host.Outcome State Fault Refusal := .next (flushWaits (abortArrive h t s))
def execPreemptionRequest (c : Nat) (s : State) : Host.Outcome State Fault Refusal := .next (preemptCore c s)
def execContextSaveComplete (c : Nat) (s : State) : Host.Outcome State Fault Refusal := .next (flushWaits (saveCore c s))
def execCoreSheafClearDone (c : Nat) (s : State) : Host.Outcome State Fault Refusal := .next (flushWaits (sheafCleared c s))
def execGranuleBindCommit (ridge g : Nat) (s : State) : Host.Outcome State Fault Refusal := .next (granChange ridge g s)
def execGranuleClearComplete (ridge g : Nat) (s : State) : Host.Outcome State Fault Refusal := .next (granCleared ridge g s)

end Sys2Proof.Machine
end

