-- ==== Sys2Proof/Machine/Host.lean ====
section
/-! DEFINITION. What the host and the rings do of themselves: doorbells, queue pairs through the control page, interrupts,
configuration space, Function Level Reset, and the writing of waiting records (spec/12_host_interface_and_melhal.md R341 to
R356; spec/04_task_graphs_and_binding.md R127; spec/06_translation_dma_and_faults.md R192;
spec/11_crest_timebase_and_trace.md R338). -/

namespace Sys2Proof.Machine

/-! ## Records that wait (R127, R192, R338) -/

/-- The first waiting record of a completion ring is written once the ring has room (R127). -/
def ringDrain (tenant ring : Nat) (s : State) : State :=
  let r : RingRef := .completion (tenant * 16 + ring)
  match getRing s r with
  | none => s
  | some x => match x.waiting with
    | [] => s
    | w :: rest =>
      if (!w.held && !ringRoom x 1) || isSafe s || ringDefers r w.bytes s then s
      else
        let s := ringWrite r w.bytes (setRing r { x with waiting := rest, reserved := x.reserved - b2n w.held } s)
        match w.task with
        | none => s
        | some (h, t) => forgetGraph h (updTask h t (fun k => { k with recWaiting := k.recWaiting - 1 }) s)

/-- The most slots that something waiting for a completion ring needs at once: one, or one for each member of a gang. -/
def ringNeed (r : RingRef) (s : State) : Nat :=
  ((List.range 4).flatMap (waitList s)).foldl (fun n w => match graphOf s w.handle with
    | some g => if graphRing g = r then max n w.members.length else n
    | none => n) 1

/-- A ring that lacks room rereads HEAD (R127). -/
def ringLacks (r : RingRef) (s : State) : State :=
  match getRing s r with
  | none => s
  | some x => if ringRoom x (ringNeed r s) then s else ringReread r s

/-- The ring of a kind as RING_POP numbers them: 0 completion, 1 fault, 2 trace. -/
def ringNamed (kind tenant ring : Nat) : RingRef :=
  if kind = 0 then .completion (tenant * 16 + ring) else if kind = 1 then .fault tenant else .trace ring

/-- Whether a stored fault record still waits for the ring of a tenant. -/
def FRec.wants (f : FRec) (tenant : Nat) : Bool := if tenant = 0 then f.toModule else f.toTenant && f.tenant == tenant

/-- A fault record leaves the store once every ring that wants it has it. -/
def FRec.give (f : FRec) (tenant : Nat) : FRec :=
  if tenant = 0 then { f with toModule := false } else { f with toTenant := false }

/-- The oldest fault record for a tenant's fault ring is written from the Col die's store, over the Col attach (R26);
RECORDS_LOST sets when a full store drains (R192, R438). -/
def faultDrain (tenant : Nat) (s : State) : State :=
  match getRing s (.fault tenant), s.frecs.find? (fun f => f.wants tenant) with
  | some x, some f =>
    if !ringRoom x 1 || !colAttach s || ringDefers (.fault tenant) f.bytes s then s
    else
      let l := (s.frecs.map (fun g => if g = f then f.give tenant else g)).filter (fun g => g.toModule || g.toTenant)
      let s := { s with frecs := l }
      let s := ringWrite (.fault tenant) f.bytes s
      if s.recLost ∧ s.frecs.length < 1024 then occurs 0 1 2 { s with recLost := false } else s
  | _, _ => s

/-- The source that lost trace records and whose die's store has space again. -/
def lossToReport (s : State) : Option (Nat × Nat) :=
  s.trcLost.find? (fun p => decide ((s.trecs.filter (fun r => traceStoreDie r.source == traceStoreDie p.1 && !r.bind)).length < 2048))

/-- The oldest trace record of a ring is written; a source that lost records then writes one LOST record (R337, R338). -/
def traceDrain (ring : Nat) (s : State) : State :=
  match getRing s (.trace ring), s.trecs.find? (fun t => t.ring == ring) with
  | some x, some t =>
    if !ringRoom x 1 || (traceStoreDie t.source == 64 && !colAttach s) || ringDefers (.trace ring) t.bytes s then s
    else
      let s := ringWrite (.trace ring) t.bytes { s with trecs := s.trecs.erase t }
      match lossToReport s with
      | none => s
      | some (src, n) =>
        let d := traceStoreDie src
        let s := { s with trcLost := Mp.del s.trcLost src }
        occurs 0 1 11 (trace src d 9 0xFF (stampAt s d) (leFields [(4, n), (1, d)]) s)
  | _, _ => s

/-! ## Interrupts (R354) -/

/-- Sends every pending vector of a function that is no longer masked. -/
def flushMsix (f : Nat) (s : State) : State :=
  (List.range 32).foldl (fun s v =>
    if bitOf (fnOf s f).pend v then
      signalVector f v (setFn f { fnOf s f with pend := withField (fnOf s f).pend v 1 0 } s)
    else s) s

/-- 16 µs after the oldest entry not yet signalled, its source signals. -/
def moderationDone (src : IrqSource) (s : State) : State :=
  let ring (r : RingRef) : State := match getRing s r with
    | none => s
    | some x => if x.unsig = 0 then s else signalVector x.tenant x.vector (setRing r { x with unsig := 0 } s)
  match src with
  | .reply q =>
    let x := qpOf s q
    if x.unsig = 0 then s else signalVector (qpOwner s q) x.vector (setQp q { x with unsig := 0 } s)
  | .completion t r => ring (.completion (t * 16 + r))
  | .fault t => ring (.fault t)
  | .trace r => ring (.trace r)

/-! ## Doorbells and the control page (R344, R350, R351, R355) -/

/-- The created queue pair behind a doorbell page of an enabled function. -/
def bellQp (s : State) (fn i : Nat) : Option Nat :=
  if !fnEnabled s fn then none
  else match qpLocal s fn i with
    | some q => if (qpOf s q).created then some q else none
    | none => none

/-- HST_DB_CMD.TAIL: one too far ahead of FETCHED is an error (R355). -/
def doorbellCmd (fn i : Nat) (tail : Word32) (s : State) : State :=
  match bellQp s fn i with
  | none => s
  | some q =>
    let x := qpOf s q
    let s := setQp q { x with tail := tail.toNat } s
    if 2 ^ x.log2 < (tail.toNat + 2 ^ 32 - x.fetched) % 2 ^ 32 then qpError q s else s

/-- HST_DB_RPL.HEAD. -/
def doorbellRpl (fn i : Nat) (head : Word32) (s : State) : State :=
  match bellQp s fn i with
  | none => s
  | some q => setQp q { qpOf s q with head := head.toNat } s

/-- Whether HST_QPB_CFG.EN of a function reads 1. -/
def qpbEnabled (s : State) (fn : Nat) : Bool :=
  match qpLocal s fn 0 with
  | some q => (qpOf s q).created
  | none => false

/-- A write of HST_QPB_CFG: EN creates or deletes local queue pair 0; the other fields are ignored while EN is 1. -/
def writeQpb (fn : Nat) (en : Bool) (value : Word32) (s : State) : State :=
  if !fnEnabled s fn then s
  else if qpbEnabled s fn then
    (if en then s else match qpLocal s fn 0 with
      | some q => qpDrop q s
      | none => s)
  else
    let x := { fnOf s fn with
      log2 := fieldOf value.toNat 16 4, modc := fieldOf value.toNat 8 8, vector := fieldOf value.toNat 0 5 }
    let s := setFn fn x s
    if en then (match qpLocal s fn 0 with
      | some q => qpMake q x.cmdBase x.rplBase x.log2 x.vector x.modc s
      | none => s)
    else s

/-- Every queue pair a function holds. -/
def qpsOf (s : State) (fn : Nat) : List Nat := (List.range 64).filter (fun q => qpOwner s q == fn)

/-- A Function Level Reset (R356): configuration space and pending bits stay. -/
def flr (fn : Nat) (s : State) : State :=
  if !fnEnabled s fn then s
  else
    let s := (qpsOf s fn).foldl (fun s q => if (qpOf s q).created then qpDrop q s else s) s
    setFn fn { ({} : Fn) with pend := (fnOf s fn).pend, cfg := (fnOf s fn).cfg } s

/-! ## Configuration space (R341, R343) -/

/-- Where the Lane Margining at the Receiver capability of the PF stands (R347; log entry 810). -/
def cfgMargin : Nat := 0x200
/-- The Margining Lane Control and Status register of a lane. -/
def cfgLane (l : Nat) : Nat := cfgMargin + 8 + 4 * l

/-- The lane whose Margining Lane Control register stands at an offset. -/
def marginLane (off : Nat) : Option Nat := (List.range 8).find? (fun l => cfgLane l == off)

/-- What the receiver reports of itself: voltage margining, independent up and down and left and right, by sample count, with a sampler
of its own (R347, R348); 64 voltage steps, 32 timing steps, 50 % of a UI, 200 mV. None for what R347 does not state. -/
def marginReport (payload : Nat) : Option Nat :=
  if payload = 0x88 then some 0x17 else if payload = 0x89 then some 64 else if payload = 0x8A then some 32
  else if payload = 0x8B then some 50 else if payload = 0x8C then some 20 else none

/-- The status half of a lane's register after a margining command in its control half (R347): steps within the ranges run, with a
free count of samples in error, and others are refused; only in L0 at 16.0 and 32.0 GT/s. -/
def marginStatus (s : State) (ctl : Nat) : Nat :=
  let type := fieldOf ctl 3 3
  let payload := fieldOf ctl 8 8
  let steps := if type = 3 then payload % 64 else payload % 128
  let run := fget s rHST_LINK_STATUS fHST_LINK_STATUS_LTSSM = 3 ∧ 4 ≤ fget s rHST_LINK_STATUS fHST_LINK_STATUS_RATE
  let answer := if type = 1 then (marginReport payload).getD (freeVal 62 s % 256)
    else if type = 2 then payload
    else if type = 3 ∨ type = 4 then
      (if run ∧ steps ≤ (if type = 3 then 32 else 64) then 2 * 64 + freeVal 62 s % 64 else 3 * 64)
    else payload
  withField (ctl % 256) 8 8 answer

/-- A write to a lane's margining register: a command to this receiver (number 6, or all) is carried out. -/
def marginCommand (l v : Nat) (s : State) : State :=
  let ctl := v % 65536
  let mine := ctl % 8 = 6 ∨ ctl % 8 = 0
  let x := fnOf s 0
  let w := BitVec.ofNat 32 (ctl + 65536 * (if mine then marginStatus s ctl else 0))
  nextFree (setFn 0 { x with cfg := Mp.put 0#32 x.cfg (cfgLane l) w } s)

/-- Whether a margining command holds a lane: it steps the timing or the voltage (R347). -/
def margining (s : State) (l : Nat) : Bool :=
  let ctl := cfgGet s 0 (cfgLane l) % 65536
  (ctl % 8 == 6 || ctl % 8 == 0) && (fieldOf ctl 3 3 == 3 || fieldOf ctl 3 3 == 4)

/-- The dwords of configuration space whose value the manual states; none for those of the PCIe specification alone. -/
def cfgFixed (s : State) (fn off : Nat) : Option Nat :=
  let id := (regVal s rMGT_DEVICE_ID).toNat
  let dev := (if s.fuses.a12 then 0x0A12 else 0x0A06) + (if fn = 0 then 0 else 1)
  if off = 0 then some (dev * 2 ^ 16 + 0x1FC7)
  else if off = 8 then some (0x120000 * 256 + id % 256)
  else if off = 0x2C then some (id / 256 % 256 * 2 ^ 16 + 0x1FC7)
  else if off = 0x10 then some (if fn = 0 then cfgGet s fn off / 2 ^ 23 * 2 ^ 23 + 4 else 0)
  else if off = 0x14 then some (if fn = 0 then cfgGet s fn off else 0)
  else if 0x18 ≤ off ∧ off < 0x28 then some 0
  else if off = cfgMsix then some (withField (cfgGet s fn off) 0 30 (31 * 2 ^ 16 + 0x11))
  else if fn = 0 ∧ (off = cfgSriov + 8 ∨ off = cfgSriov + 0x10) then some (cfgGet s fn off)
  else if fn = 0 ∧ off = cfgSriov + 0xC then some (63 * 2 ^ 16 + 63)
  else if fn = 0 ∧ off = cfgSriov + 0x14 then some (2 ^ 16 + 1)
  else if fn = 0 ∧ (marginLane off).isSome then some (cfgGet s 0 off)
  else none

/-- A configuration request; before the firmware runs it is answered with Configuration Request Retry Status. -/
def cfgRequest (fn off : Nat) (write : Bool) (value : Word32) (s : State) : State :=
  if !s.ready then emit (.cfg fn off none) s
  else if 63 < fn ∨ !fnEnabled s fn ∨ off % 4 ≠ 0 ∨ 4096 ≤ off then s
  else if write ∧ fn = 0 ∧ (marginLane off).isSome then marginCommand ((marginLane off).getD 0) value.toNat s
  else if write then
    (List.range 64).foldl (fun s f => if f = fn ∨ (fn = 0 ∧ off = cfgSriov + 8) then flushMsix f s else s)
      (setFn fn { fnOf s fn with cfg := Mp.put 0#32 (fnOf s fn).cfg off value } s)
  else match cfgFixed s fn off with
    | some v => emit (.cfg fn off (some v)) s
    | none => emit (.cfg fn off (some (freeVal 40 s % 2 ^ 32))) (nextFree s)

def execRecordWrite (tenant ring : Nat) (s : State) : Host.Outcome State Fault Refusal := .next (ringDrain tenant ring s)
def execRingHeadReread (kind tenant ring : Nat) (s : State) : Host.Outcome State Fault Refusal :=
  .next (ringLacks (ringNamed kind tenant ring) s)
def execFaultRecordWrite (tenant : Nat) (s : State) : Host.Outcome State Fault Refusal := .next (faultDrain tenant s)
def execTraceRecordWrite (ring : Nat) (s : State) : Host.Outcome State Fault Refusal := .next (traceDrain ring s)
def execMsixModerationTimer (src : IrqSource) (s : State) : Host.Outcome State Fault Refusal := .next (moderationDone src s)
def execHstDbCmd (fn i : Nat) (tail : Word32) (s : State) : Host.Outcome State Fault Refusal := .next (doorbellCmd fn i tail s)
def execHstDbRpl (fn i : Nat) (head : Word32) (s : State) : Host.Outcome State Fault Refusal := .next (doorbellRpl fn i head s)
def execQpEnable (fn : Nat) (value : Word32) (s : State) : Host.Outcome State Fault Refusal := .next (writeQpb fn true value s)
def execQpDisable (fn : Nat) (value : Word32) (s : State) : Host.Outcome State Fault Refusal := .next (writeQpb fn false value s)
def execFunctionLevelReset (fn : Nat) (s : State) : Host.Outcome State Fault Refusal := .next (flr fn s)
def execPcieConfigurationRequest (fn off : Nat) (write : Bool) (value : Word32) (s : State) :
    Host.Outcome State Fault Refusal := .next (cfgRequest fn off write value s)

end Sys2Proof.Machine
end

