-- ==== Sys2Proof/Machine/Fence.lean ====
section
/-! DEFINITION. Topology, fences, the loss of dies, and their return (spec/01_architecture.md R23, R28;
spec/04_task_graphs_and_binding.md R122; spec/08_die_links_and_discovery.md R254 to R257). -/

namespace Sys2Proof.Machine

/-! ## Firmware images and rollback counters (R417, R421) -/

/-- The bank of the option store that a component runs from. -/
def bankOf (s : State) (comp bank : Nat) : List Byte := Mp.get [] s.sec.banks (2 * comp + bank)
def activeBank (s : State) (comp : Nat) : Nat := Mp.get 0 s.sec.active comp
def runningBank (s : State) (comp : Nat) : Nat := b2n (fbit s rSEC_BOOT_STATUS fSEC_BOOT_STATUS_BANKS comp)

/-- The security version of an image (R417). -/
def svnOf (img : List Byte) : Nat := leAt img 3 1

/-- Whether everything that runs a component has loaded it: for 1 and 3 every populated compute die, or Porger site. -/
def componentLoaded (s : State) (comp : Nat) : Bool :=
  if comp = 1 then fget s rMGT_TOPOLOGY fMGT_TOPOLOGY_CD_UP == 2 ^ nDies s - 1
  else if comp = 3 then (List.range (nSites s)).all (fun i => fget s (rUCI_SITE_STATUS (i / 4) (i % 4)) fUCI_SITE_STATUS_STATE == 3)
  else true

/-- With READY set, the rollback counters rise to the versions of the images in use since boot, as far as they are loaded; never
while FALLBACK is set, nor in recovery (R421). -/
def raiseRbc (s : State) : State :=
  let st := rSEC_BOOT_STATUS
  if !s.ready || fget s st fSEC_BOOT_STATUS_FALLBACK == 1 || fget s st fSEC_BOOT_STATUS_RECOVERY == 1 then s
  else
    let rise (k r : Nat) : Nat := if componentLoaded s k then max r (min 64 (svnOf ((s.sec.meas[k]?).getD []))) else r
    { s with fuses := { s.fuses with rbc := (List.range 4).map (fun k => rise k ((s.fuses.rbc[k]?).getD 0)) } }

/-! ## Topology (R28) -/

/-- Whether a base die knows its identity (R249). -/
def identified (s : State) (n : Nat) : Bool := fget s (rJXL_IDENT n) fJXL_IDENT_SOURCE != 0

/-- Brings BRIDGE_UP, RIDGE_UP and CD_UP of MGT_TOPOLOGY up to date (R28). -/
def topoNow (s : State) : State :=
  let s := (List.range (if nRidges s = 4 then 4 else 1)).foldl (fun s i => topoSet fMGT_TOPOLOGY_BRIDGE_UP i (bridgeUp s i) s) s
  let route := mainRoute s
  let s := (List.range (nRidges s)).foldl (fun s n =>
    let up := route.contains n && identified s n && dieOk s (16 + n)
    let s := topoSet fMGT_TOPOLOGY_RIDGE_UP n up s
    if up then readUnseen n s else s) s
  raiseRbc ((List.range (nDies s)).foldl (fun s d =>
    topoSet fMGT_TOPOLOGY_CD_UP d (jxlState s (d / 3) (d % 3) == 3 && identified s (d / 3) && dieOk s d && dieOk s (16 + d / 3)) s) s)

/-- Whether a port has a partner in the grade. -/
def jPopulated (s : State) (n p : Nat) : Bool :=
  decide (n < nRidges s) && (if p < 3 then true
    else if p = 3 then decide ((n + 1) % 4 < nRidges s) else if p = 4 then decide ((n + 3) % 4 < nRidges s)
    else p == 5 && n == 0)

/-! ## The loss of a die (R122, R255) -/

/-- The pages of a task's context region: a slot for each rank (R100). -/
def contextPages (k : Task) : List Nat :=
  (List.range (k.nCores * (14 + k.extentUnits))).map (fun i => (k.context + 65536 * i) % 2 ^ 64)

/-- Whether any of a task's context lies in the memory of a ridge, as far as tables that can still be read tell (R122). -/
def contextIn (s : State) (h : Nat) (k : Task) (n : Nat) : Bool :=
  (contextPages k).any fun va =>
    match (walk (.save (k.home * 48)) (tenantOfGraph s h) va s).1 with
    | .leaf l e => paRidge (entryPa e + va % levelSize l) == n
    | _ => false

/-- The engine of a collective task that a die loss stops tells every peer (R215); with its own base die lost, another speaks for it
(log entry 702). -/
def collLost (k : Task) (s : State) : State :=
  match k.coll with
  | none => s
  | some r =>
    notifyPeers (if dieOk s (16 + k.unit) then k.unit else recRidge s) r (0x12, 0) (leAt r.desc 8 4)
      (markFailed r.gid r.rank (leAt r.desc 8 4) s)

/-- A task becomes HELD (R122): its cores stop as in an abort, and the peers of a collective are told (R215). -/
def holdTask (h t die : Nat) (s : State) : State :=
  match taskOf s h t with
  | none => s
  | some k =>
    let now := homeStamp s h t
    let s := cancelTags (.task h t) (k.held.foldl (fun s c => stopCore c stAborted s) s)
    let s := updTask h t (fun k => stopRun now { k with
      st := tsHeld, status := 0x82, detail := die, tEvent := now, cores := [], causes := 0, faults := [], savedRanks := []
      endStatus := none, xfer := none, near := none, coll := none }) s
    let s := collLost k (traceTask h t 0x82 4 now k.cores (taskRecord h t 0x82 die now k.cores s))
    k.held.foldl (fun s c => releaseCore c s) s

/-- Whether the loss of a die reaches a task: it runs there, its saved context or its park record lies there, or it is homed there
(R122, R199). -/
def lossTouches (s : State) (die h : Nat) (k : Task) : Bool :=
  let running := k.st == tsRunning || k.st == tsPreempting
  let onCores := running && k.held.any (fun c => c / 16 == die || (decide (16 ≤ die) && c / 48 == die - 16))
  let ridge := decide (16 ≤ die ∧ die < 20)
  k.st != tsFinal && k.st != tsHeld && (onCores || (ridge && ((running && k.kind != 0 && k.unit == die - 16)
    || ((k.st == tsPreempted || k.st == tsFaultWait) && k.kind == 0 && contextIn s h k (die - 16))
    || (k.st == tsFaultWait && k.kind != 0 && k.unit == die - 16) || k.home == die - 16)))

/-- The unit that takes over a task of a lost unit with its edges: of those with room for them, the one with the fewest tasks
(R111, R122). With no room anywhere the task stays where it was (log entry 1007). -/
def newHome (edges : Nat) (s : State) : Option Nat :=
  (((List.range (nRidges s)).filter (fun n =>
      dieOk s (16 + n) && decide (unitTasks s n < 4096 ∧ unitEdges s n + edges ≤ 16384))).foldl (fun (b : Option (Nat × Nat)) n =>
    let c := unitTasks s n
    match b with
    | none => some (n, c)
    | some q => if c < q.2 then some (n, c) else some q) none).map (·.1)

/-- The resident edges that live with a task, as its successors' edges do (R112). -/
def edgesInto (s : State) (h t : Nat) : Nat :=
  ((graphOf s h).map (fun g => (g.edges.filter (fun e => e.succ == t && edgeResident s h e)).length)).getD 0

/-- The scheduler acts on the loss of a die (R122). -/
def loseTasks (die : Nat) (s : State) : State :=
  let hit := (allTasks s).filter (fun q => lossTouches s die q.1 q.2.2.2)
  let s := hit.foldl (fun s q => holdTask q.1 q.2.1 die s) s
  if 16 ≤ die ∧ die < 20 then
    (allTasks s).foldl (fun s q => if q.2.2.2.home = die - 16 ∧ q.2.2.2.st ≠ tsFinal then
      (match newHome (edgesInto s q.1 q.2.1) s with
      | some n => updTask q.1 q.2.1 (fun k => { k with home := n }) s
      | none => s) else s) s
  else s

/-- Whether a local request is for memory a fenced unit answers for. -/
def tagLost (s : State) (u : Nat) (e : TagEnt) : Bool :=
  e.remote.isNone && decide (e.pa < 2 ^ 41) && (match e.use with
    | .coll .. => false
    | _ => stackUnit s e.pa == u || 16 + paRidge e.pa == u)

/-- A request that waited for a fenced unit completes with status PATH_LOST, out of any order, with its record (R190, R255). -/
def loseRequest (u n tag : Nat) (s : State) : State :=
  match (tagsOf s n).find? (fun e => e.tag == tag) with
  | none => s
  | some e =>
    let s := flushDeferred (freeTag n tag s)
    if e.abandoned then s
    else match e.use with
      | .chunk r =>
        let va := ((getXfer s r).map (fun x => dAddr x.desc e.write (((x.issued.find? (fun ch => ch.no == e.chunk)).bind
          (fun ch => ch.pieces[e.piece]?)).map (·.off) |>.getD 0))).getD 0
        xferFail r va (if e.write then accWrite else accRead) (.lost u e.pa) s
      | _ => s

/-- Completes the requests that waited for a fenced unit, and frees the tags its own requesters held (R255 steps 2 to 5). -/
def completeTags (u : Nat) (s : State) : State :=
  let all := s.tags.flatMap (fun p => p.2.map (fun e => (p.1, e)))
  (all.filter (fun q => tagLost s u q.2 || (decide (u < 12) && rqCore q.2.rq / 16 == u)
      || (decide (16 ≤ u ∧ u < 20) && q.1 == u - 16))).foldl (fun s q =>
    if tagLost s u q.2 then loseRequest u q.1 q.2.tag s else flushDeferred (freeTag q.1 q.2.tag s)) s

/-- The ports of a lost Porger site go down (R309). -/
def siteLost (k : Nat) (s : State) : State := (List.range 8).foldl (fun s p => portDrop (8 * k + p) s) s

/-- The other end of a bridge. -/
def jPartner (n p : Nat) : Nat × Nat := if p = 3 then ((n + 1) % 4, 4) else ((n + 3) % 4, 3)

/-- One end of a fenced bridge: marked down, with the cause and the time, and what it was sending and receiving gone (R254, R255;
log entry 807). -/
def bridgeEnd (cause n p : Nat) (s : State) : State :=
  if n < nRidges s ∧ dieOk s (16 + n) ∧ jxlState s n p ≠ 7 then
    let e := rJXL_PORT_EVT n p
    occurs (1 + n) 0 (3 * p) (regPut (rJXL_PORT_TFENCE n p) (BitVec.ofNat 64 (stampAt s (16 + n)))
      (fset e fJXL_PORT_EVT_FENCED 1 (fset e fJXL_PORT_EVT_CAUSE cause (jxlSet n p 7 (jStop n p s)))))
  else s

/-- Whether the way of a local request from a ridge crosses the bridge from BDi to BD(i + 1) (R23). -/
def crosses (s : State) (n : Nat) (e : TagEnt) (i : Nat) : Bool :=
  e.remote.isNone && decide (e.pa < 2 ^ 41) && (match e.use with
    | .coll .. => false
    | _ => match dieRoute s n (paRidge e.pa) e.pa with
      | none => false
      | some l => (List.zip (n :: l) l).any (fun h => (h.1 == i && h.2 == (i + 1) % 4) || (h.2 == i && h.1 == (i + 1) % 4)))

/-- A bridge is fenced: it is marked down at both ends, and the requests in flight on it complete as PATH_LOST naming the die beyond
it (R23, R254, R255). -/
def bridgeFence (n p cause : Nat) (s : State) : State :=
  let q := jPartner n p
  let i := if p = 3 then n else q.1
  let all := (s.tags.flatMap (fun x => x.2.map (fun e => (x.1, e)))).filter (fun x => crosses s x.1 x.2 i)
  let s := bridgeEnd cause q.1 q.2 (bridgeEnd cause n p s)
  all.foldl (fun s x => loseRequest (16 + paRidge x.2.pa) x.1 x.2.tag s) s

/-- The bridges of a lost base die are marked down at their other ends (R23, R255). -/
def bridgesDown (n : Nat) (s : State) : State :=
  bridgeFence ((n + 1) % 4) 4 1 (bridgeFence ((n + 3) % 4) 3 1 s)

/-- The unit number of R8 of a die or site; none for a stack. -/
def dieUnit (u : Nat) : Nat := if u < 12 then 8 + u else if u < 20 then u - 15 else if u < 56 then 0xFF else u - 48

/-- The calibrations of a unit that a fence or reset interrupts (R465). -/
def stopCals (unit status result : Nat) (s : State) : State :=
  (s.waits.filter (fun w => w.op == 0x700 && w.keys.head? == some unit)).foldl (fun s w =>
    let key := unit * 2 ^ 24 + w.a * 2 ^ 16 + w.b
    let s := if w.a = 0x30 then regPut (rCLK_CORE_FREQ (unit - 8) w.b) 0#64 s else s
    answerWait w status result (colNow s) []
      { s with cals := Mp.upd {} s.cals key (fun c => { c with result := 4 }) }) s

/-- The cores, granules and ports that a fence of a unit takes from their holders (R456). -/
def heldBy (u : Nat) : List Nat :=
  if u < 12 then (List.range 16).map (· + 16 * u)
  else if 16 ≤ u ∧ u < 20 then (List.range 384).map (fun g => 4096 + granKey (u - 16) g)
  else if 80 ≤ u then (List.range 8).map (fun p => 8192 + 8 * (u - 80) + p)
  else []

/-- One unit's fence is complete: T_FENCE, its requests, its tasks, and the sources that report it (R255). -/
def fencedOne (s : State) (u : Nat) : State :=
  if (dieOf s u).st ≠ 1 then s
  else
    let now := stampAt s (if u < 12 then 16 + u / 3 else if u < 20 then 64 else if u < 56 then 16 + (u - 32) / 6 else 16 + (u - 80) / 4)
    let s := setDie u { dieOf s u with st := 2, tFence := now } s
    let s := completeTags u s
    let s := stopCals (dieUnit u) rsPathLost u ((heldBy u).foldl (fun s r => noteHeld now r 0 s) s)
    if u < 12 then
      occurs (1 + u / 3) 0 (3 * (u % 3)) (loseTasks u (regPut (rJXL_PORT_TFENCE (u / 3) (u % 3)) (BitVec.ofNat 64 now) s))
    else if u < 20 then loseTasks u (bridgesDown (u - 16) s)
    else if 80 ≤ u then siteLost (u - 80) s
    else s

/-- Everything that a fence of a unit takes with it. -/
def fenceSet (u : Nat) : List Nat := if 16 ≤ u ∧ u < 20 then u :: ridgeUnits (u - 16) else [u]

/-- A fence completes within t_FNC of its trigger; a waiting DIE_FENCE is answered, a waiting DIE_REJOIN is lost. -/
def fenceDone (u : Nat) (s : State) : State :=
  if (dieOf s u).st ≠ 1 then s
  else
    let s := topoNow ((fenceSet u).foldl fencedOne s)
    let s := answerAll 0x903 (fun w => w.keys == [u]) (fun _ => (0, 0, (dieOf s u).tFence, [])) s
    flushWaits (answerAll 0x904 (fun w => match w.keys with
      | [k] => (fenceSet u).contains k
      | _ => false) (fun _ => (rsPathLost, u, (dieOf s u).tFence, [])) s)

/-- Whether a code names a die, stack or site of the grade other than the Col die (R366). -/
def isUnitCode (s : State) (u : Nat) : Bool :=
  decide (u < nDies s ∨ (16 ≤ u ∧ u < 16 + nRidges s) ∨ (32 ≤ u ∧ u < 32 + nStacks s) ∨ (80 ≤ u ∧ u < 80 + nSites s))

/-- The code of the base die a unit stands on; itself for a base die. -/
def hostDie (u : Nat) : Nat :=
  if u < 12 then 16 + u / 3 else if u < 20 then u else if u < 56 then 16 + (u - 32) / 6 else 16 + (u - 80) / 4

/-! ## Rejoining (R256, R257) -/

/-- The binding of a core that comes back: UNBOUND and asleep, with a BIND record if it was bound (R139, R256). -/
def coreBack (c : Nat) (s : State) : State :=
  let st := coreState s c
  let old := if st = 0 then none else some (coreTenant s c)
  let s := setCore c {} s
  if st = 0 then fset (bindReg c) fTSC_CORE_BIND_SLEEP 1 s
  else bindDone c none (updCore c (fun k => { k with bindOld := old }) s)

/-- The registers that a reset of one die in its own scope leaves as they are: core bindings, which `coreBack` resets, the bindings
of granules, what the stacks show (R257), and what a system reset spares too. -/
def dieSpared (a : Nat) : Bool :=
  let u := a / 0x4000000
  let o := a % 0x4000000
  (decide (8 ≤ u ∧ u < 20) && decide (0x40000 ≤ o ∧ o < 0x40040))
  || (decide (1 ≤ u ∧ u ≤ 4) && ((decide (0x201000 ≤ o ∧ o < 0x201600)) || (decide (0x200100 ≤ o ∧ o < 0x200160) && o % 0x10 == 0)
    || (decide (0x600020 ≤ o ∧ o < 0x600800) && o % 0x40 == 0x20)))

/-- A register at its reset value, with what the Winnower loaded into it standing (R14, R256). -/
def regRestart (s : State) (a : Nat) (v : Word64) : Word64 :=
  match findReg (a / 0x4000000) (a % 0x4000000) with
  | none => v
  | some (r, _) => BitVec.ofNat 64 ((r.fields.filter (fun f => f.rst == .w)).foldl
      (fun x f => withField x f.lo f.w (fieldOf v.toNat f.lo f.w)) (resetReg s.fuses a).toNat)

/-- The registers of a unit return to their reset values (R256). -/
def unitRestart (unit : Nat) (s : State) : State :=
  { s with regs := s.regs.map (fun p => (p.1, if p.1 / 0x4000000 = unit ∧ !dieSpared p.1 then regRestart s p.1 p.2 else p.2)) }

/-- Blocks that lose their clock with a die, stack or site that is reset (R256, R401). -/
def unitBlocks (u : Nat) : Block → Bool
  | .base n => u == 16 + n
  | .compute d => u == d || u == 16 + d / 3
  | .core c => u == c / 16 || u == 16 + c / 48
  | .porger k => u == 80 + k || u == 16 + k / 4
  | .col => false

/-- A unit is reset in its own scope, and will be released under R401 (R256). -/
def unitReset (u : Nat) (s : State) : State :=
  let s := unitRestart (dieUnit u) s
  { s with boot := { s.boot with stable := s.boot.stable.filter (fun b => !unitBlocks u b) } }

/-- A die-link port goes back to reset; its record of failed groups stands (R248, R256). -/
def portFresh (n p : Nat) (s : State) : State :=
  if !jPopulated s n p then s
  else jxlSet n p 1 { s with jports := Mp.upd {} s.jports (8 * n + p) (fun j => { ({} : JPort) with failed := j.failed }) }

/-- A unit starts to come back: it is reset in its own scope (R256); a Col attach that is marked down stays down (R257). -/
def rejoinOne (u : Nat) (s : State) : State :=
  let d := dieOf s u
  if u < 12 then
    let s := unitReset u (setDie u { d with st := 3 } s)
    let s := (List.range 16).foldl (fun s c => coreBack (16 * u + c) s) s
    portFresh (u / 3) (u % 3) { s with tlbs := s.tlbs.filter (fun q => q.1 / 16 != u) }
  else if 32 ≤ u ∧ u < 56 then
    let n := (u - 32) / 6
    fset (rMEM_STACK_STATUS n ((u - 32) % 6)) fMEM_STACK_STATUS_STATE 5
      (fsetBit (rMEM_RIDGE_CFG n) fMEM_RIDGE_CFG_STACK_UP ((u - 32) % 6) false (setDie u {} s))
  else if 80 ≤ u then
    let k := u - 80
    let s := unitReset u (setDie u { d with st := 3 } s)
    let s := (List.range 8).foldl (fun s p =>
      if (portTenant s (8 * k + p)).isSome then
        let x := Mp.get {} s.portBind (8 * k + p)
        let tb := stampAt s (16 + k / 4)
        bindRecord 2 (8 * k + p) x.tenant none ((x.changes + 1) % 65536) 0 tb
          { s with portBind := Mp.put {} s.portBind (8 * k + p) ⟨none, tb, x.changes + 1⟩ }
      else s) s
    regPut (rUCI_SITE_STATUS (k / 4) (k % 4)) 0#64 s
  else
    let n := u - 16
    let down := jxlState s n 5 = 7
    let s := unitReset u (setDie u { d with st := 3 } s)
    let s := { s with caches := Mp.del s.caches n, tlbs := Mp.del s.tlbs (192 + n), sites := Mp.del s.sites n }
    let s := (List.range 6).foldl (fun s p => portFresh n p s) s
    let s := if down then jxlSet n 5 7 s else s
    portFresh ((n + 1) % 4) 4 (portFresh ((n + 3) % 4) 3 s)

/-- A base die that is coming back is UP once it knows its identity and an inner port is up: then its whole ridge comes
back too (R256). -/
def ridgeBack (n : Nat) (s : State) : State :=
  let u := 16 + n
  if (dieOf s u).st = 3 ∧ !(dieOf s u).localSafe ∧ identified s n ∧ (jxlState s n 3 = 3 ∨ jxlState s n 4 = 3 ∨ jxlState s n 5 = 3) then
    let s := setDie u {} s
    let s := (ridgeUnits n).foldl (fun s v => rejoinOne v s) s
    let now := stampAt s u
    let s := (List.range 384).foldl (fun s g =>
      if fget s (rMEM_GATTR n g) fMEM_GATTR_BOUND = 1 then
        noteHeld now (4096 + granKey n g) (fget s (rMEM_GATTR n g) fMEM_GATTR_TENANT) s
      else s) s
    answerAll 0x904 (fun w => w.keys == [u]) (fun _ => (0, 0, stampAt s 64, [])) s
  else s

/-- A compute die whose port is up and whose base die knows its identity is back (R256). -/
def computeBack (d : Nat) (s : State) : State :=
  if (dieOf s d).st = 3 ∧ jxlState s (d / 3) (d % 3) = 3 ∧ identified s (d / 3) then
    answerAll 0x904 (fun w => w.keys == [d]) (fun _ => (0, 0, stampAt s 64, [])) (setDie d {} s)
  else s

/-- What follows every change of a die link or of an identity. -/
def linksSettle (s : State) : State :=
  let s := (List.range (nRidges s)).foldl (fun s n => ridgeBack n s) s
  topoNow ((List.range (nDies s)).foldl (fun s d => computeBack d s) s)

/-- The parameter fields of opcode 0x903, which of them are out of range, and its effect (R366). -/
def dieFenceFields : List (Nat × Nat) := [(0, 1)]
def dieFenceBad (s : State) : List Byte → Nat → List (Nat × Bool) := fun ps _ => [(0, !isUnitCode s (leAt ps 0 1))]
def dieFenceBody : List Byte → Nat → State → Ans := fun ps _ s =>
    let u := leAt ps 0 1
    if hostDie u ≠ u ∧ !dieOk s (hostDie u) then .no rsPathLost (hostDie u) s
    else if (dieOf s u).st = 2 then .done 0 0 [] (some (dieOf s u).tFence) s
    else .wait [u] 0 0 0 0 (fenceStart u 7 s)
/-- DIE_FENCE (R254 to R256). -/
def dieFence (h : Cmd) (s : State) : State :=
  runCmd h 0x903 true dieFenceFields (dieFenceBad s) dieFenceBody s

/-- The parameter fields of opcode 0x904, which of them are out of range, and its effect (R366). -/
def dieRejoinFields : List (Nat × Nat) := [(0, 1)]
def dieRejoinBad (s : State) : List Byte → Nat → List (Nat × Bool) := fun ps _ => [(0, !isUnitCode s (leAt ps 0 1))]
def dieRejoinBody : List Byte → Nat → State → Ans := fun ps _ s =>
    let u := leAt ps 0 1
    if hostDie u ≠ u ∧ !dieOk s (hostDie u) then .no rsPathLost (hostDie u) s
    else if (dieOf s u).st ≠ 2 then .no rsState 0 s
    else if (if 32 ≤ u ∧ u < 56 then 85 else 95) < Mp.get 0 s.pwr.temps u then .no rsPathLost u s
    else if 32 ≤ u ∧ u < 56 then .ok 0 [] (topoNow (rejoinOne u s))
    else .wait [u] 0 0 0 0 (topoNow (rejoinOne u s))
/-- DIE_REJOIN (R256), refused while the die is still hot (R386): a stack is back at once, awaiting STACK_REJOIN; the others when they are up. -/
def dieRejoin (h : Cmd) (s : State) : State :=
  runCmd h 0x904 true dieRejoinFields (dieRejoinBad s) dieRejoinBody s

/-- The parameter fields of opcode 0x40B, which of them are out of range, and its effect (R366). -/
def stackRejoinFields : List (Nat × Nat) := [(0, 1)]
def stackRejoinBad (s : State) : List Byte → Nat → List (Nat × Bool) := fun ps _ => [(0, decide (nStacks s ≤ leAt ps 0 1))]
def stackRejoinBody : List Byte → Nat → State → Ans := fun ps _ s =>
    let u := 32 + leAt ps 0 1
    let n := leAt ps 0 1 / 6
    let k := leAt ps 0 1 % 6
    if !dieOk s (16 + n) then .no rsPathLost (16 + n) s
    else if stackState s n k ≠ 5 then .no rsState (stackState s n k) s
    else
      let mine (p : Nat × Line) : Bool := stackUnit s (p.1 * 128) == u
      let dirty := ((cacheOf s n).lines.filter (fun p => mine p && !p.2.borrowed && (p.2.dirty0 || p.2.dirty1)))
      let s := dirty.foldl (fun s p => lineLost n p.1 p.2 s) s
      let s := { s with caches := s.caches.map (fun q => (q.1, { q.2 with lines := q.2.lines.filter (fun p => !mine p) }))
                        mem := s.mem.filter (fun p => stackUnit s p.1 != u)
                        cwErr := s.cwErr.filter (fun p => stackUnit s (64 * p.1) != u) }
      .ok 0 [] (fset (rMEM_STACK_STATUS n k) fMEM_STACK_STATUS_STATE 2
        (fsetBit (rMEM_RIDGE_CFG n) fMEM_RIDGE_CFG_STACK_UP k true s))
/-- STACK_REJOIN (R257): the lines of the stack are discarded with a record for each dirty one, and the stack is zeroed. -/
def stackRejoin (h : Cmd) (s : State) : State :=
  runCmd h 0x40B true stackRejoinFields (stackRejoinBad s) stackRejoinBody s

def execFenceTrigger (die : Nat) (cause : FenceCause) (s : State) : Host.Outcome State Fault Refusal :=
  .next (if isUnitCode s die then fenceStart die (causeCode cause) s else s)
def execFenceComplete (die : Nat) (s : State) : Host.Outcome State Fault Refusal := .next (fenceDone die s)
def execDieFence (h : Cmd) (s : State) : Host.Outcome State Fault Refusal := .next (dieFence h s)
def execDieRejoin (h : Cmd) (s : State) : Host.Outcome State Fault Refusal := .next (dieRejoin h s)
def execStackRejoin (h : Cmd) (s : State) : Host.Outcome State Fault Refusal := .next (stackRejoin h s)

end Sys2Proof.Machine
end

