-- ==== Sys2Proof/Machine/Links.lean ====
section
/-! DEFINITION. Jexurri die links: beats and retry, packets, training and repair, and the discovery of identities
(spec/08_die_links_and_discovery.md R227 to R254). -/

namespace Sys2Proof.Machine

/-! ## Ports (R228 to R231) -/

/-- Bump groups, minimum width and default width of a port. -/
def jBump (p : Nat) : Nat := if p < 3 then 136 else if p < 5 then 72 else 8
def jMin (p : Nat) : Nat := if p < 3 then 64 else if p < 5 then 32 else 4
def jDefault (p : Nat) : Nat := if p < 3 then 128 else if p < 5 then 64 else 8

/-- The planned width of one end (R229), the default before option loading. -/
def jPlan (s : State) (n p : Nat) : Nat :=
  if p = 5 then 8
  else
    let w := fget s (rJXL_PORT_STATUS n p) fJXL_PORT_STATUS_PLAN
    if w = 0 then jDefault p else w

def isBridge (p : Nat) : Bool := p == 3 || p == 4

/-- The width a port trains to before repair: the smaller plan of a bridge (R230). -/
def jWant (s : State) (n p : Nat) : Nat :=
  if isBridge p then min (jPlan s n p) (jPlan s (jPartner n p).1 (jPartner n p).2) else jPlan s n p

def jPort (s : State) (n p : Nat) : JPort := Mp.get {} s.jports (8 * n + p)
def updJ (n p : Nat) (f : JPort → JPort) (s : State) : State := { s with jports := Mp.upd {} s.jports (8 * n + p) f }

/-- Repair under R245: the groups carried in logical order, a spare in the place of the group it replaces (R244), the spares used and
the groups dropped, for a width before repair and the groups failed in the order they failed. -/
def repair (p want : Nat) (failed : List Nat) : List Nat × Nat × Nat :=
  let bad := failed.filter (fun g => decide (g < want))
  let used := bad.foldl (fun (a : List (Nat × Nat)) g =>
    let sp := jBump p + g / 16
    if failed.contains sp || a.any (fun x => x.2 == sp) then a else a ++ [(g, sp)]) []
  ((List.range want).filterMap (fun g => if bad.contains g then (used.find? (fun x => x.1 == g)).map (·.2) else some g),
    used.length, bad.length - used.length)

/-- The groups of a MAP in logical order as a follower takes them: of the groups of a domain that are absent, the spare stands for
the highest (R244; log entry 806). -/
def mapOrder (p map : Nat) : List Nat :=
  (List.range (jBump p)).filterMap (fun g =>
    if bitOf map g then some g
    else if bitOf map (jBump p + g / 16) && (List.range (jBump p)).all (fun h => bitOf map h || decide (h / 16 ≠ g / 16) || decide (h ≤ g)) then
      some (jBump p + g / 16)
    else none)

/-! ## Flits and beats (R233 to R236) -/

/-- The CRC of a flit (R234). -/
def flitCrc (l : List Byte) : Nat := crcOf 24 0x5D6DCB 0xFFFFFF false false (l.take 61)

/-- A flit: 56 payload bytes and its trailer. -/
def mkFlit (payload : List Byte) (ftype bseq ack crcnt crcls : Nat) (ackv nak : Bool) : List Byte :=
  let low := bseq % 256 + ftype * 2 ^ 12 + ack % 256 * 2 ^ 18 + b2n ackv * 2 ^ 26 + b2n nak * 2 ^ 27 + crcls * 2 ^ 28
    + crcnt % 1024 * 2 ^ 30
  let body := bytesAt payload 0 56 ++ leBytes 5 low
  body ++ leBytes 3 (flitCrc body)

/-- A flit as it arrives: its 64 bytes, and behind them the track lane's bit in each of its eight unit intervals where they are known. -/
def flitOk (l : List Byte) : Bool := (l.length == 64 || l.length == 65) && leAt l 61 3 == flitCrc l
def fTrail (l : List Byte) (lo w : Nat) : Nat := fieldOf (leAt l 56 8) lo w

/-- Cuts a list into pieces of 56 bytes. -/
def cut56 : Nat → List Byte → List (List Byte)
  | 0, _ => []
  | f + 1, l => if l = [] then [] else l.take 56 :: cut56 f (l.drop 56)

/-! ## Wires (R232, R233) -/

/-- The even parity of a group's 64 data bits in a unit interval. -/
def trackBit (w : Nat) : Nat := ((List.range 64).filter (bitOf w)).length % 2

/-- What a group's wires carry in unit interval `u` of a flit: bit k of byte b on data lane 8 × (b mod 8) + k, and the track lane. -/
def uiWord (flit : List Byte) (u : Nat) : Nat :=
  let w := leAt flit (8 * u) 8
  w + 2 ^ 64 * trackBit w

/-- What the groups that carry the logical groups send for a beat's flits. -/
def wireGroups (map : List Nat) (flits : List (List Byte)) : List (Nat × List Nat) :=
  flits.zipIdx.map (fun f => ((map[f.2]?).getD f.2, (List.range 8).map (uiWord f.1)))

/-- A beat leaves a port, a flit on each of its logical groups. -/
def emitBeat (n p : Nat) (map : List Nat) (flits : List (List Byte)) (s : State) : State :=
  emit (.wires n p (wireGroups map flits)) (emit (.die n p flits.flatten) s)

/-- The unit intervals of a flit in which the track lane's bit is not the parity of the data lanes. -/
def parityErrors (flit : List Byte) : Nat :=
  if flit.length = 65 then ((List.range 8).filter (fun u => trackBit (leAt flit (8 * u) 8) != fieldOf (leAt flit 64 1) u 1)).length else 0

/-- Parity errors count against their group, over 1 ms from the first (R232, R237; log entry 808). -/
def noteParity (n p g k : Nat) (s : State) : State :=
  if k = 0 then s
  else
    let now := stampAt s (16 + n)
    updJ n p (fun j => { j with parity := Mp.upd (0, 0) j.parity g (fun x =>
      if x.2 ≠ 0 ∧ now < x.1 + 4000000 then (x.1, x.2 + k) else (now, k)) }) s

/-! ## Beats (R235, R236, R238 to R240) -/

/-- Sends one beat of up to a beat's worth of payload, with the acknowledgement and the credits owed (R235, R236); an injected
error spoils the CRC of its first flit (R442). -/
def sendBeat (n p : Nat) (payload : List Byte) (nak : Bool) (s : State) : State :=
  let j := jPort s n p
  if 64 ≤ j.retry.length then s
  else
    let w := max 1 (fget s (rJXL_PORT_STATUS n p) fJXL_PORT_STATUS_WIDTH)
    let ds := cut56 (payload.length + 1) payload
    let flits := (List.range w).map (fun i =>
      let c := if i < 4 then min 1023 ((j.ret[i]?).getD 0) else 0
      match ds[i]? with
      | some d => mkFlit d 1 j.seq (j.expect + 255) c (i % 4) true nak
      | none => mkFlit [] 0 j.seq (j.expect + 255) c (i % 4) true nak)
    let key := (1 + n) * 65536 + 0xF2 * 256 + p
    let hit := Mp.get 0 s.inj key != 0
    let s := if hit then { s with inj := Mp.upd 0 s.inj key (· - 1) } else s
    emitBeat n p j.map (if hit then modAt flits 0 (fun l => modAt l 63 (· ^^^ 1#8)) else flits) (updJ n p (fun j => { j with
      seq := (j.seq + 1) % 256, retry := j.retry ++ [flits], heard := 0
      ret := if w < 4 then (j.ret.drop w).foldl (fun l x => l ++ [x]) (List.replicate w 0) else j.ret.map (fun x => x - 1023) }) s)

/-- The longest run of a packet's bytes that one beat carries. -/
def beatRoom (s : State) (n p : Nat) : Nat := 56 * max 1 (fget s (rJXL_PORT_STATUS n p) fJXL_PORT_STATUS_WIDTH)

/-- Sends a packet in as many beats as it takes. -/
def sendPieces (n p : Nat) : Nat → List Byte → State → State
  | 0, _, s => s
  | f + 1, l, s => if l = [] then s else sendPieces n p f (l.drop (beatRoom s n p)) (sendBeat n p (l.take (beatRoom s n p)) false s)

/-- Credits a packet costs (R239). -/
def packetCost (l : List Byte) : Nat := (l.length + 63) / 64

/-- The packet a port starts next: management's oldest, else the oldest of another class, each only if its class has credits for all
of it; within a class none passes another (R227, R239, R240). -/
def nextPacket (j : JPort) : Option (Nat × List Byte) :=
  let ready (q : Nat × List Byte) : Bool :=
    j.sendq.find? (fun x => x.1 == q.1) == some q && decide (packetCost q.2 ≤ (j.credits[q.1]?).getD 0)
  (j.sendq.find? (fun q => q.1 == 0 && ready q)).or (j.sendq.find? ready)

/-- Takes waiting packets into the stream, one behind the other, while credits allow and `room` bytes carry them (R238, R239). -/
def gather (room : Nat) : Nat → List Byte × JPort → List Byte × JPort
  | 0, r => r
  | f + 1, r =>
    match nextPacket r.2 with
    | none => r
    | some q =>
      if room < r.1.length + q.2.length then r
      else gather room f (r.1 ++ q.2, { r.2 with
        sendq := r.2.sendq.erase q, credits := modAt r.2.credits q.1 (fun c => c - packetCost q.2) })

/-- Sends what waits and may start: packets back to back, as far as the retry buffer has room for their beats (R236, R238 to R240);
words of zeros end the last flit where nothing more waits. -/
def jPump (n p : Nat) (s : State) : State :=
  let j := jPort s n p
  if jxlState s n p ≠ 3 then s
  else
    let r := gather ((64 - j.retry.length) * beatRoom s n p) j.sendq.length ([], j)
    sendPieces n p (r.1.length + 1) r.1 (updJ n p (fun _ => r.2) s)

/-- A packet waits to be sent; a port that is fenced or marked down discards it (R255). -/
def jSend (n p cls : Nat) (l : List Byte) (s : State) : State :=
  if jxlState s n p = 5 ∨ jxlState s n p = 7 then s
  else jPump n p (updJ n p (fun j => { j with sendq := j.sendq ++ [(cls, l)] }) s)

/-! ## Packets (R238, R241, R242) -/

/-- A packet's header (R241), padded data behind it. -/
def jPacket (kind cls tenant len status tag src dst addr : Nat) (data : List Byte) : List Byte :=
  leFields [(1, kind), (1, cls + 4 * tenant), (2, len + status * 2 ^ 13), (2, tag), (1, src), (1, dst), (8, addr)] ++ pad8 data

/-- The stream bytes of the packet a stream begins with. -/
def jPacketLen (l : List Byte) : Nat :=
  let kind := leAt l 0 1
  let len := leAt l 2 2 % 8192
  16 + (if kind = 3 then alignUp ((len + 7) / 8) 8 else 0) + (if kind = 1 ∨ kind = 6 then 0 else alignUp len 8)

/-- The status and data of a memory request at a base die (R241). -/
def jServe (tenant pa : Nat) (s : State) (go : State → MRes × State) : Nat × List Byte × State :=
  if !paValid s pa then (3, [], s)
  else if !granBound s (paRidge pa) (paGranule pa) tenant then (4, [], s)
  else match go s with
    | (.ok bs, s) => (0, bs, s)
    | (.uncorr q, s) => (1, [], uncorrFault q 0 tenant 0 1 0 0xFFFF 0xFFFF 0 s)
    | (.lost _ _, s) => (2, [], s)

/-- The places of a base die's physical sites by logical number (R252): stack sites PS0 to PS2 are 0 to 2 and PW0 to PW2 are 3 to 5,
Porger sites QS0 and QS1 are 0 and 1 and QW0 and QW1 are 2 and 3; the six stacks come first. -/
def siteTable (n : Nat) : List Nat :=
  if n = 0 then [0, 1, 2, 3, 4, 5, 0, 1, 2, 3]
  else if n = 1 then [5, 4, 3, 0, 1, 2, 3, 2, 0, 1]
  else if n = 2 then [2, 1, 0, 5, 4, 3, 1, 0, 3, 2]
  else [3, 4, 5, 2, 1, 0, 2, 3, 1, 0]

/-- The stacks of a base die that is out of reset and knows its identity come up (R253; steps 11 and 14 of R410). -/
def stacksUp (n : Nat) (s : State) : State :=
  if s.boot.stable.contains (.base n) ∧ identified s n then
    (List.range 6).foldl (fun s k =>
      if stackState s n k = 0 ∨ stackState s n k = 1 then
        fsetBit (rMEM_RIDGE_CFG n) fMEM_RIDGE_CFG_STACK_UP k true (fset (rMEM_STACK_STATUS n k) fMEM_STACK_STATUS_STATE 3 s)
      else s) s
  else s

/-- The index of every compute die whose attach is up already (R253). -/
def giveIndexes (q n : Nat) (s : State) : State :=
  (List.range 3).foldl (fun s i =>
    if jxlState s q i = 3 ∨ jxlState s q i = 4 then fset (rJXL_CD_STATUS (3 * q + i)) fJXL_CD_STATUS_INDEX (3 * n + i) s else s) s

/-- An identity that a base die takes from the links or its straps, and passes on (R249, R250, R252, R253). -/
def takeIdentity (q n source : Nat) (s : State) : State :=
  let r := rJXL_IDENT q
  let s := fset r fJXL_IDENT_SOURCE source (fset r fJXL_IDENT_ID n (fset r fJXL_IDENT_ROT n s))
  let s := if source ≠ 4 ∧ fget s r fJXL_IDENT_STRAP_ROT ≠ n then occurs (1 + q) 0 19 (fset r fJXL_IDENT_MISMATCH 1 s) else s
  let s := stacksUp q (giveIndexes q n { s with sites := Mp.put [] s.sites q (siteTable n) })
  let s := [3, 4].foldl (fun s p =>
    if jxlState s q p = 3 then jSend q p 0 (jPacket 0xB 0 0 0 0 0 (16 + n) (16 + (jPartner q p).1) n []) s else s) s
  linksSettle s

/-- The bridges of a base die with an identity conflict stay down until tenant 0 retrains them (R250). -/
def conflictDown (q : Nat) (s : State) : State :=
  [3, 4].foldl (fun s p => jxlSet q p 7 (jStop q p (updJ q p (fun j => { j with conflict := true }) s))) s

/-- An IDENT from BDm on a bridge (R249, R250): two that imply different identities are a conflict. -/
def identReceive (q : Nat) (edgeE : Bool) (m : Nat) (s : State) : State :=
  let r := rJXL_IDENT q
  let n := if edgeE then (m + 3) % 4 else (m + 1) % 4
  let src := fget s r fJXL_IDENT_SOURCE
  if nRidges s ≤ q ∨ (!dieOk s (16 + q) && (dieOf s (16 + q)).st ≠ 3) ∨ (jPort s q (if edgeE then 3 else 4)).conflict then s
  else if src = 0 ∨ src = 4 then takeIdentity q n (if edgeE then 3 else 2) s
  else if fget s r fJXL_IDENT_ID = n then s
  else
    let s := occurs (1 + q) 0 18 (fset r fJXL_IDENT_CONFLICT 1 s)
    let s := if fget s r fJXL_IDENT_STRAP_OK = 1 then
        let x := fget s r fJXL_IDENT_STRAP_ROT
        let s := fset r fJXL_IDENT_SOURCE 4 (fset r fJXL_IDENT_ID x (fset r fJXL_IDENT_ROT x s))
        giveIndexes q x { s with sites := Mp.put [] s.sites q (siteTable x) }
      else s
    linksSettle (conflictDown q s)

/-- Where a packet for a unit goes from a base die for an address (R23, R26, R241): none where no way leads there, some none where the
base die itself takes it for its own units, and else the port it leaves by. -/
def jRoute (s : State) (n unit addr : Nat) : Option (Option Nat) :=
  let at? : Nat × Option Nat :=
    if unit < 12 then (unit / 3, some (unit % 3)) else if unit = 64 then (0, some 5)
    else if (16 ≤ unit ∧ unit < 20) ∨ (32 ≤ unit ∧ unit < 56) ∨ (80 ≤ unit ∧ unit < 96) then (hostDie unit, none) else (n, none)
  let out := if at?.1 = n then some at?.2
    else ((dieRoute s n at?.1 addr).bind List.head?).map (fun m => some (if m = (n + 1) % 4 then 3 else 4))
  match out with
  | some (some p) => if jxlState s n p = 3 ∨ jxlState s n p = 4 then out else none
  | _ => out

/-- An ATOMIC at the owning ridge cache (R89, R241; log entry 804): the first eight data bytes are added to the word modulo 2^64, or,
where the second eight are not zero, taken from it if it holds as much; the answer is the word before. -/
def jAtomic (n tenant pa : Nat) (data : List Byte) (s : State) : MRes × State :=
  match ownerRead n tenant pa 8 s with
  | (.ok bs, s) =>
    let v := leNat bs
    let k := leAt data 0 8
    let take := leAt data 8 8 ≠ 0
    if take ∧ v < k then (.ok bs, s)
    else match memWrite n tenant pa (leBytes 8 (if take then v - k else (v + k) % 2 ^ 64)) s with
      | (.ok _, s) => (.ok bs, s)
      | r => r
  | r => r

/-- A MSG at a base die: for its collective engine, or for the fabric where its DST is a Porger site (R239); none: not accepted yet. -/
def jMsg (n tenant dst vc : Nat) (data : List Byte) (s : State) : Option State :=
  if 80 ≤ dst then
    let p := msgPkt s tenant vc (leAt data 14 2) data
    match routeOf s n p with
    | .port q => some (enqueuePkt q p s)
    | .noPort => none
    | .noEntry => some s
  else if isNotice data then some (takeNotice n (decodeNotice data) s)
  else collReceive n (decodeColl data) s

/-- Acts on a whole packet: forwards it to the die it is for (R23, R26), serves it, takes a response, a message or an identity; none: it
stays in its receive buffer. A management request for this base die's own units waits there for `mgtServe`; no unit of the model sends
one, so a management response finds nothing that waits for it. -/
def jAct (n p : Nat) (l : List Byte) (s : State) : Option State :=
  let kind := leAt l 0 1
  let cls := leAt l 1 1 % 4
  let tenant := leAt l 1 1 / 4
  let len := leAt l 2 2 % 8192
  let tag := leAt l 4 2 % 16384
  let src := leAt l 6 1
  let dst := leAt l 7 1
  let pa := leAt l 8 8 % 2 ^ 41
  let data := (l.drop 16).take len
  let back (kind cls : Nat) (r : Nat × List Byte × State) : Option State :=
    some (jSend n p cls (jPacket kind cls tenant r.2.1.length r.1 tag dst src pa r.2.1) r.2.2)
  if kind = 0xB then (if isBridge p then some (identReceive n (p == 3) (src - 16) s) else some s)
  else match jRoute s n dst (if cls = 0 then 0 else pa) with
  | some (some q) => some (jSend n q cls l s)
  | none => if kind = 8 then back 9 0 (2, [], s) else if kind ≤ 4 then back (if kind = 1 then 5 else if kind = 4 then 7 else 6) 2 (2, [], s)
    else some s
  | some none =>
    if kind = 1 then back 5 2 (jServe tenant pa s (memRead n tenant pa len))
    else if kind = 2 then
      let r := jServe tenant pa s (memWrite n tenant pa data)
      back 6 2 (r.1, [], r.2.2)
    else if kind = 3 then
      let m := (List.range len).map (fun i => bitOf (leNat ((l.drop 16).take ((len + 7) / 8))) i)
      let r := jServe tenant pa s (memWriteM n tenant pa ((l.drop (16 + alignUp ((len + 7) / 8) 8)).take len) m)
      back 6 2 (r.1, [], r.2.2)
    else if kind = 4 then back 7 2 (if pa % 8 = 0 then jServe tenant pa s (jAtomic n tenant pa data) else (3, [], s))
    else if kind = 5 ∨ kind = 6 ∨ kind = 7 then some (transactionResponse n tag (leAt l 2 2 / 8192) 0 0 0 data s)
    else if kind = 8 then none
    else if kind = 0xA then jMsg n tenant dst (leAt l 8 1) data s
    else some s

/-- Takes whole packets off the front of a port's stream into their receive buffers; a packet cut short waits for the rest (R242). -/
def jParse (n p : Nat) : Nat → State → State
  | 0, s => s
  | f + 1, s =>
    let rx := (jPort s n p).rx
    if rx.length < 8 then s
    else if leAt rx 0 1 = 0 then jParse n p f (updJ n p (fun j => { j with rx := j.rx.drop 8 }) s)
    else if rx.length < 16 ∨ rx.length < jPacketLen rx then s
    else
      let l := rx.take (jPacketLen rx)
      jParse n p f (updJ n p (fun j => { j with rx := j.rx.drop l.length, rxq := j.rxq ++ [(leAt l 1 1 % 4, l)] }) s)

/-- A packet leaves its receive buffer: its credits go back (R239). -/
def jTaken (n p : Nat) (q : Nat × List Byte) (s : State) : State :=
  updJ n p (fun j => { j with rxq := j.rxq.erase q, ret := modAt j.ret q.1 (fun c => c + packetCost q.2) }) s

/-- Acts on packets received, in order within each class (R227, R239). -/
def jDrain (n p : Nat) : Nat → State → State
  | 0, s => s
  | f + 1, s =>
    let q := (jPort s n p).rxq
    match (q.filter (fun x => q.find? (fun y => y.1 == x.1) == some x)).findSome? (fun x => (jAct n p x.2 s).map (fun s => (x, s))) with
    | none => s
    | some r => jDrain n p f (jTaken n p r.1 r.2)

/-! ## Receiving (R235, R236) -/

/-- Beats later than an acknowledgement, of those not acknowledged. -/
def unacked (j : JPort) (ack : Nat) : List (List (List Byte)) :=
  let first := (j.seq + 256 - j.retry.length) % 256
  let k := (ack + 1 + 256 - first) % 256
  if k ≤ j.retry.length then j.retry.drop k else j.retry

/-- An in-service retrain (R237): the retry buffer, BSEQ and credits stay. -/
def retrain (n p : Nat) (s : State) : State :=
  if jxlState s n p ≠ 3 then s
  else
    let s := occurs (1 + n) 0 (3 * p + 1) (fset (rJXL_PORT_EVT n p) fJXL_PORT_EVT_RETRAINED 1 (jxlSet n p 4 s))
    let s := if p < 3 then fset (rJXL_CD_STATUS (3 * n + p)) fJXL_CD_STATUS_STATE 4 s else s
    topoNow (updJ n p (fun j => { j with inService := true, att := 0, replays := 0 }) s)

/-- Sends again every beat not acknowledged, counting the replays without progress (R237). -/
def jReplay (n p : Nat) (s : State) : State :=
  let j := jPort s n p
  if jxlState s n p ≠ 3 || j.retry.isEmpty then s
  else
    let s := fcount (rJXL_PORT_ERR n p) fJXL_PORT_ERR_REPLAYS 1 s
    let s := j.retry.foldl (fun s b => emitBeat n p j.map b s) s
    updJ n p (fun j => { j with replays := j.replays + 1 }) s

/-- An acknowledgement retires beats and is progress. -/
def jAck (n p ack : Nat) (s : State) : State :=
  let j := jPort s n p
  let r := unacked j ack
  if r.length = j.retry.length then s else updJ n p (fun j => { j with retry := r, replays := 0 }) s

/-- A NAK that has been accepted (R236). -/
def nakReceive (n p ack : Nat) (s : State) : State := if jxlState s n p = 3 then jReplay n p (jAck n p (ack % 256) s) else s

/-- The credits that flits return are taken (R239). -/
def beatCredits (n p : Nat) (flits : List (List Byte)) (s : State) : State :=
  flits.foldl (fun s l => updJ n p (fun j => { j with
    credits := modAt j.credits (fTrail l 28 2) (fun c => c + fTrail l 30 10) }) s) s

/-- The acknowledgement and the request to send again that flits carry (R235). -/
def beatAcks (n p : Nat) (flits : List (List Byte)) (s : State) : State :=
  let s := match flits.find? (fun l => fTrail l 26 1 == 1) with
    | some l => jAck n p (fTrail l 18 8) s
    | none => s
  match flits.find? (fun l => fTrail l 27 1 == 1) with
  | some l => nakReceive n p (fTrail l 18 8) s
  | none => s

/-- The data of flits joins the stream, whole packets are acted on, what waits is sent, and 16 beats are acknowledged (R235,
R242). -/
def beatData (n p : Nat) (flits : List (List Byte)) (s : State) : State :=
  let data := (flits.filter (fun l => fTrail l 12 4 == 1)).flatMap (fun l => l.take 56)
  let s := updJ n p (fun j => { j with rx := j.rx ++ data }) s
  let s := jParse n p ((jPort s n p).rx.length / 8 + 1) s
  let s := jPump n p (jDrain n p (jPort s n p).rxq.length s)
  if 16 ≤ (jPort s n p).heard then sendBeat n p [] false s else s

/-- A beat arrives (R235): whole and in order it is accepted, else it is discarded and the episode's NAK goes out; a parity error by
itself rejects nothing (R232). A port in far-end loopback sends it back (R263). -/
def beatReceive (n p : Nat) (flits : List (List Byte)) (s : State) : State :=
  let j := jPort s n p
  if jxlState s n p ≠ 3 then s
  else if s.test.loops.contains (8 * n + p) then emitBeat n p j.map flits s
  else
    let s := flits.zipIdx.foldl (fun s f => noteParity n p ((j.map[f.2]?).getD f.2) (parityErrors f.1) s) s
    let bad := (flits.filter (fun l => !flitOk l)).length
    let good := bad == 0 && flits.length == fget s (rJXL_PORT_STATUS n p) fJXL_PORT_STATUS_WIDTH
    if good && flits.all (fun l => fTrail l 0 8 == j.expect) then
      beatData n p flits (beatAcks n p flits (beatCredits n p flits
        (updJ n p (fun j => { j with expect := (j.expect + 1) % 256, naked := false, heard := j.heard + 1 }) s)))
    else if good && flits.all (fun l => decide ((j.expect + 256 - fTrail l 0 8) % 256 ≤ 64)) then s
    else
      let s := fcount (rJXL_PORT_ERR n p) fJXL_PORT_ERR_CRC_ERRS bad s
      if j.naked then s else sendBeat n p [] true (updJ n p (fun j => { j with naked := true }) s)

/-- 16 ns after beats arrived, they are acknowledged; packets that waited in the receive buffers are tried again. -/
def jAckTimer (n p : Nat) (s : State) : State :=
  if jxlState s n p ≠ 3 then s
  else
    let s := jPump n p (jDrain n p (jPort s n p).rxq.length s)
    if (jPort s n p).heard ≠ 0 then sendBeat n p [] false s else s

/-! ## Training (R243 to R248) -/

/-- A port that cannot be brought up, or whose partner's clocks stopped: a compute die or a bridge is fenced, the Col attach, which
never is, is marked down (R237, R246, R247, R254, R257). -/
def jGiveUp (n p cause : Nat) (s : State) : State :=
  if p < 3 then fenceStart (3 * n + p) cause s
  else if isBridge p then topoNow (bridgeFence n p cause s)
  else topoNow (jxlSet n p 7 (jStop n p s))

/-- Whether a base die's end of a port is the authoritative one (R247). -/
def isLead (p : Nat) : Bool := p != 4

/-- A training marker (R244). -/
def mkMarker (role kind ident port att width map reject : Nat) (credits : List Nat) : List Byte :=
  mkFlit (leFields [(2, 0x4A58), (1, role), (1, kind), (1, ident), (1, port), (1, att), (1, width), (20, map), (20, reject)]
    ++ credits.flatMap (leBytes 2)) 2 0 0 0 0 false false

/-- What a receive buffer holds in 64-byte units of each class, as a marker offers it. -/
def ownCredits (inService : Bool) : List Nat := if inService then [0, 0, 0, 0] else [1023, 1023, 1023, 1023]

/-- The identity that a marker of a base die's port names. -/
def markerIdent (s : State) (n p : Nat) : Nat :=
  if p < 3 then (if identified s n then 3 * fget s (rJXL_IDENT n) fJXL_IDENT_ID + p else 0xFF)
  else if identified s n then fget s (rJXL_IDENT n) fJXL_IDENT_ID else 0xFF

/-- PORT of a base die's marker: its logical number, once its identity has given it its numbers (R244, R252). -/
def markerPort (s : State) (n p : Nat) : Nat := if identified s n then p else 0xFF

/-- The bits of a list of groups. -/
def groupBits (l : List Nat) : Nat := l.foldl (fun a g => a ||| 2 ^ g) 0

/-- The authoritative end repairs what it knows failed and advertises the rest (R245, R246). -/
def advertise (n p : Nat) (s : State) : State :=
  let j := jPort s n p
  let want := jWant s n p
  let (groups, spares, lost) := repair p want j.failed
  let w := groups.length
  let st := rJXL_PORT_STATUS n p
  let s := fset st fJXL_PORT_STATUS_SPARES_USED spares (fset st fJXL_PORT_STATUS_LOST (min 15 lost) s)
  if w < jMin p then jGiveUp n p 3 s
  else
    let m := mkMarker 0 1 (markerIdent s n p) (markerPort s n p) j.att w (groupBits groups) 0 (ownCredits j.inService)
    emitBeat n p groups (List.replicate w m) (fset st fJXL_PORT_STATUS_WIDTH w (updJ n p (fun j => { j with map := groups }) s))

/-- Whether both ends of a port hold clock-good: the base die's own block and its partner's have met R401 (R243). -/
def jClocks (s : State) (n p : Nat) : Bool :=
  s.boot.stable.contains (.base n) && (if p < 3 then s.boot.stable.contains (.compute (3 * n + p))
    else if p = 5 then s.boot.up else s.boot.stable.contains (.base (jPartner n p).1))

/-- Whether a port that is marked down may train again: a bridge that an identity conflict took down, once CONFLICT has been cleared
(R250; log entry 809). -/
def conflictOver (s : State) (n p : Nat) : Bool :=
  jxlState s n p == 7 && (jPort s n p).conflict && fget s (rJXL_IDENT n) fJXL_IDENT_CONFLICT == 0

/-- The far end of an attach, a follower, starts training: it keeps nothing but what it finds failed now (R247). Ends 8 to 10 are the
compute dies of ports 0 to 2, end 11 the Col die's of port 5. -/
def farStart (n p : Nat) (failed : List Nat) (s : State) : State :=
  let q := if p = 11 then 5 else p - 8
  updJ n p (fun _ => { ({} : JPort) with own := failed.filter (fun g => decide (g < jBump q + (jBump q + 15) / 16)) }) s

/-- A marker at the far end of an attach: the MAP is adopted or its failed groups are echoed, and a compute die takes its index
(R244, R247, R253). -/
def farMarker (n p : Nat) (m : List Byte) (s : State) : State :=
  let q := if p = 11 then 5 else p - 8
  let d := 3 * n + q
  let st := if p = 11 then jxlState s n 5 else fget s (rJXL_CD_STATUS d) fJXL_CD_STATUS_STATE
  if !jPopulated s n q ∨ (st ≠ 2 ∧ st ≠ 4) ∨ !flitOk m ∨ fTrail m 12 4 ≠ 2 ∨ leAt m 0 2 ≠ 0x4A58 ∨ leAt m 2 1 ≠ 0 ∨ leAt m 3 1 ≠ 1 then s
  else
    let map := leAt m 8 20
    let w := leAt m 7 1
    let rej := groupBits ((jPort s n p).own.filter (bitOf map))
    let credits := (List.range 4).map (fun i => leAt m (0x30 + 2 * i) 2)
    let echo := mkMarker 1 (if p = 11 then 2 else 0) 0xFF 0xFF (leAt m 6 1) w map rej (ownCredits (credits == [0, 0, 0, 0]))
    let s := emitBeat n p (mapOrder q map) (List.replicate w echo) s
    if p = 11 then s
    else
      let r := rJXL_CD_STATUS d
      let s := fset r fJXL_CD_STATUS_ATTEMPT (leAt m 6 1) s
      if rej = 0 then fset r fJXL_CD_STATUS_STATE 3 (fset r fJXL_CD_STATUS_WIDTH w (fset r fJXL_CD_STATUS_INDEX (leAt m 4 1) s)) else s

/-- A port starts training with clock-good at both ends (R243): the groups this end found failed join its record on the
authoritative side. Three attempts that fail fence the port: with cause RETRY_EXHAUSTED in service, else WIDTH (R237, R247). -/
def trainStart (n p : Nat) (failed : List Nat) (s : State) : State :=
  let again := conflictOver s n p
  let st := if again then 1 else jxlState s n p
  if 8 ≤ p then farStart n p failed s
  else if !jPopulated s n p || 5 ≤ st || st == 3 || !jClocks s n p then s
  else
    let s := if again then updJ n p (fun j => { ({} : JPort) with failed := j.failed }) s else s
    let j := jPort s n p
    if 3 ≤ j.att then jGiveUp n p (if j.inService then 2 else 3) s
    else
      let fs := failed.filter (fun g => decide (g < jBump p + (jBump p + 15) / 16))
      let s := updJ n p (fun j => { j with
        att := j.att + 1, own := fs
        failed := if isLead p then j.failed ++ fs.filter (fun g => !j.failed.contains g) else j.failed }) s
      let s := fset (rJXL_PORT_STATUS n p) fJXL_PORT_STATUS_ATTEMPT (j.att + 1) (jxlSet n p (if j.inService then 4 else 2) s)
      let s := if p < 3 then
          fset (rJXL_CD_STATUS (3 * n + p)) fJXL_CD_STATUS_STATE (if j.inService then 4 else 2)
            (fset (rJXL_CD_STATUS (3 * n + p)) fJXL_CD_STATUS_ATTEMPT (j.att + 1) s)
        else s
      let differ := isBridge p && jPlan s n p != jPlan s (jPartner n p).1 (jPartner n p).2
      let s := if differ ∧ fget s (rJXL_PORT_EVT n p) fJXL_PORT_EVT_PLAN_MISMATCH = 0 then
          occurs (1 + n) 0 (3 * p + 2) (fset (rJXL_PORT_EVT n p) fJXL_PORT_EVT_PLAN_MISMATCH 1 s)
        else s
      if isLead p then advertise n p s else s

/-- A port is UP (R243 step 6): credits and BSEQ start afresh, or an in-service retrain replays. -/
def jUp (n p w : Nat) (credits : List Nat) (s : State) : State :=
  let j := jPort s n p
  let s := fset (rJXL_PORT_STATUS n p) fJXL_PORT_STATUS_WIDTH w (jxlSet n p 3 s)
  let s := if p < 3 then
      let r := rJXL_CD_STATUS (3 * n + p)
      fset r fJXL_CD_STATUS_STATE 3 (fset r fJXL_CD_STATUS_WIDTH w (if identified s n then
        fset r fJXL_CD_STATUS_INDEX (3 * fget s (rJXL_IDENT n) fJXL_IDENT_ID + p) s else s))
    else s
  let s := if j.inService then j.retry.foldl (fun s b => emitBeat n p j.map b s)
        (updJ n p (fun j => { j with att := 0, inService := false, naked := false, parity := [] }) s)
    else updJ n p (fun j => { ({} : JPort) with failed := j.failed, credits := credits, sendq := j.sendq, map := j.map }) s
  let s := if p = 5 ∧ fget s (rJXL_IDENT n) fJXL_IDENT_SOURCE ≠ 1 then takeIdentity n 0 1 s else s
  let s := if isBridge p ∧ identified s n ∧ !j.inService then
      let id := fget s (rJXL_IDENT n) fJXL_IDENT_ID
      jSend n p 0 (jPacket 0xB 0 0 0 0 0 (16 + id) (16 + (jPartner n p).1) id []) s
    else s
  linksSettle (jPump n p s)

/-- A training marker arrives (R247). -/
def markerReceive (n p : Nat) (m : List Byte) (s : State) : State :=
  let st := jxlState s n p
  let j := jPort s n p
  let from? := if p < 3 then 0 else if p = 5 then 2 else 1
  if 8 ≤ p then farMarker n p m s
  else if (st ≠ 2 ∧ st ≠ 4) ∨ j.att = 0 ∨ !flitOk m ∨ fTrail m 12 4 ≠ 2 ∨ leAt m 0 2 ≠ 0x4A58 ∨ leAt m 3 1 ≠ from? then s
  else
    let role := leAt m 2 1
    let w := leAt m 7 1
    let map := leAt m 8 20
    let reject := leAt m 0x1C 20
    let credits := (List.range 4).map (fun i => leAt m (0x30 + 2 * i) 2)
    if isLead p then
      if role ≠ 1 then s
      else if reject = 0 then jUp n p w credits s
      else
        let bad := (List.range 160).filter (fun g => bitOf reject g && !j.failed.contains g)
        let s := updJ n p (fun j => { j with failed := j.failed ++ bad }) s
        if 3 ≤ j.att then jGiveUp n p 3 s else s
    else if role ≠ 0 then s
    else
      let rej := groupBits (j.own.filter (bitOf map))
      let echo := mkMarker 1 1 (markerIdent s n p) (markerPort s n p) j.att w map rej (ownCredits j.inService)
      let s := emitBeat n p (mapOrder p map) (List.replicate w echo) (updJ n p (fun j => { j with map := mapOrder p map }) s)
      if rej = 0 then jUp n p w credits s else if 3 ≤ j.att then jGiveUp n p 3 s else s

/-! ## Identity (R249 to R251) -/

/-- 200 µs pass without an identity from the links (R250): the straps give one, or the die stays in reset. -/
def strapTimeout (q : Nat) (s : State) : State :=
  let r := rJXL_IDENT q
  if nRidges s ≤ q ∨ identified s q then s
  else if fget s r fJXL_IDENT_STRAP_OK = 1 then takeIdentity q (fget s r fJXL_IDENT_STRAP_ROT) 4 s
  else
    let s := { s with boot := { s.boot with stable := s.boot.stable.filter (fun b => !unitBlocks (16 + q) b) } }
    occurs (1 + q) 0 20 (fset r fJXL_IDENT_FAILED 1 s)

/-- A base die reports its identity over its Stolon line (R27, R251). -/
def stolonReport (q : Nat) (s : State) : State :=
  if nRidges s ≤ q ∨ !identified s q then s
  else
    let s := topoSet fMGT_TOPOLOGY_STOLON_UP q true s
    if fget s (rJXL_IDENT q) fJXL_IDENT_ID = q then s
    else fenceStart (16 + q) 6 (occurs (1 + q) 0 18 (fset (rJXL_IDENT q) fJXL_IDENT_CONFLICT 1 s))

/-- Whether a cause for a retrain stands (R237): eight replays without progress, the clock of a group lost while the partner holds
clock-good, or over 1,024 parity errors of a group in 1 ms. -/
def retrainCause (s : State) (n p : Nat) : RetrainCause → Bool
  | .replays => decide (8 ≤ (jPort s n p).replays)
  | .clockLost g => decide (g < jBump p + (jBump p + 15) / 16) && jClocks s n p
  | .parity g => decide (1024 < (Mp.get (0, 0) (jPort s n p).parity g).2)

/-- Every forwarded clock of a port stops (R254): a compute die or a bridge is fenced, the Col attach goes down. -/
def clockLoss (n p : Nat) (s : State) : State :=
  let st := jxlState s n p
  if jPopulated s n p ∧ 2 ≤ st ∧ st ≤ 4 then jGiveUp n p 1 s else s

def execNak (n port ack : Nat) (s : State) : Host.Outcome State Fault Refusal := .next (nakReceive n port ack s)
def execJxlReplayTimeout (n port : Nat) (s : State) : Host.Outcome State Fault Refusal := .next (jReplay n port s)
def execJxlRetrain (n port : Nat) (cause : RetrainCause) (s : State) : Host.Outcome State Fault Refusal :=
  .next (if retrainCause s n port cause then retrain n port s else s)
def execJxlTrainStart (n port : Nat) (failed : List Nat) (s : State) : Host.Outcome State Fault Refusal :=
  .next (trainStart n port failed s)
def execJxlMarkerReceive (n port : Nat) (marker : List Byte) (s : State) : Host.Outcome State Fault Refusal :=
  .next (markerReceive n port marker s)
def execIdent (quadrant : Nat) (edgeE : Bool) (m : Nat) (s : State) : Host.Outcome State Fault Refusal :=
  .next (identReceive quadrant edgeE m s)
def execStrapIdentityTimeout (quadrant : Nat) (s : State) : Host.Outcome State Fault Refusal := .next (strapTimeout quadrant s)
def execStolonIdentityReport (quadrant : Nat) (s : State) : Host.Outcome State Fault Refusal := .next (stolonReport quadrant s)
def execJxlClockLoss (n port : Nat) (s : State) : Host.Outcome State Fault Refusal := .next (clockLoss n port s)

end Sys2Proof.Machine
end

