-- ==== Sys2Proof/Machine/Porger.lean ====
section
/-! DEFINITION. UCIe sites, the Porger's lasers, rings and receivers, and the port commands of group 0x05xx
(spec/08_die_links_and_discovery.md R258 to R262; spec/09_porger_optical_engines.md R264 to R293;
spec/10_fabric_link_layer.md R308, R309, R313). -/

namespace Sys2Proof.Machine

/-! ## Sites (R258 to R262) -/

def siteReg (k : Nat) : Nat := rUCI_SITE_STATUS (k / 4) (k % 4)
def siteState (s : State) (k : Nat) : Nat := fget s (siteReg k) fUCI_SITE_STATUS_STATE
def lineReg (k p : Nat) : Nat := rPRG_PORT_STATUS k p
def lineState (s : State) (k p : Nat) : Nat := fget s (lineReg k p) fPRG_PORT_STATUS_STATE
def setLine (k p v : Nat) (s : State) : State := fset (lineReg k p) fPRG_PORT_STATUS_STATE v s
def spareState (s : State) (k : Nat) : Nat := fget s (rPRG_LASER_STATUS k) fPRG_LASER_STATUS_SPARE_STATE
def setSpareState (k v : Nat) (s : State) : State := fset (rPRG_LASER_STATUS k) fPRG_LASER_STATUS_SPARE_STATE v s
def laserEvt (k : Nat) (f : Fld) (s : State) : State := fset (rPRG_LASER_EVT k) f 1 s

/-- The module whose sideband carries the register messages of a site (R260). -/
def sideModule (s : State) (k : Nat) : Nat := if bitOf (porgerOf s k).sbDown 0 then 1 else 0

/-- The sideband of a module is down; a site left with none of those that carry its registers is fenced (R260). -/
def sidebandDown (k m : Nat) (s : State) : State :=
  let s := updPorger k (fun x => { x with sbDown := x.sbDown ||| 2 ^ m }) s
  if (porgerOf s k).sbDown % 4 = 3 then fenceStart (80 + k) 1 (occurs (1 + k / 4) 2 (4 + k % 4) s) else s

/-- The eight ports of a site. -/
def onPorts (f : Nat → State → State) (s : State) : State := (List.range 8).foldl (fun s p => f p s) s

/-- Answers the commands that wait for a Porger. -/
def answerLaser (k status : Nat) (s : State) : State := answerAll 0x509 (fun w => w.keys == [k]) (fun _ => (status, 0, colNow s, [])) s

/-- An engine is refused (R261): its ports are absent. -/
def refuseEngine (k : Nat) (s : State) : State :=
  if nSites s ≤ k ∨ siteState s k = 5 then s
  else
    let s := fset (siteReg k) fUCI_SITE_STATUS_STATE 4 (fset (siteReg k) fUCI_SITE_STATUS_REFUSED 1 s)
    let s := onPorts (fun p s => setPortState (8 * k + p) 0 (setLine k p 0 (portDrop (8 * k + p) s))) s
    answerLaser k rsState (occurs (1 + k / 4) 2 (k % 4) s)

/-- A UCIe module trains (R258, R259), once its site is out of reset: the lane repair of the UCIe specification is done within the
training, whose outcome is the rate, 16 or 8 GT/s, or none. -/
def moduleTrain (k m rate : Nat) (s : State) : State :=
  if nSites s ≤ k ∨ 8 ≤ m ∨ 4 ≤ siteState s k ∨ !s.boot.stable.contains (.porger k) then s
  else
    let s := if siteState s k = 0 then fset (siteReg k) fUCI_SITE_STATUS_STATE 1 s else s
    let s := updPorger k (fun x => { x with sbDown := withField x.sbDown m 1 0 }) s
    fsetBit (siteReg k) fUCI_SITE_STATUS_MOD_UP m (rate == 16 || rate == 8)
      (fsetBit (siteReg k) fUCI_SITE_STATUS_MOD_HALF m (rate == 8) s)

/-- IDENT_Q is answered (R261): the engine code stands in the first byte of the answer. -/
def identAnswer (k : Nat) (answer : List Byte) (late : Bool) (s : State) : State :=
  if nSites s ≤ k ∨ siteState s k ≠ 1 then s
  else
    let s := emit (.sideband k 0 []) s
    let code := leAt answer 0 1
    if late ∨ answer.length ≠ 32 ∨ !(code == 1 || decide (0x80 ≤ code)) then refuseEngine k s
    else fset (siteReg k) fUCI_SITE_STATUS_STATE 2 (fset (siteReg k) fUCI_SITE_STATUS_ENGINE code s)

/-- Whether an answer to PARAM_SET keeps to the permitted values (R262). -/
def paramsPermitted (a : ParamAnswer) : Bool :=
  (a.rate == 16 || a.rate == 8) && decide (a.ports < 256) && decide (1 ≤ a.modes ∧ a.modes ≤ 3) && decide (a.powerW ≤ 25)

/-- PARAM_SET is answered (R261, R262); once it is accepted, optical acquisition begins (R291 step 1). -/
def paramAnswer (k : Nat) (a : ParamAnswer) (s : State) : State :=
  if nSites s ≤ k ∨ siteState s k ≠ 2 then s
  else
    let s := emit (.sideband k 1 []) s
    if a.late ∨ !paramsPermitted a then refuseEngine k s
    else if !a.accepted then s
    else
      let x := porgerOf s k
      let s := fset (siteReg k) fUCI_SITE_STATUS_STATE 3 s
      let s := updPorger k (fun _ => { ({} : Porger) with
        ports := a.ports, ffOn := a.feedfwd, temp := x.temp, sbDown := x.sbDown }) s
      let s := setSpareState k (if s.fuses.lasersB.contains k then 5 else if s.fuses.sparesBad.contains k then 4 else 0)
        (fset (rPRG_LASER_STATUS k) fPRG_LASER_STATUS_ACTIVE (b2n (s.fuses.lasersB.contains k)) s)
      let s := onPorts (fun p s =>
        let r := rPRG_WL_SUB k p
        let s := fset r fPRG_WL_SUB_SUB0_V 0 (fset r fPRG_WL_SUB_SUB1_V 0 s)
        if bitOf a.ports p ∧ fbit s (siteReg k) fUCI_SITE_STATUS_MOD_UP p then setLine k p 2 s else s) s
      let s := raiseRbc s
      if (dieOf s (80 + k)).st = 3 then
        answerAll 0x904 (fun w => w.keys == [80 + k]) (fun _ => (0, 0, stampAt s 64, [])) (setDie (80 + k) {} s)
      else s

/-- STATUS_Q (R261): a pending SWITCH_REQ makes the link layers send only idle blocks (R271). -/
def statusPoll (k temp : Nat) (late : Bool) (s : State) : State :=
  if nSites s ≤ k ∨ siteState s k ≠ 3 then s
  else
    let s := emit (.sideband k 4 []) s
    if late then refuseEngine k s
    else updPorger k (fun x => { x with
      temp := temp, hold := x.hold || fget s (rPRG_LASER_EVT k) fPRG_LASER_EVT_SWITCH_REQ == 1 }) s

/-- A ring's number among the rings of its Porger: 36 to a port, the receive rings after the transmit rings. -/
def ringNo (p x : Nat) (rx : Bool) : Nat := 36 * p + 18 * b2n rx + x

/-- A ring is acquired: T_0 of its feed-forward term is the sensor's present reading (R275). -/
def acquired (k p x : Nat) (rx : Bool) (s : State) : State :=
  updPorger k (fun y => { y with base := (ringNo p x rx, y.sensor) :: y.base.filter (fun b => b.1 != ringNo p x rx) }) s

/-- The feed-forward terms −GAIN × (T_m − T_0) of the rings acquired (R275). -/
def feedForward (s : State) (k : Nat) : List (Nat × Int) :=
  (porgerOf s k).base.map (fun b =>
    (b.1, -((fget s (rPRG_FF_CTRL k) fPRG_FF_CTRL_GAIN : Int) * ((porgerOf s k).lag - b.2))))

/-- T_m, the reading through the first-order lag of time constant TAU: the reading itself without a lag or at rest, and a free
value in between, where no rule gives the filter's steps (R275; log entry 905). -/
def lagged (k : Nat) (temp : Int) (s : State) : Int × State :=
  if fget s (rPRG_FF_CTRL k) fPRG_FF_CTRL_TAU = 0 ∨ (porgerOf s k).lag = temp then (temp, s)
  else (sext 32 (freeVal 44 s % 2 ^ 32), nextFree s)

/-- TEMP_FF (R261, R275): the reading the rings' feed-forward term is driven from. -/
def tempForward (k : Nat) (temp : Int) (s : State) : State :=
  if nSites s ≤ k ∨ siteState s k ≠ 3 then s
  else
    let s := emit (.sideband k 5 []) s
    if (porgerOf s k).ffOn then
      let r := lagged k temp s
      let s := updPorger k (fun x => { x with sensor := temp, lag := r.1 }) r.2
      if fget s (rPRG_FF_CTRL k) fPRG_FF_CTRL_EN = 1 then emit (.heaters k (feedForward s k)) s else s
    else s

/-! ## Blanking (R289, R290) -/

/-- BLANK darkens every transmitter at once. A switch-over whose selector had turned is done: the spare is active. -/
def blankSite (k : Nat) (late : Bool) (s : State) : State :=
  if nSites s ≤ k ∨ siteState s k ≠ 3 then s
  else if late then refuseEngine k s
  else if (porgerOf s k).blanked then s
  else
    let s := if (porgerOf s k).gap then answerLaser k 0 s else s
    let s := updPorger k (fun x => { x with
      blanked := true, go := false, gap := false, hold := false, prev := (List.range 8).map (lineState s k) }) s
    onPorts (fun p s => if lineState s k p = 0 then s else setLine k p 7 s) s

def unblankSite (k : Nat) (s : State) : State :=
  if nSites s ≤ k ∨ !(porgerOf s k).blanked then s
  else
    let x := porgerOf s k
    emit (.sideband k 7 []) (onPorts (fun p s => if lineState s k p = 7 then setLine k p ((x.prev[p]?).getD 1) s else s)
      (updPorger k (fun x => { x with blanked := false, prev := [] }) s))

/-! ## Lasers (R268 to R273) -/

/-- The Porger's ports go down for want of light (R273). -/
def laserLost (k : Nat) (s : State) : State :=
  let s := updPorger k (fun x => { x with abrupt := false, go := false, hold := false }) s
  let s := fset (rPRG_LASER_EVT k) fPRG_LASER_EVT_SWITCH_REQ 0 (laserEvt k fPRG_LASER_EVT_LASER_LOST s)
  let s := occurs (32 + k) 0 5 s
  onPorts (fun p s => if lineState s k p = 0 ∨ lineState s k p = 6 then s else portDrop (8 * k + p) (setLine k p 6 s)) s

/-- The spare is powered (R270). -/
def startSpare (k : Nat) (s : State) : State := if spareState s k = 0 then setSpareState k 1 s else s

/-- A switch-over is asked for through the next STATUS_Q (R271 step 1). -/
def askSwitch (k : Nat) (s : State) : State := fset (rPRG_LASER_EVT k) fPRG_LASER_EVT_SWITCH_REQ 1 s

/-- The fade last computed, in 0.01 dB. -/
def fadeOf (s : State) (k : Nat) : Int := sext 12 (fget s (rPRG_LASER_STATUS k) fPRG_LASER_STATUS_FADE)

/-- Ten monitor samples running more than 6 dB low are an abrupt failure (R273). -/
def laserSample (k : Nat) (level : Int) (s : State) : State :=
  if nSites s ≤ k ∨ siteState s k ≠ 3 then s
  else
    let x := porgerOf s k
    let low := if level < -600 then x.low + 1 else 0
    let s := updPorger k (fun x => { x with samples := (level :: x.samples).take 1024, low := low }) s
    if low ≠ 10 then s
    else
      let s := occurs (32 + k) 0 6 (laserEvt k fPRG_LASER_EVT_ABRUPT s)
      let st := spareState s k
      if st = 3 then updPorger k (fun x => { x with go := true, hold := true }) s
      else if st ≤ 2 then
        startSpare k (onPorts (fun p s => if 3 ≤ lineState s k p ∧ lineState s k p ≤ 5 then setLine k p 1 s else s)
          (updPorger k (fun x => { x with abrupt := true }) s))
      else laserLost k s

/-- The mean of the last samples, rounded towards minus infinity. -/
def meanOf (l : List Int) : Int := l.foldl (· + ·) 0 / (l.length : Int)

/-- Every 102.4 ms the fade is computed and acted on (R269, R272, R273). -/
def fadeNow (k : Nat) (s : State) : State :=
  let x := porgerOf s k
  if nSites s ≤ k ∨ siteState s k ≠ 3 ∨ x.samples = [] then s
  else
    let f := meanOf x.samples
    let s := fset (rPRG_LASER_STATUS k) fPRG_LASER_STATUS_FADE (wrap 12 (max (-2048) (min 2047 f))) s
    let s := if f ≤ -80 ∧ !x.warn then
        occurs (32 + k) 0 0 (laserEvt k fPRG_LASER_EVT_WARN (updPorger k (fun x => { x with warn := true }) s))
      else if -60 < f then updPorger k (fun x => { x with warn := false }) s else s
    let s := if f ≤ -150 then
        (if spareState s k = 0 then occurs (32 + k) 0 1 (laserEvt k fPRG_LASER_EVT_SPARE_START (startSpare k s))
         else if spareState s k = 5 ∧ fget s (rPRG_LASER_EVT k) fPRG_LASER_EVT_NO_SPARE = 0 then
           occurs (32 + k) 0 4 (laserEvt k fPRG_LASER_EVT_NO_SPARE s)
         else s)
      else s
    if f ≤ -250 then
      (if spareState s k = 3 then askSwitch k s
       else if 4 ≤ spareState s k ∧ fget s (rPRG_LASER_EVT k) fPRG_LASER_EVT_LASER_LOST = 0 then laserLost k s else s)
    else s

def spareWarm (k : Nat) (s : State) : State := if spareState s k = 1 then setSpareState k 2 s else s

/-- The spare enters STANDBY (R270); what waited for it goes on. -/
def spareReady (k : Nat) (fade : Int) (s : State) : State :=
  if spareState s k ≠ 2 then s
  else
    let s := fset (rPRG_LASER_STATUS k) fPRG_LASER_STATUS_SPARE_FADE (wrap 12 (max (-2048) (min 2047 fade))) (setSpareState k 3 s)
    if (porgerOf s k).abrupt then updPorger k (fun x => { x with go := true, hold := true }) s
    else if fadeOf s k ≤ -250 ∨ s.waits.any (fun w => w.op == 0x509 && w.keys == [k]) then askSwitch k s
    else s

/-- The fuses of a site record a failed spare, or a switch to LB (R272, R273). -/
def fuseSpareBad (k : Nat) (s : State) : State := { s with fuses := { s.fuses with sparesBad := k :: s.fuses.sparesBad.filter (· != k) } }
def fuseSwitched (k : Nat) (s : State) : State := { s with fuses := { s.fuses with lasersB := k :: s.fuses.lasersB.filter (· != k) } }

/-- The spare does not reach STANDBY in 20 ms (R273). -/
def spareFail (k : Nat) (s : State) : State :=
  if spareState s k = 1 ∨ spareState s k = 2 then
    let s := occurs (32 + k) 0 3 (laserEvt k fPRG_LASER_EVT_SPARE_FAILED (setSpareState k 4 s))
    let x := porgerOf s k
    let s := answerLaser k rsState (fuseSpareBad k s)
    if x.abrupt ∨ fadeOf s k ≤ -250 then laserLost k s else s
  else s

/-- PRG_SWITCH.GO (R271 step 2): ignored unless the spare is in STANDBY. -/
def switchGo (k : Nat) (value : Word32) (s : State) : State :=
  if k < nSites s ∧ value.toNat % 2 = 1 ∧ spareState s k = 3 then updPorger k (fun x => { x with go := true, hold := true }) s else s

/-- Whether a substitution is under way on a port of a Porger (R290). -/
def substPending (s : State) (k : Nat) : Bool := (List.range 8).any (fun p => (portOf s (8 * k + p)).changes.any (fun c => c.sub == 4))

/-- At the block boundary the selector turns to the spare, and the fuses record it (R271 step 3, R272). -/
def switchTurn (k : Nat) (s : State) : State :=
  let x := porgerOf s k
  if !x.go || spareState s k != 3 || x.blanked || substPending s k then s
  else
    let r := rPRG_LASER_STATUS k
    let s := fset r fPRG_LASER_STATUS_ACTIVE (1 - fget s r fPRG_LASER_STATUS_ACTIVE) (setSpareState k 5 (fset r fPRG_LASER_STATUS_SPARE_FADE 0 s))
    let s := updPorger k (fun x => { x with
      go := false, hold := true, gap := true, abrupt := false, samples := [], low := 0, warn := false }) s
    let s := fset (rPRG_LASER_EVT k) fPRG_LASER_EVT_SWITCH_REQ 0 (laserEvt k fPRG_LASER_EVT_SWITCHED (fuseSwitched k s))
    let s := occurs (32 + k) 0 2 s
    onPorts (fun p s => if bitOf x.ports p then traceLink (8 * k + p) 4 s else s) s

/-- The transmitters resume (R271 step 4): what was not acknowledged is replayed; ports that were dark have light again. -/
def switchResume (k gapNs : Nat) (s : State) : State :=
  if !(porgerOf s k).gap then s
  else
    let s := fset (rPRG_LASER_EVT k) fPRG_LASER_EVT_GAP_NS (min 65535 gapNs) (updPorger k (fun x => { x with gap := false, hold := false }) s)
    let s := onPorts (fun p s =>
      let s := if lineState s k p = 1 ∨ lineState s k p = 6 then setLine k p (if (portTenant s (8 * k + p)).isSome then 3 else 4) s else s
      if portState s (8 * k + p) = 3 then (List.range 16).foldl (fun s l => replay (8 * k + p) l (fun _ => true) s) s else s) s
    answerLaser k 0 s

/-! ## Rings, wavelengths and receivers (R274 to R284, R291) -/

/-- A running port of a site: lit, asleep or in TEST. -/
def lineRuns (s : State) (k p : Nat) : Bool := decide (k < nSites s ∧ p < 8) && decide (3 ≤ lineState s k p ∧ lineState s k p ≤ 5)

def lockFld (rx : Bool) : Fld := if rx then fPRG_WL_RING_RX_LOCK else fPRG_WL_RING_TX_LOCK
def heatFld (rx : Bool) : Fld := if rx then fPRG_WL_RING_RX_HEAT else fPRG_WL_RING_TX_HEAT
def prgEvt (k p : Nat) (f : Fld) (s : State) : State := fset (rPRG_PORT_EVT k p) f 1 s

def slip (k p x : Nat) (rx : Bool) (s : State) : State :=
  let r := rPRG_WL_RING k p x
  if lineRuns s k p && decide (x < 18) && fget s r (lockFld rx) == 2 then
    occurs (32 + k) 1 (4 * p + 1) (fcount (rPRG_PORT_EVT k p) fPRG_PORT_EVT_SLIPS 1
      (prgEvt k p fPRG_PORT_EVT_SLIP (fset r (lockFld rx) 1 s)))
  else s

def relock (k p x : Nat) (rx : Bool) (heat : Nat) (s : State) : State :=
  let r := rPRG_WL_RING k p x
  if x < 18 ∧ fget s r (lockFld rx) = 1 ∧ !(porgerOf s k).gap then fset r (heatFld rx) heat (fset r (lockFld rx) 2 s) else s

/-- A ring that does not relock in 1 ms has its wavelength substituted (R276, R278). -/
def ringFailed (k p x : Nat) (rx : Bool) (s : State) : State :=
  let r := rPRG_WL_RING k p x
  if x < 18 ∧ fget s r (lockFld rx) = 1 ∧ !(porgerOf s k).gap then
    let s := occurs (32 + k) 1 (4 * p + 2) (prgEvt k p fPRG_PORT_EVT_RING_FAIL (fset r (lockFld rx) 3 s))
    (startSubst (8 * k + p) x s).getD s
  else s

/-- A spare wavelength in use as a spare shows too many errors (R277). -/
def wlBad (k p ws : Nat) (s : State) : State :=
  if lineRuns s k p && decide (ws < 2) && (spareStream s (8 * k + p) (16 + ws)).isNone then
    occurs (32 + k) 0 8 (prgEvt k p fPRG_PORT_EVT_SPARE_WL_BAD
      (fset (rPRG_WL_SUB k p) (if ws = 0 then fPRG_WL_SUB_WS0_BAD else fPRG_WL_SUB_WS1_BAD) 1 s))
  else s

def losBits (s : State) (k p : Nat) : Nat := Mp.get 0 (porgerOf s k).los p

/-- A receive line loses its light (R282). -/
def losStart (k p x : Nat) (s : State) : State :=
  if lineRuns s k p && decide (x < 18) && !bitOf (losBits s k p) x then
    occurs (32 + k) 1 (4 * p) (prgEvt k p fPRG_PORT_EVT_LOS (fset (rPRG_WL_MON k p x) fPRG_WL_MON_RX_PWR 0x8000
      (updPorger k (fun y => { y with los := Mp.put 0 y.los p (losBits s k p ||| 2 ^ x) }) s)))
  else s

/-- Light returns (R282); after more than 1 ms the ring has reacquired, at a heater code no rule states. -/
def losEnd (k p x darkNs : Nat) (s : State) : State :=
  if k < nSites s ∧ p < 8 ∧ bitOf (losBits s k p) x then
    let s := updPorger k (fun y => { y with los := Mp.put 0 y.los p (withField (losBits s k p) x 1 0) }) s
    let s := nextFree (fset (rPRG_WL_MON k p x) fPRG_WL_MON_RX_PWR (freeVal 41 s) s)
    if darkNs ≤ 1000000 then s
    else nextFree (acquired k p x true
      (fset (rPRG_WL_RING k p x) fPRG_WL_RING_RX_HEAT (freeVal 42 s) (fset (rPRG_WL_RING k p x) fPRG_WL_RING_RX_LOCK 2 s)))
  else s

/-- 1 ms of lost light on one active wavelength while the others have theirs (R278, R309). -/
def los1ms (k p x : Nat) (s : State) : State :=
  let pt := 8 * k + p
  let act := (portOf s pt).active
  let los := losBits s k p
  if lineRuns s k p && decide (x < 16) && portState s pt == 3 && bitOf act x && bitOf los x
      && (List.range 16).all (fun y => y == x || !bitOf act y || !bitOf los y) then
    (match startSubst pt x s with
    | some s => s
    | none => portDrop pt s)
  else s

def freeze (k p x : Nat) (s : State) : State :=
  if lineRuns s k p && decide (x < 18) then fset (rPRG_WL_RING k p x) fPRG_WL_RING_FROZEN 1 s else s

def eyePass (k p x : Nat) (margins : Word32) (s : State) : State :=
  if lineRuns s k p && decide (x < 18) && !bitOf (losBits s k p) x then
    regPut (rPRG_EYE k p x) (BitVec.ofNat 64 margins.toNat) s
  else s

/-- The active laser locks to the grid (R291 step 2): its fade is computed and its lines are on the buses, at powers no rule states. -/
def acquireLaser (k : Nat) (fade : Int) (s : State) : State :=
  if k < nSites s ∧ siteState s k = 3 then
    let s := fset (rPRG_LASER_STATUS k) fPRG_LASER_STATUS_FADE (wrap 12 (max (-2048) (min 2047 fade))) s
    onPorts (fun p s => if lineState s k p = 2 then nextFree (fset (rPRG_BUS_MON k p) fPRG_BUS_MON_BUS_PWR (freeVal 43 s) s) else s) s
  else s

/-- The transmit rings of the acquiring ports are locked (R291 step 3). -/
def acquireRings (k : Nat) (s : State) : State :=
  onPorts (fun p s => if k < nSites s ∧ lineState s k p = 2 then
    (List.range 18).foldl (fun s x =>
      let r := rPRG_WL_RING k p x
      let s := nextFree (acquired k p x false (fset r fPRG_WL_RING_TX_HEAT (freeVal 42 s) (fset r fPRG_WL_RING_TX_LOCK 2 s)))
      nextFree (fset (rPRG_WL_MON k p x) fPRG_WL_MON_TX_PWR (freeVal 41 s) s)) s
    else s) s

/-! ## Where a loss lies (R280, R281) -/

/-- What a loss is measured from: the readings at a port's last acquisition, FADE, BUS_PWR, and TX_PWR and RX_PWR of each
wavelength index. -/
def readings (s : State) (k p : Nat) : List Nat :=
  fget s (rPRG_LASER_STATUS k) fPRG_LASER_STATUS_FADE :: fget s (rPRG_BUS_MON k p) fPRG_BUS_MON_BUS_PWR ::
    (List.range 18).flatMap (fun x => [fget s (rPRG_WL_MON k p x) fPRG_WL_MON_TX_PWR, fget s (rPRG_WL_MON k p x) fPRG_WL_MON_RX_PWR])
def keepRefs (k p : Nat) (s : State) : State :=
  let ps := (readings s k p).zipIdx.map (fun r => (64 * p + r.2, r.1))
  updPorger k (fun y => { y with refs := ps ++ y.refs.filter (fun r => r.1 / 64 != p) }) s

/-- Whether reading `i` of a port is low: 1.0 dB or more below the value recorded, in 0.01 dB; FADE is reading 0, of 12 bits. -/
def lowNow (s : State) (k p i : Nat) : Bool :=
  let w := if i = 0 then 12 else 16
  match (readings s k p)[i]? with
  | none => false
  | some v => decide (sext w v ≤ sext w (Mp.get 0 (porgerOf s k).refs (64 * p + i)) - 100)

/-- The loss of a channel in 0.01 dB: the launch power the partner reports less the power received. -/
def channelLoss (s : State) (k p x : Nat) : Int :=
  sext 16 (Mp.get 0 (portOf s (8 * k + p)).partnerPwr x) - sext 16 (fget s (rPRG_WL_MON k p x) fPRG_WL_MON_RX_PWR)

/-- Where the loss of wavelength index `x` of a port lies, with what the partner's receivers say of it: low on every line, low on
this one only, or neither but with errors. -/
def lossPlace (s : State) (k p x : Nat) (rxAll rxOne errors : Bool) : Option LossPlace :=
  let bus := (List.range 8).map (fun q => lowNow s k q 1)
  let tx := (List.range 18).map (fun y => lowNow s k p (2 + 2 * y))
  if lowNow s k p 0 then (if bus.all id && tx.all id && rxAll then some .laser else none)
  else if lowNow s k p 1 then (if bus.countP id = 1 ∧ tx.all id ∧ rxAll then some .splitter else none)
  else if lowNow s k p (2 + 2 * x) then (if tx.countP id = 1 ∧ rxOne then some .ring else none)
  else if rxAll then some .fibre else if rxOne then some .partnerRing else if errors then some .receiver else none

/-- A port's receivers have adapted (R291 step 4): it is LIT, or asleep if unbound, and its link trains. -/
def adapted (k p : Nat) (s : State) : State :=
  if k < nSites s ∧ p < 8 ∧ lineState s k p = 2 ∧ fget s (rPRG_WL_RING k p 0) fPRG_WL_RING_TX_LOCK = 2 then
    let s := (List.range 18).foldl (fun s x =>
      let r := rPRG_WL_RING k p x
      let s := nextFree (acquired k p x true (fset r fPRG_WL_RING_RX_HEAT (freeVal 42 s) (fset r fPRG_WL_RING_RX_LOCK 2 s)))
      nextFree (fset (rPRG_WL_MON k p x) fPRG_WL_MON_RX_PWR (freeVal 41 s) s)) s
    let s := keepRefs k p s
    let s := setLine k p (if (portTenant s (8 * k + p)).isSome then 3 else 4) (updPorger k (fun y => { y with los := Mp.del y.los p }) s)
    if portState s (8 * k + p) ≤ 1 ∧ !isSafe s then portTrain (8 * k + p) s else s
  else s

/-- PRG_PAT_CTRL.INJ_ONE (R293): one error goes into the pattern of a port in TEST; the partner's checker counts it. -/
def injectOne (k p : Nat) (value : Word32) (s : State) : State :=
  if k < nSites s ∧ p < 8 then
    let r := rPRG_PAT_CTRL k p
    let s := regPut r (BitVec.ofNat 64 (withField value.toNat 23 1 0 / 2 ^ 18 * 2 ^ 18)) s
    if bitOf value.toNat 23 ∧ lineState s k p = 5 ∧ fget s r fPRG_PAT_CTRL_GEN_EN = 1 then
      emit (.fabric (8 * k + p) 17 (leBytes 1 (fget s r fPRG_PAT_CTRL_INJ_WL))) s
    else s
  else s

/-- A write to PRG_PAM4_LVL_p (R286): ignored unless the four codes rise strictly; P0 to P5 read as zero. -/
def pam4Write (k p : Nat) (value : Word32) (s : State) : State :=
  let v := value.toNat
  if k < nSites s ∧ (p = 6 ∨ p = 7) ∧ fieldOf v 0 6 < fieldOf v 8 6 ∧ fieldOf v 8 6 < fieldOf v 16 6 ∧ fieldOf v 16 6 < fieldOf v 24 6 then
    regPut (rPRG_PAM4_LVL k p) (BitVec.ofNat 64 (fieldOf v 0 6 + fieldOf v 8 6 * 2 ^ 8 + fieldOf v 16 6 * 2 ^ 16 + fieldOf v 24 6 * 2 ^ 24)) s
  else s

/-! ## Port commands of group 0x05xx (R366) -/

/-- The fault of a port parameter. -/
def badPort (s : State) (ps : List Byte) : Nat × Bool := (0, decide (nPorts s ≤ leAt ps 0 1))

/-- A command on a port whose base die is fenced is answered PATH_LOST. -/
def onPort (p : Nat) (s : State) (a : State → Ans) : Ans :=
  if !dieOk s (16 + pN p) then .no rsPathLost (16 + pN p) s
  else if !dieOk s (80 + pK p) then .no rsPathLost (80 + pK p) s else a s

/-- The parameter fields of opcode 0x504, which of them are out of range, and its effect (R366). -/
def vcWeightFields : List (Nat × Nat) := [(0, 1), (1, 7)]
def vcWeightBad (s : State) : List Byte → Nat → List (Nat × Bool) := fun ps _ => badPort s ps :: (List.range 7).map (fun i => (1, leAt ps (1 + i) 1 == 0))
def vcWeightBody : List Byte → Nat → State → Ans := fun ps _ s => onPort (leAt ps 0 1) s fun s =>
      .ok 0 [] (updPort (leAt ps 0 1) (fun x => { x with weights := (List.range 7).map (fun i => leAt ps (1 + i) 1), turns := [] }) s)
def vcWeight (h : Cmd) (s : State) : State :=
  runCmd h 0x504 true vcWeightFields (vcWeightBad s) vcWeightBody s

/-- The parameter fields of opcode 0x505, which of them are out of range, and its effect (R366). -/
def portDownFields : List (Nat × Nat) := [(0, 1)]
def portDownBad (s : State) : List Byte → Nat → List (Nat × Bool) := fun ps _ => [badPort s ps]
def portDownBody : List Byte → Nat → State → Ans := fun ps _ s => onPort (leAt ps 0 1) s fun s =>
    .ok 0 [] (portDrop (leAt ps 0 1) s)
def portDownCmd (h : Cmd) (s : State) : State :=
  runCmd h 0x505 true portDownFields (portDownBad s) portDownBody s

/-- A request that waits on a flushed port is completed as PATH_LOST (R313 step 1). -/
def flushTag (n : Nat) (e : TagEnt) (s : State) : State :=
  let s := freeTag n e.tag s
  if e.abandoned then s
  else match e.use with
    | .chunk r => xferFail r e.pa { (if e.write then accWrite else accRead) with remote := true } (.lost (16 + n) e.pa) s
    | .request _ => s
    | .coll h t _ _ _ => match taskOf s h t with
      | none => s
      | some k =>
        let q := nextFseq s
        let f : FaultInfo := {
          kind := 0x12, t := stampAt s (16 + k.unit), source := 4, tenant := e.tenant, unit := 16 + n, handle := h, task := t
          origin := k.target }
        collEnd h t stPathLost 0x12 q (faultRec f s)

/-- PORT_FLUSH (R313). -/
def flushPort (p : Nat) (s : State) : State :=
  let mine := s.tags.flatMap (fun q => (q.2.filter (fun e => e.port == some p)).map (fun e => (q.1, e)))
  let remotes := s.waits.filter (fun w => w.op == 0x50C && mine.any (fun q => w.keys == [q.2.tag, q.2.reqId] && q.1 == 0))
  let s := mine.foldl (fun s q => flushTag q.1 q.2 s) s
  let s := remotes.foldl (fun s w => answerWait w rsPathLost (16 + pN p) (colNow s) [] s) s
  let held := (portOf s p).lanes.flatMap (fun l => (l.2.wait ++ l.2.replay).map (fun k => k))
  let n := (held.filter (fun k => isResponse k.kind || k.src != moduleId s)).length
  let s := if n = 0 then s else pathLostRec (pN p) 0 n s
  portTrain p (newSession p s)

/-- The parameter fields of opcode 0x506, which of them are out of range, and its effect (R366). -/
def portFlushFields : List (Nat × Nat) := [(0, 1)]
def portFlushBad (s : State) : List Byte → Nat → List (Nat × Bool) := fun ps _ => [badPort s ps]
def portFlushBody : List Byte → Nat → State → Ans := fun ps _ s => onPort (leAt ps 0 1) s fun s =>
    .ok 0 [] (flushPort (leAt ps 0 1) s)
def portFlushCmd (h : Cmd) (s : State) : State :=
  runCmd h 0x506 true portFlushFields (portFlushBad s) portFlushBody s

/-- The parameter fields of opcode 0x507, which of them are out of range, and its effect (R366). -/
def portModeFields : List (Nat × Nat) := [(0, 1), (1, 1)]
def portModeBad (s : State) : List Byte → Nat → List (Nat × Bool) := fun ps _ => [badPort s ps, (0, decide (leAt ps 0 1 % 8 < 6)), (1, decide (1 < leAt ps 1 1))]
def portModeBody : List Byte → Nat → State → Ans := fun ps _ s => onPort (leAt ps 0 1) s fun s =>
      let p := leAt ps 0 1
      let s' := fset (lineReg (pK p) (pP p)) fPRG_PORT_STATUS_PAM4 (leAt ps 1 1) (fset (rFLK_PORT_STATUS (pN p) (pQ p)) fFLK_PORT_STATUS_PAM4 (leAt ps 1 1) s)
      .ok 0 [] (if ownPam4 s p = (leAt ps 1 1 == 1) then s else if portState s p = 3 ∨ portState s p = 2 then portTrain p s' else s')
/-- PORT_MODE (R285): the link layer retrains the port across the change. -/
def portModeCmd (h : Cmd) (s : State) : State :=
  runCmd h 0x507 true portModeFields (portModeBad s) portModeBody s

/-- The parameter fields of opcode 0x508, which of them are out of range, and its effect (R366). -/
def portTestFields : List (Nat × Nat) := [(0, 1), (1, 1)]
def portTestBad (s : State) : List Byte → Nat → List (Nat × Bool) := fun ps _ => [badPort s ps, (1, decide (1 < leAt ps 1 1))]
def portTestBody : List Byte → Nat → State → Ans := fun ps _ s => onPort (leAt ps 0 1) s fun s =>
      let p := leAt ps 0 1
      let enter := leAt ps 1 1
      let ok := if enter = 1 then portState s p = 3 ∧ (portTenant s p = none ∨ portTenant s p = some 0) else portState s p = 5
      if !decide ok then .no rsState (portState s p) s
      else .ok 0 [] (sendLink p 7 [(1, enter)] (updPort p (fun x => { x with asked := x.asked ++ [⟨7, enter, 0, 0⟩] }) s))
/-- PORT_TEST (R292, R319): asks the partner for the exchange. -/
def portTestCmd (h : Cmd) (s : State) : State :=
  runCmd h 0x508 true portTestFields (portTestBad s) portTestBody s

/-- The parameter fields of opcode 0x509, which of them are out of range, and its effect (R366). -/
def laserSwitchFields : List (Nat × Nat) := [(0, 1)]
def laserSwitchBad (s : State) : List Byte → Nat → List (Nat × Bool) := fun ps _ => [(0, decide (nSites s ≤ leAt ps 0 1))]
def laserSwitchBody : List Byte → Nat → State → Ans := fun ps _ s =>
    let k := leAt ps 0 1
    if !dieOk s (16 + k / 4) then .no rsPathLost (16 + k / 4) s
    else if !dieOk s (80 + k) then .no rsPathLost (80 + k) s
    else if siteState s k ≠ 3 ∨ 4 ≤ spareState s k then .no rsState (spareState s k) s
    else .wait [k] 0 0 0 0 (if spareState s k = 3 then askSwitch k s else startSpare k s)
/-- LASER_SWITCH (R271): the spare is first brought up if it is cold. -/
def laserSwitchCmd (h : Cmd) (s : State) : State :=
  runCmd h 0x509 true laserSwitchFields (laserSwitchBad s) laserSwitchBody s

/-- The parameter fields of opcode 0x50A, which of them are out of range, and its effect (R366). -/
def wlSubstFields : List (Nat × Nat) := [(0, 1), (1, 1), (2, 1)]
def wlSubstBad (s : State) : List Byte → Nat → List (Nat × Bool) := fun ps _ =>
    [badPort s ps, (1, decide (15 < leAt ps 1 1)), (2, leAt ps 2 1 != 16 && leAt ps 2 1 != 17)]
def wlSubstBody : List Byte → Nat → State → Ans := fun ps _ s => onPort (leAt ps 0 1) s fun s =>
      let p := leAt ps 0 1
      if !spareFree s p (leAt ps 2 1) || (streamSpare s p (leAt ps 1 1)).isSome then .no rsState 0 s
      else .ok 0 [] (askChange p 4 (leAt ps 1 1) (leAt ps 2 1) s)
def wlSubstCmd (h : Cmd) (s : State) : State :=
  runCmd h 0x50A true wlSubstFields (wlSubstBad s) wlSubstBody s

/-- The parameter fields of opcode 0x50B, which of them are out of range, and its effect (R366). -/
def wlRestoreFields : List (Nat × Nat) := [(0, 1), (1, 1)]
def wlRestoreBad (s : State) : List Byte → Nat → List (Nat × Bool) := fun ps _ => [badPort s ps, (1, decide (15 < leAt ps 1 1))]
def wlRestoreBody : List Byte → Nat → State → Ans := fun ps _ s => onPort (leAt ps 0 1) s fun s =>
      let p := leAt ps 0 1
      .ok 0 [] (if (streamSpare s p (leAt ps 1 1)).isSome then askChange p 4 (leAt ps 1 1) 0xFF s else s)
def wlRestoreCmd (h : Cmd) (s : State) : State :=
  runCmd h 0x50B true wlRestoreFields (wlRestoreBad s) wlRestoreBody s

/-- Rows that name a site by its base die and its place there. -/
def siteNo (n k : Nat) : Nat := 4 * n + k

def execUcieModuleTrain (n k m rate : Nat) (s : State) : Host.Outcome State Fault Refusal :=
  .next (if k < 4 then moduleTrain (siteNo n k) m rate s else s)
def execIdentQ (n k : Nat) (answer : List Byte) (late : Bool) (s : State) : Host.Outcome State Fault Refusal :=
  .next (if k < 4 then identAnswer (siteNo n k) answer late s else s)
def execParamSet (n k : Nat) (a : ParamAnswer) (s : State) : Host.Outcome State Fault Refusal :=
  .next (if k < 4 then paramAnswer (siteNo n k) a s else s)
def execEngineRefused (n k : Nat) (s : State) : Host.Outcome State Fault Refusal :=
  .next (if k < 4 then refuseEngine (siteNo n k) s else s)
def execSidebandLost (n : Nat) (k : SiteModule) (s : State) : Host.Outcome State Fault Refusal :=
  .next (if k.site < 4 ∧ n < nRidges s ∧ k.module < 8 then sidebandDown (siteNo n k.site) k.module s else s)
def execStatusQ (k temp : Nat) (late : Bool) (s : State) : Host.Outcome State Fault Refusal := .next (statusPoll k temp late s)
def execTempFf (k : Nat) (temp : Int) (s : State) : Host.Outcome State Fault Refusal := .next (tempForward k temp s)
def execBlank (k : Nat) (late : Bool) (s : State) : Host.Outcome State Fault Refusal := .next (blankSite k late s)
def execUnblank (k : Nat) (s : State) : Host.Outcome State Fault Refusal := .next (unblankSite k s)
def execLaserMonitorSample (k : Nat) (level : Int) (s : State) : Host.Outcome State Fault Refusal := .next (laserSample k level s)
def execFadeUpdate (k : Nat) (s : State) : Host.Outcome State Fault Refusal := .next (fadeNow k s)
def execSpareWarmDone (k : Nat) (s : State) : Host.Outcome State Fault Refusal := .next (spareWarm k s)
def execSpareStandby (k : Nat) (fade : Int) (s : State) : Host.Outcome State Fault Refusal := .next (spareReady k fade s)
def execSpareFailed (k : Nat) (s : State) : Host.Outcome State Fault Refusal := .next (spareFail k s)
def execPrgSwitch (k : Nat) (value : Word32) (s : State) : Host.Outcome State Fault Refusal := .next (switchGo k value s)
def execLaserSwitchover (k : Nat) (s : State) : Host.Outcome State Fault Refusal := .next (switchTurn k s)
def execSwitchoverResume (k gapNs : Nat) (s : State) : Host.Outcome State Fault Refusal := .next (switchResume k gapNs s)
def execRingSlip (k port x : Nat) (rx : Bool) (s : State) : Host.Outcome State Fault Refusal := .next (slip k port x rx s)
def execRingRelock (k port x : Nat) (rx : Bool) (heat : Nat) (s : State) : Host.Outcome State Fault Refusal :=
  .next (relock k port x rx heat s)
def execRingFail (k port x : Nat) (rx : Bool) (s : State) : Host.Outcome State Fault Refusal := .next (ringFailed k port x rx s)
def execSpareWlBad (k port ws : Nat) (s : State) : Host.Outcome State Fault Refusal := .next (wlBad k port ws s)
def execLossOfSignal (k port x : Nat) (s : State) : Host.Outcome State Fault Refusal := .next (losStart k port x s)
def execSignalReturn (k port x darkNs : Nat) (s : State) : Host.Outcome State Fault Refusal := .next (losEnd k port x darkNs s)
def execLossOfSignal1Ms (k port x : Nat) (s : State) : Host.Outcome State Fault Refusal := .next (los1ms k port x s)
def execAdaptationFreeze (k port x : Nat) (s : State) : Host.Outcome State Fault Refusal := .next (freeze k port x s)
def execEyeScanPass (k port x : Nat) (margins : Word32) (s : State) : Host.Outcome State Fault Refusal :=
  .next (eyePass k port x margins s)
def execSiteAcquireLaserLocked (k : Nat) (fade : Int) (s : State) : Host.Outcome State Fault Refusal := .next (acquireLaser k fade s)
def execSiteAcquireRings (k : Nat) (s : State) : Host.Outcome State Fault Refusal := .next (acquireRings k s)
def execReceiversAdapted (k port : Nat) (s : State) : Host.Outcome State Fault Refusal := .next (adapted k port s)
def execInjOne (k port : Nat) (value : Word32) (s : State) : Host.Outcome State Fault Refusal := .next (injectOne k port value s)
def execPam4LevelWrite (k port : Nat) (value : Word32) (s : State) : Host.Outcome State Fault Refusal := .next (pam4Write k port value s)
def execVcWeight (h : Cmd) (s : State) : Host.Outcome State Fault Refusal := .next (vcWeight h s)
def execPortDown (h : Cmd) (s : State) : Host.Outcome State Fault Refusal := .next (portDownCmd h s)
def execPortFlush (h : Cmd) (s : State) : Host.Outcome State Fault Refusal := .next (flushWaits (portFlushCmd h s))
def execPortMode (h : Cmd) (s : State) : Host.Outcome State Fault Refusal := .next (portModeCmd h s)
def execPortTest (h : Cmd) (s : State) : Host.Outcome State Fault Refusal := .next (portTestCmd h s)
def execLaserSwitch (h : Cmd) (s : State) : Host.Outcome State Fault Refusal := .next (laserSwitchCmd h s)
def execWlSubst (h : Cmd) (s : State) : Host.Outcome State Fault Refusal := .next (wlSubstCmd h s)
def execWlRestore (h : Cmd) (s : State) : Host.Outcome State Fault Refusal := .next (wlRestoreCmd h s)

end Sys2Proof.Machine
end

