-- ==== Sys2Proof/Machine/Power.lean ====
section
/-! DEFINITION. Power, clocks and temperature: the input monitor, the slow signal, the power cap, core clocks, throttles,
trips, thermal modes, profiles and overrides, telemetry (spec/13_power_clocks_thermal.md R370 to R392). -/

namespace Sys2Proof.Machine

def updPwr (f : Pwr → Pwr) (s : State) : State := { s with pwr := f s.pwr }

/-- A POWER trace record (R337): 0 profile change, 1 sag start, 2 sag end, 3 throttle start, 4 throttle end. -/
def tracePower (code : Nat) (s : State) : State :=
  trace 0 64 5 0xFF (stampAt s 64) (leFields [(1, code), (1, fget s rPWR_PROFILE fPWR_PROFILE_PROFILE)]) s

/-! ## Core clocks (R370, R376) -/

/-- The limit on every core clock of a compute die, in units of 50 MHz (R370 step 1). -/
def dieLimit (s : State) (d : Nat) : Nat :=
  min (min (fget s rPWR_PROFILE fPWR_PROFILE_CLK_CEIL) (fget s (rTHM_CD_STATUS d) fTHM_CD_STATUS_POWER_LIMIT))
    (min (fget s (rTHM_CD_STATUS d) fTHM_CD_STATUS_THERMAL_CEIL) (fget s (rTHM_CD_STATUS d) fTHM_CD_STATUS_LOCAL_CEIL))

/-- The step of VDD_CORE for a frequency in units of 50 MHz (R376). -/
def vcoreFor (f : Nat) : Nat := if f ≤ 24 then 0 else if f ≤ 32 then 1 else 2

/-- Sets the clock of a core whose PLL runs. -/
def coreClock (d c : Nat) (s : State) : State :=
  let r := rCLK_CORE_FREQ d c
  if fget s r fCLK_CORE_FREQ_ON = 1 then
    fset r fCLK_CORE_FREQ_HALVED (fget s rPWR_STATUS fPWR_STATUS_SLOW) (fset r fCLK_CORE_FREQ_MHZ (50 * dieLimit s d) s)
  else s

/-- Brings the clocks and voltage of a compute die to what R370 and R376 give. -/
def dieClocks (d : Nat) (s : State) : State :=
  fset (rTHM_CD_STATUS d) fTHM_CD_STATUS_VCORE (vcoreFor (dieLimit s d)) ((List.range 16).foldl (fun s c => coreClock d c s) s)

def allClocks (s : State) : State := (List.range (nDies s)).foldl (fun s d => dieClocks d s) s

/-! ## Input monitor and slow signal (R371, R372, R380, R381) -/

/-- An episode of sag (0) or overcurrent (1) begins (R381). -/
def slowStart (cause extreme : Nat) (s : State) : State :=
  let s := regPut rPWR_SAG_START (BitVec.ofNat 64 (stampAt s 64)) (regPut rPWR_SAG_END 0#64 s)
  let s := fset rPWR_SAG_INFO fPWR_SAG_INFO_EXTREME extreme (fset rPWR_SAG_INFO fPWR_SAG_INFO_CAUSE cause s)
  let s := fset rPWR_STATUS (if cause = 0 then fPWR_STATUS_SAG_SEEN else fPWR_STATUS_OC_SEEN) 1
    (fset rPWR_STATUS fPWR_STATUS_SLOW 1 (fcount rPWR_STATUS fPWR_STATUS_SAG_COUNT 1 s))
  allClocks (tracePower 1 (occurs 0 0 cause s))

/-- An episode ends; its end is stamped if it is the last one begun. -/
def slowEnd (cause : Nat) (s : State) : State :=
  let s := if fget s rPWR_SAG_INFO fPWR_SAG_INFO_CAUSE = cause then regPut rPWR_SAG_END (BitVec.ofNat 64 (stampAt s 64)) s else s
  tracePower 2 s

/-- A sample of the input monitor (R371). -/
def inputSample (mv ma : Nat) (s : State) : State :=
  let was := s.pwr.vin
  let s := updPwr (fun p => { p with vin := mv, iin := ma, energy := p.energy + mv * ma }) s
  let s := if 48500 < mv ∧ was ≤ 48500 then occurs 0 0 2 (fset rPWR_STATUS fPWR_STATUS_OVERVOLT 1 s) else s
  let s := if mv < 38000 ∧ !s.pwr.sag then slowStart 0 (mv / 10) (updPwr (fun p => { p with sag := true }) s) else s
  let ext := fget s rPWR_SAG_INFO fPWR_SAG_INFO_EXTREME
  if s.pwr.sag ∧ fget s rPWR_SAG_INFO fPWR_SAG_INFO_CAUSE = 0 then
    fset rPWR_SAG_INFO fPWR_SAG_INFO_EXTREME (min ext (mv / 10)) s
  else if s.pwr.overI ∧ fget s rPWR_SAG_INFO fPWR_SAG_INFO_CAUSE = 1 then
    fset rPWR_SAG_INFO fPWR_SAG_INFO_EXTREME (min 65535 (max ext (ma / 10))) s
  else s

/-- The input current has stayed above I_OCS for 20 µs (R380). -/
def overcurrentStart (s : State) : State :=
  if s.pwr.overI then s
  else slowStart 1 (min 65535 (s.pwr.iin / 10)) (updPwr (fun p => { p with overI := true }) s)

/-- t_REL has passed: a condition that has gone ends, and with neither left the slow signal is withdrawn (R380). -/
def slowWithdraw (s : State) : State :=
  let s := if s.pwr.sag ∧ 39000 < s.pwr.vin then slowEnd 0 (updPwr (fun p => { p with sag := false }) s) else s
  let s := if s.pwr.overI ∧ s.pwr.iin < (if s.fuses.a12 then 135000 else 68000) then
      slowEnd 1 (updPwr (fun p => { p with overI := false }) s)
    else s
  if !s.pwr.sag ∧ !s.pwr.overI ∧ fget s rPWR_STATUS fPWR_STATUS_SLOW = 1 then allClocks (fset rPWR_STATUS fPWR_STATUS_SLOW 0 s) else s

/-! ## Power cap (R372, R382) -/

/-- The cap of a profile in W (R30). -/
def profileCap (a12 : Bool) (p : Nat) : Nat :=
  if p = 0 then (if a12 then 5400 else 2720) else if p = 1 then (if a12 then 4300 else 2180) else (if a12 then 3200 else 1640)

/-- The cap in force: the profile's or its override, and no more than the working phases carry (R372). -/
def capNow (s : State) : Nat :=
  min (if fget s rPWR_PROFILE fPWR_PROFILE_OVR_CAP = 1 then s.pwr.capOvr
       else profileCap s.fuses.a12 (fget s rPWR_PROFILE fPWR_PROFILE_PROFILE))
    (455 * fget s rPWR_STATUS fPWR_STATUS_PHASES)

/-- The compute dies that have a bound core. -/
def boundDies (s : State) : List Nat :=
  (List.range (nDies s)).filter (fun d => (List.range 16).any (fun c => 2 ≤ coreState s (16 * d + c)))

/-- A step of the power manager (R382). -/
def capStep (meanMw : Nat) (s : State) : State :=
  let s := fset rPWR_PROFILE fPWR_PROFILE_CAP_W (capNow s) (updPwr (fun p => { p with mean := meanMw }) s)
  let cap := 1000 * capNow s
  let ds := boundDies s
  let lim (s : State) (d : Nat) : Nat := fget s (rTHM_CD_STATUS d) fTHM_CD_STATUS_POWER_LIMIT
  let set (d v : Nat) (s : State) : State := dieClocks d (fset (rTHM_CD_STATUS d) fTHM_CD_STATUS_POWER_LIMIT v s)
  let stuck := decide (cap < meanMw) && !ds.isEmpty && ds.all (fun d => lim s d ≤ 8)
  let s := if stuck ∧ !s.pwr.unreach then occurs 0 0 4 (fset rPWR_STATUS fPWR_STATUS_CAP_UNREACHABLE 1 s) else s
  let s := updPwr (fun p => { p with unreach := stuck }) s
  if cap < meanMw then ds.foldl (fun s d => set d (max 8 (lim s d - 1)) s) s
  else if 100 * meanMw < 97 * cap then
    ds.foldl (fun s d => if lim s d < fget s rPWR_PROFILE fPWR_PROFILE_CLK_CEIL then set d (lim s d + 1) s else s) s
  else s

/-! ## Sleep, wake and droop (R377 to R379) -/

/-- A bound core with no task placed for 1 µs sleeps. -/
def coreSleep (c : Nat) (s : State) : State :=
  if coreState s c = 2 ∧ (coreOf s c).task.isNone then fset (bindReg c) fTSC_CORE_BIND_SLEEP 1 s else s

/-- Whether a droop calibration holds a core (R465). -/
def droopRun (s : State) (c : Nat) : Bool :=
  s.waits.any (fun w => w.op == 0x700 && w.keys == [8 + c / 16] && w.a == 0x30 && w.b == c % 16)

/-- A core that a binding wakes is released: its PLL runs at the frequency R370 gives. -/
def coreWake (c : Nat) (s : State) : State :=
  if !droopRun s c ∧ coreState s c = 1 ∧ fget s (bindReg c) fTSC_CORE_BIND_SLEEP = 1 then
    dieClocks (c / 16) (fset (rCLK_CORE_FREQ (c / 16) (c % 16)) fCLK_CORE_FREQ_ON 1 (fset (bindReg c) fTSC_CORE_BIND_SLEEP 0 s))
  else s

/-- A stretched episode is counted when it begins, and again as deep once it reaches 10 %. -/
def droop (c : Nat) (deep : Bool) (s : State) : State :=
  if nCores s ≤ c then s
  else
    let r := rTHM_CD_DROOP (c / 16)
    let was := (coreOf s c).stretch
    let s := if was.isNone then fcount r fTHM_CD_DROOP_EPISODES 1 s else s
    let s := if deep ∧ was ≠ some true then occur (8 + c / 16) 1 2 c false (fcount r fTHM_CD_DROOP_DEEP 1 s) else s
    updCore c (fun k => { k with stretch := some (deep || was == some true) }) s

def droopEnd (c : Nat) (s : State) : State := if nCores s ≤ c then s else updCore c (fun k => { k with stretch := none }) s

/-! ## Temperature (R383 to R387) -/

/-- The hottest sensor of a die as last sampled. -/
def tempOf (s : State) (u : Nat) : Int := Mp.get 0 s.pwr.temps u

/-- Whether a code names a populated die, stack, site or the Col die. -/
def hasSensor (s : State) (u : Nat) : Bool := isUnitCode s u || u == 64

/-- Every 10 µs a die's sensors are read (R383). -/
def tempSample (u : Nat) (t : Int) (s : State) : State :=
  if !hasSensor s u then s
  else
    let s := updPwr (fun p => { p with temps := Mp.ins p.temps u t }) s
    if u < 12 then fset (rTHM_CD_STATUS u) fTHM_CD_STATUS_T_MAX (wrap 8 t) s
    else if u < 20 then fset (rTHM_BD_STATUS (u - 16)) fTHM_BD_STATUS_T_MAX (wrap 8 t) s
    else s

/-- The local throttle threshold of a die (R384); none where a die has none. -/
def throttleAt (s : State) (u : Nat) : Option Int :=
  if u < 20 then some (fieldOf s.pwr.thm 16 8 : Nat) else if 32 ≤ u ∧ u < 56 then some (fieldOf s.pwr.thm 0 8 : Nat) else none

/-- The compute dies whose local ceiling a die's throttle moves. -/
def throttled (u : Nat) : List Nat := if u < 12 then [u] else if u < 20 then (List.range 3).map (· + 3 * (u - 16)) else []

/-- The unit, block and number of a die's THROTTLE source (R432). -/
def throttleSrc (u : Nat) : Nat × Nat × Nat :=
  if u < 12 then (8 + u, 1, 1) else if u < 20 then (u - 15, 5, 1) else (1 + (u - 32) / 6, 1, 4 * ((u - 32) % 6) + 3)

/-- Whether a stack is under an issue limit, local or thermal, shown in MS_LIMITED. -/
def showLimit (u : Nat) (s : State) : State :=
  fsetBit (rTHM_BD_STATUS ((u - 32) / 6)) fTHM_BD_STATUS_MS_LIMITED ((u - 32) % 6)
    (s.pwr.hot.contains u || Mp.get 100 s.pwr.limit u != 100) s

/-- A die begins or goes on throttling (R385). -/
def throttleStep (u : Nat) (s : State) : State :=
  match throttleAt s u with
  | none => s
  | some th =>
    if !isUnitCode s u || !dieOk s u || decide (tempOf s u < th) then s
    else
      let s := if s.pwr.hot.contains u then s
        else
          let q := throttleSrc u
          tracePower 3 (occurs q.1 q.2.1 q.2.2 (updPwr (fun p => { p with hot := u :: p.hot }) s))
      let s := if u < 12 then fset (rTHM_CD_STATUS u) fTHM_CD_STATUS_THROTTLED 1 s
        else if u < 20 then fset (rTHM_BD_STATUS (u - 16)) fTHM_BD_STATUS_THROTTLED 1 s
        else showLimit u s
      (throttled u).foldl (fun s d =>
        dieClocks d (fset (rTHM_CD_STATUS d) fTHM_CD_STATUS_LOCAL_CEIL
          (max 8 (fget s (rTHM_CD_STATUS d) fTHM_CD_STATUS_LOCAL_CEIL - 2)) s)) s

/-- 1 ms below the release level: the throttle ends and the ceiling rises (R385). -/
def throttleRelease (u : Nat) (s : State) : State :=
  match throttleAt s u with
  | none => s
  | some th =>
    if !isUnitCode s u || decide (th - 5 ≤ tempOf s u) then s
    else
      let s := if s.pwr.hot.contains u then tracePower 4 (updPwr (fun p => { p with hot := p.hot.filter (· != u) }) s) else s
      let s := if 32 ≤ u then showLimit u s else s
      (throttled u).foldl (fun s d =>
        if s.pwr.hot.contains d || s.pwr.hot.contains (16 + d / 3) then s
        else dieClocks d (fset (rTHM_CD_STATUS d) fTHM_CD_STATUS_LOCAL_CEIL
          (min 40 (fget s (rTHM_CD_STATUS d) fTHM_CD_STATUS_LOCAL_CEIL + 2)) s)) s

/-- The trip temperature of a die (R384). -/
def tripAt (u : Nat) : Int := if 32 ≤ u ∧ u < 56 then 105 else if 80 ≤ u then 110 else 115

/-- A die reaches its trip temperature (R386): its TRIP source occurs, and the reaction is the die's own. -/
def tripDie (u : Nat) (s : State) : State :=
  if !hasSensor s u then s
  else
    let s := tempSample u (max (tripAt u) (tempOf s u)) s
    if u = 64 then occurs 0 0 5 s
    else if u < 12 then fenceStart u 5 (occurs (8 + u) 1 0 s)
    else if u < 20 then fenceStart u 5 (occurs (u - 15) 5 0 s)
    else if u < 56 then fenceStart u 5 (occurs (1 + (u - 32) / 6) 1 (4 * ((u - 32) % 6) + 2) s)
    else
      let k := u - 80
      let s := fset (rPRG_LASER_STATUS k) fPRG_LASER_STATUS_SPARE_STATE (if spareState s k = 4 then 4 else 0) (blankSite k false s)
      fenceStart u 5 (occurs (32 + k) 0 7 s)

/-! ### Thermal modes (R387) -/

/-- Stacks by their code. -/
def stackCodes (s : State) : List Nat := (List.range (nStacks s)).map (· + 32)

def setThermal (d v : Nat) (s : State) : State := dieClocks d (fset (rTHM_CD_STATUS d) fTHM_CD_STATUS_THERMAL_CEIL v s)
def setLimit (u v : Nat) (s : State) : State := showLimit u (updPwr (fun p => { p with limit := Mp.put 100 p.limit u v }) s)

/-- The band of a base-die sensor under a site: 0 below 85 °C to 4 from 100 °C. -/
def bandOf (t : Int) : Nat := if t < 85 then 0 else if t < 90 then 1 else if t < 95 then 2 else if t < 100 then 3 else 4

/-- The ceiling in units of 50 MHz, and the issue limit in percent, of a band. -/
def bandCeil (b : Nat) : Nat := if b = 0 then 40 else 32 - 8 * (b - 1)
def bandLimit (b : Nat) : Nat := if b = 0 then 100 else if b = 1 then 90 else if b = 2 then 75 else if b = 3 then 50 else 25

/-- Puts a compute die or stack in a band. -/
def enterBand (u b : Nat) (s : State) : State :=
  let s := updPwr (fun p => { p with band := Mp.put 0 p.band u b }) s
  if u < 12 then setThermal u (bandCeil b) s else setLimit u (bandLimit b) s

/-- The loosest band that a reading held 3 °C below each lower edge allows, from a band in force. -/
def relaxTo (cur : Nat) (t : Int) : Nat := ((List.range cur).filter (fun (j : Nat) => decide ((85 + 5 * (j : Int)) - 3 < t))).length

/-- A reading of the base-die sensor under a compute die or stack. -/
def bandChange (u : Nat) (t : Int) (held : Bool) (s : State) : State :=
  if !(decide (u < nDies s) || decide (32 ≤ u ∧ u < 32 + nStacks s)) then s
  else
    let s := updPwr (fun p => { p with under := Mp.ins p.under u t }) s
    if fget s rPWR_STATUS fPWR_STATUS_STACKED = 0 then s
    else
      let cur := Mp.get 0 s.pwr.band u
      if cur < bandOf t then enterBand u (bandOf t) s
      else if held ∧ relaxTo cur t < cur then enterBand u (relaxTo cur t) s
      else s

/-- The thermal mode asked for takes effect: the ceilings of the old mode are replaced by those of the new. -/
def switchMode (s : State) : State :=
  if (fget s rPWR_STATUS fPWR_STATUS_STACKED == 1) == s.pwr.stacked then s
  else
    let s := fset rPWR_STATUS fPWR_STATUS_STACKED (b2n s.pwr.stacked) s
    (List.range (nDies s) ++ stackCodes s).foldl (fun s u =>
      enterBand u (if s.pwr.stacked then bandOf (Mp.get 0 s.pwr.under u) else 0) s) s

/-- The adjustments of central mode; ceilings and limits rise only where `raise` allows it. -/
def centralStep (raise : Bool) (s : State) : State :=
  let tcd : Int := (fieldOf s.pwr.thm 24 8 : Nat)
  let tms : Int := (fieldOf s.pwr.thm 8 8 : Nat)
  let tbd : Int := (s.pwr.thmBd : Nat)
  let ceil (s : State) (d : Nat) : Nat := fget s (rTHM_CD_STATUS d) fTHM_CD_STATUS_THERMAL_CEIL
  let s := (List.range (nDies s)).foldl (fun s d =>
    if !dieOk s d then s
    else if tcd < tempOf s d then setThermal d (max 8 (ceil s d - 1)) s
    else if raise ∧ tempOf s d + 2 ≤ tcd then setThermal d (min 40 (ceil s d + 1)) s else s) s
  let s := (List.range (nRidges s)).foldl (fun s n =>
    if dieOk s (16 + n) ∧ tbd < tempOf s (16 + n) then
      (throttled (16 + n)).foldl (fun s d => setThermal d (max 8 (ceil s d - 1)) s) s
    else s) s
  (stackCodes s).foldl (fun s u =>
    let l := Mp.get 100 s.pwr.limit u
    if !dieOk s u then s
    else if tms < tempOf s u then setLimit u (max 25 (l - 5)) s
    else if raise ∧ tempOf s u + 2 ≤ tms then setLimit u (min 100 (l + 5)) s else s) s

/-- The 100 µs control step: new thresholds and a new mode take effect. -/
def thermalStep (raise : Bool) (s : State) : State :=
  let s := updPwr (fun p => { p with
    thm := (regVal s rTHM_CTRL).toNat, thmBd := fget s rTHM_BD_CTRL fTHM_BD_CTRL_BD_TARGET }) s
  let s := switchMode s
  if fget s rPWR_STATUS fPWR_STATUS_STACKED = 0 then centralStep raise s else s

/-! ## Lost clocks (R375) -/

/-- A base die whose Stolon reference has been lost for 1 µs looks after itself: light off, its stacks in self-refresh (R436). -/
def selfSafe (n : Nat) (s : State) : State :=
  if nRidges s ≤ n ∨ (dieOf s (16 + n)).localSafe then s
  else
    let s := setDie (16 + n) { dieOf s (16 + n) with localSafe := true } s
    let s := (List.range 4).foldl (fun s i => blankSite (4 * n + i) false s) s
    (List.range 6).foldl (fun s k =>
      if stackState s n k = 2 then fset (rMEM_STACK_STATUS n k) fMEM_STACK_STATUS_STATE 3 s else s) s

/-- The Col die loses its clock: it takes the whole module down, every base die looks after itself, and only a power-on reset
recovers (R28, R440). -/
def colLost (s : State) : State :=
  let s := showFault ((List.range (nRidges s)).foldl (fun s n => selfSafe n s) s)
  { s with crestRun := false, ready := false
           boot := { s.boot with up := false, lost := true, stable := [], loading := false, fw := false } }

/-- A PLL loses lock or reference and withdraws its clock-good; what depends on the die goes with it (R28, R254). -/
def clockLost (b : Block) (s : State) : State :=
  let s := { s with boot := { s.boot with stable := s.boot.stable.filter (· != b) } }
  match b with
  | .compute d => if d < nDies s then occurs (8 + d) 1 3 (fenceStart d 1 s) else s
  | .base n => if n < nRidges s then occurs (1 + n) 5 2 (fenceStart (16 + n) 1 s) else s
  | .core c => if c < nCores s then fset (rCLK_CORE_FREQ (c / 16) (c % 16)) fCLK_CORE_FREQ_ON 0 s else s
  | .col => colLost s
  | .porger k => if k < nSites s then fenceStart (80 + k) 1 s else s

/-! ## Profiles and overrides (R388 to R390) -/

/-- A protection mode reaches every ridge (R389). -/
def setProt (v : Nat) (s : State) : State :=
  (List.range (nRidges s)).foldl (fun s n => fset (rMEM_RIDGE_CFG n) fMEM_RIDGE_CFG_PROT v s) (fset rPWR_PROFILE fPWR_PROFILE_PROT v s)

/-- A link mode is asked for on every port that is UP (R315). -/
def setLinkMode (v : Nat) (s : State) : State :=
  if fget s rPWR_PROFILE fPWR_PROFILE_LINK = v then s
  else
    let s := fset rPWR_PROFILE fPWR_PROFILE_LINK v s
    (List.range (nPorts s)).foldl (fun s p => if portState s p = 3 then askChange p 3 (b2n (wantHalf s p)) 0 s else s) s

def setCeil (v : Nat) (s : State) : State := allClocks (fset rPWR_PROFILE fPWR_PROFILE_CLK_CEIL v s)
def setCap (s : State) : State := fset rPWR_PROFILE fPWR_PROFILE_CAP_W (capNow s) s

def profileCeil (p : Nat) : Nat := if p = 0 then 40 else if p = 1 then 32 else 24

/-- One of the four settings takes the current profile's value, unless it is overridden (R30). -/
def setFromProfile (setting : Nat) (s : State) : State :=
  let p := fget s rPWR_PROFILE fPWR_PROFILE_PROFILE
  let free (f : Fld) : Bool := fget s rPWR_PROFILE f == 0
  if setting = 0 then (if free fPWR_PROFILE_OVR_CLK then setCeil (profileCeil p) s else s)
  else if setting = 1 then (if free fPWR_PROFILE_OVR_CAP then setCap s else s)
  else if setting = 2 then (if free fPWR_PROFILE_OVR_PROT then setProt (if p = 2 then 1 else 0) s else s)
  else (if free fPWR_PROFILE_OVR_LINK then setLinkMode (if p = 2 then 1 else 0) s else s)

/-- A profile change in the order of R388: clocks first on the way down, last on the way up. -/
def setProfile (p : Nat) (s : State) : State :=
  let down := decide (fget s rPWR_PROFILE fPWR_PROFILE_PROFILE ≤ p)
  let s := fset rPWR_PROFILE fPWR_PROFILE_PROFILE p s
  tracePower 0 ((if down then [0, 1, 3, 2] else [2, 3, 1, 0]).foldl (fun s i => setFromProfile i s) s)

/-- The parameter fields of opcode 0x600, which of them are out of range, and its effect (R366). -/
def profileFields : List (Nat × Nat) := [(0, 1)]
def profileBad : List Byte → Nat → List (Nat × Bool) := fun ps _ => [(0, decide (2 < leAt ps 0 1))]
def profileBody : List Byte → Nat → State → Ans := fun ps _ s => .ok 0 [] (setProfile (leAt ps 0 1) s)
def profileCmd (h : Cmd) (s : State) : State :=
  runCmd h 0x600 true profileFields profileBad profileBody s

/-- Whether a value lies in the range of R390 for a setting. -/
def overrideOk (a12 : Bool) (setting v : Nat) : Bool :=
  if setting = 0 then decide (400 ≤ v ∧ v ≤ 2000 ∧ v % 50 = 0)
  else if setting = 1 then (if a12 then decide (1600 ≤ v ∧ v ≤ 5400) else decide (900 ≤ v ∧ v ≤ 2720))
  else decide (v ≤ 1)

/-- The flag of an override. -/
def overrideFld (setting : Nat) : Fld :=
  if setting = 0 then fPWR_PROFILE_OVR_CLK else if setting = 1 then fPWR_PROFILE_OVR_CAP
  else if setting = 2 then fPWR_PROFILE_OVR_PROT else fPWR_PROFILE_OVR_LINK

/-- Sets an override, or withdraws it and restores the profile's value (R390). -/
def setOverride (setting act v : Nat) (s : State) : State :=
  if act = 1 then setFromProfile setting (fset rPWR_PROFILE (overrideFld setting) 0 s)
  else
    let s := fset rPWR_PROFILE (overrideFld setting) 1 s
    if setting = 0 then setCeil (v / 50) s
    else if setting = 1 then setCap (updPwr (fun p => { p with capOvr := v }) s)
    else if setting = 2 then setProt v s
    else setLinkMode v s

/-- The parameter fields of opcode 0x601, which of them are out of range, and its effect (R366). -/
def overrideFields : List (Nat × Nat) := [(0, 1), (1, 1), (4, 4)]
def overrideBad (s : State) : List Byte → Nat → List (Nat × Bool) := fun ps _ =>
    [(0, decide (3 < leAt ps 0 1)), (1, decide (1 < leAt ps 1 1)),
     (4, leAt ps 1 1 == 0 && !overrideOk s.fuses.a12 (leAt ps 0 1) (leAt ps 4 4))]
def overrideBody : List Byte → Nat → State → Ans := fun ps _ s => .ok 0 [] (setOverride (leAt ps 0 1) (leAt ps 1 1) (leAt ps 4 4) s)
def overrideCmd (h : Cmd) (s : State) : State :=
  runCmd h 0x601 true overrideFields (overrideBad s) overrideBody s

/-- The parameter fields of opcode 0x602, which of them are out of range, and its effect (R366). -/
def thermalFields : List (Nat × Nat) := [(0, 1)]
def thermalBad : List Byte → Nat → List (Nat × Bool) := fun ps _ => [(0, decide (1 < leAt ps 0 1))]
def thermalBody : List Byte → Nat → State → Ans := fun ps _ s => .ok 0 [] (updPwr (fun p => { p with stacked := leAt ps 0 1 == 1 }) s)
def thermalCmd (h : Cmd) (s : State) : State :=
  runCmd h 0x602 true thermalFields thermalBad thermalBody s

/-! ## Telemetry (R392) -/

/-- A temperature byte: 0x80 for a die that is unpopulated or fenced. -/
def tempByte (s : State) (u : Nat) : Nat × Nat :=
  (1, if hasSensor s u && (dieOf s u).st == 0 && (u == 64 || dieOk s (hostDie u)) then wrap 8 (tempOf s u) else 0x80)

/-- The highest core clock of a die under steps 1 and 2 of R370. -/
def dieMhz (s : State) (d : Nat) : Nat :=
  let on := (List.range 16).map (fun c =>
    if fget s (rCLK_CORE_FREQ d c) fCLK_CORE_FREQ_ON = 1 then fget s (rCLK_CORE_FREQ d c) fCLK_CORE_FREQ_MHZ else 0)
  on.foldl max 0 / (if fget s rPWR_STATUS fPWR_STATUS_SLOW = 1 then 2 else 1)

/-- The 128 bytes of POWER_READ. -/
def telemetry (s : State) : List Byte :=
  let w := s.pwr
  let flags := fget s rPWR_STATUS fPWR_STATUS_SLOW + 2 * b2n (!w.hot.isEmpty) + 4 * b2n w.unreach
    + 8 * fget s rPWR_STATUS fPWR_STATUS_STACKED
    + 16 * b2n (decide (fget s rPWR_STATUS fPWR_STATUS_PHASES < (if s.fuses.a12 then 13 else 7)))
  leFields ([(8, stampAt s 64), (4, w.vin), (4, w.iin), (4, w.mean), (2, fget s rPWR_PROFILE fPWR_PROFILE_CAP_W),
      (1, fget s rPWR_PROFILE fPWR_PROFILE_PROFILE), (1, flags), (8, w.energy / 4000000000)]
    ++ (List.range 12).map (tempByte s) ++ (List.range 4).map (fun n => tempByte s (16 + n))
    ++ (List.range 24).map (fun k => tempByte s (32 + k)) ++ (List.range 16).map (fun k => tempByte s (80 + k))
    ++ [tempByte s 64, (1, fget s rPWR_STATUS fPWR_STATUS_PHASES), (6, 0)]
    ++ (List.range 12).map (fun d => (2, dieMhz s d)) ++ [(8, 0)])

/-- The parameter fields of opcode 0x603, which of them are out of range, and its effect (R366). -/
def powerReadFields : List (Nat × Nat) := []
def powerReadBad : List Byte → Nat → List (Nat × Bool) := fun _ _ => []
def powerReadBody : List Byte → Nat → State → Ans := fun _ _ s => .ok 0 (telemetry s) s
def powerReadCmd (h : Cmd) (s : State) : State :=
  runCmd h 0x603 false powerReadFields powerReadBad powerReadBody s

def execInputMonitorSample (mv ma : Nat) (s : State) : Host.Outcome State Fault Refusal := .next (inputSample mv ma s)
def execOvercurrent (s : State) : Host.Outcome State Fault Refusal := .next (overcurrentStart s)
def execSlowRelease (s : State) : Host.Outcome State Fault Refusal := .next (slowWithdraw s)
def execClockGoodLoss (b : Block) (s : State) : Host.Outcome State Fault Refusal := .next (clockLost b s)
def execCoreIdleSleep (c : Nat) (s : State) : Host.Outcome State Fault Refusal := .next (coreSleep c s)
def execCoreWakeComplete (c : Nat) (s : State) : Host.Outcome State Fault Refusal := .next (coreWake c s)
def execDroopStretch (c : Nat) (deep : Bool) (s : State) : Host.Outcome State Fault Refusal := .next (droop c deep s)
def execDroopRecover (c : Nat) (s : State) : Host.Outcome State Fault Refusal := .next (droopEnd c s)
def execPowerCapStep (meanMw : Nat) (s : State) : Host.Outcome State Fault Refusal := .next (capStep meanMw s)
def execTemperatureSample (die : Nat) (temp : Int) (s : State) : Host.Outcome State Fault Refusal := .next (tempSample die temp s)
def execLocalThrottleStep (die : Nat) (s : State) : Host.Outcome State Fault Refusal := .next (throttleStep die s)
def execLocalThrottleReleaseStep (die : Nat) (s : State) : Host.Outcome State Fault Refusal := .next (throttleRelease die s)
def execTrip (die : Nat) (s : State) : Host.Outcome State Fault Refusal := .next (tripDie die s)
def execThermalControlStep (raise : Bool) (s : State) : Host.Outcome State Fault Refusal := .next (thermalStep raise s)
def execStackedBandChange (die : Nat) (temp : Int) (held : Bool) (s : State) : Host.Outcome State Fault Refusal :=
  .next (bandChange die temp held s)
def execProfileSet (h : Cmd) (s : State) : Host.Outcome State Fault Refusal := .next (profileCmd h s)
def execOverride (h : Cmd) (s : State) : Host.Outcome State Fault Refusal := .next (overrideCmd h s)
def execThermalMode (h : Cmd) (s : State) : Host.Outcome State Fault Refusal := .next (thermalCmd h s)
def execPowerRead (h : Cmd) (s : State) : Host.Outcome State Fault Refusal := .next (powerReadCmd h s)

end Sys2Proof.Machine
end

