-- ==== Sys2Proof/Machine/Faults.lean ====
section
/-! DEFINITION. Fault commands (group 0x09xx and FAULT_INJECT), fault sources, FAULT_N and the safe states
(spec/06_translation_dma_and_faults.md R192 to R196; spec/16_faults_and_redundancy.md R426 to R442). -/

namespace Sys2Proof.Machine

/-! ## Sources (R427 to R430) -/

/-- Whether a unit number of R8 is populated in the grade. -/
def unitUp (s : State) (u : Nat) : Bool :=
  decide (u = 0 ∨ (1 ≤ u ∧ u ≤ nRidges s) ∨ (8 ≤ u ∧ u < 8 + nDies s) ∨ (32 ≤ u ∧ u < 32 + nSites s))

/-- Whether a source code names a source of R432 in a populated unit. -/
def isSource (s : State) (code : Nat) : Bool :=
  decide (code < 2 ^ 24) && unitUp s (code / 65536) && (srcInfo (code / 65536) (code / 256 % 256) (code % 256)).isSome

/-- The core of a per-core source of a compute die (R430): the one named, or the one the number stands for. -/
def sourceCore (u b src core : Nat) : Nat :=
  if 8 ≤ u ∧ u < 20 then (if b = 0 then 16 * (u - 8) + src else if b = 1 ∧ src = 2 then core else 0xFFFF) else 0xFFFF

/-- A fault source occurs. LINE_LOST of a base die, unless it is injected, is a tag or data error met in a dirty line of its ridge cache
(R155). -/
def sourceOccurs (code core : Nat) (inj : Bool) (s : State) : State :=
  if isSource s code then
    let u := code / 65536
    let b := code / 256 % 256
    if !inj ∧ 1 ≤ u ∧ u ≤ 4 ∧ b = 1 ∧ code % 256 = 24 then strikeLine (u - 1) s
    else occur u b (code % 256) (sourceCore u b (code % 256) core) inj s
  else s

/-- Whether the condition behind a condition source holds, so that its bit sets again at once (R13, R429). -/
def condHolds (s : State) (u b src : Nat) : Bool :=
  if u = 0 then
    b == 1 && ((src == 7 && fget s rCST_STATUS fCST_STATUS_STATE == 3) || (src == 8 && fget s rCST_STATUS fCST_STATUS_STATE == 4))
  else if u ≤ 4 then
    (b == 1 && src % 4 == 3 && decide (src < 24) && s.pwr.hot.contains (32 + 6 * (u - 1) + src / 4))
      || (b == 5 && src == 1 && s.pwr.hot.contains (15 + u))
  else if 8 ≤ u ∧ u < 20 then b == 1 && src == 1 && s.pwr.hot.contains (u - 8)
  else decide (32 ≤ u) && b == 0 && src == 0 && (porgerOf s (u - 32)).warn

/-! ## Commands of group 0x09xx -/

/-- The parameter fields of opcode 0x900, which of them are out of range, and its effect (R366). -/
def faultRingFields : List (Nat × Nat) := (ringFields.drop 1)
def faultRingBad : List Byte → Nat → List (Nat × Bool) := fun ps _ => ringBad ps
def faultRingBody : List Byte → Nat → State → Ans := fun ps tn s =>
    if (Mp.find s.fRings tn).isSome then .no rsState 0 s
    else .ok 0 [] (setRing (.fault tn)
      (newRing tn (leAt ps 1 1) (leAt ps 2 1) (leAt ps 4 4) (leAt ps 8 8) (leAt ps 16 8) 0) s)
/-- FAULT_RING: tenant 0's is the module fault ring (R192). -/
def faultRingCmd (h : Cmd) (s : State) : State :=
  runCmd h 0x900 false faultRingFields faultRingBad faultRingBody s

/-- The parameter fields of opcode 0x901, which of them are out of range, and its effect (R366). -/
def faultResumeFields : List (Nat × Nat) := [(2, 2), (4, 2)]
def faultResumeBad : List Byte → Nat → List (Nat × Bool) := fun _ _ => []
def faultResumeBody : List Byte → Nat → State → Ans := fun ps tn s => withTask ps tn s (fun g t k =>
    if k.st = tsFaultWait then
      .ok 0 [] (updTask g t (fun k => { k with
        st := if k.kind = 0 then tsPreempted else tsReady, faults := [] }) s)
    else .no rsState k.st s)
/-- FAULT_RESUME (R193, R195): a CORE task waits for its cores again, in the order its pre-emption's completion gives it; a unit's
task is READY, as when R108 was met (R114). -/
def faultResumeCmd (h : Cmd) (s : State) : State :=
  runCmd h 0x901 false faultResumeFields faultResumeBad faultResumeBody s

/-- The parameter fields of opcode 0x902, which of them are out of range, and its effect (R366). -/
def faultEndFields : List (Nat × Nat) := [(2, 2), (4, 2)]
def faultEndBad : List Byte → Nat → List (Nat × Bool) := fun _ _ => []
def faultEndBody : List Byte → Nat → State → Ans := fun ps tn s => withTask ps tn s (fun g t k =>
    if k.st = tsFaultWait then
      .ok 0 [] (forgetGraph g (settle (makeFinal g t stMemoryFault (earliestFault k.faults) (homeStamp s g t)
        (endUnit g t stMemoryFault s))))
    else .no rsState k.st s)
/-- FAULT_END (R196): FINAL with MEMORY_FAULT. -/
def faultEndCmd (h : Cmd) (s : State) : State :=
  runCmd h 0x902 false faultEndFields faultEndBad faultEndBody s

/-- The parameter fields of opcode 0x905, which of them are out of range, and its effect (R366). -/
def severityFields : List (Nat × Nat) := [(0, 4), (4, 1)]
def severityBad (s : State) : List Byte → Nat → List (Nat × Bool) := fun ps _ => [(0, !isSource s (leAt ps 0 4)), (4, decide (3 < leAt ps 4 1))]
def severityBody : List Byte → Nat → State → Ans := fun ps _ s =>
      let c := leAt ps 0 4
      .ok 0 [] (setLevel (c / 65536) (c / 256 % 256) (c % 256) (leAt ps 4 1) s)
/-- SEVERITY (R428). -/
def severityCmd (h : Cmd) (s : State) : State :=
  runCmd h 0x905 true severityFields (severityBad s) severityBody s

/-- Sets FLT_CTRL.PIN; the pin shows it once no pulse runs (R435). -/
def setPin (v : Nat) (s : State) : State :=
  let s := fset rFLT_CTRL fFLT_CTRL_PIN v s
  if s.pulse then s else showFault s

/-- The parameter fields of opcode 0x906, which of them are out of range, and its effect (R366). -/
def faultPinFields : List (Nat × Nat) := [(0, 1)]
def faultPinBad : List Byte → Nat → List (Nat × Bool) := fun ps _ => [(0, decide (1 < leAt ps 0 1))]
def faultPinBody : List Byte → Nat → State → Ans := fun ps _ s => .ok 0 [] (setPin (leAt ps 0 1) s)
def faultPinCmd (h : Cmd) (s : State) : State :=
  runCmd h 0x906 true faultPinFields faultPinBad faultPinBody s

/-! ## Injection (R441, R442) -/

/-- Whether a code names an injection point of R442 in a populated unit. -/
def isPoint (s : State) (code : Nat) : Bool :=
  let u := code / 65536
  let b := code / 256 % 256
  let x := code % 256
  decide (code < 2 ^ 24) && unitUp s u &&
    (if 8 ≤ u ∧ u < 20 then (b == 0xF0 || b == 0xF1) && decide (x < 16)
     else if 1 ≤ u ∧ u ≤ 4 then
       (b == 0xF0 && decide (1 ≤ x / 16 ∧ x / 16 ≤ 7 ∧ x % 16 < 6)) || (b == 0xF1 && decide (x < 32)) || (b == 0xF2 && decide (x < 6))
     else decide (32 ≤ u) && b == 0xF0 && decide (x < 8))

/-- Whether factory test mode is in force with a permission (R424). -/
def factoryPerm (s : State) (bit : Nat) : Bool :=
  fget s rSEC_FACTORY fSEC_FACTORY_ACTIVE == 1 && fbit s rSEC_FACTORY fSEC_FACTORY_PERMS bit

/-- The parameter fields of opcode 0xF02, which of them are out of range, and its effect (R366). -/
def injectFields : List (Nat × Nat) := [(0, 4), (4, 4)]
def injectBad (s : State) : List Byte → Nat → List (Nat × Bool) := fun ps _ =>
    [(0, !isSource s (leAt ps 0 4) && !isPoint s (leAt ps 0 4)), (4, leAt ps 4 4 == 0 || decide (65536 < leAt ps 4 4))]
def injectBody : List Byte → Nat → State → Ans := fun ps _ s => if factoryPerm s 1 then .wait [leAt ps 0 4] (leAt ps 4 4) 0 0 0 s else .no rsFactoryOnly 0 s
/-- FAULT_INJECT: the occurrences follow one by one. -/
def injectCmd (h : Cmd) (s : State) : State :=
  runCmd h 0xF02 true injectFields (injectBad s) injectBody s

/-- One occurrence goes in: a source sets and reacts by its severity; a point inserts a real error. -/
def injectNow (code : Nat) (s : State) : State :=
  if isSource s code then sourceOccurs code 0xFFFF true s
  else if 32 ≤ code / 65536 then
    let k := code / 65536 - 32
    let p := code % 256
    emit (.fabric (8 * k + p) 17 (leBytes 1 (fget s (rPRG_PAT_CTRL k p) fPRG_PAT_CTRL_INJ_WL))) s
  else { s with inj := Mp.upd 0 s.inj code (· + 1) }

/-- The next occurrence of the oldest FAULT_INJECT of a source; the last one answers it. -/
def injectStep (code : Nat) (s : State) : State :=
  match s.waits.find? (fun w => w.op == 0xF02 && w.keys == [code]) with
  | none => s
  | some w =>
    let s := injectNow code s
    if w.a ≤ 1 then answerWait w 0 0 (colNow s) [] s else setWait w { w with a := w.a - 1 } s

/-! ## FAULT_N and the safe states (R435 to R437) -/

/-- The pulse of R435 ends: the pin follows FLT_CTRL.PIN. -/
def pulseEnd (s : State) : State := if s.pulse then showFault { s with pulse := false } else s

/-- The Stolon line of a base die is lost: it looks after itself, and the Col die sees the line down and fences it (R436, R440). -/
def localSafe (n : Nat) (s : State) : State :=
  if nRidges s ≤ n ∨ (dieOf s (16 + n)).localSafe then s
  else fenceStart (16 + n) 1 (topoSet fMGT_TOPOLOGY_STOLON_UP n false (showFault (selfSafe n s)))

/-- FLT_SAFE_INFO is RWS: software's write replaces VALID and SOURCE (R437). -/
def writeSafeInfo (v : Word32) (s : State) : State :=
  fset rFLT_SAFE_INFO fFLT_SAFE_INFO_VALID (fieldOf v.toNat 31 1) (fset rFLT_SAFE_INFO fFLT_SAFE_INFO_SOURCE (fieldOf v.toNat 0 24) s)

/-- The Col die reads the blocks of a ridge cut off from the main route over its Stolon line (R431). -/
def stolonPoll (n : Nat) (s : State) : State := if (dieOf s (16 + n)).localSafe then s else readUnseen n s

def execFaultRing (h : Cmd) (s : State) : Host.Outcome State Fault Refusal := .next (faultRingCmd h s)
def execFaultResume (h : Cmd) (s : State) : Host.Outcome State Fault Refusal := .next (faultResumeCmd h s)
def execFaultEnd (h : Cmd) (s : State) : Host.Outcome State Fault Refusal := .next (flushWaits (faultEndCmd h s))
def execSeverity (h : Cmd) (s : State) : Host.Outcome State Fault Refusal := .next (severityCmd h s)
def execFaultPin (h : Cmd) (s : State) : Host.Outcome State Fault Refusal := .next (faultPinCmd h s)
def execFaultInject (h : Cmd) (s : State) : Host.Outcome State Fault Refusal := .next (injectCmd h s)
def execFaultInjectOccurrence (source : Nat) (s : State) : Host.Outcome State Fault Refusal := .next (injectStep source s)
def execFaultSourceOccurrence (source core : Nat) (s : State) : Host.Outcome State Fault Refusal :=
  .next (sourceOccurs source core false s)
def execFaultNPulseEnd (s : State) : Host.Outcome State Fault Refusal := .next (pulseEnd s)
def execLocalSafeState (n : Nat) (s : State) : Host.Outcome State Fault Refusal := .next (localSafe n s)
def execSafeInfoClear (value : Word32) (s : State) : Host.Outcome State Fault Refusal := .next (writeSafeInfo value s)
def execStolonFaultPoll (n : Nat) (s : State) : Host.Outcome State Fault Refusal := .next (stolonPoll n s)

end Sys2Proof.Machine
end

