-- ==== Sys2Proof/Machine/Reset.lean ====
section
/-! DEFINITION. The three reset scopes and their sources, power-up, release, option loading, boot and bring-up
(spec/14_reset_and_bringup.md R393 to R411; spec/15_security_and_attestation.md R417 to R421). -/

namespace Sys2Proof.Machine

def updBoot (f : Boot → Boot) (s : State) : State := { s with boot := f s.boot }

/-! ## Causes (R394, R396) -/

/-- A cause of RST_CAUSE: 1 POR to 11 FAULT; the bit of cause n is n − 1. -/
def noteCause (c : Nat) (s : State) : State :=
  fsetBit rRST_CAUSE ⟨0, 11⟩ (c - 1) true (fset rRST_CAUSE fRST_CAUSE_LAST c s)

/-- A load interrupted by a reset is incomplete (R406). -/
def loadCut (s : State) : State :=
  if s.boot.loading then
    let n := min 3 (fget s rWNW_STATUS fWNW_STATUS_ATTEMPTS + 1)
    updBoot (fun b => { b with loading := false, safeNow := n == 3 })
      (fset rWNW_STATUS fWNW_STATUS_LAST_ERR 1 (fset rWNW_STATUS fWNW_STATUS_ATTEMPTS n s))
  else s

/-! ## Core reset (R397, R399) -/

/-- A core after a core reset: it keeps its binding and any change of it under way. -/
def coreCleared (k : Core) : Core :=
  { bindTo := k.bindTo, bindMode := k.bindMode, bindOld := k.bindOld, tBind := k.tBind }

/-- Every running COLLECTIVE task tells its group (R399 step 1). -/
def collNotices (s : State) : State :=
  (allTasks s).foldl (fun s q => match q.2.2.2.coll with
    | some r => if q.2.2.2.st = tsRunning then notifyPeers q.2.2.2.unit r (0, 0) (leAt r.desc 8 4) s else s
    | none => s) s

/-- The tags of the cleared units are abandoned; those of responders and of the Col die's own requests stay. -/
def abandonTags (s : State) : State :=
  { s with tags := s.tags.map (fun p => (p.1, p.2.map (fun e => match e.rq with
      | .responder _ => e
      | .admission => e
      | .melhal => e
      | .recordWrite _ => e
      | _ => { e with abandoned := true }))) }

/-- What a core reset does once it is under way. -/
def doCoreReset (s : State) : State :=
  let s := abandonTags (collNotices (loadCut s))
  let s := (s.waits.filter (fun w => w.op == 0x300)).foldl (fun s w => answerWait w rsState 0 (colNow s) [] s) s
  let s := (s.waits.filter (fun w => w.op == 0x304)).foldl (fun s w => answerWait w rsNotFound 0 (colNow s) [] s) s
  let s := (List.range (nDies s)).foldl (fun s d => stopCals (8 + d) rsState 4 s) s
  let s := { s with
    graphs := [], groups := [], collNet := [], tlbs := []
    cRings := s.cRings.map (fun p => (p.1, { p.2 with waiting := [], reserved := 0 }))
    cores := (s.cores.map (fun p => (p.1, coreCleared p.2))).filter (fun p => p.2 != {}) }
  let s := (List.range (nCores s)).foldl (fun s c => bindAdvance c s) s
  let s := fsetBit rSEC_BOOT_STATUS fSEC_BOOT_STATUS_BANKS 1 (Mp.get 0 s.sec.active 1 == 1) s
  let s := regPut rRST_TIME (BitVec.ofNat 64 (stampAt s 64)) s
  let s := (List.range 64).foldl (fun s f => if fnEnabled s f then signalVector f 0 s else s) s
  let s := if s.boot.up ∧ fget s rWNW_STATUS fWNW_STATUS_DONE = 0 then updBoot (fun b => { b with loading := true }) s else s
  flushWaits s

/-- The low-speed pins of the module connector in the order of RST_PIN_MAP (R403). -/
def pinNames : List String :=
  ["MRST_N", "PERST_N", "FAULT_N", "SMB_SCL", "SMB_SDA", "SMB_ALERT_N", "TCK", "TMS", "TDI", "TDO", "TRST_N"]

/-- The reset state of a pin: 0 weak pull-up, 1 weak pull-down, 2 high-impedance, 3 driven low; the A12 pulls every one up (R403). -/
def pinReset (s : State) (i : Nat) : Nat := if s.fuses.a12 then 0 else fieldOf s.fuses.pinMap (2 * i) 2

/-- VDD_AON is good: each pin takes its reset state, which gives it a level unless it is high-impedance (R403, R410 step 2). -/
def pinsReset (s : State) : State :=
  pinNames.zipIdx.foldl (fun s p => if pinReset s p.2 = 2 then s else emit (.pin p.1 (pinReset s p.2 == 0)) s) s

/-- A core reset, absorbed while a wider one runs (R396). -/
def coreReset (cause : Nat) (s : State) : State :=
  let s := noteCause cause s
  if s.boot.up then doCoreReset s else s

/-! ## System and power-on reset (R397) -/

/-- The registers that a system reset spares whole. -/
def spared (a : Nat) : Bool :=
  [rRST_CAUSE, rRST_TIME, rRST_CRIT_INFO, rRST_RETAIN_STATUS, rFLT_SAFE_INFO, rFLT_SAFE_T, rPWR_SAG_START, rPWR_SAG_END,
    rPWR_SAG_INFO, rMGT_TAP_STATUS].contains a
  || decide (rRST_BACKUP 0 ≤ a ∧ a ≤ rRST_BACKUP 31)
  || decide (a / 0x4000000 ≤ 4 ∧ 1 ≤ a / 0x4000000 ∧ 0x600020 ≤ a % 0x4000000 ∧ a % 0x4000000 < 0x600800 ∧ a % 0x40 = 0x20)

/-- The EPOCH of every core, one higher where a core was bound. -/
def epochs (s : State) : Mp Word64 :=
  s.regs.filterMap (fun p =>
    let d := p.1 / 0x4000000
    let o := p.1 % 0x4000000
    if 8 ≤ d ∧ d < 20 ∧ 0x40000 ≤ o ∧ o < 0x40040 then
      let e := fieldOf p.2.toNat 16 16 + (if 2 ≤ p.2.toNat % 4 then 1 else 0)
      some (p.1, BitVec.ofNat 64 (e % 65536 * 65536 + 4))
    else none)

/-- PWR_STATUS as the always-on monitor keeps it: CAP_UNREACHABLE and STACKED are the firmware's. -/
def keptPower (s : State) : Nat := withField (withField (regVal s rPWR_STATUS).toNat 26 1 0) 25 1 0

/-- What a system reset spares, in a state that is otherwise fresh (R396, R397). -/
def clearedState (s : State) : State :=
  { ({} : State) with
    pending := s.pending, outputs := s.outputs, freeCtr := s.freeCtr, fuses := s.fuses, crest := s.crest
    crestRun := s.crestRun, skew := s.skew, aligning := s.aligning, sram := s.sram, rdShadow := s.rdShadow, wrShadow := s.wrShadow, fseq := s.fseq, lastAccept := s.lastAccept, pulse := s.pulse
    regs := (s.regs.filter (fun p => spared p.1)), cals := s.cals, crn := s.crn, test := { s.test with recno := 0, offset := 0, hooks := [], loops := [] }
    sec := s.sec
    boot := { ({} : Boot) with rails := s.boot.rails, safeNow := s.boot.safeNow, perst := s.boot.perst }
    dies := s.dies.filterMap (fun p => if p.2.localSafe then some (p.1, { ({} : DieSt) with localSafe := true }) else none)
    pwr := { ({} : Pwr) with vin := s.pwr.vin, iin := s.pwr.iin, mean := s.pwr.mean, energy := s.pwr.energy, sag := s.pwr.sag
                             overI := s.pwr.overI, temps := s.pwr.temps, under := s.pwr.under } }

/-- The state a system reset leaves. -/
def systemCleared (s : State) : State :=
  let b := clearedState s
  let b := (epochs s).foldl (fun b p => regPut p.1 p.2 b) b
  let b := regPut rPWR_STATUS (BitVec.ofNat 64 (keptPower s)) b
  let b := fset rWNW_STATUS fWNW_STATUS_ATTEMPTS (fget s rWNW_STATUS fWNW_STATUS_ATTEMPTS)
    (fset rWNW_STATUS fWNW_STATUS_LAST_ERR (fget s rWNW_STATUS fWNW_STATUS_LAST_ERR) b)
  let b := fset rSEC_BOOT_STATUS fSEC_BOOT_STATUS_FACTORY (fget s rSEC_BOOT_STATUS fSEC_BOOT_STATUS_FACTORY)
    (fset rSEC_BOOT_STATUS fSEC_BOOT_STATUS_DEBUG (fget s rSEC_BOOT_STATUS fSEC_BOOT_STATUS_DEBUG) b)
  { b with crn := { b.crn with holders := [], changes := [], apportioned := false, entries := [] } }

/-- A system reset, absorbed by one that runs already (R396). -/
def systemReset (cause : Nat) (s : State) : State :=
  let s := noteCause cause s
  if s.boot.up then systemCleared (loadCut s) else s

/-- A power-on reset: everything but the fuses, the option store and the Cairn (R395, R397, R400, R443). -/
def powerReset (cause : Nat) (rails : Nat) (s : State) : State :=
  let b : State := { ({} : State) with
    pending := s.pending, outputs := s.outputs, freeCtr := s.freeCtr, fuses := s.fuses
    crn := { s.crn with holders := [], changes := [], apportioned := false, entries := [] }
    sec := s.sec, boot := { ({} : Boot) with rails := rails, perst := s.boot.perst } }
  regPut rRST_CAUSE (BitVec.ofNat 64 (cause * 2 ^ 28 + 2 ^ (cause - 1))) b

/-- Brown-out: every stage-2 regulator turns off (R373). -/
def brownOut (s : State) : State := powerReset 2 0 s

/-- While EXTEST is the instruction the logic sees MRST_N and PERST_N as they stood (R470). -/
def pinsFrozen (s : State) : Bool := s.test.tap == 3

/-- PERST_N is asserted (R398). -/
def perstAssert (s : State) : State :=
  if pinsFrozen s then s
  else
    let s := updBoot (fun b => { b with perst := true }) (if s.boot.up then occurs 0 1 10 s else s)
    if fget s rWNW_OPTIONS fWNW_OPTIONS_PERST_SCOPE = 0 then systemReset 6 s
    else
      let s := noteCause 6 s
      let s := (List.range 64).foldl (fun s q => if (qpOf s q).created then qpDrop q s else s) s
      regPut rHST_LINK_STATUS 0#64 { s with fns := [] }

def perstRelease (s : State) : State := if pinsFrozen s then s else updBoot (fun b => { b with perst := false }) s

/-- The watchdog expires; it runs only with the firmware (R394, R411, R419). -/
def watchdog (s : State) : State :=
  if !s.boot.fw then s
  else systemReset 7 { s with sec := { s.sec with struck := s.sec.struck || (s.sec.fresh && !s.ready) } }

/-- An error in critical state (R395): corrected where the code allows it, else the reset of its row. -/
def critError (row die : Nat) (corrected : Bool) (s : State) : State :=
  if row = 0 ∨ 8 < row then s
  else if corrected ∧ (row = 3 ∨ 5 ≤ row) then
    let s := fcount rRST_CRIT_INFO fRST_CRIT_INFO_CE_COUNT 1 s
    if 16 ≤ die ∧ die < 16 + nRidges s then occurs (die - 15) 5 3 s else occurs 0 1 5 s
  else
    let s := if row ≤ 2 then powerReset 10 s.boot.rails s else if row ≤ 6 then systemReset 10 s else coreReset 10 s
    fset rRST_CRIT_INFO fRST_CRIT_INFO_STATE row (fset rRST_CRIT_INFO fRST_CRIT_INFO_UNIT die s)

/-- A write to RST_CTRL (R394): ignored without the key. -/
def writeRstCtrl (v : Word32) (s : State) : State :=
  if fieldOf v.toNat 8 8 ≠ 0xA5 then s
  else if bitOf v.toNat 1 then systemReset 8 s
  else if bitOf v.toNat 0 then coreReset 9 s
  else s

/-- AUTO_DELAY after entry into the safe state (R437). -/
def autoReset (s : State) : State :=
  if isSafe s ∧ fget s rFLT_CTRL fFLT_CTRL_AUTO_RESET = 1 then systemReset 11 s else s

/-- A stage-1 phase fails (R372). -/
def phaseFails (s : State) : State :=
  let k := fget s rPWR_STATUS fPWR_STATUS_PHASES
  if k = 0 then s
  else
    let s := fset rPWR_STATUS fPWR_STATUS_PHASES (k - 1) (fset rPWR_STATUS fPWR_STATUS_PHASE_LOST 1 (occurs 0 0 3 s))
    if 2 * (k - 1) < (if s.fuses.a12 then 13 else 7) then brownOut s else s

/-! ## Option loading (R404 to R407) -/

/-- A record of the image names a register with W fields and sets none of its other bits. -/
def recordOk (s : State) (addr v : Nat) : Bool :=
  unitUp s (addr / 0x4000000) && addr / 0x4000000 != 0x30 && (match findReg (addr / 0x4000000) (addr % 0x4000000) with
    | some (r, false) =>
      let ws := r.fields.filter (fun f => f.rst == .w)
      !ws.isEmpty && ws.foldl (fun x f => withField x f.lo f.w 0) v == 0
    | _ => false)

/-- The levels of 16 sources from `base` of a block as R442 lets them be written: none below its source's lowest, none for a
source that R432 does not list. -/
def legalLevels (u b base v : Nat) : Nat :=
  packBits 2 ((List.range 16).map fun i => match srcInfo u b (base + i) with
    | some (_, _, lowest) => max (fieldOf v (2 * i) 2) lowest
    | none => 0)

/-- A value written to a register of an offset as its unit takes it: the levels of FLT_SEV_LO_b and FLT_SEV_HI_b are kept
legal, any other value stands. -/
def legalSeverity (u off v : Nat) : Nat :=
  if 0x3F00000 ≤ off ∧ off < 0x3F00400 ∧ (off % 0x40 = 4 ∨ off % 0x40 = 8) then
    legalLevels u ((off - 0x3F00000) / 0x40) (if off % 0x40 = 4 then 0 else 16) v
  else v

/-- Sets the W fields of a register. -/
def loadFields (addr v : Nat) (s : State) : State :=
  let v := legalSeverity (addr / 0x4000000) (addr % 0x4000000) v
  match findReg (addr / 0x4000000) (addr % 0x4000000) with
  | some (r, _) => (r.fields.filter (fun f => f.rst == .w)).foldl (fun s f => fset addr ⟨f.lo, f.w⟩ (fieldOf v f.lo f.w) s) s
  | none => s

/-- The records of an image. -/
def imageRecords (img : List Byte) : List (Nat × Nat) :=
  (List.range (leAt img 4 2)).map (fun i => (leAt img (0x10 + 8 * i) 4, leAt img (0x14 + 8 * i) 4))

/-- The defaults of R404. -/
def optionDefaults (s : State) : State :=
  let s := fset rWNW_OPTIONS fWNW_OPTIONS_PERST_SCOPE 0 s
  let s := (List.range (nRidges s)).foldl (fun s n =>
    (List.range 5).foldl (fun s p => fset (rJXL_PORT_STATUS n p) fJXL_PORT_STATUS_PLAN (jDefault p) s)
      (fset (rMEM_RIDGE_CFG n) fMEM_RIDGE_CFG_INTERLEAVE 0 s)) s
  (List.range (nSites s)).foldl (fun s k =>
    let s := fset (rPRG_FF_CTRL k) fPRG_FF_CTRL_GAIN 2560 (fset (rPRG_FF_CTRL k) fPRG_FF_CTRL_TAU 200 s)
    [6, 7].foldl (fun s p => fset (rPRG_PAM4_LVL k p) fPRG_PAM4_LVL_L0 8 (fset (rPRG_PAM4_LVL k p) fPRG_PAM4_LVL_L1 24
      (fset (rPRG_PAM4_LVL k p) fPRG_PAM4_LVL_L2 40 (fset (rPRG_PAM4_LVL k p) fPRG_PAM4_LVL_L3 56 s)))) s) s

/-- Whether the planned widths of every base die keep R228 and R229; a bridge port that has no partner may lend all its groups. -/
def planOk (s : State) : Bool :=
  (List.range (nRidges s)).all (fun n =>
    let w (p : Nat) : Nat := fget s (rJXL_PORT_STATUS n p) fJXL_PORT_STATUS_PLAN
    (List.range 3).all (fun p => decide (120 ≤ w p ∧ w p ≤ 136))
      && [3, 4].all (fun p => decide (56 ≤ w p ∧ w p ≤ 72) || (!jPopulated s n p && decide (w p ≤ 72)))
      && decide (w 0 + w 1 + w 2 + w 3 + w 4 ≤ 512) && (w 5 == 0 || w 5 == 8))

/-- The check of an image (R405): the state it gives, or the code of LAST_ERR. -/
def checkImage (img : List Byte) (s : State) : Nat ⊕ State :=
  let n := leAt img 4 2
  if img.length < 0x10 + 8 * n ∨ leAt img 0 2 ≠ 0x574E ∨ leAt img 2 2 ≠ 1 ∨ 1024 < n
      ∨ leAt img 8 4 ≠ crcOf 32 0x1EDC6F41 0xFFFFFFFF true true ((img.drop 0x10).take (8 * n)) then .inl 2
  else if !(imageRecords img).all (fun r => recordOk s r.1 r.2) then .inl 3
  else
    let t := (imageRecords img).foldl (fun s r => loadFields r.1 r.2 s) (optionDefaults s)
    if planOk t then .inr t else .inl 4

/-- Safe defaults (R406): cores stay held. -/
def safeDefaults (s : State) : State :=
  let s := optionDefaults s
  let s := fset rWNW_STATUS fWNW_STATUS_DONE 1 (fset rWNW_STATUS fWNW_STATUS_SAFE 1 (fset rWNW_STATUS fWNW_STATUS_RECORDS 0 s))
  let s := fset rRST_HOLD_CD fRST_HOLD_CD_HOLD (2 ^ nDies s - 1) s
  occurs 0 1 3 (updBoot (fun b => { b with loading := false, safeNow := false }) s)

/-- The Winnower's load ends (R405, R406). -/
def winnow (img : List Byte) (fuseErr : Bool) (s : State) : State :=
  if !s.boot.loading then s
  else
    let s := if fuseErr then occurs 0 1 4 (fset rWNW_STATUS fWNW_STATUS_FUSE_ERR 1 s) else s
    match checkImage img s with
    | .inr t =>
      fset rWNW_STATUS fWNW_STATUS_DONE 1 (fset rWNW_STATUS fWNW_STATUS_ATTEMPTS 0
        (fset rWNW_STATUS fWNW_STATUS_RECORDS (leAt img 4 2) (updBoot (fun b => { b with loading := false }) t)))
    | .inl e =>
      let n := min 3 (fget s rWNW_STATUS fWNW_STATUS_ATTEMPTS + 1)
      let s := fset rWNW_STATUS fWNW_STATUS_LAST_ERR e (fset rWNW_STATUS fWNW_STATUS_ATTEMPTS n s)
      if n = 3 then safeDefaults s else s

/-! ## Release (R401, R402, R410) -/

/-- The security engine draws a new challenge (R425). -/
def drawChallenge (s : State) : State :=
  (List.range 8).foldl (fun s i => nextFree (fset (rSEC_CHALLENGE i) fSEC_CHALLENGE_VALUE (freeVal 47 s) s)) s

/-- The Col die's logic is released (step 4 of R410): Crest runs, the causes are stamped, the load begins. -/
def colRelease (s : State) : State :=
  if s.boot.up ∨ s.boot.lost ∨ s.boot.rails ≠ 2 then s
  else
    let s := { s with crestRun := true }
    let s := nextFree (fset rFLK_INCARNATION fFLK_INCARNATION_INCARNATION (freeVal 46 s) s)
    let s := regPut rRST_TIME (BitVec.ofNat 64 (stampAt s 64)) (drawChallenge s)
    let s := if s.crn.supply ∧ s.crn.serial ≠ s.crn.lastSerial then
        { fset rCRN_STATUS fCRN_STATUS_REPLACED 1 s with crn := { s.crn with lastSerial := s.crn.serial } }
      else s
    let s := showFault (updBoot (fun b => { b with up := true, loading := true }) s)
    if s.boot.safeNow then safeDefaults s else s

/-- A block has met R401. -/
def noteStable (b : Block) (s : State) : State :=
  if s.boot.stable.contains b then s else updBoot (fun x => { x with stable := b :: x.stable }) s

/-- A block is released from reset after 64 stable cycles (R401), each in its place of R410: none below a base die before that die
knows its identity (R253), and in recovery none beyond BD0 (R419). -/
def blockRelease (b : Block) (s : State) : State :=
  if fget s rSEC_BOOT_STATUS fSEC_BOOT_STATUS_RECOVERY = 1 ∧ b ≠ .col ∧ b ≠ .base 0 then s
  else match b with
  | .col => colRelease s
  | .base n =>
    if n < nRidges s ∧ s.boot.up ∧ fget s rWNW_STATUS fWNW_STATUS_DONE = 1 ∧ !(dieOf s (16 + n)).localSafe then
      stacksUp n (topoSet fMGT_TOPOLOGY_STOLON_UP n true (noteStable b s))
    else s
  | .compute d =>
    if d < nDies s ∧ s.boot.stable.contains (.base (d / 3)) ∧ identified s (d / 3) then
      let s := noteStable b s
      if fbit s rRST_HOLD_CD fRST_HOLD_CD_DEFER d then
        fsetBit rRST_HOLD_CD fRST_HOLD_CD_HOLD d false (fsetBit rRST_HOLD_CD fRST_HOLD_CD_DEFER d false s)
      else s
    else s
  | .core c =>
    if c < nCores s ∧ s.boot.stable.contains (.compute (c / 16)) then
      let s := noteStable b s
      if 2 ≤ coreState s c then dieClocks (c / 16) (fset (rCLK_CORE_FREQ (c / 16) (c % 16)) fCLK_CORE_FREQ_ON 1 s) else s
    else s
  | .porger k => if k < nSites s ∧ s.boot.stable.contains (.base (k / 4)) ∧ identified s (k / 4) then noteStable b s else s

/-- A write to RST_HOLD_CD: a release is made at once where R401 is met, and deferred where it is not (R402). -/
def writeHold (v : Word32) (s : State) : State :=
  (List.range 12).foldl (fun s d =>
    if bitOf v.toNat d then
      fsetBit rRST_HOLD_CD fRST_HOLD_CD_HOLD d true (fsetBit rRST_HOLD_CD fRST_HOLD_CD_DEFER d false s)
    else if !fbit s rRST_HOLD_CD fRST_HOLD_CD_HOLD d then s
    else if nDies s ≤ d ∨ s.boot.stable.contains (.compute d) then fsetBit rRST_HOLD_CD fRST_HOLD_CD_HOLD d false s
    else fsetBit rRST_HOLD_CD fRST_HOLD_CD_DEFER d true s) s

/-! ## Boot (R415 to R421) -/

/-- READY sets once firmware (or the ROM in recovery) runs and the host link is up; the rollback counters then rise (R410,
R421). -/
def becomeReady (s : State) : State :=
  let recov := fget s rSEC_BOOT_STATUS fSEC_BOOT_STATUS_RECOVERY == 1
  if s.ready || !(s.boot.fw || (s.boot.chosen && recov)) || fget s rHST_LINK_STATUS fHST_LINK_STATUS_LTSSM != 3 then s
  else
    let s := { s with ready := true }
    if recov ∨ fget s rSEC_BOOT_STATUS fSEC_BOOT_STATUS_FALLBACK = 1 then s
    else raiseRbc { s with sec := { s.sec with fresh := false, struck := false } }

/-- The ROM chooses a bank of component 0, or none (R419), and notes what goes into BOOT_DIGEST (R420). -/
def bootRom (v : BootVerdict) (s : State) : State :=
  if !s.boot.up || s.boot.loading || s.boot.chosen then s
  else
    let a := activeBank s 0
    let slot := ((List.range 3).find? (fun k => bitOf s.fuses.rootBlown k && !bitOf s.fuses.rootRevoked k)).getD 15
    let useFall := v.fallbackOk && (s.sec.struck || !v.activeOk)
    let ok := slot != 15 && (v.activeOk || v.fallbackOk)
    let bank := if useFall then 1 - a else a
    let s := fset rSEC_BOOT_STATUS fSEC_BOOT_STATUS_ROOT_SLOT slot (updBoot (fun b => { b with chosen := true }) s)
    if !ok then becomeReady (fset rSEC_BOOT_STATUS fSEC_BOOT_STATUS_RECOVERY 1 s)
    else
      let banks := bank + 2 * activeBank s 1 + 4 * activeBank s 2 + 8 * activeBank s 3
      let s := fset rSEC_BOOT_STATUS fSEC_BOOT_STATUS_BANKS banks s
      let s := if useFall then
          occurs 0 1 9 (fset rSEC_BOOT_STATUS fSEC_BOOT_STATUS_FALLBACK 1 { s with sec := { s.sec with fresh := false, struck := false } })
        else s
      { s with sec := { s.sec with
        meas := (List.range 4).map (fun k => bankOf s k (runningBank s k))
        bootRbc := s.fuses.rbc, bootStatus := (regVal s rSEC_BOOT_STATUS).toNat % 256 } }

/-- The management firmware runs (R410 step 16). -/
def firmwareRuns (s : State) : State :=
  if s.boot.up && s.boot.chosen && !s.boot.fw && fget s rSEC_BOOT_STATUS fSEC_BOOT_STATUS_RECOVERY == 0 then
    becomeReady (updBoot (fun b => { b with fw := true }) s)
  else s

/-! ## The host link (R341, R346, R348, R349, R398) -/

/-- Whether a set of coefficients meets the conditions of R346. -/
def coefOk (pre main post : Nat) : Bool := pre + main + post == 48 && decide (16 + pre + post ≤ main) && decide (pre ≤ 12)

/-- The coefficients a lane uses: |C−1| × 65,536 + C0 × 256 + |C+1|. -/
def coefInUse (s : State) (l : Nat) : Nat := Mp.get (48 * 256) s.txeq l
def setCoef (l pre main post : Nat) (s : State) : State :=
  { s with txeq := Mp.put (48 * 256) s.txeq l (pre * 65536 + main * 256 + post) }

/-- At an entry to Recovery a lane takes its override, if that is valid. -/
def takeOverride (l : Nat) (s : State) : State :=
  let r := rHST_TXEQ l
  let a := fget s r fHST_TXEQ_PRE
  let b := fget s r fHST_TXEQ_MAIN
  let c := fget s r fHST_TXEQ_POST
  if fget s r fHST_TXEQ_OVR = 1 ∧ coefOk a b c then setCoef l a b c s else s

/-- The link trains or retrains to a rate and width; a link in L0 enters Recovery first. -/
def linkTrain (rate width : Nat) (eq16 eq32 : Bool) (s : State) : State :=
  if !s.boot.up || s.boot.perst || rate == 0 || decide (5 < rate) || ! [1, 2, 4, 8].contains width then s
  else
    let r := rHST_LINK_STATUS
    let s := if fget s r fHST_LINK_STATUS_LTSSM = 3 then fcount r fHST_LINK_STATUS_RECOVERIES 1 s else s
    let s := (List.range 8).foldl (fun s l => takeOverride l s) s
    let s := fset r fHST_LINK_STATUS_RATE rate (fset r fHST_LINK_STATUS_WIDTH width (fset r fHST_LINK_STATUS_LTSSM 3 s))
    becomeReady (fset r fHST_LINK_STATUS_EQ16 (b2n eq16) (fset r fHST_LINK_STATUS_EQ32 (b2n eq32) s))

/-- A partner's coefficient request (R346). -/
def coefRequest (l pre main post : Nat) (s : State) : State :=
  if l < 8 ∧ fget s (rHST_TXEQ l) fHST_TXEQ_OVR = 0 ∧ coefOk pre main post then setCoef l pre main post s else s

/-- A lane's eye scan completes (R348); a margining command holds it off (R347). -/
def hostEye (l : Nat) (margins : Word32) (s : State) : State :=
  let r := rHST_LINK_STATUS
  if l < 8 ∧ fget s r fHST_LINK_STATUS_LTSSM = 3 ∧ 4 ≤ fget s r fHST_LINK_STATUS_RATE ∧ !margining s l then
    regPut (rHST_EYE l) (margins.setWidth 64) s
  else s

/-- The host puts the link into Loopback; an armed check begins (R349). -/
def loopIn (s : State) : State :=
  let r := rHST_LINK_STATUS
  if fget s r fHST_LINK_STATUS_RATE = 0 ∨ fget s r fHST_LINK_STATUS_LTSSM = 6 then s
  else
    let s := fset r fHST_LINK_STATUS_LTSSM 6 s
    if fget s rHST_PAT_CTRL fHST_PAT_CTRL_ARM = 0 then s
    else (List.range 8).foldl (fun s l => regPut (rHST_PAT_ERR l) 0#64 s) (fset rHST_PAT_CTRL fHST_PAT_CTRL_ACTIVE 1 s)

/-- The link leaves Loopback for Detect, with the errors each lane counted. -/
def loopOut (errors : List Nat) (s : State) : State :=
  let r := rHST_LINK_STATUS
  if fget s r fHST_LINK_STATUS_LTSSM ≠ 6 then s
  else
    let s := fset r fHST_LINK_STATUS_LTSSM 0 (fset r fHST_LINK_STATUS_RATE 0 (fset r fHST_LINK_STATUS_WIDTH 0 s))
    if fget s rHST_PAT_CTRL fHST_PAT_CTRL_ACTIVE = 0 then s
    else
      let s := fset rHST_PAT_CTRL fHST_PAT_CTRL_ACTIVE 0 (fset rHST_PAT_CTRL fHST_PAT_CTRL_ARM 0 s)
      (List.range 8).foldl (fun s l => fcount (rHST_PAT_ERR l) fHST_PAT_ERR_ERRORS ((errors[l]?).getD 0) s) s

/-- The link leaves L0 for Detect or Disabled (R432). -/
def linkLost (disabled : Bool) (s : State) : State :=
  let r := rHST_LINK_STATUS
  if fget s r fHST_LINK_STATUS_LTSSM ≠ 3 then s
  else occurs 0 1 10 (fset r fHST_LINK_STATUS_LTSSM (if disabled then 8 else 0)
    (fset r fHST_LINK_STATUS_RATE 0 (fset r fHST_LINK_STATUS_WIDTH 0 s)))

def execPowerOn (s : State) : Host.Outcome State Fault Refusal :=
  .next (if s.boot.rails = 0 then pinsReset (updBoot (fun b => { b with rails := 1 }) s) else s)
def execRailsComplete (s : State) : Host.Outcome State Fault Refusal :=
  .next (if s.boot.rails = 1 then updBoot (fun b => { b with rails := 2 }) s else s)
def execBor (s : State) : Host.Outcome State Fault Refusal := .next (brownOut s)
def execOvs (s : State) : Host.Outcome State Fault Refusal := .next (powerReset 3 0 s)
def execPhaseLost (s : State) : Host.Outcome State Fault Refusal := .next (phaseFails s)
def execMrst (s : State) : Host.Outcome State Fault Refusal := .next (if pinsFrozen s then s else systemReset 5 s)
def execMrstLong (s : State) : Host.Outcome State Fault Refusal := .next (if pinsFrozen s then s else powerReset 4 s.boot.rails s)
def execPerst (s : State) : Host.Outcome State Fault Refusal := .next (perstAssert s)
def execPerstDeassert (s : State) : Host.Outcome State Fault Refusal := .next (perstRelease s)
def execWdog (s : State) : Host.Outcome State Fault Refusal := .next (watchdog s)
def execCrit (row die : Nat) (corrected : Bool) (s : State) : Host.Outcome State Fault Refusal := .next (critError row die corrected s)
def execSwSys (value : Word32) (s : State) : Host.Outcome State Fault Refusal := .next (writeRstCtrl value s)
def execSwCore (value : Word32) (s : State) : Host.Outcome State Fault Refusal := .next (writeRstCtrl value s)
def execSafeAutoReset (s : State) : Host.Outcome State Fault Refusal := .next (autoReset s)
def execHoldReleaseRequest (value : Word32) (s : State) : Host.Outcome State Fault Refusal := .next (writeHold value s)
def execBlockResetRelease (b : Block) (s : State) : Host.Outcome State Fault Refusal := .next (blockRelease b s)
def execWinnowerLoadComplete (image : List Byte) (fuseErr : Bool) (s : State) : Host.Outcome State Fault Refusal :=
  .next (winnow image fuseErr s)
def execRomBoot (v : BootVerdict) (s : State) : Host.Outcome State Fault Refusal := .next (bootRom v s)
def execFirmwareReady (s : State) : Host.Outcome State Fault Refusal := .next (firmwareRuns s)
def execPcieLinkTraining (rate width : Nat) (eq16 eq32 : Bool) (s : State) : Host.Outcome State Fault Refusal :=
  .next (linkTrain rate width eq16 eq32 s)
def execEqCoefficientRequest (lane pre main post : Nat) (s : State) : Host.Outcome State Fault Refusal :=
  .next (coefRequest lane pre main post s)
def execHostEyeScanPass (lane : Nat) (margins : Word32) (s : State) : Host.Outcome State Fault Refusal :=
  .next (hostEye lane margins s)
def execLoopbackEntry (s : State) : Host.Outcome State Fault Refusal := .next (loopIn s)
def execLoopbackExit (errors : List Nat) (s : State) : Host.Outcome State Fault Refusal := .next (loopOut errors s)
def execHostLinkDown (disabled : Bool) (s : State) : Host.Outcome State Fault Refusal := .next (linkLost disabled s)

end Sys2Proof.Machine
end

