-- ==== Sys2Proof/Machine/Security.lean ====
section
/-! DEFINITION. Security commands: firmware, certificates, attestation, factory test mode and the firmware log
(spec/15_security_and_attestation.md R412 to R425; spec/12_host_interface_and_melhal.md R366). -/

namespace Sys2Proof.Machine

/-- A list cut or padded with zeros to a length. -/
def fit (n : Nat) (l : List Byte) : List Byte := bytesAt l 0 n

/-- The data in of a command: DATA_LEN bytes (R358). -/
def dataIn (h : Cmd) : List Byte := fit (eDataLen h.entry) h.dataIn

/-- ASCII text as bytes. -/
def ascii (t : List Char) : List Byte := t.map (fun c => BitVec.ofNat 8 c.toNat)

/-- The contexts of R413 and R449, R455 by number: OXV-FW, OXV-CERT, OXV-ATT, OXV-TOK, CAIRN-REC, CAIRN-CERT. -/
def cxFw : Nat := 0
def cxCert : Nat := 1
def cxAtt : Nat := 2
def cxTok : Nat := 3
def cxRec : Nat := 4

def digest (l : List Byte) : List Byte := fit 32 (Config.sha3 l)
def pubOf (seed : List Byte) : List Byte := fit 1312 (Config.publicKey seed)
def signed (cx : Nat) (seed msg : List Byte) : List Byte := fit 2420 (Config.sign cx seed msg)

/-! ## Certificates and the alias key (R414, R420) -/

def certSize : Nat := 3836

/-- A certificate of a kind whose signature verifies under a key that its ISSUER_ID names. -/
def certOk (kind : Nat) (issuer : List Byte) (c : List Byte) : Bool :=
  decide (certSize ≤ c.length) && leAt c 0 2 == 0x4354 && leAt c 2 1 == 1 && leAt c 3 1 == kind && leAt c 4 4 == 0
    && (c.drop 0x28).take 32 == digest issuer && (c.drop 8).take 32 == digest ((c.drop 0x68).take 1312)
    && Config.verify cxCert issuer (c.take 0x588) ((c.drop 0x588).take 2420)

def certKey (c : List Byte) : List Byte := (c.drop 0x68).take 1312

/-- BOOT_DIGEST of the last boot (R420). -/
def bootDigest (s : State) : List Byte :=
  digest (ascii ['O', 'X', 'V', '-', 'B', 'O', 'O', 'T'] ++ (s.sec.meas.flatMap digest)
    ++ leFields (s.sec.meas.map (fun i => (1, svnOf i)) ++ s.sec.bootRbc.map (fun r => (1, r)) ++ [(1, s.sec.bootStatus)]))

/-- The alias seed (R420). -/
def aliasSeed (s : State) : List Byte := digest (fit 32 (Config.secret 0) ++ bootDigest s)

/-- The alias certificate: KIND 3, signed by the device identity key. -/
def aliasCert (s : State) : List Byte :=
  let pub := pubOf (aliasSeed s)
  let body := leFields [(2, 0x4354), (1, 1), (1, 3), (4, 0)] ++ digest pub ++ digest (pubOf (Config.secret 0)) ++ bootDigest s ++ pub
  body ++ signed cxCert (Config.secret 0) body

/-- The parameter fields of opcode 0x801, which of them are out of range, and its effect (R366). -/
def certFields : List (Nat × Nat) := [(0, 1)]
def certBad : List Byte → Nat → List (Nat × Bool) := fun ps _ => [(0, decide (4 < leAt ps 0 1))]
def certBody : List Byte → Nat → State → Ans := fun ps _ s =>
    .ok 0 (if leAt ps 0 1 = 1 then aliasCert s else fit certSize (Config.certificate (leAt ps 0 1))) s
/-- CERT_READ (R422, R455). -/
def certCmd (h : Cmd) (s : State) : State :=
  runCmd h 0x801 false certFields certBad certBody s

/-! ## Firmware (R417, R418, R421) -/

/-- The largest payload of a component. -/
def payloadMax (comp : Nat) : Nat :=
  if comp = 0 then 8 * 2 ^ 20 else if comp = 1 then 2 * 2 ^ 20 else if comp = 2 then 8208 else 512 * 1024

/-- The largest image of a component: header, payload, certificate, signature. -/
def imageMax (comp : Nat) : Nat := 64 + payloadMax comp + certSize + 2420

/-- The root slot in use. -/
def rootSlot (s : State) : Nat := fget s rSEC_BOOT_STATUS fSEC_BOOT_STATUS_ROOT_SLOT

/-- Whether an image verifies for a component (R418). -/
def imageOk (s : State) (comp : Nat) (img : List Byte) : Bool :=
  let n := leAt img 4 4
  let cert := (img.drop (64 + n)).take certSize
  leAt img 0 2 == 0x4657 && leAt img 2 1 == comp && decide (svnOf img ≤ 64) && decide (n ≤ payloadMax comp)
    && decide (leAt img 0x10 1 < 8) && leAt img 0x11 47 == 0 && decide (64 + n + certSize + 2420 ≤ img.length)
    && rootSlot s != 15 && certOk 4 (Config.rootKey (rootSlot s)) cert
    && Config.verify cxFw (certKey cert) (img.take (64 + n)) ((img.drop (64 + n + certSize)).take 2420)
    && decide ((s.fuses.rbc[comp]?).getD 0 ≤ svnOf img)

/-- The parameter fields of opcode 0x802, which of them are out of range, and its effect (R366). -/
def stageFields : List (Nat × Nat) := [(0, 1), (4, 4)]
def stageBad (h : Cmd) : List Byte → Nat → List (Nat × Bool) := fun ps _ =>
    [(0, decide (3 < leAt ps 0 1)), (4, decide (imageMax (leAt ps 0 1) < leAt ps 4 4 + eDataLen h.entry))]
def stageBody (h : Cmd) : List Byte → Nat → State → Ans := fun ps _ s =>
      let c := leAt ps 0 1
      let k := 2 * c + (1 - activeBank s c)
      let old := Mp.get [] s.sec.banks k
      let d := dataIn h
      let new := fit (leAt ps 4 4) old ++ d ++ old.drop (leAt ps 4 4 + d.length)
      .ok 0 [] { s with sec := { s.sec with banks := Mp.put [] s.sec.banks k new } }
/-- Whether a FW_ACTIVATE of the component that this FW_STAGE names was accepted before it and has not replied (R418). -/
def activating (h : Cmd) (s : State) : Bool :=
  match startable s h.path h.entry [] s.inflight with
  | none => false
  | some i => s.inflight.any (fun j => decide (j.tAccept < i.tAccept) && eOp j.entry % 4096 == 0x803
      && leAt j.entry 0x20 1 == leAt (paramsOf h) 0 1)
/-- FW_STAGE writes the inactive bank. -/
def stageCmd (h : Cmd) (s : State) : State :=
  runCmd h 0x802 true stageFields (stageBad h) (fun ps t u => if activating h s then .no rsState 0 u else stageBody h ps t u) s

/-- The parameter fields of opcode 0x803, which of them are out of range, and its effect (R366). -/
def activateFields : List (Nat × Nat) := [(0, 1)]
def activateBad : List Byte → Nat → List (Nat × Bool) := fun ps _ => [(0, decide (3 < leAt ps 0 1))]
def activateBody : List Byte → Nat → State → Ans := fun ps _ s =>
    let c := leAt ps 0 1
    let bank := 1 - activeBank s c
    let img := bankOf s c bank
    if imageOk s c img then
      .ok 0 [] { s with
        fuses := { s.fuses with rootRevoked := s.fuses.rootRevoked ||| leAt img 0x10 1 }
        sec := { s.sec with active := Mp.put 0 s.sec.active c bank, fresh := s.sec.fresh || c == 0, struck := s.sec.struck && c != 0 } }
    else .no rsAuthFailed 0 s
/-- FW_ACTIVATE verifies the inactive bank and makes it the active one. -/
def activateCmd (h : Cmd) (s : State) : State :=
  runCmd h 0x803 true activateFields activateBad activateBody s

/-- The parameter fields of opcode 0x804, which of them are out of range, and its effect (R366). -/
def rollbackFields : List (Nat × Nat) := []
def rollbackBad : List Byte → Nat → List (Nat × Bool) := fun _ _ => []
def rollbackBody : List Byte → Nat → State → Ans := fun _ _ s =>
    .ok 0 (leFields (s.fuses.rbc.map (fun r => (1, r)) ++ (List.range 4).map (fun k => (1, svnOf (bankOf s k (activeBank s k)))))) s
/-- ROLLBACK_READ (R421). -/
def rollbackCmd (h : Cmd) (s : State) : State :=
  runCmd h 0x804 false rollbackFields rollbackBad rollbackBody s

/-! ## Attestation (R422) -/

/-- The granules of a ridge bound to a tenant. -/
def granulesOf (s : State) (n t : Nat) : Nat :=
  if nRidges s ≤ n then 0
  else ((List.range 384).filter (fun g => fget s (rMEM_GATTR n g) fMEM_GATTR_BOUND == 1 && fget s (rMEM_GATTR n g) fMEM_GATTR_TENANT == t)).length

/-- The bitmap of the cores bound to a tenant; a core being unbound still counts (R134). -/
def coresOf (s : State) (t : Nat) : Nat :=
  ((List.range (nCores s)).filter (fun c => decide (2 ≤ coreState s c) && coreTenant s c == t)).foldl (fun a c => a + 2 ^ c) 0

/-- The bitmap of the ports bound to a tenant. -/
def portsOf (s : State) (t : Nat) : Nat :=
  ((List.range (nPorts s)).filter (fun p => portTenant s p == some t)).foldl (fun a p => a + 2 ^ p) 0

/-- The signed part of a report. -/
def reportBody (tenant : Nat) (nonce : List Byte) (s : State) : List Byte :=
  let st := rSEC_BOOT_STATUS
  let flags := fget s st fSEC_BOOT_STATUS_FACTORY + 2 * fget s st fSEC_BOOT_STATUS_FALLBACK
    + 4 * fget s rWNW_STATUS fWNW_STATUS_SAFE + 8 * fget s st fSEC_BOOT_STATUS_DEBUG
  leFields [(2, 0x5441), (2, 1), (2, 2708), (1, tenant), (1, flags), (4, (regVal s rMGT_DEVICE_ID).toNat),
      (4, (regVal s rMGT_TOPOLOGY).toNat), (4, (regVal s rFLK_MODULE_ID).toNat), (4, (regVal s rFLK_INCARNATION).toNat),
      (8, stampAt s 64)]
    ++ fit 32 nonce ++ s.sec.meas.flatMap digest
    ++ leFields (s.sec.meas.map (fun i => (1, svnOf i)) ++ s.fuses.rbc.map (fun r => (1, r))
      ++ [(24, coresOf s tenant), (16, portsOf s tenant)] ++ (List.range 4).map (fun n => (2, granulesOf s n tenant))
      ++ s.sec.bootRbc.map (fun r => (1, r)) ++ [(1, s.sec.bootStatus), (3, 0)])
    ++ digest (pubOf (aliasSeed s))

/-- The parameter fields of opcode 0x800, which of them are out of range, and its effect (R366). -/
def attestFields : List (Nat × Nat) := [(0, 32)]
def attestBad : List Byte → Nat → List (Nat × Bool) := fun _ _ => []
def attestBody : List Byte → Nat → State → Ans := fun ps tn s =>
    let b := reportBody tn (ps.take 32) s
    .ok 0 (b ++ signed cxAtt (aliasSeed s) b) s
def attestCmd (h : Cmd) (s : State) : State :=
  runCmd h 0x800 false attestFields attestBad attestBody s

/-! ## Factory test mode (R424, R425, R471) -/

/-- Whether any resource is bound to a tenant other than 0. -/
def tenantHolds (s : State) : Bool :=
  (List.range (nCores s)).any (fun c => decide (2 ≤ coreState s c) && coreTenant s c != 0)
    || (List.range (nRidges s)).any (fun n => (List.range 384).any (fun g =>
      fget s (rMEM_GATTR n g) fMEM_GATTR_BOUND == 1 && fget s (rMEM_GATTR n g) fMEM_GATTR_TENANT != 0))
    || (List.range (nPorts s)).any (fun p => match portTenant s p with
      | some t => t != 0
      | none => false)

/-- Whether any task is resident (R128). -/
def anyResident (s : State) : Bool := (allTasks s).any (fun q => q.2.2.2.resident)

/-- Whether a token and the certificate behind it admit to this module (R424, R425). -/
def tokenOk (s : State) (d : List Byte) : Bool :=
  let cert := (d.drop 2624).take certSize
  let ch := (List.range 8).flatMap (fun i => leBytes 4 (fget s (rSEC_CHALLENGE i) fSEC_CHALLENGE_VALUE))
  decide (2624 + certSize ≤ d.length) && leAt d 0 2 == 0x4B54 && decide (leAt d 2 2 < 16)
    && leAt d 4 4 == (regVal s rFLK_INCARNATION).toNat && (d.drop 8).take 32 == digest (pubOf (Config.secret 0))
    && (d.drop 0x28).take 32 == ch && leAt d 0x68 4 == 0 && leAt d 0x9E0 96 == 0
    && rootSlot s != 15 && certOk 5 (Config.rootKey (rootSlot s)) cert && (d.drop 0x48).take 32 == digest (certKey cert)
    && Config.verify cxTok (certKey cert) (d.take 0x6C) ((d.drop 0x6C).take 2420)

/-- The parameter fields of opcode 0xF00, which of them are out of range, and its effect (R366). -/
def factoryEnterFields : List (Nat × Nat) := []
def factoryEnterBad : List Byte → Nat → List (Nat × Bool) := fun _ _ => []
def factoryEnterBody (h : Cmd) : List Byte → Nat → State → Ans := fun _ _ s =>
    if anyResident s || tenantHolds s then .no rsState 0 (drawChallenge s)
    else if !tokenOk s (dataIn h) then .no rsAuthFailed 0 (drawChallenge s)
    else
      let perms := leAt (dataIn h) 2 2
      let s := fset rSEC_FACTORY fSEC_FACTORY_ACTIVE 1 (fset rSEC_FACTORY fSEC_FACTORY_PERMS perms (drawChallenge s))
      let s := fset rSEC_BOOT_STATUS fSEC_BOOT_STATUS_FACTORY 1 s
      .ok 0 [] (if bitOf perms 3 then fset rSEC_BOOT_STATUS fSEC_BOOT_STATUS_DEBUG 1 s else s)
/-- FACTORY_ENTER; the challenge is drawn anew whether or not it is accepted. -/
def factoryEnterCmd (h : Cmd) (s : State) : State :=
  runCmd h 0xF00 true factoryEnterFields factoryEnterBad (factoryEnterBody h) s

/-- A private instruction or die-stack access in use is closed, and the test hooks stop (R263). -/
def closeTap (s : State) : State :=
  let s := { s with test := { s.test with hooks := [], loops := [] } }
  if s.test.tap = 4 then regPut rMGT_TAP_STATUS 0#64 { s with test := { s.test with tap := 0 } } else s

/-- The parameter fields of opcode 0xF01, which of them are out of range, and its effect (R366). -/
def factoryExitFields : List (Nat × Nat) := []
def factoryExitBad : List Byte → Nat → List (Nat × Bool) := fun _ _ => []
def factoryExitBody : List Byte → Nat → State → Ans := fun _ _ s => .ok 0 [] (closeTap (regPut rSEC_FACTORY 0#64 s))
def factoryExitCmd (h : Cmd) (s : State) : State :=
  runCmd h 0xF01 true factoryExitFields factoryExitBad factoryExitBody s

/-- The parameter fields of opcode 0xF03, which of them are out of range, and its effect (R366). -/
def logFields : List (Nat × Nat) := [(0, 4)]
def logBad : List Byte → Nat → List (Nat × Bool) := fun _ _ => []
def logBody (h : Cmd) : List Byte → Nat → State → Ans := fun _ _ s => .ok 0 (leBytes (eDataLen h.entry) (freeVal 48 s)) (nextFree s)
/-- LOG_READ: the firmware's log, whose text no rule states. -/
def logCmd (h : Cmd) (s : State) : State :=
  runCmd h 0xF03 true logFields logBad (logBody h) s

def execCertRead (h : Cmd) (s : State) : Host.Outcome State Fault Refusal := .next (certCmd h s)
def execFwStage (h : Cmd) (s : State) : Host.Outcome State Fault Refusal := .next (stageCmd h s)
def execFwActivate (h : Cmd) (s : State) : Host.Outcome State Fault Refusal := .next (activateCmd h s)
def execRollbackRead (h : Cmd) (s : State) : Host.Outcome State Fault Refusal := .next (rollbackCmd h s)
def execAttest (h : Cmd) (s : State) : Host.Outcome State Fault Refusal := .next (attestCmd h s)
def execFactoryEnter (h : Cmd) (s : State) : Host.Outcome State Fault Refusal := .next (factoryEnterCmd h s)
def execFactoryExit (h : Cmd) (s : State) : Host.Outcome State Fault Refusal := .next (factoryExitCmd h s)
def execLogRead (h : Cmd) (s : State) : Host.Outcome State Fault Refusal := .next (logCmd h s)

end Sys2Proof.Machine
end

