-- ==== Sys2Proof/Machine/Hooks.lean ====
section
/-! DEFINITION. The test hooks of die links and UCIe modules: PRBS31 generators and checkers, far-end loopback and sampling phase
(spec/08_die_links_and_discovery.md R263). A private instruction of the test access port works them, in factory test mode only. -/

namespace Sys2Proof.Machine

/-- A lane's own number among all lanes with hooks. -/
def laneKey : TestLane → Nat
  | .jxl n port group lane => ((n * 6 + port) * 256 + group) * 128 + lane
  | .uci k m lane => 2 ^ 24 + (k * 8 + m) * 128 + lane

/-- The next bit of PRBS31, 1 + x^28 + x^31, after the last 31 bits `h`, the latest in bit 0 (log entry 811). -/
def prbsBit (h : Nat) : Bool := bitOf h 27 ^^ bitOf h 30

/-- The last 31 bits after one more. -/
def prbsPush (h : Nat) (b : Bool) : Nat := (2 * h + b2n b) % 2 ^ 31

/-- The next bits of a generator, and its state after them. -/
def prbsRun : Nat → Nat → List Bool × Nat
  | 0, h => ([], h)
  | n + 1, h =>
    let r := prbsRun n (prbsPush h (prbsBit h))
    (prbsBit h :: r.1, r.2)

/-- A checker takes a bit: once it has seen 31 it counts each that is not the one PRBS31 gives. -/
def prbsCheck (x : Hook) (b : Bool) : Hook :=
  { x with hist := prbsPush x.hist b, seen := min 31 (x.seen + 1)
           errors := if x.seen = 31 ∧ b ≠ prbsBit x.hist then x.errors + 1 else x.errors }

def updHook (l : TestLane) (f : Hook → Hook) (s : State) : State :=
  { s with test := { s.test with hooks := Mp.upd {} s.test.hooks (laneKey l) f } }

/-- Works a hook. -/
def runHook (h : TestHook) (s : State) : State :=
  match h with
  | .generate l seed => updHook l (fun x => { x with gen := seed % 2 ^ 31 }) s
  | .send l n =>
    let g := (Mp.get {} s.test.hooks (laneKey l)).gen
    if g = 0 then s
    else
      let r := prbsRun n g
      emit (.prbs l r.1) (updHook l (fun x => { x with gen := r.2 }) s)
  | .check l bits => updHook l (fun x => bits.foldl prbsCheck x) s
  | .loopback n port on =>
    let r := s.test.loops.filter (· != 8 * n + port)
    { s with test := { s.test with loops := if on then (8 * n + port) :: r else r } }
  | .phase l step => updHook l (fun x => { x with phase := max (-32) (min 32 step) }) s

end Sys2Proof.Machine
end

