-- ==== Sys2Proof/Machine/Calib.lean ====
section
/-! DEFINITION. Calibration and the test access port (spec/18_calibration_and_test.md R460 to R471). -/

namespace Sys2Proof.Machine

/-! ## Calibrations (R460 to R465) -/

/-- The codes and instances of a unit, in order (R461). -/
def calList (u : Nat) : List (Nat × Nat) :=
  let n (code k : Nat) : List (Nat × Nat) := (List.range k).map (fun i => (code, i))
  (1, 0) :: (if 1 ≤ u ∧ u ≤ 4 then n 0x10 6 ++ n 0x11 32
    else if 8 ≤ u ∧ u < 20 then n 0x30 16
    else if 32 ≤ u ∧ u < 48 then (0x20, 0) :: (0x21, 6) :: (0x21, 7) :: n 0x22 8
    else [])

def calKey (u code inst : Nat) : Nat := u * 2 ^ 24 + code * 2 ^ 16 + inst

/-- The precondition of a run (R461). -/
def calReady (s : State) (u code inst : Nat) : Bool :=
  let port : Nat := if u ≤ 4 then 32 * (u - 1) + inst else 8 * (u - 32) + inst
  if code = 0x10 then jxlState s (u - 1) inst == 3
  else if code = 0x11 then portState s port == 5
  else if code = 0x20 then fget s (rPRG_FF_CTRL (u - 32)) fPRG_FF_CTRL_EN == 1
  else if code = 0x21 then portState s port == 5 && ownPam4 s port
  else if code = 0x22 then lineState s (u - 32) inst == 3
  else if code = 0x30 then coreState s (16 * (u - 8) + inst) == 0 && (coreOf s (16 * (u - 8) + inst)).bindTo.isNone
  else true

/-- The code of R191 of a unit's die, for PATH_LOST. -/
def unitCode (u : Nat) : Nat := if u = 0 then 64 else if u ≤ 4 then 15 + u else if u < 20 then u - 8 else u + 48

/-- The parameter fields of opcode 0x700, which of them are out of range, and its effect (R366). -/
def calRunFields : List (Nat × Nat) := [(0, 1), (1, 1), (2, 2)]
def calRunBad (s : State) : List Byte → Nat → List (Nat × Bool) := fun ps _ =>
    let u := leAt ps 0 1
    let c := leAt ps 1 1
    [(0, !unitUp s u), (1, decide (c < 0x80) && !(calList u).any (fun p => p.1 == c)),
     (2, decide (c < 0x80) && !(calList u).contains (c, leAt ps 2 2))]
def calRunBody : List Byte → Nat → State → Ans := fun ps _ s =>
    let u := leAt ps 0 1
    let c := leAt ps 1 1
    let i := leAt ps 2 2
    if u ≠ 0 ∧ !dieOk s (unitCode u) then .no rsPathLost (unitCode u) s
    else if 0x80 ≤ c ∧ !factoryPerm s 2 then .no rsFactoryOnly 0 s
    else if !calReady s u c i then .no rsState 0 s
    else .wait [u] c i 0 0 (if c = 0x10 then retrain (u - 1) i s
      else if c = 0x30 then dieClocks (u - 8) (fset (rCLK_CORE_FREQ (u - 8) i) fCLK_CORE_FREQ_ON 1 s) else s)
/-- CAL_RUN: the run is under way until CALIBRATION_COMPLETE; a die link retrains for it (R237), and a sleeping core is woken for
DROOP. -/
def calRunCmd (h : Cmd) (s : State) : State :=
  runCmd h 0x700 true calRunFields (calRunBad s) calRunBody s

/-- Puts a result in use where a register shows it. -/
def calApply (u code inst : Nat) (v : Word32) (s : State) : State :=
  if code = 0x11 then regPut (rFLK_PORT_TSCAL (u - 1) inst) (v.setWidth 64) s
  else if code = 0x20 then
    fset (rPRG_FF_CTRL (u - 32)) fPRG_FF_CTRL_GAIN (fieldOf v.toNat 12 12)
      (fset (rPRG_FF_CTRL (u - 32)) fPRG_FF_CTRL_TAU (fieldOf v.toNat 0 12) s)
  else if code = 0x21 then pam4Write (u - 32) inst v s
  else s

/-- A DROOP run is over: its core sleeps again (R461). -/
def droopOver (u code inst : Nat) (s : State) : State := if code = 0x30 then regPut (rCLK_CORE_FREQ (u - 8) inst) 0#64 s else s

/-- A run ends (R462): within its limits it is applied; a run whose precondition has gone was interrupted, but DROOP, which a
binding waits for (R465). For a run
outside its limits `value` is the result code, 2 where nothing could be measured. -/
def calDone (u code inst : Nat) (within : Bool) (v : Word32) (s0 : State) : State :=
  match s0.waits.find? (fun w => w.op == 0x700 && w.keys == [u] && w.a == code && w.b == inst) with
  | none => s0
  | some w =>
    let s := droopOver u code inst s0
    let key := calKey u code inst
    let put (f : Cal → Cal) (s : State) : State := { s with cals := Mp.upd {} s.cals key f }
    if code ≠ 0x10 ∧ code ≠ 0x30 ∧ !calReady s u code inst then
      answerWait w rsState 4 (colNow s) [] (put (fun c => { c with result := 4 }) s)
    else if !within then
      let r := if code = 0x20 ∧ v = 2#32 then 2 else 3
      answerWait w rsState r (colNow s) [] (put (fun c => { c with result := r }) s)
    else
      let n := min (2 ^ 32 - 1) ((Mp.get {} s.cals key).count + 1)
      answerWait w 0 n (colNow s) [] (calApply u code inst v (put (fun _ => ⟨1, n, stampAt s (unitDie u)⟩) s))

/-- The parameter fields of opcode 0x701, which of them are out of range, and its effect (R366). -/
def calStatusFields : List (Nat × Nat) := [(0, 1)]
def calStatusBad (s : State) : List Byte → Nat → List (Nat × Bool) := fun ps _ => [(0, !unitUp s (leAt ps 0 1))]
def calStatusBody : List Byte → Nat → State → Ans := fun ps _ s =>
    let u := leAt ps 0 1
    let l := calList u
    .ok l.length (l.flatMap (fun p =>
      let c := Mp.get {} s.cals (calKey u p.1 p.2)
      leFields [(1, p.1), (1, c.result), (2, p.2), (4, c.count), (8, c.tLast)])) s
def calStatusCmd (h : Cmd) (s : State) : State :=
  runCmd h 0x701 false calStatusFields (calStatusBad s) calStatusBody s

/-! ## The test access port (R469 to R471) -/

/-- Loads an instruction; leaving EXTEST gives the pins back. -/
def tapLoad (i cells : Nat) (s : State) : State :=
  let was := s.test.tap
  let s := { s with test := { s.test with tap := i, cells := cells } }
  let s := fset rMGT_TAP_STATUS fMGT_TAP_STATUS_EXTEST (b2n (i == 3)) (fset rMGT_TAP_STATUS fMGT_TAP_STATUS_PRIVATE (b2n (i == 4)) s)
  if was = 3 ∧ i ≠ 3 then showFault s else s

/-- The identification code (R469). -/
def idCode (s : State) : Nat :=
  let d := (regVal s rMGT_DEVICE_ID).toNat
  fieldOf d 4 4 * 2 ^ 28 + fieldOf d 16 16 * 2 ^ 12 + 0x4D9 * 2 + 1

/-- The die of bit 4n + i of MGT_TAP_STATUS.DIES. -/
def tapDie (b : Nat) : Nat := if b % 4 = 0 then 16 + b / 4 else 3 * (b / 4) + b % 4 - 1

/-- A private instruction opens die-stack access to the dies named (R471), and may work a test hook (R263). -/
def tapPrivate (dies : Nat) (hook : Option TestHook) (s : State) : State :=
  if !factoryPerm s 3 then s
  else
    let l := (List.range 16).filter (fun b => bitOf dies b && isUnitCode s (tapDie b))
    let s := tapLoad 4 s.test.cells s
    let s := l.foldl (fun s b => fenceStart (tapDie b) 7 (fsetBit rMGT_TAP_STATUS fMGT_TAP_STATUS_DIES b true s)) s
    let s := if l = [] then s else fset rMGT_TAP_STATUS fMGT_TAP_STATUS_STACK_OPEN 1 s
    let s := fset rSEC_BOOT_STATUS fSEC_BOOT_STATUS_DEBUG 1 s
    match hook with
    | none => s
    | some h => runHook h s

/-- TRST_N resets the test access port only (R394). -/
def tapReset (s : State) : State := regPut rMGT_TAP_STATUS 0#64 (tapLoad 0 s.test.cells s)

def execCalRun (h : Cmd) (s : State) : Host.Outcome State Fault Refusal := .next (calRunCmd h s)
def execCalStatus (h : Cmd) (s : State) : Host.Outcome State Fault Refusal := .next (calStatusCmd h s)
def execCalibrationComplete (unit code inst : Nat) (within : Bool) (value : Word32) (s : State) :
    Host.Outcome State Fault Refusal := .next (calDone unit code inst within value s)
def execExtest (pins : Nat) (s : State) : Host.Outcome State Fault Refusal := .next (tapLoad 3 pins s)
def execIdcode (s : State) : Host.Outcome State Fault Refusal := .next (emit (.tap (idCode s)) (tapLoad 0 s.test.cells s))
def execBypass (s : State) : Host.Outcome State Fault Refusal := .next (tapLoad 1 s.test.cells s)
def execSamplePreload (pins : Nat) (s : State) : Host.Outcome State Fault Refusal :=
  .next (emit (.tap pins) (tapLoad 2 pins s))
def execPrivateTestInstruction (dies : TapOrder) (s : State) : Host.Outcome State Fault Refusal :=
  .next (tapPrivate dies.dies dies.hook s)
def execTrstN (s : State) : Host.Outcome State Fault Refusal := .next (tapReset s)

end Sys2Proof.Machine
end

