-- ==== Sys2Proof/Machine/Cairn.lean ====
section
/-! DEFINITION. The Cairn metrology unit and the apportionment of its energy (spec/17_cairn_metrology.md R443 to R459). -/

namespace Sys2Proof.Machine

def updCrn (f : Crn → Crn) (s : State) : State := { s with crn := f s.crn }

/-- The interval of a code in seconds (R447). -/
def intervalS (code : Nat) : Nat :=
  if code = 0 then 1 else if code = 1 then 10 else if code = 2 then 60 else if code = 3 then 300 else 900

/-- Records the store holds (R453). -/
def storeSize : Nat := 131072

/-! ## Records (R449, R450) -/

/-- The fields of a record that differ from one to the next. -/
structure CairnRec where
  type : Nat
  event : Nat
  flags : Nat
  tStart : Nat
  tEnd : Nat
  dur : Nat
  iMax : Nat
  eInt : Nat
  vMin : Nat
  vMax : Nat
  deriving DecidableEq, Repr

/-- The signed bytes of a record. -/
def recordBody (r : CairnRec) (c : Crn) : List Byte :=
  let flags := r.flags + (if c.lost then 1 else 0) + (if c.tamper = 0 then 0 else 16)
  leFields [(2, 0x4E43), (1, 1), (1, r.type), (2, r.event), (2, intervalS c.code), (8, c.recno + 1)] ++ fit 16 c.serial
    ++ leFields [(4, c.incarnation), (4, flags), (8, r.tStart), (8, r.tEnd), (4, r.dur), (4, r.iMax), (8, r.eInt), (8, c.eCum),
      (4, r.vMin), (4, r.vMax), (4, c.tamper), (4, c.param), (4, c.pwrfail), (4, c.overwrite), (8, 0)]
    ++ fit 32 Config.cairnDigest ++ (if c.recno = 0 then List.replicate 32 0#8 else digest c.signed)

/-- Signs and stores a record; whether an unacknowledged one gave way to it (R453). -/
def storeRecord (r : CairnRec) (c : Crn) : Crn × Bool :=
  let body := recordBody r c
  let n := c.recno + 1
  let isOver := decide (storeSize < n ∧ c.ack < n - storeSize)
  ({ c with store := Mp.ins (c.store.filter (fun p => decide (n < p.1 + storeSize))) n (body ++ signed cxRec (Config.secret 1) body)
            recno := n, signed := body, overwrite := c.overwrite + b2n isOver }, isOver)

/-- The Cairn's copy of Crest after so many µs of the interval (R454). -/
def cairnNow (c : Crn) (us : Nat) : Nat := c.crest + 4000 * (us - c.dur)

/-- An event record: what it measures is not stated by the event that causes it, and E_CUM has gone on. -/
def eventRec (event t : Nat) (s : State) : CairnRec :=
  ⟨2, event, 0, t, t, 0, freeVal 51 s % 2 ^ 32, 0, freeVal 52 s % 2 ^ 32, freeVal 53 s % 2 ^ 32⟩

/-- Puts a record away; overwriting an unacknowledged record writes STORE_OVERWRITE once. -/
def putCairn (r : CairnRec) (s : State) : State :=
  let q := storeRecord r s.crn
  let s := { s with crn := q.1 }
  if q.2 then nextFree { s with crn := (storeRecord (eventRec 9 r.tEnd s) s.crn).1 } else s

/-- An event (R451) at the Cairn's present time. -/
def cairnEvent (event t : Nat) (s : State) : State :=
  let s := updCrn (fun c => { c with eCum := c.eCum + freeVal 50 s }) s
  nextFree (putCairn (eventRec event t s) s)

/-! ## Apportionment (R456, R457) -/

/-- The weight of a resource: cores, granules and ports by their numbers. -/
def resWeight (w : List Nat) (res : Nat) : Nat := (w[res / 4096]?).getD 0

/-- Resources of a kind in the grade. -/
def resCount (s : State) (kind : Nat) : Nat := if kind = 0 then nCores s else if kind = 1 then 384 * nRidges s else nPorts s

/-- W_TOTAL. -/
def wTotal (s : State) : Nat :=
  let w := s.crn.weights
  ((List.range 3).map (fun k => (w[k]?).getD 0 * resCount s k)).foldl (· + ·) 0 + (w[3]?).getD 0

/-- Resources of a kind that a tenant other than 0 holds. -/
def heldCount (m : Mp Nat) (kind tenant : Nat) : Nat := (m.filter (fun p => p.1 / 4096 == kind && p.2 == tenant)).length

/-- Resources of a kind that a tenant holds; tenant 0 holds what no other does. -/
def heldOf (s : State) (m : Mp Nat) (kind tenant : Nat) : Nat :=
  if tenant = 0 then resCount s kind - (m.filter (fun p => p.1 / 4096 == kind)).length else heldCount m kind tenant

/-- One stretch of unchanged holders. -/
structure Span where
  t0 : Nat
  t1 : Nat
  m : Mp Nat
  deriving DecidableEq, Repr

/-- The stretches of an interval, cut at the changes within it. -/
def spansOf (t1 : Nat) : Nat → Mp Nat → List Held → List Span
  | t0, m, [] => if t0 < t1 then [⟨t0, t1, m⟩] else []
  | t0, m, h :: r =>
    let m' := Mp.put 0 m h.res h.tenant
    if h.t ≤ t0 then spansOf t1 t0 m' r
    else if t1 ≤ h.t then (if t0 < t1 then [⟨t0, t1, m⟩] else [])
    else ⟨t0, h.t, m⟩ :: spansOf t1 h.t m' r

/-- The counts a tenant holds in a stretch. -/
def countsIn (s : State) (tenant : Nat) (m : Mp Nat) : Nat × Nat × Nat := (heldOf s m 0 tenant, heldOf s m 1 tenant, heldOf s m 2 tenant)

/-- A tenant's epochs: stretches joined while its bound set stands. -/
def epochsOf (tenant : Nat) : List Span → List Span
  | [] => []
  | [a] => [a]
  | a :: b :: r =>
    if a.m.filter (fun p => if tenant = 0 then true else p.2 == tenant) = b.m.filter (fun p => if tenant = 0 then true else p.2 == tenant) then
      match epochsOf tenant (b :: r) with
      | x :: l => ⟨a.t0, x.t1, x.m⟩ :: l
      | [] => [a]
    else a :: epochsOf tenant (b :: r)

/-- One entry: tenant, epoch, key, floor share, counts. -/
def entryOf (s : State) (tenant e dt : Nat) (x : Span) : Nat × Nat × Nat × Span :=
  let w := s.crn.weights
  let n := countsIn s tenant x.m
  let rate := (w[0]?).getD 0 * n.1 + (w[1]?).getD 0 * n.2.1 + (w[2]?).getD 0 * n.2.2 + (if tenant = 0 then (w[3]?).getD 0 else 0)
  let key := rate * (x.t1 - x.t0)
  (tenant, key, e * key / (wTotal s * dt), x)

/-- The 64 bytes of an entry. -/
def entryBytes (s : State) (recno energy rem : Nat) (x : Nat × Nat × Nat × Span) : List Byte :=
  let n := countsIn s x.1 x.2.2.2.m
  leFields [(8, recno), (8, x.2.2.2.t0), (8, x.2.2.2.t1), (8, energy), (16, x.2.1), (4, wTotal s), (2, n.1), (2, n.2.1), (1, n.2.2),
    (1, rem), (6, 0)]

/-- The entries of an interval record: tenant 0's last epoch takes the remainder. -/
def apportionRecord (recno e t0 t1 : Nat) (s : State) : List (Nat × List Byte) :=
  let spans := spansOf t1 t0 s.crn.holders (s.crn.changes.mergeSort (fun a b => decide (a.t ≤ b.t)))
  let tenants := (List.range 64).filter (fun t => t == 0 || spans.any (fun x => x.m.any (fun p => p.2 == t)))
  let raw := tenants.flatMap (fun t => ((epochsOf t spans).map (entryOf s t e (t1 - t0))).filter (fun x => t == 0 || x.2.1 != 0))
  let rest := e - (raw.map (fun x => x.2.2.1)).foldl (· + ·) 0
  let last := ((raw.filter (fun x => x.1 == 0)).map (fun x => x.2.2.2.t0)).foldl max 0
  raw.map (fun x =>
    let takes := x.1 == 0 && x.2.2.2.t0 == last
    (x.1, entryBytes s recno (x.2.2.1 + (if takes then rest else 0)) (b2n takes) x))

/-- The holders once every change up to a time is made. -/
def holdersAt (t : Nat) (c : Crn) : Mp Nat :=
  (c.changes.filter (fun h => decide (h.t ≤ t))).foldl (fun m h => Mp.put 0 m h.res h.tenant) c.holders

/-- The weights in force now. -/
def weightsNow (s : State) : List Nat := (List.range 4).map (fun w => fget s (rCRN_APW w) fCRN_APW_WEIGHT)

/-! ## Intervals (R447, R448, R454) -/

/-- Closes the interval at a time with extra flags; the next one begins at `t2`, and its weights are those in force then. -/
def closeInterval (flags t1 t2 : Nat) (m : Meter) (s : State) : State :=
  let t0 := s.crn.tStart
  let s := updCrn (fun c => { c with eCum := max c.eCum (c.eLast + m.energyMj) }) s
  let e := s.crn.eCum - s.crn.eLast
  let s := putCairn ⟨1, 0, flags + (if 160000 < m.iMax then 2 else 0), t0, t1, m.durUs, m.iMax, e, m.vMin, m.vMax⟩ s
  let recno := s.crn.recno
  let s := if s.crn.apportioned ∧ s.ready then updCrn (fun c => { c with entries := c.entries ++ apportionRecord recno e t0 t1 s }) s else s
  let w := weightsNow s
  let up := s.boot.up
  let s := updCrn (fun c => { c with
    eLast := c.eCum, tStart := t2, crest := t2, dur := 0, holders := holdersAt t1 c
    changes := c.changes.filter (fun h => decide (t1 < h.t)), weights := w, apportioned := up }) s
  match s.crn.want with
  | some k =>
    if k = s.crn.code then updCrn (fun c => { c with want := none }) s
    else cairnEvent 4 t2 (updCrn (fun c => { c with want := none, code := k, param := c.param + 1 }) s)
  | none => s

/-- The interval ends by the Cairn's own clock. -/
def intervalEnd (m : Meter) (s : State) : State :=
  if !s.crn.supply then s
  else
    let t := cairnNow s.crn m.durUs
    closeInterval 0 t t m s

/-- The supply falls below 20 V: the interval closes with POWER_DOWN and SHORT (R459). -/
def supplyLoss (m : Meter) (s : State) : State :=
  if !s.crn.supply then s
  else
    let t := cairnNow s.crn m.durUs
    updCrn (fun c => { c with supply := false }) (closeInterval 12 t t m s)

/-- The seal counter and record of an opened cover. -/
def coverRecord (s : State) : State := cairnEvent 2 s.crn.crest (updCrn (fun c => { c with tamper := c.tamper + 1 }) s)

/-- The supply returns. -/
def supplyUp (s : State) : State :=
  if s.crn.supply then s
  else
    let n := s.crn.covers
    let s := updCrn (fun c => { c with supply := true, pwrfail := c.pwrfail + 1, covers := 0 }) s
    iter coverRecord n (cairnEvent 1 s.crn.crest s)

/-- The cover opens; on hold-up power the record follows POWER_UP (R459). -/
def coverOpens (s : State) : State :=
  if s.crn.supply then coverRecord s else updCrn (fun c => { c with covers := c.covers + 1 }) s

def magneticField (s : State) : State :=
  if s.crn.supply then cairnEvent 3 s.crn.crest (updCrn (fun c => { c with tamper := c.tamper + 1 }) s) else s

/-- No Crest value for 10 ms (R454). -/
def crestGone (s : State) : State :=
  if s.crn.supply ∧ !s.crn.lost then cairnEvent 5 s.crn.crest (updCrn (fun c => { c with lost := true }) s) else s

/-- A Crest value and the module's incarnation arrive: a step or a new incarnation closes the interval short, at the copy's last value,
extrapolated or not (R447, R454); one that has only just begun is not closed again (R459). -/
def crestCome (m : Meter) (s : State) : State :=
  if !s.crn.supply ∨ !s.boot.up ∨ !s.crestRun then s
  else
    let v := stampAt s 64
    let inc := fget s rFLK_INCARNATION fFLK_INCARNATION_INCARNATION
    let back := s.crn.lost
    let copy := cairnNow s.crn m.durUs
    let step := decide (4000 < v - copy ∨ 4000 < copy - v)
    let new := inc != s.crn.incarnation
    let s := if (step || new) && m.durUs != 0 then closeInterval 8 copy (if step then v else copy) m s
      else updCrn (fun c => { c with dur := m.durUs, tStart := if step then v else c.tStart }) s
    let s := if back then cairnEvent 6 v (updCrn (fun c => { c with lost := false }) s) else s
    let s := updCrn (fun c => { c with crest := v, incarnation := inc }) s
    let s := if step then cairnEvent 7 v s else s
    if new then cairnEvent 8 v s else s

/-! ## Registers and commands (R453, R457) -/

/-- CRN_ACK only rises. -/
def raiseAck (v : Nat) (s : State) : State := updCrn (fun c => { c with ack := max c.ack v }) s

/-- CRN_INTERVAL takes the codes 0 to 4, at the end of the interval in progress. -/
def askInterval (code : Nat) (s : State) : State := if code ≤ 4 then updCrn (fun c => { c with want := some code }) s else s

/-- The parameter fields of opcode 0xA00, which of them are out of range, and its effect (R366). -/
def cairnRecordFields : List (Nat × Nat) := [(0, 8)]
def cairnRecordBad : List Byte → Nat → List (Nat × Bool) := fun _ _ => []
def cairnRecordBody : List Byte → Nat → State → Ans := fun ps _ s => match Mp.find s.crn.store (leAt ps 0 8) with
    | some r => .ok 0 r s
    | none => .no rsNotFound 0 s
def cairnRecordCmd (h : Cmd) (s : State) : State :=
  runCmd h 0xA00 false cairnRecordFields cairnRecordBad cairnRecordBody s

/-- The parameter fields of opcode 0xA01, which of them are out of range, and its effect (R366). -/
def cairnStatusFields : List (Nat × Nat) := []
def cairnStatusBad : List Byte → Nat → List (Nat × Bool) := fun _ _ => []
def cairnStatusBody : List Byte → Nat → State → Ans := fun _ _ s =>
    .ok 0 (leFields [(4, s.crn.tamper), (4, s.crn.param), (4, s.crn.pwrfail), (4, s.crn.overwrite)]) s
/-- CAIRN_STATUS: the seal counters and OVERWRITE_COUNT in the order of R449. -/
def cairnStatusCmd (h : Cmd) (s : State) : State :=
  runCmd h 0xA01 false cairnStatusFields cairnStatusBad cairnStatusBody s

/-- The parameter fields of opcode 0xA02, which of them are out of range, and its effect (R366). -/
def apportionFields : List (Nat × Nat) := [(0, 8), (8, 4)]
def apportionBad : List Byte → Nat → List (Nat × Bool) := fun _ _ => []
def apportionBody (h : Cmd) : List Byte → Nat → State → Ans := fun ps tn s =>
    let mine := (s.crn.entries.filter (fun e => e.1 == tn)).map (·.2)
    let from0 := mine.dropWhile (fun b => decide (leAt b 8 8 < leAt ps 0 8))
    let n := min (leAt ps 8 4) (eDataLen h.entry / 64)
    .ok 0 ((from0.take n).flatten) s
def apportionCmd (h : Cmd) (s : State) : State :=
  runCmd h 0xA02 false apportionFields apportionBad (apportionBody h) s

def execIntervalClose (m : Meter) (s : State) : Host.Outcome State Fault Refusal := .next (intervalEnd m s)
def execPowerUp (s : State) : Host.Outcome State Fault Refusal := .next (supplyUp s)
def execCairnSupplyLoss (m : Meter) (s : State) : Host.Outcome State Fault Refusal := .next (supplyLoss m s)
def execCoverOpen (s : State) : Host.Outcome State Fault Refusal := .next (coverOpens s)
def execMagnetic (s : State) : Host.Outcome State Fault Refusal := .next (magneticField s)
def execCairnCrestValue (m : Meter) (s : State) : Host.Outcome State Fault Refusal := .next (crestCome m s)
def execCrestLost (s : State) : Host.Outcome State Fault Refusal := .next (crestGone s)
def execCairnRecord (h : Cmd) (s : State) : Host.Outcome State Fault Refusal := .next (cairnRecordCmd h s)
def execCairnStatus (h : Cmd) (s : State) : Host.Outcome State Fault Refusal := .next (cairnStatusCmd h s)
def execApportion (h : Cmd) (s : State) : Host.Outcome State Fault Refusal := .next (apportionCmd h s)

end Sys2Proof.Machine
end

