-- ==== Sys2Proof/Machine/Regs.lean ====
section
/-! DEFINITION. Reading and writing the device control space and the functions' BAR0 (spec/00_scope.md R8 to R15;
spec/12_host_interface_and_melhal.md R344, R345, R366; spec/14_reset_and_bringup.md R408): what each access code does, the
shadows of 64-bit registers, registers that show a count, and what a write sets off. -/

namespace Sys2Proof.Machine

/-! ## Units (R8, R9) -/

/-- Whether an address lies in a populated unit. -/
def unitAssigned (s : State) (a : Nat) : Bool := decide (a < 2 ^ 32) && (a / 0x4000000 == 0x30 || unitUp s (a / 0x4000000))

/-- Whether a populated unit answers: it is neither fenced nor held in reset. -/
def unitAnswers (s : State) (u : Nat) : Bool :=
  s.boot.up && (u == 0 || u == 0x30 || (dieOk s (unitCode u) && s.boot.stable.contains
    (if u ≤ 4 then .base (u - 1) else if u < 20 then .compute (u - 8) else .porger (u - 32))))

/-- The word of the retained SRAM at an address (R408). -/
def sramWord (a : Nat) : Option Nat := if 0x194000 ≤ a ∧ a < 0x198000 then some ((a - 0x194000) / 4) else none

/-! ## What a register shows (R13) -/

/-- The levels in force: bits of sources that R432 does not list read zero. -/
def listedLevels (u b base v : Nat) : Nat :=
  packBits 2 ((List.range 16).map fun i => if (srcInfo u b (base + i)).isSome then fieldOf v (2 * i) 2 else 0)

/-- COLLECTIVE tasks of a ridge that run, or that wait for their COLL_SEQ. -/
def collCount (s : State) (n : Nat) (started : Bool) : Nat :=
  ((allTasks s).filter (fun q => q.2.2.2.unit == n && q.2.2.2.st == tsRunning && (match q.2.2.2.coll with
    | some r => r.started == started
    | none => false))).length

/-- Whether an address holds what the Cairn itself keeps. -/
def cairnHeld (a : Nat) : Bool :=
  a == rCRN_INTERVAL || a == rCRN_LAST_RECNO || a == rCRN_ACK || a == rCRN_COUNTS

/-- Registers of the Cairn interface. -/
def viewCairn (a : Nat) (s : State) : Nat :=
  let c := s.crn
  if a = rCRN_STATUS then
    b2n c.supply * 2 ^ 31 + b2n (c.supply && c.incarnation != 0 && !c.lost) * 2 ^ 30 + b2n (c.tamper != 0) * 2 ^ 29
      + b2n (decide (storeSize ≤ c.recno - c.ack)) * 2 ^ 28 + fget s a fCRN_STATUS_REPLACED * 2 ^ 27
  else if a = rCRN_INTERVAL then c.want.getD c.code
  else if a = rCRN_LAST_RECNO then c.recno
  else if a = rCRN_ACK then c.ack
  else if a = rCRN_COUNTS then c.tamper % 65536 * 65536 + c.pwrfail % 65536
  else (regVal s a).toNat

/-- Registers of a base die that show a count. The single-bit errors a ridge cache has corrected in its line data (R155) come
from the array itself and from no command: how many there were since the last read is a free value. -/
def viewBase (n : Nat) (a : Nat) (s : State) : Nat :=
  let v := (regVal s a).toNat
  if a = rTSC_RIDGE_STATUS n then
    unitTasks s n % 8192 * 65536 + ((waitList s n).filter (fun w => ((headTask s w).map (·.kind)).getD 1 == 0)).length % 8192
  else if a = rMEM_RC_CTRL n then withField v 0 16 (freeVal 60 s)
  else if a = rDMA_TAGS n then withField v 15 15 (max (fieldOf v 15 15) (fieldOf v 0 15))
  else if a = rDMA_COLL_STATUS n then
    s.groups.length % 512 * 65536 + min 1023 (collCount s n false) * 64 + collCount s n true % 64
  else v

/-- Registers of the Col die that show a count or what is in use. -/
def viewCol (a : Nat) (s : State) : Nat :=
  let v := (regVal s a).toNat
  if a = rTSC_IN_USE then edgesInUse s none % 2 ^ 17 * 2 ^ 15 + tasksInUse s none % 2 ^ 15
  else if a = rFLT_FREC_STATUS then withField v 0 11 s.frecs.length
  else if a = rTRC_STATUS then withField v 0 13 (s.trecs.filter (·.bind)).length
  else if a = rCST_NOW then stampAt s 64 % 2 ^ 64
  else if a = rFLT_UNIT_PENDING then ((List.range 49).filter (fun u => unitAtLevel s u 1)).foldl (fun x u => x + 2 ^ u) 0
  else if rHST_TXEQ 0 ≤ a ∧ a ≤ rHST_TXEQ 7 ∧ !bitOf v 31 then coefInUse s ((a - rHST_TXEQ 0) / 4)
  else v

/-- What a register shows, all its bits; its fields of access WO read zero. -/
def viewReg (r : RegDesc) (a : Nat) (s : State) : Nat :=
  let u := a / 0x4000000
  let off := a % 0x4000000
  let v :=
    if u = 0x30 then viewCairn a s
    else if 0x3F00000 ≤ off then
      (let v := (regVal s a).toNat
       let b := (off - 0x3F00000) / 0x40
       if off < 0x3F00400 ∧ off % 0x40 = 4 then listedLevels u b 0 v
       else if off < 0x3F00400 ∧ off % 0x40 = 8 then listedLevels u b 16 v else v)
    else if u = 0 then viewCol a s
    else if u ≤ 4 then viewBase (u - 1) a s
    else if 32 ≤ u ∧ 0x1000 ≤ off ∧ off % 0x400 = 0x20 ∧ (off - 0x1000) / 0x400 < 6 then 0
    else (regVal s a).toNat
  r.fields.foldl (fun x f => if f.acc == .wo then withField x f.lo f.w 0 else x) v

/-! ## Reads (R9, R10, R13, R15) -/

/-- The fields that the read clears. -/
def clearRead (r : RegDesc) (a : Nat) (s : State) : State :=
  if r.fields.any (fun f => f.acc == .rc) then
    (r.fields.filter (fun f => f.acc == .rc)).foldl (fun s f => fset a ⟨f.lo, f.w⟩ 0 s) s
  else s

/-- Reads one word of a register; the low word of a 64-bit register captures the high one. -/
def readReg (r : RegDesc) (high : Bool) (a : Nat) (s : State) : Nat × State :=
  let base := if high then a - 4 else a
  if high then ((Mp.get 0#32 s.rdShadow base).toNat, s)
  else
    let free := cairnHeld base && !s.crn.supply
    let v := if free then freeVal 54 s % 2 ^ 64 else viewReg r base s
    let s := if free then nextFree s
      else if r.off = 0x200008 && r.kind == .bd then nextFree (clearRead r base s) else clearRead r base s
    (v % 2 ^ 32, if r.wide then { s with rdShadow := Mp.put 0#32 s.rdShadow base (BitVec.ofNat 32 (v / 2 ^ 32)) } else s)

/-- A read that reaches nothing. -/
def allOnes : Nat := 0xFFFFFFFF

/-- An access to an engine's unit travels as a sideband register message of module 0 of its site, or of module 1 if module 0's sideband
is down (R260). -/
def sideMsg (write : Bool) (a v : Nat) (s : State) : State :=
  let u := a / 0x4000000
  if 32 ≤ u ∧ u < 48 then emit (.uciReg (u - 32) (sideModule s (u - 32)) write (a % 0x4000000) v) s else s

/-- Reads a word of the device control space (R9). The access to a fenced or held unit leaves no record beyond the unit's own
state, which shows the cause (DESIGN CHOICE: the rule names no register for it; log entry 14). -/
def devRead (a : Nat) (s : State) : Nat × State :=
  if a % 4 ≠ 0 ∨ !unitAssigned s a then (allOnes, addrFault s)
  else if !unitAnswers s (a / 0x4000000) then (allOnes, s)
  else match sramWord a with
    | some w => ((Mp.get 0#32 s.sram w).toNat, s)
    | none => match findReg (a / 0x4000000) (a % 0x4000000) with
      | some (r, high) => readReg r high a (sideMsg false a 0 s)
      | none => (allOnes, addrFault s)

/-! ## Writes (R10, R11, R13, R384, R429, R437) -/

/-- A temperature within a range, or the old one. -/
def inRange (lo hi old new : Nat) : Nat := if lo ≤ new ∧ new ≤ hi then new else old

/-- The value that a written register takes where its table limits it. -/
def legalValue (a old v : Nat) : Nat :=
  let u := a / 0x4000000
  let off := a % 0x4000000
  if a = rTHM_CTRL then
    inRange 80 105 (fieldOf old 24 8) (fieldOf v 24 8) * 2 ^ 24 + inRange 90 110 (fieldOf old 16 8) (fieldOf v 16 8) * 2 ^ 16
      + inRange 75 95 (fieldOf old 8 8) (fieldOf v 8 8) * 2 ^ 8 + inRange 85 100 (fieldOf old 0 8) (fieldOf v 0 8)
  else if a = rTHM_BD_CTRL then inRange 80 105 (fieldOf old 0 8) (fieldOf v 0 8)
  else if 1 ≤ u ∧ u ≤ 4 ∧ off = 0x200004 then withField v 16 8 (max 1 (min 168 (fieldOf v 16 8)))
  else if 1 ≤ u ∧ u ≤ 4 ∧ off = 0x200008 then withField v 16 4 (min 8 (fieldOf v 16 4))
  else legalSeverity u off v

/-- Bits cleared by ones written. -/
def clearOnes (old v w : Nat) : Nat := packBits 1 ((List.range w).map (fun i => b2n (bitOf old i && !bitOf v i)))

/-- The value of a register after a write, field by field. -/
def writeFields (r : RegDesc) (old v : Nat) : Nat :=
  r.fields.foldl (fun x f => match f.acc with
    | .rw => withField x f.lo f.w (fieldOf v f.lo f.w)
    | .rws => withField x f.lo f.w (fieldOf v f.lo f.w)
    | .rw1c => withField x f.lo f.w (clearOnes (fieldOf old f.lo f.w) (fieldOf v f.lo f.w) f.w)
    | _ => x) old

/-- Sets again a RW1C bit outside the fault blocks whose condition stands (R13). -/
def standing (a : Nat) (s : State) : State :=
  let u := a / 0x4000000
  let off := a % 0x4000000
  if a = rPWR_STATUS then
    let s := if 48500 < s.pwr.vin then fset a fPWR_STATUS_OVERVOLT 1 s else s
    let s := if s.pwr.unreach then fset a fPWR_STATUS_CAP_UNREACHABLE 1 s else s
    if fget s a fPWR_STATUS_PHASES < (if s.fuses.a12 then 13 else 7) then fset a fPWR_STATUS_PHASE_LOST 1 s else s
  else if 8 ≤ u ∧ u < 20 ∧ off = 0x60000 ∧ s.pwr.hot.contains (u - 8) then fset a fTHM_CD_STATUS_THROTTLED 1 s
  else if 1 ≤ u ∧ u ≤ 4 ∧ off = 0x800000 ∧ s.pwr.hot.contains (15 + u) then fset a fTHM_BD_STATUS_THROTTLED 1 s
  else if 32 ≤ u ∧ u < 48 ∧ off = 0x104 then
    let s := if (porgerOf s (u - 32)).warn then fset a fPRG_LASER_EVT_WARN 1 s else s
    if (List.range 8).any (fun p => lineState s (u - 32) p == 6) then fset a fPRG_LASER_EVT_LASER_LOST 1 s else s
  else if 32 ≤ u ∧ u < 48 ∧ 0x1000 ≤ off ∧ off % 0x400 = 8 ∧ losBits s (u - 32) ((off - 0x1000) / 0x400) ≠ 0 then
    fset a fPRG_PORT_EVT_LOS 1 s
  else s

/-- After sticky bits of a block are cleared: FLT_FIRST_b is released with the last one, and conditions that hold occur again
(R429). -/
def stickyCleared (u b old : Nat) (s : State) : State :=
  let now := fget s (rFLT_STATUS u b) fFLT_STATUS_STICKY
  let s := if now = 0 then regPut (rFLT_FIRST u b) 0#64 (regPut (rFLT_FIRST_T u b) 0#64 s) else s
  (List.range 32).foldl (fun s i => if bitOf old i && !bitOf now i && condHolds s u b i then occurs u b i s else s) s

/-- Writes a register by the access codes of its fields. -/
def writePlain (r : RegDesc) (a v : Nat) (s : State) : State :=
  let u := a / 0x4000000
  let off := a % 0x4000000
  let old := (regVal s a).toNat
  let s := standing a (regPut a (BitVec.ofNat 64 (writeFields r old (legalValue a old v))) s)
  if 0x3F00000 ≤ off ∧ off < 0x3F00400 ∧ off % 0x40 = 0 then stickyCleared u ((off - 0x3F00000) / 0x40) old s
  else if a = rFLT_CTRL then (if s.pulse then s else showFault s)
  else s

/-- Commits a write to a register. -/
def commitReg (r : RegDesc) (a v : Nat) (s : State) : State :=
  let w := BitVec.ofNat 32 v
  let u := a / 0x4000000
  let off := a % 0x4000000
  if a = rRST_CTRL then writeRstCtrl w s
  else if a = rRST_HOLD_CD then writeHold w s
  else if a = rFLT_SAFE_INFO then writeSafeInfo w s
  else if a = rCRN_ACK then (if s.crn.supply then raiseAck v s else s)
  else if a = rCRN_INTERVAL then (if s.crn.supply then askInterval (v % 8) s else s)
  else if 32 ≤ u ∧ u < 48 ∧ off = 0x108 then switchGo (u - 32) w s
  else if 32 ≤ u ∧ u < 48 ∧ 0x1000 ≤ off ∧ off < 0x3000 ∧ off % 0x400 = 0x10 then injectOne (u - 32) ((off - 0x1000) / 0x400) w s
  else if 32 ≤ u ∧ u < 48 ∧ 0x1000 ≤ off ∧ off < 0x3000 ∧ off % 0x400 = 0x20 then pam4Write (u - 32) ((off - 0x1000) / 0x400) w s
  else writePlain r a v s

/-- Writes one word of a register: the high word of a 64-bit register waits in its write shadow for the low one. -/
def writeReg (r : RegDesc) (high : Bool) (a : Nat) (v : Word32) (s : State) : State :=
  if high then { s with wrShadow := Mp.put 0#32 s.wrShadow (a - 4) v }
  else if r.wide then commitReg r a (v.toNat + (Mp.get 0#32 s.wrShadow a).toNat * 2 ^ 32) s
  else commitReg r a v.toNat s

/-- Writes a word of the device control space (R9; log entry 14). -/
def devWrite (a : Nat) (v : Word32) (s : State) : State :=
  if a % 4 ≠ 0 ∨ !unitAssigned s a then addrFault s
  else if !unitAnswers s (a / 0x4000000) then s
  else match sramWord a with
    | some w => { s with sram := Mp.put 0#32 s.sram w v }
    | none => match findReg (a / 0x4000000) (a % 0x4000000) with
      | some (r, high) => writeReg r high a v (sideMsg true a v.toNat s)
      | none => addrFault s

/-! ## BAR0 (R344, R345) -/

/-- The address by which the model names an offset in a function's BAR0. -/
def barAddr (fn off : Nat) : Nat := 2 ^ 32 + fn * 2 ^ 23 + off

/-- The device control address that an offset of the management window reaches. -/
def windowAddr (s : State) (x : Nat) : Nat := (fnOf s 0).winBase * 0x400000 + (x - 0x400000)

/-- HST_QPB_CFG as it reads. -/
def qpbCfg (s : State) (fn : Nat) : Nat :=
  let x := fnOf s fn
  let bad := match qpLocal s fn 0 with
    | some q => (qpOf s q).error
    | none => false
  b2n (qpbEnabled s fn) * 2 ^ 31 + b2n bad * 2 ^ 30 + (if 4 ≤ x.log2 ∧ x.log2 ≤ 12 then x.log2 else 4) * 2 ^ 16
    + x.modc % 256 * 2 ^ 8 + x.vector % 32

/-- HST_FN_STATUS as it reads. -/
def fnStatus (s : State) (fn : Nat) : Nat := (qpsOf s fn).length * 65536 + fn % 64 * 256 + b2n s.ready

/-- A request of the host to the device control space: one that is not a single whole dword is an address fault (R9). -/
def wholeRead (whole : Bool) (a : Nat) (s : State) : Nat × State := if whole then devRead a s else (allOnes, addrFault s)
def wholeWrite (whole : Bool) (a : Nat) (v : Word32) (s : State) : State := if whole then devWrite a v s else addrFault s

/-- Reads a word of a function's BAR0. -/
def barRead (whole : Bool) (fn off : Nat) (s : State) : Nat × State :=
  let x := fnOf s fn
  if !fnEnabled s fn ∨ 63 < fn ∨ (fn ≠ 0 ∧ 0x20000 ≤ off) then (allOnes, s)
  else if fn = 0 ∧ 0x400000 ≤ off then wholeRead whole (windowAddr s off) s
  else if off % 4 ≠ 0 ∨ !whole then (0, s)
  else if off = 0 then (fnStatus s fn, s)
  else if off = 8 then (x.cmdBase % 2 ^ 32, setFn fn { x with rdCmd := x.cmdBase / 2 ^ 32 } s)
  else if off = 0xC then (x.rdCmd, s)
  else if off = 0x10 then (x.rplBase % 2 ^ 32, setFn fn { x with rdRpl := x.rplBase / 2 ^ 32 } s)
  else if off = 0x14 then (x.rdRpl, s)
  else if off = 0x18 then (qpbCfg s fn, s)
  else if off = 0x20 ∧ fn = 0 then (x.winBase * 0x400000, s)
  else if 0x1000 ≤ off ∧ off < 0x1200 then (msixGet s fn ((off - 0x1000) / 4), s)
  else if off = 0x1800 then (x.pend % 2 ^ 32, s)
  else if 0x10000 ≤ off ∧ off % 0x1000 = 8 then
    (match qpLocal s fn ((off - 0x10000) / 0x1000) with
      | some q => ((qpOf s q).fetched, s)
      | none => (0, s))
  else (0, s)

/-- Writes a word of a function's BAR0. -/
def barWrite (whole : Bool) (fn off : Nat) (v : Word32) (s : State) : State :=
  let x := fnOf s fn
  let held := qpbEnabled s fn
  if !fnEnabled s fn ∨ 63 < fn ∨ (fn ≠ 0 ∧ 0x20000 ≤ off) then s
  else if fn = 0 ∧ 0x400000 ≤ off then wholeWrite whole (windowAddr s off) v s
  else if off % 4 ≠ 0 ∨ !whole then s
  else if off = 8 then (if held then s else setFn fn { x with cmdBase := (v.toNat + x.wrCmd * 2 ^ 32) / 4096 * 4096 } s)
  else if off = 0xC then (if held then s else setFn fn { x with wrCmd := v.toNat } s)
  else if off = 0x10 then (if held then s else setFn fn { x with rplBase := (v.toNat + x.wrRpl * 2 ^ 32) / 4096 * 4096 } s)
  else if off = 0x14 then (if held then s else setFn fn { x with wrRpl := v.toNat } s)
  else if off = 0x18 then writeQpb fn (bitOf v.toNat 31) v s
  else if off = 0x20 ∧ fn = 0 then setFn fn { x with winBase := fieldOf v.toNat 22 10 } s
  else if 0x1000 ≤ off ∧ off < 0x1200 then
    flushMsix fn (setFn fn { x with msix := Mp.ins x.msix ((off - 0x1000) / 4) v.toNat } s)
  else if 0x10000 ≤ off ∧ off % 0x1000 = 0 then doorbellCmd fn ((off - 0x10000) / 0x1000) v s
  else if 0x10000 ≤ off ∧ off % 0x1000 = 4 then doorbellRpl fn ((off - 0x10000) / 0x1000) v s
  else s

/-! ## The rows -/

/-- A read by the host of a word of the device control space, or of BAR0 by `barAddr`, and its answer. -/
def hostRead (whole : Bool) (a : Nat) (s : State) : State :=
  let r := if a < 2 ^ 32 then wholeRead whole a s else barRead whole ((a - 2 ^ 32) / 2 ^ 23) ((a - 2 ^ 32) % 2 ^ 23) s
  emit (.reg a r.1) r.2

/-- A write by the host of a word of the device control space, or of BAR0 by `barAddr`. -/
def hostWrite (whole : Bool) (a : Nat) (v : Word32) (s : State) : State :=
  if a < 2 ^ 32 then wholeWrite whole a v s else barWrite whole ((a - 2 ^ 32) / 2 ^ 23) ((a - 2 ^ 32) % 2 ^ 23) v s

/-- The words from an address upward. -/
def readWords : Nat → Nat → State → List Nat × State
  | 0, _, s => ([], s)
  | n + 1, a, s =>
    let r := devRead a s
    let q := readWords n (a + 4) r.2
    (r.1 :: q.1, q.2)

def writeWords : Nat → List Nat → State → State
  | _, [], s => s
  | a, v :: r, s => writeWords (a + 4) r (devWrite a (BitVec.ofNat 32 v) s)

/-- The parameter fields of opcode 0x102, which of them are out of range, and its effect (R366). -/
def regReadFields : List (Nat × Nat) := [(0, 4), (4, 4)]
def regReadBad : List Byte → Nat → List (Nat × Bool) := fun ps _ =>
    [(0, leAt ps 0 4 % 4 != 0), (4, leAt ps 4 4 == 0 || decide (1024 < leAt ps 4 4))]
def regReadBody : List Byte → Nat → State → Ans := fun ps _ s =>
      let r := readWords (leAt ps 4 4) (leAt ps 0 4) s
      .ok (r.1.headD 0) (r.1.flatMap (leBytes 4)) r.2
/-- REG_READ. -/
def regReadCmd (h : Cmd) (s : State) : State :=
  runCmd h 0x102 true regReadFields regReadBad regReadBody s

/-- Whether REG_WRITE carries its values in its parameter block. -/
def regsInline (h : Cmd) : Bool := decide (8 < eParamLen h.entry)

/-- The parameter fields of opcode 0x103, which of them are out of range, and its effect (R366). -/
def regWriteFields : List (Nat × Nat) := [(0, 4), (4, 4), (8, 24)]
def regWriteBad (h : Cmd) : List Byte → Nat → List (Nat × Bool) := fun ps _ =>
    [(0, leAt ps 0 4 % 4 != 0), (4, leAt ps 4 4 == 0 || decide ((if regsInline h then 6 else 1024) < leAt ps 4 4)),
     (0x800C, !regsInline h && decide (eDataLen h.entry < 4 * leAt ps 4 4))]
def regWriteBody (h : Cmd) : List Byte → Nat → State → Ans := fun ps _ s =>
      let n := leAt ps 4 4
      let src := if regsInline h then ps.drop 8 else dataIn h
      .ok n [] (writeWords (leAt ps 0 4) ((List.range n).map (fun i => leAt src (4 * i) 4)) s)
/-- REG_WRITE: the values are inline where PARAM_LEN reaches beyond the two fields, else data in. -/
def regWriteCmd (h : Cmd) (s : State) : State :=
  runCmd h 0x103 true regWriteFields (regWriteBad h) (regWriteBody h) s

/-- A sideband access to an engine's window (R261): a late answer refuses the engine. -/
def sidebandRead (k addr : Nat) (late : Bool) (s : State) : State :=
  if nSites s ≤ k ∨ siteState s k = 0 ∨ 3 < siteState s k then s
  else
    let a := oeA k (addr % 0x4000000)
    if late then refuseEngine k (sideMsg false a 0 s)
    else
      let r := devRead a s
      emit (.reg a r.1) r.2

def sidebandWrite (k addr : Nat) (v : Word32) (late : Bool) (s : State) : State :=
  if nSites s ≤ k ∨ siteState s k = 0 ∨ 3 < siteState s k then s
  else
    let a := oeA k (addr % 0x4000000)
    if late then refuseEngine k (sideMsg true a v.toNat s) else devWrite a v s

/-! ## Management packets (R26, R239) -/

/-- Carries out a management request that a base die's port holds for its own units, and answers it: a register read without data, a
write with four bytes, at the device control address in ADDR (log entry 805). -/
def mgtAnswer (n p : Nat) (l : List Byte) (s : State) : State :=
  let addr := leAt l 8 8 % 2 ^ 32
  let r := if leAt l 2 2 % 8192 = 0 then devRead addr s else (0, devWrite addr (BitVec.ofNat 32 (leAt l 16 4)) s)
  let data := if leAt l 2 2 % 8192 = 0 then leBytes 4 r.1 else []
  jSend n p 0 (jPacket 9 0 (leAt l 1 1 / 4) data.length 0 (leAt l 4 2 % 16384) (leAt l 7 1) (leAt l 6 1) addr data) r.2

/-- Serves the management requests at the head of a port's receive buffer, and what waited behind them. -/
def mgtServe (n p : Nat) : Nat → State → State
  | 0, s => s
  | f + 1, s =>
    match (jPort s n p).rxq.find? (fun q => q.1 == 0) with
    | none => s
    | some q =>
      if leAt q.2 0 1 = 8 ∧ jRoute s n (leAt q.2 7 1) 0 = some none then
        let s := jTaken n p q (mgtAnswer n p q.2 s)
        mgtServe n p f (jDrain n p (jPort s n p).rxq.length s)
      else s

/-- What a port does after it has looked at what arrived. -/
def portServe (n p : Nat) (s : State) : State :=
  if jxlState s n p = 3 then mgtServe n p (jPort s n p).rxq.length s else s

def execJxlBeatReceive (n port : Nat) (flits : List (List Byte)) (s : State) : Host.Outcome State Fault Refusal :=
  .next (portServe n port (beatReceive n port flits s))
def execJxlAckTimer (n port : Nat) (s : State) : Host.Outcome State Fault Refusal :=
  .next (portServe n port (jAckTimer n port s))
def execRegisterWrite (addr : RegAddr) (value : Word32) (s : State) : Host.Outcome State Fault Refusal :=
  .next (hostWrite addr.whole addr.addr value s)
def execReg64LowWordRead (addr : RegAddr) (s : State) : Host.Outcome State Fault Refusal :=
  .next (hostRead addr.whole addr.addr s)
def execReg64LowWordWrite (addr : RegAddr) (value : Word32) (s : State) : Host.Outcome State Fault Refusal :=
  .next (hostWrite addr.whole addr.addr value s)
def execRcFieldRead (addr : RegAddr) (s : State) : Host.Outcome State Fault Refusal :=
  .next (hostRead addr.whole addr.addr s)
def execCrnAckWrite (value : Word32) (s : State) : Host.Outcome State Fault Refusal := .next (hostWrite true rCRN_ACK value s)
def execCrnIntervalWrite (value : Word32) (s : State) : Host.Outcome State Fault Refusal := .next (hostWrite true rCRN_INTERVAL value s)
def execRegRead (h : Cmd) (s : State) : Host.Outcome State Fault Refusal := .next (regReadCmd h s)
def execRegWrite (h : Cmd) (s : State) : Host.Outcome State Fault Refusal := .next (regWriteCmd h s)
def execRegRd (k addr : Nat) (late : Bool) (s : State) : Host.Outcome State Fault Refusal := .next (sidebandRead k addr late s)
def execRegWr (k addr : Nat) (value : Word32) (late : Bool) (s : State) : Host.Outcome State Fault Refusal :=
  .next (sidebandWrite k addr value late s)

end Sys2Proof.Machine
end

