-- ==== Sys2Proof/Machine/Tables.lean ====
section
/-! DEFINITION. Page tables as the firmware keeps them: ASPACE, MAP, UNMAP, PROTECT, and the completion of a walk
(spec/06_translation_dma_and_faults.md R173 to R178, R496). -/

namespace Sys2Proof.Machine

/-! ## Table areas (R176) -/

def areaOf (s : State) (t : Nat) : Area := Mp.get {} s.areas t
def setArea (t : Nat) (a : Area) (s : State) : State := { s with areas := Mp.put {} s.areas t a }

/-- The size of a table at a level (R174). -/
def tableSize (level : Nat) : Nat := if level = 3 then 256 else 4096

/-- The entries of a table at a level. -/
def tableEntries (level : Nat) : Nat := if level = 3 then 32 else 512

/-- Whether a PA range lies in populated ridges' address space. -/
def paRangeOk (s : State) (pa len : Nat) : Bool :=
  if 2 ^ 41 < pa + len ∨ len = 0 then false
  else (List.range ((pa + len - 1) / 2 ^ 30 - pa / 2 ^ 30 + 1)).all (fun i =>
    let p := (pa / 2 ^ 30 + i) * 2 ^ 30
    decide (paRidge p < nRidges s) && decide (paOffset p < 0x6000000000))

/-- Whether every granule of a PA range passes a test. -/
def granulesAll (pa len : Nat) (f : Nat → Bool) : Bool :=
  (List.range ((pa + len - 1) / 2 ^ 30 - pa / 2 ^ 30 + 1)).all (fun i => f ((pa / 2 ^ 30 + i) * 2 ^ 30))

/-- Whether a PA's granule is bound to a tenant. -/
def paBound (s : State) (t pa : Nat) : Bool := granBound s (paRidge pa) (paGranule pa) t

/-- Whether a granule, named by its first PA, holds page tables of any tenant. -/
def holdsTables (s : State) (g : Nat) : Bool :=
  (List.range 64).any (fun t =>
    let a := areaOf s t
    let root := fget s (rMMU_ROOT t) fMMU_ROOT_ROOT * 4096
    (a.units != 0 && decide (a.pa < g + 2 ^ 30) && decide (g < a.pa + a.units * 65536))
      || (fget s (rMMU_ROOT t) fMMU_ROOT_EN == 1 && decide (root / 2 ^ 30 = g / 2 ^ 30)))

/-- Whether a place overlaps a table in use. -/
def overlaps (l : List (Nat × Nat)) (pa size : Nat) : Bool := l.any (fun u => decide (u.1 < pa + size) && decide (pa < u.1 + u.2))

/-- The lowest free place for a table in an area: it starts where the area does or where a table ends. -/
def freePlace (a : Area) (size : Nat) : Option Nat :=
  lowestOff ((a.pa :: a.used.map (fun u => alignUp (u.1 + u.2) size)).filter (fun p =>
    decide (p + size ≤ a.pa + a.units * 65536) && !overlaps a.used p size))

/-- Gives tables back to an area. -/
def giveTables (t : Nat) (l : List Nat) (s : State) : State :=
  let a := areaOf s t
  setArea t { a with used := a.used.filter (fun u => !l.contains u.1) } s

/-! ## Tables in memory -/

/-- An entry of a table as the firmware reads it; an unreadable one reads as not valid here. -/
def entryAt (s : State) (table i : Nat) : Nat :=
  match (readEntry .melhal (table + 8 * i) s).1 with
  | .ok e => e
  | _ => 0

/-- The valid entries of a table. -/
def validEntries (s : State) (level table : Nat) : List Nat :=
  ((List.range (tableEntries level)).map (entryAt s table)).filter (fun e => bitOf e 0)

/-- Whether any leaf hangs below a table. -/
def anyLeaf (s : State) : Nat → Nat → Nat → Bool
  | 0, _, _ => false
  | f + 1, level, table => (validEntries s level table).any (fun e => bitOf e 1 || anyLeaf s f (level + 1) (entryPa e))

/-- A table and every table below it, with their sizes. -/
def tablesBelow (s : State) : Nat → Nat → Nat → List (Nat × Nat)
  | 0, _, _ => []
  | f + 1, level, table =>
    (table, tableSize level) :: (if level = 3 then []
      else ((validEntries s level table).filter (fun e => !bitOf e 1)).flatMap (fun e => tablesBelow s f (level + 1) (entryPa e)))

/-- Writes table bytes through the owning ridge cache with tenant 0's way mask; the unit that did not accept them if one did
not. -/
def writeTable (pa : Nat) (bytes : List Byte) (s : State) : Option Nat × State :=
  match memWrite 0 0 pa bytes s with
  | (.lost u _, s) => (some u, s)
  | (_, s) => (none, s)

/-! ## One page (R496) -/

/-- What a change of one page comes to: done, with the PA of the leaf it replaced; refused; or an entry
that cannot be read, with its level and address. -/
inductive PageRes where
  | ok (olds : List Nat) (s : State)
  | no (status result : Nat)
  | fault (level at_ : Nat)

/-- What is done to a page: MAP with its leaf, UNMAP, PROTECT with its permission bits. -/
inductive PageOp where
  | map (leaf : Nat)
  | unmap
  | protect (perms : Nat)
  deriving DecidableEq, Repr

/-- Writes one entry. -/
def setEntry (pa e : Nat) (olds : List Nat) (s : State) : PageRes :=
  match writeTable pa (leBytes 8 e) s with
  | (some u, _) => .no rsPathLost u
  | (none, s) => .ok olds s

/-- The page's own entry is reached. -/
def atPage (tn : Nat) (op : PageOp) (level pa e : Nat) (s : State) : PageRes :=
  if !bitOf e 0 then (match op with
    | .map leaf => setEntry pa leaf [] s
    | .unmap => .ok [] s
    | .protect _ => .no rsState 0)
  else if bitOf e 1 then (match op with
    | .map leaf => setEntry pa leaf [entryPa e] s
    | .unmap => setEntry pa 0 [entryPa e] s
    | .protect perms => setEntry pa (withField e 2 4 perms) [entryPa e] s)
  else if anyLeaf s 3 (level + 1) (entryPa e) then .no rsState 0
  else match op with
    | .map leaf => setEntry pa leaf [] (giveTables tn ((tablesBelow s 3 (level + 1) (entryPa e)).map (·.1)) s)
    | .unmap => .ok [] s
    | .protect _ => .no rsState 0

/-- A table from the tenant's area, cleared and linked from an entry. -/
def linkTable (tn level at_ : Nat) (s : State) : PageRes × Nat :=
  let a := areaOf s tn
  let size := tableSize level
  match freePlace a size with
  | none => (.no rsCapacity 0, 0)
  | some p =>
    match writeTable p (List.replicate size 0#8) (setArea tn { a with used := (p, size) :: a.used } s) with
    | (some u, _) => (.no rsPathLost u, 0)
    | (none, s) => (setEntry at_ (p + 1) [] s, p)

/-- After an UNMAP below: a table of the area left with no valid entry goes back to it. -/
def dropTable (tn level table at_ : Nat) (olds : List Nat) (s : State) : PageRes :=
  if (areaOf s tn).used.any (fun u => u.1 == table) && (validEntries s level table).isEmpty then
    setEntry at_ 0 olds (giveTables tn [table] s)
  else .ok olds s

/-- Walks from a table down to the level of the page and changes it. -/
def pageOp (tn va lvl : Nat) (op : PageOp) : Nat → Nat → Nat → State → PageRes
  | 0, level, table, _ => .fault level table
  | f + 1, level, table, s =>
    let at_ := table + 8 * levelIndex level va
    match readEntry .melhal at_ s with
    | (.bad, _) => .fault level at_
    | (.lost u _, _) => .no rsPathLost u
    | (.ok e, s) =>
      if bitOf e 0 && malformed level e then .no rsState 0
      else if level = lvl then atPage tn op level at_ e s
      else if !bitOf e 0 then (match op with
        | .map _ => (match linkTable tn (level + 1) at_ s with
          | (.ok _ s, p) => pageOp tn va lvl op f (level + 1) p s
          | (r, _) => r)
        | .unmap => .ok [] s
        | .protect _ => .no rsState 0)
      else if bitOf e 1 then .no rsState 0
      else match pageOp tn va lvl op f (level + 1) (entryPa e) s with
        | .ok olds s => if op = .unmap then dropTable tn (level + 1) (entryPa e) at_ olds s else .ok olds s
        | r => r

/-- Changes a run of pages in order; the first that is refused refuses the whole. -/
def pagesOp (tn size : Nat) (op : Nat → PageOp) : Nat → Nat → List Nat → State → PageRes × Nat
  | 0, va, olds, s => (.ok olds s, va)
  | n + 1, va, olds, s =>
    match pageOp tn va (sizeLevel size) (op va) 4 0 (fget s (rMMU_ROOT tn) fMMU_ROOT_ROOT * 4096) s with
    | .ok o s => pagesOp tn size op n (va + size) (olds ++ o) s
    | r => (r, va)

/-! ## The commands (R176, R178, R366) -/

/-- The size of a page code. -/
def pageSize (code : Nat) : Nat := if code = 0 then 2 ^ 16 else if code = 1 then 2 ^ 21 else 2 ^ 30

/-- Drops the TLB entries of a tenant that overlap a VA range. -/
def dropVa (tn va len : Nat) (s : State) : State :=
  { s with tlbs := s.tlbs.filterMap (fun p =>
      let l := p.2.filter (fun e => !(e.tenant == tn && decide (e.va < va + len) && decide (va < e.va + e.size)))
      if l = [] then none else some (p.1, l)) }

/-- Whether a transaction of a tenant into one of a list of pages is still under way. -/
def pagesBusy (s : State) (tn size : Nat) (olds : List Nat) : Bool :=
  (underWay s).any (fun a => a.1 == tn && olds.any (fun o => decide (o < a.2.1 + a.2.2) && decide (a.2.1 < o + size)))

/-- Makes a change of mappings: it starts only once every transaction under an entry it drops has completed, so that the
reply's stamp is T_inv. The tables are reached over the main route (R26, R27). -/
def changePages (tn va size n : Nat) (op : Nat → PageOp) (s : State) : Ans :=
  if !colAttach s then .no rsPathLost 16 s
  else if fget s (rMMU_ROOT tn) fMMU_ROOT_EN = 0 then .no rsState 0 s
  else match pagesOp tn size op n va [] s with
    | (.ok olds t, _) => if pagesBusy s tn size olds then .stay else .ok 0 [] (dropVa tn va (n * size) t)
    | (.no st r, _) => .no st r s
    | (.fault level at_, v) => memFail tn v accRead (.fault v 6 level 0 0 16) (readEntry .melhal at_ s).2

/-- The checks of the fields that name pages. -/
def pagesBad (ps : List Byte) : List (Nat × Bool) :=
  let size := pageSize (leAt ps 16 1)
  let n := leAt ps 20 4
  [(0, leAt ps 0 8 % size != 0 || decide (2 ^ 48 ≤ leAt ps 0 8)), (16, decide (2 < leAt ps 16 1)),
   (20, n == 0 || decide (65536 < n) || decide (2 ^ 48 < leAt ps 0 8 + n * size))]

/-- The parameter fields of opcode 0x403, which of them are out of range, and its effect (R366). -/
def mapFields : List (Nat × Nat) := [(0, 8), (8, 8), (16, 1), (17, 1), (20, 4)]
def mapBad (s : State) : List Byte → Nat → List (Nat × Bool) := fun ps _ => pagesBad ps ++
    [(8, leAt ps 8 8 % pageSize (leAt ps 16 1) != 0 || !paRangeOk s (leAt ps 8 8) (leAt ps 20 4 * pageSize (leAt ps 16 1))),
     (17, decide (15 < leAt ps 17 1))]
def mapBody : List Byte → Nat → State → Ans := fun ps tn s =>
    let va := leAt ps 0 8
    let pa := leAt ps 8 8
    let size := pageSize (leAt ps 16 1)
    let n := leAt ps 20 4
    if !granulesAll pa (n * size) (fun g => paBound s tn g && !holdsTables s g) then .no rsNotPermitted 0 s
    else changePages tn va size n (fun v => .map (pa + (v - va) + leAt ps 17 1 * 4 + 3)) s
def mapCmd (h : Cmd) (s : State) : State :=
  runCmd h 0x403 false mapFields (mapBad s) mapBody s

/-- The parameter fields of opcode 0x404, which of them are out of range, and its effect (R366). -/
def unmapFields : List (Nat × Nat) := [(0, 8), (16, 1), (20, 4)]
def unmapBad : List Byte → Nat → List (Nat × Bool) := fun ps _ => pagesBad ps
def unmapBody : List Byte → Nat → State → Ans := fun ps tn s =>
    changePages tn (leAt ps 0 8) (pageSize (leAt ps 16 1)) (leAt ps 20 4) (fun _ => .unmap) s
def unmapCmd (h : Cmd) (s : State) : State :=
  runCmd h 0x404 false unmapFields unmapBad unmapBody s

/-- The parameter fields of opcode 0x405, which of them are out of range, and its effect (R366). -/
def protectFields : List (Nat × Nat) := [(0, 8), (16, 1), (17, 1), (20, 4)]
def protectBad : List Byte → Nat → List (Nat × Bool) := fun ps _ => pagesBad ps ++ [(17, decide (15 < leAt ps 17 1))]
def protectBody : List Byte → Nat → State → Ans := fun ps tn s =>
      changePages tn (leAt ps 0 8) (pageSize (leAt ps 16 1)) (leAt ps 20 4) (fun _ => .protect (leAt ps 17 1)) s
def protectCmd (h : Cmd) (s : State) : State :=
  runCmd h 0x405 false protectFields protectBad protectBody s

/-- The checks of ASPACE on the root and the area of an address space that is enabled. -/
def aspaceChecks (s : State) (ps : List Byte) : List (Nat × Bool) :=
  let root := leAt ps 8 8
  let pa := leAt ps 16 8
  let len := leAt ps 24 4 * 65536
  if leAt ps 0 1 % 2 = 0 then [(0, decide (3 < leAt ps 0 1))]
  else
    let areaOk := pa % 65536 = 0 ∧ paRangeOk s pa len
    [(0, decide (3 < leAt ps 0 1)),
     (8, root % 4096 != 0 || !paRangeOk s root 4096 || !paBound s 0 root || !decide (pa ≤ root ∧ root + 4096 ≤ pa + len)),
     (16, if areaOk then !granulesAll pa len (paBound s 0) else true),
     (24, len == 0)]

/-- The parameter fields of opcode 0x402, which of them are out of range, and its effect (R366). -/
def aspaceFields : List (Nat × Nat) := [(0, 1), (8, 8), (16, 8), (24, 4)]
def aspaceBad (s : State) : List Byte → Nat → List (Nat × Bool) := fun ps _ => aspaceChecks s ps
def aspaceBody : List Byte → Nat → State → Ans := fun ps tn s =>
    let root := leAt ps 8 8
    let r := rMMU_ROOT tn
    let drop (s : State) : State := dropVa tn 0 (2 ^ 64) s
    if leAt ps 0 1 % 2 = 0 then .ok 0 [] (drop (setArea tn {} (fset r fMMU_ROOT_EN 0 s)))
    else
      let cleared := if bitOf (leAt ps 0 1) 1 then
          (if colAttach s then writeTable root (List.replicate 4096 0#8) s else (some 16, s))
        else (none, s)
      match cleared.1 with
      | some u => .no rsPathLost u s
      | none =>
        let s := cleared.2
        let pa := leAt ps 16 8
        let units := leAt ps 24 4
        let used := (tablesBelow s 4 0 root).filter (fun u => decide (pa ≤ u.1 ∧ u.1 + u.2 ≤ pa + units * 65536))
        .ok 0 [] (drop (setArea tn ⟨pa, units, used⟩
          (fset r fMMU_ROOT_EN 1 (fset r fMMU_ROOT_ROOT (root / 4096) s))))
/-- ASPACE (R176): the tables that tenant 0 has laid out inside the area count as taken. -/
def aspaceCmd (h : Cmd) (s : State) : State :=
  runCmd h 0x402 true aspaceFields (aspaceBad s) aspaceBody s

/-- A walk completes: the translation, if it is one, is listed in the TLBs (R177). -/
def walkDone (rq : Requester) (tenant : Nat) (va : Nat) (a : Access) (s : State) : State :=
  if rqRidge rq < nRidges s ∧ dieOk s (16 + rqRidge rq) then (translate rq tenant va a s).2 else s

def execAspace (h : Cmd) (s : State) : Host.Outcome State Fault Refusal := .next (aspaceCmd h s)
def execMap (h : Cmd) (s : State) : Host.Outcome State Fault Refusal := .next (mapCmd h s)
def execUnmap (h : Cmd) (s : State) : Host.Outcome State Fault Refusal := .next (unmapCmd h s)
def execProtect (h : Cmd) (s : State) : Host.Outcome State Fault Refusal := .next (protectCmd h s)
def execPageWalkComplete (rq : Requester) (tenant : Nat) (va : Word64) (acc : Access) (s : State) :
    Host.Outcome State Fault Refusal := .next (walkDone rq tenant va.toNat acc s)

end Sys2Proof.Machine
end

