-- ==== Sys2Proof/Machine/Commands.lean ====
section
/-! DEFINITION. Commands of information, queue pairs, memory, ridge caches, stacks, routing, groups and REMOTE
(spec/12_host_interface_and_melhal.md R350, R355, R366 to R368; spec/05_memory_stacks_and_ridge_cache.md R153 to R163;
spec/07_long_sequences_and_resharding.md R204, R205; spec/10_fabric_link_layer.md R320 to R323). -/

namespace Sys2Proof.Machine

/-! ## Information (group 0x01xx) -/

/-- The parameter fields of opcode 0x100, which of them are out of range, and its effect (R366). -/
def identifyFields : List (Nat × Nat) := []
def identifyBad : List Byte → Nat → List (Nat × Bool) := fun _ _ => []
def identifyBody (h : Cmd) : List Byte → Nat → State → Ans := fun _ _ s =>
    .ok 0 (fit 256 (leFields [(4, (regVal s rMGT_DEVICE_ID).toNat), (4, (regVal s rMGT_TOPOLOGY).toNat),
      (4, (regVal s rFLK_MODULE_ID).toNat), (4, issuerOf s h.path), (8, Config.free 49 0), (8, Config.free 49 1),
      (8, Config.free 49 2)])) s
/-- IDENTIFY: the versions are the module's own (free values). -/
def identifyCmd (h : Cmd) (s : State) : State :=
  runCmd h 0x100 false identifyFields identifyBad (identifyBody h) s

/-- The parameter fields of opcode 0x101, which of them are out of range, and its effect (R366). -/
def tenantInfoFields : List (Nat × Nat) := []
def tenantInfoBad : List Byte → Nat → List (Nat × Bool) := fun _ _ => []
def tenantInfoBody : List Byte → Nat → State → Ans := fun _ t s =>
    .ok 0 (leFields ([(24, coresOf s t), (16, portsOf s t)] ++ (List.range 4).map (fun n => (2, granulesOf s n t))
      ++ [(4, (regVal s (rTSC_SHARE_A t)).toNat), (4, (regVal s (rTSC_SHARE_B t)).toNat), (4, tasksInUse s (some t)),
          (4, edgesInUse s (some t))])) s
/-- TENANT_INFO. -/
def tenantInfoCmd (h : Cmd) (s : State) : State :=
  runCmd h 0x101 false tenantInfoFields tenantInfoBad tenantInfoBody s

/-! ## Queue pairs (R350, R355) -/

/-- The queue pair an Owner command names: found and held, or the status that refuses it. -/
def namedQp (s : State) (path : CmdPath) (i : Nat) : Nat ⊕ Nat :=
  let fn := issuerOf s path
  match qpLocal s fn i with
  | some q => .inr q
  | none => .inl (if fn = 0 then rsNotPermitted else rsNotFound)

/-- A local index out of range. -/
def badIndex (s : State) (path : CmdPath) (i : Nat) : Bool := decide ((if issuerOf s path = 0 then 64 else 16) ≤ i)

/-- The parameter fields of opcode 0x110, which of them are out of range, and its effect (R366). -/
def qpCreateFields : List (Nat × Nat) := [(0, 1), (1, 1), (2, 1), (3, 1), (8, 8), (16, 8)]
def qpCreateBad (h : Cmd) (s : State) : List Byte → Nat → List (Nat × Bool) := fun ps _ =>
    [(0, badIndex s h.path (leAt ps 0 1)), (1, decide (leAt ps 1 1 < 4) || decide (12 < leAt ps 1 1)), (2, decide (31 < leAt ps 2 1)),
     (8, leAt ps 8 8 % 4096 != 0), (16, leAt ps 16 8 % 4096 != 0)]
def qpCreateBody (h : Cmd) : List Byte → Nat → State → Ans := fun ps _ s =>
    match namedQp s h.path (leAt ps 0 1) with
    | .inl st => .no st 0 s
    | .inr q =>
      if (qpOf s q).created then .no rsState 0 s
      else .ok 0 [] (qpMake q (leAt ps 8 8) (leAt ps 16 8) (leAt ps 1 1) (leAt ps 2 1) (leAt ps 3 1) s)
def qpCreateCmd (h : Cmd) (s : State) : State :=
  runCmd h 0x110 false qpCreateFields (qpCreateBad h s) (qpCreateBody h) s

/-- Whether a path is a given queue pair. -/
def onQp (path : CmdPath) (q : Nat) : Bool :=
  match path with
  | .qp p => p == q
  | .fabric .. => false

/-- The parameter fields of opcode 0x111, which of them are out of range, and its effect (R366). -/
def qpDeleteFields : List (Nat × Nat) := [(0, 1)]
def qpDeleteBad (h : Cmd) (s : State) : List Byte → Nat → List (Nat × Bool) := fun ps _ =>
    [(0, badIndex s h.path (leAt ps 0 1) || (match qpLocal s (issuerOf s h.path) (leAt ps 0 1) with
      | some q => onQp h.path q
      | none => false))]
def qpDeleteBody (h : Cmd) : List Byte → Nat → State → Ans := fun ps _ s =>
    match namedQp s h.path (leAt ps 0 1) with
    | .inl st => .no st 0 s
    | .inr q => if (qpOf s q).created then .ok 0 [] (qpDrop q s) else .no rsState 0 s
def qpDeleteCmd (h : Cmd) (s : State) : State :=
  runCmd h 0x111 false qpDeleteFields (qpDeleteBad h s) (qpDeleteBody h) s

/-- The parameter fields of opcode 0x112, which of them are out of range, and its effect (R366). -/
def qpAssignFields : List (Nat × Nat) := [(0, 1), (1, 1), (2, 1)]
def qpAssignBad : List Byte → Nat → List (Nat × Bool) := fun ps _ =>
    [(0, leAt ps 0 1 == 0 || decide (63 < leAt ps 0 1)), (1, decide (63 < leAt ps 1 1)),
     (2, decide ((if leAt ps 1 1 = 0 then 63 else 15) < leAt ps 2 1))]
def qpAssignBody : List Byte → Nat → State → Ans := fun ps _ s =>
    let q := leAt ps 0 1
    let fn := leAt ps 1 1
    let i := leAt ps 2 1
    let taken := fn != 0 && (match qpLocal s fn i with
      | some p => p != q
      | none => false)
    if (qpOf s q).created || taken then .no rsState 0 s
    else .ok 0 [] (setQp q { qpOf s q with owner := fn, idx := if fn = 0 then 0 else i } s)
/-- QP_ASSIGN; the physical function's local index is the queue pair's own number. -/
def qpAssignCmd (h : Cmd) (s : State) : State :=
  runCmd h 0x112 true qpAssignFields qpAssignBad qpAssignBody s

/-! ## Tenant memory (R366) -/

/-- The parameter fields of opcode 0x400, which of them are out of range, and its effect (R366). -/
def memReadFields : List (Nat × Nat) := [(0, 8), (8, 4)]
def memReadBad : List Byte → Nat → List (Nat × Bool) := fun ps _ => [(8, leAt ps 8 4 == 0 || decide (1048576 < leAt ps 8 4))]
def memReadBody : List Byte → Nat → State → Ans := fun ps tn s =>
    if !dieOk s 16 then .no rsPathLost 16 s
    else match vread .melhal tn (leAt ps 0 8) (leAt ps 8 4) accRead s with
      | (.ok bs, s) => .ok 0 bs s
      | (e, s) => memFail tn (leAt ps 0 8) accRead e s
def memReadCmd (h : Cmd) (s : State) : State :=
  runCmd h 0x400 false memReadFields memReadBad memReadBody s

/-- The parameter fields of opcode 0x401, which of them are out of range, and its effect (R366). -/
def memWriteFields : List (Nat × Nat) := [(0, 8), (8, 4)]
def memWriteBad (h : Cmd) : List Byte → Nat → List (Nat × Bool) := fun ps _ => [(8, leAt ps 8 4 == 0 || decide (1048576 < leAt ps 8 4)),
      (0x800C, decide (eDataLen h.entry < leAt ps 8 4))]
def memWriteBody (h : Cmd) : List Byte → Nat → State → Ans := fun ps tn s =>
    if !dieOk s 16 then .no rsPathLost 16 s
    else match vwrite .melhal tn (leAt ps 0 8) ((dataIn h).take (leAt ps 8 4)) accWrite s with
      | (.ok _, s) => .ok 0 [] s
      | (e, s) => memFail tn (leAt ps 0 8) accWrite e s
def memWriteCmd (h : Cmd) (s : State) : State :=
  runCmd h 0x401 false memWriteFields (memWriteBad h) (memWriteBody h) s

/-! ## Granules and ridge caches (R156, R158 to R162) -/

/-- The parameter fields of opcode 0x406, which of them are out of range, and its effect (R366). -/
def granuleAttrFields : List (Nat × Nat) := [(0, 1), (1, 1), (2, 1), (4, 2), (6, 2)]
def granuleAttrBad (s : State) : List Byte → Nat → List (Nat × Bool) := fun ps _ =>
    [(0, decide (nRidges s ≤ leAt ps 0 1)), (1, decide (2 < leAt ps 1 1)), (2, decide (1 < leAt ps 2 1)), (4, decide (384 ≤ leAt ps 4 2)),
     (6, leAt ps 6 2 == 0 || decide (384 < leAt ps 4 2 + leAt ps 6 2))]
def granuleAttrBody (h : Cmd) : List Byte → Nat → State → Ans := fun ps _ s =>
    let n := leAt ps 0 1
    let iss := issuerOf s h.path
    let gs := (List.range (leAt ps 6 2)).map (· + leAt ps 4 2)
    if iss ≠ 0 ∧ !gs.all (fun g => granBound s n g iss) then .no rsNotPermitted 0 s
    else if !dieOk s (16 + n) then .no rsPathLost (16 + n) s
    else .ok 0 [] (gs.foldl (fun s g =>
      let r := rMEM_GATTR n g
      let s := fset r fMEM_GATTR_POLICY (leAt ps 1 1) (fset r fMEM_GATTR_BORROW (leAt ps 2 1) s)
      if leAt ps 2 1 = 0 then dropBorrowed none (n * 2 ^ 39 + g * 2 ^ 30) (2 ^ 30) s else s) s)
def granuleAttrCmd (h : Cmd) (s : State) : State :=
  runCmd h 0x406 false granuleAttrFields (granuleAttrBad s) (granuleAttrBody h) s

/-- The parameter fields of opcode 0x407, which of them are out of range, and its effect (R366). -/
def rcWaysFields : List (Nat × Nat) := [(0, 1), (2, 2)]
def rcWaysBad (s : State) : List Byte → Nat → List (Nat × Bool) := fun ps _ => [(0, decide (2 ^ nRidges s ≤ leAt ps 0 1))]
def rcWaysBody : List Byte → Nat → State → Ans := fun ps tn s =>
    let rs := (List.range 4).filter (bitOf (leAt ps 0 1))
    match rs.find? (fun n => !dieOk s (16 + n)) with
    | some n => .no rsPathLost (16 + n) s
    | none => .ok 0 [] (rs.foldl (fun s n => fset (rMEM_RC_WAYS n tn) fMEM_RC_WAYS_WAYMASK (leAt ps 2 2) s) s)
def rcWaysCmd (h : Cmd) (s : State) : State :=
  runCmd h 0x407 true rcWaysFields (rcWaysBad s) rcWaysBody s

/-- Removes the clean lines of a PA range from their owning cache and every borrowed copy of it. -/
def removeClean (n pa len : Nat) (s : State) : State :=
  let s := dropBorrowed none pa len s
  (linesIn s n pa len).foldl (fun s la => match lineOf s n la with
    | some l => if l.dirty0 || l.dirty1 then s else dropLine n la s
    | none => s) s

/-- The parameter fields of opcode 0x408, which of them are out of range, and its effect (R366). -/
def rcFlushFields : List (Nat × Nat) := [(0, 1), (1, 1), (2, 1), (8, 8), (16, 8)]
def rcFlushBad (s : State) : List Byte → Nat → List (Nat × Bool) := fun ps _ =>
    let n := leAt ps 0 1
    let whole := leAt ps 2 1 == 1
    [(0, decide (nRidges s ≤ n)), (1, decide (1 < leAt ps 1 1)), (2, decide (1 < leAt ps 2 1)),
     (8, !whole && (paRidge (leAt ps 8 8) != n || decide (0x6000000000 ≤ paOffset (leAt ps 8 8)))),
     (16, !whole && decide (0x6000000000 < paOffset (leAt ps 8 8) + leAt ps 16 8))]
def rcFlushBody : List Byte → Nat → State → Ans := fun ps _ s =>
    let n := leAt ps 0 1
    let whole := leAt ps 2 1 == 1
    let pa := if whole then n * 2 ^ 39 else leAt ps 8 8
    let len := if whole then 0x6000000000 else leAt ps 16 8
    if !dieOk s (16 + n) then .no rsPathLost (16 + n) s
    else
      let r := flushRange n pa len s
      let s := if leAt ps 1 1 = 1 ∧ len ≠ 0 then removeClean n pa len r.2 else r.2
      let s := if leAt ps 1 1 = 1 ∧ whole then dropBorrowed (some n) 0 (2 ^ 41) s else s
      match r.1 with
      | some bad => .no rsPathLost (stackUnit s bad) s
      | none => .ok 0 [] s
/-- RC_FLUSH of a whole ridge cache or of a range of its ridge. -/
def rcFlushCmd (h : Cmd) (s : State) : State :=
  runCmd h 0x408 true rcFlushFields (rcFlushBad s) rcFlushBody s

/-- The parameter fields of opcode 0x409, which of them are out of range, and its effect (R366). -/
def dmaLimitFields : List (Nat × Nat) := [(0, 1), (4, 2)]
def dmaLimitBad (s : State) : List Byte → Nat → List (Nat × Bool) := fun ps _ => [(0, decide (nRidges s ≤ leAt ps 0 1)), (4, decide (15360 < leAt ps 4 2))]
def dmaLimitBody : List Byte → Nat → State → Ans := fun ps tn s =>
      let n := leAt ps 0 1
      if !dieOk s (16 + n) then .no rsPathLost (16 + n) s
      else .ok 0 [] (fset (rDMA_TENANT_TAGS n tn) fDMA_TENANT_TAGS_LIMIT (leAt ps 4 2) s)
def dmaLimitCmd (h : Cmd) (s : State) : State :=
  runCmd h 0x409 true dmaLimitFields (dmaLimitBad s) dmaLimitBody s

/-! ## Stacks (R153, R154, R377) -/

/-- The PA of an address within a stack of a ridge (R143). -/
def paOfStack (s : State) (n k sa : Nat) : Nat :=
  n * 2 ^ 39 + (if linear s n then k * 2 ^ 36 + sa else (sa / 4096 * 6 + k) * 4096 + sa % 4096)

/-- The row of an address within a stack: its channel and pseudo-channel, and the bank and row that an unstated function of
the Spelt base derives. -/
def dramRow (sa : Nat) : Nat × Nat := (sa / 64 % 64, Config.free 55 (sa / 4096))

/-- The codewords in error of a PA's row, in rising order, the named one among them. -/
def rowCodewords (s : State) (pa : Nat) : List Nat :=
  let here (q : Nat) : Bool := paRidge (q * 64) == paRidge pa && (stackOf s (q * 64)).1 == (stackOf s pa).1
    && dramRow (stackOf s (q * 64)).2 == dramRow (stackOf s pa).2
  ((pa / 64) :: ((s.cwErr.map (·.1)).filter (fun q => q != pa / 64 && here q))).mergeSort (· ≤ ·)

/-- The copy of one codeword to the spare row. -/
def copyCodeword (q : Nat) (s : State) : State :=
  match readCw (q * 64) 0 s with
  | (.uncorr _, s) => uncorrFault (q * 64) 10 0 0 1 0 0xFFFF 0xFFFF 0 s
  | (_, s) => s

/-- The parameter fields of opcode 0x40A, which of them are out of range, and its effect (R366). -/
def rowRepairFields : List (Nat × Nat) := [(0, 8)]
def rowRepairBad (s : State) : List Byte → Nat → List (Nat × Bool) := fun ps _ => [(0, !paRangeOk s (leAt ps 0 8) 1)]
def rowRepairBody : List Byte → Nat → State → Ans := fun ps _ s =>
    let pa := leAt ps 0 8
    let n := paRidge pa
    let k := (stackOf s pa).1
    let r := rMEM_STACK_STATUS n k
    let left := fget s r fMEM_STACK_STATUS_SPARE_LEFT
    if !dieOk s (16 + n) then .no rsPathLost (16 + n) s
    else if stackState s n k = 4 ∨ stackState s n k = 5 then .no rsPathLost (32 + 6 * n + k) s
    else if left = 0 then .no rsCapacity 0 s
    else
      let s := (rowCodewords s pa).foldl (fun s q => copyCodeword q s) s
      let s := { s with fuses := { s.fuses with repaired := Mp.upd [] s.fuses.repaired (6 * n + k) (pa / 64 :: ·) } }
      .ok (left - 1) [] (fset r fMEM_STACK_STATUS_SPARE_LEFT (left - 1) s)
def rowRepairCmd (h : Cmd) (s : State) : State :=
  runCmd h 0x40A true rowRepairFields (rowRepairBad s) rowRepairBody s

/-- Codewords of a stack. -/
def stackCodewords : Nat := 2 ^ 30

/-- Whether the scrubber works on a stack: enabled, and the stack not in self-refresh. -/
def scrubs (s : State) (n k : Nat) : Bool :=
  fget s (rMEM_SCRUB_CTRL n) fMEM_SCRUB_CTRL_EN == 1 && stackState s n k == 2 && dieOk s (16 + n)

/-- Brings PROGRESS up to date; once every stack at work has been read the pass ends and the next begins with every stack that was
read; one that sleeps in mid-pass goes on where it stopped (R153). -/
def scrubProgress (n : Nat) (s : State) : State :=
  let on := (List.range 6).filter (scrubs s n)
  let pos (k : Nat) : Nat := Mp.get 0 s.scrub (6 * n + k)
  let r := rMEM_SCRUB_CTRL n
  if on.all (fun k => pos k == stackCodewords) then
    let s := { s with scrub := ((List.range 6).filter (fun k => pos k == stackCodewords)).foldl (fun m k => Mp.put 0 m (6 * n + k) 0) s.scrub }
    fset r fMEM_SCRUB_CTRL_PROGRESS 0 (fset r fMEM_SCRUB_CTRL_PASSES (fget s r fMEM_SCRUB_CTRL_PASSES + 1) s)
  else fset r fMEM_SCRUB_CTRL_PROGRESS ((on.map pos).foldl (· + ·) 0 * 256 / (on.length * stackCodewords)) s

/-- The scrubber reads the next codeword of a stack (R153). -/
def scrubRead (u : Nat) (s : State) : State :=
  let n := u / 6
  let k := u % 6
  let q := Mp.get 0 s.scrub u
  if nRidges s ≤ n ∨ !scrubs s n k ∨ q = stackCodewords then s
  else
    let pa := paOfStack s n k (q * 64)
    let s := match readCw pa 1 s with
      | (.uncorr _, s) => uncorrFault pa 11 0 0 1 0 0xFFFF 0xFFFF 0 s
      | (_, s) => s
    scrubProgress n { s with scrub := Mp.put 0 s.scrub u (q + 1) }

/-- A stack in self-refresh wakes (R377). -/
def wakeStack (u : Nat) (s : State) : State :=
  let n := u / 6
  if nRidges s ≤ n ∨ stackState s n (u % 6) ≠ 3 ∨ !dieOk s (16 + n) then s
  else fset (rMEM_STACK_STATUS n (u % 6)) fMEM_STACK_STATUS_STATE 2 s

/-! ## Fabric tables (R320, R321, R323) -/

/-- The parameter fields of opcode 0x500, which of them are out of range, and its effect (R366). -/
def moduleIdFields : List (Nat × Nat) := [(0, 2)]
def moduleIdBad : List Byte → Nat → List (Nat × Bool) := fun ps _ => [(0, decide (16383 < leAt ps 0 2))]
def moduleIdBody : List Byte → Nat → State → Ans := fun ps _ s =>
    if fget s rFLK_MODULE_ID fFLK_MODULE_ID_VALID = 1 then .no rsState 0 s
    else .ok 0 [] (fset rFLK_MODULE_ID fFLK_MODULE_ID_VALID 1 (fset rFLK_MODULE_ID fFLK_MODULE_ID_ID (leAt ps 0 2) s))
def moduleIdCmd (h : Cmd) (s : State) : State :=
  runCmd h 0x500 true moduleIdFields moduleIdBad moduleIdBody s

/-- The base dies that hold copies of the fabric tables and answer. -/
def servingDies (s : State) : List Nat := (List.range (nRidges s)).filter (fun n => dieOk s (16 + n))

/-- An entry of the routing table: bit 30 is reserved (R11). -/
def routeEntry (v : Nat) : Nat := withField v 30 1 0

/-- The parameter fields of opcode 0x501, which of them are out of range, and its effect (R366). -/
def routeSetFields : List (Nat × Nat) := [(0, 2), (2, 2)]
def routeSetBad (h : Cmd) : List Byte → Nat → List (Nat × Bool) := fun ps _ =>
    [(0, decide (16383 < leAt ps 0 2)), (2, leAt ps 2 2 == 0 || decide (1024 < leAt ps 2 2) || decide (16384 < leAt ps 0 2 + leAt ps 2 2)),
     (0x800C, decide (eDataLen h.entry < 4 * leAt ps 2 2))]
def routeSetBody (h : Cmd) : List Byte → Nat → State → Ans := fun ps _ s =>
    .ok 0 [] ((servingDies s).foldl (fun s n => (List.range (leAt ps 2 2)).foldl (fun s i =>
      regPut (rFLK_ROUTE n (leAt ps 0 2 + i)) (BitVec.ofNat 64 (routeEntry (leAt (dataIn h) (4 * i) 4))) s) s) s)
def routeSetCmd (h : Cmd) (s : State) : State :=
  runCmd h 0x501 true routeSetFields (routeSetBad h) (routeSetBody h) s

/-- The parameter fields of opcode 0x502, which of them are out of range, and its effect (R366). -/
def acceptSetFields : List (Nat × Nat) := [(0, 1), (2, 2), (4, 2)]
def acceptSetBad : List Byte → Nat → List (Nat × Bool) := fun ps _ =>
    [(0, decide (1 < leAt ps 0 1)), (2, decide (16383 < leAt ps 2 2)), (4, decide (16383 < leAt ps 4 2))]
def acceptSetBody : List Byte → Nat → State → Ans := fun ps tn s =>
    .ok 0 [] ((servingDies s).foldl (fun s n =>
      regPut (rFLK_ACCEPT n tn) (BitVec.ofNat 64 (leAt ps 0 1 * 2 ^ 31 + leAt ps 4 2 * 2 ^ 14 + leAt ps 2 2)) s) s)
def acceptSetCmd (h : Cmd) (s : State) : State :=
  runCmd h 0x502 true acceptSetFields acceptSetBad acceptSetBody s

/-! ## Collective groups (R204, R205) -/

/-- The members of a list form, and the tenant named for each. -/
def memberList (form n : Nat) (d : List Byte) : List Nat × List Nat :=
  let w := if form = 1 then 4 else 2
  ((List.range n).map (fun i => leAt d (w * i) 2), if form = 1 then (List.range n).map (fun i => leAt d (w * i + 2) 2) else [])

/-- Collectives of a group's old definition end when the group is replaced, those that wait for their COLL_SEQ or to resume among them
(R205, R215). -/
def endGroupRuns (hd : Nat) (s : State) : State :=
  (allTasks s).foldl (fun s q =>
    let k := q.2.2.2
    match k.coll with
    | some r =>
      if (k.st = tsRunning ∨ k.st = tsFaultWait ∨ k.st = tsReady) ∧ cGroup r.desc = hd ∧ k.endStatus.isNone then collEnd q.1 q.2.1 stDmaError 0 0 s
      else s
    | none => s) s

/-- The parameter fields of opcode 0x503, which of them are out of range, and its effect (R366). -/
def groupDefineFields : List (Nat × Nat) := [(0, 1), (1, 1), (4, 4), (8, 8), (16, 1)]
def groupDefineBad (h : Cmd) : List Byte → Nat → List (Nat × Bool) := fun ps _ =>
    let n := leAt ps 4 4
    let short := decide (eDataLen h.entry < (if leAt ps 1 1 = 1 then 4 else 2) * n)
    let ml := if n = 0 ∨ 65536 < n ∨ short then ([], []) else memberList (leAt ps 1 1) n (dataIn h)
    [(1, decide (1 < leAt ps 1 1)), (4, n == 0 || decide (65536 < n) || decide (¬ ml.1.Nodup) || ml.2.any (fun t => decide (63 < t))),
     (16, decide (63 < leAt ps 16 1)), (0x800C, short)]
def groupDefineBody (h : Cmd) : List Byte → Nat → State → Ans := fun ps _ s =>
    let hd := leAt ps 0 1
    let iss := issuerOf s h.path
    let owner := leAt ps 16 1
    let other := match Mp.find s.groups hd with
      | some g => g.owner != iss
      | none => false
    if iss ≠ 0 ∧ (iss ≠ owner ∨ leAt ps 1 1 = 1 ∨ other = true) then .no rsNotPermitted 0 s
    else
      let ml := memberList (leAt ps 1 1) (leAt ps 4 4) (dataIn h)
      let s := endGroupRuns hd s
      .ok 0 [] { s with groups := Mp.ins s.groups hd ⟨leAt ps 8 8, owner, ml.1, ml.2, [], []⟩ }
def groupDefineCmd (h : Cmd) (s : State) : State :=
  runCmd h 0x503 false groupDefineFields (groupDefineBad h) (groupDefineBody h) s

/-! ## REMOTE (R367) -/

/-- The parameter fields of opcode 0x50C, which of them are out of range, and its effect (R366). -/
def remoteFields : List (Nat × Nat) := [(0, 2), (8, 64)]
def remoteBad (h : Cmd) : List Byte → Nat → List (Nat × Bool) := fun ps _ =>
    let e := (ps.drop 8).take 64
    [(0, decide (16383 < leAt ps 0 2)), (10, ePtr e), (20, decide (4032 < eDataLen e)), (0x8002, !ePtr h.entry),
     (0x800A, eParamLen h.entry != 72), (0x800C, decide (eDataLen h.entry < max 32 (eDataLen e)))]
def remoteBody (h : Cmd) : List Byte → Nat → State → Ans := fun ps tn s =>
    let e := (ps.drop 8).take 64
    let d := e ++ fit (eDataLen e) h.dataIn
    let pkt : Pkt := ⟨8, if tn = 0 then 7 else 6, 0, tn, 0, 0, leAt ps 0 2, moduleId s, d.length, 0, 0, 0, [], d⟩
    if !dieOk s 16 ∨ !colAttach s then .no rsPathLost 16 s
    else if !tagFree s 0 .melhal tn then .stay
    else match routeOf s 0 pkt with
      | .port q =>
        let te := takeTag 0 ⟨0, 0, .melhal, tn, .request 0, 0, 0, false, 0, [], some (leAt ps 0 2), some q, false⟩ s
        .wait [te.1.tag, te.1.reqId] 0 0 0 0 (enqueuePkt q { pkt with tag := te.1.tag, reqId := te.1.reqId } te.2)
      | _ => .no rsPathLost 16 s
/-- Sends the embedded command; the reply waits for the MGT_RSP of its tag. -/
def remoteCmd (h : Cmd) (s : State) : State :=
  runCmd h 0x50C false remoteFields (remoteBad h) (remoteBody h) s

def execIdentify (h : Cmd) (s : State) : Host.Outcome State Fault Refusal := .next (identifyCmd h s)
def execTenantInfo (h : Cmd) (s : State) : Host.Outcome State Fault Refusal := .next (tenantInfoCmd h s)
def execQpCreate (h : Cmd) (s : State) : Host.Outcome State Fault Refusal := .next (qpCreateCmd h s)
def execQpDelete (h : Cmd) (s : State) : Host.Outcome State Fault Refusal := .next (qpDeleteCmd h s)
def execQpAssign (h : Cmd) (s : State) : Host.Outcome State Fault Refusal := .next (qpAssignCmd h s)
def execMemRead (h : Cmd) (s : State) : Host.Outcome State Fault Refusal := .next (memReadCmd h s)
def execMemWrite (h : Cmd) (s : State) : Host.Outcome State Fault Refusal := .next (memWriteCmd h s)
def execGranuleAttr (h : Cmd) (s : State) : Host.Outcome State Fault Refusal := .next (granuleAttrCmd h s)
def execRcWays (h : Cmd) (s : State) : Host.Outcome State Fault Refusal := .next (rcWaysCmd h s)
def execRcFlush (h : Cmd) (s : State) : Host.Outcome State Fault Refusal := .next (rcFlushCmd h s)
def execDmaLimit (h : Cmd) (s : State) : Host.Outcome State Fault Refusal := .next (dmaLimitCmd h s)
def execRowRepair (h : Cmd) (s : State) : Host.Outcome State Fault Refusal := .next (rowRepairCmd h s)
def execPatrolScrubRead (stack : Nat) (s : State) : Host.Outcome State Fault Refusal := .next (scrubRead stack s)
def execStackWake (stack : Nat) (s : State) : Host.Outcome State Fault Refusal := .next (wakeStack stack s)
def execModuleId (h : Cmd) (s : State) : Host.Outcome State Fault Refusal := .next (moduleIdCmd h s)
def execRouteSet (h : Cmd) (s : State) : Host.Outcome State Fault Refusal := .next (routeSetCmd h s)
def execAcceptSet (h : Cmd) (s : State) : Host.Outcome State Fault Refusal := .next (acceptSetCmd h s)
def execGroupDefine (h : Cmd) (s : State) : Host.Outcome State Fault Refusal := .next (flushWaits (groupDefineCmd h s))
def execRemote (h : Cmd) (s : State) : Host.Outcome State Fault Refusal := .next (remoteCmd h s)

end Sys2Proof.Machine
end

