-- ==== Sys2Proof/Machine/Crest.lean ====
section
/-! DEFINITION. The Crest time base across modules, and trace rings (spec/11_crest_timebase_and_trace.md R325 to R338;
spec/12_host_interface_and_melhal.md R366, R369). -/

namespace Sys2Proof.Machine

/-! ## Parents (R330, R334) -/

def crestState (s : State) : Nat := fget s rCST_STATUS fCST_STATUS_STATE

/-- The port that steers the master now. -/
def parentOf (s : State) : Option Nat :=
  if fget s rCST_STATUS fCST_STATUS_PARENT_V = 1 then some (fget s rCST_STATUS fCST_STATUS_PARENT) else none

/-- The candidate ports in the order they are tried. -/
def parentCandidates (s : State) : List Nat :=
  ([fCST_PARENTS_CAND0, fCST_PARENTS_CAND1, fCST_PARENTS_CAND2, fCST_PARENTS_CAND3].map (fun f => fget s rCST_PARENTS f)).filterMap
    (fun c => if 128 ≤ c then some (c % 128) else none)

/-- The last offset from the parent as CST_OFFSET shows it. -/
def lastTheta (s : State) : Int := sext 32 (fget s rCST_OFFSET fCST_OFFSET_THETA)

/-- Enters a state; every change writes a SYNC trace record, and the conditions of R432 occur. -/
def enterCrest (st : Nat) (s : State) : State :=
  if crestState s = st then s
  else
    let s := { fset rCST_STATUS fCST_STATUS_STATE st s with streak := 0 }
    let s := trace 0 64 8 0xFF (stampAt s 64)
      (leFields [(1, st), (1, fget s rCST_STATUS fCST_STATUS_PARENT), (8, wrap 64 (lastTheta s))]) s
    if st = 3 then occurs 0 1 7 s else if st = 4 then occurs 0 1 8 s else s

/-- Sets the current parent. -/
def setParent (p : Option Nat) (s : State) : State :=
  match p with
  | some q => fset rCST_STATUS fCST_STATUS_PARENT_V 1 (fset rCST_STATUS fCST_STATUS_PARENT q s)
  | none => fset rCST_STATUS fCST_STATUS_PARENT_V 0 s

/-- The module steers toward its first candidate port that is UP; a new parent is acquired, with none UP it holds over, and
with no candidate it is free. STEP_NEEDED is left only by a time-step. -/
def chooseParent (s : State) : State :=
  let c := parentCandidates s
  match c.find? (fun p => portState s p == 3) with
  | some p =>
    if parentOf s = some p ∧ crestState s ≠ 0 ∧ crestState s ≠ 3 then s
    else
      let s := { setParent (some p) s with streak := 0 }
      if crestState s = 4 then s else enterCrest 1 s
  | none =>
    let s := setParent none s
    if crestState s = 4 then s else enterCrest (if c = [] then 0 else 3) s

/-- The parameter fields of opcode 0xB03, which of them are out of range, and its effect (R366). -/
def parentFields : List (Nat × Nat) := [(0, 4)]
def parentBad (s : State) : List Byte → Nat → List (Nat × Bool) := fun ps _ =>
    [(0, (List.range 4).any (fun i => decide (128 ≤ leAt ps i 1) && decide (nPorts s ≤ leAt ps i 1 % 128)))]
def parentBody : List Byte → Nat → State → Ans := fun ps _ s =>
    .ok 0 [] (chooseParent (regPut rCST_PARENTS (BitVec.ofNat 64 (leAt ps 0 4)) s))
/-- PARENT_SET. -/
def parentCmd (h : Cmd) (s : State) : State :=
  runCmd h 0xB03 true parentFields (parentBad s) parentBody s

/-- The parent port goes down. -/
def parentLost (s : State) : State :=
  match parentOf s with
  | some p => if portState s p = 3 then s else chooseParent s
  | none => s

/-! ## Reports and the servo (R330 to R332, R369) -/

/-- A stamp of 56 bits as the one nearest a counter (R330). -/
def nearestStamp (x near : Nat) : Nat :=
  let base := near / 2 ^ 56 * 2 ^ 56
  let a := base + x
  if near + 2 ^ 55 < a ∧ 2 ^ 56 ≤ a then a - 2 ^ 56 else if a + 2 ^ 55 < near then a + 2 ^ 56 else a

/-- The offset of the partner (R331), rounded toward zero to a whole count. -/
def offsetOf (t1 t2 t3 t4 : Nat) : Int := Int.tdiv (((t2 : Int) - t1) - ((t4 : Int) - t3)) 2

/-- A value kept within signed 32 bits. -/
def sat32 (x : Int) : Int := max (-2147483648) (min 2147483647 x)

/-- 1 ms in counts. -/
def oneMs : Int := 4000000

/-- The servo (R332) on an offset of the current parent. How it picks its rate correction is a free value within ±500 ppm. -/
def servo (theta : Int) (s : State) : State :=
  let s := fset rCST_OFFSET fCST_OFFSET_THETA (wrap 32 (sat32 theta)) s
  if crestState s = 4 then s
  else if oneMs < theta then { s with crest := s.crest + theta.toNat, streak := 0 }
  else if theta < -oneMs then enterCrest 4 s
  else
    let s := nextFree (fset rCST_FREQ fCST_FREQ_CORR (wrap 32 (((freeVal 56 s % 1000001 : Nat) : Int) - 500000)) s)
    let s := { s with streak := if -80 < theta ∧ theta < 80 then s.streak + 1 else 0 }
    if crestState s = 1 ∧ 16 ≤ s.streak then enterCrest 2 s else s

/-- What a Crest report that came on a port does: the servo takes that of the current parent. -/
def takeReport (port t1 t2 : Nat) (s : State) : State :=
  let s := chooseParent s
  let x := portOf s port
  if parentOf s = some port ∧ x.timeArr ≠ 0 ∧ t1 ≠ 0 ∧ t2 ≠ 0 then
    servo (offsetOf t1 t2 (nearestStamp x.timeIn x.timeArr) x.timeArr) s
  else s

/-- The port a report came on. -/
def reportPort : CmdPath → Nat
  | .fabric port _ _ _ => port
  | .qp _ => 0

/-- The parameter fields of opcode 0xB80, which of them are out of range, and its effect (R366). -/
def crestReportFields : List (Nat × Nat) := [(0, 1), (8, 8), (16, 8)]
def crestReportBad : List Byte → Nat → List (Nat × Bool) := fun _ _ => []
def crestReportBody (h : Cmd) : List Byte → Nat → State → Ans := fun ps _ s =>
    .ok 0 [] (takeReport (reportPort h.path) (leAt ps 8 8) (leAt ps 16 8) s)
/-- CREST_REPORT. -/
def crestReportCmd (h : Cmd) (s : State) : State :=
  runCmd h 0xB80 true crestReportFields crestReportBad (crestReportBody h) s

/-- The 64-byte entry of a report (R357, R369). -/
def reportEntry (port depart arrive : Nat) : List Byte :=
  leFields [(2, 0xB80), (2, 0), (4, 0), (1, 0), (1, 0), (2, 24), (4, 0), (16, 0), (1, port), (7, 0), (8, depart), (8, arrive), (8, 0)]

/-- The base die sends a Crest report on a synchronisation port (R331). -/
def sendReport (port : Nat) (s : State) : State :=
  let s := chooseParent s
  let x := portOf s port
  let n := pN port
  match x.partner with
  | some (m, _) =>
    if !isPort s port ∨ portState s port ≠ 3 ∨ x.timeArr = 0 ∨ isSafe s ∨ !tagFree s n .melhal 0 then s
    else
      let e := reportEntry port (nearestStamp x.timeIn x.timeArr) x.timeArr
      let te := takeTag n ⟨0, 0, .melhal, 0, .request 0, 0, 0, false, 0, [], some m, some port, false⟩ s
      enqueuePkt port ⟨8, 7, 0, 0, 0, 0, m, moduleId s, 64, te.1.tag, 0, te.1.reqId, [], e⟩ te.2
  | none => s

/-! ## The epoch pulse (R327, R329) -/

/-- The Crest codes of the dies beside the Col die: compute dies, base dies, stacks and sites. -/
def crestDies (s : State) : List Nat :=
  List.range (nDies s) ++ (List.range (nRidges s)).map (· + 16) ++ (List.range (nStacks s)).map (· + 32)
    ++ (List.range (nSites s)).map (· + 80)

/-- A die whose counter differs by more than 4 counts is realigned: stepped forward when behind, and when ahead held 4 counts
past the epoch value until that catches up. -/
def alignDie (u : Nat) (s : State) : State :=
  let d := Mp.get 0 s.skew u
  if -4 ≤ d ∧ d ≤ 4 then s
  else
    let s := occurs 0 1 6 (fset rCST_STATUS fCST_STATUS_ALIGN 1 s)
    if d < 0 then { s with skew := Mp.put 0 s.skew u 0 }
    else { s with skew := Mp.put 0 s.skew u 4, aligning := u :: s.aligning.filter (· != u) }

def epochPulse (s : State) : State :=
  if s.crestRun then ((crestDies s).filter (dieOk s)).foldl (fun s u => alignDie u s) s else s

/-! ## Steps (R329) -/

/-- Sets the master so that the Col die shows a value. -/
def setCrest (v : Nat) (s : State) : State := { s with crest := ((v : Int) - Mp.get 0 s.skew 64).toNat }

/-- The parameter fields of opcode 0xB01, which of them are out of range, and its effect (R366). -/
def timeSetFields : List (Nat × Nat) := [(0, 8)]
def timeSetBad (s : State) : List Byte → Nat → List (Nat × Bool) := fun ps _ => [(0, decide (leAt ps 0 8 < colNow s))]
def timeSetBody : List Byte → Nat → State → Ans := fun ps _ s =>
    .ok 0 [] (setCrest (leAt ps 0 8) s)
def timeSetCmd (h : Cmd) (s : State) : State :=
  runCmd h 0xB01 true timeSetFields (timeSetBad s) timeSetBody s

/-- The parameter fields of opcode 0xB02, which of them are out of range, and its effect (R366). -/
def timeStepFields : List (Nat × Nat) := [(0, 8)]
def timeStepBad (s : State) : List Byte → Nat → List (Nat × Bool) := fun ps _ => [(0, decide (colNow s < leAt ps 0 8))]
def timeStepBody : List Byte → Nat → State → Ans := fun ps _ s =>
    if anyResident s || tenantHolds s then .no rsState 0 s
    else
      let v := leAt ps 0 8
      let old := colNow s
      let s := { setCrest v s with lastAccept := min s.lastAccept v }
      let s := trace 0 64 7 0xFF v (leBytes 8 old) s
      .ok 0 [] (if crestState s = 4 then chooseParent (fset rCST_STATUS fCST_STATUS_STATE 0 s) else s)
/-- TIME_STEP: it ends STEP_NEEDED, and writes a STEP trace record. -/
def timeStepCmd (h : Cmd) (s : State) : State :=
  runCmd h 0xB02 true timeStepFields (timeStepBad s) timeStepBody s

/-! ## Trace rings (R338) -/

/-- The types of R337, as a mask. -/
def traceTypes : Nat := 0x3FE

/-- The parameter fields of opcode 0xB00, which of them are out of range, and its effect (R366). -/
def traceRingFields : List (Nat × Nat) := (ringFields ++ [(24, 4)])
def traceRingBad : List Byte → Nat → List (Nat × Bool) := fun ps _ => ringBad ps ++ [(24, leAt ps 24 4 &&& traceTypes != leAt ps 24 4)]
def traceRingBody : List Byte → Nat → State → Ans := fun ps _ s =>
      let r := leAt ps 0 1
      if (Mp.find s.tRings r).isSome then .no rsState 0 s
      else .ok 0 [] (setRing (.trace r)
        (newRing 0 (leAt ps 1 1) (leAt ps 2 1) (leAt ps 4 4) (leAt ps 8 8) (leAt ps 16 8) (leAt ps 24 4)) s)
def traceRingCmd (h : Cmd) (s : State) : State :=
  runCmd h 0xB00 true traceRingFields traceRingBad traceRingBody s

def execTraceRing (h : Cmd) (s : State) : Host.Outcome State Fault Refusal := .next (traceRingCmd h s)
def execTimeSet (h : Cmd) (s : State) : Host.Outcome State Fault Refusal := .next (timeSetCmd h s)
def execTimeStep (h : Cmd) (s : State) : Host.Outcome State Fault Refusal := .next (timeStepCmd h s)
def execParentSet (h : Cmd) (s : State) : Host.Outcome State Fault Refusal := .next (parentCmd h s)
def execCrestReport (h : Cmd) (s : State) : Host.Outcome State Fault Refusal := .next (crestReportCmd h s)
def execCrestEpochPulse (s : State) : Host.Outcome State Fault Refusal := .next (epochPulse s)
def execCrestReportTimer (port : Nat) (s : State) : Host.Outcome State Fault Refusal := .next (sendReport port s)
def execParentPortLost (s : State) : Host.Outcome State Fault Refusal := .next (parentLost s)

end Sys2Proof.Machine
end

