-- ==== Sys2Proof/Machine/Scalar.lean ====
section
/-! DEFINITION. The instructions the scalar sequencer executes itself: groups 0x0, 0x1, 0x2 and 0xA
(spec/03_cores_and_instruction_set.md R77, R87 to R91, R100; spec/05_memory_stacks_and_ridge_cache.md R160, R161). -/

namespace Sys2Proof.Machine

/-- A format-A word. -/
def wordA (o : Byte) (p : Pre) (f : FmtA) : CWord := ⟨o, p, .a f⟩

/-! ## Control -/

def execNop (c : Nat) (p : Pre) (f : FmtA) (s : State) : Host.Outcome State Fault Refusal :=
  .next (sqRun c (wordA 0x00#8 p f) (fun _ s => .done s) s)

/-- The core's share of the task has ended; the last to end gives the task status OK, committed by TASK_COMMIT (R120). It may be
the last that a pre-emption under way waited for (R119). -/
def endShare (c : Nat) (s : State) : State :=
  let k := coreOf s c
  match k.task with
  | none => s
  | some (h, t, rank) =>
    let s := setCore c { k with ended := true } s
    preemptDone h t (updTask h t (fun x =>
      let x := { x with endedRanks := x.endedRanks ++ [rank], flags := x.flags ||| coreFlags k }
      if x.endedRanks.length = x.nCores ∧ x.endStatus.isNone then { x with endStatus := some (0, 0) } else x) s)

def execEndTask (c : Nat) (p : Pre) (f : FmtA) (s : State) : Host.Outcome State Fault Refusal :=
  .next (sqRun c (wordA 0x01#8 p f) (fun _ s => if allDone (coreOf s c) then .done (endShare c s) else .held s) s)

def execJmp (c : Nat) (p : Pre) (f : FmtA) (s : State) : Host.Outcome State Fault Refusal :=
  .next (sqRun c (wordA 0x02#8 p f) (effJump c true f) s)

def execJnz (c : Nat) (p : Pre) (f : FmtA) (s : State) : Host.Outcome State Fault Refusal :=
  .next (sqRun c (wordA 0x03#8 p f) (fun pc s => effJump c (sget (coreOf s c) f.sa != 0#64) f pc s) s)

def execJz (c : Nat) (p : Pre) (f : FmtA) (s : State) : Host.Outcome State Fault Refusal :=
  .next (sqRun c (wordA 0x04#8 p f) (fun pc s => effJump c (sget (coreOf s c) f.sa == 0#64) f pc s) s)

def effLoop (c : Nat) (f : FmtA) (pc : Nat) (s : State) : ERes :=
  let v := sget (coreOf s c) f.sa - 1#64
  effJump c (v != 0#64) f pc (updCore c (sset f.sa v) s)

def execLoop (c : Nat) (p : Pre) (f : FmtA) (s : State) : Host.Outcome State Fault Refusal :=
  .next (sqRun c (wordA 0x05#8 p f) (effLoop c f) s)

def execCall (c : Nat) (p : Pre) (f : FmtA) (s : State) : Host.Outcome State Fault Refusal :=
  .next (sqRun c (wordA 0x06#8 p f)
    (fun pc s => effJump c true f pc (updCore c (sset f.sd (BitVec.ofNat 64 pc + 16#64)) s)) s)

def effRet (c : Nat) (f : FmtA) (_pc : Nat) (s : State) : ERes :=
  let v := sget (coreOf s c) f.sa
  if v.toNat % 16 ≠ 0 then .fail stMisaligned s else .done (setPc c v s)

def execRet (c : Nat) (p : Pre) (f : FmtA) (s : State) : Host.Outcome State Fault Refusal :=
  .next (sqRun c (wordA 0x07#8 p f) (effRet c f) s)

/-- A pending pre-emption is taken here; otherwise no effect (R100). -/
def execYield (c : Nat) (p : Pre) (f : FmtA) (s : State) : Host.Outcome State Fault Refusal :=
  .next (sqRun c (wordA 0x08#8 p f) (fun _ s => .done (preemptCore c s)) s)

def effSxt (c : Nat) (f : FmtA) (_pc : Nat) (s : State) : ERes :=
  .done (updCore c (fun k => { k with extent := min k.extent (alignUp (sget k f.sa).toNat 65536) }) s)

def execSxt (c : Nat) (p : Pre) (f : FmtA) (s : State) : Host.Outcome State Fault Refusal :=
  .next (sqRun c (wordA 0x09#8 p f) (effSxt c f) s)

/-- Ends the task with USER_TRAP; DETAIL holds IMM[15:0] and the PC (R130). -/
def effTrap (c : Nat) (f : FmtA) (pc : Nat) (s : State) : ERes :=
  match (coreOf s c).task with
  | some (h, t, _) => .ended (failTask h t stUserTrap (rankPc f.imm.toNat pc) s)
  | none => .ended s

def execTrap (c : Nat) (p : Pre) (f : FmtA) (s : State) : Host.Outcome State Fault Refusal :=
  .next (sqRun c (wordA 0x0A#8 p f) (effTrap c f) s)

/-! ## Scalar arithmetic -/

def execAdd (c : Nat) (p : Pre) (f : FmtA) (s : State) : Host.Outcome State Fault Refusal :=
  .next (sqRun c (wordA 0x10#8 p f) (effAlu (fun a b => a + b) c f) s)
def execSub (c : Nat) (p : Pre) (f : FmtA) (s : State) : Host.Outcome State Fault Refusal :=
  .next (sqRun c (wordA 0x11#8 p f) (effAlu (fun a b => a - b) c f) s)
def execMul (c : Nat) (p : Pre) (f : FmtA) (s : State) : Host.Outcome State Fault Refusal :=
  .next (sqRun c (wordA 0x12#8 p f) (effAlu (fun a b => a * b) c f) s)
def execAndd (c : Nat) (p : Pre) (f : FmtA) (s : State) : Host.Outcome State Fault Refusal :=
  .next (sqRun c (wordA 0x13#8 p f) (effAlu (fun a b => a &&& b) c f) s)
def execOrr (c : Nat) (p : Pre) (f : FmtA) (s : State) : Host.Outcome State Fault Refusal :=
  .next (sqRun c (wordA 0x14#8 p f) (effAlu (fun a b => a ||| b) c f) s)
def execXorr (c : Nat) (p : Pre) (f : FmtA) (s : State) : Host.Outcome State Fault Refusal :=
  .next (sqRun c (wordA 0x15#8 p f) (effAlu (fun a b => a ^^^ b) c f) s)
def execShl (c : Nat) (p : Pre) (f : FmtA) (s : State) : Host.Outcome State Fault Refusal :=
  .next (sqRun c (wordA 0x16#8 p f) (effAlu (fun a b => a <<< (b.toNat % 64)) c f) s)
def execShr (c : Nat) (p : Pre) (f : FmtA) (s : State) : Host.Outcome State Fault Refusal :=
  .next (sqRun c (wordA 0x17#8 p f) (effAlu (fun a b => a >>> (b.toNat % 64)) c f) s)
def execSar (c : Nat) (p : Pre) (f : FmtA) (s : State) : Host.Outcome State Fault Refusal :=
  .next (sqRun c (wordA 0x18#8 p f) (effAlu (fun a b => a.sshiftRight (b.toNat % 64)) c f) s)
def execMinn (c : Nat) (p : Pre) (f : FmtA) (s : State) : Host.Outcome State Fault Refusal :=
  .next (sqRun c (wordA 0x19#8 p f) (effAlu (fun a b => if BitVec.slt a b then a else b) c f) s)
def execMaxx (c : Nat) (p : Pre) (f : FmtA) (s : State) : Host.Outcome State Fault Refusal :=
  .next (sqRun c (wordA 0x1A#8 p f) (effAlu (fun a b => if BitVec.slt a b then b else a) c f) s)
def execSlt (c : Nat) (p : Pre) (f : FmtA) (s : State) : Host.Outcome State Fault Refusal :=
  .next (sqRun c (wordA 0x1B#8 p f) (effAlu (fun a b => if BitVec.slt a b then 1#64 else 0#64) c f) s)
def execSltu (c : Nat) (p : Pre) (f : FmtA) (s : State) : Host.Outcome State Fault Refusal :=
  .next (sqRun c (wordA 0x1C#8 p f) (effAlu (fun a b => if BitVec.ult a b then 1#64 else 0#64) c f) s)
def execSeq (c : Nat) (p : Pre) (f : FmtA) (s : State) : Host.Outcome State Fault Refusal :=
  .next (sqRun c (wordA 0x1D#8 p f) (effAlu (fun a b => if a = b then 1#64 else 0#64) c f) s)
def execLi (c : Nat) (p : Pre) (f : FmtA) (s : State) : Host.Outcome State Fault Refusal :=
  .next (sqRun c (wordA 0x1E#8 p f) (fun _ s => .done (updCore c (sset f.sd f.imm) s)) s)
def execCrst (c : Nat) (p : Pre) (f : FmtA) (s : State) : Host.Outcome State Fault Refusal :=
  .next (sqRun c (wordA 0x1F#8 p f)
    (fun _ s => .done (updCore c (sset f.sd (BitVec.ofNat 64 (stampAt s (c / 16)))) s)) s)

/-! ## Scalar memory and cache control -/

def effSld (c : Nat) (f : FmtA) (_pc : Nat) (s : State) : ERes :=
  sheafLoad c (scalarAddr (coreOf s c) f) 8 8 s fun bs s => .done (updCore c (sset f.sd (BitVec.ofNat 64 (leNat bs))) s)

def execSld (c : Nat) (p : Pre) (f : FmtA) (s : State) : Host.Outcome State Fault Refusal :=
  .next (sqRun c (wordA 0x20#8 p f) (effSld c f) s)

def effSst (c : Nat) (f : FmtA) (_pc : Nat) (s : State) : ERes :=
  let k := coreOf s c
  sheafStore c (scalarAddr k f) 8 (leBytes 8 (sget k f.sb).toNat) s

def execSst (c : Nat) (p : Pre) (f : FmtA) (s : State) : Host.Outcome State Fault Refusal :=
  .next (sqRun c (wordA 0x21#8 p f) (effSst c f) s)

def effSldg (c : Nat) (f : FmtA) (pc : Nat) (s : State) : ERes :=
  let va := scalarAddr (coreOf s c) f
  if va % 8 ≠ 0 then .fail stMisaligned s
  else match vread (.core c) (coreTaskTenant s c) va 8 accRead s with
    | (.ok bs, s) => .done (updCore c (sset f.sd (BitVec.ofNat 64 (leNat bs))) s)
    | (r, s) => coreAccessFail c pc va accRead r s

def execSldg (c : Nat) (p : Pre) (f : FmtA) (s : State) : Host.Outcome State Fault Refusal :=
  .next (sqRun c (wordA 0x22#8 p f) (effSldg c f) s)

def effSstg (c : Nat) (f : FmtA) (pc : Nat) (s : State) : ERes :=
  let k := coreOf s c
  let va := scalarAddr k f
  if va % 8 ≠ 0 then .fail stMisaligned s
  else match vwrite (.core c) (coreTaskTenant s c) va (leBytes 8 (sget k f.sb).toNat) accWrite s with
    | (.ok _, s) => .done s
    | (r, s) => coreAccessFail c pc va accWrite r s

def execSstg (c : Nat) (p : Pre) (f : FmtA) (s : State) : Host.Outcome State Fault Refusal :=
  .next (sqRun c (wordA 0x23#8 p f) (effSstg c f) s)

def execFence (c : Nat) (p : Pre) (f : FmtA) (s : State) : Host.Outcome State Fault Refusal :=
  .next (sqRun c (wordA 0x24#8 p f) (fun _ s => if allDone (coreOf s c) then .done s else .held s) s)

/-- Flushes every translated piece of a range; the first PA that no stack accepted, if any (R160). -/
def flushPieces (ridge : Nat) (ps : List (Nat × Nat)) (s : State) : Option Nat × State :=
  ps.foldl (fun r p =>
    let q := flushRange ridge p.1 p.2 r.2
    (match r.1 with
      | some x => some x
      | none => q.1, q.2)) (none, s)

def effRflush (c : Nat) (f : FmtA) (pc : Nat) (s : State) : ERes :=
  let k := coreOf s c
  let va := (sget k f.sa).toNat
  match translateRange (.core c) (coreTaskTenant s c) va (sget k f.sb).toNat accFlush s with
  | (.inr (v, e), s) => coreAccessFail c pc va accFlush (vresOf v e) s
  | (.inl ps, s) =>
    match flushPieces (c / 48) ps s with
    | (none, s) => .done s
    | (some pa, s) => coreAccessFail c pc va accFlush (.lost (lostUnit s (c / 48) pa) pa) s

def execRflush (c : Nat) (p : Pre) (f : FmtA) (s : State) : Host.Outcome State Fault Refusal :=
  .next (sqRun c (wordA 0x25#8 p f) (effRflush c f) s)

def effRinv (c : Nat) (f : FmtA) (pc : Nat) (s : State) : ERes :=
  let k := coreOf s c
  let va := (sget k f.sa).toNat
  match translateRange (.core c) (coreTaskTenant s c) va (sget k f.sb).toNat accFlush s with
  | (.inr (v, e), s) => coreAccessFail c pc va accFlush (vresOf v e) s
  | (.inl ps, s) => .done (ps.foldl (fun s p => if p.2 = 0 then s else dropBorrowed (some (c / 48)) p.1 p.2 s) s)

def execRinv (c : Nat) (p : Pre) (f : FmtA) (s : State) : Host.Outcome State Fault Refusal :=
  .next (sqRun c (wordA 0x26#8 p f) (effRinv c f) s)

/-! ## Synchronisation -/

/-- An EVSIG past 65,535 is an event overflow as any increment is (R88). -/
def effEvsig (c : Nat) (f : FmtA) (pc : Nat) (s : State) : ERes :=
  let v := evGet (coreOf s c) f.ev.toNat + f.imm.toNat % 65536
  if 65535 < v then .ended (coreFail c stEventOverflow pc s) else .done (updCore c (evSet f.ev.toNat v) s)

def execEvsig (c : Nat) (p : Pre) (f : FmtA) (s : State) : Host.Outcome State Fault Refusal :=
  .next (sqRun c (wordA 0xA0#8 p f) (effEvsig c f) s)

def effEvwait (c : Nat) (f : FmtA) (_pc : Nat) (s : State) : ERes :=
  let v := evGet (coreOf s c) f.ev.toNat
  let n := f.imm.toNat % 65536
  if n ≤ v then .done (updCore c (evSet f.ev.toNat (v - n)) s) else .held s

def execEvwait (c : Nat) (p : Pre) (f : FmtA) (s : State) : Host.Outcome State Fault Refusal :=
  .next (sqRun c (wordA 0xA1#8 p f) (effEvwait c f) s)

def execEvrd (c : Nat) (p : Pre) (f : FmtA) (s : State) : Host.Outcome State Fault Refusal :=
  .next (sqRun c (wordA 0xA2#8 p f)
    (fun _ s => .done (updCore c (fun k => sset f.sd (BitVec.ofNat 64 (evGet k f.ev.toNat)) k) s)) s)

/-- One attempt of a SEMACQ (R89): taken if the word suffices, else it waits with its limit. -/
def effSemacq (c : Nat) (w : CWord) (f : FmtA) (pc : Nat) (s : State) : ERes :=
  let k := coreOf s c
  let va := (sget k f.sa).toNat
  if va % 8 ≠ 0 then .fail stMisaligned s
  else match semRead c va s with
    | (.inr r, s) => coreAccessFail c pc va accAtomic r s
    | (.inl (pa, v), s) =>
      let want := (sget k f.sb).toNat
      if want ≤ v then
        match semWrite c va pa (v - want) s with
        | (none, s) => .done (updCore c (fun k => sset f.sd 1#64 { k with sem := none }) s)
        | (some r, s) => coreAccessFail c pc va accAtomic r s
      else
        .held (updCore c (fun k => { k with sem := match k.sem with
          | some x => some x
          | none => some (w, if sget k f.sc = 0#64 then 0 else stampAt s (c / 16) + (sget k f.sc).toNat) }) s)

def execSemacq (c : Nat) (p : Pre) (f : FmtA) (s : State) : Host.Outcome State Fault Refusal :=
  .next (sqRun c (wordA 0xA3#8 p f) (effSemacq c (wordA 0xA3#8 p f) f) s)

/-- The limit of a waiting SEMACQ has passed: S[SD] is 0 and the word is unchanged (R89). Before the Crest count reaches it there
is nothing to do. -/
def execSemacqTimeout (c : Nat) (s : State) : Host.Outcome State Fault Refusal :=
  let k := coreOf s c
  match k.sem with
  | some (w, limit) =>
    if limit = 0 || decide (stampAt s (c / 16) < limit) || !canIssue s c then .next s
    else match w.fmt with
      | .a f => .next (pump c (signalEv c k.pc.toNat w.pre
          (setCore c (sset f.sd 0#64 { k with sem := none, waited := false, pc := k.pc + 16#64 }) s)))
      | _ => .next s
  | none => .next s

def effSemrel (c : Nat) (f : FmtA) (pc : Nat) (s : State) : ERes :=
  let k := coreOf s c
  let va := (sget k f.sa).toNat
  if va % 8 ≠ 0 then .fail stMisaligned s
  else if !storesDone k then .held s
  else match semRead c va s with
    | (.inr r, s) => coreAccessFail c pc va accAtomic r s
    | (.inl (pa, v), s) =>
      match semWrite c va pa ((v + (sget k f.sb).toNat) % 2 ^ 64) s with
      | (none, s) => .done s
      | (some r, s) => coreAccessFail c pc va accAtomic r s

def execSemrel (c : Nat) (p : Pre) (f : FmtA) (s : State) : Host.Outcome State Fault Refusal :=
  .next (sqRun c (wordA 0xA4#8 p f) (effSemrel c f) s)

/-! ## Completion -/

/-- An instruction's results become visible (R88). -/
def execInstructionCompletion (c u : Nat) (s : State) : Host.Outcome State Fault Refusal := .next (complete c u s)

end Sys2Proof.Machine
end

