-- ==== Sys2Proof/Machine/Smbus.lean ====
section
/-! DEFINITION. The SMBus-class sideband (spec/19_electrical_and_mechanical.md R483 to R485). -/

namespace Sys2Proof.Machine

/-- Whether the module answers its address: the firmware runs, and the boundary register does not drive the pins. -/
def smbusAnswers (s : State) : Bool := s.boot.up && s.boot.fw && s.test.tap != 3

/-- The answer to a read with a good PEC; no byte stands for NACK. -/
def smbusRead (pecOk : Bool) (bytes : List Byte) (s : State) : State :=
  if !smbusAnswers s then s else emit (.smbus (if pecOk then bytes else [])) s

/-- A register's 4 bytes; the sideband reads without the effects of a read. -/
def smbusReg (s : State) (a : Nat) : List Byte :=
  match findReg (a / 0x4000000) (a % 0x4000000) with
  | some (r, _) => leBytes 4 (viewReg r a s)
  | none => []

def smbusIdentify (pecOk : Bool) (s : State) : State :=
  smbusRead pecOk (smbusReg s rMGT_DEVICE_ID ++ smbusReg s rFLK_MODULE_ID ++ leBytes 4 (fnStatus s 0)) s

def smbusStatus (pecOk : Bool) (s : State) : State :=
  smbusRead pecOk (smbusReg s rRST_CAUSE ++ smbusReg s rPWR_STATUS ++ smbusReg s rFLT_CTRL ++ smbusReg s rCRN_STATUS) s

def smbusTelemetry (pecOk : Bool) (s : State) : State := smbusRead pecOk (telemetry s) s

def smbusFaults (pecOk : Bool) (s : State) : State :=
  smbusRead pecOk (leBytes 8 (viewCol rFLT_UNIT_PENDING s)) s

/-- CAIRN_SELECT sets the read selection. -/
def cairnSelect (recno offset : Nat) (pecOk : Bool) (s : State) : State :=
  if !smbusAnswers s then s
  else if pecOk then { s with test := { s.test with recno := recno % 2 ^ 64, offset := offset % 2 ^ 16 } }
  else emit (.smbus []) s

/-- The bytes of a CAIRN_READ: a status byte, then up to 240 bytes of the record. -/
def cairnBytes (s : State) : List Byte :=
  if !s.crn.supply then [2#8]
  else match Mp.find s.crn.store s.test.recno with
    | none => [1#8]
    | some r => if 2596 ≤ s.test.offset then [3#8] else 0#8 :: (r.drop s.test.offset).take 240

/-- CAIRN_READ; OFFSET advances by the bytes of the record returned. -/
def cairnRead (pecOk : Bool) (s : State) : State :=
  let b := cairnBytes s
  if smbusAnswers s ∧ pecOk then
    emit (.smbus b) { s with test := { s.test with offset := s.test.offset + (b.length - 1) } }
  else smbusRead false [] s

/-- CAIRN_LAST; with no Cairn to answer its register has no stated value. -/
def cairnLast (pecOk : Bool) (s : State) : State :=
  if s.crn.supply then smbusRead pecOk (leBytes 8 s.crn.recno) s
  else nextFree (smbusRead pecOk (leBytes 8 (freeVal 54 s)) s)

/-- The Alert Response Address is answered, with the module's own address 0x5C, only while SMB_ALERT_N is asserted. -/
def alertAnswer (pecOk : Bool) (s : State) : State := if alertLow s then smbusRead pecOk [0xB8#8] s else s

def execSmbusIdentify (pecOk : Bool) (s : State) : Host.Outcome State Fault Refusal := .next (smbusIdentify pecOk s)
def execSmbusStatus (pecOk : Bool) (s : State) : Host.Outcome State Fault Refusal := .next (smbusStatus pecOk s)
def execSmbusTelemetry (pecOk : Bool) (s : State) : Host.Outcome State Fault Refusal := .next (smbusTelemetry pecOk s)
def execSmbusFaults (pecOk : Bool) (s : State) : Host.Outcome State Fault Refusal := .next (smbusFaults pecOk s)
def execCairnSelect (recno offset : Nat) (pecOk : Bool) (s : State) : Host.Outcome State Fault Refusal :=
  .next (cairnSelect recno offset pecOk s)
def execCairnRead (pecOk : Bool) (s : State) : Host.Outcome State Fault Refusal := .next (cairnRead pecOk s)
def execCairnLast (pecOk : Bool) (s : State) : Host.Outcome State Fault Refusal := .next (cairnLast pecOk s)
def execSmbusAlertResponse (pecOk : Bool) (s : State) : Host.Outcome State Fault Refusal := .next (alertAnswer pecOk s)
/-- The transaction ends; no bytes of it were acted on. -/
def execSmbusClockLowTimeout (s : State) : Host.Outcome State Fault Refusal := .next s

end Sys2Proof.Machine
end

