-- ==== Sys2Proof/Machine/Units.lean ====
section
/-! DEFINITION. The instructions the scalar sequencer passes to other units: each is checked at issue and enters its unit's
queue; unitEffect says what it does when it starts (spec/03_cores_and_instruction_set.md R68, R74, R77). -/

namespace Sys2Proof.Machine

def execVadd (c : Nat) (p : Pre) (f : FmtV) (s : State) : Host.Outcome State Fault Refusal :=
  .next (unitIssue c ⟨0x30#8, p, .v f⟩ s)
def execVsub (c : Nat) (p : Pre) (f : FmtV) (s : State) : Host.Outcome State Fault Refusal :=
  .next (unitIssue c ⟨0x31#8, p, .v f⟩ s)
def execVmul (c : Nat) (p : Pre) (f : FmtV) (s : State) : Host.Outcome State Fault Refusal :=
  .next (unitIssue c ⟨0x32#8, p, .v f⟩ s)
def execVfma (c : Nat) (p : Pre) (f : FmtV) (s : State) : Host.Outcome State Fault Refusal :=
  .next (unitIssue c ⟨0x33#8, p, .v f⟩ s)
def execVmin (c : Nat) (p : Pre) (f : FmtV) (s : State) : Host.Outcome State Fault Refusal :=
  .next (unitIssue c ⟨0x34#8, p, .v f⟩ s)
def execVmax (c : Nat) (p : Pre) (f : FmtV) (s : State) : Host.Outcome State Fault Refusal :=
  .next (unitIssue c ⟨0x35#8, p, .v f⟩ s)
def execVsqrt (c : Nat) (p : Pre) (f : FmtV) (s : State) : Host.Outcome State Fault Refusal :=
  .next (unitIssue c ⟨0x36#8, p, .v f⟩ s)
def execVrcp (c : Nat) (p : Pre) (f : FmtV) (s : State) : Host.Outcome State Fault Refusal :=
  .next (unitIssue c ⟨0x37#8, p, .v f⟩ s)
def execVrsqrt (c : Nat) (p : Pre) (f : FmtV) (s : State) : Host.Outcome State Fault Refusal :=
  .next (unitIssue c ⟨0x38#8, p, .v f⟩ s)
def execVexp2 (c : Nat) (p : Pre) (f : FmtV) (s : State) : Host.Outcome State Fault Refusal :=
  .next (unitIssue c ⟨0x39#8, p, .v f⟩ s)
def execVlog2 (c : Nat) (p : Pre) (f : FmtV) (s : State) : Host.Outcome State Fault Refusal :=
  .next (unitIssue c ⟨0x3A#8, p, .v f⟩ s)
def execVabs (c : Nat) (p : Pre) (f : FmtV) (s : State) : Host.Outcome State Fault Refusal :=
  .next (unitIssue c ⟨0x3B#8, p, .v f⟩ s)
def execVcmplt (c : Nat) (p : Pre) (f : FmtV) (s : State) : Host.Outcome State Fault Refusal :=
  .next (unitIssue c ⟨0x3C#8, p, .v f⟩ s)
def execVcmpeq (c : Nat) (p : Pre) (f : FmtV) (s : State) : Host.Outcome State Fault Refusal :=
  .next (unitIssue c ⟨0x3D#8, p, .v f⟩ s)
def execVsel (c : Nat) (p : Pre) (f : FmtV) (s : State) : Host.Outcome State Fault Refusal :=
  .next (unitIssue c ⟨0x3E#8, p, .v f⟩ s)
def execVmov (c : Nat) (p : Pre) (f : FmtV) (s : State) : Host.Outcome State Fault Refusal :=
  .next (unitIssue c ⟨0x3F#8, p, .v f⟩ s)
def execViadd (c : Nat) (p : Pre) (f : FmtV) (s : State) : Host.Outcome State Fault Refusal :=
  .next (unitIssue c ⟨0x40#8, p, .v f⟩ s)
def execVisub (c : Nat) (p : Pre) (f : FmtV) (s : State) : Host.Outcome State Fault Refusal :=
  .next (unitIssue c ⟨0x41#8, p, .v f⟩ s)
def execVimul (c : Nat) (p : Pre) (f : FmtV) (s : State) : Host.Outcome State Fault Refusal :=
  .next (unitIssue c ⟨0x42#8, p, .v f⟩ s)
def execVand (c : Nat) (p : Pre) (f : FmtV) (s : State) : Host.Outcome State Fault Refusal :=
  .next (unitIssue c ⟨0x43#8, p, .v f⟩ s)
def execVor (c : Nat) (p : Pre) (f : FmtV) (s : State) : Host.Outcome State Fault Refusal :=
  .next (unitIssue c ⟨0x44#8, p, .v f⟩ s)
def execVxor (c : Nat) (p : Pre) (f : FmtV) (s : State) : Host.Outcome State Fault Refusal :=
  .next (unitIssue c ⟨0x45#8, p, .v f⟩ s)
def execVshl (c : Nat) (p : Pre) (f : FmtV) (s : State) : Host.Outcome State Fault Refusal :=
  .next (unitIssue c ⟨0x46#8, p, .v f⟩ s)
def execVshr (c : Nat) (p : Pre) (f : FmtV) (s : State) : Host.Outcome State Fault Refusal :=
  .next (unitIssue c ⟨0x47#8, p, .v f⟩ s)
def execVsar (c : Nat) (p : Pre) (f : FmtV) (s : State) : Host.Outcome State Fault Refusal :=
  .next (unitIssue c ⟨0x48#8, p, .v f⟩ s)
def execViota (c : Nat) (p : Pre) (f : FmtV) (s : State) : Host.Outcome State Fault Refusal :=
  .next (unitIssue c ⟨0x49#8, p, .v f⟩ s)
def execVbcast (c : Nat) (p : Pre) (f : FmtV) (s : State) : Host.Outcome State Fault Refusal :=
  .next (unitIssue c ⟨0x4A#8, p, .v f⟩ s)
def execVcvt (c : Nat) (p : Pre) (f : FmtV) (s : State) : Host.Outcome State Fault Refusal :=
  .next (unitIssue c ⟨0x50#8, p, .v f⟩ s)
def execVqb (c : Nat) (p : Pre) (f : FmtV) (s : State) : Host.Outcome State Fault Refusal :=
  .next (unitIssue c ⟨0x51#8, p, .v f⟩ s)
def execVdqb (c : Nat) (p : Pre) (f : FmtV) (s : State) : Host.Outcome State Fault Refusal :=
  .next (unitIssue c ⟨0x52#8, p, .v f⟩ s)
def execVrsum (c : Nat) (p : Pre) (f : FmtV) (s : State) : Host.Outcome State Fault Refusal :=
  .next (unitIssue c ⟨0x60#8, p, .v f⟩ s)
def execVrmax (c : Nat) (p : Pre) (f : FmtV) (s : State) : Host.Outcome State Fault Refusal :=
  .next (unitIssue c ⟨0x61#8, p, .v f⟩ s)
def execVrmin (c : Nat) (p : Pre) (f : FmtV) (s : State) : Host.Outcome State Fault Refusal :=
  .next (unitIssue c ⟨0x62#8, p, .v f⟩ s)
def execArsum (c : Nat) (p : Pre) (f : FmtT) (s : State) : Host.Outcome State Fault Refusal :=
  .next (unitIssue c ⟨0x63#8, p, .t f⟩ s)
def execArmax (c : Nat) (p : Pre) (f : FmtT) (s : State) : Host.Outcome State Fault Refusal :=
  .next (unitIssue c ⟨0x64#8, p, .t f⟩ s)
def execAsmx (c : Nat) (p : Pre) (f : FmtT) (s : State) : Host.Outcome State Fault Refusal :=
  .next (unitIssue c ⟨0x65#8, p, .t f⟩ s)
def execAresc (c : Nat) (p : Pre) (f : FmtT) (s : State) : Host.Outcome State Fault Refusal :=
  .next (unitIssue c ⟨0x66#8, p, .t f⟩ s)
def execAnorm (c : Nat) (p : Pre) (f : FmtT) (s : State) : Host.Outcome State Fault Refusal :=
  .next (unitIssue c ⟨0x67#8, p, .t f⟩ s)
def execVld (c : Nat) (p : Pre) (f : FmtV) (s : State) : Host.Outcome State Fault Refusal :=
  .next (unitIssue c ⟨0x70#8, p, .v f⟩ s)
def execVst (c : Nat) (p : Pre) (f : FmtV) (s : State) : Host.Outcome State Fault Refusal :=
  .next (unitIssue c ⟨0x71#8, p, .v f⟩ s)
def execVldg (c : Nat) (p : Pre) (f : FmtV) (s : State) : Host.Outcome State Fault Refusal :=
  .next (unitIssue c ⟨0x72#8, p, .v f⟩ s)
def execVstg (c : Nat) (p : Pre) (f : FmtV) (s : State) : Host.Outcome State Fault Refusal :=
  .next (unitIssue c ⟨0x73#8, p, .v f⟩ s)
def execVlds (c : Nat) (p : Pre) (f : FmtV) (s : State) : Host.Outcome State Fault Refusal :=
  .next (unitIssue c ⟨0x74#8, p, .v f⟩ s)
def execVsts (c : Nat) (p : Pre) (f : FmtV) (s : State) : Host.Outcome State Fault Refusal :=
  .next (unitIssue c ⟨0x75#8, p, .v f⟩ s)
def execTld (c : Nat) (p : Pre) (f : FmtT) (s : State) : Host.Outcome State Fault Refusal :=
  .next (unitIssue c ⟨0x80#8, p, .t f⟩ s)
def execTst (c : Nat) (p : Pre) (f : FmtT) (s : State) : Host.Outcome State Fault Refusal :=
  .next (unitIssue c ⟨0x81#8, p, .t f⟩ s)
def execTldt (c : Nat) (p : Pre) (f : FmtT) (s : State) : Host.Outcome State Fault Refusal :=
  .next (unitIssue c ⟨0x82#8, p, .t f⟩ s)
def execTzero (c : Nat) (p : Pre) (f : FmtT) (s : State) : Host.Outcome State Fault Refusal :=
  .next (unitIssue c ⟨0x83#8, p, .t f⟩ s)
def execTmm (c : Nat) (p : Pre) (f : FmtT) (s : State) : Host.Outcome State Fault Refusal :=
  .next (unitIssue c ⟨0x90#8, p, .t f⟩ s)
def execAzero (c : Nat) (p : Pre) (f : FmtT) (s : State) : Host.Outcome State Fault Refusal :=
  .next (unitIssue c ⟨0x91#8, p, .t f⟩ s)
def execAst (c : Nat) (p : Pre) (f : FmtT) (s : State) : Host.Outcome State Fault Refusal :=
  .next (unitIssue c ⟨0x92#8, p, .t f⟩ s)
def execAld (c : Nat) (p : Pre) (f : FmtT) (s : State) : Host.Outcome State Fault Refusal :=
  .next (unitIssue c ⟨0x93#8, p, .t f⟩ s)
def execArdv (c : Nat) (p : Pre) (f : FmtT) (s : State) : Host.Outcome State Fault Refusal :=
  .next (unitIssue c ⟨0x94#8, p, .t f⟩ s)
def execAwrv (c : Nat) (p : Pre) (f : FmtT) (s : State) : Host.Outcome State Fault Refusal :=
  .next (unitIssue c ⟨0x95#8, p, .t f⟩ s)
def execDmaq (c : Nat) (p : Pre) (f : FmtA) (s : State) : Host.Outcome State Fault Refusal :=
  .next (unitIssue c ⟨0xB0#8, p, .a f⟩ s)
def execDmard (c : Nat) (p : Pre) (f : FmtA) (s : State) : Host.Outcome State Fault Refusal :=
  .next (unitIssue c ⟨0xB1#8, p, .a f⟩ s)
def execRacsw (c : Nat) (p : Pre) (f : FmtA) (s : State) : Host.Outcome State Fault Refusal :=
  .next (unitIssue c ⟨0xC0#8, p, .a f⟩ s)
def execWacsw (c : Nat) (p : Pre) (f : FmtA) (s : State) : Host.Outcome State Fault Refusal :=
  .next (unitIssue c ⟨0xC1#8, p, .a f⟩ s)
def execSeed (c : Nat) (p : Pre) (f : FmtA) (s : State) : Host.Outcome State Fault Refusal :=
  .next (unitIssue c ⟨0xC2#8, p, .a f⟩ s)
def execRseq (c : Nat) (p : Pre) (f : FmtA) (s : State) : Host.Outcome State Fault Refusal :=
  .next (unitIssue c ⟨0xC3#8, p, .a f⟩ s)

end Sys2Proof.Machine
end

