-- ==== Sys2Proof/Machine/Dispatch.lean ====
section
/-! DEFINITION. The dispatch from a command to its meaning: one arm per constructor of Instr. -/

namespace Sys2Proof.Machine

/-- What a command does to everything but the queue it came from. -/
def exec (i : Instr) (s : State) : Host.Outcome State Fault Refusal :=
  match i with
  | .nop c p f => Sys2Proof.Machine.execNop c p f s
  | .endTask c p f => Sys2Proof.Machine.execEndTask c p f s
  | .jmp c p f => Sys2Proof.Machine.execJmp c p f s
  | .jnz c p f => Sys2Proof.Machine.execJnz c p f s
  | .jz c p f => Sys2Proof.Machine.execJz c p f s
  | .loop c p f => Sys2Proof.Machine.execLoop c p f s
  | .call c p f => Sys2Proof.Machine.execCall c p f s
  | .ret c p f => Sys2Proof.Machine.execRet c p f s
  | .yield c p f => Sys2Proof.Machine.execYield c p f s
  | .sxt c p f => Sys2Proof.Machine.execSxt c p f s
  | .trap c p f => Sys2Proof.Machine.execTrap c p f s
  | .add c p f => Sys2Proof.Machine.execAdd c p f s
  | .sub c p f => Sys2Proof.Machine.execSub c p f s
  | .mul c p f => Sys2Proof.Machine.execMul c p f s
  | .andd c p f => Sys2Proof.Machine.execAndd c p f s
  | .orr c p f => Sys2Proof.Machine.execOrr c p f s
  | .xorr c p f => Sys2Proof.Machine.execXorr c p f s
  | .shl c p f => Sys2Proof.Machine.execShl c p f s
  | .shr c p f => Sys2Proof.Machine.execShr c p f s
  | .sar c p f => Sys2Proof.Machine.execSar c p f s
  | .minn c p f => Sys2Proof.Machine.execMinn c p f s
  | .maxx c p f => Sys2Proof.Machine.execMaxx c p f s
  | .slt c p f => Sys2Proof.Machine.execSlt c p f s
  | .sltu c p f => Sys2Proof.Machine.execSltu c p f s
  | .seq c p f => Sys2Proof.Machine.execSeq c p f s
  | .li c p f => Sys2Proof.Machine.execLi c p f s
  | .crst c p f => Sys2Proof.Machine.execCrst c p f s
  | .sld c p f => Sys2Proof.Machine.execSld c p f s
  | .sst c p f => Sys2Proof.Machine.execSst c p f s
  | .sldg c p f => Sys2Proof.Machine.execSldg c p f s
  | .sstg c p f => Sys2Proof.Machine.execSstg c p f s
  | .fence c p f => Sys2Proof.Machine.execFence c p f s
  | .rflush c p f => Sys2Proof.Machine.execRflush c p f s
  | .rinv c p f => Sys2Proof.Machine.execRinv c p f s
  | .vadd c p f => Sys2Proof.Machine.execVadd c p f s
  | .vsub c p f => Sys2Proof.Machine.execVsub c p f s
  | .vmul c p f => Sys2Proof.Machine.execVmul c p f s
  | .vfma c p f => Sys2Proof.Machine.execVfma c p f s
  | .vmin c p f => Sys2Proof.Machine.execVmin c p f s
  | .vmax c p f => Sys2Proof.Machine.execVmax c p f s
  | .vsqrt c p f => Sys2Proof.Machine.execVsqrt c p f s
  | .vrcp c p f => Sys2Proof.Machine.execVrcp c p f s
  | .vrsqrt c p f => Sys2Proof.Machine.execVrsqrt c p f s
  | .vexp2 c p f => Sys2Proof.Machine.execVexp2 c p f s
  | .vlog2 c p f => Sys2Proof.Machine.execVlog2 c p f s
  | .vabs c p f => Sys2Proof.Machine.execVabs c p f s
  | .vcmplt c p f => Sys2Proof.Machine.execVcmplt c p f s
  | .vcmpeq c p f => Sys2Proof.Machine.execVcmpeq c p f s
  | .vsel c p f => Sys2Proof.Machine.execVsel c p f s
  | .vmov c p f => Sys2Proof.Machine.execVmov c p f s
  | .viadd c p f => Sys2Proof.Machine.execViadd c p f s
  | .visub c p f => Sys2Proof.Machine.execVisub c p f s
  | .vimul c p f => Sys2Proof.Machine.execVimul c p f s
  | .vand c p f => Sys2Proof.Machine.execVand c p f s
  | .vor c p f => Sys2Proof.Machine.execVor c p f s
  | .vxor c p f => Sys2Proof.Machine.execVxor c p f s
  | .vshl c p f => Sys2Proof.Machine.execVshl c p f s
  | .vshr c p f => Sys2Proof.Machine.execVshr c p f s
  | .vsar c p f => Sys2Proof.Machine.execVsar c p f s
  | .viota c p f => Sys2Proof.Machine.execViota c p f s
  | .vbcast c p f => Sys2Proof.Machine.execVbcast c p f s
  | .vcvt c p f => Sys2Proof.Machine.execVcvt c p f s
  | .vqb c p f => Sys2Proof.Machine.execVqb c p f s
  | .vdqb c p f => Sys2Proof.Machine.execVdqb c p f s
  | .vrsum c p f => Sys2Proof.Machine.execVrsum c p f s
  | .vrmax c p f => Sys2Proof.Machine.execVrmax c p f s
  | .vrmin c p f => Sys2Proof.Machine.execVrmin c p f s
  | .arsum c p f => Sys2Proof.Machine.execArsum c p f s
  | .armax c p f => Sys2Proof.Machine.execArmax c p f s
  | .asmx c p f => Sys2Proof.Machine.execAsmx c p f s
  | .aresc c p f => Sys2Proof.Machine.execAresc c p f s
  | .anorm c p f => Sys2Proof.Machine.execAnorm c p f s
  | .vld c p f => Sys2Proof.Machine.execVld c p f s
  | .vst c p f => Sys2Proof.Machine.execVst c p f s
  | .vldg c p f => Sys2Proof.Machine.execVldg c p f s
  | .vstg c p f => Sys2Proof.Machine.execVstg c p f s
  | .vlds c p f => Sys2Proof.Machine.execVlds c p f s
  | .vsts c p f => Sys2Proof.Machine.execVsts c p f s
  | .tld c p f => Sys2Proof.Machine.execTld c p f s
  | .tst c p f => Sys2Proof.Machine.execTst c p f s
  | .tldt c p f => Sys2Proof.Machine.execTldt c p f s
  | .tzero c p f => Sys2Proof.Machine.execTzero c p f s
  | .tmm c p f => Sys2Proof.Machine.execTmm c p f s
  | .azero c p f => Sys2Proof.Machine.execAzero c p f s
  | .ast c p f => Sys2Proof.Machine.execAst c p f s
  | .ald c p f => Sys2Proof.Machine.execAld c p f s
  | .ardv c p f => Sys2Proof.Machine.execArdv c p f s
  | .awrv c p f => Sys2Proof.Machine.execAwrv c p f s
  | .evsig c p f => Sys2Proof.Machine.execEvsig c p f s
  | .evwait c p f => Sys2Proof.Machine.execEvwait c p f s
  | .evrd c p f => Sys2Proof.Machine.execEvrd c p f s
  | .semacq c p f => Sys2Proof.Machine.execSemacq c p f s
  | .semacqTimeout c => Sys2Proof.Machine.execSemacqTimeout c s
  | .semrel c p f => Sys2Proof.Machine.execSemrel c p f s
  | .dmaq c p f => Sys2Proof.Machine.execDmaq c p f s
  | .dmard c p f => Sys2Proof.Machine.execDmard c p f s
  | .racsw c p f => Sys2Proof.Machine.execRacsw c p f s
  | .wacsw c p f => Sys2Proof.Machine.execWacsw c p f s
  | .seed c p f => Sys2Proof.Machine.execSeed c p f s
  | .rseq c p f => Sys2Proof.Machine.execRseq c p f s
  | .instructionCompletion c u => Sys2Proof.Machine.execInstructionCompletion c u s
  | .commandFetch q entry readOk => Sys2Proof.Machine.execCommandFetch q entry readOk s
  | .identify h => Sys2Proof.Machine.execIdentify h s
  | .tenantInfo h => Sys2Proof.Machine.execTenantInfo h s
  | .regRead h => Sys2Proof.Machine.execRegRead h s
  | .regWrite h => Sys2Proof.Machine.execRegWrite h s
  | .qpCreate h => Sys2Proof.Machine.execQpCreate h s
  | .qpDelete h => Sys2Proof.Machine.execQpDelete h s
  | .qpAssign h => Sys2Proof.Machine.execQpAssign h s
  | .bindCores h => Sys2Proof.Machine.execBindCores h s
  | .bindMemory h => Sys2Proof.Machine.execBindMemory h s
  | .bindPorts h => Sys2Proof.Machine.execBindPorts h s
  | .setShare h => Sys2Proof.Machine.execSetShare h s
  | .schedPolicy h => Sys2Proof.Machine.execSchedPolicy h s
  | .graphSubmit h => Sys2Proof.Machine.execGraphSubmit h s
  | .graphStart h => Sys2Proof.Machine.execGraphStart h s
  | .graphRelease h => Sys2Proof.Machine.execGraphRelease h s
  | .abort h => Sys2Proof.Machine.execAbort h s
  | .preempt h => Sys2Proof.Machine.execPreempt h s
  | .taskRestart h => Sys2Proof.Machine.execTaskRestart h s
  | .gateRelease h => Sys2Proof.Machine.execGateRelease h s
  | .ringCreate h => Sys2Proof.Machine.execRingCreate h s
  | .ringDelete h => Sys2Proof.Machine.execRingDelete h s
  | .ringPop h => Sys2Proof.Machine.execRingPop h s
  | .memRead h => Sys2Proof.Machine.execMemRead h s
  | .memWrite h => Sys2Proof.Machine.execMemWrite h s
  | .aspace h => Sys2Proof.Machine.execAspace h s
  | .map h => Sys2Proof.Machine.execMap h s
  | .unmap h => Sys2Proof.Machine.execUnmap h s
  | .protect h => Sys2Proof.Machine.execProtect h s
  | .granuleAttr h => Sys2Proof.Machine.execGranuleAttr h s
  | .rcWays h => Sys2Proof.Machine.execRcWays h s
  | .rcFlush h => Sys2Proof.Machine.execRcFlush h s
  | .dmaLimit h => Sys2Proof.Machine.execDmaLimit h s
  | .rowRepair h => Sys2Proof.Machine.execRowRepair h s
  | .stackRejoin h => Sys2Proof.Machine.execStackRejoin h s
  | .moduleId h => Sys2Proof.Machine.execModuleId h s
  | .routeSet h => Sys2Proof.Machine.execRouteSet h s
  | .acceptSet h => Sys2Proof.Machine.execAcceptSet h s
  | .groupDefine h => Sys2Proof.Machine.execGroupDefine h s
  | .vcWeight h => Sys2Proof.Machine.execVcWeight h s
  | .portDown h => Sys2Proof.Machine.execPortDown h s
  | .portFlush h => Sys2Proof.Machine.execPortFlush h s
  | .portMode h => Sys2Proof.Machine.execPortMode h s
  | .portTest h => Sys2Proof.Machine.execPortTest h s
  | .laserSwitch h => Sys2Proof.Machine.execLaserSwitch h s
  | .wlSubst h => Sys2Proof.Machine.execWlSubst h s
  | .wlRestore h => Sys2Proof.Machine.execWlRestore h s
  | .remote h => Sys2Proof.Machine.execRemote h s
  | .profileSet h => Sys2Proof.Machine.execProfileSet h s
  | .override h => Sys2Proof.Machine.execOverride h s
  | .thermalMode h => Sys2Proof.Machine.execThermalMode h s
  | .powerRead h => Sys2Proof.Machine.execPowerRead h s
  | .calRun h => Sys2Proof.Machine.execCalRun h s
  | .calStatus h => Sys2Proof.Machine.execCalStatus h s
  | .attest h => Sys2Proof.Machine.execAttest h s
  | .certRead h => Sys2Proof.Machine.execCertRead h s
  | .fwStage h => Sys2Proof.Machine.execFwStage h s
  | .fwActivate h => Sys2Proof.Machine.execFwActivate h s
  | .rollbackRead h => Sys2Proof.Machine.execRollbackRead h s
  | .faultRing h => Sys2Proof.Machine.execFaultRing h s
  | .faultResume h => Sys2Proof.Machine.execFaultResume h s
  | .faultEnd h => Sys2Proof.Machine.execFaultEnd h s
  | .dieFence h => Sys2Proof.Machine.execDieFence h s
  | .dieRejoin h => Sys2Proof.Machine.execDieRejoin h s
  | .severity h => Sys2Proof.Machine.execSeverity h s
  | .faultPin h => Sys2Proof.Machine.execFaultPin h s
  | .cairnRecord h => Sys2Proof.Machine.execCairnRecord h s
  | .cairnStatus h => Sys2Proof.Machine.execCairnStatus h s
  | .apportion h => Sys2Proof.Machine.execApportion h s
  | .traceRing h => Sys2Proof.Machine.execTraceRing h s
  | .timeSet h => Sys2Proof.Machine.execTimeSet h s
  | .timeStep h => Sys2Proof.Machine.execTimeStep h s
  | .parentSet h => Sys2Proof.Machine.execParentSet h s
  | .crestReport h => Sys2Proof.Machine.execCrestReport h s
  | .factoryEnter h => Sys2Proof.Machine.execFactoryEnter h s
  | .factoryExit h => Sys2Proof.Machine.execFactoryExit h s
  | .faultInject h => Sys2Proof.Machine.execFaultInject h s
  | .faultInjectOccurrence source => Sys2Proof.Machine.execFaultInjectOccurrence source s
  | .logRead h => Sys2Proof.Machine.execLogRead h s
  | .remoteCommandReceive port src tenant reqId entry dataIn => Sys2Proof.Machine.execRemoteCommandReceive port src tenant reqId entry dataIn s
  | .hstDbCmd fn ix tail => Sys2Proof.Machine.execHstDbCmd fn ix tail s
  | .hstDbRpl fn ix head => Sys2Proof.Machine.execHstDbRpl fn ix head s
  | .qpEnable fn value => Sys2Proof.Machine.execQpEnable fn value s
  | .qpDisable fn value => Sys2Proof.Machine.execQpDisable fn value s
  | .swSys value => Sys2Proof.Machine.execSwSys value s
  | .swCore value => Sys2Proof.Machine.execSwCore value s
  | .holdReleaseRequest value => Sys2Proof.Machine.execHoldReleaseRequest value s
  | .prgSwitch k value => Sys2Proof.Machine.execPrgSwitch k value s
  | .injOne k port value => Sys2Proof.Machine.execInjOne k port value s
  | .pam4LevelWrite k port value => Sys2Proof.Machine.execPam4LevelWrite k port value s
  | .crnAckWrite value => Sys2Proof.Machine.execCrnAckWrite value s
  | .crnIntervalWrite value => Sys2Proof.Machine.execCrnIntervalWrite value s
  | .safeInfoClear value => Sys2Proof.Machine.execSafeInfoClear value s
  | .registerWrite addr value => Sys2Proof.Machine.execRegisterWrite addr value s
  | .reg64LowWordRead addr => Sys2Proof.Machine.execReg64LowWordRead addr s
  | .reg64LowWordWrite addr value => Sys2Proof.Machine.execReg64LowWordWrite addr value s
  | .rcFieldRead addr => Sys2Proof.Machine.execRcFieldRead addr s
  | .graphAdmission tenant => Sys2Proof.Machine.execGraphAdmission tenant s
  | .taskDispatch ridge => Sys2Proof.Machine.execTaskDispatch ridge s
  | .backfillLimitExpiry ridge tenant => Sys2Proof.Machine.execBackfillLimitExpiry ridge tenant s
  | .taskCommit handle task => Sys2Proof.Machine.execTaskCommit handle task s
  | .abortArrival handle task => Sys2Proof.Machine.execAbortArrival handle task s
  | .preemptionRequest c => Sys2Proof.Machine.execPreemptionRequest c s
  | .contextSaveComplete c => Sys2Proof.Machine.execContextSaveComplete c s
  | .taskResume ridge => Sys2Proof.Machine.execTaskResume ridge s
  | .recordWrite tenant ring => Sys2Proof.Machine.execRecordWrite tenant ring s
  | .ringHeadReread kind tenant ring => Sys2Proof.Machine.execRingHeadReread kind tenant ring s
  | .coreSheafClearDone c => Sys2Proof.Machine.execCoreSheafClearDone c s
  | .granuleBindCommit ridge g => Sys2Proof.Machine.execGranuleBindCommit ridge g s
  | .granuleClearComplete ridge g => Sys2Proof.Machine.execGranuleClearComplete ridge g s
  | .memoryReadRequest rq tenant pa len => Sys2Proof.Machine.execMemoryReadRequest rq tenant pa len s
  | .memoryWriteRequest rq tenant pa bytes mask => Sys2Proof.Machine.execMemoryWriteRequest rq tenant pa bytes mask s
  | .patrolScrubRead stack => Sys2Proof.Machine.execPatrolScrubRead stack s
  | .stackWake stack => Sys2Proof.Machine.execStackWake stack s
  | .nearTaskStart handle task => Sys2Proof.Machine.execNearTaskStart handle task s
  | .nearChunkComplete handle task => Sys2Proof.Machine.execNearChunkComplete handle task s
  | .pageWalkComplete rq tenant va acc => Sys2Proof.Machine.execPageWalkComplete rq tenant va acc s
  | .tagAcquire ridge rq tenant use => Sys2Proof.Machine.execTagAcquire ridge rq tenant use s
  | .transactionResponse ridge tag status kind server fseq data => Sys2Proof.Machine.execTransactionResponse ridge tag status kind server fseq data s
  | .dmaChunkRetire x => Sys2Proof.Machine.execDmaChunkRetire x s
  | .faultRecordWrite tenant => Sys2Proof.Machine.execFaultRecordWrite tenant s
  | .collectiveTaskStart handle task => Sys2Proof.Machine.execCollectiveTaskStart handle task s
  | .collectiveFirstSend handle task => Sys2Proof.Machine.execCollectiveFirstSend handle task s
  | .collectiveMessageReceive ridge m => Sys2Proof.Machine.execCollectiveMessageReceive ridge m s
  | .collectiveChunkRetire handle task => Sys2Proof.Machine.execCollectiveChunkRetire handle task s
  | .collectiveCommit handle task => Sys2Proof.Machine.execCollectiveCommit handle task s
  | .failureNoticeReceive ridge m => Sys2Proof.Machine.execFailureNoticeReceive ridge m s
  | .attnBlockStage handle task => Sys2Proof.Machine.execAttnBlockStage handle task s
  | .jxlBeatReceive n port flits => Sys2Proof.Machine.execJxlBeatReceive n port flits s
  | .nak n port ack => Sys2Proof.Machine.execNak n port ack s
  | .jxlReplayTimeout n port => Sys2Proof.Machine.execJxlReplayTimeout n port s
  | .jxlAckTimer n port => Sys2Proof.Machine.execJxlAckTimer n port s
  | .jxlRetrain n port cause => Sys2Proof.Machine.execJxlRetrain n port cause s
  | .jxlTrainStart n port failed => Sys2Proof.Machine.execJxlTrainStart n port failed s
  | .jxlMarkerReceive n port marker => Sys2Proof.Machine.execJxlMarkerReceive n port marker s
  | .ident quadrant edgeE m => Sys2Proof.Machine.execIdent quadrant edgeE m s
  | .strapIdentityTimeout quadrant => Sys2Proof.Machine.execStrapIdentityTimeout quadrant s
  | .stolonIdentityReport quadrant => Sys2Proof.Machine.execStolonIdentityReport quadrant s
  | .jxlClockLoss n port => Sys2Proof.Machine.execJxlClockLoss n port s
  | .fenceTrigger die cause => Sys2Proof.Machine.execFenceTrigger die cause s
  | .fenceComplete die => Sys2Proof.Machine.execFenceComplete die s
  | .ucieModuleTrain n k m rate => Sys2Proof.Machine.execUcieModuleTrain n k m rate s
  | .identQ n k answer late => Sys2Proof.Machine.execIdentQ n k answer late s
  | .paramSet n k a => Sys2Proof.Machine.execParamSet n k a s
  | .regRd k addr late => Sys2Proof.Machine.execRegRd k addr late s
  | .regWr k addr value late => Sys2Proof.Machine.execRegWr k addr value late s
  | .statusQ k temp late => Sys2Proof.Machine.execStatusQ k temp late s
  | .tempFf k temp => Sys2Proof.Machine.execTempFf k temp s
  | .blank k late => Sys2Proof.Machine.execBlank k late s
  | .unblank k => Sys2Proof.Machine.execUnblank k s
  | .engineRefused n k => Sys2Proof.Machine.execEngineRefused n k s
  | .sidebandLost n k => Sys2Proof.Machine.execSidebandLost n k s
  | .laserMonitorSample k level => Sys2Proof.Machine.execLaserMonitorSample k level s
  | .fadeUpdate k => Sys2Proof.Machine.execFadeUpdate k s
  | .spareWarmDone k => Sys2Proof.Machine.execSpareWarmDone k s
  | .spareStandby k fade => Sys2Proof.Machine.execSpareStandby k fade s
  | .spareFailed k => Sys2Proof.Machine.execSpareFailed k s
  | .laserSwitchover k => Sys2Proof.Machine.execLaserSwitchover k s
  | .switchoverResume k gapNs => Sys2Proof.Machine.execSwitchoverResume k gapNs s
  | .ringSlip k port x rx => Sys2Proof.Machine.execRingSlip k port x rx s
  | .ringRelock k port x rx heat => Sys2Proof.Machine.execRingRelock k port x rx heat s
  | .ringFail k port x rx => Sys2Proof.Machine.execRingFail k port x rx s
  | .spareWlBad k port ws => Sys2Proof.Machine.execSpareWlBad k port ws s
  | .lossOfSignal k port x => Sys2Proof.Machine.execLossOfSignal k port x s
  | .signalReturn k port x darkNs => Sys2Proof.Machine.execSignalReturn k port x darkNs s
  | .adaptationFreeze k port x => Sys2Proof.Machine.execAdaptationFreeze k port x s
  | .eyeScanPass k port x margins => Sys2Proof.Machine.execEyeScanPass k port x margins s
  | .siteAcquireLaserLocked k fade => Sys2Proof.Machine.execSiteAcquireLaserLocked k fade s
  | .siteAcquireRings k => Sys2Proof.Machine.execSiteAcquireRings k s
  | .receiversAdapted k port => Sys2Proof.Machine.execReceiversAdapted k port s
  | .blockLockLoss port w => Sys2Proof.Machine.execBlockLockLoss port w s
  | .blockLock port w => Sys2Proof.Machine.execBlockLock port w s
  | .fabricPacketReceive port sop body => Sys2Proof.Machine.execFabricPacketReceive port sop body s
  | .fabricPacketSend port lane => Sys2Proof.Machine.execFabricPacketSend port lane s
  | .ack port lane consumed limit => Sys2Proof.Machine.execAck port lane consumed limit s
  | .rxstat port lane accepted nak => Sys2Proof.Machine.execRxstat port lane accepted nak s
  | .align port stream bip count => Sys2Proof.Machine.execAlign port stream bip count s
  | .fabricAckTimer port lane => Sys2Proof.Machine.execFabricAckTimer port lane s
  | .fabricReplayTimeout port lane => Sys2Proof.Machine.execFabricReplayTimeout port lane s
  | .linkDown port cause => Sys2Proof.Machine.execLinkDown port cause s
  | .fabricRetrainAttempt port => Sys2Proof.Machine.execFabricRetrainAttempt port s
  | .helloA port idSet modId partnerPort half pam4 => Sys2Proof.Machine.execHelloA port idSet modId partnerPort half pam4 s
  | .helloB port incarnation session => Sys2Proof.Machine.execHelloB port incarnation session s
  | .mode port half m => Sys2Proof.Machine.execMode port half m s
  | .subst port w spare m => Sys2Proof.Machine.execSubst port w spare m s
  | .stripe port set m => Sys2Proof.Machine.execStripe port set m s
  | .mon port x pwr => Sys2Proof.Machine.execMon port x pwr s
  | .test port enter => Sys2Proof.Machine.execTest port enter s
  | .linkExchangeRepeat port => Sys2Proof.Machine.execLinkExchangeRepeat port s
  | .time port stamp => Sys2Proof.Machine.execTime port stamp s
  | .timeBlockSend port => Sys2Proof.Machine.execTimeBlockSend port s
  | .streamErrorRatioExceeded port w => Sys2Proof.Machine.execStreamErrorRatioExceeded port w s
  | .crestEpochPulse => Sys2Proof.Machine.execCrestEpochPulse s
  | .crestReportTimer port => Sys2Proof.Machine.execCrestReportTimer port s
  | .parentPortLost => Sys2Proof.Machine.execParentPortLost s
  | .traceRecordWrite ring => Sys2Proof.Machine.execTraceRecordWrite ring s
  | .msixModerationTimer src => Sys2Proof.Machine.execMsixModerationTimer src s
  | .functionLevelReset fn => Sys2Proof.Machine.execFunctionLevelReset fn s
  | .pcieLinkTraining rate width eq16 eq32 => Sys2Proof.Machine.execPcieLinkTraining rate width eq16 eq32 s
  | .eqCoefficientRequest lane pre main post => Sys2Proof.Machine.execEqCoefficientRequest lane pre main post s
  | .hostEyeScanPass lane margins => Sys2Proof.Machine.execHostEyeScanPass lane margins s
  | .loopbackEntry => Sys2Proof.Machine.execLoopbackEntry s
  | .loopbackExit errors => Sys2Proof.Machine.execLoopbackExit errors s
  | .hostLinkDown disabled => Sys2Proof.Machine.execHostLinkDown disabled s
  | .powerOn => Sys2Proof.Machine.execPowerOn s
  | .railsComplete => Sys2Proof.Machine.execRailsComplete s
  | .inputMonitorSample mv ma => Sys2Proof.Machine.execInputMonitorSample mv ma s
  | .overcurrent => Sys2Proof.Machine.execOvercurrent s
  | .slowRelease => Sys2Proof.Machine.execSlowRelease s
  | .bor => Sys2Proof.Machine.execBor s
  | .ovs => Sys2Proof.Machine.execOvs s
  | .phaseLost => Sys2Proof.Machine.execPhaseLost s
  | .clockGoodLoss blk => Sys2Proof.Machine.execClockGoodLoss blk s
  | .coreIdleSleep c => Sys2Proof.Machine.execCoreIdleSleep c s
  | .coreWakeComplete c => Sys2Proof.Machine.execCoreWakeComplete c s
  | .droopStretch c deep => Sys2Proof.Machine.execDroopStretch c deep s
  | .droopRecover c => Sys2Proof.Machine.execDroopRecover c s
  | .powerCapStep meanMw => Sys2Proof.Machine.execPowerCapStep meanMw s
  | .temperatureSample die temp => Sys2Proof.Machine.execTemperatureSample die temp s
  | .localThrottleStep die => Sys2Proof.Machine.execLocalThrottleStep die s
  | .localThrottleReleaseStep die => Sys2Proof.Machine.execLocalThrottleReleaseStep die s
  | .trip die => Sys2Proof.Machine.execTrip die s
  | .thermalControlStep raise => Sys2Proof.Machine.execThermalControlStep raise s
  | .stackedBandChange die temp held => Sys2Proof.Machine.execStackedBandChange die temp held s
  | .mrst => Sys2Proof.Machine.execMrst s
  | .mrstLong => Sys2Proof.Machine.execMrstLong s
  | .perst => Sys2Proof.Machine.execPerst s
  | .perstDeassert => Sys2Proof.Machine.execPerstDeassert s
  | .wdog => Sys2Proof.Machine.execWdog s
  | .crit row die corrected => Sys2Proof.Machine.execCrit row die corrected s
  | .blockResetRelease blk => Sys2Proof.Machine.execBlockResetRelease blk s
  | .winnowerLoadComplete image fuseErr => Sys2Proof.Machine.execWinnowerLoadComplete image fuseErr s
  | .romBoot v => Sys2Proof.Machine.execRomBoot v s
  | .firmwareReady => Sys2Proof.Machine.execFirmwareReady s
  | .faultSourceOccurrence source core => Sys2Proof.Machine.execFaultSourceOccurrence source core s
  | .stolonFaultPoll n => Sys2Proof.Machine.execStolonFaultPoll n s
  | .faultNPulseEnd => Sys2Proof.Machine.execFaultNPulseEnd s
  | .localSafeState n => Sys2Proof.Machine.execLocalSafeState n s
  | .safeAutoReset => Sys2Proof.Machine.execSafeAutoReset s
  | .intervalClose m => Sys2Proof.Machine.execIntervalClose m s
  | .powerUp => Sys2Proof.Machine.execPowerUp s
  | .cairnSupplyLoss m => Sys2Proof.Machine.execCairnSupplyLoss m s
  | .coverOpen => Sys2Proof.Machine.execCoverOpen s
  | .magnetic => Sys2Proof.Machine.execMagnetic s
  | .cairnCrestValue m => Sys2Proof.Machine.execCairnCrestValue m s
  | .crestLost => Sys2Proof.Machine.execCrestLost s
  | .calibrationComplete unit code inst within value => Sys2Proof.Machine.execCalibrationComplete unit code inst within value s
  | .extest pins => Sys2Proof.Machine.execExtest pins s
  | .idcode => Sys2Proof.Machine.execIdcode s
  | .bypass => Sys2Proof.Machine.execBypass s
  | .samplePreload pins => Sys2Proof.Machine.execSamplePreload pins s
  | .privateTestInstruction dies => Sys2Proof.Machine.execPrivateTestInstruction dies s
  | .trstN => Sys2Proof.Machine.execTrstN s
  | .smbusIdentify pecOk => Sys2Proof.Machine.execSmbusIdentify pecOk s
  | .smbusStatus pecOk => Sys2Proof.Machine.execSmbusStatus pecOk s
  | .smbusTelemetry pecOk => Sys2Proof.Machine.execSmbusTelemetry pecOk s
  | .smbusFaults pecOk => Sys2Proof.Machine.execSmbusFaults pecOk s
  | .cairnSelect recno offset pecOk => Sys2Proof.Machine.execCairnSelect recno offset pecOk s
  | .cairnRead pecOk => Sys2Proof.Machine.execCairnRead pecOk s
  | .cairnLast pecOk => Sys2Proof.Machine.execCairnLast pecOk s
  | .smbusAlertResponse pecOk => Sys2Proof.Machine.execSmbusAlertResponse pecOk s
  | .smbusClockLowTimeout => Sys2Proof.Machine.execSmbusClockLowTimeout s
  | .pcieConfigurationRequest fn off write value => Sys2Proof.Machine.execPcieConfigurationRequest fn off write value s
  | .lossOfSignal1Ms k port x => Sys2Proof.Machine.execLossOfSignal1Ms k port x s

end Sys2Proof.Machine
end

