-- ==== Sys2Proof/Machine/Step.lean ====
section
/-! DEFINITION. One step of the block: the command at the front of the queue, or, with nothing waiting, one tick of the
Crest count (spec/11_crest_timebase_and_trace.md R325; log entry 40). -/

namespace Sys2Proof.Machine

/-- One count of the Crest passes with no command waiting; a Crest that does not run yet stands still. -/
def idle (s : State) : State := if s.crestRun then tick s else s

/-- Takes the command at the front of the queue and runs it with the queue's rest. -/
def step (s : State) : Host.Outcome State Fault Refusal :=
  match s.pending with
  | [] => .next (idle s)
  | c :: r => exec c { s with pending := r }

/-- The state with the command a table word spells put at the front of its queue. -/
def State.withFetchWord (s : State) (nbits w : Nat) : State :=
  match decodeTableWord nbits w with
  | some c => { s with pending := c :: s.pending }
  | none => s

end Sys2Proof.Machine
end

