-- ==== Sys2Proof/Machine/Terms.lean ====
section
/-! DEFINITION. The terms in which claims about commands are stated: frames, cores ready to issue, commands accepted. -/

namespace Sys2Proof.Machine

/-! ## Cores -/

/-- A step changes one core alone: core `c` becomes `k`, and nothing else of the block changes. -/
def CoreOnly (c : Nat) (k : Core) (s t : State) : Prop :=
  coreOf t c = k ∧ (∀ d, d ≠ c → coreOf t d = coreOf s d) ∧ t = { s with cores := t.cores }

/-- The wait of an instruction word takes one from its event counter (R73, R88). -/
def takeWait (p : Pre) (k : Core) : Core := if p.wv then evSet p.we.toNat (evGet k p.we.toNat - 1) k else k

/-- The signal of an instruction word adds one to its event counter (R73, R88). -/
def giveSignal (p : Pre) (k : Core) : Core := if p.sv then evSet p.se.toNat (evGet k p.se.toNat + 1) k else k

/-- A core that may issue a word: a task runs on it, no unit of it has work queued, and no SEMACQ is in hand; the word is
legal, and the event it waits for, if any, has been signalled (R68, R73, R74, R88). -/
structure CoreReady (s : State) (c : Nat) (w : CWord) : Prop where
  issues : canIssue s c = true
  idle : (coreOf s c).queues.flatMap (·.2) = []
  sem : (coreOf s c).sem = none
  fresh : (coreOf s c).waited = false
  legal : legal w = true
  wait : w.pre.wv = true → 1 ≤ evGet (coreOf s c) w.pre.we.toNat

/-- The core when the operation of a word of its own sequencer begins: its wait is taken, and its PC is at the next word. -/
def begun1 (w : CWord) (k : Core) : Core := { takeWait w.pre k with pc := k.pc + 16#64 }

/-- The state in which the operation of a word of the sequencer begins. -/
def began (c : Nat) (w : CWord) (s : State) : State := setCore c { begun1 w (coreOf s c) with waited := w.pre.wv } s

/-- The signal of a word leaves room in its event counter. -/
def SignalFits (p : Pre) (k : Core) : Prop := p.sv = true → evGet k p.se.toNat < 65535

/-- The core when an instruction of another unit stands in that unit's empty queue and its operation begins. -/
def waiting (u : Nat) (w : CWord) (k : Core) : Core :=
  { takeWait w.pre k with
    pc := k.pc + 16#64, place := k.place + 1, queues := Mp.put [] k.queues u [⟨w, k.pc, true, k.place, false, false⟩] }

/-- The core when an instruction of another unit has entered that unit's empty queue and started: its wait is taken, its
PC is at the next word, and the unit's queue holds it (R68, R88). -/
def issued (u : Nat) (w : CWord) (k : Core) : Core :=
  { takeWait w.pre k with
    pc := k.pc + 16#64, place := k.place + 1, queues := Mp.put [] k.queues u [⟨w, k.pc, true, k.place, true, false⟩] }

/-! ## Commands of the management interface -/

/-- The state once an accepted command has left the list of accepted ones. -/
def taken (i : Inflight) (s : State) : State := { s with inflight := s.inflight.erase i }

/-- The parameter block of an accepted command (R357, R358). -/
def paramBytes (h : Cmd) (i : Inflight) : List Byte := paramsOf { h with entry := i.entry }

/-- The tenant an accepted command acts for (R357). -/
def actingFor (h : Cmd) (i : Inflight) (s : State) : Nat := actingOf (taken i s) h.path i.entry

/-- An accepted command whose turn it is, with the opcode of its row, at a module that is ready. -/
structure CmdTurn (h : Cmd) (op : Nat) (s : State) (i : Inflight) : Prop where
  turn : startable s h.path h.entry [] s.inflight = some i
  opcode : eOp i.entry % 4096 = op
  ready : s.ready = true

/-- An accepted command whose turn it is and which passes every check of its header and parameters (R360). -/
structure CmdReady (h : Cmd) (op : Nat) (t0 : Bool) (fields : List (Nat × Nat)) (bad : List Byte → Nat → List (Nat × Bool))
    (s : State) (i : Inflight) : Prop extends CmdTurn h op s i where
  sound : cmdCheck h op t0 fields bad (taken i s) = none

/-- The reply of an accepted command goes out from a state. -/
def replied (i : Inflight) (op status result : Nat) (data : List Byte) (tDone : Nat) (u : State) : State :=
  sendReply i.path i.discard op (eTag i.entry) i.tAccept tDone status result (eDataAddr i.entry) (eDataLen i.entry) data u

/-- A command is done in a state, now and with status OK: its reply goes out. -/
def answered (i : Inflight) (op result : Nat) (data : List Byte) (u : State) : State := replied i op 0 result data (colNow u) u

/-- A command stays to be answered later. -/
def keptWaiting (h : Cmd) (i : Inflight) (op : Nat) (keys : List Nat) (a b tDone : Nat) (s u : State) : State :=
  { u with waits := u.waits ++
    [⟨i.path, op, eTag i.entry, i.tAccept, actingFor h i s, eDataAddr i.entry, eDataLen i.entry, keys, a, b, 0, tDone, i.discard⟩] }

end Sys2Proof.Machine
end

