-- ==== Sys2Proof/Safety.lean ====
section
/-! DEFINITION. What claims about runs are stated in: the canonical form of memory, and what no command of the block ever
undoes. -/

namespace Sys2Proof.Machine

/-- Memory in its canonical form: addresses strictly rising, and no byte listed that an unlisted address reads as. -/
abbrev Memory.wf (m : List Host.Cell) : Bool := Mp.wf 0#8 m

/-- The byte of the stacks at a physical address. -/
def Memory.read (m : List Host.Cell) (a : Nat) : Byte := Mp.get 0#8 m a

/-- What every command keeps: the queue of waiting commands, everything the module has put out, the free values already used
(none is drawn twice), the grade, the root keys revoked, the rollback counters (none falls), and the canonical form of memory. -/
def Keeps (s t : State) : Prop :=
  t.pending = s.pending ∧ s.outputs <:+ t.outputs ∧ s.freeCtr ≤ t.freeCtr ∧ t.fuses.a12 = s.fuses.a12 ∧
  (∀ i, s.fuses.rootRevoked.testBit i = true → t.fuses.rootRevoked.testBit i = true) ∧
  (∀ k < 4, (s.fuses.rbc[k]?).getD 0 ≤ (t.fuses.rbc[k]?).getD 0) ∧
  (Memory.wf s.mem = true → Memory.wf t.mem = true)

end Sys2Proof.Machine
end

