-- ==== Sys2Proof/WellFormed.lean ====
section
/-! DEFINITION. Well-formed commands: every operand in the range the manual gives it (spec/00_scope.md R2, R7, R8,
spec/01_architecture.md). A command is well formed if each of its operands passes its check; operands whose every value has
a meaning have none. -/

namespace Sys2Proof

/-- Cores are numbered 0 to 191 (R7). -/
def inCore (c : Nat) : Bool := decide (c < 192)

/-- Ridges, and sites of a ridge, are numbered 0 to 3. -/
def inRidge (n : Nat) : Bool := decide (n < 4)

/-- Fabric ports of the module are numbered 0 to 127. -/
def inPort (p : Nat) : Bool := decide (p < 128)

/-- Ports of a Porger site are numbered 0 to 7. -/
def inSitePort (p : Nat) : Bool := decide (p < 8)

/-- Die-link ports of a base die are numbered 0 to 5 (R234). -/
def inDiePort (p : Nat) : Bool := decide (p < 6)
/-- A lane of a Jexurri port's bump or spare groups, or of a UCIe module. -/
def inTestLane : TestLane → Bool
  | .jxl n port group lane => inRidge n && inDiePort port && decide (group < 145 ∧ lane < 65)
  | .uci k m lane => decide (k < 16 ∧ m < 8 ∧ lane < 68)
/-- A hook of R263: a generator's seed of 31 bits that is not zero, a sampling phase within ±0.5 UI. -/
def inTestHook : TestHook → Bool
  | .generate l seed => inTestLane l && decide (0 < seed ∧ seed < 2 ^ 31)
  | .send l _ | .check l _ => inTestLane l
  | .loopback n port _ => inRidge n && inDiePort port
  | .phase l step => inTestLane l && decide (-32 ≤ step ∧ step ≤ 32)
/-- A port of a base die, or the far end of an attach: 8 to 10 the compute dies of ports 0 to 2, 11 the Col die of port 5. -/
def inTrainPort (p : Nat) : Bool := inDiePort p || decide (8 ≤ p ∧ p < 12)

/-- Porger sites of the module are numbered 0 to 15. -/
def inSite (k : Nat) : Bool := decide (k < 16)

/-- Stacks of the module are numbered 0 to 23. -/
def inStack (k : Nat) : Bool := decide (k < 24)

/-- Codes of dies, stacks and sites: compute dies, base dies, stacks, the Col die, and 80 + k for Porger k (R191). -/
def inUnit (u : Nat) : Bool := decide (u < 12) || decide (16 ≤ u ∧ u < 20) || decide (32 ≤ u ∧ u < 56) || u == 64 || decide (80 ≤ u ∧ u < 96)

/-- Units of a core: eight tensor engines, two vector engines, the tile unit, the DMA unit, and the row units apart (R68). -/
def inUnitNo (u : Nat) : Bool := decide (u < 20)

/-- Tenants, functions and queue pairs are numbered 0 to 63 (R342, R350). -/
def inTenant (t : Nat) : Bool := decide (t < 64)

/-- Graph handles are 1 to 1,023 (R112). -/
def inHandle (h : Nat) : Bool := decide (1 ≤ h ∧ h ≤ 1023)

/-- A 16-bit number. -/
def inWord16 (x : Nat) : Bool := decide (x < 2 ^ 16)

/-- A 32-bit number. -/
def inWord32 (x : Nat) : Bool := decide (x < 2 ^ 32)

/-- A byte address of the device control space, or of BAR0 of a function placed above it (log entry 60); one that is no
multiple of 4 is an address fault (R9), not an ill-formed command. -/
def inWord34 (x : Nat) : Bool := decide (x < 2 ^ 32 + 64 * 2 ^ 23)

/-- Lanes, streams and rings are numbered 0 to 15. -/
def inLane (l : Nat) : Bool := decide (l < 16)

/-- Lines of a port: sixteen wavelengths and two spares. -/
def inLine (x : Nat) : Bool := decide (x < 18)

/-- Granules of a ridge (R135). -/
def inGranule (g : Nat) : Bool := decide (g < 384)

/-- A physical address as a request carries it: one beyond R141 completes with error (R142). -/
def inPa (pa : Nat) : Bool := decide (pa < 2 ^ 64)

/-- A queue entry is 64 bytes (R357). -/
def wfEntry (e : List Byte) : Bool := e.length == 64

/-- A Melhal command: its entry of 64 bytes, at most 4,096 bytes of parameters and 1 MiB of data in (R357). -/
def wfCmd (h : Cmd) : Bool := wfEntry h.entry && decide (h.params.length ≤ 4096) && decide (h.dataIn.length ≤ 1048576)

/-- A requester on a core or ridge that exists. -/
def wfRequester : Requester → Bool
  | .core c => inCore c
  | .coreDma c => inCore c
  | .save c => inCore c
  | .restore c => inCore c
  | .ridgeDma n => inRidge n
  | .near n => inRidge n
  | .coll n => inRidge n
  | .responder n => inRidge n
  | .admission => true
  | .melhal => true
  | .recordWrite n => inRidge n

/-- A transfer: one of a core's four slots, or that of a DMA task (R181). -/
def wfXfer : XferRef → Bool
  | .core c slot => inCore c && decide (slot < 4)
  | .task h t => inHandle h && inWord16 t

/-- What a tag is drawn for. -/
def wfUse : TagUse → Bool
  | .chunk x => wfXfer x
  | .request pa => inPa pa
  | .coll h t _ _ _ => inHandle h && inWord16 t

/-- An interrupt source (R354). -/
def wfIrq : IrqSource → Bool
  | .reply q => inTenant q
  | .completion t r => inTenant t && inLane r
  | .fault t => inTenant t
  | .trace r => inLane r

/-- A clocked block. -/
def wfBlock : Block → Bool
  | .col => true
  | .base n => inRidge n
  | .compute d => decide (d < 12)
  | .core c => inCore c
  | .porger k => inSite k

/-- A collective message carries 16-bit participant identifiers (R204). -/
def wfMsg (m : CollMsg) : Bool := inWord16 m.sender && inWord16 m.receiver

/-- A failure notice carries 16-bit participant identifiers. -/
def wfNotice (m : FailNotice) : Bool := inWord16 m.sender && inWord16 m.receiver

/-- A command whose operands are all in range. -/
def Instr.wf (i : Instr) : Bool :=
  match i with
  | .nop c _ _ => inCore c
  | .endTask c _ _ => inCore c
  | .jmp c _ _ => inCore c
  | .jnz c _ _ => inCore c
  | .jz c _ _ => inCore c
  | .loop c _ _ => inCore c
  | .call c _ _ => inCore c
  | .ret c _ _ => inCore c
  | .yield c _ _ => inCore c
  | .sxt c _ _ => inCore c
  | .trap c _ _ => inCore c
  | .add c _ _ => inCore c
  | .sub c _ _ => inCore c
  | .mul c _ _ => inCore c
  | .andd c _ _ => inCore c
  | .orr c _ _ => inCore c
  | .xorr c _ _ => inCore c
  | .shl c _ _ => inCore c
  | .shr c _ _ => inCore c
  | .sar c _ _ => inCore c
  | .minn c _ _ => inCore c
  | .maxx c _ _ => inCore c
  | .slt c _ _ => inCore c
  | .sltu c _ _ => inCore c
  | .seq c _ _ => inCore c
  | .li c _ _ => inCore c
  | .crst c _ _ => inCore c
  | .sld c _ _ => inCore c
  | .sst c _ _ => inCore c
  | .sldg c _ _ => inCore c
  | .sstg c _ _ => inCore c
  | .fence c _ _ => inCore c
  | .rflush c _ _ => inCore c
  | .rinv c _ _ => inCore c
  | .vadd c _ _ => inCore c
  | .vsub c _ _ => inCore c
  | .vmul c _ _ => inCore c
  | .vfma c _ _ => inCore c
  | .vmin c _ _ => inCore c
  | .vmax c _ _ => inCore c
  | .vsqrt c _ _ => inCore c
  | .vrcp c _ _ => inCore c
  | .vrsqrt c _ _ => inCore c
  | .vexp2 c _ _ => inCore c
  | .vlog2 c _ _ => inCore c
  | .vabs c _ _ => inCore c
  | .vcmplt c _ _ => inCore c
  | .vcmpeq c _ _ => inCore c
  | .vsel c _ _ => inCore c
  | .vmov c _ _ => inCore c
  | .viadd c _ _ => inCore c
  | .visub c _ _ => inCore c
  | .vimul c _ _ => inCore c
  | .vand c _ _ => inCore c
  | .vor c _ _ => inCore c
  | .vxor c _ _ => inCore c
  | .vshl c _ _ => inCore c
  | .vshr c _ _ => inCore c
  | .vsar c _ _ => inCore c
  | .viota c _ _ => inCore c
  | .vbcast c _ _ => inCore c
  | .vcvt c _ _ => inCore c
  | .vqb c _ _ => inCore c
  | .vdqb c _ _ => inCore c
  | .vrsum c _ _ => inCore c
  | .vrmax c _ _ => inCore c
  | .vrmin c _ _ => inCore c
  | .arsum c _ _ => inCore c
  | .armax c _ _ => inCore c
  | .asmx c _ _ => inCore c
  | .aresc c _ _ => inCore c
  | .anorm c _ _ => inCore c
  | .vld c _ _ => inCore c
  | .vst c _ _ => inCore c
  | .vldg c _ _ => inCore c
  | .vstg c _ _ => inCore c
  | .vlds c _ _ => inCore c
  | .vsts c _ _ => inCore c
  | .tld c _ _ => inCore c
  | .tst c _ _ => inCore c
  | .tldt c _ _ => inCore c
  | .tzero c _ _ => inCore c
  | .tmm c _ _ => inCore c
  | .azero c _ _ => inCore c
  | .ast c _ _ => inCore c
  | .ald c _ _ => inCore c
  | .ardv c _ _ => inCore c
  | .awrv c _ _ => inCore c
  | .evsig c _ _ => inCore c
  | .evwait c _ _ => inCore c
  | .evrd c _ _ => inCore c
  | .semacq c _ _ => inCore c
  | .semacqTimeout c => inCore c
  | .semrel c _ _ => inCore c
  | .dmaq c _ _ => inCore c
  | .dmard c _ _ => inCore c
  | .racsw c _ _ => inCore c
  | .wacsw c _ _ => inCore c
  | .seed c _ _ => inCore c
  | .rseq c _ _ => inCore c
  | .instructionCompletion c u => inCore c && inUnitNo u
  | .commandFetch q entry _ => inTenant q && wfEntry entry
  | .identify h => wfCmd h
  | .tenantInfo h => wfCmd h
  | .regRead h => wfCmd h
  | .regWrite h => wfCmd h
  | .qpCreate h => wfCmd h
  | .qpDelete h => wfCmd h
  | .qpAssign h => wfCmd h
  | .bindCores h => wfCmd h
  | .bindMemory h => wfCmd h
  | .bindPorts h => wfCmd h
  | .setShare h => wfCmd h
  | .schedPolicy h => wfCmd h
  | .graphSubmit h => wfCmd h
  | .graphStart h => wfCmd h
  | .graphRelease h => wfCmd h
  | .abort h => wfCmd h
  | .preempt h => wfCmd h
  | .taskRestart h => wfCmd h
  | .gateRelease h => wfCmd h
  | .ringCreate h => wfCmd h
  | .ringDelete h => wfCmd h
  | .ringPop h => wfCmd h
  | .memRead h => wfCmd h
  | .memWrite h => wfCmd h
  | .aspace h => wfCmd h
  | .map h => wfCmd h
  | .unmap h => wfCmd h
  | .protect h => wfCmd h
  | .granuleAttr h => wfCmd h
  | .rcWays h => wfCmd h
  | .rcFlush h => wfCmd h
  | .dmaLimit h => wfCmd h
  | .rowRepair h => wfCmd h
  | .stackRejoin h => wfCmd h
  | .moduleId h => wfCmd h
  | .routeSet h => wfCmd h
  | .acceptSet h => wfCmd h
  | .groupDefine h => wfCmd h
  | .vcWeight h => wfCmd h
  | .portDown h => wfCmd h
  | .portFlush h => wfCmd h
  | .portMode h => wfCmd h
  | .portTest h => wfCmd h
  | .laserSwitch h => wfCmd h
  | .wlSubst h => wfCmd h
  | .wlRestore h => wfCmd h
  | .remote h => wfCmd h
  | .profileSet h => wfCmd h
  | .override h => wfCmd h
  | .thermalMode h => wfCmd h
  | .powerRead h => wfCmd h
  | .calRun h => wfCmd h
  | .calStatus h => wfCmd h
  | .attest h => wfCmd h
  | .certRead h => wfCmd h
  | .fwStage h => wfCmd h
  | .fwActivate h => wfCmd h
  | .rollbackRead h => wfCmd h
  | .faultRing h => wfCmd h
  | .faultResume h => wfCmd h
  | .faultEnd h => wfCmd h
  | .dieFence h => wfCmd h
  | .dieRejoin h => wfCmd h
  | .severity h => wfCmd h
  | .faultPin h => wfCmd h
  | .cairnRecord h => wfCmd h
  | .cairnStatus h => wfCmd h
  | .apportion h => wfCmd h
  | .traceRing h => wfCmd h
  | .timeSet h => wfCmd h
  | .timeStep h => wfCmd h
  | .parentSet h => wfCmd h
  | .crestReport h => wfCmd h
  | .factoryEnter h => wfCmd h
  | .factoryExit h => wfCmd h
  | .faultInject h => wfCmd h
  | .faultInjectOccurrence _ => true
  | .logRead h => wfCmd h
  | .remoteCommandReceive port _ tenant _ entry _ => inPort port && inTenant tenant && wfEntry entry
  | .hstDbCmd fn _ _ => inTenant fn
  | .hstDbRpl fn _ _ => inTenant fn
  | .qpEnable fn _ => inTenant fn
  | .qpDisable fn _ => inTenant fn
  | .swSys _ => true
  | .swCore _ => true
  | .holdReleaseRequest _ => true
  | .prgSwitch k _ => inSite k
  | .injOne k port _ => inSite k && inSitePort port
  | .pam4LevelWrite k port _ => inSite k && inSitePort port
  | .crnAckWrite _ => true
  | .crnIntervalWrite _ => true
  | .safeInfoClear _ => true
  | .registerWrite addr _ => inWord34 addr.addr
  | .reg64LowWordRead addr => inWord34 addr.addr
  | .reg64LowWordWrite addr _ => inWord34 addr.addr
  | .rcFieldRead addr => inWord34 addr.addr
  | .graphAdmission tenant => inTenant tenant
  | .taskDispatch ridge => inRidge ridge
  | .backfillLimitExpiry ridge tenant => inRidge ridge && inTenant tenant
  | .taskCommit handle task => inHandle handle && inWord16 task
  | .abortArrival handle task => inHandle handle && inWord16 task
  | .preemptionRequest c => inCore c
  | .contextSaveComplete c => inCore c
  | .taskResume ridge => inRidge ridge
  | .recordWrite tenant ring => inTenant tenant && inLane ring
  | .ringHeadReread _ tenant ring => inTenant tenant && inLane ring
  | .coreSheafClearDone c => inCore c
  | .granuleBindCommit ridge g => inRidge ridge && inGranule g
  | .granuleClearComplete ridge g => inRidge ridge && inGranule g
  | .memoryReadRequest rq tenant pa _ => wfRequester rq && inTenant tenant && inPa pa
  | .memoryWriteRequest rq tenant pa _ _ => wfRequester rq && inTenant tenant && inPa pa
  | .patrolScrubRead stack => inStack stack
  | .stackWake stack => inStack stack
  | .nearTaskStart handle task => inHandle handle && inWord16 task
  | .nearChunkComplete handle task => inHandle handle && inWord16 task
  | .pageWalkComplete rq tenant _ _ => wfRequester rq && inTenant tenant
  | .tagAcquire ridge rq tenant use => inRidge ridge && wfRequester rq && inTenant tenant && wfUse use
  | .transactionResponse ridge _ _ _ _ _ _ => inRidge ridge
  | .dmaChunkRetire x => wfXfer x
  | .faultRecordWrite tenant => inTenant tenant
  | .collectiveTaskStart handle task => inHandle handle && inWord16 task
  | .collectiveFirstSend handle task => inHandle handle && inWord16 task
  | .collectiveMessageReceive ridge m => inRidge ridge && wfMsg m
  | .collectiveChunkRetire handle task => inHandle handle && inWord16 task
  | .collectiveCommit handle task => inHandle handle && inWord16 task
  | .failureNoticeReceive ridge m => inRidge ridge && wfNotice m
  | .attnBlockStage handle task => inHandle handle && inWord16 task
  | .jxlBeatReceive n port _ => inRidge n && inDiePort port
  | .nak n port _ => inRidge n && inDiePort port
  | .jxlReplayTimeout n port => inRidge n && inDiePort port
  | .jxlAckTimer n port => inRidge n && inDiePort port
  | .jxlRetrain n port _ => inRidge n && inDiePort port
  | .jxlTrainStart n port _ => inRidge n && inTrainPort port
  | .jxlMarkerReceive n port _ => inRidge n && inTrainPort port
  | .ident quadrant _ _ => inRidge quadrant
  | .strapIdentityTimeout quadrant => inRidge quadrant
  | .stolonIdentityReport quadrant => inRidge quadrant
  | .jxlClockLoss n port => inRidge n && inDiePort port
  | .fenceTrigger die _ => inUnit die
  | .fenceComplete die => inUnit die
  | .ucieModuleTrain n k _ _ => inRidge n && inRidge k
  | .identQ n k _ _ => inRidge n && inRidge k
  | .paramSet n k _ => inRidge n && inRidge k
  | .regRd k addr _ => inSite k && inWord32 addr
  | .regWr k addr _ _ => inSite k && inWord32 addr
  | .statusQ k _ _ => inSite k
  | .tempFf k _ => inSite k
  | .blank k _ => inSite k
  | .unblank k => inSite k
  | .engineRefused n k => inRidge n && inRidge k
  | .sidebandLost n k => inRidge n && inRidge k.site && decide (k.module < 8)
  | .laserMonitorSample k _ => inSite k
  | .fadeUpdate k => inSite k
  | .spareWarmDone k => inSite k
  | .spareStandby k _ => inSite k
  | .spareFailed k => inSite k
  | .laserSwitchover k => inSite k
  | .switchoverResume k _ => inSite k
  | .ringSlip k port x _ => inSite k && inSitePort port && inLine x
  | .ringRelock k port x _ _ => inSite k && inSitePort port && inLine x
  | .ringFail k port x _ => inSite k && inSitePort port && inLine x
  | .spareWlBad k port _ => inSite k && inSitePort port
  | .lossOfSignal k port x => inSite k && inSitePort port && inLine x
  | .signalReturn k port x _ => inSite k && inSitePort port && inLine x
  | .adaptationFreeze k port x => inSite k && inSitePort port && inLine x
  | .eyeScanPass k port x _ => inSite k && inSitePort port && inLine x
  | .siteAcquireLaserLocked k _ => inSite k
  | .siteAcquireRings k => inSite k
  | .receiversAdapted k port => inSite k && inSitePort port
  | .blockLockLoss port w => inPort port && inLane w
  | .blockLock port w => inPort port && inLane w
  | .fabricPacketReceive port _ _ => inPort port
  | .fabricPacketSend port lane => inPort port && inLane lane
  | .ack port lane _ _ => inPort port && inLane lane
  | .rxstat port lane _ _ => inPort port && inLane lane
  | .align port _ _ _ => inPort port
  | .fabricAckTimer port lane => inPort port && inLane lane
  | .fabricReplayTimeout port lane => inPort port && inLane lane
  | .linkDown port _ => inPort port
  | .fabricRetrainAttempt port => inPort port
  | .helloA port _ _ _ _ _ => inPort port
  | .helloB port _ _ => inPort port
  | .mode port _ _ => inPort port
  | .subst port w _ _ => inPort port && inLane w
  | .stripe port _ _ => inPort port
  | .mon port x _ => inPort port && inLine x
  | .test port _ => inPort port
  | .linkExchangeRepeat port => inPort port
  | .time port _ => inPort port
  | .timeBlockSend port => inPort port
  | .streamErrorRatioExceeded port w => inPort port && inLane w
  | .crestEpochPulse => true
  | .crestReportTimer port => inPort port
  | .parentPortLost => true
  | .traceRecordWrite ring => inLane ring
  | .msixModerationTimer src => wfIrq src
  | .functionLevelReset fn => inTenant fn
  | .pcieLinkTraining _ _ _ _ => true
  | .eqCoefficientRequest lane _ _ _ => inLane lane
  | .hostEyeScanPass lane _ => inLane lane
  | .loopbackEntry => true
  | .loopbackExit _ => true
  | .hostLinkDown _ => true
  | .powerOn => true
  | .railsComplete => true
  | .inputMonitorSample _ _ => true
  | .overcurrent => true
  | .slowRelease => true
  | .bor => true
  | .ovs => true
  | .phaseLost => true
  | .clockGoodLoss blk => wfBlock blk
  | .coreIdleSleep c => inCore c
  | .coreWakeComplete c => inCore c
  | .droopStretch c _ => inCore c
  | .droopRecover c => inCore c
  | .powerCapStep _ => true
  | .temperatureSample die _ => inUnit die
  | .localThrottleStep die => inUnit die
  | .localThrottleReleaseStep die => inUnit die
  | .trip die => inUnit die
  | .thermalControlStep _ => true
  | .stackedBandChange die _ _ => inUnit die
  | .mrst => true
  | .mrstLong => true
  | .perst => true
  | .perstDeassert => true
  | .wdog => true
  | .crit _ die _ => inUnit die
  | .blockResetRelease blk => wfBlock blk
  | .winnowerLoadComplete _ _ => true
  | .romBoot _ => true
  | .firmwareReady => true
  | .faultSourceOccurrence _ _ => true
  | .stolonFaultPoll n => inRidge n
  | .faultNPulseEnd => true
  | .localSafeState n => inRidge n
  | .safeAutoReset => true
  | .intervalClose _ => true
  | .powerUp => true
  | .cairnSupplyLoss _ => true
  | .coverOpen => true
  | .magnetic => true
  | .cairnCrestValue _ => true
  | .crestLost => true
  | .calibrationComplete _ _ _ _ _ => true
  | .extest _ => true
  | .idcode => true
  | .bypass => true
  | .samplePreload _ => true
  | .privateTestInstruction dies => (dies.hook.map inTestHook).getD true
  | .trstN => true
  | .smbusIdentify _ => true
  | .smbusStatus _ => true
  | .smbusTelemetry _ => true
  | .smbusFaults _ => true
  | .cairnSelect _ _ _ => true
  | .cairnRead _ => true
  | .cairnLast _ => true
  | .smbusAlertResponse _ => true
  | .smbusClockLowTimeout => true
  | .pcieConfigurationRequest fn _ _ _ => inTenant fn
  | .lossOfSignal1Ms k port x => inSite k && inSitePort port && inLine x

end Sys2Proof
end

