-- ==== Sys2Proof/Certificates/Slice0/Obligations.lean ====
section
/-! DEFINITION. The statements for the provers: one Prop per obligation, from the numbered rules of the specification. -/

open Sys2Proof Sys2Proof.Machine

/-! ## The queue of commands -/

/-- A step takes the command at the front of the queue and runs it on the state with the queue's rest. -/
def Obligations.StepRunsTheFrontCommand : Prop :=
  ∀ (i : Instr) (q : List Instr) (s : State), step { s with pending := i :: q } = exec i { s with pending := q }

/-- With no command waiting a step is one Crest tick, or no change before the Crest runs: the model's choice (log entry 40). -/
def Obligations.EmptyQueueTicksTheCrest : Prop :=
  ∀ s : State, s.pending = [] → (s.crestRun = true → step s = .next (tick s)) ∧ (s.crestRun = false → step s = .next s)

/-! ## The scalar sequencer -/

/-- The two-operand scalar instructions: S[SD] takes the value of the operation on S[SA] and on S[SB] or IMM, the PC moves
to the next word, the wait and the signal of the word happen; nothing else of the core or of the block changes.
LI, CRST and EVRD: S[SD] takes IMM, the Crest count of the core's die as it stands, or an event counter. -/
def Obligations.ScalarArithmeticAndMoves : Prop :=
  (
  ∀ (c : Nat) (p : Pre) (f : FmtA) (s : State),
    ∀ x ∈ ([(.add c p f, 0x10#8, fun a b => a + b), (.sub c p f, 0x11#8, fun a b => a - b), (.mul c p f, 0x12#8, fun a b => a * b),
        (.andd c p f, 0x13#8, fun a b => a &&& b), (.orr c p f, 0x14#8, fun a b => a ||| b), (.xorr c p f, 0x15#8, fun a b => a ^^^ b),
        (.shl c p f, 0x16#8, fun a b => a <<< (b.toNat % 64)), (.shr c p f, 0x17#8, fun a b => a >>> (b.toNat % 64)),
        (.sar c p f, 0x18#8, fun a b => a.sshiftRight (b.toNat % 64)),
        (.minn c p f, 0x19#8, fun a b => if a.toInt < b.toInt then a else b),
        (.maxx c p f, 0x1A#8, fun a b => if a.toInt < b.toInt then b else a),
        (.slt c p f, 0x1B#8, fun a b => if a.toInt < b.toInt then 1#64 else 0#64),
        (.sltu c p f, 0x1C#8, fun a b => if a.toNat < b.toNat then 1#64 else 0#64),
        (.seq c p f, 0x1D#8, fun a b => if a = b then 1#64 else 0#64)] : List (Instr × Byte × (Word64 → Word64 → Word64))),
    let w := wordA x.2.1 p f
    let k := begun1 w (coreOf s c)
    CoreReady s c w → predOk (coreOf s c) w = true → SignalFits p k →
    ∃ t, exec x.1 s = .next t ∧
      CoreOnly c (giveSignal p (sset f.sd (x.2.2 (sget k f.sa) (if f.ib then f.imm else sget k f.sb)) k)) s t) ∧
  (
  ∀ (c : Nat) (p : Pre) (f : FmtA) (s : State),
    ∀ x ∈ ([(.li c p f, 0x1E#8, fun _ => f.imm), (.crst c p f, 0x1F#8, fun _ => BitVec.ofNat 64 (stampAt s (c / 16))),
        (.evrd c p f, 0xA2#8, fun k => BitVec.ofNat 64 (evGet k f.ev.toNat))] : List (Instr × Byte × (Core → Word64))),
    let w := wordA x.2.1 p f
    let k := begun1 w (coreOf s c)
    CoreReady s c w → predOk (coreOf s c) w = true → SignalFits p k →
    ∃ t, exec x.1 s = .next t ∧ CoreOnly c (giveSignal p (sset f.sd (x.2.2 k) k)) s t)

/-- NOP, the jumps, LOOP, CALL, RET, YIELD and SXT: where the PC goes, what LOOP and CALL write, how far SXT lowers the
extent; NOP, and YIELD on a core whose task is not being pre-empted, only move the PC. YIELD takes a pending pre-emption: the
core, with no transfer of its own, issues nothing further. -/
def Obligations.ScalarControl : Prop :=
  (
  ∀ (c : Nat) (p : Pre) (f : FmtA) (s : State),
    let target := (coreOf s c).pc + 16#64 * f.imm
    ∀ x ∈ ([(.nop c p f, 0x00#8, fun k => k), (.jmp c p f, 0x02#8, fun k => { k with pc := target }),
        (.jnz c p f, 0x03#8, fun k => if sget k f.sa = 0#64 then k else { k with pc := target }),
        (.jz c p f, 0x04#8, fun k => if sget k f.sa = 0#64 then { k with pc := target } else k),
        (.loop c p f, 0x05#8, fun k =>
          let v := sget k f.sa - 1#64
          let k1 := sset f.sa v k
          if v = 0#64 then k1 else { k1 with pc := target }),
        (.call c p f, 0x06#8, fun k => { sset f.sd k.pc k with pc := target }),
        (.ret c p f, 0x07#8, fun k => { k with pc := sget k f.sa }), (.yield c p f, 0x08#8, fun k => k),
        (.sxt c p f, 0x09#8, fun k => { k with extent := min k.extent (alignUp (sget k f.sa).toNat 65536) })] :
          List (Instr × Byte × (Core → Core))),
    let w := wordA x.2.1 p f
    let k := begun1 w (coreOf s c)
    CoreReady s c w → predOk (coreOf s c) w = true → SignalFits p k → (x.2.1 = 0x07#8 → (sget k f.sa).toNat % 16 = 0) →
    (x.2.1 = 0x08#8 → ∀ h t rank, (coreOf s c).task = some (h, t, rank) → (taskOf s h t).map (·.st) ≠ some tsPreempting) →
    ∃ t, exec x.1 s = .next t ∧ CoreOnly c (giveSignal p (x.2.2 k)) s t) ∧
  (
  ∀ (c h t rank : Nat) (p : Pre) (f : FmtA) (s : State) (x : Task),
    let w := wordA 0x08#8 p f
    let k := begun1 w (coreOf s c)
    CoreReady s c w → predOk (coreOf s c) w = true → SignalFits p k → (coreOf s c).xfers = [] →
    (coreOf s c).task = some (h, t, rank) → taskOf s h t = some x → x.st = tsPreempting →
    ∃ u, exec (.yield c p f) s = .next u ∧ CoreOnly c (giveSignal p { k with stop := true }) s u)

/-- An instruction of the sequencer whose predicate is false does nothing but take its wait and give its signal. -/
def Obligations.FalsePredicateSkips : Prop :=
  ∀ (c : Nat) (p : Pre) (f : FmtA) (s : State),
    ∀ x ∈ ([(.nop c p f, 0x00#8), (.endTask c p f, 0x01#8), (.jmp c p f, 0x02#8), (.jnz c p f, 0x03#8), (.jz c p f, 0x04#8),
        (.loop c p f, 0x05#8), (.call c p f, 0x06#8), (.ret c p f, 0x07#8), (.yield c p f, 0x08#8), (.sxt c p f, 0x09#8),
        (.trap c p f, 0x0A#8), (.add c p f, 0x10#8), (.sub c p f, 0x11#8), (.mul c p f, 0x12#8), (.andd c p f, 0x13#8),
        (.orr c p f, 0x14#8), (.xorr c p f, 0x15#8), (.shl c p f, 0x16#8), (.shr c p f, 0x17#8), (.sar c p f, 0x18#8),
        (.minn c p f, 0x19#8), (.maxx c p f, 0x1A#8), (.slt c p f, 0x1B#8), (.sltu c p f, 0x1C#8), (.seq c p f, 0x1D#8),
        (.li c p f, 0x1E#8), (.crst c p f, 0x1F#8), (.sld c p f, 0x20#8), (.sst c p f, 0x21#8), (.sldg c p f, 0x22#8),
        (.sstg c p f, 0x23#8), (.fence c p f, 0x24#8), (.rflush c p f, 0x25#8), (.rinv c p f, 0x26#8), (.evsig c p f, 0xA0#8),
        (.evwait c p f, 0xA1#8), (.evrd c p f, 0xA2#8), (.semacq c p f, 0xA3#8), (.semrel c p f, 0xA4#8)] : List (Instr × Byte)),
    let w := wordA x.2 p f
    let k := begun1 w (coreOf s c)
    CoreReady s c w → predOk (coreOf s c) w = false → SignalFits p k →
    ∃ t, exec x.1 s = .next t ∧ CoreOnly c (giveSignal p k) s t

/-- END gives the core's share of its task up: the core has ended, and the task counts its rank, ending with status OK once
every rank has ended (a task being pre-empted is not the case). TRAP ends the task with USER_TRAP, IMM[15:0] and the PC in its detail. -/
def Obligations.EndAndTrap : Prop :=
  ∀ (c : Nat) (p : Pre) (f : FmtA) (s : State) (h t rank : Nat) (g : Graph) (x : Task), (coreOf s c).task = some (h, t, rank) →
    graphOf s h = some g → g.tasks[t]? = some x →
    (let w := wordA 0x01#8 p f
     CoreReady s c w → predOk (coreOf s c) w = true → (coreOf s c).xfers = [] → x.st ≠ tsPreempting → SignalFits p (begun1 w (coreOf s c)) →
     ∃ u, exec (.endTask c p f) s = .next u ∧ (coreOf u c).ended = true ∧ (∀ d, d ≠ c → coreOf u d = coreOf s d) ∧
       taskOf u h t = some { x with
         endedRanks := x.endedRanks ++ [rank], flags := x.flags ||| coreFlags (begun1 w (coreOf s c))
         endStatus := if x.endedRanks.length + 1 = x.nCores ∧ x.endStatus = none then some (0, 0) else x.endStatus } ∧
       u = { s with cores := u.cores, graphs := u.graphs }) ∧
    (let w := wordA 0x0A#8 p f
     CoreReady s c w → predOk (coreOf s c) w = true → x.st ≠ tsFinal → x.endStatus = none →
     ∃ u y, exec (.trap c p f) s = .next u ∧ taskOf u h t = some y ∧
       y = { x with endStatus := some (stUserTrap, rankPc (f.imm.toNat % 65536) (coreOf s c).pc.toNat) } ∧
       (∀ d ∈ x.held, (coreOf u d).ended = true ∧ (coreOf u d).stop = true ∧ (coreOf u d).queues = [] ∧ (coreOf u d).xfers = []) ∧
       (∀ d, d ∉ x.held → d ≠ c → coreOf u d = coreOf s d) ∧
       u = { s with cores := u.cores, graphs := u.graphs, tags := u.tags })

/-- SLD and SST of an aligned word inside the extent, with no latent error in the sheaf memory: SLD gives S[SD] the eight
bytes at S[SA] + IMM, SST puts the eight bytes of S[SB] there and changes no other byte of the sheaf memory. -/
def Obligations.ScalarSheafMemory : Prop :=
  ∀ (c : Nat) (p : Pre) (f : FmtA) (s : State), s.inj = [] → (coreOf s c).sheafErr = [] →
    let a := (sget (coreOf s c) f.sa + f.imm).toNat
    a % 8 = 0 → a + 8 ≤ (coreOf s c).extent →
    (let w := wordA 0x20#8 p f
     let k := begun1 w (coreOf s c)
     CoreReady s c w → predOk (coreOf s c) w = true → SignalFits p k →
     ∃ t, exec (.sld c p f) s = .next t ∧
       CoreOnly c (giveSignal p (sset f.sd (BitVec.ofNat 64 (leNat (Mp.slice 0#8 k.sheaf a 8))) k)) s t) ∧
    (let w := wordA 0x21#8 p f
     let k := begun1 w (coreOf s c)
     CoreReady s c w → predOk (coreOf s c) w = true → SignalFits p k →
     ∃ t m, exec (.sst c p f) s = .next t ∧ CoreOnly c (giveSignal p { k with sheaf := m }) s t ∧
       Mp.slice 0#8 m a 8 = leBytes 8 (sget k f.sb).toNat ∧
       ∀ b, b < a ∨ a + 8 ≤ b → Mp.get 0#8 m b = Mp.get 0#8 k.sheaf b)

/-- SLD and SST off alignment or past the extent end the task with that status; alignment is checked first.
An EVSIG that would take a counter past 65,535 changes no counter but ends the task with EVENT_OVERFLOW. -/
def Obligations.SheafTrapsAndEventOverflow : Prop :=
  (
  ∀ (c h t rank : Nat) (p : Pre) (f : FmtA) (s : State) (x : Task), (coreOf s c).task = some (h, t, rank) →
    taskOf s h t = some x → x.st ≠ tsFinal → x.endStatus = none →
    let a := (sget (coreOf s c) f.sa + f.imm).toNat
    ∀ y ∈ ([(.sld c p f, 0x20#8), (.sst c p f, 0x21#8)] : List (Instr × Byte)),
      CoreReady s c (wordA y.2 p f) → predOk (coreOf s c) (wordA y.2 p f) = true →
      (a % 8 ≠ 0 → ∃ u z, exec y.1 s = .next u ∧ taskOf u h t = some z ∧
        z.endStatus = some (stMisaligned, rankPc rank (coreOf s c).pc.toNat)) ∧
      (a % 8 = 0 → (coreOf s c).extent < a + 8 → ∃ u z, exec y.1 s = .next u ∧ taskOf u h t = some z ∧
        z.endStatus = some (stSheafBound, rankPc rank (coreOf s c).pc.toNat))) ∧
  (
  ∀ (c h t rank : Nat) (p : Pre) (f : FmtA) (s : State) (x : Task), (coreOf s c).task = some (h, t, rank) →
    taskOf s h t = some x → x.st ≠ tsFinal → x.endStatus = none →
    let w := wordA 0xA0#8 p f
    CoreReady s c w → predOk (coreOf s c) w = true → 65535 < evGet (begun1 w (coreOf s c)) f.ev.toNat + f.imm.toNat % 65536 →
    ∃ u z, exec (.evsig c p f) s = .next u ∧ taskOf u h t = some z ∧
      z.endStatus = some (stEventOverflow, rankPc rank (coreOf s c).pc.toNat) ∧
      (coreOf u c).ev = (begun1 w (coreOf s c)).ev)

/-- SLDG and SSTG of an aligned word, RFLUSH and RINV of a range, where the access succeeds: `v` is the state in which the
operation begins and `u` the state its access leaves. SLDG gives S[SD] the eight bytes read, SSTG writes the eight bytes of
S[SB] and changes no register, and beyond `u` only the core changes. FENCE, with no work of the core outstanding, and RINV,
which drops borrowed copies, complete too. -/
def Obligations.ScalarGlobalAccess : Prop :=
  ∀ (c : Nat) (p : Pre) (f : FmtA) (s : State),
    let a := (sget (coreOf s c) f.sa + f.imm).toNat
    let r := (sget (coreOf s c) f.sa).toNat
    let n := (sget (coreOf s c) f.sb).toNat
    let k := fun o => begun1 (wordA o p f) (coreOf s c)
    let v := fun o => began c (wordA o p f) s
    let ready := fun o => CoreReady s c (wordA o p f) ∧ predOk (coreOf s c) (wordA o p f) = true ∧ SignalFits p (k o)
    (∀ bs u, ready 0x22#8 → a % 8 = 0 →
      vread (.core c) (coreTaskTenant (v 0x22#8) c) a 8 accRead (v 0x22#8) = (.ok bs, u) → u.cores = (v 0x22#8).cores →
      ∃ t, exec (.sldg c p f) s = .next t ∧
        CoreOnly c (giveSignal p (sset f.sd (BitVec.ofNat 64 (leNat bs)) (k 0x22#8))) u t) ∧
    (∀ bs u, ready 0x23#8 → a % 8 = 0 →
      vwrite (.core c) (coreTaskTenant (v 0x23#8) c) a (leBytes 8 (sget (coreOf s c) f.sb).toNat) accWrite (v 0x23#8) = (.ok bs, u) →
      u.cores = (v 0x23#8).cores →
      ∃ t, exec (.sstg c p f) s = .next t ∧ CoreOnly c (giveSignal p (k 0x23#8)) u t) ∧
    (ready 0x24#8 → (coreOf s c).xfers = [] →
      ∃ t, exec (.fence c p f) s = .next t ∧ CoreOnly c (giveSignal p (k 0x24#8)) s t) ∧
    (∀ ps u1 u, ready 0x25#8 →
      translateRange (.core c) (coreTaskTenant (v 0x25#8) c) r n accFlush (v 0x25#8) = (.inl ps, u1) →
      flushPieces (c / 48) ps u1 = (none, u) → u.cores = (v 0x25#8).cores →
      ∃ t, exec (.rflush c p f) s = .next t ∧ CoreOnly c (giveSignal p (k 0x25#8)) u t) ∧
    (∀ ps u, ready 0x26#8 →
      translateRange (.core c) (coreTaskTenant (v 0x26#8) c) r n accFlush (v 0x26#8) = (.inl ps, u) → u.cores = (v 0x26#8).cores →
      ∃ t, exec (.rinv c p f) s = .next t ∧
        CoreOnly c (giveSignal p (k 0x26#8)) (ps.foldl (fun s p => if p.2 = 0 then s else dropBorrowed (some (c / 48)) p.1 p.2 s) u) t)

/-- EVSIG adds IMM[15:0] to an event counter, EVWAIT takes it from one that holds it.
SEMACQ of a word that holds enough takes S[SB] from it and gives S[SD] the value 1; of one that does not, the word and
the registers stay and the instruction waits in hand with its limit. SEMREL adds S[SB] to the word modulo 2^64. The limit's
passing, once the Crest count has reached it, gives S[SD] the value 0 and moves on. `v` is the state in which the operation begins. -/
def Obligations.EventsAndSemaphores : Prop :=
  (
  ∀ (c : Nat) (p : Pre) (f : FmtA) (s : State),
    let n := f.imm.toNat % 65536
    let e := f.ev.toNat
    (let w := wordA 0xA0#8 p f
     let k := begun1 w (coreOf s c)
     CoreReady s c w → predOk (coreOf s c) w = true → evGet k e + n ≤ 65535 → SignalFits p (evSet e (evGet k e + n) k) →
     ∃ t, exec (.evsig c p f) s = .next t ∧ CoreOnly c (giveSignal p (evSet e (evGet k e + n) k)) s t) ∧
    (let w := wordA 0xA1#8 p f
     let k := begun1 w (coreOf s c)
     CoreReady s c w → predOk (coreOf s c) w = true → n ≤ evGet k e → SignalFits p (evSet e (evGet k e - n) k) →
     ∃ t, exec (.evwait c p f) s = .next t ∧ CoreOnly c (giveSignal p (evSet e (evGet k e - n) k)) s t)) ∧
  (
  ∀ (c : Nat) (p : Pre) (f : FmtA) (s : State),
    let va := (sget (coreOf s c) f.sa).toNat
    let n := (sget (coreOf s c) f.sb).toNat
    let k := fun o => begun1 (wordA o p f) (coreOf s c)
    let v := fun o => began c (wordA o p f) s
    let ready := fun o => CoreReady s c (wordA o p f) ∧ predOk (coreOf s c) (wordA o p f) = true ∧ SignalFits p (k o)
    (∀ pa x u1 u, ready 0xA3#8 → va % 8 = 0 → semRead c va (v 0xA3#8) = (.inl (pa, x), u1) → u1.cores = (v 0xA3#8).cores →
      (n ≤ x → semWrite c va pa (x - n) u1 = (none, u) → u.cores = u1.cores →
        ∃ t, exec (.semacq c p f) s = .next t ∧ CoreOnly c (giveSignal p (sset f.sd 1#64 (k 0xA3#8))) u t) ∧
      (x < n → ∃ t, exec (.semacq c p f) s = .next t ∧
        CoreOnly c { k 0xA3#8 with
          waited := p.wv, pc := (coreOf s c).pc
          sem := some (wordA 0xA3#8 p f, if sget (coreOf s c) f.sc = 0#64 then 0 else stampAt u1 (c / 16) + (sget (coreOf s c) f.sc).toNat) } u1 t)) ∧
    (∀ pa x u1 u, ready 0xA4#8 → va % 8 = 0 → (coreOf s c).xfers = [] → semRead c va (v 0xA4#8) = (.inl (pa, x), u1) →
      semWrite c va pa ((x + n) % 2 ^ 64) u1 = (none, u) → u.cores = (v 0xA4#8).cores →
      ∃ t, exec (.semrel c p f) s = .next t ∧ CoreOnly c (giveSignal p (k 0xA4#8)) u t) ∧
    (∀ limit, (coreOf s c).sem = some (wordA 0xA3#8 p f, limit) → limit ≠ 0 → limit ≤ stampAt s (c / 16) →
      canIssue s c = true → (coreOf s c).queues.flatMap (·.2) = [] →
      SignalFits p (coreOf s c) →
      ∃ t, exec (.semacqTimeout c) s = .next t ∧
        CoreOnly c (giveSignal p (sset f.sd 0#64 { coreOf s c with sem := none, waited := false, pc := (coreOf s c).pc + 16#64 })) s t))

/-! ## Vector engines -/

/-- VADD, VSUB, VMUL, VFMA and VSQRT: every element of V[VD] is the operation on the elements of the sources in the lane
type, rounded under the effective mode; the flags of all lanes join the engine's, and a stochastic rounding takes one step
of its sequence. The instruction then stands in its engine's queue until it completes. -/
def Obligations.VectorRoundingArithmetic : Prop :=
  ∀ (c : Nat) (p : Pre) (f : FmtV) (s : State),
    ∀ x ∈ ([(.vadd c p f, 0x30#8, fun ff r z a b _ => fpAdd ff r z a b), (.vsub c p f, 0x31#8, fun ff r z a b _ => fpSub ff r z a b),
        (.vmul c p f, 0x32#8, fun ff r z a b _ => fpMul ff r z a b), (.vfma c p f, 0x33#8, fun ff r z a b d => fpFma ff r z a b d),
        (.vsqrt c p f, 0x36#8, fun ff r z a _ _ => fpSqrt ff r z a)] :
          List (Instr × Byte × (FFmt → Rnd → Bool → Nat → Nat → Nat → Nat × Flags))),
    let w : CWord := ⟨x.2.1, p, .v f⟩
    let u := veOf f
    let k := issued u w (coreOf s c)
    let g := engOf k u
    let m := effMode g p.rnd
    let ty := f.ty.toNat
    let r := lanewise ty (fun e a b d => x.2.2 (tyFmt ty) (rndFor g m 0 e) (ty == 0 && ftzOf g) a b d) (vget k f.va) (srcB k f) (vget k f.vc)
    CoreReady s c w → predOk (coreOf s c) w = true →
    ∃ t, exec x.1 s = .next t ∧ CoreOnly c (advanceSeq u m 1 (raiseFlags u r.2 (vset f.vd r.1 k))) s t

/-- VMIN, VMAX, the approximated functions, VABS, the comparisons, VSEL and VMOV, element by element; none of them rounds
under a mode. The values of the approximated functions beyond their bound are the model's (log entry 4), and VABS passes a
NaN on with its sign cleared (log entry 21). -/
def Obligations.VectorElementwise : Prop :=
  ∀ (c : Nat) (p : Pre) (f : FmtV) (s : State),
    let z := ftzOf (engOf (coreOf s c) (veOf f))
    ∀ x ∈ ([(.vmin c p f, 0x34#8, fun ff a b _ => fpMinMax false ff a b), (.vmax c p f, 0x35#8, fun ff a b _ => fpMinMax true ff a b),
        (.vrcp c p f, 0x37#8, fun _ a _ _ => fpRcp z a), (.vrsqrt c p f, 0x38#8, fun _ a _ _ => fpRsqrt z a),
        (.vexp2 c p f, 0x39#8, fun _ a _ _ => fpExp2 z a), (.vlog2 c p f, 0x3A#8, fun _ a _ _ => fpLog2 z a),
        (.vabs c p f, 0x3B#8, fun ff a _ _ => (a % 2 ^ (ff.eb + ff.mb), 0#32)),
        (.vcmplt c p f, 0x3C#8, fun ff a b _ => (if (ff.decode a).lt (ff.decode b) then 2 ^ ff.width - 1 else 0,
          if (ff.decode a).isNan || (ff.decode b).isNan then flNI else 0#32)),
        (.vcmpeq c p f, 0x3D#8, fun ff a b _ => (if (ff.decode a).eq (ff.decode b) then 2 ^ ff.width - 1 else 0,
          if (ff.decode a).isNan || (ff.decode b).isNan then flNI else 0#32)),
        (.vsel c p f, 0x3E#8, fun _ a b d => (if d ≠ 0 then a else b, 0#32)), (.vmov c p f, 0x3F#8, fun _ a _ _ => (a, 0#32))] :
          List (Instr × Byte × (FFmt → Nat → Nat → Nat → Nat × Flags))),
    let w : CWord := ⟨x.2.1, p, .v f⟩
    let u := veOf f
    let k := issued u w (coreOf s c)
    let r := lanewise f.ty.toNat (fun _ a b d => x.2.2 (tyFmt f.ty.toNat) a b d) (vget k f.va) (srcB k f) (vget k f.vc)
    CoreReady s c w → predOk (coreOf s c) w = true →
    ∃ t, exec x.1 s = .next t ∧ CoreOnly c (raiseFlags u r.2 (vset f.vd r.1 k)) s t

/-- The INT32 lane instructions and VIOTA and VBCAST: lane n of V[VD] is the 32-bit operation on lane n of the sources (or
n + S[SA], or S[SA]), and IOV sets exactly if some lane's exact signed sum, difference or product does not fit in 32 bits. -/
def Obligations.VectorIntegerLanes : Prop :=
  ∀ (c : Nat) (p : Pre) (f : FmtV) (s : State),
    let xs := fun n : Nat => ((vget (coreOf s c) f.va)[n]?).getD 0#32
    let ys := fun n : Nat => ((srcB (coreOf s c) f)[n]?).getD 0#32
    let sa : Word32 := (sget (coreOf s c) f.sa).setWidth 32
    let ovf := fun v : Nat → Int => (List.range 256).any (fun n => decide (v n < -2147483648) || decide (2147483648 ≤ v n))
    ∀ x ∈ ([(.viadd c p f, 0x40#8, fun n => xs n + ys n, ovf (fun n => (xs n).toInt + (ys n).toInt)),
        (.visub c p f, 0x41#8, fun n => xs n - ys n, ovf (fun n => (xs n).toInt - (ys n).toInt)),
        (.vimul c p f, 0x42#8, fun n => xs n * ys n, ovf (fun n => (xs n).toInt * (ys n).toInt)),
        (.vand c p f, 0x43#8, fun n => xs n &&& ys n, false), (.vor c p f, 0x44#8, fun n => xs n ||| ys n, false),
        (.vxor c p f, 0x45#8, fun n => xs n ^^^ ys n, false), (.vshl c p f, 0x46#8, fun n => xs n <<< ((ys n).toNat % 32), false),
        (.vshr c p f, 0x47#8, fun n => xs n >>> ((ys n).toNat % 32), false),
        (.vsar c p f, 0x48#8, fun n => (xs n).sshiftRight ((ys n).toNat % 32), false),
        (.viota c p f, 0x49#8, fun n => sa + BitVec.ofNat 32 n, ovf (fun n => sa.toInt + n)),
        (.vbcast c p f, 0x4A#8, fun _ => sa, false)] : List (Instr × Byte × (Nat → Word32) × Bool)),
    let w : CWord := ⟨x.2.1, p, .v f⟩
    let u := veOf f
    CoreReady s c w → predOk (coreOf s c) w = true →
    ∃ t v, exec x.1 s = .next t ∧
      CoreOnly c (raiseFlags u (if x.2.2.2 then flIOV else 0#32) (vset f.vd v (issued u w (coreOf s c)))) s t ∧
      v.length = 256 ∧ ∀ n < 256, v[n]? = some (x.2.2.1 n)

/-- VCVT and the block conversions VQB and VDQB: how the elements are taken from the 8,192 bits of V[VA], converted, and put
back as the 8,192 bits of V[VD]; VQB gives S[SA] its eight scales unless the blocks are Emmer blocks. -/
def Obligations.VectorConversions : Prop :=
  ∀ (c : Nat) (p : Pre) (f : FmtV) (s : State),
    let u := veOf f
    let ready := fun o => CoreReady s c ⟨o, p, .v f⟩ ∧ predOk (coreOf s c) ⟨o, p, .v f⟩ = true
    let k := fun o => issued u ⟨o, p, .v f⟩ (coreOf s c)
    let g := engOf (coreOf s c) u
    let va := vget (coreOf s c) f.va
    (ready 0x50#8 →
      let src := cvtElem f.fmts.toNat f.ty.toNat
      let dst := cvtElem f.fmtd.toNat f.ty.toNat
      let m := if mayRound ⟨0x50#8, p, .v f⟩ then effMode g p.rnd else .rne
      let rs := (unpackBits src.width (cvtCount src dst) (lanesNat va)).mapIdx (fun i x => cvtElemVal src dst (rndFor g m 0 i) (satOf g) x)
      ∃ t, exec (.vcvt c p f) s = .next t ∧
        CoreOnly c (advanceSeq u m 1 (raiseFlags u (orFlags (rs.map (·.2)))
          (vset f.vd (natLanes (packBits dst.width (rs.map (·.1)))) (k 0x50#8)))) s t) ∧
    (ready 0x51#8 →
      let m := effMode g p.rnd
      let nums := fun b : Nat => (blockLanes va b).map (fun x => fmtFP32.decode x.toNat)
      let rnd := fun b i : Nat => rndFor g m 0 (32 * b + i)
      let em := (List.range 8).map (fun b => quantEmmer (rnd b) (satOf g) (blockLanes va b) (nums b))
      let mx := (List.range 8).map (fun b => quantMx (codeElem f.fmtd.toNat) (rnd b) (satOf g) (nums b))
      ∃ t, exec (.vqb c p f) s = .next t ∧
        (f.fmtd = 14#4 → CoreOnly c (advanceSeq u m 1 (raiseFlags u (orFlags (em.map (·.2)))
          (vset f.vd (natLanes (packBits 144 (em.map (·.1)))) (k 0x51#8)))) s t) ∧
        (f.fmtd ≠ 14#4 → CoreOnly c (advanceSeq u m 1 (raiseFlags u (orFlags (mx.map (·.2.2)))
          (vset f.vd (natLanes (packBits (codeElem f.fmtd.toNat).width (mx.flatMap (·.2.1))))
            (sset f.sa (BitVec.ofNat 64 (packBits 8 (mx.map (·.1)))) (k 0x51#8))))) s t)) ∧
    (ready 0x52#8 →
      let el := codeElem f.fmts.toNat
      let val := fun n : Nat =>
        if f.fmts = 14#4 then emmerValue (lanesNat va / 2 ^ (144 * (n / 32)) % 2 ^ 144) (n % 32)
        else mxValue el ((sget (coreOf s c) f.sa).toNat / 2 ^ (8 * (n / 32)) % 256) (lanesNat va / 2 ^ (el.width * n) % 2 ^ el.width)
      let rs := (List.range 256).map (fun n => widen32 (val n))
      ∃ t, exec (.vdqb c p f) s = .next t ∧
        CoreOnly c (raiseFlags u (orFlags (rs.map (·.2))) (vset f.vd (rs.map (fun q => BitVec.ofNat 32 q.1)) (k 0x52#8))) s t)

/-- The vector reductions: a pairwise tree of eight levels over the 256 lanes, or over the even and over the odd halves of a
16-bit lane type; the result in lane 0, the other lanes zero. -/
def Obligations.VectorReductions : Prop :=
  ∀ (c : Nat) (p : Pre) (f : FmtV) (s : State),
    let u := veOf f
    let z := fun ff => ff == fmtFP32 && ftzOf (engOf (coreOf s c) u)
    ∀ x ∈ ([(.vrsum c p f, 0x60#8, fun ff a b => fpAdd ff rndNear (z ff) a b, fun a b => intResult (sext 32 a + sext 32 b)),
        (.vrmax c p f, 0x61#8, fpMinMax true, fun a b => (if sext 32 a < sext 32 b then b else a, 0#32)),
        (.vrmin c p f, 0x62#8, fpMinMax false, fun a b => (if sext 32 a < sext 32 b then a else b, 0#32))] :
          List (Instr × Byte × (FFmt → Nat → Nat → Nat × Flags) × (Nat → Nat → Nat × Flags))),
    let w : CWord := ⟨x.2.1, p, .v f⟩
    let ty := f.ty.toNat
    let v := (vget (coreOf s c) f.va).map BitVec.toNat
    let one := treeReduce (if ty = 3 then x.2.2.2 else x.2.2.1 (tyFmt ty)) v
    let lo := treeReduce (x.2.2.1 (tyFmt ty)) (v.map (· % 65536))
    let hi := treeReduce (x.2.2.1 (tyFmt ty)) (v.map (· / 65536))
    let r := if ty = 1 ∨ ty = 2 then (lo.1 + 65536 * hi.1, lo.2 ||| hi.2) else one
    CoreReady s c w → predOk (coreOf s c) w = true →
    ∃ t, exec x.1 s = .next t ∧
      CoreOnly c (raiseFlags u r.2 (vset f.vd (BitVec.ofNat 32 r.1 :: List.replicate 255 0#32) (issued u w (coreOf s c)))) s t

/-- The vector accesses to the sheaf memory, in bounds and aligned, with no latent error in it: VLD and VST move 1,024 bytes
at S[SA] + IMM; VLDS and VSTS move a 32-bit lane at S[SA] + n × IMM for each lane n, in lane order.
VLDG and VSTG of 1,024 bytes at an aligned S[SA] + IMM where the access succeeds: `v` is the state in which the operation
begins and `x` the state its access leaves; beyond `x` only the core changes. -/
def Obligations.VectorMemory : Prop :=
  (
  ∀ (c : Nat) (p : Pre) (f : FmtV) (s : State), s.inj = [] → (coreOf s c).sheafErr = [] →
    let u := veOf f
    let ready := fun o => CoreReady s c ⟨o, p, .v f⟩ ∧ predOk (coreOf s c) ⟨o, p, .v f⟩ = true
    let k := fun o => issued u ⟨o, p, .v f⟩ (coreOf s c)
    let a := vecAddr (coreOf s c) f
    let lanes := ∀ n < 256, laneAddr (coreOf s c) f n % 4 = 0 ∧ laneAddr (coreOf s c) f n + 4 ≤ (coreOf s c).extent
    (ready 0x70#8 → a % 64 = 0 → a + 1024 ≤ (coreOf s c).extent →
      ∃ t, exec (.vld c p f) s = .next t ∧
        CoreOnly c (vset f.vd (bytesWords (Mp.slice 0#8 (coreOf s c).sheaf a 1024)) (k 0x70#8)) s t) ∧
    (ready 0x71#8 → a % 64 = 0 → a + 1024 ≤ (coreOf s c).extent →
      ∃ t, exec (.vst c p f) s = .next t ∧ CoreOnly c (sheafPut a (wordsBytes (vget (coreOf s c) f.va)) (k 0x71#8)) s t) ∧
    (ready 0x74#8 → lanes →
      ∃ t, exec (.vlds c p f) s = .next t ∧
        CoreOnly c (vset f.vd ((List.range 256).map (fun n =>
          BitVec.ofNat 32 (leNat (Mp.slice 0#8 (coreOf s c).sheaf (laneAddr (coreOf s c) f n) 4)))) (k 0x74#8)) s t) ∧
    (ready 0x75#8 → lanes →
      ∃ t, exec (.vsts c p f) s = .next t ∧
        CoreOnly c ((List.range 256).foldl (fun q n => sheafPut (laneAddr (coreOf s c) f n)
          (leBytes 4 (((vget (coreOf s c) f.va)[n]?).getD 0#32).toNat) q) (k 0x75#8)) s t)) ∧
  (
  ∀ (c : Nat) (p : Pre) (f : FmtV) (s : State),
    let u := veOf f
    let ready := fun o => CoreReady s c ⟨o, p, .v f⟩ ∧ predOk (coreOf s c) ⟨o, p, .v f⟩ = true
    let k := fun o => issued u ⟨o, p, .v f⟩ (coreOf s c)
    let v := fun o => setCore c (waiting u ⟨o, p, .v f⟩ (coreOf s c)) s
    let a := vecAddr (coreOf s c) f
    (∀ bs x, ready 0x72#8 → a % 64 = 0 →
      vread (.core c) (coreTaskTenant s c) a 1024 accRead (v 0x72#8) = (.ok bs, x) → x.cores = (v 0x72#8).cores →
      ∃ t, exec (.vldg c p f) s = .next t ∧ CoreOnly c (vset f.vd (bytesWords bs) (k 0x72#8)) x t) ∧
    (∀ bs x, ready 0x73#8 → a % 64 = 0 →
      vwrite (.core c) (coreTaskTenant s c) a (wordsBytes (vget (coreOf s c) f.va)) accWrite (v 0x73#8) = (.ok bs, x) →
      x.cores = (v 0x73#8).cores →
      ∃ t, exec (.vstg c p f) s = .next t ∧ CoreOnly c (k 0x73#8) x t))

/-! ## Row units, the tile unit and the tensor engines -/

/-- The row-unit instructions over the 64 rows of A[AD]: ARSUM and ARMAX write lanes 0 to 63 of V[VS], ARESC and ANORM rewrite
A[AD], ARDV and AWRV move two rows between A[AD] and V[VS].
ASMX, the online-softmax step: lanes 0 to 191 of V[VS] take the 64 maxima, sums and scales, the probabilities go to a
tile register (two of them for BF16) or, aligned and in bounds, to the sheaf memory, and the flags of all rows join the
engine's. -/
def Obligations.RowUnitAndOnlineSoftmax : Prop :=
  (
  ∀ (c : Nat) (p : Pre) (f : FmtT) (s : State),
    let u := teOf f
    let ready := fun o => CoreReady s c ⟨o, p, .t f⟩ ∧ predOk (coreOf s c) ⟨o, p, .t f⟩ = true
    let k := fun o => issued u ⟨o, p, .t f⟩ (coreOf s c)
    let a := aget (coreOf s c) f.ad
    let v := vget (coreOf s c) f.vs
    let z := ftzOf (engOf (coreOf s c) u)
    let sums := (List.range 64).map (fun i => sumRne z (rowOf a i))
    let maxs := (List.range 64).map (fun i => maxFold (rowOf a i))
    let scaled := (List.range 64).flatMap (fun i => (rowOf a i).map (fun x => fpMul fmtFP32 rndNear z x (lane v (128 + i))))
    let normed := (List.range 64).flatMap (fun i => (rowOf a i).map (fun x =>
      if lane v (64 + i) = 0 then (0, 0#32)
      else ((fpMul fmtFP32 rndNear z x (fpRcp z (lane v (64 + i))).1).1,
        (fpMul fmtFP32 rndNear z x (fpRcp z (lane v (64 + i))).1).2 ||| (fpRcp z (lane v (64 + i))).2)))
    let row := 128 * f.imm.toNat
    (ready 0x63#8 → ∃ t, exec (.arsum c p f) s = .next t ∧ CoreOnly c (raiseFlags u (orFlags (sums.map (·.2)))
      (vset f.vs (sums.map (fun q => BitVec.ofNat 32 q.1) ++ v.drop 64) (k 0x63#8))) s t) ∧
    (ready 0x64#8 → ∃ t, exec (.armax c p f) s = .next t ∧ CoreOnly c (raiseFlags u (orFlags (maxs.map (·.2)))
      (vset f.vs (maxs.map (fun q => BitVec.ofNat 32 q.1) ++ v.drop 64) (k 0x64#8))) s t) ∧
    (ready 0x66#8 → ∃ t, exec (.aresc c p f) s = .next t ∧ CoreOnly c (raiseFlags u (orFlags (scaled.map (·.2)))
      (aset f.ad (scaled.map (fun q => BitVec.ofNat 32 q.1)) (k 0x66#8))) s t) ∧
    (ready 0x67#8 → ∃ t, exec (.anorm c p f) s = .next t ∧ CoreOnly c (raiseFlags u (orFlags (normed.map (·.2)))
      (aset f.ad (normed.map (fun q => BitVec.ofNat 32 q.1)) (k 0x67#8))) s t) ∧
    (ready 0x94#8 → ∃ t, exec (.ardv c p f) s = .next t ∧
      CoreOnly c (vset f.vs ((a.drop row).take 256) (k 0x94#8)) s t) ∧
    (ready 0x95#8 → ∃ t, exec (.awrv c p f) s = .next t ∧
      CoreOnly c (aset f.ad (a.take row ++ v ++ a.drop (row + 256)) (k 0x95#8)) s t)) ∧
  (
  ∀ (c : Nat) (p : Pre) (f : FmtT) (s : State),
    let w : CWord := ⟨0x65#8, p, .t f⟩
    let u := teOf f
    let k := issued u w (coreOf s c)
    let g := engOf (coreOf s c) u
    let v := vget (coreOf s c) f.vs
    let pos := (sget (coreOf s c) f.sa).toNat
    let rows := (List.range 64).map (fun i =>
      smxRow (ftzOf g) (satOf g) (if f.ofmt = 6#4 then fmtBF16 else fmtE4M3) f.imm.toNat
        (fun j => f.mask == 1#3 && decide (pos % 2 ^ 32 + i < pos / 2 ^ 32 + j)) (rowOf (aget (coreOf s c) f.ad) i)
        (if f.clr then negInf32 else lane v i) (if f.clr then 0 else lane v (64 + i)))
    let lanes := rows.map (fun r => BitVec.ofNat 32 r.m) ++ rows.map (fun r => BitVec.ofNat 32 r.l)
      ++ rows.map (fun r => BitVec.ofNat 32 r.alpha) ++ v.drop 192
    let tiles := smxTiles (f.ofmt == 6#4) (rows.map (·.p))
    let a := (sget (coreOf s c) f.pt).toNat
    let k := if f.psrc then sheafPut a tiles.flatten k else tiles.zipIdx.foldl (fun k q => tset (f.pt.toNat % 8 + q.2) 0 q.1 k) k
    CoreReady s c w → predOk (coreOf s c) w = true →
    (f.psrc = true → s.inj = [] ∧ (coreOf s c).sheafErr = [] ∧ a % 64 = 0 ∧ a + tiles.flatten.length ≤ (coreOf s c).extent) →
    ∃ t, exec (.asmx c p f) s = .next t ∧ CoreOnly c (raiseFlags u (orFlags (rows.map (·.fl))) (vset f.vs lanes k)) s t)

/-- TZERO and AZERO clear a register; TLD, TLDT and ALD load one from the sheaf memory, TST and AST store
one there, AST in the format of its OFMT, in bounds, aligned to 64 bytes and with no latent error in the sheaf memory. -/
def Obligations.TileAndAccumulatorMoves : Prop :=
  ∀ (c : Nat) (p : Pre) (f : FmtT) (s : State),
    let ready := fun o => CoreReady s c ⟨o, p, .t f⟩ ∧ predOk (coreOf s c) ⟨o, p, .t f⟩ = true
    let k := fun u o => issued u ⟨o, p, .t f⟩ (coreOf s c)
    let a := (sget (coreOf s c) f.sa).toNat
    let n := f.imm.toNat
    let bytes := fun n => Mp.slice 0#8 (coreOf s c).sheaf a n
    let rows := n % 65536
    let cols := n / 65536
    let inside := fun n => s.inj = [] ∧ (coreOf s c).sheafErr = [] ∧ a % 64 = 0 ∧ a + n ≤ (coreOf s c).extent
    (ready 0x83#8 → ∃ t, exec (.tzero c p f) s = .next t ∧ CoreOnly c (tset f.td.toNat 0 (List.replicate 32768 0#8) (k 10 0x83#8)) s t) ∧
    (ready 0x91#8 → ∃ t, exec (.azero c p f) s = .next t ∧
      CoreOnly c (aset f.ad (List.replicate 8192 0#32) (k (teOf f) 0x91#8)) s t) ∧
    (ready 0x80#8 → inside n → ∃ t, exec (.tld c p f) s = .next t ∧ CoreOnly c (tset f.td.toNat 0 (bytes n) (k 10 0x80#8)) s t) ∧
    (ready 0x81#8 → inside n → ∃ t, exec (.tst c p f) s = .next t ∧
      CoreOnly c (if n = 0 then k 10 0x81#8 else sheafPut a (tget (coreOf s c) f.td.toNat n) (k 10 0x81#8)) s t) ∧
    (ready 0x82#8 → inside (rows * cols * tldtSize f.ofmt.toNat) → ∃ t, exec (.tldt c p f) s = .next t ∧
      CoreOnly c (tset f.td.toNat 0 (transposeBytes rows cols (tldtSize f.ofmt.toNat) (bytes (rows * cols * tldtSize f.ofmt.toNat)))
        (k 10 0x82#8)) s t) ∧
    (ready 0x93#8 → inside 32768 → ∃ t, exec (.ald c p f) s = .next t ∧
      CoreOnly c (aset f.ad (bytesWords (bytes 32768)) (k (teOf f) 0x93#8)) s t) ∧
    (ready 0x92#8 → f.ofmt = 15#4 → inside 32768 → ∃ t, exec (.ast c p f) s = .next t ∧
      CoreOnly c (sheafPut a (wordsBytes (aget (coreOf s c) f.ad)) (k (teOf f) 0x92#8)) s t) ∧
    (ready 0x92#8 → f.ofmt ≠ 15#4 →
      let g := engOf (coreOf s c) (teOf f)
      let el := codeElem f.ofmt.toNat
      let m := if f.ofmt = 5#4 then .rne else effMode g p.rnd
      let rs := (aget (coreOf s c) f.ad).mapIdx (fun e x =>
        if f.ofmt = 5#4 then intNarrow 8 rndNear (numOfInt (sext 32 x.toNat))
        else el.narrow (rndFor g m 0 e) (satOf g) (fmtFP32.decode x.toNat))
      inside (8192 * (el.width / 8)) → ∃ t, exec (.ast c p f) s = .next t ∧
        CoreOnly c (advanceSeq (teOf f) m 1 (raiseFlags (teOf f) (orFlags (rs.map (·.2)))
          (sheafPut a (rs.flatMap (fun q => leBytes (el.width / 8) q.1)) (k (teOf f) 0x92#8)))) s t)

/-- TMM of operands in tile registers or, aligned and in bounds, in the sheaf memory: the 64 × 128 elements of A[AD] are those of `tmmCompute` on the operands' bytes and on
A[AD] as it stood, or on zeros with CLR; stochastic rounding takes one step for each chunk. -/
def Obligations.TileMultiply : Prop :=
  ∀ (c : Nat) (p : Pre) (f : FmtT) (s : State),
    let w : CWord := ⟨0x90#8, p, .t f⟩
    let u := teOf f
    let k := issued u w (coreOf s c)
    let g := engOf (coreOf s c) u
    let pf := f.pfmt.toNat
    let qf := f.qfmt.toNat
    let kk := tmmK pf qf
    let m := if pf = 5 then .rne else effMode g p.rnd
    let c0 := if f.clr then List.replicate 8192 0#32 else aget (coreOf s c) f.ad
    let operand := fun (mem : Bool) (r : BitVec 5) n =>
      if mem then Mp.slice 0#8 (coreOf s c).sheaf (sget (coreOf s c) r).toNat n else tget (coreOf s c) (r.toNat % 8) n
    let inside := fun (mem : Bool) (r : BitVec 5) n => mem = true → s.inj = [] ∧ (coreOf s c).sheafErr = [] ∧
      (sget (coreOf s c) r).toNat % 64 = 0 ∧ (sget (coreOf s c) r).toNat + n ≤ (coreOf s c).extent
    let rs := tmmCompute g m pf qf (operand f.psrc f.pt (opBytes pf 64 kk)) (operand f.qsrc f.qt (opBytes qf 128 kk)) c0
    CoreReady s c w → predOk (coreOf s c) w = true →
    inside f.psrc f.pt (opBytes pf 64 kk) → inside f.qsrc f.qt (opBytes qf 128 kk) →
    ∃ t, exec (.tmm c p f) s = .next t ∧
      CoreOnly c (advanceSeq u m (if pf = 6 ∨ pf = 7 then kk / 8 else kk / 32)
        (raiseFlags u (orFlags (rs.map (·.2))) (aset f.ad (rs.map (fun q => BitVec.ofNat 32 q.1)) k))) s t

/-- INT8 tile multiplication is the matrix product modulo 2^32: element (i, j) of the new accumulator is the old one plus the
sum over the K = 128 products of row i of P and row j of Q, whatever chunks it is summed in. -/
def Obligations.Int8TileMultiplyIsTheMatrixProduct : Prop :=
  ∀ (g : Eng) (m : Mode) (pb qb : List Byte) (c0 : List Word32), pb.length = 64 * 128 → qb.length = 128 * 128 → c0.length = 8192 →
    ∀ i < 64, ∀ j < 128,
      let dot := ((List.range 128).map (fun n =>
        ((pb[i * 128 + n]?).getD 0#8).toInt * ((qb[j * 128 + n]?).getD 0#8).toInt)).sum
      ((tmmCompute g m 5 5 pb qb c0)[i * 128 + j]?).map (fun q => BitVec.ofNat 32 q.1) =
        some ((c0[i * 128 + j]?).getD 0#32 + BitVec.ofInt 32 dot)

/-! ## The DMA unit and engine control -/

/-- DMARD gives S[SD] the number of the core's running transfers; RACSW, WACSW, SEED and RSEQ read and write an engine's
control and status word, seed and sequence: a write of the word clears the flags it writes as one and keeps reserved bits 0.
A DMAQ whose descriptor lies aligned and in bounds, is not refused and moves at least one byte becomes a transfer of the
core, in the lowest free slot, waiting to run; its signal comes with its completion, not now. -/
def Obligations.EngineControlAndDma : Prop :=
  (
  ∀ (c : Nat) (p : Pre) (f : FmtA) (s : State),
    let n := f.eng.toNat
    let g := engOf (coreOf s c) n
    let va := sget (coreOf s c) f.sa
    let vb := sget (coreOf s c) f.sb
    ∀ x ∈ ([(.dmard c p f, 0xB1#8, 11, fun k => sset f.sd (BitVec.ofNat 64 (coreOf s c).xfers.length) k),
        (.racsw c p f, 0xC0#8, n, fun k => sset f.sd (g.acsw.setWidth 64) k),
        (.wacsw c p f, 0xC1#8, n, fun k => setEng n { g with
          acsw := (g.acsw &&& 0x003F0000#32 &&& ~~~(va.setWidth 32)) ||| (va.setWidth 32 &&& 0x17#32) } k),
        (.seed c p f, 0xC2#8, n, fun k => setEng n { g with seed := va, eseq := vb.setWidth 51 } k),
        (.rseq c p f, 0xC3#8, n, fun k => sset f.sd (g.eseq.setWidth 64) k)] : List (Instr × Byte × Nat × (Core → Core))),
    let w : CWord := ⟨x.2.1, p, .a f⟩
    CoreReady s c w → predOk (coreOf s c) w = true → (x.2.1 = 0xB1#8 → (coreOf s c).xfers.length < 16) →
    ∃ t, exec x.1 s = .next t ∧ CoreOnly c (x.2.2.2 (issued x.2.2.1 w (coreOf s c))) s t) ∧
  (
  ∀ (c : Nat) (p : Pre) (f : FmtA) (s : State), s.inj = [] → (coreOf s c).sheafErr = [] → (coreOf s c).xfers = [] →
    let w : CWord := ⟨0xB0#8, p, .a f⟩
    let a := (sget (coreOf s c) f.sa).toNat
    let d := Mp.slice 0#8 (coreOf s c).sheaf a 64
    CoreReady s c w → predOk (coreOf s c) w = true → a % 64 = 0 → a + 128 ≤ (coreOf s c).extent →
    dBlamed (nRidges s) (some (coreOf s c).extent) d = [] → 0 < dTotal d →
    ∃ t q, exec (.dmaq c p f) s = .next t ∧ CoreOnly c { takeWait p (coreOf s c) with
        pc := (coreOf s c).pc + 16#64, place := (coreOf s c).place + 1, queues := q
        xfers := [⟨0, d, a, (coreOf s c).pc.toNat, 0, 0, 0, 0, if dCvu d then dInit d else 0, 0, 0, 0, [],
          some ⟨w, (coreOf s c).pc, true, (coreOf s c).place, false, false⟩⟩] } s t ∧ q.flatMap (·.2) = [])

/-- Completion of the one instruction in hand at a unit: it leaves the unit's queue and its signal is given; the event counts
and the queue are all that changes. Units 12 to 19 are the row units of the tensor engines. -/
def Obligations.InstructionCompletes : Prop :=
  ∀ (c u : Nat) (e : QEnt) (s : State),
    let n := if 12 ≤ u then u - 12 else u
    u < 20 → (coreOf s c).queues.flatMap (·.2) = [e] → Mp.get [] (coreOf s c).queues n = [e] → e.started = true → e.done = false →
    (u < 8 → isRow e.w.op.toNat = false) → (12 ≤ u → isRow e.w.op.toNat = true) → SignalFits e.w.pre (coreOf s c) →
    ∃ t q, exec (.instructionCompletion c u) s = .next t ∧ CoreOnly c (giveSignal e.w.pre { coreOf s c with queues := q }) s t ∧
      q.flatMap (·.2) = []

/-- A word whose registers conflict with an instruction still queued, or whose event has not been signalled, waits: nothing
changes.
A core instruction on a core that runs no task, has ended its share or is stopped changes nothing (log entry 41).
A word that breaks a legality rule, here a reserved bit or an undefined lane type, ends the task with ILLEGAL_INSTRUCTION. -/
def Obligations.CoresHoldAndStop : Prop :=
  (
  ∀ (c : Nat) (p : Pre) (f : FmtA) (s : State), canIssue s c = true → (coreOf s c).sem = none →
    ∀ x ∈ ([(.add c p f, 0x10#8), (.sub c p f, 0x11#8), (.mul c p f, 0x12#8), (.sld c p f, 0x20#8), (.sst c p f, 0x21#8),
        (.jnz c p f, 0x03#8), (.loop c p f, 0x05#8), (.ret c p f, 0x07#8)] : List (Instr × Byte)),
    let w := wordA x.2 p f
    legal w = true →
    (predOk (coreOf s c) w = true ∧ (∃ e ∈ allEnts (coreOf s c), setsConflict (entSet e) (rwSet w) = true)) ∨
      (p.wv = true ∧ (coreOf s c).waited = false ∧ evGet (coreOf s c) p.we.toNat = 0) →
    exec x.1 s = .next s) ∧
  (
  ∀ (c : Nat) (p : Pre) (a : FmtA) (v : FmtV) (t : FmtT) (s : State), canIssue s c = false →
    exec (.add c p a) s = .next s ∧ exec (.sstg c p a) s = .next s ∧ exec (.trap c p a) s = .next s ∧
    exec (.vadd c p v) s = .next s ∧ exec (.vstg c p v) s = .next s ∧ exec (.tmm c p t) s = .next s ∧ exec (.dmaq c p a) s = .next s) ∧
  (
  ∀ (c h t rank : Nat) (p : Pre) (a : FmtA) (v : FmtV) (s : State) (x : Task), (coreOf s c).task = some (h, t, rank) →
    taskOf s h t = some x → x.st ≠ tsFinal → x.endStatus = none → canIssue s c = true → (coreOf s c).sem = none →
    ((a.rsv ≠ 0#6 ∨ p.rnd ≠ 0#2 ∨ (p.ps = 0#5 ∧ p.pn = true)) →
      ∃ u y, exec (.add c p a) s = .next u ∧ taskOf u h t = some y ∧
        y.endStatus = some (stIllegal, rankPc rank (coreOf s c).pc.toNat)) ∧
    ((v.rsv ≠ 0#10 ∨ 2 < v.ty.toNat) →
      ∃ u y, exec (.vadd c p v) s = .next u ∧ taskOf u h t = some y ∧
        y.endStatus = some (stIllegal, rankPc rank (coreOf s c).pc.toNat)))

/-! ## Commands of the management interface

In each statement `u` is the state once the command has left the list of accepted ones, `ps` its parameter block and `tn` its
acting tenant. -/

/-- The commands that report: IDENTIFY, TENANT_INFO, CAIRN_RECORD, CAIRN_STATUS, APPORTION, CAL_STATUS, POWER_READ,
ROLLBACK_READ, CERT_READ, ATTEST and LOG_READ. Each answers with its data and, but for the log's drawing a free value, changes
nothing else.
REG_READ and REG_WRITE: aligned runs of 32-bit words of the device control space, in order. -/
def Obligations.ReportingAndRegisterCommands : Prop :=
  (
  ∀ (h : Cmd) (s : State) (i : Inflight),
    let u := taken i s
    let ps := paramBytes h i
    let tn := actingFor h i s
    (CmdReady h 0x100 false identifyFields identifyBad s i →
      exec (.identify h) s = .next (answered i 0x100 0 (fit 256 (leFields [(4, (regVal u rMGT_DEVICE_ID).toNat),
        (4, (regVal u rMGT_TOPOLOGY).toNat), (4, (regVal u rFLK_MODULE_ID).toNat), (4, issuerOf u h.path),
        (8, Config.free 49 0), (8, Config.free 49 1), (8, Config.free 49 2)])) u)) ∧
    (CmdReady h 0x101 false tenantInfoFields tenantInfoBad s i →
      exec (.tenantInfo h) s = .next (answered i 0x101 0 (leFields ([(24, coresOf u tn), (16, portsOf u tn)]
        ++ (List.range 4).map (fun n => (2, granulesOf u n tn)) ++ [(4, (regVal u (rTSC_SHARE_A tn)).toNat),
          (4, (regVal u (rTSC_SHARE_B tn)).toNat), (4, tasksInUse u (some tn)), (4, edgesInUse u (some tn))])) u)) ∧
    (∀ r, CmdReady h 0xA00 false cairnRecordFields cairnRecordBad s i → Mp.find s.crn.store (leAt ps 0 8) = some r →
      exec (.cairnRecord h) s = .next (answered i 0xA00 0 r u)) ∧
    (CmdReady h 0xA01 false cairnStatusFields cairnStatusBad s i →
      exec (.cairnStatus h) s = .next (answered i 0xA01 0
        (leFields [(4, s.crn.tamper), (4, s.crn.param), (4, s.crn.pwrfail), (4, s.crn.overwrite)]) u)) ∧
    (CmdReady h 0xA02 false apportionFields apportionBad s i →
      exec (.apportion h) s = .next (answered i 0xA02 0
        (((((s.crn.entries.filter (fun e => e.1 == tn)).map (·.2)).dropWhile (fun b => decide (leAt b 8 8 < leAt ps 0 8))).take
          (min (leAt ps 8 4) (eDataLen h.entry / 64))).flatten) u)) ∧
    (CmdReady h 0x701 false calStatusFields (calStatusBad s) s i →
      exec (.calStatus h) s = .next (answered i 0x701 (calList (leAt ps 0 1)).length
        ((calList (leAt ps 0 1)).flatMap (fun p =>
          let c := Mp.get {} s.cals (calKey (leAt ps 0 1) p.1 p.2)
          leFields [(1, p.1), (1, c.result), (2, p.2), (4, c.count), (8, c.tLast)])) u)) ∧
    (CmdReady h 0x603 false powerReadFields powerReadBad s i →
      exec (.powerRead h) s = .next (answered i 0x603 0 (telemetry u) u)) ∧
    (CmdReady h 0x804 false rollbackFields rollbackBad s i →
      exec (.rollbackRead h) s = .next (answered i 0x804 0 (leFields (s.fuses.rbc.map (fun r => (1, r))
        ++ (List.range 4).map (fun k => (1, svnOf (bankOf u k (activeBank u k)))))) u)) ∧
    (CmdReady h 0x801 false certFields certBad s i →
      exec (.certRead h) s = .next (answered i 0x801 0
        (if leAt ps 0 1 = 1 then aliasCert u else fit certSize (Config.certificate (leAt ps 0 1))) u)) ∧
    (CmdReady h 0x800 false attestFields attestBad s i →
      exec (.attest h) s = .next (answered i 0x800 0
        (reportBody tn (ps.take 32) u ++ signed cxAtt (aliasSeed u) (reportBody tn (ps.take 32) u)) u)) ∧
    (CmdReady h 0xF03 true logFields logBad s i →
      exec (.logRead h) s = .next (answered i 0xF03 0 (leBytes (eDataLen h.entry) (freeVal 48 s)) { u with freeCtr := s.freeCtr + 1 }))) ∧
  (
  ∀ (h : Cmd) (s : State) (i : Inflight),
    let u := taken i s
    let ps := paramBytes h i
    let a := leAt ps 0 4
    let n := leAt ps 4 4
    (CmdReady h 0x102 true regReadFields regReadBad s i →
      exec (.regRead h) s = .next (answered i 0x102 ((readWords n a u).1.headD 0) ((readWords n a u).1.flatMap (leBytes 4))
        (readWords n a u).2) ∧ (readWords n a u).1.length = n ∧ (readWords n a u).1.headD 0 = (devRead a u).1) ∧
    (CmdReady h 0x103 true regWriteFields (regWriteBad h) s i →
      exec (.regWrite h) s = .next (answered i 0x103 n []
        ((List.range n).foldl (fun v j => devWrite (a + 4 * j)
          (BitVec.ofNat 32 (leAt (if 8 < eParamLen h.entry then ps.drop 8 else dataIn h) (4 * j) 4)) v) u))))

/-- QP_CREATE, QP_DELETE and QP_ASSIGN: whose queue pair they take, when it must be created or not, and what it holds after.
MODULE_ID, ROUTE_SET, ACCEPT_SET, GROUP_DEFINE and REMOTE. -/
def Obligations.QueuePairAndFabricTableCommands : Prop :=
  (
  ∀ (h : Cmd) (s : State) (i : Inflight),
    let u := taken i s
    let ps := paramBytes h i
    (∀ q, CmdReady h 0x110 false qpCreateFields (qpCreateBad h s) s i → qpLocal s (issuerOf s h.path) (leAt ps 0 1) = some q →
      (qpOf s q).created = false →
      exec (.qpCreate h) s = .next (answered i 0x110 0 []
        (setQp q { qpOf s q with
          created := true, error := false, cmdBase := leAt ps 8 8, rplBase := leAt ps 16 8
          log2 := if 4 ≤ leAt ps 1 1 ∧ leAt ps 1 1 ≤ 12 then leAt ps 1 1 else 4
          vector := leAt ps 2 1, modc := leAt ps 3 1, tail := 0, fetched := 0, head := 0, replies := 0, unsig := 0 } u))) ∧
    (∀ q, CmdReady h 0x111 false qpDeleteFields (qpDeleteBad h s) s i → qpLocal s (issuerOf s h.path) (leAt ps 0 1) = some q →
      (qpOf s q).created = true →
      exec (.qpDelete h) s = .next (answered i 0x111 0 [] (qpDrop q u)) ∧ (qpOf (qpDrop q u) q).created = false ∧
        ∀ p, p ≠ q → qpOf (qpDrop q u) p = qpOf s p) ∧
    (CmdReady h 0x112 true qpAssignFields qpAssignBad s i → (qpOf s (leAt ps 0 1)).created = false →
      (leAt ps 1 1 ≠ 0 → ∀ p, qpLocal s (leAt ps 1 1) (leAt ps 2 1) = some p → p = leAt ps 0 1) →
      exec (.qpAssign h) s = .next (answered i 0x112 0 []
        (setQp (leAt ps 0 1) { qpOf s (leAt ps 0 1) with
          owner := leAt ps 1 1, idx := if leAt ps 1 1 = 0 then 0 else leAt ps 2 1 } u)))) ∧
  (
  ∀ (h : Cmd) (s : State) (i : Inflight),
    let u := taken i s
    let ps := paramBytes h i
    let tn := actingFor h i s
    (CmdReady h 0x500 true moduleIdFields moduleIdBad s i → fget s rFLK_MODULE_ID fFLK_MODULE_ID_VALID = 0 →
      exec (.moduleId h) s = .next (answered i 0x500 0 []
        (fset rFLK_MODULE_ID fFLK_MODULE_ID_VALID 1 (fset rFLK_MODULE_ID fFLK_MODULE_ID_ID (leAt ps 0 2) u)))) ∧
    (CmdReady h 0x501 true routeSetFields (routeSetBad h) s i →
      exec (.routeSet h) s = .next (answered i 0x501 0 []
        ((servingDies u).foldl (fun v n => (List.range (leAt ps 2 2)).foldl (fun v j =>
          regPut (rFLK_ROUTE n (leAt ps 0 2 + j)) (BitVec.ofNat 64 (routeEntry (leAt (dataIn h) (4 * j) 4))) v) v) u))) ∧
    (CmdReady h 0x502 true acceptSetFields acceptSetBad s i →
      exec (.acceptSet h) s = .next (answered i 0x502 0 []
        ((servingDies u).foldl (fun v n => regPut (rFLK_ACCEPT n tn)
          (BitVec.ofNat 64 (leAt ps 0 1 * 2 ^ 31 + leAt ps 4 2 * 2 ^ 14 + leAt ps 2 2)) v) u))) ∧
    (CmdReady h 0x503 false groupDefineFields (groupDefineBad h) s i →
      (issuerOf u h.path ≠ 0 → issuerOf u h.path = leAt ps 16 1 ∧ leAt ps 1 1 ≠ 1 ∧
        ∀ g, Mp.find s.groups (leAt ps 0 1) = some g → g.owner = issuerOf u h.path) →
      let ml := memberList (leAt ps 1 1) (leAt ps 4 4) (dataIn h)
      let v := endGroupRuns (leAt ps 0 1) u
      exec (.groupDefine h) s = .next (flushWaits (answered i 0x503 0 []
        { v with groups := Mp.ins v.groups (leAt ps 0 1) ⟨leAt ps 8 8, leAt ps 16 1, ml.1, ml.2, [], []⟩ }))) ∧
    (∀ q, CmdReady h 0x50C false remoteFields (remoteBad h) s i → dieOk s 16 = true → colAttach s = true → tagFree u 0 .melhal tn = true →
      let e := (ps.drop 8).take 64
      let d := e ++ fit (eDataLen e) h.dataIn
      let pkt : Pkt := ⟨8, if tn = 0 then 7 else 6, 0, tn, 0, 0, leAt ps 0 2, moduleId u, d.length, 0, 0, 0, [], d⟩
      let te := takeTag 0 ⟨0, 0, .melhal, tn, .request 0, 0, 0, false, 0, [], some (leAt ps 0 2), some q, false⟩ u
      routeOf u 0 pkt = .port q →
      exec (.remote h) s = .next (keptWaiting h i 0x50C [te.1.tag, te.1.reqId] 0 0 0 s
        (enqueuePkt q { pkt with tag := te.1.tag, reqId := te.1.reqId } te.2))))

/-- MEM_READ and MEM_WRITE through the acting tenant's address space, and MAP, UNMAP, PROTECT and ASPACE, which change it.
GRANULE_ATTR, RC_WAYS, RC_FLUSH, DMA_LIMIT, ROW_REPAIR and STACK_REJOIN on a ridge that is not fenced. -/
def Obligations.AddressSpaceAndRidgeCommands : Prop :=
  (
  ∀ (h : Cmd) (s : State) (i : Inflight),
    let u := taken i s
    let ps := paramBytes h i
    let tn := actingFor h i s
    let va := leAt ps 0 8
    let size := pageSize (leAt ps 16 1)
    let n := leAt ps 20 4
    let changed := fun (op : Nat → PageOp) (olds : List Nat) (v : State) =>
      fget s (rMMU_ROOT tn) fMMU_ROOT_EN = 1 ∧ colAttach s = true ∧ (pagesOp tn size op n va [] u).1 = .ok olds v ∧ pagesBusy u tn size olds = false
    (∀ bs v, CmdReady h 0x400 false memReadFields memReadBad s i → dieOk s 16 = true →
      vread .melhal tn va (leAt ps 8 4) accRead u = (.ok bs, v) →
      exec (.memRead h) s = .next (answered i 0x400 0 bs v)) ∧
    (∀ bs v, CmdReady h 0x401 false memWriteFields (memWriteBad h) s i → dieOk s 16 = true →
      vwrite .melhal tn va ((dataIn h).take (leAt ps 8 4)) accWrite u = (.ok bs, v) →
      exec (.memWrite h) s = .next (answered i 0x401 0 [] v)) ∧
    (∀ olds v, CmdReady h 0x403 false mapFields (mapBad s) s i →
      granulesAll (leAt ps 8 8) (n * size) (fun g => paBound u tn g && !holdsTables u g) = true →
      changed (fun w => .map (leAt ps 8 8 + (w - va) + leAt ps 17 1 * 4 + 3)) olds v →
      exec (.map h) s = .next (answered i 0x403 0 [] (dropVa tn va (n * size) v))) ∧
    (∀ olds v, CmdReady h 0x404 false unmapFields unmapBad s i → changed (fun _ => .unmap) olds v →
      exec (.unmap h) s = .next (answered i 0x404 0 [] (dropVa tn va (n * size) v))) ∧
    (∀ olds v, CmdReady h 0x405 false protectFields protectBad s i → changed (fun _ => .protect (leAt ps 17 1)) olds v →
      exec (.protect h) s = .next (answered i 0x405 0 [] (dropVa tn va (n * size) v))) ∧
    (CmdReady h 0x402 true aspaceFields (aspaceBad s) s i → leAt ps 0 1 % 2 = 0 →
      exec (.aspace h) s = .next (answered i 0x402 0 [] (dropVa tn 0 (2 ^ 64) (setArea tn {} (fset (rMMU_ROOT tn) fMMU_ROOT_EN 0 u))))) ∧
    (∀ v, CmdReady h 0x402 true aspaceFields (aspaceBad s) s i → leAt ps 0 1 % 2 = 1 →
      (bitOf (leAt ps 0 1) 1 = true → colAttach s = true) →
      (if bitOf (leAt ps 0 1) 1 then writeTable (leAt ps 8 8) (List.replicate 4096 0#8) u else (none, u)) = (none, v) →
      let used := (tablesBelow v 4 0 (leAt ps 8 8)).filter
        (fun x => decide (leAt ps 16 8 ≤ x.1 ∧ x.1 + x.2 ≤ leAt ps 16 8 + leAt ps 24 4 * 65536))
      exec (.aspace h) s = .next (answered i 0x402 0 [] (dropVa tn 0 (2 ^ 64) (setArea tn ⟨leAt ps 16 8, leAt ps 24 4, used⟩
        (fset (rMMU_ROOT tn) fMMU_ROOT_EN 1 (fset (rMMU_ROOT tn) fMMU_ROOT_ROOT (leAt ps 8 8 / 4096) v))))))) ∧
  (
  ∀ (h : Cmd) (s : State) (i : Inflight),
    let u := taken i s
    let ps := paramBytes h i
    let tn := actingFor h i s
    let n := leAt ps 0 1
    (CmdReady h 0x406 false granuleAttrFields (granuleAttrBad s) s i → dieOk s (16 + n) = true →
      (issuerOf u h.path ≠ 0 → ∀ j < leAt ps 6 2, granBound u n (j + leAt ps 4 2) (issuerOf u h.path) = true) →
      exec (.granuleAttr h) s = .next (answered i 0x406 0 []
        (((List.range (leAt ps 6 2)).map (· + leAt ps 4 2)).foldl (fun v g =>
          let v := fset (rMEM_GATTR n g) fMEM_GATTR_POLICY (leAt ps 1 1) (fset (rMEM_GATTR n g) fMEM_GATTR_BORROW (leAt ps 2 1) v)
          if leAt ps 2 1 = 0 then dropBorrowed none (n * 2 ^ 39 + g * 2 ^ 30) (2 ^ 30) v else v) u))) ∧
    (CmdReady h 0x407 true rcWaysFields (rcWaysBad s) s i →
      (∀ r ∈ (List.range 4).filter (bitOf n), dieOk s (16 + r) = true) →
      exec (.rcWays h) s = .next (answered i 0x407 0 []
        (((List.range 4).filter (bitOf n)).foldl (fun v r => fset (rMEM_RC_WAYS r tn) fMEM_RC_WAYS_WAYMASK (leAt ps 2 2) v) u))) ∧
    (CmdReady h 0x408 true rcFlushFields (rcFlushBad s) s i → dieOk s (16 + n) = true →
      let whole := leAt ps 2 1 = 1
      let remove := leAt ps 1 1 = 1
      let pa := if whole then n * 2 ^ 39 else leAt ps 8 8
      let len := if whole then 0x6000000000 else leAt ps 16 8
      ∀ v, flushRange n pa len u = (none, v) →
      exec (.rcFlush h) s = .next (answered i 0x408 0 []
        (let w := if remove ∧ len ≠ 0 then removeClean n pa len v else v
         if remove ∧ whole then dropBorrowed (some n) 0 (2 ^ 41) w else w))) ∧
    (CmdReady h 0x409 true dmaLimitFields (dmaLimitBad s) s i → dieOk s (16 + n) = true →
      exec (.dmaLimit h) s = .next (answered i 0x409 0 [] (fset (rDMA_TENANT_TAGS n tn) fDMA_TENANT_TAGS_LIMIT (leAt ps 4 2) u))) ∧
    (CmdReady h 0x40A true rowRepairFields (rowRepairBad s) s i →
      let pa := leAt ps 0 8
      let r := paRidge pa
      let k := (stackOf u pa).1
      let left := fget s (rMEM_STACK_STATUS r k) fMEM_STACK_STATUS_SPARE_LEFT
      dieOk s (16 + r) = true → stackState s r k ≠ 4 → stackState s r k ≠ 5 → left ≠ 0 →
      let v := (rowCodewords u pa).foldl (fun v q => copyCodeword q v) u
      exec (.rowRepair h) s = .next (answered i 0x40A (left - 1) []
        (fset (rMEM_STACK_STATUS r k) fMEM_STACK_STATUS_SPARE_LEFT (left - 1)
          { v with fuses := { v.fuses with repaired := Mp.upd [] v.fuses.repaired (6 * r + k) (pa / 64 :: ·) } }))) ∧
    (CmdReady h 0x40B true stackRejoinFields (stackRejoinBad s) s i → dieOk s (16 + n / 6) = true → stackState s (n / 6) (n % 6) = 5 →
      s.caches = [] →
      exec (.stackRejoin h) s = .next (answered i 0x40B 0 []
        (fset (rMEM_STACK_STATUS (n / 6) (n % 6)) fMEM_STACK_STATUS_STATE 2
          (fsetBit (rMEM_RIDGE_CFG (n / 6)) fMEM_RIDGE_CFG_STACK_UP (n % 6) true
            { u with mem := u.mem.filter (fun p => stackUnit u p.1 != 32 + n)
                     cwErr := u.cwErr.filter (fun p => stackUnit u (64 * p.1) != 32 + n) })))))

/-- BIND_CORES, BIND_MEMORY, BIND_PORTS, SET_SHARE and SCHED_POLICY. -/
def Obligations.BindingCommands : Prop :=
  ∀ (h : Cmd) (s : State) (i : Inflight),
    let u := taken i s
    let ps := paramBytes h i
    let tgt := bindTarget (leAt ps 0 1)
    let free := factoryBars u (leAt ps 0 1) = false
    (CmdReady h 0x200 true bindCoresFields (bindCoresBad s) s i →
      let cs := bitsOf ((ps.drop 8).take 24) 192
      coreFenced u cs = none → free → cs.any (heldDie u) = false → bindRoom u cs.length = true → cs ≠ [] →
      exec (.bindCores h) s = .next (flushWaits (flushBinds (keptWaiting h i 0x200 cs (leAt ps 0 1) (leAt ps 1 1) 0 s u)))) ∧
    (CmdReady h 0x201 true bindMemoryFields (bindMemoryBad s) s i →
      let n := leAt ps 3 1
      let keep := leAt ps 2 1 = 1
      let gs := (List.range (leAt ps 6 2)).map (· + leAt ps 4 2)
      let ch := gs.filter (fun g => granTarget u n g != tgt)
      dieOk s (16 + n) = true → free → (keep → tgt.isSome = true ∧ ∀ g ∈ gs, granLast u n g = tgt) → bindRoom u ch.length = true →
      ch ≠ [] →
      exec (.bindMemory h) s = .next (keptWaiting h i 0x201 (ch.map (granKey n)) 0 0 0 s
        (ch.foldl (fun v g => setGran (granKey n g)
          { granOf v (granKey n g) with pend := (granOf v (granKey n g)).pend ++ [⟨tgt, keep⟩] } v) u))) ∧
    (CmdReady h 0x202 true bindPortsFields (bindPortsBad s) s i →
      let all := bitsOf ((ps.drop 8).take 16) 128
      let ch := all.filter (fun p => portTenant u p != tgt)
      (∀ p ∈ all, dieOk s (16 + pN p) = true) → free → bindRoom u ch.length = true →
      let v := ch.foldl (fun v p => bindPort p tgt v) u
      exec (.bindPorts h) s = .next (replied i 0x202 0 ch.length []
        ((ch.map (fun p => (Mp.get {} v.portBind p).tBind)).foldl max (colNow v)) v)) ∧
    (CmdReady h 0x203 true setShareFields setShareBad s i →
      let t := leAt ps 0 1
      let ts := if s.fuses.a12 then 16384 else 8192
      otherShares u t rTSC_SHARE_A fTSC_SHARE_A_TASK_SHARE + leAt ps 4 4 ≤ ts →
      otherShares u t rTSC_SHARE_A fTSC_SHARE_A_EDGE_SHARE + leAt ps 8 4 ≤ 4 * ts →
      otherShares u t rTSC_SHARE_B fTSC_SHARE_B_HANDLES + leAt ps 12 2 ≤ 1023 →
      exec (.setShare h) s = .next (answered i 0x203 0 []
        (fset (rTSC_SHARE_B t) fTSC_SHARE_B_HANDLES (leAt ps 12 2) (fset (rTSC_SHARE_B t) fTSC_SHARE_B_RINGS (leAt ps 14 1)
          (fset (rTSC_SHARE_A t) fTSC_SHARE_A_TASK_SHARE (leAt ps 4 4)
            (fset (rTSC_SHARE_A t) fTSC_SHARE_A_EDGE_SHARE (leAt ps 8 4) u)))))) ∧
    (CmdReady h 0x204 true schedPolicyFields schedPolicyBad s i →
      exec (.schedPolicy h) s = .next (answered i 0x204 0 []
        (fset (rTSC_SHARE_B (leAt ps 0 1)) fTSC_SHARE_B_PRIO_PREEMPT (leAt ps 1 1)
          (fset (rTSC_SHARE_B (leAt ps 0 1)) fTSC_SHARE_B_BACKFILL_LIMIT (leAt ps 2 2) u))))

/-- The commands on graphs and tasks. -/
def Obligations.GraphCommands : Prop :=
  ∀ (h : Cmd) (s : State) (i : Inflight),
    let u := taken i s
    let ps := paramBytes h i
    let tn := actingFor h i s
    let gh := leAt ps 2 2
    let ti := leAt ps 4 2
    (CmdReady h 0x300 false graphSubmitFields graphSubmitBad s i → ∀ hd v,
      vread .admission tn (leAt ps 0 8) 64 accRead u = (.ok hd, v) → headerRefused v tn hd = false →
      ghCount hd ≤ fget v (rTSC_SHARE_A tn) fTSC_SHARE_A_TASK_SHARE → ghEdges hd ≤ fget v (rTSC_SHARE_A tn) fTSC_SHARE_A_EDGE_SHARE →
      fget v (rTSC_SHARE_B tn) fTSC_SHARE_B_HANDLES ≠ 0 → admissionQueue v tn = [] → onRoute s 0 = true →
      (∀ n w, admitGraph tn hd v = .admitted n w → exec (.graphSubmit h) s = .next (answered i 0x300 n [] w)) ∧
      (admitGraph tn hd v = .room → bitOf (leAt hd 4 4) 0 = false →
        exec (.graphSubmit h) s = .next (keptWaiting h i 0x300 (toKeys hd) 0 0 0 s v))) ∧
    (∀ g, CmdReady h 0x301 false graphStartFields graphStartBad s i → graphFor u tn (leAt ps 0 2) = some g → g.startHeld = true →
      exec (.graphStart h) s = .next (answered i 0x301 0 [] (settle (setGraph (leAt ps 0 2) { g with startHeld := false } u)))) ∧
    (∀ g, CmdReady h 0x302 false graphReleaseFields graphReleaseBad s i → graphFor u tn (leAt ps 0 2) = some g → g.retired = true →
      exec (.graphRelease h) s = .next (answered i 0x302 0 []
        (forgetGraph (leAt ps 0 2) (setGraph (leAt ps 0 2) { g with held := false } u)))) ∧
    (∀ g, CmdReady h 0x303 false abortFields abortBad s i →
      let all := (s.graphs.filter (fun p => p.2.tenant == tn)).flatMap (fun p => openTasks p.1 p.2)
      (leAt ps 0 1 = 2 → all ≠ [] → exec (.abort h) s = .next (keptWaiting h i 0x303 all 2 0 0 s u)) ∧
      (graphFor u tn gh = some g →
      (leAt ps 0 1 = 0 → ti < g.tasks.length → exec (.abort h) s = .next (keptWaiting h i 0x303 [taskKey gh ti] 0 0 0 s u)) ∧
      (leAt ps 0 1 = 1 → openTasks gh g ≠ [] →
        exec (.abort h) s = .next (keptWaiting h i 0x303 (openTasks gh g) 1 0 0 s u)))) ∧
    (∀ g k, graphFor u tn gh = some g → g.tasks[ti]? = some k →
      (CmdReady h 0x304 false preemptFields preemptBad s i → k.kind = 0 → k.st = tsRunning ∨ k.st = tsPreempting →
        exec (.preempt h) s = .next (keptWaiting h i 0x304 [gh, ti] 0 0 (homeStamp u gh ti) s (preemptTask gh ti 0 u))) ∧
      (CmdReady h 0x305 false taskRestartFields taskRestartBad s i → k.st = tsHeld →
        exec (.taskRestart h) s = .next (answered i 0x305 0 [] (settle (updTask gh ti (fun k => { k with
          st := tsPending, status := 0, detail := 0, tReady := 0, tStart := 0, causes := 0, cores := [], endedRanks := []
          endStatus := none, faults := [], savedRanks := [], waitedRanks := [], imaged := false, bfStop := false, xfer := none
          near := none, coll := none, flags := 0 }) u)))) ∧
      (CmdReady h 0x306 false gateReleaseFields gateReleaseBad s i → k.kind = 5 → k.st ≠ tsFinal →
        exec (.gateRelease h) s = .next (answered i 0x306 0 [] (settle (updTask gh ti (fun k => { k with gate := true }) u)))) ∧
      (CmdReady h 0x901 false faultResumeFields faultResumeBad s i → k.st = tsFaultWait →
        exec (.faultResume h) s = .next (answered i 0x901 0 [] (updTask gh ti (fun k => { k with
          st := if k.kind = 0 then tsPreempted else tsReady, faults := [] }) u))) ∧
      (CmdReady h 0x902 false faultEndFields faultEndBad s i → k.st = tsFaultWait →
        exec (.faultEnd h) s = .next (flushWaits (answered i 0x902 0 [] (forgetGraph gh (settle
          (makeFinal gh ti stMemoryFault (earliestFault k.faults) (homeStamp u gh ti) (endUnit gh ti stMemoryFault u))))))))

/-- RING_CREATE, FAULT_RING, TRACE_RING, RING_DELETE and RING_POP. -/
def Obligations.RingCommands : Prop :=
  ∀ (h : Cmd) (s : State) (i : Inflight),
    let u := taken i s
    let ps := paramBytes h i
    let tn := actingFor h i s
    let key := tn * 16 + leAt ps 0 1
    let ring := fun t mask => newRing t (leAt ps 1 1) (leAt ps 2 1) (leAt ps 4 4) (leAt ps 8 8) (leAt ps 16 8) mask
    (CmdReady h 0x307 false ringCreateFields ringCreateBad s i → Mp.find s.cRings key = none →
      (s.cRings.filter (fun p => p.1 / 16 == tn)).length < fget s (rTSC_SHARE_B tn) fTSC_SHARE_B_RINGS →
      exec (.ringCreate h) s = .next (answered i 0x307 0 [] (setRing (.completion key) (ring tn 0) u))) ∧
    (CmdReady h 0x900 false faultRingFields faultRingBad s i → Mp.find s.fRings tn = none →
      exec (.faultRing h) s = .next (answered i 0x900 0 [] (setRing (.fault tn) (ring tn 0) u))) ∧
    (CmdReady h 0xB00 true traceRingFields traceRingBad s i → Mp.find s.tRings (leAt ps 0 1) = none →
      exec (.traceRing h) s = .next (answered i 0xB00 0 [] (setRing (.trace (leAt ps 0 1)) (ring 0 (leAt ps 24 4)) u))) ∧
    (CmdReady h 0x308 false ringDeleteFields ringDeleteBad s i → (Mp.find s.cRings key).isSome = true →
      (∀ p ∈ s.graphs, p.2.tenant = tn → p.2.ring ≠ leAt ps 0 1) →
      exec (.ringDelete h) s = .next (answered i 0x308 0 [] { u with cRings := Mp.del s.cRings key })) ∧
    (CmdReady h 0x309 false ringPopFields ringPopBad s i → (leAt ps 0 1 = 2 → issuerOf u h.path = 0) → ∀ x bs v b w,
      let r : RingRef := if leAt ps 0 1 = 0 then .completion (tn * 16 + leAt ps 1 1)
        else if leAt ps 0 1 = 1 then .fault tn else .trace (leAt ps 1 1)
      getRing (ringReread r u) r = some x →
      let n := min (x.tail - x.head) (min (leAt ps 4 4) (eDataLen h.entry / ringRecSize r))
      popRead x.tenant r x n x.head (ringReread r u) = (.ok bs, v) →
      vwrite .melhal x.tenant ((x.ctrl + 8) % 2 ^ 64) (leBytes 8 (x.head + n)) accWrite v = (.ok b, w) →
      exec (.ringPop h) s = .next (answered i 0x309 n bs (setRing r { x with head := x.head + n } w)))

/-- The commands on ports, lasers and wavelengths, where the dies of the port or site are not fenced. -/
def Obligations.PortCommands : Prop :=
  ∀ (h : Cmd) (s : State) (i : Inflight),
    let u := taken i s
    let ps := paramBytes h i
    let p := leAt ps 0 1
    let up := dieOk s (16 + pN p) = true ∧ dieOk s (80 + pK p) = true
    (CmdReady h 0x504 true vcWeightFields (vcWeightBad s) s i → up →
      exec (.vcWeight h) s = .next (answered i 0x504 0 []
        (updPort p (fun x => { x with weights := (List.range 7).map (fun j => leAt ps (1 + j) 1), turns := [] }) u))) ∧
    (CmdReady h 0x505 true portDownFields (portDownBad s) s i → up →
      exec (.portDown h) s = .next (answered i 0x505 0 [] (portDrop p u))) ∧
    (CmdReady h 0x506 true portFlushFields (portFlushBad s) s i → up →
      exec (.portFlush h) s = .next (flushWaits (answered i 0x506 0 [] (flushPort p u)))) ∧
    (CmdReady h 0x507 true portModeFields (portModeBad s) s i → up →
      let v := fset (lineReg (pK p) (pP p)) fPRG_PORT_STATUS_PAM4 (leAt ps 1 1)
        (fset (rFLK_PORT_STATUS (pN p) (pQ p)) fFLK_PORT_STATUS_PAM4 (leAt ps 1 1) u)
      exec (.portMode h) s = .next (answered i 0x507 0 [] (if ownPam4 u p = (leAt ps 1 1 == 1) then u
        else if portState u p = 3 ∨ portState u p = 2 then portTrain p v else v))) ∧
    (CmdReady h 0x508 true portTestFields (portTestBad s) s i → up →
      (leAt ps 1 1 = 1 → portState u p = 3 ∧ (portTenant u p = none ∨ portTenant u p = some 0)) →
      (leAt ps 1 1 = 0 → portState u p = 5) →
      exec (.portTest h) s = .next (answered i 0x508 0 []
        (sendLink p 7 [(1, leAt ps 1 1)] (updPort p (fun x => { x with asked := x.asked ++ [⟨7, leAt ps 1 1, 0, 0⟩] }) u)))) ∧
    (CmdReady h 0x509 true laserSwitchFields (laserSwitchBad s) s i → dieOk s (16 + p / 4) = true → dieOk s (80 + p) = true →
      siteState u p = 3 → spareState u p < 4 →
      exec (.laserSwitch h) s = .next (keptWaiting h i 0x509 [p] 0 0 0 s
        (if spareState u p = 3 then askSwitch p u else startSpare p u))) ∧
    (CmdReady h 0x50A true wlSubstFields (wlSubstBad s) s i → up → spareFree u p (leAt ps 2 1) = true →
      streamSpare u p (leAt ps 1 1) = none →
      exec (.wlSubst h) s = .next (answered i 0x50A 0 [] (askChange p 4 (leAt ps 1 1) (leAt ps 2 1) u))) ∧
    (CmdReady h 0x50B true wlRestoreFields (wlRestoreBad s) s i → up →
      exec (.wlRestore h) s = .next (answered i 0x50B 0 []
        (if (streamSpare u p (leAt ps 1 1)).isSome then askChange p 4 (leAt ps 1 1) 0xFF u else u)))

/-- The commands on the profile, the thermal mode, the Crest, fault reporting, fences, calibration, firmware and factory test
mode. -/
def Obligations.ModuleCommands : Prop :=
  ∀ (h : Cmd) (s : State) (i : Inflight),
    let u := taken i s
    let ps := paramBytes h i
    let b := leAt ps 0 1
    (CmdReady h 0x600 true profileFields profileBad s i → exec (.profileSet h) s = .next (answered i 0x600 0 [] (setProfile b u))) ∧
    (CmdReady h 0x601 true overrideFields (overrideBad s) s i →
      exec (.override h) s = .next (answered i 0x601 0 [] (setOverride b (leAt ps 1 1) (leAt ps 4 4) u))) ∧
    (CmdReady h 0x602 true thermalFields thermalBad s i →
      exec (.thermalMode h) s = .next (answered i 0x602 0 [] { u with pwr := { s.pwr with stacked := b == 1 } })) ∧
    (CmdReady h 0xB01 true timeSetFields (timeSetBad s) s i → ∃ v, exec (.timeSet h) s = .next (answered i 0xB01 0 [] v) ∧
      v = { u with crest := v.crest } ∧ (Mp.get 0 s.skew 64 = 0 → colNow v = leAt ps 0 8)) ∧
    (CmdReady h 0xB02 true timeStepFields (timeStepBad s) s i → anyResident u = false → tenantHolds u = false →
      let t := leAt ps 0 8
      let v := trace 0 64 7 0xFF t (leBytes 8 (colNow u)) { setCrest t u with lastAccept := min s.lastAccept t }
      exec (.timeStep h) s = .next (answered i 0xB02 0 []
        (if crestState v = 4 then chooseParent (fset rCST_STATUS fCST_STATUS_STATE 0 v) else v))) ∧
    (CmdReady h 0xB03 true parentFields (parentBad s) s i →
      exec (.parentSet h) s = .next (answered i 0xB03 0 [] (chooseParent (regPut rCST_PARENTS (BitVec.ofNat 64 (leAt ps 0 4)) u)))) ∧
    (CmdReady h 0xB80 true crestReportFields crestReportBad s i →
      exec (.crestReport h) s = .next (answered i 0xB80 0 [] (takeReport (reportPort h.path) (leAt ps 8 8) (leAt ps 16 8) u))) ∧
    (CmdReady h 0x905 true severityFields (severityBad s) s i →
      let c := leAt ps 0 4
      exec (.severity h) s = .next (answered i 0x905 0 [] (setLevel (c / 65536) (c / 256 % 256) (c % 256) (leAt ps 4 1) u))) ∧
    (CmdReady h 0x906 true faultPinFields faultPinBad s i → exec (.faultPin h) s = .next (answered i 0x906 0 [] (setPin b u))) ∧
    (CmdReady h 0xF02 true injectFields (injectBad s) s i → factoryPerm s 1 = true →
      exec (.faultInject h) s = .next (keptWaiting h i 0xF02 [leAt ps 0 4] (leAt ps 4 4) 0 0 s u)) ∧
    (CmdReady h 0x903 true dieFenceFields (dieFenceBad s) s i → dieOk s (hostDie b) = true ∨ hostDie b = b → (dieOf s b).st ≠ 2 →
      exec (.dieFence h) s = .next (keptWaiting h i 0x903 [b] 0 0 0 s (fenceStart b 7 u))) ∧
    (CmdReady h 0x904 true dieRejoinFields (dieRejoinBad s) s i → dieOk s (hostDie b) = true ∨ hostDie b = b → (dieOf s b).st = 2 →
      (32 ≤ b ∧ b < 56 → Mp.get 0 s.pwr.temps b ≤ 85 →
        exec (.dieRejoin h) s = .next (answered i 0x904 0 [] (topoNow (rejoinOne b u)))) ∧
      (¬(32 ≤ b ∧ b < 56) → Mp.get 0 s.pwr.temps b ≤ 95 →
        exec (.dieRejoin h) s = .next (keptWaiting h i 0x904 [b] 0 0 0 s (topoNow (rejoinOne b u))))) ∧
    (CmdReady h 0x700 true calRunFields (calRunBad s) s i → (b ≠ 0 → dieOk s (unitCode b) = true) →
      (0x80 ≤ leAt ps 1 1 → factoryPerm s 2 = true) → calReady u b (leAt ps 1 1) (leAt ps 2 2) = true →
      exec (.calRun h) s = .next (keptWaiting h i 0x700 [b] (leAt ps 1 1) (leAt ps 2 2) 0 s
        (if leAt ps 1 1 = 0x10 then retrain (b - 1) (leAt ps 2 2) u
          else if leAt ps 1 1 = 0x30 then dieClocks (b - 8) (fset (rCLK_CORE_FREQ (b - 8) (leAt ps 2 2)) fCLK_CORE_FREQ_ON 1 u) else u))) ∧
    (CmdReady h 0x802 true stageFields (stageBad h) s i → activating h s = false →
      let k := 2 * b + (1 - activeBank u b)
      let old := Mp.get [] s.sec.banks k
      exec (.fwStage h) s = .next (answered i 0x802 0 [] (let new := fit (leAt ps 4 4) old ++ dataIn h ++ old.drop (leAt ps 4 4 + (dataIn h).length)
        { u with sec := { s.sec with banks := Mp.put [] s.sec.banks k new } }))) ∧
    (CmdReady h 0x803 true activateFields activateBad s i →
      let bank := 1 - activeBank u b
      let img := bankOf u b bank
      imageOk u b img = true →
      exec (.fwActivate h) s = .next (answered i 0x803 0 [] { u with
        fuses := { s.fuses with rootRevoked := s.fuses.rootRevoked ||| leAt img 0x10 1 }
        sec := { s.sec with
          active := Mp.put 0 s.sec.active b bank, fresh := s.sec.fresh || b == 0, struck := s.sec.struck && b != 0 } })) ∧
    (CmdReady h 0xF00 true factoryEnterFields factoryEnterBad s i → anyResident u = false → tenantHolds u = false →
      tokenOk u (dataIn h) = true →
      let perms := leAt (dataIn h) 2 2
      let v := fset rSEC_BOOT_STATUS fSEC_BOOT_STATUS_FACTORY 1
        (fset rSEC_FACTORY fSEC_FACTORY_ACTIVE 1 (fset rSEC_FACTORY fSEC_FACTORY_PERMS perms (drawChallenge u)))
      exec (.factoryEnter h) s = .next (answered i 0xF00 0 []
        (if bitOf perms 3 then fset rSEC_BOOT_STATUS fSEC_BOOT_STATUS_DEBUG 1 v else v))) ∧
    (CmdReady h 0xF01 true factoryExitFields factoryExitBad s i →
      exec (.factoryExit h) s = .next (answered i 0xF01 0 [] (closeTap (regPut rSEC_FACTORY 0#64 u))))

/-- A command whose turn it is and which fails a check of R360 changes nothing: its reply carries the status and RESULT of the
first check it fails. A command that settles waiting commands settles them then as well.
The checks come in the order of R360: the opcode on its path, the issuer, the header, the host's memory, the parameters. -/
def Obligations.ChecksAreAnsweredInOrder : Prop :=
  (
  ∀ (h : Cmd) (s : State) (i : Inflight) (st r : Nat),
    let u := taken i s
    (∀ x ∈ ([
        (.identify h, 0x100, cmdCheck h 0x100 false identifyFields identifyBad u),
        (.tenantInfo h, 0x101, cmdCheck h 0x101 false tenantInfoFields tenantInfoBad u),
        (.regRead h, 0x102, cmdCheck h 0x102 true regReadFields regReadBad u),
        (.regWrite h, 0x103, cmdCheck h 0x103 true regWriteFields (regWriteBad h) u),
        (.qpCreate h, 0x110, cmdCheck h 0x110 false qpCreateFields (qpCreateBad h s) u),
        (.qpDelete h, 0x111, cmdCheck h 0x111 false qpDeleteFields (qpDeleteBad h s) u),
        (.qpAssign h, 0x112, cmdCheck h 0x112 true qpAssignFields qpAssignBad u),
        (.bindMemory h, 0x201, cmdCheck h 0x201 true bindMemoryFields (bindMemoryBad s) u),
        (.bindPorts h, 0x202, cmdCheck h 0x202 true bindPortsFields (bindPortsBad s) u),
        (.setShare h, 0x203, cmdCheck h 0x203 true setShareFields setShareBad u),
        (.schedPolicy h, 0x204, cmdCheck h 0x204 true schedPolicyFields schedPolicyBad u),
        (.graphSubmit h, 0x300, cmdCheck h 0x300 false graphSubmitFields graphSubmitBad u),
        (.graphStart h, 0x301, cmdCheck h 0x301 false graphStartFields graphStartBad u),
        (.graphRelease h, 0x302, cmdCheck h 0x302 false graphReleaseFields graphReleaseBad u),
        (.abort h, 0x303, cmdCheck h 0x303 false abortFields abortBad u),
        (.preempt h, 0x304, cmdCheck h 0x304 false preemptFields preemptBad u),
        (.taskRestart h, 0x305, cmdCheck h 0x305 false taskRestartFields taskRestartBad u),
        (.gateRelease h, 0x306, cmdCheck h 0x306 false gateReleaseFields gateReleaseBad u),
        (.ringCreate h, 0x307, cmdCheck h 0x307 false ringCreateFields ringCreateBad u),
        (.ringDelete h, 0x308, cmdCheck h 0x308 false ringDeleteFields ringDeleteBad u),
        (.ringPop h, 0x309, cmdCheck h 0x309 false ringPopFields ringPopBad u),
        (.memRead h, 0x400, cmdCheck h 0x400 false memReadFields memReadBad u),
        (.memWrite h, 0x401, cmdCheck h 0x401 false memWriteFields (memWriteBad h) u),
        (.aspace h, 0x402, cmdCheck h 0x402 true aspaceFields (aspaceBad s) u),
        (.map h, 0x403, cmdCheck h 0x403 false mapFields (mapBad s) u),
        (.unmap h, 0x404, cmdCheck h 0x404 false unmapFields unmapBad u),
        (.protect h, 0x405, cmdCheck h 0x405 false protectFields protectBad u),
        (.granuleAttr h, 0x406, cmdCheck h 0x406 false granuleAttrFields (granuleAttrBad s) u),
        (.rcWays h, 0x407, cmdCheck h 0x407 true rcWaysFields (rcWaysBad s) u),
        (.rcFlush h, 0x408, cmdCheck h 0x408 true rcFlushFields (rcFlushBad s) u),
        (.dmaLimit h, 0x409, cmdCheck h 0x409 true dmaLimitFields (dmaLimitBad s) u),
        (.rowRepair h, 0x40A, cmdCheck h 0x40A true rowRepairFields (rowRepairBad s) u),
        (.stackRejoin h, 0x40B, cmdCheck h 0x40B true stackRejoinFields (stackRejoinBad s) u),
        (.moduleId h, 0x500, cmdCheck h 0x500 true moduleIdFields moduleIdBad u),
        (.routeSet h, 0x501, cmdCheck h 0x501 true routeSetFields (routeSetBad h) u),
        (.acceptSet h, 0x502, cmdCheck h 0x502 true acceptSetFields acceptSetBad u),
        (.vcWeight h, 0x504, cmdCheck h 0x504 true vcWeightFields (vcWeightBad s) u),
        (.portDown h, 0x505, cmdCheck h 0x505 true portDownFields (portDownBad s) u),
        (.portMode h, 0x507, cmdCheck h 0x507 true portModeFields (portModeBad s) u),
        (.portTest h, 0x508, cmdCheck h 0x508 true portTestFields (portTestBad s) u),
        (.laserSwitch h, 0x509, cmdCheck h 0x509 true laserSwitchFields (laserSwitchBad s) u),
        (.wlSubst h, 0x50A, cmdCheck h 0x50A true wlSubstFields (wlSubstBad s) u),
        (.wlRestore h, 0x50B, cmdCheck h 0x50B true wlRestoreFields (wlRestoreBad s) u),
        (.remote h, 0x50C, cmdCheck h 0x50C false remoteFields (remoteBad h) u),
        (.profileSet h, 0x600, cmdCheck h 0x600 true profileFields profileBad u),
        (.override h, 0x601, cmdCheck h 0x601 true overrideFields (overrideBad s) u),
        (.thermalMode h, 0x602, cmdCheck h 0x602 true thermalFields thermalBad u),
        (.powerRead h, 0x603, cmdCheck h 0x603 false powerReadFields powerReadBad u),
        (.calRun h, 0x700, cmdCheck h 0x700 true calRunFields (calRunBad s) u),
        (.calStatus h, 0x701, cmdCheck h 0x701 false calStatusFields (calStatusBad s) u),
        (.attest h, 0x800, cmdCheck h 0x800 false attestFields attestBad u),
        (.certRead h, 0x801, cmdCheck h 0x801 false certFields certBad u),
        (.fwStage h, 0x802, cmdCheck h 0x802 true stageFields (stageBad h) u),
        (.fwActivate h, 0x803, cmdCheck h 0x803 true activateFields activateBad u),
        (.rollbackRead h, 0x804, cmdCheck h 0x804 false rollbackFields rollbackBad u),
        (.faultRing h, 0x900, cmdCheck h 0x900 false faultRingFields faultRingBad u),
        (.faultResume h, 0x901, cmdCheck h 0x901 false faultResumeFields faultResumeBad u),
        (.dieFence h, 0x903, cmdCheck h 0x903 true dieFenceFields (dieFenceBad s) u),
        (.dieRejoin h, 0x904, cmdCheck h 0x904 true dieRejoinFields (dieRejoinBad s) u),
        (.severity h, 0x905, cmdCheck h 0x905 true severityFields (severityBad s) u),
        (.faultPin h, 0x906, cmdCheck h 0x906 true faultPinFields faultPinBad u),
        (.cairnRecord h, 0xA00, cmdCheck h 0xA00 false cairnRecordFields cairnRecordBad u),
        (.cairnStatus h, 0xA01, cmdCheck h 0xA01 false cairnStatusFields cairnStatusBad u),
        (.apportion h, 0xA02, cmdCheck h 0xA02 false apportionFields apportionBad u),
        (.traceRing h, 0xB00, cmdCheck h 0xB00 true traceRingFields traceRingBad u),
        (.timeSet h, 0xB01, cmdCheck h 0xB01 true timeSetFields (timeSetBad s) u),
        (.timeStep h, 0xB02, cmdCheck h 0xB02 true timeStepFields (timeStepBad s) u),
        (.parentSet h, 0xB03, cmdCheck h 0xB03 true parentFields (parentBad s) u),
        (.crestReport h, 0xB80, cmdCheck h 0xB80 true crestReportFields crestReportBad u),
        (.factoryEnter h, 0xF00, cmdCheck h 0xF00 true factoryEnterFields factoryEnterBad u),
        (.factoryExit h, 0xF01, cmdCheck h 0xF01 true factoryExitFields factoryExitBad u),
        (.faultInject h, 0xF02, cmdCheck h 0xF02 true injectFields (injectBad s) u),
        (.logRead h, 0xF03, cmdCheck h 0xF03 true logFields logBad u)] : List (Instr × Nat × Option (Nat × Nat))),
      CmdTurn h x.2.1 s i → x.2.2 = some (st, r) → exec x.1 s = .next (replied i x.2.1 st r [] (colNow u) u)) ∧
    (∀ x ∈ ([
        (.groupDefine h, 0x503, cmdCheck h 0x503 false groupDefineFields (groupDefineBad h) u),
        (.portFlush h, 0x506, cmdCheck h 0x506 true portFlushFields (portFlushBad s) u),
        (.faultEnd h, 0x902, cmdCheck h 0x902 false faultEndFields faultEndBad u)] : List (Instr × Nat × Option (Nat × Nat))),
      CmdTurn h x.2.1 s i → x.2.2 = some (st, r) → exec x.1 s = .next (flushWaits (replied i x.2.1 st r [] (colNow u) u))) ∧
    (CmdTurn h 0x200 s i → cmdCheck h 0x200 true bindCoresFields (bindCoresBad s) u = some (st, r) →
      exec (.bindCores h) s = .next (flushWaits (flushBinds (replied i 0x200 st r [] (colNow u) u))))) ∧
  (
  ∀ (h : Cmd) (op : Nat) (t0 : Bool) (fields : List (Nat × Nat)) (bad : List Byte → Nat → List (Nat × Bool)) (s : State),
    let e := bytesAt h.entry 0 64
    let iss := issuerOf s h.path
    let offs := ((bad (paramsOf { h with entry := e }) (actingOf s h.path e)).filter (·.2)).map (·.1)
    (opAvailable s h.path op = false → cmdCheck h op t0 fields bad s = some (rsBadOpcode, 0)) ∧
    (opAvailable s h.path op = true → iss ≠ 0 → t0 = true ∨ (eTenant e ≠ 0xFF ∧ eTenant e ≠ iss) →
      cmdCheck h op t0 fields bad s = some (rsNotPermitted, 0)) ∧
    (opAvailable s h.path op = true → iss = 0 ∨ (t0 = false ∧ (eTenant e = 0xFF ∨ eTenant e = iss)) →
      (∀ o, headerBad h.path e = some o → cmdCheck h op t0 fields bad s = some (rsBadParam, o)) ∧
      (headerBad h.path e = none →
        (∀ o, h.hostFail = some o → cmdCheck h op t0 fields bad s = some (rsHostAccess, o)) ∧
        (h.hostFail = none → (∃ o, cmdCheck h op t0 fields bad s = some (rsBadParam, o)) ∨
          (cmdCheck h op t0 fields bad s = none ∧ offs = [] ∧ unusedBad (paramsOf { h with entry := e }) fields = none)))))

/-! ## The host interface and the registers -/

/-- COMMAND_FETCH takes the next command of the queue pair whose turn it is, gives it a T_ACCEPT no other command shares and
lists it as accepted, and answers one whose opcode is not available at once; a fetch that fails puts the queue pair in ERROR.
REMOTE_COMMAND_RECEIVE accepts an MGT_REQ at the head of a lane and refuses one whose source module is not admitted. -/
def Obligations.CommandsAreAccepted : Prop :=
  ∀ s : State, s.ready = true →
    (∀ q entry, qpTurn s = some q →
      let e := bytesAt entry 0 64
      let x := qpOf s q
      let v := { s with lastZero := q == 0, lastQp := if q = 0 then s.lastQp else q }
      let w := acceptCmd (.qp q) q e (setQp q { x with fetched := (x.fetched + 1) % 2 ^ 32 } v)
      exec (.commandFetch q entry false) s = .next (qpError q v) ∧
      (opAvailable w (.qp q) (eOp e % 4096) = true → exec (.commandFetch q entry true) s = .next w) ∧
      (opAvailable w (.qp q) (eOp e % 4096) = false → exec (.commandFetch q entry true) s = .next (refuseLast rsBadOpcode w)) ∧
      w.inflight = s.inflight ++ [⟨.qp q, e, max (colNow s) (s.lastAccept + 1), false⟩] ∧
      w.lastAccept = max (colNow s) (s.lastAccept + 1) ∧ qpOf w q = { x with fetched := (x.fetched + 1) % 2 ^ 32 }) ∧
    (∀ port src tenant reqId l pkt rest, mgtLane s port src reqId = some l → (laneOf s port l).queue = pkt :: rest →
      (laneOf s port l).busy = false → pkt.tenant = tenant →
      let e := bytesAt pkt.data 0 64
      let path := CmdPath.fabric port src reqId tenant
      let a := rFLK_ACCEPT (pN port) tenant
      let w := acceptCmd path 0xFF e (updLane port l (fun x => { x with busy := true }) s)
      opAvailable w path (eOp e % 4096) = true →
      let admitted := eOp e % 4096 = 0xB80 ∨ (fget w a fFLK_ACCEPT_EN = 1 ∧ fget w a fFLK_ACCEPT_LO ≤ src ∧ src ≤ fget w a fFLK_ACCEPT_HI)
      (admitted → exec (.remoteCommandReceive port src tenant reqId e (pkt.data.drop 64)) s = .next w) ∧
      (¬admitted → exec (.remoteCommandReceive port src tenant reqId e (pkt.data.drop 64)) s = .next (refuseLast rsNotPermitted w)) ∧
      w.lastAccept = max (colNow s) (s.lastAccept + 1))

/-- The doorbells, the control page's queue pair, interrupt moderation, Function Level Reset and configuration requests. -/
def Obligations.HostFunctionEvents : Prop :=
  ∀ (s : State) (fn i q : Nat) (v : Word32),
    (bellQp s fn i = some q →
      (let w := setQp q { qpOf s q with tail := v.toNat } s
       exec (.hstDbCmd fn i v) s =
         .next (if 2 ^ (qpOf s q).log2 < (v.toNat + 2 ^ 32 - (qpOf s q).fetched) % 2 ^ 32 then qpError q w else w)) ∧
      exec (.hstDbRpl fn i v) s = .next (setQp q { qpOf s q with head := v.toNat } s)) ∧
    (fnEnabled s fn = true → qpLocal s fn 0 = some q →
      let x := { fnOf s fn with
        log2 := fieldOf v.toNat 16 4, modc := fieldOf v.toNat 8 8, vector := fieldOf v.toNat 0 5 }
      ((qpOf s q).created = false →
        exec (.qpEnable fn v) s = .next (qpMake q x.cmdBase x.rplBase x.log2 x.vector x.modc (setFn fn x s)) ∧
        exec (.qpDisable fn v) s = .next (setFn fn x s)) ∧
      ((qpOf s q).created = true → exec (.qpEnable fn v) s = .next s ∧ exec (.qpDisable fn v) s = .next (qpDrop q s))) ∧
    ((qpOf s q).unsig ≠ 0 → exec (.msixModerationTimer (.reply q)) s =
      .next (signalVector (qpOwner s q) (qpOf s q).vector (setQp q { qpOf s q with unsig := 0 } s))) ∧
    (∀ x ∈ ([(.completion fn i, .completion (fn * 16 + i)), (.fault fn, .fault fn), (.trace i, .trace i)] : List (IrqSource × RingRef)),
      ∀ r, getRing s x.2 = some r → r.unsig ≠ 0 →
      exec (.msixModerationTimer x.1) s = .next (signalVector r.tenant r.vector (setRing x.2 { r with unsig := 0 } s))) ∧
    (fnEnabled s fn = true →
      let w := (qpsOf s fn).foldl (fun w q => if (qpOf w q).created then qpDrop q w else w) s
      exec (.functionLevelReset fn) s = .next (setFn fn { ({} : Fn) with pend := (fnOf w fn).pend, cfg := (fnOf w fn).cfg } w)) ∧
    (s.ready = false → ∀ wr off, exec (.pcieConfigurationRequest fn off wr v) s = .next (emit (.cfg fn off none) s)) ∧
    (∀ off x, s.ready = true → fnEnabled s fn = true → fn ≤ 63 → off % 4 = 0 → off < 4096 → cfgFixed s fn off = some x →
      exec (.pcieConfigurationRequest fn off false v) s = .next (emit (.cfg fn off (some x)) s))

/-- Access to the device control space: an access that is not one whole aligned word or that names no populated unit reads all
ones and counts as an address fault; a unit that is fenced or held in reset reads all ones and discards writes; a 64-bit
register's low word reads with its high word kept aside, and its low word written commits both; a read clears the fields of
code RC. `y` and `z` are the state once the sideband message of an access to an optical engine is out, and the count of
corrected ridge-cache errors draws a free value with each read of it. -/
def Obligations.RegisterAccess : Prop :=
  ∀ (s : State) (whole : Bool) (a : Nat) (v : Word32), a < 2 ^ 32 →
    let y := sideMsg false a 0 s
    let z := sideMsg true a v.toNat s
    (whole = false ∨ a % 4 ≠ 0 ∨ unitAssigned s a = false →
      exec (.registerWrite ⟨whole, a⟩ v) s = .next (addrFault s) ∧ exec (.reg64LowWordWrite ⟨whole, a⟩ v) s = .next (addrFault s) ∧
      exec (.reg64LowWordRead ⟨whole, a⟩) s = .next (emit (.reg a 0xFFFFFFFF) (addrFault s)) ∧
      exec (.rcFieldRead ⟨whole, a⟩) s = .next (emit (.reg a 0xFFFFFFFF) (addrFault s))) ∧
    (a % 4 = 0 → unitAssigned s a = true → unitAnswers s (a / 0x4000000) = false →
      exec (.registerWrite ⟨true, a⟩ v) s = .next s ∧ exec (.rcFieldRead ⟨true, a⟩) s = .next (emit (.reg a 0xFFFFFFFF) s)) ∧
    (∀ r high, a % 4 = 0 → unitAssigned s a = true → unitAnswers s (a / 0x4000000) = true → sramWord a = none →
      findReg (a / 0x4000000) (a % 0x4000000) = some (r, high) →
      (high = true →
        exec (.registerWrite ⟨true, a⟩ v) s = .next { z with wrShadow := Mp.put 0#32 s.wrShadow (a - 4) v } ∧
        exec (.rcFieldRead ⟨true, a⟩) s = .next (emit (.reg a (Mp.get 0#32 s.rdShadow (a - 4)).toNat) y)) ∧
      (high = false → r.wide = true →
        exec (.reg64LowWordWrite ⟨true, a⟩ v) s = .next (commitReg r a (v.toNat + (Mp.get 0#32 s.wrShadow a).toNat * 2 ^ 32) z)) ∧
      (high = false → r.wide = false → exec (.registerWrite ⟨true, a⟩ v) s = .next (commitReg r a v.toNat z)) ∧
      (high = false → cairnHeld a = false →
        let x := viewReg r a y
        let w := if r.off = 0x200008 ∧ r.kind = .bd then nextFree (clearRead r a y) else clearRead r a y
        (r.wide = true → exec (.reg64LowWordRead ⟨true, a⟩) s =
          .next (emit (.reg a (x % 2 ^ 32)) { w with rdShadow := Mp.put 0#32 w.rdShadow a (BitVec.ofNat 32 (x / 2 ^ 32)) })) ∧
        (r.wide = false → exec (.rcFieldRead ⟨true, a⟩) s = .next (emit (.reg a (x % 2 ^ 32)) w))))

/-- The registers whose write is an action: RST_CTRL with its key, RST_HOLD_CD, FLT_SAFE_INFO, the laser switch, INJ_ONE, the
PAM4 levels, CRN_ACK and CRN_INTERVAL. -/
def Obligations.ActingRegisters : Prop :=
  ∀ (s : State) (k p : Nat) (v : Word32),
    (fieldOf v.toNat 8 8 ≠ 0xA5 → exec (.swSys v) s = .next s ∧ exec (.swCore v) s = .next s) ∧
    (fieldOf v.toNat 8 8 = 0xA5 → v.toNat.testBit 1 = true → exec (.swSys v) s = .next (systemReset 8 s)) ∧
    (fieldOf v.toNat 8 8 = 0xA5 → v.toNat.testBit 1 = false → v.toNat.testBit 0 = true → exec (.swCore v) s = .next (coreReset 9 s)) ∧
    (∃ t, exec (.holdReleaseRequest v) s = .next t ∧ t = { s with regs := t.regs } ∧ ∀ d < 12,
      let free := nDies s ≤ d ∨ Block.compute d ∈ s.boot.stable
      let hold := fun x : State => fbit x rRST_HOLD_CD fRST_HOLD_CD_HOLD d
      (v.toNat.testBit d = true → hold t = true) ∧ (v.toNat.testBit d = false → hold s = false → hold t = false) ∧
      (v.toNat.testBit d = false → hold s = true → free → hold t = false) ∧
      (v.toNat.testBit d = false → hold s = true → ¬free → hold t = true ∧ fbit t rRST_HOLD_CD fRST_HOLD_CD_DEFER d = true)) ∧
    (∃ t, exec (.safeInfoClear v) s = .next t ∧ t = { s with regs := t.regs } ∧
      fget t rFLT_SAFE_INFO fFLT_SAFE_INFO_VALID = fieldOf v.toNat 31 1 ∧
      fget t rFLT_SAFE_INFO fFLT_SAFE_INFO_SOURCE = fieldOf v.toNat 0 24) ∧
    (k < nSites s → v.toNat % 2 = 1 → spareState s k = 3 →
      exec (.prgSwitch k v) s = .next (updPorger k (fun x => { x with go := true, hold := true }) s)) ∧
    (k < nSites s → p < 8 →
      ∃ t, exec (.injOne k p v) s = .next t ∧ t = { s with regs := t.regs, outputs := t.outputs } ∧
        fieldOf (regVal t (rPRG_PAT_CTRL k p)).toNat 23 1 = 0 ∧
        (∀ j, 18 ≤ j → j < 32 → j ≠ 23 → fieldOf (regVal t (rPRG_PAT_CTRL k p)).toNat j 1 = fieldOf v.toNat j 1)) ∧
    (k < nSites s → p = 6 ∨ p = 7 →
      let l := fun j => fieldOf v.toNat (8 * j) 6
      (l 0 < l 1 ∧ l 1 < l 2 ∧ l 2 < l 3 → exec (.pam4LevelWrite k p v) s = .next (regPut (rPRG_PAM4_LVL k p)
        (BitVec.ofNat 64 (l 0 + l 1 * 2 ^ 8 + l 2 * 2 ^ 16 + l 3 * 2 ^ 24)) s)) ∧
      (¬(l 0 < l 1 ∧ l 1 < l 2 ∧ l 2 < l 3) → exec (.pam4LevelWrite k p v) s = .next s)) ∧
    (s.boot.up = true → s.crn.supply = true →
      exec (.crnAckWrite v) s = .next (raiseAck (v.toNat + (Mp.get 0#32 s.wrShadow rCRN_ACK).toNat * 2 ^ 32) s) ∧
      exec (.crnIntervalWrite v) s = .next (askInterval (v.toNat % 8) s))

/-! ## Resets and bring-up -/

/-- What starts each reset, with its cause, and what a write, a pin or a failing phase does short of one.
What each reset leaves: a power-on reset clears all but the fuses, the option store and what the Cairn keeps; a system
reset keeps the Crest, the retained SRAM, the fault sequence number and the resets' own registers besides; neither touches the
fuses or anything the module has put out. A reset that comes while a wider one runs is absorbed, its cause noted. -/
def Obligations.Resets : Prop :=
  (
  ∀ (s : State) (row die : Nat),
    exec .bor s = .next (powerReset 2 0 s) ∧ exec .ovs s = .next (powerReset 3 0 s) ∧
    (pinsFrozen s = false → exec .mrst s = .next (systemReset 5 s) ∧ exec .mrstLong s = .next (powerReset 4 s.boot.rails s)) ∧
    (s.boot.fw = true →
      exec .wdog s = .next (systemReset 7 { s with sec := { s.sec with struck := s.sec.struck || (s.sec.fresh && !s.ready) } })) ∧
    (isSafe s = true → fget s rFLT_CTRL fFLT_CTRL_AUTO_RESET = 1 → exec .safeAutoReset s = .next (systemReset 11 s)) ∧
    (1 ≤ row → row ≤ 8 →
      (row = 1 ∨ row = 2 ∨ row = 4 → exec (.crit row die true) s = exec (.crit row die false) s) ∧
      exec (.crit row die false) s = .next (fset rRST_CRIT_INFO fRST_CRIT_INFO_STATE row (fset rRST_CRIT_INFO fRST_CRIT_INFO_UNIT die
        (if row ≤ 2 then powerReset 10 s.boot.rails s else if row ≤ 6 then systemReset 10 s else coreReset 10 s)))) ∧
    (pinsFrozen s = false → s.boot.up = false → fget s rWNW_OPTIONS fWNW_OPTIONS_PERST_SCOPE = 0 →
      exec .perst s = .next (systemReset 6 (updBoot (fun b => { b with perst := true }) s))) ∧
    (pinsFrozen s = false → exec .perstDeassert s = .next { s with boot := { s.boot with perst := false } }) ∧
    (let k := fget s rPWR_STATUS fPWR_STATUS_PHASES
     let v := fset rPWR_STATUS fPWR_STATUS_PHASES (k - 1) (fset rPWR_STATUS fPWR_STATUS_PHASE_LOST 1 (occurs 0 0 3 s))
     1 ≤ k → (occurs 0 0 3 s).fuses.a12 = s.fuses.a12 →
     exec .phaseLost s = .next (if 2 * (k - 1) < (if s.fuses.a12 then 13 else 7) then powerReset 2 0 v else v)) ∧
    (s.boot.rails = 0 → ∃ t, exec .powerOn s = .next t ∧ t = { s with boot := { s.boot with rails := 1 }, outputs := t.outputs } ∧
      t.outputs = (((List.range 11).filter (fun i => pinReset s i ≠ 2)).map (fun i =>
        Out.pin ((pinNames[i]?).getD "") (pinReset s i == 0))).reverse ++ s.outputs) ∧
    (s.boot.rails = 1 → exec .railsComplete s = .next { s with boot := { s.boot with rails := 2 } })) ∧
  (
  ∀ (s : State) (c : Nat), 1 ≤ c → c ≤ 11 →
    (let t := powerReset c s.boot.rails s
     t.fuses = s.fuses ∧ t.sec = s.sec ∧ t.crn.store = s.crn.store ∧ t.crn.recno = s.crn.recno ∧ t.outputs = s.outputs ∧
       t.cores = [] ∧ t.graphs = [] ∧ t.mem = [] ∧ t.qps = [] ∧ t.crest = 0 ∧ t.crestRun = false ∧ t.sram = [] ∧ t.ready = false ∧
       fget t rRST_CAUSE fRST_CAUSE_LAST = c ∧ fbit t rRST_CAUSE ⟨0, 11⟩ (c - 1) = true) ∧
    (s.boot.up = true → let t := systemReset c s
     t.fuses = s.fuses ∧ t.sec = s.sec ∧ t.crest = s.crest ∧ t.crestRun = s.crestRun ∧ t.sram = s.sram ∧ t.fseq = s.fseq ∧
       t.outputs = s.outputs ∧ t.crn.store = s.crn.store ∧ t.cores = [] ∧ t.graphs = [] ∧ t.groups = [] ∧ t.tlbs = [] ∧ t.tags = [] ∧
       t.qps = [] ∧ t.waits = [] ∧ t.ready = false ∧ t.boot.up = false ∧ fget t rRST_CAUSE fRST_CAUSE_LAST = c ∧
       fbit t rRST_CAUSE ⟨0, 11⟩ (c - 1) = true ∧ ∀ j < 32, regVal t (rRST_BACKUP j) = regVal s (rRST_BACKUP j)) ∧
    (s.boot.up = false → systemReset c s = noteCause c s ∧ coreReset c s = noteCause c s))

/-- The order of bring-up: which block is released when, what the option load and the ROM leave, and when READY sets.
The host link: training, coefficient requests, eye scans, Loopback and the loss of the link. -/
def Obligations.BringUpAndHostLink : Prop :=
  (
  ∀ (s : State) (b : Block) (n d c k : Nat),
    let whole := fget s rSEC_BOOT_STATUS fSEC_BOOT_STATUS_RECOVERY ≠ 1
    (s.boot.up = true → exec (.blockResetRelease .col) s = .next s) ∧
    (s.boot.rails ≠ 2 → exec (.blockResetRelease .col) s = .next s) ∧
    (s.boot.up = false → s.boot.lost = false → s.boot.rails = 2 → s.boot.safeNow = false → s.crn.supply = false →
      ∃ t, exec (.blockResetRelease .col) s = .next t ∧ t.boot.up = true ∧ t.boot.loading = true ∧ t.crestRun = true ∧
        t.crest = s.crest ∧ t.fuses = s.fuses ∧ t.cores = s.cores ∧ t.mem = s.mem) ∧
    (fget s rWNW_STATUS fWNW_STATUS_DONE = 0 → exec (.blockResetRelease (.base n)) s = .next s) ∧
    (s.boot.stable.contains (.base (d / 3)) = false → exec (.blockResetRelease (.compute d)) s = .next s) ∧
    (identified s (d / 3) = false → exec (.blockResetRelease (.compute d)) s = .next s) ∧
    (¬whole → b ≠ .col → b ≠ .base 0 → exec (.blockResetRelease b) s = .next s) ∧
    (whole → d < nDies s → s.boot.stable.contains (.base (d / 3)) = true → identified s (d / 3) = true → fbit s rRST_HOLD_CD fRST_HOLD_CD_DEFER d = true →
      exec (.blockResetRelease (.compute d)) s = .next (fsetBit rRST_HOLD_CD fRST_HOLD_CD_HOLD d false
        (fsetBit rRST_HOLD_CD fRST_HOLD_CD_DEFER d false (noteStable (.compute d) s)))) ∧
    (whole → c < nCores s → s.boot.stable.contains (.compute (c / 16)) = true → coreState s c < 2 →
      exec (.blockResetRelease (.core c)) s = .next (noteStable (.core c) s)) ∧
    (whole → k < nSites s → s.boot.stable.contains (.base (k / 4)) = true → identified s (k / 4) = true →
      exec (.blockResetRelease (.porger k)) s = .next (noteStable (.porger k) s)) ∧
    (∀ img t, s.boot.loading = true → checkImage img s = .inr t →
      ∃ u, exec (.winnowerLoadComplete img false) s = .next u ∧ u = { t with boot := { t.boot with loading := false }, regs := u.regs } ∧
        fget u rWNW_STATUS fWNW_STATUS_DONE = 1 ∧ fget u rWNW_STATUS fWNW_STATUS_ATTEMPTS = 0 ∧
        fget u rWNW_STATUS fWNW_STATUS_RECORDS = leAt img 4 2 % 2048) ∧
    (∀ img e, s.boot.loading = true → checkImage img s = .inl e → fget s rWNW_STATUS fWNW_STATUS_ATTEMPTS < 2 →
      exec (.winnowerLoadComplete img false) s = .next (fset rWNW_STATUS fWNW_STATUS_LAST_ERR e
        (fset rWNW_STATUS fWNW_STATUS_ATTEMPTS (fget s rWNW_STATUS fWNW_STATUS_ATTEMPTS + 1) s))) ∧
    (s.boot.up = true → s.boot.loading = false → s.boot.chosen = false → ∀ b : BootVerdict, b.activeOk = false → b.fallbackOk = false →
      let slot := ((List.range 3).find? (fun k => bitOf s.fuses.rootBlown k && !bitOf s.fuses.rootRevoked k)).getD 15
      exec (.romBoot b) s = .next (becomeReady (fset rSEC_BOOT_STATUS fSEC_BOOT_STATUS_RECOVERY 1
        (fset rSEC_BOOT_STATUS fSEC_BOOT_STATUS_ROOT_SLOT slot { s with boot := { s.boot with chosen := true } })))) ∧
    (s.boot.up = true → s.boot.chosen = true → s.boot.fw = false → fget s rSEC_BOOT_STATUS fSEC_BOOT_STATUS_RECOVERY = 0 →
      exec .firmwareReady s = .next (becomeReady { s with boot := { s.boot with fw := true } })) ∧
    (fget s rHST_LINK_STATUS fHST_LINK_STATUS_LTSSM ≠ 3 → becomeReady s = s)) ∧
  (
  ∀ s : State,
    let r := rHST_LINK_STATUS
    (∀ rate width eq16 eq32, s.boot.up = true → s.boot.perst = false → 1 ≤ rate → rate ≤ 5 → width ∈ [1, 2, 4, 8] → s.ready = true →
      ∃ t, exec (.pcieLinkTraining rate width eq16 eq32) s = .next t ∧ t = { s with regs := t.regs, txeq := t.txeq } ∧
        fget t r fHST_LINK_STATUS_LTSSM = 3 ∧ fget t r fHST_LINK_STATUS_RATE = rate ∧ fget t r fHST_LINK_STATUS_WIDTH = width ∧
        fget t r fHST_LINK_STATUS_EQ16 = b2n eq16 ∧ fget t r fHST_LINK_STATUS_EQ32 = b2n eq32) ∧
    (∀ l pre main post, l < 8 → fget s (rHST_TXEQ l) fHST_TXEQ_OVR = 0 →
      (pre + main + post = 48 → 16 + pre + post ≤ main → pre ≤ 12 →
        exec (.eqCoefficientRequest l pre main post) s = .next (setCoef l pre main post s)) ∧
      (pre + main + post ≠ 48 → exec (.eqCoefficientRequest l pre main post) s = .next s)) ∧
    (∀ l m, l < 8 → fget s r fHST_LINK_STATUS_LTSSM = 3 → 4 ≤ fget s r fHST_LINK_STATUS_RATE → margining s l = false →
      exec (.hostEyeScanPass l m) s = .next (regPut (rHST_EYE l) (m.setWidth 64) s)) ∧
    (fget s r fHST_LINK_STATUS_RATE ≠ 0 → fget s r fHST_LINK_STATUS_LTSSM ≠ 6 →
      ∃ t, exec .loopbackEntry s = .next t ∧ t = { s with regs := t.regs } ∧ fget t r fHST_LINK_STATUS_LTSSM = 6) ∧
    (∀ errs, fget s r fHST_LINK_STATUS_LTSSM = 6 →
      ∃ t, exec (.loopbackExit errs) s = .next t ∧ t = { s with regs := t.regs } ∧ fget t r fHST_LINK_STATUS_LTSSM = 0 ∧
        fget t r fHST_LINK_STATUS_RATE = 0 ∧ fget t r fHST_LINK_STATUS_WIDTH = 0) ∧
    (∀ dis, fget s r fHST_LINK_STATUS_LTSSM = 3 →
      exec (.hostLinkDown dis) s = .next (occurs 0 1 10 (fset r fHST_LINK_STATUS_LTSSM (if dis then 8 else 0)
        (fset r fHST_LINK_STATUS_RATE 0 (fset r fHST_LINK_STATUS_WIDTH 0 s))))))

/-! ## The scheduler's events -/

/-- A dispatch unit places the first waiting task that fits, new work by TASK_DISPATCH and pre-empted work by TASK_RESUME; a
task that has ended commits; an abort that reaches the home unit of a live task ends it; a graph that waits is admitted.
A pre-emption request reaches a core, its image is saved, its sheaf memory is cleared for a new tenant. -/
def Obligations.TaskAndCoreEvents : Prop :=
  (
  ∀ (s : State) (ridge h t : Nat),
    (∀ w p k l u, pickFrom s (waitList s ridge) [] = some (w, p) → headTask s w = some k →
      readGang w.handle p (reserveSlots w.handle w.members.length true s) = (.inl l, u) →
      let v := l.foldl (fun v q => match taskOf v w.handle q.1 with
        | none => v
        | some x => if x.kind ≠ 0 then startUnit w.handle q.1 v
            else if x.st = tsPreempted then resumeTask w.handle q.1 q.2.1 q.2.2 v else startCores w.handle q.1 q.2.1 v) u
      (k.st ≠ tsPreempted → exec (.taskDispatch ridge) s = .next v ∧ exec (.taskResume ridge) s = .next s) ∧
      (k.st = tsPreempted → exec (.taskDispatch ridge) s = .next s ∧ exec (.taskResume ridge) s = .next v)) ∧
    (∀ tenant w, (waitList s ridge).find?
        (fun w => w.tenant == tenant && ((headTask s w).map (fun k => k.kind == 0)).getD false) = some w →
      placement s w = none → isSafe s = false →
      let v := w.members.foldl (fun v m => updTask w.handle m (fun k => { k with bfStop := true }) v) s
      exec (.backfillLimitExpiry ridge tenant) s = .next (if fget v (rTSC_SHARE_B tenant) fTSC_SHARE_B_PRIO_PREEMPT = 1 then
        preemptFor w (victims v tenant w.prio) (leaving v tenant) v else v)) ∧
    (∀ k st d, taskOf s h t = some k → k.endStatus = some (st, d) → commitReady s h t k = true → isSafe s = false →
      exec (.taskCommit h t) s = .next (flushWaits (settle (makeFinal h t st d (homeStamp s h t) s)))) ∧
    (∀ k w, taskOf s h t = some k → k.st ≠ tsFinal →
      s.waits.find? (fun w => w.op == 0x303 && w.keys.contains (taskKey h t)) = some w → w.keys = [taskKey h t] → w.a = 0 →
      exec (.abortArrival h t) s = .next (flushWaits (forgetGraph h
        (answerWait w 0 w.result (max w.tDone (homeStamp s h t)) [] (abortTask h t s))))) ∧
    (∀ tenant w q n v, admissionQueue s tenant = w :: q →
      (admitGraph tenant (ofKeys w.keys) s = .admitted n v →
        exec (.graphAdmission tenant) s = .next (answerWait w 0 n (colNow v) [] v)) ∧
      (admitGraph tenant (ofKeys w.keys) s = .room → exec (.graphAdmission tenant) s = .next s))) ∧
  (
  ∀ (s : State) (c h t rank : Nat) (x : Task),
    let k := coreOf s c
    let mine := k.task = some (h, t, rank) ∧ taskOf s h t = some x ∧ x.st = tsPreempting
    (mine → k.ended = false →
      exec (.preemptionRequest c) s = .next (k.xfers.foldl (fun v y => if y.st < 2 then parkXfer (.core c y.slot) 3 0 v else v)
        (setCore c { k with stop := true, sem := none } s))) ∧
    (mine → k.stop = true → k.saved = false → k.ended = false → (∀ e ∈ allEnts k, e.started = false) →
      (∀ y ∈ k.xfers, 2 ≤ y.st) → ∀ sh s1 b2 s2 b3 s3,
      let tn := tenantOfGraph s h
      sheafRead c 0 k.extent (nextFree s) = (some sh, s1) → tenantOfGraph s1 h = tn →
      vwrite (.save c) tn (slotAddr x rank) (imageHead k (freeVal 10 s) (freeVal 11 s) ++ sh) accWrite s1 = (.ok b2, s2) →
      tenantOfGraph s2 h = tn →
      vwrite (.save c) tn (parkAddr x rank) (parkArea k) accWrite s2 = (.ok b3, s3) →
      exec (.contextSaveComplete c) s = .next (flushWaits (preemptDone h t
        (updTask h t (fun y => { y with
          savedRanks := y.savedRanks ++ [rank]
          waitedRanks := if k.waited then y.waitedRanks ++ [rank] else y.waitedRanks })
          (updCore c (fun k => { k with saved := true }) s3))))) ∧
    (∀ u, coreState s c = 1 → fget s (bindReg c) fTSC_CORE_BIND_SLEEP = 0 → k.bindTo = some (some u) →
      exec (.coreSheafClearDone c) s =
        .next (flushWaits (bindDone c (some u) (setCore c { k with sheaf := [], sheafErr := [] } s)))))

/-- A granule's change of binding takes effect: its attributes, its T_bind, its count of changes, its BIND record; a clear that
finishes zeroes what was not yet cleared.
Waiting records go to their rings when there is room, the oldest first, unless a change of binding defers the write; a ring that
lacks room for what waits for it rereads HEAD. -/
def Obligations.GranulesAndRecords : Prop :=
  (
  ∀ (s : State) (n g : Nat),
    let key := granKey n g
    let x := granOf s key
    (∀ c rest, x.pend = c :: rest → granBusy s key = false →
      let old := if fget s (rMEM_GATTR n g) fMEM_GATTR_BOUND = 1 then some (fget s (rMEM_GATTR n g) fMEM_GATTR_TENANT) else none
      let v := granTake n g c (dropTlbs key s)
      let y := granOf v key
      let w := bindRecord 1 key old c.tgt ((x.changes + 1) % 65536) (if c.keep then 3 else 0) (stampAt s (16 + n))
        (setGran key { y with
          last := c.tgt.or y.last, tBind := stampAt s (16 + n), pend := rest, changes := y.changes + 1
          uncl := if c.tgt.isSome && !c.keep then List.range 512 else y.uncl } v)
      (w.waits.find? (fun w => w.op == 0x201 && w.keys.contains key) = none →
        exec (.granuleBindCommit n g) s = .next (flushDeferred w)) ∧
      ∀ q, w.waits.find? (fun w => w.op == 0x201 && w.keys.contains key) = some q → q.keys = [key] →
        exec (.granuleBindCommit n g) s = .next (flushDeferred (answerWait q 0 (q.result + 1) (max q.tDone (stampAt s (16 + n))) [] w))) ∧
    (fget s (rMEM_GATTR n g) fMEM_GATTR_CLEARING = 1 →
      let v := x.uncl.foldl (fun v b => zeroRange (n * 2 ^ 39 + g * 2 ^ 30 + b * 2 ^ 21) (2 ^ 21) v) s
      exec (.granuleClearComplete n g) s =
        .next (fset (rMEM_GATTR n g) fMEM_GATTR_CLEARING 0 (setGran key { granOf v key with uncl := [] } v)))) ∧
  (
  ∀ (s : State) (tenant ring : Nat),
    (∀ x w rest, getRing s (.completion (tenant * 16 + ring)) = some x → x.waiting = w :: rest →
      w.held = true ∨ ringRoom x 1 = true → isSafe s = false →
      let r : RingRef := .completion (tenant * 16 + ring)
      ringDefers r w.bytes s = false →
      let v := ringWrite r w.bytes (setRing r { x with waiting := rest, reserved := x.reserved - b2n w.held } s)
      (w.task = none → exec (.recordWrite tenant ring) s = .next v) ∧
      (∀ h t, w.task = some (h, t) →
        exec (.recordWrite tenant ring) s = .next (forgetGraph h (updTask h t (fun k => { k with recWaiting := k.recWaiting - 1 }) v)))) ∧
    (∀ kind x, getRing s (ringNamed kind tenant ring) = some x →
      exec (.ringHeadReread kind tenant ring) s =
        .next (if ringRoom x (ringNeed (ringNamed kind tenant ring) s) then s else ringReread (ringNamed kind tenant ring) s)) ∧
    (∀ x f, getRing s (.fault tenant) = some x → s.frecs.find? (fun f => f.wants tenant) = some f → ringRoom x 1 = true →
      colAttach s = true → ringDefers (.fault tenant) f.bytes s = false →
      let v := ringWrite (.fault tenant) f.bytes { s with
        frecs := (s.frecs.map (fun g => if g = f then f.give tenant else g)).filter (fun g => g.toModule || g.toTenant) }
      exec (.faultRecordWrite tenant) s =
        .next (if v.recLost = true ∧ v.frecs.length < 1024 then occurs 0 1 2 { v with recLost := false } else v)) ∧
    (∀ x r, getRing s (.trace ring) = some x → s.trecs.find? (fun t => t.ring == ring) = some r → ringRoom x 1 = true →
      traceStoreDie r.source ≠ 64 ∨ colAttach s = true → ringDefers (.trace ring) r.bytes s = false →
      let v := ringWrite (.trace ring) r.bytes { s with trecs := s.trecs.erase r }
      (lossToReport v = none → exec (.traceRecordWrite ring) s = .next v) ∧
      (∀ src n, lossToReport v = some (src, n) →
        let d := traceStoreDie src
        let w := { v with trcLost := Mp.del v.trcLost src }
        exec (.traceRecordWrite ring) s = .next (occurs 0 1 11 (trace src d 9 0xFF (stampAt w d) (leFields [(4, n), (1, d)]) w)))))

/-! ## Memory, near-memory units, transfers and collectives -/

/-- Requests at the ridge caches, the scrubber, stacks that wake and page walks. `b` is the sector of the address; the plain
conditions are that nothing is cached, no codeword is in error, the granule's policy is BYPASS and its stack answers: then a read
gives the bytes of the stacks and changes nothing, a write of a whole codeword puts its bytes there and changes no other byte, and
a read past the end of memory is answered with error and recorded. -/
def Obligations.MemoryEvents : Prop :=
  ∀ (s : State) (rq : Requester) (tenant pa : Nat),
    let b := pa / 64 * 64
    let plain := s.caches = [] ∧ s.inj = [] ∧ s.cwErr = [] ∧ paValid s pa = true ∧ rqRidge rq = paRidge b ∧ policyOf s b = 2 ∧
      uncleared s b = false ∧ stackState s (paRidge b) (stackOf s b).1 ≠ 4 ∧ stackState s (paRidge b) (stackOf s b).1 ≠ 5
    (∀ len, plain → pa % 64 + len ≤ 64 →
      exec (.memoryReadRequest rq tenant pa len) s = .next (emit (.mem pa (Mp.slice 0#8 s.mem pa len)) s)) ∧
    (∀ bytes : List Byte, plain → bytes.length = 64 → pa % 64 = 0 →
      ∃ t, exec (.memoryWriteRequest rq tenant pa bytes []) s = .next t ∧ t = { s with mem := t.mem } ∧
        Mp.slice 0#8 t.mem pa 64 = bytes ∧ ∀ a, a < pa ∨ pa + 64 ≤ a → Mp.get 0#8 t.mem a = Mp.get 0#8 s.mem a) ∧
    (∀ len bs v, paValid s pa = true → memRead (rqRidge rq) tenant pa len s = (.ok bs, v) →
      exec (.memoryReadRequest rq tenant pa len) s = .next (emit (.mem pa bs) v)) ∧
    (∀ len p v, paValid s pa = true → memRead (rqRidge rq) tenant pa len s = (.uncorr p, v) →
      exec (.memoryReadRequest rq tenant pa len) s =
        .next (emit (.memError pa 0x10) (uncorrFault p (rqSource rq) tenant 0 1 0 0xFFFF (rqCore rq) 0 v))) ∧
    (∀ len, paValid s pa = false → exec (.memoryReadRequest rq tenant pa len) s = .next (badAddress rq tenant pa accRead s)) ∧
    (∀ bytes mask c v, paValid s pa = true →
      memWriteM (rqRidge rq) tenant pa bytes (mask ++ List.replicate (bytes.length - mask.length) true) s = (.ok c, v) →
      exec (.memoryWriteRequest rq tenant pa bytes mask) s = .next v) ∧
    (∀ u, u / 6 < nRidges s → scrubs s (u / 6) (u % 6) = true → Mp.get 0 s.scrub u ≠ stackCodewords →
      let q := paOfStack s (u / 6) (u % 6) (Mp.get 0 s.scrub u * 64)
      let next := fun (v : State) => scrubProgress (u / 6) { v with scrub := Mp.put 0 v.scrub u (Mp.get 0 s.scrub u + 1) }
      (s.inj = [] → s.cwErr = [] → exec (.patrolScrubRead u) s = .next (next s)) ∧
      (∀ bs v, readCw q 1 s = (.ok bs, v) → exec (.patrolScrubRead u) s = .next (next v)) ∧
      (∀ p v, readCw q 1 s = (.uncorr p, v) →
        exec (.patrolScrubRead u) s = .next (scrubProgress (u / 6)
          (let w := uncorrFault q 11 0 0 1 0 0xFFFF 0xFFFF 0 v
           { w with scrub := Mp.put 0 w.scrub u (Mp.get 0 s.scrub u + 1) })))) ∧
    (∀ u, u / 6 < nRidges s → stackState s (u / 6) (u % 6) = 3 → dieOk s (16 + u / 6) = true →
      exec (.stackWake u) s = .next (fset (rMEM_STACK_STATUS (u / 6) (u % 6)) fMEM_STACK_STATUS_STATE 2 s)) ∧
    (∀ (va : Word64) acc, rqRidge rq < nRidges s → dieOk s (16 + rqRidge rq) = true →
      (∀ e, tlbFind s (rqTlb rq) tenant va.toNat = some e → exec (.pageWalkComplete rq tenant va acc) s = .next s) ∧
      (∀ l e v, tlbFind s (rqTlb rq) tenant va.toNat = none → tlbFind s (192 + rqRidge rq) tenant va.toNat = none →
        walk rq tenant va.toNat s = (.leaf l e, v) →
        let x : TlbEnt := ⟨tenant, va.toNat / levelSize l * levelSize l, levelSize l, e⟩
        let w := tlbAdd (192 + rqRidge rq) x v
        exec (.pageWalkComplete rq tenant va acc) s =
          .next (if rqTlb rq = 192 + rqRidge rq then w else tlbAdd (rqTlb rq) x w)))

/-- A NEAR task reaches its unit with its descriptor read: a bad field refuses it, and a sound descriptor is begun at the
ridge that owns its destination unless eight already run there or wait before it; then its chunks are done one by one, the tasks of
a unit taking turns, each with a tag.
Tags, responses and the retirement of chunks of transfers: a response frees its tag, unless an earlier request of its requester to
its 4 KiB granule is outstanding, and hands its chunk what it brings; a chunk whose every request is complete retires. -/
def Obligations.NearTasksAndTransfers : Prop :=
  (
  ∀ (s : State) (h t : Nat) (k : Task), taskOf s h t = some k → k.st = tsRunning → k.endStatus = none → isSafe s = false →
    (k.kind = 2 → k.near = none → k.target % 64 ≠ 0 → exec (.nearTaskStart h t) s = .next (nearRefuse h t 0 s)) ∧
    (∀ d v, k.kind = 2 → k.near = none → k.target % 64 = 0 →
      vread (.near k.unit) (tenantOfGraph s h) k.target 64 accRead s = (.ok d, v) →
      let begun := fun (w : State) => updTask h t (fun k => { k with
        near := some ⟨d, 0, 0, (nearTurns w k.unit h t).foldl min ((nearTurns w k.unit h t).headD 0)⟩ }) w
      (∀ off, lowestOff (nearBlamed d) = some off → exec (.nearTaskStart h t) s = .next (nearRefuse h t off (begun v))) ∧
      (lowestOff (nearBlamed d) = none → ∀ pa w, translate (.near k.unit) (tenantOfGraph s h) (nDst d) accWrite v = (.ok pa, w) →
        let n := paRidge pa
        let x := updTask h t (fun k => { k with unit := n }) w
        (8 ≤ nearRunning x n + nearAhead x n h t → exec (.nearTaskStart h t) s = .next x) ∧
        (nearRunning x n + nearAhead x n h t < 8 → ridgeServes x n = true → nChunks d ≠ 0 → nAuto d = false →
          exec (.nearTaskStart h t) s = .next (begun x)))) ∧
    (∀ r, k.near = some r → r.chunk < nChunks r.desc → (∀ x ∈ nearTurns s k.unit h t, r.turn ≤ x) →
      let ts := nearTurns s k.unit h t
      let r' := { r with turn := max r.turn (ts.foldl min (ts.headD 0)) + 1 }
      let v := updTask h t (fun k => { k with near := some r' }) s
      (tagPass k.unit (.near k.unit) (tenantOfGraph s h) v = none → exec (.nearChunkComplete h t) s = .next v) ∧
      (∀ w, tagPass k.unit (.near k.unit) (tenantOfGraph s h) v = some w →
        exec (.nearChunkComplete h t) s =
          .next (if nOp r.desc = 1 then nearScatter h t k.unit r' w else nearMove h t k.unit r' w)))) ∧
  (
  ∀ (s : State) (ridge tenant : Nat) (rq : Requester),
    (rqRidge rq = ridge → tagFree s ridge rq tenant = true →
      (∀ pa, exec (.tagAcquire ridge rq tenant (.request pa)) s =
        .next (takeTag ridge ⟨0, 0, rq, tenant, .request pa, 0, 0, false, pa, [], none, none, false⟩ s).2) ∧
      (∀ r, xferRq s r = rq → xferTenant s r = tenant →
        exec (.tagAcquire ridge rq tenant (.chunk r)) s = .next (acquireChunk r s))) ∧
    (tagFree s ridge rq tenant = false → ∀ use, exec (.tagAcquire ridge rq tenant use) s = .next s) ∧
    (∀ tag e status kind server fseq data, (tagsOf s ridge).find? (fun e => e.tag == tag) = some e →
      (outOfOrder s ridge e = true → exec (.transactionResponse ridge tag status kind server fseq data) s = .next s) ∧
      (outOfOrder s ridge e = false → e.abandoned = false →
        let v := freeTag ridge tag s
        (∀ pa, e.use = .request pa → s.deferred = [] →
          exec (.transactionResponse ridge tag status kind server fseq data) s = .next v) ∧
        (∀ r, e.use = .chunk r → exec (.transactionResponse ridge tag status kind server fseq data) s =
          .next (flushDeferred (chunkResponse r e status kind server fseq data v))))) ∧
    (∀ tag status kind server fseq data, (∀ e ∈ tagsOf s ridge, e.tag ≠ tag) →
      exec (.transactionResponse ridge tag status kind server fseq data) s = .next s) ∧
    (∀ r x ch rest, getXfer s r = some x → x.issued = ch :: rest → x.st < 2 → ch.no = x.chunk → (∀ p ∈ ch.pieces, p.st = 4) →
      let data := ch.pieces.flatMap (·.data)
      let y := { x with
        reg := if dCvu x.desc then cvuStream x.desc (65536 * ch.no) data x.reg else x.reg
        chunk := x.chunk + 1, bytesDone := x.bytesDone + data.length, issued := rest }
      let v := if y.bytesDone = dTotal x.desc then xferDone r (setXfer r y s) else setXfer r y s
      exec (.dmaChunkRetire r) s = .next (match r with
        | .core c _ => pump c v
        | .task _ _ => v)))

/-- The collective engines. A task whose turn has come starts with its first messages and its contributions owed; a started one
sends what it owes, the first message no earlier than T_NOT_BEFORE; a message that comes in its order joins its contribution; a
chunk whose every contribution is in retires; a participant that has done all commits, and its count moves on; a notice ends the
task of its COLL_SEQ; and attention blocks are staged once their credits are taken. -/
def Obligations.CollectiveEvents : Prop :=
  ∀ (s : State) (h t : Nat) (k : Task), taskOf s h t = some k → k.st = tsRunning → k.endStatus = none → isSafe s = false →
    (k.kind = 3 → k.coll = none → k.target % 64 ≠ 0 →
      keptNotice (collRefuse h t 0 s) h t = none → exec (.collectiveTaskStart h t) s = .next (collRefuse h t 0 s)) ∧
    (∀ d v g, k.kind = 3 → k.coll = none → k.target % 64 = 0 →
      vread (.coll k.unit) (tenantOfGraph s h) k.target 64 accRead s = (.ok d, v) → Mp.find v.groups (cGroup d) = some g →
      (∀ o, lowestOff (collBlamed d (nRidges v) g.members.length) = some o → nRidges v ≤ cRidge d →
        keptNotice (collRefuse h t o v) h t = none → exec (.collectiveTaskStart h t) s = .next (collRefuse h t o v)) ∧
      (lowestOff (collBlamed d (nRidges v) g.members.length) = none → cRidge d ≠ 0xFF →
        let w := collPick h t (tenantOfGraph v h) d g (cRidge d) v
        keptNotice w h t = none → exec (.collectiveTaskStart h t) s = .next w)) ∧
    (∀ r, k.kind = 3 → k.coll = some r → r.started = false → s.notices = [] → collDue s k.unit r = true →
      collRunning s k.unit + collAhead s k.unit h t < 32 → cOp r.desc ≠ 6 → cOp r.desc ≠ 7 →
      exec (.collectiveTaskStart h t) s = .next (setColl h t { r with started := true, owed := r.owes, stage := [] } s)) ∧
    (∀ r, k.coll = some r →
      (r.started = true → exec (.collectiveFirstSend h t) s =
        .next (sendFwd h t (r.fwd.length + 1) (sendOwed h t (r.owed.length + 1) s))) ∧
      (∀ d m, r.started = true → cOp r.desc ≠ 7 → r.fwd = [] → r.owed = [(d, helloChunk, 0)] → d ≠ r.rank →
        r.members[d]? = some m → m / 4 = moduleId s → r.sent = true ∨ leAt r.desc 0x38 8 ≤ stampAt s (16 + k.unit) →
        let now := stampAt s (16 + k.unit)
        let msg : CollMsg := ⟨r.gid, cSeq r.desc, partId s k.unit, m, 0, helloChunk, 0,
          some (r.digest (((groupByGid s r.gid).map (fun p => p.2.tenants)).getD [])), now, []⟩
        ringPath s k.unit (m % 4) (msgAddr msg) = true →
        exec (.collectiveFirstSend h t) s = .next (setColl h t
          { r with owed := [], unacked := r.unacked ++ [(d, helloChunk, 0)], sent := true, tFirst := if r.sent then r.tFirst else now }
          { s with collNet := s.collNet ++ [msg] })) ∧
      (∀ b v, r.started = true → cOp r.desc ≠ 7 → r.chunk < r.chunks → chunkReady r r.chunk = true →
        vwrite (.coll k.unit) (tenantOfGraph s h) ((cDst r.desc + 65536 * r.chunk) % 2 ^ 64) (chunkBytes r r.chunk).1 accWrite s = (.ok b, v) →
        exec (.collectiveChunkRetire h t) s = .next (updTask h t (fun k => { k with
          flags := k.flags ||| (chunkBytes r r.chunk).2.toNat / 65536 % 64
          coll := some { r with chunk := r.chunk + 1, got := if cOp r.desc = 8 then r.got else r.got.filter (fun p => p.2.1 != r.chunk) } }) v)) ∧
      (collDone r = true → exec (.collectiveCommit h t) s = .next (
        let v := putCollRecord h t 5 0 0 s
        let w := match groupByGid v r.gid with
          | some (n, g) => { v with groups := Mp.ins v.groups n { g with counts := Mp.put 0 g.counts r.rank (cSeq r.desc + 1) } }
          | none => v
        settle (makeFinal h t 0 0 (homeStamp w h t) w))) ∧
      (∀ q step j data r2, r.started = true → cOp r.desc = 7 → stageNext r = some (q, step, j, data) →
        (takeFree h t (aConsumers r.aux + 1) s).1 = true → collOf (takeFree h t (aConsumers r.aux + 1) s).2 h t = some r2 →
        exec (.attnBlockStage h t) s =
          .next (attnPut h t (tenantOfGraph s h) k r2 q step j data (takeFree h t (aConsumers r.aux + 1) s).2))) ∧
    (∀ ridge m, m.sender / 4 = moduleId s → m.receiver = partId s ridge → ringPath s (m.sender % 4) ridge (msgAddr m) = true →
      s.collNet.find? (fun x => x.sender == m.sender && x.receiver == m.receiver && x.group == m.group && x.seq == m.seq) = some m →
      exec (.collectiveMessageReceive ridge m) s = .next ((collReceive ridge m { s with collNet := s.collNet.erase m }).getD s)) ∧
    (∀ ridge m n g r, m.sender / 4 ≠ moduleId s → groupByGid s m.group = some (n, g) → g.members.contains m.sender = true →
      g.members.contains (partId s ridge) = true → collFind s ridge m.group m.seq = some (h, t, k, r) → r.started = true →
      m.digest = none → cOp r.desc ≠ 7 →
      let q := (r.members.idxOf? m.sender).getD 0
      (m.off ≠ gotLen r q m.chunk → exec (.collectiveMessageReceive ridge m) s = .next s) ∧
      (m.off = gotLen r q m.chunk → exec (.collectiveMessageReceive ridge m) s =
        .next (setColl h t { r with got := addGot q m.chunk m.data r.got, tLast := m.stamp } s))) ∧
    (∀ ridge n, n.sender / 4 = moduleId s → n ∈ s.notices → n.receiver = partId s ridge → ringPath s (n.sender % 4) ridge 0 = true →
      exec (.failureNoticeReceive ridge n) s = .next (takeNotice ridge n { s with notices := s.notices.erase n })) ∧
    (∀ ridge n r, n.sender / 4 ≠ moduleId s → collFind s ridge n.group n.seq = some (h, t, k, r) → n.undefinedGroup = false →
      exec (.failureNoticeReceive ridge n) s = .next (collEnd h t stDmaError 0x13 (nextFseq s) (faultRec
        { kind := 0x13, t := stampAt s (16 + k.unit), source := 4, tenant := tenantOfGraph s h, unit := 16 + k.unit, handle := h
          task := t, detail := n.sender / 4 + n.kind % 65536 * 2 ^ 16 + n.fseq % 2 ^ 32 * 2 ^ 32, origin := k.target } s)))

/-! ## Die links, identities and fences -/

/-- A beat that is whole and in order is accepted with what it carries, its parity errors counted; one already accepted is dropped;
any other counts its bad flits and draws one NAK an episode; a port in far-end loopback sends it back. A NAK, and the timer, send
again every beat not acknowledged and change neither credits nor the expected number.
Training: a start counts an attempt and the authoritative end advertises; a port that has used its three attempts is given up; a marker
of the partner that rejects no group brings the authoritative end UP, one that names the groups carried is answered and brings the
other end UP; the far ends of attaches follow. Giving up fences a compute die or a bridge and marks the Col attach down. -/
def Obligations.DieLinks : Prop :=
  (
  ∀ (s : State) (n p : Nat), jxlState s n p = 3 →
    let j := jPort s n p
    (∀ flits, s.test.loops.contains (8 * n + p) = true → exec (.jxlBeatReceive n p flits) s = .next (emitBeat n p j.map flits s)) ∧
    (∀ flits : List (List Byte), s.test.loops.contains (8 * n + p) = false →
      let u := flits.zipIdx.foldl (fun s f => noteParity n p ((j.map[f.2]?).getD f.2) (parityErrors f.1) s) s
      ((∀ l ∈ flits, flitOk l = true) → flits.length = fget s (rJXL_PORT_STATUS n p) fJXL_PORT_STATUS_WIDTH →
        ((∀ l ∈ flits, fTrail l 0 8 = j.expect) → exec (.jxlBeatReceive n p flits) s =
          .next (beatData n p flits (beatAcks n p flits (beatCredits n p flits
            (updJ n p (fun j => { j with expect := (j.expect + 1) % 256, naked := false, heard := j.heard + 1 }) u))))) ∧
        ((∃ l ∈ flits, fTrail l 0 8 ≠ j.expect) → (∀ l ∈ flits, (j.expect + 256 - fTrail l 0 8) % 256 ≤ 64) →
          exec (.jxlBeatReceive n p flits) s = .next u)) ∧
      ((∃ l ∈ flits, flitOk l = false) →
        let v := fcount (rJXL_PORT_ERR n p) fJXL_PORT_ERR_CRC_ERRS (flits.filter (fun l => !flitOk l)).length u
        exec (.jxlBeatReceive n p flits) s =
          .next (if j.naked then v else sendBeat n p [] true (updJ n p (fun j => { j with naked := true }) v)))) ∧
    (∀ ack, exec (.nak n p ack) s = .next (jReplay n p (jAck n p (ack % 256) s))) ∧
    (j.retry ≠ [] → ∃ t, exec (.jxlReplayTimeout n p) s = .next t ∧
      t = { s with regs := t.regs, outputs := t.outputs, jports := t.jports } ∧
      jPort t n p = { j with replays := j.replays + 1 } ∧
      t.outputs = j.retry.reverse.flatMap (fun b => [.wires n p (wireGroups j.map b), .die n p b.flatten]) ++ s.outputs) ∧
    (
      let v := jPump n p (jDrain n p j.rxq.length s)
      exec (.jxlAckTimer n p) s = .next (if (jPort v n p).heard ≠ 0 then sendBeat n p [] false v else v)) ∧
    (∀ cause, retrainCause s n p cause = true → exec (.jxlRetrain n p cause) s = .next (retrain n p s))) ∧
  (
  ∀ (s : State) (n p : Nat), p < 8 →
    let j := jPort s n p
    let st := jxlState s n p
    (jPopulated s n p = true → st < 5 → st ≠ 3 → jClocks s n p = true →
      (3 ≤ j.att → ∀ fs, exec (.jxlTrainStart n p fs) s = .next (jGiveUp n p (if j.inService then 2 else 3) s)) ∧
      (j.att < 3 → isBridge p = false ∨ jPlan s n p = jPlan s (jPartner n p).1 (jPartner n p).2 → ∀ fs,
        let kept := fs.filter (fun g => decide (g < jBump p + (jBump p + 15) / 16))
        let x := if j.inService then 4 else 2
        let v := fset (rJXL_PORT_STATUS n p) fJXL_PORT_STATUS_ATTEMPT (j.att + 1) (jxlSet n p x (updJ n p (fun j => { j with
          att := j.att + 1, own := kept
          failed := if isLead p then j.failed ++ kept.filter (fun g => !j.failed.contains g) else j.failed }) s))
        let w := if p < 3 then fset (rJXL_CD_STATUS (3 * n + p)) fJXL_CD_STATUS_STATE x
          (fset (rJXL_CD_STATUS (3 * n + p)) fJXL_CD_STATUS_ATTEMPT (j.att + 1) v) else v
        exec (.jxlTrainStart n p fs) s = .next (if isLead p then advertise n p w else w))) ∧
    (jPopulated s n p = false ∨ jClocks s n p = false → ∀ fs, exec (.jxlTrainStart n p fs) s = .next s) ∧
    (∀ m, st = 2 ∨ st = 4 → j.att ≠ 0 → flitOk m = true → fTrail m 12 4 = 2 → leAt m 0 2 = 0x4A58 →
      leAt m 3 1 = (if p < 3 then 0 else if p = 5 then 2 else 1) →
      let credits := (List.range 4).map (fun i => leAt m (0x30 + 2 * i) 2)
      let rej := groupBits (j.own.filter (bitOf (leAt m 8 20)))
      (p ≠ 4 → leAt m 2 1 = 1 → leAt m 0x1C 20 = 0 → exec (.jxlMarkerReceive n p m) s = .next (jUp n p (leAt m 7 1) credits s)) ∧
      (p = 4 → leAt m 2 1 = 0 →
        let order := mapOrder p (leAt m 8 20)
        let echo := mkMarker 1 1 (markerIdent s n p) (markerPort s n p) j.att (leAt m 7 1) (leAt m 8 20) rej (ownCredits j.inService)
        let v := emitBeat n p order (List.replicate (leAt m 7 1) echo) (updJ n p (fun j => { j with map := order }) s)
        exec (.jxlMarkerReceive n p m) s =
          .next (if rej = 0 then jUp n p (leAt m 7 1) credits v else if 3 ≤ j.att then jGiveUp n p 3 v else v))) ∧
    (∀ m, flitOk m = false → exec (.jxlMarkerReceive n p m) s = .next s) ∧
    (∀ q m fs, 8 ≤ q → exec (.jxlTrainStart n q fs) s = .next (farStart n q fs s) ∧
      exec (.jxlMarkerReceive n q m) s = .next (farMarker n q m s)) ∧
    (jPopulated s n p = true → 2 ≤ st → st ≤ 4 → exec (.jxlClockLoss n p) s = .next (jGiveUp n p 1 s)) ∧
    (∀ cause v, (p < 3 → jGiveUp n p cause v = fenceStart (3 * n + p) cause v) ∧
      (p = 3 ∨ p = 4 → jGiveUp n p cause v = topoNow (bridgeFence n p cause v)) ∧
      (5 ≤ p → jGiveUp n p cause v = topoNow (jxlSet n p 7 (jStop n p v)))))

/-- Where a base die takes its identity from, and when two sources conflict.
A trigger begins the fence of a unit of the grade, with what stands on it; a fence under way completes with T_FENCE. -/
def Obligations.IdentitiesAndFences : Prop :=
  (
  ∀ (s : State) (q m : Nat) (e : Bool), q < nRidges s →
    let r := rJXL_IDENT q
    let n := if e then (m + 3) % 4 else (m + 1) % 4
    let src := fget s r fJXL_IDENT_SOURCE
    (dieOk s (16 + q) = true → (jPort s q (if e then 3 else 4)).conflict = false →
      (src = 0 ∨ src = 4 → exec (.ident q e m) s = .next (takeIdentity q n (if e then 3 else 2) s)) ∧
      (src ≠ 0 → src ≠ 4 → fget s r fJXL_IDENT_ID = n → exec (.ident q e m) s = .next s) ∧
      (src ≠ 0 → src ≠ 4 → fget s r fJXL_IDENT_ID ≠ n → fget s r fJXL_IDENT_STRAP_OK = 0 → exec (.ident q e m) s =
        .next (linksSettle (conflictDown q (occurs (1 + q) 0 18 (fset r fJXL_IDENT_CONFLICT 1 s)))))) ∧
    (identified s q = false → fget s r fJXL_IDENT_STRAP_OK = 1 →
      exec (.strapIdentityTimeout q) s = .next (takeIdentity q (fget s r fJXL_IDENT_STRAP_ROT) 4 s)) ∧
    (identified s q = false → fget s r fJXL_IDENT_STRAP_OK = 0 →
      exec (.strapIdentityTimeout q) s = .next (occurs (1 + q) 0 20 (fset r fJXL_IDENT_FAILED 1 { s with
        boot := { s.boot with stable := s.boot.stable.filter (fun b => !unitBlocks (16 + q) b) } }))) ∧
    (identified s q = true →
      let v := topoSet fMGT_TOPOLOGY_STOLON_UP q true s
      exec (.stolonIdentityReport q) s = .next (if fget v r fJXL_IDENT_ID = q then v
        else fenceStart (16 + q) 6 (occurs (1 + q) 0 18 (fset r fJXL_IDENT_CONFLICT 1 v))))) ∧
  (
  ∀ (s : State) (u : Nat),
    (∀ cause, isUnitCode s u = true → exec (.fenceTrigger u cause) s = .next (fenceStart u (causeCode cause) s)) ∧
    (∀ cause, isUnitCode s u = false → exec (.fenceTrigger u cause) s = .next s) ∧
    ((dieOf s u).st ≠ 1 → exec (.fenceComplete u) s = .next s) ∧
    ((dieOf s u).st = 1 →
      let v := topoNow ((fenceSet u).foldl fencedOne s)
      let w := answerAll 0x903 (fun w => w.keys == [u]) (fun _ => (0, 0, (dieOf v u).tFence, [])) v
      exec (.fenceComplete u) s = .next (flushWaits (answerAll 0x904 (fun w => match w.keys with
        | [k] => (fenceSet u).contains k
        | _ => false) (fun _ => (rsPathLost, u, (dieOf w u).tFence, [])) w))))

/-! ## Sites, lasers and rings -/

/-- What each sideband exchange does to a site: a module's training, IDENT_Q, PARAM_SET, register access, STATUS_Q, TEMP_FF,
blanking; an engine that answers late or outside what is permitted is refused, a site that loses the sidebands of modules 0 and 1 is
fenced.
The active laser and its spare: ten low samples running are an abrupt failure; the spare warms, locks and stands by or
fails; the selector turns at a block boundary and the transmitters resume. -/
def Obligations.SitesAndLasers : Prop :=
  (
  ∀ (s : State) (n k : Nat), n < nRidges s → k < 4 →
    let g := 4 * n + k
    let r := rUCI_SITE_STATUS n k
    let st := siteState s g
    (∀ m rate, m < 8 → st < 4 → s.boot.stable.contains (.porger g) = true →
      exec (.ucieModuleTrain n k m rate) s = .next (fsetBit r fUCI_SITE_STATUS_MOD_UP m (rate == 16 || rate == 8)
        (fsetBit r fUCI_SITE_STATUS_MOD_HALF m (rate == 8) (updPorger g (fun x => { x with sbDown := withField x.sbDown m 1 0 })
          (if st = 0 then fset r fUCI_SITE_STATUS_STATE 1 s else s))))) ∧
    (∀ answer, st = 1 →
      let v := emit (.sideband g 0 []) s
      let code := leAt answer 0 1
      exec (.identQ n k answer true) s = .next (refuseEngine g v) ∧
      exec (.identQ n k answer false) s = .next (if answer.length = 32 ∧ (code = 1 ∨ 0x80 ≤ code) then
        fset r fUCI_SITE_STATUS_STATE 2 (fset r fUCI_SITE_STATUS_ENGINE code v) else refuseEngine g v)) ∧
    (∀ a : ParamAnswer, st = 2 →
      let v := emit (.sideband g 1 []) s
      (a.late = true ∨ paramsPermitted a = false → exec (.paramSet n k a) s = .next (refuseEngine g v)) ∧
      (a.late = false → paramsPermitted a = true → a.accepted = false → exec (.paramSet n k a) s = .next v) ∧
      (a.late = false → paramsPermitted a = true → a.accepted = true → (dieOf s (80 + g)).st = 0 →
        ∃ t, exec (.paramSet n k a) s = .next t ∧ t = { v with regs := t.regs, porgers := t.porgers, fuses := t.fuses } ∧
          siteState t g = 3 ∧ (porgerOf t g).ports = a.ports ∧
          ∀ p < 8, bitOf a.ports p = true → fbit s r fUCI_SITE_STATUS_MOD_UP p = true → lineState t g p = 2)) ∧
    (∀ addr, 1 ≤ st → st ≤ 3 →
      let a := oeA g (addr % 0x4000000)
      exec (.regRd g addr true) s = .next (refuseEngine g (sideMsg false a 0 s)) ∧
      exec (.regRd g addr false) s = .next (emit (.reg a (devRead a s).1) (devRead a s).2) ∧
      ∀ x : Word32, exec (.regWr g addr x true) s = .next (refuseEngine g (sideMsg true a x.toNat s)) ∧
        exec (.regWr g addr x false) s = .next (devWrite a x s)) ∧
    (∀ temp, st = 3 →
      exec (.statusQ g temp true) s = .next (refuseEngine g (emit (.sideband g 4 []) s)) ∧
      exec (.statusQ g temp false) s = .next (updPorger g (fun x => { x with
        temp := temp, hold := x.hold || fget s (rPRG_LASER_EVT g) fPRG_LASER_EVT_SWITCH_REQ == 1 }) (emit (.sideband g 4 []) s))) ∧
    (∀ t : Int, st = 3 →
      let v := emit (.sideband g 5 []) s
      let ff := rPRG_FF_CTRL g
      ((porgerOf s g).ffOn = false → exec (.tempFf g t) s = .next v) ∧
      ((porgerOf s g).ffOn = true → fget s ff fPRG_FF_CTRL_TAU = 0 ∨ (porgerOf s g).lag = t →
        let w := updPorger g (fun x => { x with sensor := t, lag := t }) v
        exec (.tempFf g t) s = .next (if fget s ff fPRG_FF_CTRL_EN = 1 then emit (.heaters g ((porgerOf s g).base.map (fun b =>
          (b.1, -((fget s ff fPRG_FF_CTRL_GAIN : Int) * (t - b.2)))))) w else w))) ∧
    (st = 3 → (porgerOf s g).blanked = false → (porgerOf s g).gap = false → ∃ t, exec (.blank g false) s = .next t ∧ (porgerOf t g).blanked = true ∧
      t = { s with regs := t.regs, porgers := t.porgers } ∧ ∀ p < 8, lineState t g p = if lineState s g p = 0 then 0 else 7) ∧
    ((porgerOf s g).blanked = true → ∃ t, exec (.unblank g) s = .next t ∧ (porgerOf t g).blanked = false ∧
      t = { s with regs := t.regs, porgers := t.porgers, outputs := .sideband g 7 [] :: s.outputs } ∧
      ∀ p < 8, lineState t g p = if lineState s g p = 7 then (((porgerOf s g).prev[p]?).getD 1) % 8 else lineState s g p) ∧
    (st ≠ 5 → exec (.engineRefused n k) s = .next (refuseEngine g s)) ∧
    (∀ m, m < 8 →
      let v := updPorger g (fun x => { x with sbDown := x.sbDown ||| 2 ^ m }) s
      exec (.sidebandLost n ⟨k, m⟩) s = .next (if (porgerOf v g).sbDown % 4 = 3 then
        fenceStart (80 + g) 1 (occurs (1 + n) 2 (4 + k) v) else v))) ∧
  (
  ∀ (s : State) (k : Nat), k < nSites s →
    let x := porgerOf s k
    let st := spareState s k
    (∀ level : Int, siteState s k = 3 →
      let low := if level < -600 then x.low + 1 else 0
      let v := updPorger k (fun x => { x with samples := (level :: x.samples).take 1024, low := low }) s
      let w := occurs (32 + k) 0 6 (laserEvt k fPRG_LASER_EVT_ABRUPT v)
      (low ≠ 10 → exec (.laserMonitorSample k level) s = .next v) ∧
      (low = 10 → spareState w k = 3 →
        exec (.laserMonitorSample k level) s = .next (updPorger k (fun x => { x with go := true, hold := true }) w)) ∧
      (low = 10 → 4 ≤ spareState w k → exec (.laserMonitorSample k level) s = .next (laserLost k w))) ∧
    (siteState s k = 3 → x.samples ≠ [] → -60 < meanOf x.samples →
      exec (.fadeUpdate k) s = .next (updPorger k (fun x => { x with warn := false })
        (fset (rPRG_LASER_STATUS k) fPRG_LASER_STATUS_FADE (wrap 12 (max (-2048) (min 2047 (meanOf x.samples)))) s))) ∧
    (siteState s k = 3 → x.samples ≠ [] → meanOf x.samples ≤ -80 → -150 < meanOf x.samples → x.warn = false →
      exec (.fadeUpdate k) s = .next (occurs (32 + k) 0 0 (laserEvt k fPRG_LASER_EVT_WARN
        (updPorger k (fun x => { x with warn := true })
          (fset (rPRG_LASER_STATUS k) fPRG_LASER_STATUS_FADE (wrap 12 (max (-2048) (min 2047 (meanOf x.samples)))) s))))) ∧
    (st = 1 → exec (.spareWarmDone k) s = .next (setSpareState k 2 s)) ∧
    (∀ fade, st = 2 →
      let v := fset (rPRG_LASER_STATUS k) fPRG_LASER_STATUS_SPARE_FADE (wrap 12 (max (-2048) (min 2047 fade))) (setSpareState k 3 s)
      (x.abrupt = true → exec (.spareStandby k fade) s = .next (updPorger k (fun x => { x with go := true, hold := true }) v)) ∧
      (x.abrupt = false → -250 < fadeOf v k → v.waits.any (fun w => w.op == 0x509 && w.keys == [k]) = false →
        exec (.spareStandby k fade) s = .next v)) ∧
    (st = 1 ∨ st = 2 →
      let v := occurs (32 + k) 0 3 (laserEvt k fPRG_LASER_EVT_SPARE_FAILED (setSpareState k 4 s))
      let w := answerLaser k rsState (fuseSpareBad k v)
      exec (.spareFailed k) s = .next (if (porgerOf v k).abrupt ∨ fadeOf w k ≤ -250 then laserLost k w else w)) ∧
    (x.go = true → st = 3 → x.blanked = false → substPending s k = false →
      let r := rPRG_LASER_STATUS k
      let v := fset r fPRG_LASER_STATUS_SPARE_FADE 0 s
      let w := fset r fPRG_LASER_STATUS_ACTIVE (1 - fget s r fPRG_LASER_STATUS_ACTIVE) (setSpareState k 5 v)
      let y := updPorger k (fun x => { x with
        go := false, hold := true, gap := true, abrupt := false, samples := [], low := 0, warn := false }) w
      let z := occurs (32 + k) 0 2 (fset (rPRG_LASER_EVT k) fPRG_LASER_EVT_SWITCH_REQ 0 (laserEvt k fPRG_LASER_EVT_SWITCHED (fuseSwitched k y)))
      exec (.laserSwitchover k) s = .next (onPorts (fun p v => if bitOf x.ports p then traceLink (8 * k + p) 4 v else v) z)) ∧
    (∀ gap, x.gap = true →
      let v := fset (rPRG_LASER_EVT k) fPRG_LASER_EVT_GAP_NS (min 65535 gap) (updPorger k (fun x => { x with gap := false, hold := false }) s)
      exec (.switchoverResume k gap) s = .next (answerLaser k 0 (onPorts (fun p v =>
        let v := if lineState v k p = 1 ∨ lineState v k p = 6 then
          setLine k p (if (portTenant v (8 * k + p)).isSome then 3 else 4) v else v
        if portState v (8 * k + p) = 3 then (List.range 16).foldl (fun v l => replay (8 * k + p) l (fun _ => true) v) v else v) v))))

/-- Rings, wavelengths and receivers of a port: slips, relocks, failures, spare wavelengths, loss and return of light, freezes,
eye scans and the steps of acquisition. -/
def Obligations.RingsAndReceivers : Prop :=
  ∀ (s : State) (k p x : Nat) (rx : Bool), k < nSites s → p < 8 →
    let r := rPRG_WL_RING k p x
    let runs := lineRuns s k p = true ∧ x < 18
    let lit := bitOf (losBits s k p) x = false
    (runs → fget s r (lockFld rx) = 2 →
      exec (.ringSlip k p x rx) s = .next (occurs (32 + k) 1 (4 * p + 1) (fcount (rPRG_PORT_EVT k p) fPRG_PORT_EVT_SLIPS 1
        (prgEvt k p fPRG_PORT_EVT_SLIP (fset r (lockFld rx) 1 s))))) ∧
    (x < 18 → fget s r (lockFld rx) = 1 → (porgerOf s k).gap = false →
      (∀ heat, exec (.ringRelock k p x rx heat) s = .next (fset r (heatFld rx) heat (fset r (lockFld rx) 2 s))) ∧
      (let v := occurs (32 + k) 1 (4 * p + 2) (prgEvt k p fPRG_PORT_EVT_RING_FAIL (fset r (lockFld rx) 3 s))
       exec (.ringFail k p x rx) s = .next ((startSubst (8 * k + p) x v).getD v))) ∧
    (∀ ws < 2, lineRuns s k p = true → spareStream s (8 * k + p) (16 + ws) = none →
      exec (.spareWlBad k p ws) s = .next (occurs (32 + k) 0 8 (prgEvt k p fPRG_PORT_EVT_SPARE_WL_BAD
        (fset (rPRG_WL_SUB k p) (if ws = 0 then fPRG_WL_SUB_WS0_BAD else fPRG_WL_SUB_WS1_BAD) 1 s)))) ∧
    (runs → lit → exec (.lossOfSignal k p x) s = .next (occurs (32 + k) 1 (4 * p) (prgEvt k p fPRG_PORT_EVT_LOS
      (fset (rPRG_WL_MON k p x) fPRG_WL_MON_RX_PWR 0x8000
        (updPorger k (fun y => { y with los := Mp.put 0 y.los p (losBits s k p ||| 2 ^ x) }) s))))) ∧
    (∀ ns, bitOf (losBits s k p) x = true → ∃ t, exec (.signalReturn k p x ns) s = .next t ∧ bitOf (losBits t k p) x = false ∧
      t = { s with regs := t.regs, porgers := t.porgers, freeCtr := t.freeCtr } ∧
      (1000000 < ns → fget t r fPRG_WL_RING_RX_LOCK = 2)) ∧
    (runs → x < 16 → portState s (8 * k + p) = 3 → bitOf (portOf s (8 * k + p)).active x = true → bitOf (losBits s k p) x = true →
      (∀ y < 16, y ≠ x → bitOf (portOf s (8 * k + p)).active y = true → bitOf (losBits s k p) y = false) →
      exec (.lossOfSignal1Ms k p x) s = .next ((startSubst (8 * k + p) x s).getD (portDrop (8 * k + p) s))) ∧
    (runs → exec (.adaptationFreeze k p x) s = .next (fset r fPRG_WL_RING_FROZEN 1 s)) ∧
    (∀ m : Word32, runs → lit → exec (.eyeScanPass k p x m) s = .next (regPut (rPRG_EYE k p x) (BitVec.ofNat 64 m.toNat) s)) ∧
    (∀ fade, siteState s k = 3 → ∃ t, exec (.siteAcquireLaserLocked k fade) s = .next t ∧
      t = { s with regs := t.regs, freeCtr := t.freeCtr } ∧ fadeOf t k = max (-2048) (min 2047 fade)) ∧
    (x < 18 → lineState s k p = 2 → ∃ t, exec (.siteAcquireRings k) s = .next t ∧
      t = { s with regs := t.regs, porgers := t.porgers, freeCtr := t.freeCtr } ∧ fget t r fPRG_WL_RING_TX_LOCK = 2) ∧
    (lineState s k p = 2 → fget s (rPRG_WL_RING k p 0) fPRG_WL_RING_TX_LOCK = 2 → 2 ≤ portState s (8 * k + p) →
      ∃ t, exec (.receiversAdapted k p) s = .next t ∧ t = { s with regs := t.regs, porgers := t.porgers, freeCtr := t.freeCtr } ∧
        lineState t k p = (if (portTenant s (8 * k + p)).isSome then 3 else 4))

/-! ## The fabric link layer -/

/-- Packets: a lane's next packet starts with its sequence number and stands in the replay buffer; ACK retires, RXSTAT notes
and a NAK resends; a packet in order is queued and executed, one with a bad check is counted and rejected. -/
def Obligations.FabricPackets : Prop :=
  ∀ (s : State) (p l : Nat), portCarries s p = true →
    (∀ turns pk rest, portLit s p = true → arbitrate (portView s p) l = some turns →
      (Mp.get {} (portView s p).lanes l).wait = pk :: rest →
      let ln := Mp.get {} (portOf s p).lanes l
      let q := { pk with seq := ln.next % 2 ^ 24 }
      let y := { ln with next := ln.next + 1, wait := ln.wait.erase pk, replay := ln.replay ++ [q], sent := ln.sent + q.units }
      let o := strikeData p q.bytes s
      exec (.fabricPacketSend p l) s = .next (heldReg p (sendOnLane p l q.sop o.1
        (setPort p { portOf s p with lanes := Mp.put {} (portOf s p).lanes l y, turns := Mp.upd 0 turns l (· + 1) } o.2)))) ∧
    (∀ consumed limit, exec (.ack p l consumed limit) s = .next (heldReg p (updLane p l (fun x => { x with
      replay := x.replay.filter (fun k => seqLater k.seq consumed)
      limit := if seqLater limit x.limit then limit % 2 ^ 24 else x.limit }) s))) ∧
    (∀ accepted,
      let v := updLane p l (fun x => { x with seen := if seqLater accepted x.seen then accepted % 2 ^ 24 else x.seen }) s
      exec (.rxstat p l accepted false) s = .next v ∧
      exec (.rxstat p l accepted true) s = .next (replay p l (fun k => seqLater k.seq accepted) v)) ∧
    (∀ k rest, (laneOf s p l).replay = k :: rest → seqLater k.seq (laneOf s p l).seen = true →
      exec (.fabricReplayTimeout p l) s = .next (replay p l (fun _ => true) s)) ∧
    (∀ sop body k, portCarries (thaw p s) p = true → parsePkt sop body = some k →
      k.seq = ((laneOf (thaw p s) p k.lane).accepted + 1) % 2 ^ 24 →
      exec (.fabricPacketReceive p sop body) s = .next (laneDrain p k.lane ((laneOf (thaw p s) p k.lane).queue.length + 1)
        (updLane p k.lane (fun x => { x with
          accepted := k.seq, discard := false, queue := x.queue ++ [k], lastRx := portNow (thaw p s) p }) (thaw p s)))) ∧
    (∀ sop body, portCarries (thaw p s) p = true → parsePkt sop body = none →
      exec (.fabricPacketReceive p sop body) s =
        .next (rejectPkt p (leAt sop 3 1 % 16) (fcount (rFLK_PORT_ERR (pN p) (pQ p)) fFLK_PORT_ERR_CRC_ERRS 1 (thaw p s)))) ∧
    (let v := laneDrain p l ((laneOf s p l).queue.length) s;
      exec (.fabricAckTimer p l) s = .next (if portCarries v p then laneReports p l v else v))

/-- The LINK exchanges: HELLO_A and HELLO_B of a training port, the agreed changes and when they are made, TEST, MON, TIME and
the repetition of what is not answered; drops, retraining and block lock. Whether a partner that this end has not recorded
holds a record itself is a free bit. -/
def Obligations.FabricLinkExchanges : Prop :=
  ∀ (s : State) (p : Nat), isPort s p = true →
    let x := portOf s p
    let st := portState s p
    (∀ idSet id pp half pam4, st = 2 →
      (pam4 ≠ ownPam4 s p → exec (.helloA p idSet id pp half pam4) s = .next (modMismatch p s)) ∧
      (pam4 = ownPam4 s p →
        let v := fset (rFLK_PORT_STATUS (pN p) (pQ p)) fFLK_PORT_STATUS_PAM4 (b2n pam4) s
        exec (.helloA p idSet id pp half pam4) s = .next (sendHelloB p (sendHelloA p
          (updPort p (fun x => { x with helloA := some (if idSet then id else 16384, pp, half, pam4) })
            (setHalf p (half || wantHalf v p) v)))))) ∧
    (∀ inc ses id pp half pam4, st = 2 → x.helloA = some (id, pp, half, pam4) →
      (x.partner = some (id, pp, inc, ses) → exec (.helloB p inc ses) s = .next (portUp p s)) ∧
      (∀ old, x.partner = some old → old ≠ (id, pp, inc, ses) → exec (.helloB p inc ses) s =
        .next (traceLink p 2 (occurs (1 + pN p) 4 0 (portEvt p fFLK_PORT_EVT_PARTNER_CHANGED (setPortState p 4 s))))) ∧
      (x.partner = none →
        let f := rFLK_PORT_STATUS (pN p) (pQ p)
        exec (.helloB p inc ses) s = .next (if freeVal 30 s % 2 = 1 then nextFree s else
          portUp p (updPort p (fun x => { x with partner := some (id, pp, inc, ses) })
            (fset f fFLK_PORT_STATUS_PARTNER_V 1 (fset f fFLK_PORT_STATUS_PARTNER (id % 16384) (nextFree s))))))) ∧
    (∀ half m, st = 3 →
      let c : LinkChange := ⟨3, b2n (half || wantHalf s p), 0, m % 2 ^ 32⟩
      exec (.mode p half m) s = .next (if hasAsked s p 3 c.m then agree p c s else agree p c (sendLink p 3 (linkFields c) s))) ∧
    (∀ w sp m, st = 3 → hasAsked s p 4 (m % 2 ^ 32) = false →
      let c : LinkChange := ⟨4, w, sp, m % 2 ^ 32⟩
      exec (.subst p w sp m) s = .next (if sp = 0xFF ∨ ((sp = 16 ∨ sp = 17) ∧ spareFree s p sp = true ∧ w < 16) then
        agree p c (sendLink p 4 (linkFields c) s) else sendLink p 4 (linkFields { c with b := 0xFE }) s)) ∧
    (∀ set m, st = 3 →
      let c : LinkChange := ⟨5, set % 65536, 0, m % 2 ^ 32⟩
      exec (.stripe p set m) s = .next (if hasAsked s p 5 c.m then agree p c s
        else if portNeed s p ||| c.a = c.a then agree p c (sendLink p 5 (linkFields c) s)
        else askChange p 5 (portNeed s p ||| c.a) 0 s)) ∧
    (∀ w bip count, st = 3 → bitOf x.active w = true →
      let due := x.changes.filter (fun c => c.m == count % 2 ^ 32)
      exec (.align p w bip count) s = .next (due.foldl (fun v c => makeChange p c v) (updPort p (fun x => { x with
        marker := count % 2 ^ 32, changes := x.changes.filter (fun c => c.m != count % 2 ^ 32) }) s))) ∧
    (∀ y pwr, exec (.mon p y pwr) s = .next (updPort p (fun x => { x with partnerPwr := Mp.put 0 x.partnerPwr y pwr }) s)) ∧
    (∀ enter,
      let v := updPort p (fun x => { x with asked := x.asked.filter (fun c => c.sub != 7) }) s
      let w := if x.asked.any (fun c => c.sub == 7) then v else sendLink p 7 [(1, b2n enter)] v
      let r := rPRG_PORT_STATUS (pK p) (pP p)
      (st = 3 → enter = true → exec (.test p enter) s = .next (fset r fPRG_PORT_STATUS_STATE 5 (setPortState p 5 w))) ∧
      (st = 5 → enter = false → exec (.test p enter) s = .next (portTrain p (fset r fPRG_PORT_STATUS_STATE 3 w)))) ∧
    (st = 2 → exec (.linkExchangeRepeat p) s = .next (sendHelloB p (sendHelloA p s))) ∧
    (∀ t, x.lock ≠ 0 → exec (.time p t) s =
      .next (updPort p (fun x => { x with timeIn := t % 2 ^ 56, timeArr := portNow s p - rxLatency s p }) s)) ∧
    (x.lock ≠ 0 → isSafe s = false → st ≠ 5 →
      let t := (portNow s p + txLatency s p) % 2 ^ 56
      exec (.timeBlockSend p) s = .next (sendLowest p (ctlBytes [(1, 0x78), (7, t)]) (updPort p (fun x => { x with timeOut := t }) s))) ∧
    (∀ w, st = 3 → bitOf x.active w = true → exec (.streamErrorRatioExceeded p w) s = .next ((startSubst p w s).getD s)) ∧
    (∀ w < 16, exec (.blockLockLoss p w) s = .next (updPort p (fun x => { x with lock := withField x.lock w 1 0 }) s) ∧
      exec (.blockLock p w) s = .next (updPort p (fun x => { x with lock := withField x.lock w 1 1 }) s)) ∧
    (∀ cause ∈ [DownCause.replays, .laserLost, .siteLost], exec (.linkDown p cause) s = .next (portDrop p s)) ∧
    exec (.linkDown p .modulation) s = .next (modMismatch p s) ∧
    (x.lock &&& x.active = 0 → exec (.linkDown p .allLock) s = .next (portDrop p s)) ∧
    (∀ w, bitOf x.active w = true → bitOf x.lock w = false → x.asked.any (fun c => c.sub == 4 && c.a == w) = false →
      exec (.linkDown p (.oneLock w)) s = .next ((startSubst p w s).getD (portDrop p s))) ∧
    (st = 1 → x.lock ≠ 0 → isSafe s = false → exec (.fabricRetrainAttempt p) s = .next (portTrain p s))

/-! ## Power, clocks and temperature -/

/-- The input monitor, the slow signal and the power cap: a sag below 38.0 V and an overcurrent each begin an episode that is
stamped, counted, traced and halves every core clock; an episode ends once its condition has gone; above the cap every die
with a bound core loses 50 MHz, below 97 % of it each gains 50 MHz. The typical thresholds are the model's choice (log
entry 45).
Core sleep and wake, droop stretching and a lost clock: a bound core without a task sleeps; a core that wakes runs at the
frequency its die's limits give; each stretched episode is counted once, and once more as deep. -/
def Obligations.PowerAndClocks : Prop :=
  (
  ∀ s : State,
    let begins (cause extreme : Nat) (v : State) : State :=
      let v := regPut rPWR_SAG_START (BitVec.ofNat 64 (stampAt v 64)) (regPut rPWR_SAG_END 0#64 v)
      let v := fset rPWR_SAG_INFO fPWR_SAG_INFO_EXTREME extreme (fset rPWR_SAG_INFO fPWR_SAG_INFO_CAUSE cause v)
      allClocks (tracePower 1 (occurs 0 0 cause
        (fset rPWR_STATUS (if cause = 0 then fPWR_STATUS_SAG_SEEN else fPWR_STATUS_OC_SEEN) 1
          (fset rPWR_STATUS fPWR_STATUS_SLOW 1 (fcount rPWR_STATUS fPWR_STATUS_SAG_COUNT 1 v)))))
    let ended (cause : Nat) (v : State) : State := tracePower 2
      (if fget v rPWR_SAG_INFO fPWR_SAG_INFO_CAUSE = cause then regPut rPWR_SAG_END (BitVec.ofNat 64 (stampAt v 64)) v else v)
    let release (v : State) : State :=
      if fget v rPWR_STATUS fPWR_STATUS_SLOW = 1 then allClocks (fset rPWR_STATUS fPWR_STATUS_SLOW 0 v) else v
    let read (mv ma : Nat) : State := updPwr (fun p => { p with vin := mv, iin := ma, energy := p.energy + mv * ma }) s
    let cap := 1000 * capNow s
    let lim (v : State) (d : Nat) : Nat := fget v (rTHM_CD_STATUS d) fTHM_CD_STATUS_POWER_LIMIT
    (∀ mv ma, 38000 ≤ mv → mv ≤ 48500 → s.pwr.sag = false → s.pwr.overI = false →
      exec (.inputMonitorSample mv ma) s = .next (read mv ma)) ∧
    (∀ mv ma, mv < 38000 → s.pwr.sag = true → fget s rPWR_SAG_INFO fPWR_SAG_INFO_CAUSE = 0 →
      exec (.inputMonitorSample mv ma) s = .next (fset rPWR_SAG_INFO fPWR_SAG_INFO_EXTREME
        (min (fget s rPWR_SAG_INFO fPWR_SAG_INFO_EXTREME) (mv / 10)) (read mv ma))) ∧
    (∀ mv ma, mv < 38000 → s.pwr.sag = false →
      let v := begins 0 (mv / 10) (updPwr (fun p => { p with sag := true }) (read mv ma))
      ∃ e, exec (.inputMonitorSample mv ma) s = .next (fset rPWR_SAG_INFO fPWR_SAG_INFO_EXTREME e v)) ∧
    (s.pwr.overI = false → exec .overcurrent s =
      .next (begins 1 (min 65535 (s.pwr.iin / 10)) (updPwr (fun p => { p with overI := true }) s))) ∧
    (s.pwr.sag = true → s.pwr.overI = false → 39000 < s.pwr.vin →
      exec .slowRelease s = .next (release (ended 0 (updPwr (fun p => { p with sag := false }) s)))) ∧
    (s.pwr.sag = false → s.pwr.overI = true → s.pwr.iin < (if s.fuses.a12 then 135000 else 68000) →
      exec .slowRelease s = .next (release (ended 1 (updPwr (fun p => { p with overI := false }) s)))) ∧
    (s.pwr.sag = true → s.pwr.overI = false → s.pwr.vin ≤ 39000 → exec .slowRelease s = .next s) ∧
    (∀ meanMw,
      (cap < meanMw → (∃ d ∈ boundDies s, 8 < lim s d) → ∃ t, exec (.powerCapStep meanMw) s = .next t ∧
        t = { s with regs := t.regs, pwr := { s.pwr with mean := meanMw, unreach := false } } ∧
        ∀ d < 12, lim t d = if d ∈ boundDies s then max 8 (lim s d - 1) else lim s d) ∧
      (cap < meanMw → boundDies s ≠ [] → (∀ d ∈ boundDies s, lim s d ≤ 8) → ∃ t, exec (.powerCapStep meanMw) s = .next t ∧
        t.pwr = { s.pwr with mean := meanMw, unreach := true }) ∧
      (100 * meanMw < 97 * cap → ∃ t, exec (.powerCapStep meanMw) s = .next t ∧
        t = { s with regs := t.regs, pwr := { s.pwr with mean := meanMw, unreach := false } } ∧
        ∀ d < 12, lim t d = if d ∈ boundDies s ∧ lim s d < fget s rPWR_PROFILE fPWR_PROFILE_CLK_CEIL then lim s d + 1 else lim s d) ∧
      (97 * cap ≤ 100 * meanMw → meanMw ≤ cap → exec (.powerCapStep meanMw) s =
        .next (updPwr (fun p => { p with mean := meanMw, unreach := false }) (fset rPWR_PROFILE fPWR_PROFILE_CAP_W (capNow s) s))))) ∧
  (
  ∀ (s : State) (c : Nat), c < nCores s →
    let d := c / 16
    let f := rCLK_CORE_FREQ d (c % 16)
    let dr := rTHM_CD_DROOP d
    let was := (coreOf s c).stretch
    (coreState s c = 2 → (coreOf s c).task = none → exec (.coreIdleSleep c) s = .next (fset (bindReg c) fTSC_CORE_BIND_SLEEP 1 s)) ∧
    (coreState s c ≠ 2 → exec (.coreIdleSleep c) s = .next s) ∧
    (droopRun s c = false → coreState s c = 1 → fget s (bindReg c) fTSC_CORE_BIND_SLEEP = 1 → ∃ t, exec (.coreWakeComplete c) s = .next t ∧
      t = { s with regs := t.regs } ∧ fget t (bindReg c) fTSC_CORE_BIND_SLEEP = 0 ∧ fget t f fCLK_CORE_FREQ_ON = 1 ∧
      fget t f fCLK_CORE_FREQ_MHZ = 50 * dieLimit s d ∧ fget t f fCLK_CORE_FREQ_HALVED = fget s rPWR_STATUS fPWR_STATUS_SLOW ∧
      fget t (rTHM_CD_STATUS d) fTHM_CD_STATUS_VCORE = vcoreFor (dieLimit s d)) ∧
    (was = none → exec (.droopStretch c false) s =
      .next (updCore c (fun k => { k with stretch := some false }) (fcount dr fTHM_CD_DROOP_EPISODES 1 s))) ∧
    (was = some false → exec (.droopStretch c true) s = .next (updCore c (fun k => { k with stretch := some true })
      (occur (8 + d) 1 2 c false (fcount dr fTHM_CD_DROOP_DEEP 1 s)))) ∧
    (was = none → exec (.droopStretch c true) s = .next (updCore c (fun k => { k with stretch := some true })
      (occur (8 + d) 1 2 c false (fcount dr fTHM_CD_DROOP_DEEP 1 (fcount dr fTHM_CD_DROOP_EPISODES 1 s))))) ∧
    exec (.droopRecover c) s = .next (updCore c (fun k => { k with stretch := none }) s) ∧
    (∀ b : Block,
      let v := { s with boot := { s.boot with stable := s.boot.stable.filter (· != b) } }
      (∀ u < nDies s, b = .compute u → exec (.clockGoodLoss b) s = .next (occurs (8 + u) 1 3 (fenceStart u 1 v))) ∧
      (∀ n < nRidges s, b = .base n → exec (.clockGoodLoss b) s = .next (occurs (1 + n) 5 2 (fenceStart (16 + n) 1 v))) ∧
      (∀ k < nSites s, b = .porger k → exec (.clockGoodLoss b) s = .next (fenceStart (80 + k) 1 v)) ∧
      (b = .col → exec (.clockGoodLoss b) s = .next (colLost v)) ∧
      (b = .core c → exec (.clockGoodLoss b) s = .next (fset f fCLK_CORE_FREQ_ON 0 v))))

/-- Temperatures: a sample shows in T_MAX; a die at its throttle threshold lowers its ceiling by 100 MHz a step, no lower than
400 MHz, and raises it again once cool; a trip is raised and fences the die; each 100 µs central mode moves each die's
ceiling toward its target; in stacked mode a band sets the ceiling. -/
def Obligations.Temperatures : Prop :=
  ∀ (s : State) (d : Nat), d < nDies s →
    let r := rTHM_CD_STATUS d
    let noted (v : State) (t : Int) : State := fset r fTHM_CD_STATUS_T_MAX (wrap 8 t) (updPwr (fun p => { p with temps := Mp.ins p.temps d t }) v)
    let th : Int := (fieldOf s.pwr.thm 16 8 : Nat)
    let down (v : State) : State :=
      dieClocks d (fset r fTHM_CD_STATUS_LOCAL_CEIL (max 8 (fget v r fTHM_CD_STATUS_LOCAL_CEIL - 2)) v)
    let ceil (v : State) (u : Nat) : Nat := fget v (rTHM_CD_STATUS u) fTHM_CD_STATUS_THERMAL_CEIL
    let tcd : Int := (fieldOf (regVal s rTHM_CTRL).toNat 24 8 : Nat)
    let tbd : Int := (fget s rTHM_BD_CTRL fTHM_BD_CTRL_BD_TARGET : Nat)
    let baseHot (u : Nat) : Prop := dieOk s (16 + u / 3) = true ∧ tbd < tempOf s (16 + u / 3)
    (∀ t, exec (.temperatureSample d t) s = .next (noted s t)) ∧
    (∀ u t, hasSensor s u = false → exec (.temperatureSample u t) s = .next s) ∧
    (tempOf s d < th → exec (.localThrottleStep d) s = .next s) ∧
    (dieOk s d = true → th ≤ tempOf s d → s.pwr.hot.contains d = true →
      exec (.localThrottleStep d) s = .next (down (fset r fTHM_CD_STATUS_THROTTLED 1 s))) ∧
    (dieOk s d = true → th ≤ tempOf s d → s.pwr.hot.contains d = false →
      exec (.localThrottleStep d) s = .next (down (fset r fTHM_CD_STATUS_THROTTLED 1
        (tracePower 3 (occurs (8 + d) 1 1 (updPwr (fun p => { p with hot := d :: p.hot }) s)))))) ∧
    (tempOf s d < th - 5 → s.pwr.hot.contains d = true → s.pwr.hot.contains (16 + d / 3) = false →
      let v := tracePower 4 (updPwr (fun p => { p with hot := p.hot.filter (· != d) }) s)
      exec (.localThrottleReleaseStep d) s = .next
        (dieClocks d (fset r fTHM_CD_STATUS_LOCAL_CEIL (min 40 (fget v r fTHM_CD_STATUS_LOCAL_CEIL + 2)) v))) ∧
    (th - 5 ≤ tempOf s d → exec (.localThrottleReleaseStep d) s = .next s) ∧
    (exec (.trip d) s = .next (fenceStart d 5 (occurs (8 + d) 1 0 (noted s (max 115 (tempOf s d)))))) ∧
    (exec (.trip 64) s = .next (occurs 0 0 5 (updPwr (fun p => { p with temps := Mp.ins p.temps 64 (max 115 (tempOf s 64)) }) s))) ∧
    (∀ raise, fget s rPWR_STATUS fPWR_STATUS_STACKED = 0 → s.pwr.stacked = false → ∃ t,
      exec (.thermalControlStep raise) s = .next t ∧ t = { s with regs := t.regs, pwr := t.pwr } ∧ t.pwr.thm = (regVal s rTHM_CTRL).toNat ∧
      (dieOk s d = true → tcd < tempOf s d → ¬ baseHot d → ceil t d = max 8 (ceil s d - 1)) ∧
      (dieOk s d = true → tcd < tempOf s d → baseHot d → ceil t d = max 8 (max 8 (ceil s d - 1) - 1)) ∧
      (dieOk s d = true → raise = true → tempOf s d + 2 ≤ tcd → ¬ baseHot d → ceil t d = min 40 (ceil s d + 1)) ∧
      (dieOk s d = true → raise = false → tempOf s d ≤ tcd → ¬ baseHot d → ceil t d = ceil s d)) ∧
    (∀ t held,
      let v := updPwr (fun p => { p with under := Mp.ins p.under d t }) s
      let cur := Mp.get 0 s.pwr.band d
      let band (b : Nat) : State := dieClocks d (fset r fTHM_CD_STATUS_THERMAL_CEIL (if b = 0 then 40 else 32 - 8 * (b - 1))
        (updPwr (fun p => { p with band := Mp.put 0 p.band d b }) v))
      (fget s rPWR_STATUS fPWR_STATUS_STACKED = 0 → exec (.stackedBandChange d t held) s = .next v) ∧
      (fget s rPWR_STATUS fPWR_STATUS_STACKED = 1 → cur < bandOf t → exec (.stackedBandChange d t held) s = .next (band (bandOf t))) ∧
      (fget s rPWR_STATUS fPWR_STATUS_STACKED = 1 → bandOf t ≤ cur → held = false → exec (.stackedBandChange d t held) s = .next v) ∧
      (fget s rPWR_STATUS fPWR_STATUS_STACKED = 1 → bandOf t ≤ cur → relaxTo cur t < cur →
        exec (.stackedBandChange d t true) s = .next (band (relaxTo cur t))))

/-! ## Crest -/

/-- The epoch pulse, the report timer and a lost parent: a die within 4 counts is left, one behind is stepped forward, one ahead
is held; a report carries what the last TIME block said and when it came; the next candidate that is UP becomes parent. -/
def Obligations.CrestSteering : Prop :=
  ∀ s : State,
    (s.crestRun = false → exec .crestEpochPulse s = .next s) ∧
    ((∀ u ∈ crestDies s, dieOk s u = true → -4 ≤ Mp.get 0 s.skew u ∧ Mp.get 0 s.skew u ≤ 4) → exec .crestEpochPulse s = .next s) ∧
    (∀ u ∈ crestDies s, s.crestRun = true → dieOk s u = true →
      (∀ x ∈ crestDies s, x ≠ u → dieOk s x = true → -4 ≤ Mp.get 0 s.skew x ∧ Mp.get 0 s.skew x ≤ 4) →
      let v := occurs 0 1 6 (fset rCST_STATUS fCST_STATUS_ALIGN 1 s)
      (Mp.get 0 s.skew u < -4 → exec .crestEpochPulse s = .next { v with skew := Mp.put 0 v.skew u 0 }) ∧
      (4 < Mp.get 0 s.skew u → exec .crestEpochPulse s =
        .next { v with skew := Mp.put 0 v.skew u 4, aligning := u :: v.aligning.filter (· != u) })) ∧
    (∀ port,
      let v := chooseParent s
      let x := portOf v port
      (x.partner = none → exec (.crestReportTimer port) s = .next v) ∧
      (∀ m rest, x.partner = some (m, rest) → isPort v port = true → portState v port = 3 → x.timeArr ≠ 0 → isSafe v = false →
        tagFree v (pN port) .melhal 0 = true →
        let te := takeTag (pN port) ⟨0, 0, .melhal, 0, .request 0, 0, 0, false, 0, [], some m, some port, false⟩ v
        exec (.crestReportTimer port) s = .next (enqueuePkt port ⟨8, 7, 0, 0, 0, 0, m, moduleId v, 64, te.1.tag, 0, te.1.reqId, [],
          reportEntry port (nearestStamp x.timeIn x.timeArr) x.timeArr⟩ te.2))) ∧
    (parentOf s = none → exec .parentPortLost s = .next s) ∧
    (∀ p, parentOf s = some p → portState s p = 3 → exec .parentPortLost s = .next s) ∧
    (∀ p q, parentOf s = some p → portState s p ≠ 3 → (parentCandidates s).find? (fun x => portState s x == 3) = some q →
      let v := { setParent (some q) s with streak := 0 }
      exec .parentPortLost s = .next (if crestState s = 4 then v else enterCrest 1 v)) ∧
    (∀ p, parentOf s = some p → portState s p ≠ 3 → (∀ x ∈ parentCandidates s, portState s x ≠ 3) →
      let v := setParent none s
      exec .parentPortLost s = .next (if crestState s = 4 then v else enterCrest (if parentCandidates s = [] then 0 else 3) v))

/-! ## Fault sources -/

/-- A source occurs: its sticky bit is set and its block counts; the first one of a clear block is stamped; a new one above level
0 is reported; level 2 fences its die or, on the Col die, enters the safe state, as level 3 does. An injected one does the
same. LINE_LOST occurs by striking a line of the ridge cache. FAULT_N follows its pulse. -/
def Obligations.FaultSources : Prop :=
  ∀ (s : State) (code : Nat),
    let u := code / 65536
    let b := code / 256 % 256
    let x := code % 256
    let react (core : Nat) (inj : Bool) : State :=
      let st := rFLT_STATUS u b
      let lvl := srcLevel s u b x
      let v := fcount (rFLT_COUNT u b) fFLT_COUNT_COUNT 1 (fsetBit st fFLT_STATUS_STICKY x true s)
      let v := if fget s st fFLT_STATUS_STICKY = 0 then regPut (rFLT_FIRST_T u b) (BitVec.ofNat 64 (stampAt s (unitDie u)))
        (fset (rFLT_FIRST u b) fFLT_FIRST_VALID 1 (fset (rFLT_FIRST u b) fFLT_FIRST_SRC x v)) else v
      let v := if fbit s st fFLT_STATUS_STICKY x = true ∨ lvl = 0 then v else
        report u (stampAt s (unitDie u)) core (srcCode u b x + lvl * 2 ^ 24 + b2n inj * 2 ^ 26) v
      if lvl = 2 then (if u = 0 then enterSafe (srcCode u b x) v else fenceStart (fenceTarget u b x) 5 v)
      else if lvl = 3 then enterSafe (srcCode u b x) v else v
    (∀ core, isSource s code = true → ¬ (1 ≤ u ∧ u ≤ 4 ∧ b = 1 ∧ x = 24) →
      exec (.faultSourceOccurrence code core) s = .next (react (sourceCore u b x core) false)) ∧
    (∀ core, isSource s code = true → 1 ≤ u → u ≤ 4 → b = 1 → x = 24 →
      exec (.faultSourceOccurrence code core) s = .next (strikeLine (u - 1) s)) ∧
    (∀ core, isSource s code = false → exec (.faultSourceOccurrence code core) s = .next s) ∧
    (s.waits.find? (fun w => w.op == 0xF02 && w.keys == [code]) = none → exec (.faultInjectOccurrence code) s = .next s) ∧
    (∀ w, s.waits.find? (fun w => w.op == 0xF02 && w.keys == [code]) = some w →
      let v := if isSource s code = true then react (sourceCore u b x 0xFFFF) true
        else if 32 ≤ u then
          let k := u - 32
          emit (.fabric (8 * k + x) 17 (leBytes 1 (fget s (rPRG_PAT_CTRL k x) fPRG_PAT_CTRL_INJ_WL))) s
        else { s with inj := Mp.upd 0 s.inj code (· + 1) }
      (w.a ≤ 1 → exec (.faultInjectOccurrence code) s = .next (answerWait w 0 0 (colNow v) [] v)) ∧
      (1 < w.a → exec (.faultInjectOccurrence code) s = .next (setWait w { w with a := w.a - 1 } v))) ∧
    (∀ n, (dieOf s (16 + n)).localSafe = false → exec (.stolonFaultPoll n) s = .next (readUnseen n s)) ∧
    (s.pulse = false → exec .faultNPulseEnd s = .next s) ∧
    (s.pulse = true → s.test.tap ≠ 3 → exec .faultNPulseEnd s = .next (emit
      (.pin "FAULT_N" (!(fget s rFLT_CTRL fFLT_CTRL_PIN == 1 || s.dies.any (fun p => p.2.localSafe)))) { s with pulse := false })) ∧
    (∀ n, (dieOf s (16 + n)).localSafe = true → exec (.localSafeState n) s = .next s) ∧
    (∀ n < nRidges s, (dieOf s (16 + n)).localSafe = false → (dieOf s (16 + n)).st = 0 → ∃ t, exec (.localSafeState n) s = .next t ∧
      (dieOf t (16 + n)).localSafe = true ∧ (dieOf t (16 + n)).st = 1 ∧ (dieOf t (16 + n)).cause = 1 ∧
      fbit t rMGT_TOPOLOGY fMGT_TOPOLOGY_STOLON_UP n = false ∧
      ∀ i < 4, siteState s (4 * n + i) = 3 → (porgerOf t (4 * n + i)).blanked = true)

/-! ## Cairn -/

/-- The Cairn: an interval that closes stores one signed record of what the meter measured and starts the next; loss and return of
the supply, the cover, a magnetic field and a lost Crest are counted and recorded. What an event record measures is a free
value of the model. -/
def Obligations.CairnMetrology : Prop :=
  ∀ s : State,
    let c := s.crn
    let closes (t : State) (m : Meter) (flags : Nat) : Prop :=
      let e := max c.eCum (c.eLast + m.energyMj)
      let now := c.crest + 4000 * (m.durUs - c.dur)
      let body := recordBody ⟨1, 0, flags + (if 160000 < m.iMax then 2 else 0), c.tStart, now, m.durUs, m.iMax, e - c.eLast, m.vMin, m.vMax⟩
        { c with eCum := e }
      t = { s with crn := t.crn } ∧ t.crn.recno = c.recno + 1 ∧ t.crn.eCum = e ∧ t.crn.eLast = e ∧ t.crn.tStart = now ∧ t.crn.dur = 0 ∧
      Mp.find t.crn.store (c.recno + 1) = some (body ++ signed cxRec (Config.secret 1) body)
    (∀ m, c.supply = true → c.want = none → c.recno < storeSize →
      (∃ t, exec (.intervalClose m) s = .next t ∧ closes t m 0 ∧ t.crn.supply = true) ∧
      (∃ t, exec (.cairnSupplyLoss m) s = .next t ∧ closes t m 12 ∧ t.crn.supply = false)) ∧
    (∀ m, c.supply = false → exec (.intervalClose m) s = .next s ∧ exec (.cairnSupplyLoss m) s = .next s ∧
      exec .magnetic s = .next s ∧ exec .crestLost s = .next s) ∧
    (c.supply = true → exec .powerUp s = .next s) ∧
    (c.supply = false → c.covers = 0 → exec .powerUp s =
      .next (cairnEvent 1 c.crest (updCrn (fun c => { c with supply := true, pwrfail := c.pwrfail + 1 }) s))) ∧
    (c.supply = true → exec .coverOpen s = .next (cairnEvent 2 c.crest (updCrn (fun c => { c with tamper := c.tamper + 1 }) s))) ∧
    (c.supply = false → exec .coverOpen s = .next (updCrn (fun c => { c with covers := c.covers + 1 }) s)) ∧
    (c.supply = true → exec .magnetic s = .next (cairnEvent 3 c.crest (updCrn (fun c => { c with tamper := c.tamper + 1 }) s))) ∧
    (c.supply = true → c.lost = false → exec .crestLost s = .next (cairnEvent 5 c.crest (updCrn (fun c => { c with lost := true }) s))) ∧
    (∀ m, c.supply = true → s.boot.up = true → s.crestRun = true → c.lost = false →
      let v := stampAt s 64
      let copy := c.crest + 4000 * (m.durUs - c.dur)
      let inc := fget s rFLK_INCARNATION fFLK_INCARNATION_INCARNATION
      (v ≤ copy + 4000 → copy ≤ v + 4000 → inc = c.incarnation →
        exec (.cairnCrestValue m) s = .next (updCrn (fun c => { c with dur := m.durUs, crest := v }) s)) ∧
      (copy + 4000 < v ∨ v + 4000 < copy → inc = c.incarnation → m.durUs = 0 → exec (.cairnCrestValue m) s =
        .next (cairnEvent 7 v (updCrn (fun c => { c with dur := 0, tStart := v, crest := v }) s))) ∧
      (copy + 4000 < v ∨ v + 4000 < copy → inc = c.incarnation → m.durUs ≠ 0 → exec (.cairnCrestValue m) s =
        .next (cairnEvent 7 v (updCrn (fun c => { c with crest := v, incarnation := inc }) (closeInterval 8 copy v m s)))) ∧
      (v ≤ copy + 4000 → copy ≤ v + 4000 → inc ≠ c.incarnation → m.durUs ≠ 0 → exec (.cairnCrestValue m) s =
        .next (cairnEvent 8 v (updCrn (fun c => { c with crest := v, incarnation := inc }) (closeInterval 8 copy copy m s)))))

/-! ## Calibration, the test access port and the SMBus-class sideband -/

/-- A calibration run that ends within its limits is counted, stamped and put in use; outside them only the result is noted; one
whose precondition has gone was interrupted. Each instruction of the test access port does what R469 to R471 say.
The SMBus-class sideband: a good PEC draws the bytes of the read, a bad one a NACK; a module that does not answer stays
silent; CAIRN_READ walks a record in pieces of 240 bytes. -/
def Obligations.CalibrationTestPortAndSmbus : Prop :=
  (
  ∀ s : State,
    (∀ (u code inst : Nat) (v : Word32),
      let found := s.waits.find? (fun w => w.op == 0x700 && w.keys == [u] && w.a == code && w.b == inst)
      let key := u * 2 ^ 24 + code * 2 ^ 16 + inst
      let q := droopOver u code inst s
      let put (f : Cal → Cal) : State := { q with cals := Mp.upd {} q.cals key f }
      let ready := calReady q u code inst = true ∨ code = 0x10 ∨ code = 0x30
      (found = none → ∀ within, exec (.calibrationComplete u code inst within v) s = .next s) ∧
      (∀ w, found = some w →
        (¬ ready → ∀ within, exec (.calibrationComplete u code inst within v) s =
          .next (answerWait w rsState 4 (colNow q) [] (put (fun c => { c with result := 4 })))) ∧
        (ready → code ≠ 0x20 → exec (.calibrationComplete u code inst false v) s =
          .next (answerWait w rsState 3 (colNow q) [] (put (fun c => { c with result := 3 })))) ∧
        (ready →
          let n := min (2 ^ 32 - 1) ((Mp.get {} q.cals key).count + 1)
          exec (.calibrationComplete u code inst true v) s = .next (answerWait w 0 n (colNow q) []
            (calApply u code inst v (put (fun _ => ⟨1, n, stampAt q (unitDie u)⟩))))))) ∧
    (∀ pins, ∃ t, exec (.extest pins) s = .next t ∧ t = { s with regs := t.regs, test := { s.test with tap := 3, cells := pins } } ∧
      fget t rMGT_TAP_STATUS fMGT_TAP_STATUS_EXTEST = 1 ∧ fget t rMGT_TAP_STATUS fMGT_TAP_STATUS_PRIVATE = 0) ∧
    (s.test.tap ≠ 3 →
      (∃ t, exec .idcode s = .next t ∧ t.test = { s.test with tap := 0 } ∧ t.outputs = .tap (idCode s) :: s.outputs) ∧
      (∃ t, exec .bypass s = .next t ∧ t.test = { s.test with tap := 1 } ∧ t.outputs = s.outputs) ∧
      (∀ pins, ∃ t, exec (.samplePreload pins) s = .next t ∧ t.test = { s.test with tap := 2, cells := pins } ∧
        t.outputs = .tap pins :: s.outputs)) ∧
    (∀ dies hook, factoryPerm s 3 = false → exec (.privateTestInstruction ⟨dies, hook⟩) s = .next s) ∧
    (∀ dies b, factoryPerm s 3 = true → b < 16 → bitOf dies b = true → isUnitCode s (tapDie b) = true → (dieOf s (tapDie b)).st = 0 →
      ∃ t, exec (.privateTestInstruction ⟨dies, none⟩) s = .next t ∧
        (∀ h, exec (.privateTestInstruction ⟨dies, some h⟩) s = .next (runHook h t)) ∧ fget t rSEC_BOOT_STATUS fSEC_BOOT_STATUS_DEBUG = 1 ∧
        fget t rMGT_TAP_STATUS fMGT_TAP_STATUS_PRIVATE = 1 ∧ fget t rMGT_TAP_STATUS fMGT_TAP_STATUS_STACK_OPEN = 1 ∧
        fbit t rMGT_TAP_STATUS fMGT_TAP_STATUS_DIES b = true ∧ (dieOf t (tapDie b)).st = 1 ∧ (dieOf t (tapDie b)).cause = 7) ∧
    (∃ t, exec .trstN s = .next t ∧ t.test.tap = 0 ∧ regVal t rMGT_TAP_STATUS = 0#64)) ∧
  (
  ∀ s : State,
    let reg (a : Nat) : List Byte := smbusReg s a
    (smbusAnswers s = false → ∀ ok r o, exec (.smbusIdentify ok) s = .next s ∧ exec (.smbusStatus ok) s = .next s ∧
      exec (.smbusTelemetry ok) s = .next s ∧ exec (.smbusFaults ok) s = .next s ∧ exec (.cairnSelect r o ok) s = .next s ∧
      exec (.cairnRead ok) s = .next s ∧ (s.crn.supply = true → exec (.cairnLast ok) s = .next s) ∧
      exec (.smbusAlertResponse ok) s = .next s) ∧
    (smbusAnswers s = true →
      exec (.smbusIdentify true) s = .next (emit (.smbus (reg rMGT_DEVICE_ID ++ reg rFLK_MODULE_ID ++ leBytes 4 (fnStatus s 0))) s) ∧
      exec (.smbusStatus true) s =
        .next (emit (.smbus (reg rRST_CAUSE ++ reg rPWR_STATUS ++ reg rFLT_CTRL ++ reg rCRN_STATUS)) s) ∧
      exec (.smbusTelemetry true) s = .next (emit (.smbus (telemetry s)) s) ∧
      exec (.smbusFaults true) s = .next (emit (.smbus (leBytes 8 (viewCol rFLT_UNIT_PENDING s))) s) ∧
      (∀ r o, r < 2 ^ 64 → o < 2 ^ 16 →
        exec (.cairnSelect r o true) s = .next { s with test := { s.test with recno := r, offset := o } }) ∧
      (s.crn.supply = false → exec (.cairnRead true) s = .next (emit (.smbus [2#8]) s)) ∧
      (s.crn.supply = true → Mp.find s.crn.store s.test.recno = none → exec (.cairnRead true) s = .next (emit (.smbus [1#8]) s)) ∧
      (∀ rd, s.crn.supply = true → Mp.find s.crn.store s.test.recno = some rd → s.test.offset < 2596 →
        let piece := (rd.drop s.test.offset).take 240
        exec (.cairnRead true) s =
          .next (emit (.smbus (0#8 :: piece)) { s with test := { s.test with offset := s.test.offset + piece.length } })) ∧
      (∀ rd, s.crn.supply = true → Mp.find s.crn.store s.test.recno = some rd → 2596 ≤ s.test.offset →
        exec (.cairnRead true) s = .next (emit (.smbus [3#8]) s)) ∧
      (s.crn.supply = true → exec (.cairnLast true) s = .next (emit (.smbus (leBytes 8 s.crn.recno)) s)) ∧
      (alertLow s = true → exec (.smbusAlertResponse true) s = .next (emit (.smbus [0xB8#8]) s)) ∧
      (∀ r o, exec (.smbusIdentify false) s = .next (emit (.smbus []) s) ∧ exec (.smbusStatus false) s = .next (emit (.smbus []) s) ∧
        exec (.smbusTelemetry false) s = .next (emit (.smbus []) s) ∧ exec (.smbusFaults false) s = .next (emit (.smbus []) s) ∧
        exec (.cairnSelect r o false) s = .next (emit (.smbus []) s) ∧ exec (.cairnRead false) s = .next (emit (.smbus []) s))) ∧
    (∀ ok, alertLow s = false → exec (.smbusAlertResponse ok) s = .next s) ∧
    exec .smbusClockLowTimeout s = .next s)

/-! ## Words of the core instructions -/

/-- Decoding is the inverse of encoding: every word whose opcode R77 lists, with operands in that opcode's format and every field
at any value, is read back whole; and every 128-bit word that decodes is the encoding of what it decodes to, so no bit of it is
dropped. A word of an opcode that is not listed decodes to nothing. -/
def Obligations.CoreWordsRoundTrip : Prop :=
  (∀ w : CWord, opFormat w.op = some (match w.fmt with | .a _ => 0 | .v _ => 1 | .t _ => 2) → decodeCore (encodeCore w) = some w) ∧
  (∀ (x : Word128) (w : CWord), decodeCore x = some w → encodeCore w = x) ∧
  (∀ x : Word128, decodeCore x = none ↔ opFormat (BitVec.ofNat 8 (x.toNat / 2 ^ 120)) = none)

/-- Words written out bit by bit from the layouts: the TMM of R76's example; ADD of S1 and an immediate into S2; END; VADD of V4
and V5 into V3 on VE1; and a word of the reserved opcode 0x0B. -/
def Obligations.CoreWordsRead : Prop :=
  decodeCore 0x90409663_19C81000_00000000_00000000#128 =
    some ⟨0x90#8, { rnd := 1, pn := false, ps := 0, wv := true, we := 5, sv := true, se := 6 },
      .t { ad := 3, clr := false, pfmt := 3, qfmt := 3, psrc := true, pt := 4, qsrc := false, qt := 2, td := 0, vs := 0, sa := 0,
           mask := 0, ofmt := 0, rsv := 0, imm := 0 }⟩ ∧
  decodeCore 0x10000001_04000040_00000000_00000007#128 =
    some ⟨0x10#8, { rnd := 0, pn := false, ps := 0, wv := false, we := 0, sv := false, se := 0 },
      .a { sd := 2, sa := 1, sb := 0, sc := 0, eng := 0, ev := 0, ib := true, rsv := 0, imm := 7 }⟩ ∧
  decodeCore 0x01000000_00000000_00000000_00000000#128 =
    some ⟨0x01#8, { rnd := 0, pn := false, ps := 0, wv := false, we := 0, sv := false, se := 0 },
      .a { sd := 0, sa := 0, sb := 0, sc := 0, eng := 0, ev := 0, ib := false, rsv := 0, imm := 0 }⟩ ∧
  decodeCore 0x30000008_620A0000_00000000_00000000#128 =
    some ⟨0x30#8, { rnd := 0, pn := false, ps := 0, wv := false, we := 0, sv := false, se := 0 },
      .v { ve := true, vd := 3, va := 4, vb := 5, vc := 0, ty := 0, bs := false, sa := 0, fmts := 0, fmtd := 0, rsv := 0, imm := 0 }⟩ ∧
  decodeCore 0x0B000000_00000000_00000000_00000000#128 = none

/-! ## The whole block -/

/-- Every step of the block: it answers a next state, it takes one command off the front of the queue and adds none, what has
been put out stays put out, no free value is drawn twice, the grade never changes, no root key is un-revoked, no rollback
counter falls, and memory keeps its canonical form. -/
def Obligations.EveryStepKeeps : Prop :=
  (∀ (i : Instr) (s : State), ∃ t, exec i s = .next t ∧ Keeps s t) ∧
  (∀ s : State, ∃ t, step s = .next t ∧ t.pending = s.pending.tail ∧ Keeps { s with pending := s.pending.tail } t)

/-- What power-on reset leaves, register by register as the tables of spec/ give it: the thermal thresholds, the profile, the cap,
the clock ceilings, the alert level, the ridge cache's ways and the Cairn's weights; the Crest counter starts at 1, the first
fault record is number 1, the module is not ready and not safe.
The block after reset has an empty queue, nothing put out, and memory in its canonical form; what a stack's unwritten byte
reads as is the model's choice (log entry 2). -/
def Obligations.ResetState : Prop :=
  (
  let s := State.reset
  regVal s rTHM_CTRL = 0x5F695A64#64 ∧ fget s rTHM_BD_CTRL fTHM_BD_CTRL_BD_TARGET = 95 ∧
  fget s rPWR_PROFILE fPWR_PROFILE_PROFILE = 1 ∧ fget s rPWR_PROFILE fPWR_PROFILE_CLK_CEIL = 32 ∧
  (s.fuses.a12 = true → fget s rPWR_PROFILE fPWR_PROFILE_CAP_W = 4300) ∧
  (∀ d < 12, fget s (rTHM_CD_STATUS d) fTHM_CD_STATUS_THERMAL_CEIL = 40 ∧ fget s (rTHM_CD_STATUS d) fTHM_CD_STATUS_LOCAL_CEIL = 40 ∧
    fget s (rTHM_CD_STATUS d) fTHM_CD_STATUS_POWER_LIMIT = 40 ∧ fget s (rTHM_CD_STATUS d) fTHM_CD_STATUS_VCORE = 1) ∧
  fget s rFLT_CTRL fFLT_CTRL_SAFE = 0 ∧ fget s rFLT_CTRL fFLT_CTRL_ALERT_LEVEL = 2 ∧ fget s rFLT_CTRL fFLT_CTRL_AUTO_DELAY = 100 ∧
  (∀ n < 4, regVal s (rMEM_RC_CTRL n) = 0x40000#64) ∧ (∀ n < 4, ∀ t < 64, regVal s (rMEM_RC_WAYS n t) = 0xFFFF#64) ∧
  fget s (rCRN_APW 0) fCRN_APW_WEIGHT = 15000 ∧ fget s (rCRN_APW 1) fCRN_APW_WEIGHT = 600 ∧ fget s (rCRN_APW 2) fCRN_APW_WEIGHT = 1600 ∧
  s.crest = 1 ∧ s.fseq = 1 ∧ s.ready = false ∧ s.pwr.stacked = false) ∧
  (
  State.reset.pending = [] ∧ State.reset.outputs = [] ∧ Memory.wf State.reset.mem = true ∧ (∀ a, Memory.read State.reset.mem a = 0#8))
end

