-- ==== Sys2Proof/Laws/Map.lean ====
section
/-! SUPPORT. Sparse tables: reading after writing, and that every operation keeps the canonical form. -/

namespace Sys2Proof.Machine

variable {α : Type}

/-- Keys strictly rising. -/
abbrev Mp.sorted (m : Mp α) : Prop := (m.map (·.1)).Pairwise (· < ·)

theorem Mp.get_eq_find (d : α) (m : Mp α) (k : Nat) : Mp.get d m k = (Mp.find m k).getD d := by
  induction m with
  | nil => rfl
  | cons p r ih =>
    obtain ⟨k', v⟩ := p
    by_cases h : k' = k <;> simp [Mp.get, Mp.find, h, ih]

@[simp] theorem Mp.find_ins_same (m : Mp α) (k : Nat) (v : α) : Mp.find (Mp.ins m k v) k = some v := by
  induction m with
  | nil => simp [Mp.ins, Mp.find]
  | cons p r ih =>
    obtain ⟨k', v'⟩ := p
    unfold Mp.ins
    split
    · simp [Mp.find, ih]; omega
    · split <;> simp [Mp.find]

theorem Mp.find_ins_ne (m : Mp α) (k j : Nat) (v : α) (h : j ≠ k) : Mp.find (Mp.ins m k v) j = Mp.find m j := by
  induction m with
  | nil => simp [Mp.ins, Mp.find, Ne.symm h]
  | cons p r ih =>
    obtain ⟨k', v'⟩ := p
    unfold Mp.ins
    split
    · simp [Mp.find, ih]
    · split
      · rename_i h1; subst h1; simp [Mp.find, Ne.symm h]
      · simp [Mp.find, Ne.symm h]

theorem Mp.find_filter_key (m : Mp α) (q : Nat → Bool) (k : Nat) :
    Mp.find (m.filter (fun p => q p.1)) k = if q k then Mp.find m k else none := by
  induction m with
  | nil => simp [Mp.find]
  | cons p r ih =>
    obtain ⟨k', v'⟩ := p
    by_cases hq : q k' <;> by_cases hk : k' = k <;> simp_all [Mp.find]

@[simp] theorem Mp.find_del_same (m : Mp α) (k : Nat) : Mp.find (Mp.del m k) k = none := by
  unfold Mp.del
  rw [Mp.find_filter_key m (fun x => x != k)]
  simp

theorem Mp.find_del_ne (m : Mp α) (k j : Nat) (h : j ≠ k) : Mp.find (Mp.del m k) j = Mp.find m j := by
  unfold Mp.del
  rw [Mp.find_filter_key m (fun x => x != k)]
  simp [h]

@[simp] theorem Mp.get_ins_same (d : α) (m : Mp α) (k : Nat) (v : α) : Mp.get d (Mp.ins m k v) k = v := by
  simp [Mp.get_eq_find]

theorem Mp.get_ins_ne (d : α) (m : Mp α) (k j : Nat) (v : α) (h : j ≠ k) :
    Mp.get d (Mp.ins m k v) j = Mp.get d m j := by
  simp [Mp.get_eq_find, Mp.find_ins_ne m k j v h]

variable [DecidableEq α]

@[simp] theorem Mp.get_put_same (d : α) (m : Mp α) (k : Nat) (v : α) : Mp.get d (Mp.put d m k v) k = v := by
  unfold Mp.put
  split
  · rename_i h; simp [Mp.get_eq_find, h]
  · simp

theorem Mp.get_put_ne (d : α) (m : Mp α) (k j : Nat) (v : α) (h : j ≠ k) :
    Mp.get d (Mp.put d m k v) j = Mp.get d m j := by
  unfold Mp.put
  split
  · simp [Mp.get_eq_find, Mp.find_del_ne m k j h]
  · exact Mp.get_ins_ne d m k j v h

/-! ## The canonical form -/

theorem Mp.wf_iff (d : α) (m : Mp α) : Mp.wf d m = true ↔ Mp.sorted m ∧ ∀ p ∈ m, p.2 ≠ d := by
  simp [Mp.wf, List.all_eq_true]

omit [DecidableEq α] in
theorem Mp.mem_ins (m : Mp α) (k : Nat) (v : α) (p : Nat × α) (h : p ∈ Mp.ins m k v) : p = (k, v) ∨ p ∈ m := by
  induction m with
  | nil => simpa [Mp.ins] using h
  | cons q r ih =>
    obtain ⟨k', v'⟩ := q
    unfold Mp.ins at h
    split at h
    · rcases List.mem_cons.1 h with h | h
      · simp [h]
      · rcases ih h with h | h <;> simp [h]
    · split at h
      · rcases List.mem_cons.1 h with h | h
        · simp [h]
        · simp [h]
      · simpa using h

omit [DecidableEq α] in
theorem Mp.sorted_ins (m : Mp α) (k : Nat) (v : α) (h : Mp.sorted m) : Mp.sorted (Mp.ins m k v) := by
  induction m with
  | nil => simp [Mp.ins, Mp.sorted]
  | cons q r ih =>
    obtain ⟨k', v'⟩ := q
    simp only [Mp.sorted, List.map_cons, List.pairwise_cons] at h
    obtain ⟨h1, h2⟩ := h
    unfold Mp.ins
    split
    · rename_i hk
      simp only [Mp.sorted, List.map_cons, List.pairwise_cons]
      refine ⟨?_, ih h2⟩
      intro a ha
      obtain ⟨p, hp, rfl⟩ := List.mem_map.1 ha
      rcases Mp.mem_ins r k v p hp with rfl | hp
      · exact hk
      · exact h1 _ (List.mem_map.2 ⟨p, hp, rfl⟩)
    · split
      · rename_i hk
        subst hk
        simp only [Mp.sorted, List.map_cons, List.pairwise_cons]
        exact ⟨h1, h2⟩
      · simp only [Mp.sorted, List.map_cons, List.pairwise_cons, List.mem_cons, forall_eq_or_imp]
        exact ⟨⟨by omega, fun a ha => by have := h1 a ha; omega⟩, h1, h2⟩

omit [DecidableEq α] in
theorem Mp.sorted_filter (m : Mp α) (q : Nat × α → Bool) (h : Mp.sorted m) : Mp.sorted (m.filter q) :=
  List.Pairwise.sublist (List.Sublist.map _ List.filter_sublist) h

/-- Leaving entries out keeps the canonical form. -/
theorem Mp.wf_filter (d : α) (m : Mp α) (q : Nat × α → Bool) (h : Mp.wf d m = true) : Mp.wf d (m.filter q) = true := by
  rw [Mp.wf_iff] at h ⊢
  exact ⟨Mp.sorted_filter m q h.1, fun p hp => h.2 p (List.mem_filter.1 hp).1⟩

theorem Mp.wf_del (d : α) (m : Mp α) (k : Nat) (h : Mp.wf d m = true) : Mp.wf d (Mp.del m k) = true :=
  Mp.wf_filter d m _ h

theorem Mp.wf_put (d : α) (m : Mp α) (k : Nat) (v : α) (h : Mp.wf d m = true) : Mp.wf d (Mp.put d m k v) = true := by
  unfold Mp.put
  split
  · exact Mp.wf_del d m k h
  · rename_i hv
    rw [Mp.wf_iff] at h ⊢
    refine ⟨Mp.sorted_ins m k v h.1, ?_⟩
    intro p hp
    rcases Mp.mem_ins m k v p hp with rfl | hp
    · exact hv
    · exact h.2 p hp

theorem Mp.mem_run (d : α) (b : Nat) (vs : List α) (p : Nat × α) (h : p ∈ Mp.run d b vs) :
    b ≤ p.1 ∧ p.1 < b + vs.length ∧ p.2 ≠ d := by
  induction vs generalizing b with
  | nil => simp [Mp.run] at h
  | cons v r ih =>
    unfold Mp.run at h
    split at h
    · obtain ⟨h1, h2, h3⟩ := ih (b + 1) h
      exact ⟨by omega, by simp only [List.length_cons]; omega, h3⟩
    · rename_i hv
      rcases List.mem_cons.1 h with rfl | h
      · simp [hv]
      · obtain ⟨h1, h2, h3⟩ := ih (b + 1) h
        exact ⟨by omega, by simp only [List.length_cons]; omega, h3⟩

theorem Mp.sorted_run (d : α) (b : Nat) (vs : List α) : Mp.sorted (Mp.run d b vs) := by
  induction vs generalizing b with
  | nil => simp [Mp.run, Mp.sorted]
  | cons v r ih =>
    unfold Mp.run
    split
    · exact ih (b + 1)
    · simp only [Mp.sorted, List.map_cons, List.pairwise_cons]
      refine ⟨?_, ih (b + 1)⟩
      intro a ha
      obtain ⟨p, hp, rfl⟩ := List.mem_map.1 ha
      have := Mp.mem_run d (b + 1) r p hp
      omega

/-- Writing a run of values keeps the canonical form. -/
theorem Mp.wf_blit (d : α) (m : Mp α) (b : Nat) (vs : List α) (h : Mp.wf d m = true) : Mp.wf d (Mp.blit d m b vs) = true := by
  rw [Mp.wf_iff] at h ⊢
  unfold Mp.blit
  constructor
  · simp only [Mp.sorted, List.map_append, List.pairwise_append]
    refine ⟨⟨Mp.sorted_filter m _ h.1, Mp.sorted_run d b vs, ?_⟩, Mp.sorted_filter m _ h.1, ?_⟩
    · intro a ha c hc
      obtain ⟨p, hp, rfl⟩ := List.mem_map.1 ha
      obtain ⟨q, hq, rfl⟩ := List.mem_map.1 hc
      have h1 := (List.mem_filter.1 hp).2
      have h2 := Mp.mem_run d b vs q hq
      simp only [decide_eq_true_eq] at h1
      omega
    · intro a ha c hc
      obtain ⟨q, hq, rfl⟩ := List.mem_map.1 hc
      have h2 := (List.mem_filter.1 hq).2
      simp only [decide_eq_true_eq] at h2
      rcases List.mem_append.1 ha with ha | ha
      · obtain ⟨p, hp, rfl⟩ := List.mem_map.1 ha
        have h1 := (List.mem_filter.1 hp).2
        simp only [decide_eq_true_eq] at h1
        omega
      · obtain ⟨p, hp, rfl⟩ := List.mem_map.1 ha
        have h1 := Mp.mem_run d b vs p hp
        omega
  · intro p hp
    rcases List.mem_append.1 hp with hp | hp
    · rcases List.mem_append.1 hp with hp | hp
      · exact h.2 p (List.mem_filter.1 hp).1
      · exact (Mp.mem_run d b vs p hp).2.2
    · exact h.2 p (List.mem_filter.1 hp).1

/-! ## Reading after a run is written -/

omit [DecidableEq α] in
theorem Mp.find_append (m n : Mp α) (k : Nat) : Mp.find (m ++ n) k = (Mp.find m k).or (Mp.find n k) := by
  induction m with
  | nil => simp [Mp.find]
  | cons p r ih =>
    obtain ⟨k', v'⟩ := p
    by_cases h : k' = k <;> simp [Mp.find, h, ih]

omit [DecidableEq α] in
theorem Mp.find_none_of_keys (m : Mp α) (k : Nat) (h : ∀ p ∈ m, p.1 ≠ k) : Mp.find m k = none := by
  induction m with
  | nil => rfl
  | cons p r ih =>
    obtain ⟨k', v'⟩ := p
    have := h (k', v') (by simp)
    simp_all [Mp.find]

theorem Mp.get_run (d : α) (b : Nat) (vs : List α) (i : Nat) (h : i < vs.length) :
    Mp.get d (Mp.run d b vs) (b + i) = vs[i] := by
  induction vs generalizing b i with
  | nil => simp at h
  | cons v r ih =>
    unfold Mp.run
    rcases i with _ | i
    · split
      · rename_i hv
        rw [Mp.get_eq_find, Mp.find_none_of_keys]
        · simp [hv]
        · intro p hp
          have := Mp.mem_run d (b + 1) r p hp
          omega
      · simp [Mp.get]
    · have hr : i < r.length := by simpa using h
      have e : b + (i + 1) = (b + 1) + i := by omega
      rw [e]
      split
      · simpa using ih (b + 1) i hr
      · have : ¬ b = b + 1 + i := by omega
        simp only [Mp.get, this, if_false]
        simpa using ih (b + 1) i hr

/-- Inside the run written, a table reads as the run. -/
theorem Mp.get_blit_in (d : α) (m : Mp α) (b : Nat) (vs : List α) (i : Nat) (h : i < vs.length) :
    Mp.get d (Mp.blit d m b vs) (b + i) = vs[i] := by
  rw [← Mp.get_run d b vs i h]
  unfold Mp.blit
  simp only [Mp.get_eq_find, Mp.find_append]
  rw [Mp.find_filter_key m (fun k => decide (k < b)), Mp.find_filter_key m (fun k => decide (b + vs.length ≤ k))]
  simp [Nat.not_le.2 h]

/-- Outside the run written, a table reads as before. -/
theorem Mp.get_blit_out (d : α) (m : Mp α) (b : Nat) (vs : List α) (k : Nat) (h : k < b ∨ b + vs.length ≤ k) :
    Mp.get d (Mp.blit d m b vs) k = Mp.get d m k := by
  unfold Mp.blit
  simp only [Mp.get_eq_find, Mp.find_append]
  rw [Mp.find_filter_key m (fun k => decide (k < b)), Mp.find_filter_key m (fun k => decide (b + vs.length ≤ k))]
  rw [Mp.find_none_of_keys (Mp.run d b vs) k (fun p hp => by have := Mp.mem_run d b vs p hp; omega)]
  rcases h with h | h
  · have : ¬ b + vs.length ≤ k := by omega
    simp [h, this]
  · have : ¬ k < b := by omega
    simp [h, this]

omit [DecidableEq α] in
theorem Mp.slice_length (d : α) (m : Mp α) (b n : Nat) : (Mp.slice d m b n).length = n := by simp [Mp.slice]

omit [DecidableEq α] in
/-- Element `i` of a slice is the value at its key. -/
theorem Mp.getElem_slice (d : α) (m : Mp α) (b n i : Nat) (h : i < (Mp.slice d m b n).length) :
    (Mp.slice d m b n)[i] = Mp.get d m (b + i) := by
  have hn : i < n := by simpa [Mp.slice] using h
  simp only [Mp.slice, List.getElem_map, List.getElem_range]
  rw [Mp.get_eq_find, Mp.find_filter_key m (fun k => decide (b ≤ k) && decide (k < b + n)), Mp.get_eq_find]
  simp [hn]

/-- A run written is the slice read back. -/
theorem Mp.slice_blit_same (d : α) (m : Mp α) (b : Nat) (vs : List α) : Mp.slice d (Mp.blit d m b vs) b vs.length = vs := by
  apply List.ext_getElem
  · simp [Mp.slice]
  · intro i h1 h2
    rw [Mp.getElem_slice, Mp.get_blit_in d m b vs i h2]

end Sys2Proof.Machine
end

