-- ==== Sys2Proof/Laws/State.lean ====
section
/-! SUPPORT. What each basic update of the state does to each field: the one it writes, and the others as they were. -/

namespace Sys2Proof.Machine

/-! ## emit -/

@[simp] theorem emit_pending (o : Out) (s : State) : (emit o s).pending = s.pending := rfl
@[simp] theorem emit_outputs (o : Out) (s : State) : (emit o s).outputs = o :: s.outputs := rfl
@[simp] theorem emit_freeCtr (o : Out) (s : State) : (emit o s).freeCtr = s.freeCtr := rfl
@[simp] theorem emit_fuses (o : Out) (s : State) : (emit o s).fuses = s.fuses := rfl
@[simp] theorem emit_crest (o : Out) (s : State) : (emit o s).crest = s.crest := rfl
@[simp] theorem emit_crestRun (o : Out) (s : State) : (emit o s).crestRun = s.crestRun := rfl
@[simp] theorem emit_skew (o : Out) (s : State) : (emit o s).skew = s.skew := rfl
@[simp] theorem emit_aligning (o : Out) (s : State) : (emit o s).aligning = s.aligning := rfl
@[simp] theorem emit_regs (o : Out) (s : State) : (emit o s).regs = s.regs := rfl
@[simp] theorem emit_rdShadow (o : Out) (s : State) : (emit o s).rdShadow = s.rdShadow := rfl
@[simp] theorem emit_wrShadow (o : Out) (s : State) : (emit o s).wrShadow = s.wrShadow := rfl
@[simp] theorem emit_sram (o : Out) (s : State) : (emit o s).sram = s.sram := rfl
@[simp] theorem emit_cores (o : Out) (s : State) : (emit o s).cores = s.cores := rfl
@[simp] theorem emit_mem (o : Out) (s : State) : (emit o s).mem = s.mem := rfl
@[simp] theorem emit_cwErr (o : Out) (s : State) : (emit o s).cwErr = s.cwErr := rfl
@[simp] theorem emit_scrub (o : Out) (s : State) : (emit o s).scrub = s.scrub := rfl
@[simp] theorem emit_caches (o : Out) (s : State) : (emit o s).caches = s.caches := rfl
@[simp] theorem emit_grans (o : Out) (s : State) : (emit o s).grans = s.grans := rfl
@[simp] theorem emit_areas (o : Out) (s : State) : (emit o s).areas = s.areas := rfl
@[simp] theorem emit_tlbs (o : Out) (s : State) : (emit o s).tlbs = s.tlbs := rfl
@[simp] theorem emit_tags (o : Out) (s : State) : (emit o s).tags = s.tags := rfl
@[simp] theorem emit_portBind (o : Out) (s : State) : (emit o s).portBind = s.portBind := rfl
@[simp] theorem emit_reqSeq (o : Out) (s : State) : (emit o s).reqSeq = s.reqSeq := rfl
@[simp] theorem emit_deferred (o : Out) (s : State) : (emit o s).deferred = s.deferred := rfl
@[simp] theorem emit_ports (o : Out) (s : State) : (emit o s).ports = s.ports := rfl
@[simp] theorem emit_jports (o : Out) (s : State) : (emit o s).jports = s.jports := rfl
@[simp] theorem emit_sites (o : Out) (s : State) : (emit o s).sites = s.sites := rfl
@[simp] theorem emit_porgers (o : Out) (s : State) : (emit o s).porgers = s.porgers := rfl
@[simp] theorem emit_groups (o : Out) (s : State) : (emit o s).groups = s.groups := rfl
@[simp] theorem emit_collNet (o : Out) (s : State) : (emit o s).collNet = s.collNet := rfl
@[simp] theorem emit_notices (o : Out) (s : State) : (emit o s).notices = s.notices := rfl
@[simp] theorem emit_recLost (o : Out) (s : State) : (emit o s).recLost = s.recLost := rfl
@[simp] theorem emit_graphs (o : Out) (s : State) : (emit o s).graphs = s.graphs := rfl
@[simp] theorem emit_graphSeq (o : Out) (s : State) : (emit o s).graphSeq = s.graphSeq := rfl
@[simp] theorem emit_cRings (o : Out) (s : State) : (emit o s).cRings = s.cRings := rfl
@[simp] theorem emit_fRings (o : Out) (s : State) : (emit o s).fRings = s.fRings := rfl
@[simp] theorem emit_tRings (o : Out) (s : State) : (emit o s).tRings = s.tRings := rfl
@[simp] theorem emit_fseq (o : Out) (s : State) : (emit o s).fseq = s.fseq := rfl
@[simp] theorem emit_frecs (o : Out) (s : State) : (emit o s).frecs = s.frecs := rfl
@[simp] theorem emit_trecs (o : Out) (s : State) : (emit o s).trecs = s.trecs := rfl
@[simp] theorem emit_trcSeq (o : Out) (s : State) : (emit o s).trcSeq = s.trcSeq := rfl
@[simp] theorem emit_trcLost (o : Out) (s : State) : (emit o s).trcLost = s.trcLost := rfl
@[simp] theorem emit_qps (o : Out) (s : State) : (emit o s).qps = s.qps := rfl
@[simp] theorem emit_fns (o : Out) (s : State) : (emit o s).fns = s.fns := rfl
@[simp] theorem emit_inflight (o : Out) (s : State) : (emit o s).inflight = s.inflight := rfl
@[simp] theorem emit_waits (o : Out) (s : State) : (emit o s).waits = s.waits := rfl
@[simp] theorem emit_lastAccept (o : Out) (s : State) : (emit o s).lastAccept = s.lastAccept := rfl
@[simp] theorem emit_lastQp (o : Out) (s : State) : (emit o s).lastQp = s.lastQp := rfl
@[simp] theorem emit_lastZero (o : Out) (s : State) : (emit o s).lastZero = s.lastZero := rfl
@[simp] theorem emit_ready (o : Out) (s : State) : (emit o s).ready = s.ready := rfl
@[simp] theorem emit_dies (o : Out) (s : State) : (emit o s).dies = s.dies := rfl
@[simp] theorem emit_pulse (o : Out) (s : State) : (emit o s).pulse = s.pulse := rfl
@[simp] theorem emit_inj (o : Out) (s : State) : (emit o s).inj = s.inj := rfl
@[simp] theorem emit_unseen (o : Out) (s : State) : (emit o s).unseen = s.unseen := rfl
@[simp] theorem emit_txeq (o : Out) (s : State) : (emit o s).txeq = s.txeq := rfl
@[simp] theorem emit_pwr (o : Out) (s : State) : (emit o s).pwr = s.pwr := rfl
@[simp] theorem emit_boot (o : Out) (s : State) : (emit o s).boot = s.boot := rfl
@[simp] theorem emit_sec (o : Out) (s : State) : (emit o s).sec = s.sec := rfl
@[simp] theorem emit_crn (o : Out) (s : State) : (emit o s).crn = s.crn := rfl
@[simp] theorem emit_cals (o : Out) (s : State) : (emit o s).cals = s.cals := rfl
@[simp] theorem emit_test (o : Out) (s : State) : (emit o s).test = s.test := rfl
@[simp] theorem emit_streak (o : Out) (s : State) : (emit o s).streak = s.streak := rfl

/-! ## nextFree -/

@[simp] theorem nextFree_pending (s : State) : (nextFree s).pending = s.pending := rfl
@[simp] theorem nextFree_outputs (s : State) : (nextFree s).outputs = s.outputs := rfl
@[simp] theorem nextFree_freeCtr (s : State) : (nextFree s).freeCtr = s.freeCtr + 1 := rfl
@[simp] theorem nextFree_fuses (s : State) : (nextFree s).fuses = s.fuses := rfl
@[simp] theorem nextFree_crest (s : State) : (nextFree s).crest = s.crest := rfl
@[simp] theorem nextFree_crestRun (s : State) : (nextFree s).crestRun = s.crestRun := rfl
@[simp] theorem nextFree_skew (s : State) : (nextFree s).skew = s.skew := rfl
@[simp] theorem nextFree_aligning (s : State) : (nextFree s).aligning = s.aligning := rfl
@[simp] theorem nextFree_regs (s : State) : (nextFree s).regs = s.regs := rfl
@[simp] theorem nextFree_rdShadow (s : State) : (nextFree s).rdShadow = s.rdShadow := rfl
@[simp] theorem nextFree_wrShadow (s : State) : (nextFree s).wrShadow = s.wrShadow := rfl
@[simp] theorem nextFree_sram (s : State) : (nextFree s).sram = s.sram := rfl
@[simp] theorem nextFree_cores (s : State) : (nextFree s).cores = s.cores := rfl
@[simp] theorem nextFree_mem (s : State) : (nextFree s).mem = s.mem := rfl
@[simp] theorem nextFree_cwErr (s : State) : (nextFree s).cwErr = s.cwErr := rfl
@[simp] theorem nextFree_scrub (s : State) : (nextFree s).scrub = s.scrub := rfl
@[simp] theorem nextFree_caches (s : State) : (nextFree s).caches = s.caches := rfl
@[simp] theorem nextFree_grans (s : State) : (nextFree s).grans = s.grans := rfl
@[simp] theorem nextFree_areas (s : State) : (nextFree s).areas = s.areas := rfl
@[simp] theorem nextFree_tlbs (s : State) : (nextFree s).tlbs = s.tlbs := rfl
@[simp] theorem nextFree_tags (s : State) : (nextFree s).tags = s.tags := rfl
@[simp] theorem nextFree_portBind (s : State) : (nextFree s).portBind = s.portBind := rfl
@[simp] theorem nextFree_reqSeq (s : State) : (nextFree s).reqSeq = s.reqSeq := rfl
@[simp] theorem nextFree_deferred (s : State) : (nextFree s).deferred = s.deferred := rfl
@[simp] theorem nextFree_ports (s : State) : (nextFree s).ports = s.ports := rfl
@[simp] theorem nextFree_jports (s : State) : (nextFree s).jports = s.jports := rfl
@[simp] theorem nextFree_sites (s : State) : (nextFree s).sites = s.sites := rfl
@[simp] theorem nextFree_porgers (s : State) : (nextFree s).porgers = s.porgers := rfl
@[simp] theorem nextFree_groups (s : State) : (nextFree s).groups = s.groups := rfl
@[simp] theorem nextFree_collNet (s : State) : (nextFree s).collNet = s.collNet := rfl
@[simp] theorem nextFree_notices (s : State) : (nextFree s).notices = s.notices := rfl
@[simp] theorem nextFree_recLost (s : State) : (nextFree s).recLost = s.recLost := rfl
@[simp] theorem nextFree_graphs (s : State) : (nextFree s).graphs = s.graphs := rfl
@[simp] theorem nextFree_graphSeq (s : State) : (nextFree s).graphSeq = s.graphSeq := rfl
@[simp] theorem nextFree_cRings (s : State) : (nextFree s).cRings = s.cRings := rfl
@[simp] theorem nextFree_fRings (s : State) : (nextFree s).fRings = s.fRings := rfl
@[simp] theorem nextFree_tRings (s : State) : (nextFree s).tRings = s.tRings := rfl
@[simp] theorem nextFree_fseq (s : State) : (nextFree s).fseq = s.fseq := rfl
@[simp] theorem nextFree_frecs (s : State) : (nextFree s).frecs = s.frecs := rfl
@[simp] theorem nextFree_trecs (s : State) : (nextFree s).trecs = s.trecs := rfl
@[simp] theorem nextFree_trcSeq (s : State) : (nextFree s).trcSeq = s.trcSeq := rfl
@[simp] theorem nextFree_trcLost (s : State) : (nextFree s).trcLost = s.trcLost := rfl
@[simp] theorem nextFree_qps (s : State) : (nextFree s).qps = s.qps := rfl
@[simp] theorem nextFree_fns (s : State) : (nextFree s).fns = s.fns := rfl
@[simp] theorem nextFree_inflight (s : State) : (nextFree s).inflight = s.inflight := rfl
@[simp] theorem nextFree_waits (s : State) : (nextFree s).waits = s.waits := rfl
@[simp] theorem nextFree_lastAccept (s : State) : (nextFree s).lastAccept = s.lastAccept := rfl
@[simp] theorem nextFree_lastQp (s : State) : (nextFree s).lastQp = s.lastQp := rfl
@[simp] theorem nextFree_lastZero (s : State) : (nextFree s).lastZero = s.lastZero := rfl
@[simp] theorem nextFree_ready (s : State) : (nextFree s).ready = s.ready := rfl
@[simp] theorem nextFree_dies (s : State) : (nextFree s).dies = s.dies := rfl
@[simp] theorem nextFree_pulse (s : State) : (nextFree s).pulse = s.pulse := rfl
@[simp] theorem nextFree_inj (s : State) : (nextFree s).inj = s.inj := rfl
@[simp] theorem nextFree_unseen (s : State) : (nextFree s).unseen = s.unseen := rfl
@[simp] theorem nextFree_txeq (s : State) : (nextFree s).txeq = s.txeq := rfl
@[simp] theorem nextFree_pwr (s : State) : (nextFree s).pwr = s.pwr := rfl
@[simp] theorem nextFree_boot (s : State) : (nextFree s).boot = s.boot := rfl
@[simp] theorem nextFree_sec (s : State) : (nextFree s).sec = s.sec := rfl
@[simp] theorem nextFree_crn (s : State) : (nextFree s).crn = s.crn := rfl
@[simp] theorem nextFree_cals (s : State) : (nextFree s).cals = s.cals := rfl
@[simp] theorem nextFree_test (s : State) : (nextFree s).test = s.test := rfl
@[simp] theorem nextFree_streak (s : State) : (nextFree s).streak = s.streak := rfl

/-! ## regPut -/

@[simp] theorem regPut_pending (a : Nat) (v : Word64) (s : State) : (regPut a v s).pending = s.pending := rfl
@[simp] theorem regPut_outputs (a : Nat) (v : Word64) (s : State) : (regPut a v s).outputs = s.outputs := rfl
@[simp] theorem regPut_freeCtr (a : Nat) (v : Word64) (s : State) : (regPut a v s).freeCtr = s.freeCtr := rfl
@[simp] theorem regPut_fuses (a : Nat) (v : Word64) (s : State) : (regPut a v s).fuses = s.fuses := rfl
@[simp] theorem regPut_crest (a : Nat) (v : Word64) (s : State) : (regPut a v s).crest = s.crest := rfl
@[simp] theorem regPut_crestRun (a : Nat) (v : Word64) (s : State) : (regPut a v s).crestRun = s.crestRun := rfl
@[simp] theorem regPut_skew (a : Nat) (v : Word64) (s : State) : (regPut a v s).skew = s.skew := rfl
@[simp] theorem regPut_aligning (a : Nat) (v : Word64) (s : State) : (regPut a v s).aligning = s.aligning := rfl
@[simp] theorem regPut_regs (a : Nat) (v : Word64) (s : State) : (regPut a v s).regs = Mp.ins s.regs a v := rfl
@[simp] theorem regPut_rdShadow (a : Nat) (v : Word64) (s : State) : (regPut a v s).rdShadow = s.rdShadow := rfl
@[simp] theorem regPut_wrShadow (a : Nat) (v : Word64) (s : State) : (regPut a v s).wrShadow = s.wrShadow := rfl
@[simp] theorem regPut_sram (a : Nat) (v : Word64) (s : State) : (regPut a v s).sram = s.sram := rfl
@[simp] theorem regPut_cores (a : Nat) (v : Word64) (s : State) : (regPut a v s).cores = s.cores := rfl
@[simp] theorem regPut_mem (a : Nat) (v : Word64) (s : State) : (regPut a v s).mem = s.mem := rfl
@[simp] theorem regPut_cwErr (a : Nat) (v : Word64) (s : State) : (regPut a v s).cwErr = s.cwErr := rfl
@[simp] theorem regPut_scrub (a : Nat) (v : Word64) (s : State) : (regPut a v s).scrub = s.scrub := rfl
@[simp] theorem regPut_caches (a : Nat) (v : Word64) (s : State) : (regPut a v s).caches = s.caches := rfl
@[simp] theorem regPut_grans (a : Nat) (v : Word64) (s : State) : (regPut a v s).grans = s.grans := rfl
@[simp] theorem regPut_areas (a : Nat) (v : Word64) (s : State) : (regPut a v s).areas = s.areas := rfl
@[simp] theorem regPut_tlbs (a : Nat) (v : Word64) (s : State) : (regPut a v s).tlbs = s.tlbs := rfl
@[simp] theorem regPut_tags (a : Nat) (v : Word64) (s : State) : (regPut a v s).tags = s.tags := rfl
@[simp] theorem regPut_portBind (a : Nat) (v : Word64) (s : State) : (regPut a v s).portBind = s.portBind := rfl
@[simp] theorem regPut_reqSeq (a : Nat) (v : Word64) (s : State) : (regPut a v s).reqSeq = s.reqSeq := rfl
@[simp] theorem regPut_deferred (a : Nat) (v : Word64) (s : State) : (regPut a v s).deferred = s.deferred := rfl
@[simp] theorem regPut_ports (a : Nat) (v : Word64) (s : State) : (regPut a v s).ports = s.ports := rfl
@[simp] theorem regPut_jports (a : Nat) (v : Word64) (s : State) : (regPut a v s).jports = s.jports := rfl
@[simp] theorem regPut_sites (a : Nat) (v : Word64) (s : State) : (regPut a v s).sites = s.sites := rfl
@[simp] theorem regPut_porgers (a : Nat) (v : Word64) (s : State) : (regPut a v s).porgers = s.porgers := rfl
@[simp] theorem regPut_groups (a : Nat) (v : Word64) (s : State) : (regPut a v s).groups = s.groups := rfl
@[simp] theorem regPut_collNet (a : Nat) (v : Word64) (s : State) : (regPut a v s).collNet = s.collNet := rfl
@[simp] theorem regPut_notices (a : Nat) (v : Word64) (s : State) : (regPut a v s).notices = s.notices := rfl
@[simp] theorem regPut_recLost (a : Nat) (v : Word64) (s : State) : (regPut a v s).recLost = s.recLost := rfl
@[simp] theorem regPut_graphs (a : Nat) (v : Word64) (s : State) : (regPut a v s).graphs = s.graphs := rfl
@[simp] theorem regPut_graphSeq (a : Nat) (v : Word64) (s : State) : (regPut a v s).graphSeq = s.graphSeq := rfl
@[simp] theorem regPut_cRings (a : Nat) (v : Word64) (s : State) : (regPut a v s).cRings = s.cRings := rfl
@[simp] theorem regPut_fRings (a : Nat) (v : Word64) (s : State) : (regPut a v s).fRings = s.fRings := rfl
@[simp] theorem regPut_tRings (a : Nat) (v : Word64) (s : State) : (regPut a v s).tRings = s.tRings := rfl
@[simp] theorem regPut_fseq (a : Nat) (v : Word64) (s : State) : (regPut a v s).fseq = s.fseq := rfl
@[simp] theorem regPut_frecs (a : Nat) (v : Word64) (s : State) : (regPut a v s).frecs = s.frecs := rfl
@[simp] theorem regPut_trecs (a : Nat) (v : Word64) (s : State) : (regPut a v s).trecs = s.trecs := rfl
@[simp] theorem regPut_trcSeq (a : Nat) (v : Word64) (s : State) : (regPut a v s).trcSeq = s.trcSeq := rfl
@[simp] theorem regPut_trcLost (a : Nat) (v : Word64) (s : State) : (regPut a v s).trcLost = s.trcLost := rfl
@[simp] theorem regPut_qps (a : Nat) (v : Word64) (s : State) : (regPut a v s).qps = s.qps := rfl
@[simp] theorem regPut_fns (a : Nat) (v : Word64) (s : State) : (regPut a v s).fns = s.fns := rfl
@[simp] theorem regPut_inflight (a : Nat) (v : Word64) (s : State) : (regPut a v s).inflight = s.inflight := rfl
@[simp] theorem regPut_waits (a : Nat) (v : Word64) (s : State) : (regPut a v s).waits = s.waits := rfl
@[simp] theorem regPut_lastAccept (a : Nat) (v : Word64) (s : State) : (regPut a v s).lastAccept = s.lastAccept := rfl
@[simp] theorem regPut_lastQp (a : Nat) (v : Word64) (s : State) : (regPut a v s).lastQp = s.lastQp := rfl
@[simp] theorem regPut_lastZero (a : Nat) (v : Word64) (s : State) : (regPut a v s).lastZero = s.lastZero := rfl
@[simp] theorem regPut_ready (a : Nat) (v : Word64) (s : State) : (regPut a v s).ready = s.ready := rfl
@[simp] theorem regPut_dies (a : Nat) (v : Word64) (s : State) : (regPut a v s).dies = s.dies := rfl
@[simp] theorem regPut_pulse (a : Nat) (v : Word64) (s : State) : (regPut a v s).pulse = s.pulse := rfl
@[simp] theorem regPut_inj (a : Nat) (v : Word64) (s : State) : (regPut a v s).inj = s.inj := rfl
@[simp] theorem regPut_unseen (a : Nat) (v : Word64) (s : State) : (regPut a v s).unseen = s.unseen := rfl
@[simp] theorem regPut_txeq (a : Nat) (v : Word64) (s : State) : (regPut a v s).txeq = s.txeq := rfl
@[simp] theorem regPut_pwr (a : Nat) (v : Word64) (s : State) : (regPut a v s).pwr = s.pwr := rfl
@[simp] theorem regPut_boot (a : Nat) (v : Word64) (s : State) : (regPut a v s).boot = s.boot := rfl
@[simp] theorem regPut_sec (a : Nat) (v : Word64) (s : State) : (regPut a v s).sec = s.sec := rfl
@[simp] theorem regPut_crn (a : Nat) (v : Word64) (s : State) : (regPut a v s).crn = s.crn := rfl
@[simp] theorem regPut_cals (a : Nat) (v : Word64) (s : State) : (regPut a v s).cals = s.cals := rfl
@[simp] theorem regPut_test (a : Nat) (v : Word64) (s : State) : (regPut a v s).test = s.test := rfl
@[simp] theorem regPut_streak (a : Nat) (v : Word64) (s : State) : (regPut a v s).streak = s.streak := rfl

/-! ## fset -/

@[simp] theorem fset_pending (a : Nat) (f : Fld) (v : Nat) (s : State) : (fset a f v s).pending = s.pending := rfl
@[simp] theorem fset_outputs (a : Nat) (f : Fld) (v : Nat) (s : State) : (fset a f v s).outputs = s.outputs := rfl
@[simp] theorem fset_freeCtr (a : Nat) (f : Fld) (v : Nat) (s : State) : (fset a f v s).freeCtr = s.freeCtr := rfl
@[simp] theorem fset_fuses (a : Nat) (f : Fld) (v : Nat) (s : State) : (fset a f v s).fuses = s.fuses := rfl
@[simp] theorem fset_crest (a : Nat) (f : Fld) (v : Nat) (s : State) : (fset a f v s).crest = s.crest := rfl
@[simp] theorem fset_crestRun (a : Nat) (f : Fld) (v : Nat) (s : State) : (fset a f v s).crestRun = s.crestRun := rfl
@[simp] theorem fset_skew (a : Nat) (f : Fld) (v : Nat) (s : State) : (fset a f v s).skew = s.skew := rfl
@[simp] theorem fset_aligning (a : Nat) (f : Fld) (v : Nat) (s : State) : (fset a f v s).aligning = s.aligning := rfl
@[simp] theorem fset_rdShadow (a : Nat) (f : Fld) (v : Nat) (s : State) : (fset a f v s).rdShadow = s.rdShadow := rfl
@[simp] theorem fset_wrShadow (a : Nat) (f : Fld) (v : Nat) (s : State) : (fset a f v s).wrShadow = s.wrShadow := rfl
@[simp] theorem fset_sram (a : Nat) (f : Fld) (v : Nat) (s : State) : (fset a f v s).sram = s.sram := rfl
@[simp] theorem fset_cores (a : Nat) (f : Fld) (v : Nat) (s : State) : (fset a f v s).cores = s.cores := rfl
@[simp] theorem fset_mem (a : Nat) (f : Fld) (v : Nat) (s : State) : (fset a f v s).mem = s.mem := rfl
@[simp] theorem fset_cwErr (a : Nat) (f : Fld) (v : Nat) (s : State) : (fset a f v s).cwErr = s.cwErr := rfl
@[simp] theorem fset_scrub (a : Nat) (f : Fld) (v : Nat) (s : State) : (fset a f v s).scrub = s.scrub := rfl
@[simp] theorem fset_caches (a : Nat) (f : Fld) (v : Nat) (s : State) : (fset a f v s).caches = s.caches := rfl
@[simp] theorem fset_grans (a : Nat) (f : Fld) (v : Nat) (s : State) : (fset a f v s).grans = s.grans := rfl
@[simp] theorem fset_areas (a : Nat) (f : Fld) (v : Nat) (s : State) : (fset a f v s).areas = s.areas := rfl
@[simp] theorem fset_tlbs (a : Nat) (f : Fld) (v : Nat) (s : State) : (fset a f v s).tlbs = s.tlbs := rfl
@[simp] theorem fset_tags (a : Nat) (f : Fld) (v : Nat) (s : State) : (fset a f v s).tags = s.tags := rfl
@[simp] theorem fset_portBind (a : Nat) (f : Fld) (v : Nat) (s : State) : (fset a f v s).portBind = s.portBind := rfl
@[simp] theorem fset_reqSeq (a : Nat) (f : Fld) (v : Nat) (s : State) : (fset a f v s).reqSeq = s.reqSeq := rfl
@[simp] theorem fset_deferred (a : Nat) (f : Fld) (v : Nat) (s : State) : (fset a f v s).deferred = s.deferred := rfl
@[simp] theorem fset_ports (a : Nat) (f : Fld) (v : Nat) (s : State) : (fset a f v s).ports = s.ports := rfl
@[simp] theorem fset_jports (a : Nat) (f : Fld) (v : Nat) (s : State) : (fset a f v s).jports = s.jports := rfl
@[simp] theorem fset_sites (a : Nat) (f : Fld) (v : Nat) (s : State) : (fset a f v s).sites = s.sites := rfl
@[simp] theorem fset_porgers (a : Nat) (f : Fld) (v : Nat) (s : State) : (fset a f v s).porgers = s.porgers := rfl
@[simp] theorem fset_groups (a : Nat) (f : Fld) (v : Nat) (s : State) : (fset a f v s).groups = s.groups := rfl
@[simp] theorem fset_collNet (a : Nat) (f : Fld) (v : Nat) (s : State) : (fset a f v s).collNet = s.collNet := rfl
@[simp] theorem fset_notices (a : Nat) (f : Fld) (v : Nat) (s : State) : (fset a f v s).notices = s.notices := rfl
@[simp] theorem fset_recLost (a : Nat) (f : Fld) (v : Nat) (s : State) : (fset a f v s).recLost = s.recLost := rfl
@[simp] theorem fset_graphs (a : Nat) (f : Fld) (v : Nat) (s : State) : (fset a f v s).graphs = s.graphs := rfl
@[simp] theorem fset_graphSeq (a : Nat) (f : Fld) (v : Nat) (s : State) : (fset a f v s).graphSeq = s.graphSeq := rfl
@[simp] theorem fset_cRings (a : Nat) (f : Fld) (v : Nat) (s : State) : (fset a f v s).cRings = s.cRings := rfl
@[simp] theorem fset_fRings (a : Nat) (f : Fld) (v : Nat) (s : State) : (fset a f v s).fRings = s.fRings := rfl
@[simp] theorem fset_tRings (a : Nat) (f : Fld) (v : Nat) (s : State) : (fset a f v s).tRings = s.tRings := rfl
@[simp] theorem fset_fseq (a : Nat) (f : Fld) (v : Nat) (s : State) : (fset a f v s).fseq = s.fseq := rfl
@[simp] theorem fset_frecs (a : Nat) (f : Fld) (v : Nat) (s : State) : (fset a f v s).frecs = s.frecs := rfl
@[simp] theorem fset_trecs (a : Nat) (f : Fld) (v : Nat) (s : State) : (fset a f v s).trecs = s.trecs := rfl
@[simp] theorem fset_trcSeq (a : Nat) (f : Fld) (v : Nat) (s : State) : (fset a f v s).trcSeq = s.trcSeq := rfl
@[simp] theorem fset_trcLost (a : Nat) (f : Fld) (v : Nat) (s : State) : (fset a f v s).trcLost = s.trcLost := rfl
@[simp] theorem fset_qps (a : Nat) (f : Fld) (v : Nat) (s : State) : (fset a f v s).qps = s.qps := rfl
@[simp] theorem fset_fns (a : Nat) (f : Fld) (v : Nat) (s : State) : (fset a f v s).fns = s.fns := rfl
@[simp] theorem fset_inflight (a : Nat) (f : Fld) (v : Nat) (s : State) : (fset a f v s).inflight = s.inflight := rfl
@[simp] theorem fset_waits (a : Nat) (f : Fld) (v : Nat) (s : State) : (fset a f v s).waits = s.waits := rfl
@[simp] theorem fset_lastAccept (a : Nat) (f : Fld) (v : Nat) (s : State) : (fset a f v s).lastAccept = s.lastAccept := rfl
@[simp] theorem fset_lastQp (a : Nat) (f : Fld) (v : Nat) (s : State) : (fset a f v s).lastQp = s.lastQp := rfl
@[simp] theorem fset_lastZero (a : Nat) (f : Fld) (v : Nat) (s : State) : (fset a f v s).lastZero = s.lastZero := rfl
@[simp] theorem fset_ready (a : Nat) (f : Fld) (v : Nat) (s : State) : (fset a f v s).ready = s.ready := rfl
@[simp] theorem fset_dies (a : Nat) (f : Fld) (v : Nat) (s : State) : (fset a f v s).dies = s.dies := rfl
@[simp] theorem fset_pulse (a : Nat) (f : Fld) (v : Nat) (s : State) : (fset a f v s).pulse = s.pulse := rfl
@[simp] theorem fset_inj (a : Nat) (f : Fld) (v : Nat) (s : State) : (fset a f v s).inj = s.inj := rfl
@[simp] theorem fset_unseen (a : Nat) (f : Fld) (v : Nat) (s : State) : (fset a f v s).unseen = s.unseen := rfl
@[simp] theorem fset_txeq (a : Nat) (f : Fld) (v : Nat) (s : State) : (fset a f v s).txeq = s.txeq := rfl
@[simp] theorem fset_pwr (a : Nat) (f : Fld) (v : Nat) (s : State) : (fset a f v s).pwr = s.pwr := rfl
@[simp] theorem fset_boot (a : Nat) (f : Fld) (v : Nat) (s : State) : (fset a f v s).boot = s.boot := rfl
@[simp] theorem fset_sec (a : Nat) (f : Fld) (v : Nat) (s : State) : (fset a f v s).sec = s.sec := rfl
@[simp] theorem fset_crn (a : Nat) (f : Fld) (v : Nat) (s : State) : (fset a f v s).crn = s.crn := rfl
@[simp] theorem fset_cals (a : Nat) (f : Fld) (v : Nat) (s : State) : (fset a f v s).cals = s.cals := rfl
@[simp] theorem fset_test (a : Nat) (f : Fld) (v : Nat) (s : State) : (fset a f v s).test = s.test := rfl
@[simp] theorem fset_streak (a : Nat) (f : Fld) (v : Nat) (s : State) : (fset a f v s).streak = s.streak := rfl

/-! ## fsetBit -/

@[simp] theorem fsetBit_pending (a : Nat) (f : Fld) (i : Nat) (b : Bool) (s : State) : (fsetBit a f i b s).pending = s.pending := rfl
@[simp] theorem fsetBit_outputs (a : Nat) (f : Fld) (i : Nat) (b : Bool) (s : State) : (fsetBit a f i b s).outputs = s.outputs := rfl
@[simp] theorem fsetBit_freeCtr (a : Nat) (f : Fld) (i : Nat) (b : Bool) (s : State) : (fsetBit a f i b s).freeCtr = s.freeCtr := rfl
@[simp] theorem fsetBit_fuses (a : Nat) (f : Fld) (i : Nat) (b : Bool) (s : State) : (fsetBit a f i b s).fuses = s.fuses := rfl
@[simp] theorem fsetBit_crest (a : Nat) (f : Fld) (i : Nat) (b : Bool) (s : State) : (fsetBit a f i b s).crest = s.crest := rfl
@[simp] theorem fsetBit_crestRun (a : Nat) (f : Fld) (i : Nat) (b : Bool) (s : State) : (fsetBit a f i b s).crestRun = s.crestRun := rfl
@[simp] theorem fsetBit_skew (a : Nat) (f : Fld) (i : Nat) (b : Bool) (s : State) : (fsetBit a f i b s).skew = s.skew := rfl
@[simp] theorem fsetBit_aligning (a : Nat) (f : Fld) (i : Nat) (b : Bool) (s : State) : (fsetBit a f i b s).aligning = s.aligning := rfl
@[simp] theorem fsetBit_rdShadow (a : Nat) (f : Fld) (i : Nat) (b : Bool) (s : State) : (fsetBit a f i b s).rdShadow = s.rdShadow := rfl
@[simp] theorem fsetBit_wrShadow (a : Nat) (f : Fld) (i : Nat) (b : Bool) (s : State) : (fsetBit a f i b s).wrShadow = s.wrShadow := rfl
@[simp] theorem fsetBit_sram (a : Nat) (f : Fld) (i : Nat) (b : Bool) (s : State) : (fsetBit a f i b s).sram = s.sram := rfl
@[simp] theorem fsetBit_cores (a : Nat) (f : Fld) (i : Nat) (b : Bool) (s : State) : (fsetBit a f i b s).cores = s.cores := rfl
@[simp] theorem fsetBit_mem (a : Nat) (f : Fld) (i : Nat) (b : Bool) (s : State) : (fsetBit a f i b s).mem = s.mem := rfl
@[simp] theorem fsetBit_cwErr (a : Nat) (f : Fld) (i : Nat) (b : Bool) (s : State) : (fsetBit a f i b s).cwErr = s.cwErr := rfl
@[simp] theorem fsetBit_scrub (a : Nat) (f : Fld) (i : Nat) (b : Bool) (s : State) : (fsetBit a f i b s).scrub = s.scrub := rfl
@[simp] theorem fsetBit_caches (a : Nat) (f : Fld) (i : Nat) (b : Bool) (s : State) : (fsetBit a f i b s).caches = s.caches := rfl
@[simp] theorem fsetBit_grans (a : Nat) (f : Fld) (i : Nat) (b : Bool) (s : State) : (fsetBit a f i b s).grans = s.grans := rfl
@[simp] theorem fsetBit_areas (a : Nat) (f : Fld) (i : Nat) (b : Bool) (s : State) : (fsetBit a f i b s).areas = s.areas := rfl
@[simp] theorem fsetBit_tlbs (a : Nat) (f : Fld) (i : Nat) (b : Bool) (s : State) : (fsetBit a f i b s).tlbs = s.tlbs := rfl
@[simp] theorem fsetBit_tags (a : Nat) (f : Fld) (i : Nat) (b : Bool) (s : State) : (fsetBit a f i b s).tags = s.tags := rfl
@[simp] theorem fsetBit_portBind (a : Nat) (f : Fld) (i : Nat) (b : Bool) (s : State) : (fsetBit a f i b s).portBind = s.portBind := rfl
@[simp] theorem fsetBit_reqSeq (a : Nat) (f : Fld) (i : Nat) (b : Bool) (s : State) : (fsetBit a f i b s).reqSeq = s.reqSeq := rfl
@[simp] theorem fsetBit_deferred (a : Nat) (f : Fld) (i : Nat) (b : Bool) (s : State) : (fsetBit a f i b s).deferred = s.deferred := rfl
@[simp] theorem fsetBit_ports (a : Nat) (f : Fld) (i : Nat) (b : Bool) (s : State) : (fsetBit a f i b s).ports = s.ports := rfl
@[simp] theorem fsetBit_jports (a : Nat) (f : Fld) (i : Nat) (b : Bool) (s : State) : (fsetBit a f i b s).jports = s.jports := rfl
@[simp] theorem fsetBit_sites (a : Nat) (f : Fld) (i : Nat) (b : Bool) (s : State) : (fsetBit a f i b s).sites = s.sites := rfl
@[simp] theorem fsetBit_porgers (a : Nat) (f : Fld) (i : Nat) (b : Bool) (s : State) : (fsetBit a f i b s).porgers = s.porgers := rfl
@[simp] theorem fsetBit_groups (a : Nat) (f : Fld) (i : Nat) (b : Bool) (s : State) : (fsetBit a f i b s).groups = s.groups := rfl
@[simp] theorem fsetBit_collNet (a : Nat) (f : Fld) (i : Nat) (b : Bool) (s : State) : (fsetBit a f i b s).collNet = s.collNet := rfl
@[simp] theorem fsetBit_notices (a : Nat) (f : Fld) (i : Nat) (b : Bool) (s : State) : (fsetBit a f i b s).notices = s.notices := rfl
@[simp] theorem fsetBit_recLost (a : Nat) (f : Fld) (i : Nat) (b : Bool) (s : State) : (fsetBit a f i b s).recLost = s.recLost := rfl
@[simp] theorem fsetBit_graphs (a : Nat) (f : Fld) (i : Nat) (b : Bool) (s : State) : (fsetBit a f i b s).graphs = s.graphs := rfl
@[simp] theorem fsetBit_graphSeq (a : Nat) (f : Fld) (i : Nat) (b : Bool) (s : State) : (fsetBit a f i b s).graphSeq = s.graphSeq := rfl
@[simp] theorem fsetBit_cRings (a : Nat) (f : Fld) (i : Nat) (b : Bool) (s : State) : (fsetBit a f i b s).cRings = s.cRings := rfl
@[simp] theorem fsetBit_fRings (a : Nat) (f : Fld) (i : Nat) (b : Bool) (s : State) : (fsetBit a f i b s).fRings = s.fRings := rfl
@[simp] theorem fsetBit_tRings (a : Nat) (f : Fld) (i : Nat) (b : Bool) (s : State) : (fsetBit a f i b s).tRings = s.tRings := rfl
@[simp] theorem fsetBit_fseq (a : Nat) (f : Fld) (i : Nat) (b : Bool) (s : State) : (fsetBit a f i b s).fseq = s.fseq := rfl
@[simp] theorem fsetBit_frecs (a : Nat) (f : Fld) (i : Nat) (b : Bool) (s : State) : (fsetBit a f i b s).frecs = s.frecs := rfl
@[simp] theorem fsetBit_trecs (a : Nat) (f : Fld) (i : Nat) (b : Bool) (s : State) : (fsetBit a f i b s).trecs = s.trecs := rfl
@[simp] theorem fsetBit_trcSeq (a : Nat) (f : Fld) (i : Nat) (b : Bool) (s : State) : (fsetBit a f i b s).trcSeq = s.trcSeq := rfl
@[simp] theorem fsetBit_trcLost (a : Nat) (f : Fld) (i : Nat) (b : Bool) (s : State) : (fsetBit a f i b s).trcLost = s.trcLost := rfl
@[simp] theorem fsetBit_qps (a : Nat) (f : Fld) (i : Nat) (b : Bool) (s : State) : (fsetBit a f i b s).qps = s.qps := rfl
@[simp] theorem fsetBit_fns (a : Nat) (f : Fld) (i : Nat) (b : Bool) (s : State) : (fsetBit a f i b s).fns = s.fns := rfl
@[simp] theorem fsetBit_inflight (a : Nat) (f : Fld) (i : Nat) (b : Bool) (s : State) : (fsetBit a f i b s).inflight = s.inflight := rfl
@[simp] theorem fsetBit_waits (a : Nat) (f : Fld) (i : Nat) (b : Bool) (s : State) : (fsetBit a f i b s).waits = s.waits := rfl
@[simp] theorem fsetBit_lastAccept (a : Nat) (f : Fld) (i : Nat) (b : Bool) (s : State) : (fsetBit a f i b s).lastAccept = s.lastAccept := rfl
@[simp] theorem fsetBit_lastQp (a : Nat) (f : Fld) (i : Nat) (b : Bool) (s : State) : (fsetBit a f i b s).lastQp = s.lastQp := rfl
@[simp] theorem fsetBit_lastZero (a : Nat) (f : Fld) (i : Nat) (b : Bool) (s : State) : (fsetBit a f i b s).lastZero = s.lastZero := rfl
@[simp] theorem fsetBit_ready (a : Nat) (f : Fld) (i : Nat) (b : Bool) (s : State) : (fsetBit a f i b s).ready = s.ready := rfl
@[simp] theorem fsetBit_dies (a : Nat) (f : Fld) (i : Nat) (b : Bool) (s : State) : (fsetBit a f i b s).dies = s.dies := rfl
@[simp] theorem fsetBit_pulse (a : Nat) (f : Fld) (i : Nat) (b : Bool) (s : State) : (fsetBit a f i b s).pulse = s.pulse := rfl
@[simp] theorem fsetBit_inj (a : Nat) (f : Fld) (i : Nat) (b : Bool) (s : State) : (fsetBit a f i b s).inj = s.inj := rfl
@[simp] theorem fsetBit_unseen (a : Nat) (f : Fld) (i : Nat) (b : Bool) (s : State) : (fsetBit a f i b s).unseen = s.unseen := rfl
@[simp] theorem fsetBit_txeq (a : Nat) (f : Fld) (i : Nat) (b : Bool) (s : State) : (fsetBit a f i b s).txeq = s.txeq := rfl
@[simp] theorem fsetBit_pwr (a : Nat) (f : Fld) (i : Nat) (b : Bool) (s : State) : (fsetBit a f i b s).pwr = s.pwr := rfl
@[simp] theorem fsetBit_boot (a : Nat) (f : Fld) (i : Nat) (b : Bool) (s : State) : (fsetBit a f i b s).boot = s.boot := rfl
@[simp] theorem fsetBit_sec (a : Nat) (f : Fld) (i : Nat) (b : Bool) (s : State) : (fsetBit a f i b s).sec = s.sec := rfl
@[simp] theorem fsetBit_crn (a : Nat) (f : Fld) (i : Nat) (b : Bool) (s : State) : (fsetBit a f i b s).crn = s.crn := rfl
@[simp] theorem fsetBit_cals (a : Nat) (f : Fld) (i : Nat) (b : Bool) (s : State) : (fsetBit a f i b s).cals = s.cals := rfl
@[simp] theorem fsetBit_test (a : Nat) (f : Fld) (i : Nat) (b : Bool) (s : State) : (fsetBit a f i b s).test = s.test := rfl
@[simp] theorem fsetBit_streak (a : Nat) (f : Fld) (i : Nat) (b : Bool) (s : State) : (fsetBit a f i b s).streak = s.streak := rfl

/-! ## fcount -/

@[simp] theorem fcount_pending (a : Nat) (f : Fld) (n : Nat) (s : State) : (fcount a f n s).pending = s.pending := rfl
@[simp] theorem fcount_outputs (a : Nat) (f : Fld) (n : Nat) (s : State) : (fcount a f n s).outputs = s.outputs := rfl
@[simp] theorem fcount_freeCtr (a : Nat) (f : Fld) (n : Nat) (s : State) : (fcount a f n s).freeCtr = s.freeCtr := rfl
@[simp] theorem fcount_fuses (a : Nat) (f : Fld) (n : Nat) (s : State) : (fcount a f n s).fuses = s.fuses := rfl
@[simp] theorem fcount_crest (a : Nat) (f : Fld) (n : Nat) (s : State) : (fcount a f n s).crest = s.crest := rfl
@[simp] theorem fcount_crestRun (a : Nat) (f : Fld) (n : Nat) (s : State) : (fcount a f n s).crestRun = s.crestRun := rfl
@[simp] theorem fcount_skew (a : Nat) (f : Fld) (n : Nat) (s : State) : (fcount a f n s).skew = s.skew := rfl
@[simp] theorem fcount_aligning (a : Nat) (f : Fld) (n : Nat) (s : State) : (fcount a f n s).aligning = s.aligning := rfl
@[simp] theorem fcount_rdShadow (a : Nat) (f : Fld) (n : Nat) (s : State) : (fcount a f n s).rdShadow = s.rdShadow := rfl
@[simp] theorem fcount_wrShadow (a : Nat) (f : Fld) (n : Nat) (s : State) : (fcount a f n s).wrShadow = s.wrShadow := rfl
@[simp] theorem fcount_sram (a : Nat) (f : Fld) (n : Nat) (s : State) : (fcount a f n s).sram = s.sram := rfl
@[simp] theorem fcount_cores (a : Nat) (f : Fld) (n : Nat) (s : State) : (fcount a f n s).cores = s.cores := rfl
@[simp] theorem fcount_mem (a : Nat) (f : Fld) (n : Nat) (s : State) : (fcount a f n s).mem = s.mem := rfl
@[simp] theorem fcount_cwErr (a : Nat) (f : Fld) (n : Nat) (s : State) : (fcount a f n s).cwErr = s.cwErr := rfl
@[simp] theorem fcount_scrub (a : Nat) (f : Fld) (n : Nat) (s : State) : (fcount a f n s).scrub = s.scrub := rfl
@[simp] theorem fcount_caches (a : Nat) (f : Fld) (n : Nat) (s : State) : (fcount a f n s).caches = s.caches := rfl
@[simp] theorem fcount_grans (a : Nat) (f : Fld) (n : Nat) (s : State) : (fcount a f n s).grans = s.grans := rfl
@[simp] theorem fcount_areas (a : Nat) (f : Fld) (n : Nat) (s : State) : (fcount a f n s).areas = s.areas := rfl
@[simp] theorem fcount_tlbs (a : Nat) (f : Fld) (n : Nat) (s : State) : (fcount a f n s).tlbs = s.tlbs := rfl
@[simp] theorem fcount_tags (a : Nat) (f : Fld) (n : Nat) (s : State) : (fcount a f n s).tags = s.tags := rfl
@[simp] theorem fcount_portBind (a : Nat) (f : Fld) (n : Nat) (s : State) : (fcount a f n s).portBind = s.portBind := rfl
@[simp] theorem fcount_reqSeq (a : Nat) (f : Fld) (n : Nat) (s : State) : (fcount a f n s).reqSeq = s.reqSeq := rfl
@[simp] theorem fcount_deferred (a : Nat) (f : Fld) (n : Nat) (s : State) : (fcount a f n s).deferred = s.deferred := rfl
@[simp] theorem fcount_ports (a : Nat) (f : Fld) (n : Nat) (s : State) : (fcount a f n s).ports = s.ports := rfl
@[simp] theorem fcount_jports (a : Nat) (f : Fld) (n : Nat) (s : State) : (fcount a f n s).jports = s.jports := rfl
@[simp] theorem fcount_sites (a : Nat) (f : Fld) (n : Nat) (s : State) : (fcount a f n s).sites = s.sites := rfl
@[simp] theorem fcount_porgers (a : Nat) (f : Fld) (n : Nat) (s : State) : (fcount a f n s).porgers = s.porgers := rfl
@[simp] theorem fcount_groups (a : Nat) (f : Fld) (n : Nat) (s : State) : (fcount a f n s).groups = s.groups := rfl
@[simp] theorem fcount_collNet (a : Nat) (f : Fld) (n : Nat) (s : State) : (fcount a f n s).collNet = s.collNet := rfl
@[simp] theorem fcount_notices (a : Nat) (f : Fld) (n : Nat) (s : State) : (fcount a f n s).notices = s.notices := rfl
@[simp] theorem fcount_recLost (a : Nat) (f : Fld) (n : Nat) (s : State) : (fcount a f n s).recLost = s.recLost := rfl
@[simp] theorem fcount_graphs (a : Nat) (f : Fld) (n : Nat) (s : State) : (fcount a f n s).graphs = s.graphs := rfl
@[simp] theorem fcount_graphSeq (a : Nat) (f : Fld) (n : Nat) (s : State) : (fcount a f n s).graphSeq = s.graphSeq := rfl
@[simp] theorem fcount_cRings (a : Nat) (f : Fld) (n : Nat) (s : State) : (fcount a f n s).cRings = s.cRings := rfl
@[simp] theorem fcount_fRings (a : Nat) (f : Fld) (n : Nat) (s : State) : (fcount a f n s).fRings = s.fRings := rfl
@[simp] theorem fcount_tRings (a : Nat) (f : Fld) (n : Nat) (s : State) : (fcount a f n s).tRings = s.tRings := rfl
@[simp] theorem fcount_fseq (a : Nat) (f : Fld) (n : Nat) (s : State) : (fcount a f n s).fseq = s.fseq := rfl
@[simp] theorem fcount_frecs (a : Nat) (f : Fld) (n : Nat) (s : State) : (fcount a f n s).frecs = s.frecs := rfl
@[simp] theorem fcount_trecs (a : Nat) (f : Fld) (n : Nat) (s : State) : (fcount a f n s).trecs = s.trecs := rfl
@[simp] theorem fcount_trcSeq (a : Nat) (f : Fld) (n : Nat) (s : State) : (fcount a f n s).trcSeq = s.trcSeq := rfl
@[simp] theorem fcount_trcLost (a : Nat) (f : Fld) (n : Nat) (s : State) : (fcount a f n s).trcLost = s.trcLost := rfl
@[simp] theorem fcount_qps (a : Nat) (f : Fld) (n : Nat) (s : State) : (fcount a f n s).qps = s.qps := rfl
@[simp] theorem fcount_fns (a : Nat) (f : Fld) (n : Nat) (s : State) : (fcount a f n s).fns = s.fns := rfl
@[simp] theorem fcount_inflight (a : Nat) (f : Fld) (n : Nat) (s : State) : (fcount a f n s).inflight = s.inflight := rfl
@[simp] theorem fcount_waits (a : Nat) (f : Fld) (n : Nat) (s : State) : (fcount a f n s).waits = s.waits := rfl
@[simp] theorem fcount_lastAccept (a : Nat) (f : Fld) (n : Nat) (s : State) : (fcount a f n s).lastAccept = s.lastAccept := rfl
@[simp] theorem fcount_lastQp (a : Nat) (f : Fld) (n : Nat) (s : State) : (fcount a f n s).lastQp = s.lastQp := rfl
@[simp] theorem fcount_lastZero (a : Nat) (f : Fld) (n : Nat) (s : State) : (fcount a f n s).lastZero = s.lastZero := rfl
@[simp] theorem fcount_ready (a : Nat) (f : Fld) (n : Nat) (s : State) : (fcount a f n s).ready = s.ready := rfl
@[simp] theorem fcount_dies (a : Nat) (f : Fld) (n : Nat) (s : State) : (fcount a f n s).dies = s.dies := rfl
@[simp] theorem fcount_pulse (a : Nat) (f : Fld) (n : Nat) (s : State) : (fcount a f n s).pulse = s.pulse := rfl
@[simp] theorem fcount_inj (a : Nat) (f : Fld) (n : Nat) (s : State) : (fcount a f n s).inj = s.inj := rfl
@[simp] theorem fcount_unseen (a : Nat) (f : Fld) (n : Nat) (s : State) : (fcount a f n s).unseen = s.unseen := rfl
@[simp] theorem fcount_txeq (a : Nat) (f : Fld) (n : Nat) (s : State) : (fcount a f n s).txeq = s.txeq := rfl
@[simp] theorem fcount_pwr (a : Nat) (f : Fld) (n : Nat) (s : State) : (fcount a f n s).pwr = s.pwr := rfl
@[simp] theorem fcount_boot (a : Nat) (f : Fld) (n : Nat) (s : State) : (fcount a f n s).boot = s.boot := rfl
@[simp] theorem fcount_sec (a : Nat) (f : Fld) (n : Nat) (s : State) : (fcount a f n s).sec = s.sec := rfl
@[simp] theorem fcount_crn (a : Nat) (f : Fld) (n : Nat) (s : State) : (fcount a f n s).crn = s.crn := rfl
@[simp] theorem fcount_cals (a : Nat) (f : Fld) (n : Nat) (s : State) : (fcount a f n s).cals = s.cals := rfl
@[simp] theorem fcount_test (a : Nat) (f : Fld) (n : Nat) (s : State) : (fcount a f n s).test = s.test := rfl
@[simp] theorem fcount_streak (a : Nat) (f : Fld) (n : Nat) (s : State) : (fcount a f n s).streak = s.streak := rfl

/-! ## setCore -/

@[simp] theorem setCore_pending (c : Nat) (k : Core) (s : State) : (setCore c k s).pending = s.pending := rfl
@[simp] theorem setCore_outputs (c : Nat) (k : Core) (s : State) : (setCore c k s).outputs = s.outputs := rfl
@[simp] theorem setCore_freeCtr (c : Nat) (k : Core) (s : State) : (setCore c k s).freeCtr = s.freeCtr := rfl
@[simp] theorem setCore_fuses (c : Nat) (k : Core) (s : State) : (setCore c k s).fuses = s.fuses := rfl
@[simp] theorem setCore_crest (c : Nat) (k : Core) (s : State) : (setCore c k s).crest = s.crest := rfl
@[simp] theorem setCore_crestRun (c : Nat) (k : Core) (s : State) : (setCore c k s).crestRun = s.crestRun := rfl
@[simp] theorem setCore_skew (c : Nat) (k : Core) (s : State) : (setCore c k s).skew = s.skew := rfl
@[simp] theorem setCore_aligning (c : Nat) (k : Core) (s : State) : (setCore c k s).aligning = s.aligning := rfl
@[simp] theorem setCore_regs (c : Nat) (k : Core) (s : State) : (setCore c k s).regs = s.regs := rfl
@[simp] theorem setCore_rdShadow (c : Nat) (k : Core) (s : State) : (setCore c k s).rdShadow = s.rdShadow := rfl
@[simp] theorem setCore_wrShadow (c : Nat) (k : Core) (s : State) : (setCore c k s).wrShadow = s.wrShadow := rfl
@[simp] theorem setCore_sram (c : Nat) (k : Core) (s : State) : (setCore c k s).sram = s.sram := rfl
@[simp] theorem setCore_cores (c : Nat) (k : Core) (s : State) : (setCore c k s).cores = Mp.put {} s.cores c k := rfl
@[simp] theorem setCore_mem (c : Nat) (k : Core) (s : State) : (setCore c k s).mem = s.mem := rfl
@[simp] theorem setCore_cwErr (c : Nat) (k : Core) (s : State) : (setCore c k s).cwErr = s.cwErr := rfl
@[simp] theorem setCore_scrub (c : Nat) (k : Core) (s : State) : (setCore c k s).scrub = s.scrub := rfl
@[simp] theorem setCore_caches (c : Nat) (k : Core) (s : State) : (setCore c k s).caches = s.caches := rfl
@[simp] theorem setCore_grans (c : Nat) (k : Core) (s : State) : (setCore c k s).grans = s.grans := rfl
@[simp] theorem setCore_areas (c : Nat) (k : Core) (s : State) : (setCore c k s).areas = s.areas := rfl
@[simp] theorem setCore_tlbs (c : Nat) (k : Core) (s : State) : (setCore c k s).tlbs = s.tlbs := rfl
@[simp] theorem setCore_tags (c : Nat) (k : Core) (s : State) : (setCore c k s).tags = s.tags := rfl
@[simp] theorem setCore_portBind (c : Nat) (k : Core) (s : State) : (setCore c k s).portBind = s.portBind := rfl
@[simp] theorem setCore_reqSeq (c : Nat) (k : Core) (s : State) : (setCore c k s).reqSeq = s.reqSeq := rfl
@[simp] theorem setCore_deferred (c : Nat) (k : Core) (s : State) : (setCore c k s).deferred = s.deferred := rfl
@[simp] theorem setCore_ports (c : Nat) (k : Core) (s : State) : (setCore c k s).ports = s.ports := rfl
@[simp] theorem setCore_jports (c : Nat) (k : Core) (s : State) : (setCore c k s).jports = s.jports := rfl
@[simp] theorem setCore_sites (c : Nat) (k : Core) (s : State) : (setCore c k s).sites = s.sites := rfl
@[simp] theorem setCore_porgers (c : Nat) (k : Core) (s : State) : (setCore c k s).porgers = s.porgers := rfl
@[simp] theorem setCore_groups (c : Nat) (k : Core) (s : State) : (setCore c k s).groups = s.groups := rfl
@[simp] theorem setCore_collNet (c : Nat) (k : Core) (s : State) : (setCore c k s).collNet = s.collNet := rfl
@[simp] theorem setCore_notices (c : Nat) (k : Core) (s : State) : (setCore c k s).notices = s.notices := rfl
@[simp] theorem setCore_recLost (c : Nat) (k : Core) (s : State) : (setCore c k s).recLost = s.recLost := rfl
@[simp] theorem setCore_graphs (c : Nat) (k : Core) (s : State) : (setCore c k s).graphs = s.graphs := rfl
@[simp] theorem setCore_graphSeq (c : Nat) (k : Core) (s : State) : (setCore c k s).graphSeq = s.graphSeq := rfl
@[simp] theorem setCore_cRings (c : Nat) (k : Core) (s : State) : (setCore c k s).cRings = s.cRings := rfl
@[simp] theorem setCore_fRings (c : Nat) (k : Core) (s : State) : (setCore c k s).fRings = s.fRings := rfl
@[simp] theorem setCore_tRings (c : Nat) (k : Core) (s : State) : (setCore c k s).tRings = s.tRings := rfl
@[simp] theorem setCore_fseq (c : Nat) (k : Core) (s : State) : (setCore c k s).fseq = s.fseq := rfl
@[simp] theorem setCore_frecs (c : Nat) (k : Core) (s : State) : (setCore c k s).frecs = s.frecs := rfl
@[simp] theorem setCore_trecs (c : Nat) (k : Core) (s : State) : (setCore c k s).trecs = s.trecs := rfl
@[simp] theorem setCore_trcSeq (c : Nat) (k : Core) (s : State) : (setCore c k s).trcSeq = s.trcSeq := rfl
@[simp] theorem setCore_trcLost (c : Nat) (k : Core) (s : State) : (setCore c k s).trcLost = s.trcLost := rfl
@[simp] theorem setCore_qps (c : Nat) (k : Core) (s : State) : (setCore c k s).qps = s.qps := rfl
@[simp] theorem setCore_fns (c : Nat) (k : Core) (s : State) : (setCore c k s).fns = s.fns := rfl
@[simp] theorem setCore_inflight (c : Nat) (k : Core) (s : State) : (setCore c k s).inflight = s.inflight := rfl
@[simp] theorem setCore_waits (c : Nat) (k : Core) (s : State) : (setCore c k s).waits = s.waits := rfl
@[simp] theorem setCore_lastAccept (c : Nat) (k : Core) (s : State) : (setCore c k s).lastAccept = s.lastAccept := rfl
@[simp] theorem setCore_lastQp (c : Nat) (k : Core) (s : State) : (setCore c k s).lastQp = s.lastQp := rfl
@[simp] theorem setCore_lastZero (c : Nat) (k : Core) (s : State) : (setCore c k s).lastZero = s.lastZero := rfl
@[simp] theorem setCore_ready (c : Nat) (k : Core) (s : State) : (setCore c k s).ready = s.ready := rfl
@[simp] theorem setCore_dies (c : Nat) (k : Core) (s : State) : (setCore c k s).dies = s.dies := rfl
@[simp] theorem setCore_pulse (c : Nat) (k : Core) (s : State) : (setCore c k s).pulse = s.pulse := rfl
@[simp] theorem setCore_inj (c : Nat) (k : Core) (s : State) : (setCore c k s).inj = s.inj := rfl
@[simp] theorem setCore_unseen (c : Nat) (k : Core) (s : State) : (setCore c k s).unseen = s.unseen := rfl
@[simp] theorem setCore_txeq (c : Nat) (k : Core) (s : State) : (setCore c k s).txeq = s.txeq := rfl
@[simp] theorem setCore_pwr (c : Nat) (k : Core) (s : State) : (setCore c k s).pwr = s.pwr := rfl
@[simp] theorem setCore_boot (c : Nat) (k : Core) (s : State) : (setCore c k s).boot = s.boot := rfl
@[simp] theorem setCore_sec (c : Nat) (k : Core) (s : State) : (setCore c k s).sec = s.sec := rfl
@[simp] theorem setCore_crn (c : Nat) (k : Core) (s : State) : (setCore c k s).crn = s.crn := rfl
@[simp] theorem setCore_cals (c : Nat) (k : Core) (s : State) : (setCore c k s).cals = s.cals := rfl
@[simp] theorem setCore_test (c : Nat) (k : Core) (s : State) : (setCore c k s).test = s.test := rfl
@[simp] theorem setCore_streak (c : Nat) (k : Core) (s : State) : (setCore c k s).streak = s.streak := rfl

/-! ## updCore -/

@[simp] theorem updCore_pending (c : Nat) (f : Core → Core) (s : State) : (updCore c f s).pending = s.pending := rfl
@[simp] theorem updCore_outputs (c : Nat) (f : Core → Core) (s : State) : (updCore c f s).outputs = s.outputs := rfl
@[simp] theorem updCore_freeCtr (c : Nat) (f : Core → Core) (s : State) : (updCore c f s).freeCtr = s.freeCtr := rfl
@[simp] theorem updCore_fuses (c : Nat) (f : Core → Core) (s : State) : (updCore c f s).fuses = s.fuses := rfl
@[simp] theorem updCore_crest (c : Nat) (f : Core → Core) (s : State) : (updCore c f s).crest = s.crest := rfl
@[simp] theorem updCore_crestRun (c : Nat) (f : Core → Core) (s : State) : (updCore c f s).crestRun = s.crestRun := rfl
@[simp] theorem updCore_skew (c : Nat) (f : Core → Core) (s : State) : (updCore c f s).skew = s.skew := rfl
@[simp] theorem updCore_aligning (c : Nat) (f : Core → Core) (s : State) : (updCore c f s).aligning = s.aligning := rfl
@[simp] theorem updCore_regs (c : Nat) (f : Core → Core) (s : State) : (updCore c f s).regs = s.regs := rfl
@[simp] theorem updCore_rdShadow (c : Nat) (f : Core → Core) (s : State) : (updCore c f s).rdShadow = s.rdShadow := rfl
@[simp] theorem updCore_wrShadow (c : Nat) (f : Core → Core) (s : State) : (updCore c f s).wrShadow = s.wrShadow := rfl
@[simp] theorem updCore_sram (c : Nat) (f : Core → Core) (s : State) : (updCore c f s).sram = s.sram := rfl
@[simp] theorem updCore_mem (c : Nat) (f : Core → Core) (s : State) : (updCore c f s).mem = s.mem := rfl
@[simp] theorem updCore_cwErr (c : Nat) (f : Core → Core) (s : State) : (updCore c f s).cwErr = s.cwErr := rfl
@[simp] theorem updCore_scrub (c : Nat) (f : Core → Core) (s : State) : (updCore c f s).scrub = s.scrub := rfl
@[simp] theorem updCore_caches (c : Nat) (f : Core → Core) (s : State) : (updCore c f s).caches = s.caches := rfl
@[simp] theorem updCore_grans (c : Nat) (f : Core → Core) (s : State) : (updCore c f s).grans = s.grans := rfl
@[simp] theorem updCore_areas (c : Nat) (f : Core → Core) (s : State) : (updCore c f s).areas = s.areas := rfl
@[simp] theorem updCore_tlbs (c : Nat) (f : Core → Core) (s : State) : (updCore c f s).tlbs = s.tlbs := rfl
@[simp] theorem updCore_tags (c : Nat) (f : Core → Core) (s : State) : (updCore c f s).tags = s.tags := rfl
@[simp] theorem updCore_portBind (c : Nat) (f : Core → Core) (s : State) : (updCore c f s).portBind = s.portBind := rfl
@[simp] theorem updCore_reqSeq (c : Nat) (f : Core → Core) (s : State) : (updCore c f s).reqSeq = s.reqSeq := rfl
@[simp] theorem updCore_deferred (c : Nat) (f : Core → Core) (s : State) : (updCore c f s).deferred = s.deferred := rfl
@[simp] theorem updCore_ports (c : Nat) (f : Core → Core) (s : State) : (updCore c f s).ports = s.ports := rfl
@[simp] theorem updCore_jports (c : Nat) (f : Core → Core) (s : State) : (updCore c f s).jports = s.jports := rfl
@[simp] theorem updCore_sites (c : Nat) (f : Core → Core) (s : State) : (updCore c f s).sites = s.sites := rfl
@[simp] theorem updCore_porgers (c : Nat) (f : Core → Core) (s : State) : (updCore c f s).porgers = s.porgers := rfl
@[simp] theorem updCore_groups (c : Nat) (f : Core → Core) (s : State) : (updCore c f s).groups = s.groups := rfl
@[simp] theorem updCore_collNet (c : Nat) (f : Core → Core) (s : State) : (updCore c f s).collNet = s.collNet := rfl
@[simp] theorem updCore_notices (c : Nat) (f : Core → Core) (s : State) : (updCore c f s).notices = s.notices := rfl
@[simp] theorem updCore_recLost (c : Nat) (f : Core → Core) (s : State) : (updCore c f s).recLost = s.recLost := rfl
@[simp] theorem updCore_graphs (c : Nat) (f : Core → Core) (s : State) : (updCore c f s).graphs = s.graphs := rfl
@[simp] theorem updCore_graphSeq (c : Nat) (f : Core → Core) (s : State) : (updCore c f s).graphSeq = s.graphSeq := rfl
@[simp] theorem updCore_cRings (c : Nat) (f : Core → Core) (s : State) : (updCore c f s).cRings = s.cRings := rfl
@[simp] theorem updCore_fRings (c : Nat) (f : Core → Core) (s : State) : (updCore c f s).fRings = s.fRings := rfl
@[simp] theorem updCore_tRings (c : Nat) (f : Core → Core) (s : State) : (updCore c f s).tRings = s.tRings := rfl
@[simp] theorem updCore_fseq (c : Nat) (f : Core → Core) (s : State) : (updCore c f s).fseq = s.fseq := rfl
@[simp] theorem updCore_frecs (c : Nat) (f : Core → Core) (s : State) : (updCore c f s).frecs = s.frecs := rfl
@[simp] theorem updCore_trecs (c : Nat) (f : Core → Core) (s : State) : (updCore c f s).trecs = s.trecs := rfl
@[simp] theorem updCore_trcSeq (c : Nat) (f : Core → Core) (s : State) : (updCore c f s).trcSeq = s.trcSeq := rfl
@[simp] theorem updCore_trcLost (c : Nat) (f : Core → Core) (s : State) : (updCore c f s).trcLost = s.trcLost := rfl
@[simp] theorem updCore_qps (c : Nat) (f : Core → Core) (s : State) : (updCore c f s).qps = s.qps := rfl
@[simp] theorem updCore_fns (c : Nat) (f : Core → Core) (s : State) : (updCore c f s).fns = s.fns := rfl
@[simp] theorem updCore_inflight (c : Nat) (f : Core → Core) (s : State) : (updCore c f s).inflight = s.inflight := rfl
@[simp] theorem updCore_waits (c : Nat) (f : Core → Core) (s : State) : (updCore c f s).waits = s.waits := rfl
@[simp] theorem updCore_lastAccept (c : Nat) (f : Core → Core) (s : State) : (updCore c f s).lastAccept = s.lastAccept := rfl
@[simp] theorem updCore_lastQp (c : Nat) (f : Core → Core) (s : State) : (updCore c f s).lastQp = s.lastQp := rfl
@[simp] theorem updCore_lastZero (c : Nat) (f : Core → Core) (s : State) : (updCore c f s).lastZero = s.lastZero := rfl
@[simp] theorem updCore_ready (c : Nat) (f : Core → Core) (s : State) : (updCore c f s).ready = s.ready := rfl
@[simp] theorem updCore_dies (c : Nat) (f : Core → Core) (s : State) : (updCore c f s).dies = s.dies := rfl
@[simp] theorem updCore_pulse (c : Nat) (f : Core → Core) (s : State) : (updCore c f s).pulse = s.pulse := rfl
@[simp] theorem updCore_inj (c : Nat) (f : Core → Core) (s : State) : (updCore c f s).inj = s.inj := rfl
@[simp] theorem updCore_unseen (c : Nat) (f : Core → Core) (s : State) : (updCore c f s).unseen = s.unseen := rfl
@[simp] theorem updCore_txeq (c : Nat) (f : Core → Core) (s : State) : (updCore c f s).txeq = s.txeq := rfl
@[simp] theorem updCore_pwr (c : Nat) (f : Core → Core) (s : State) : (updCore c f s).pwr = s.pwr := rfl
@[simp] theorem updCore_boot (c : Nat) (f : Core → Core) (s : State) : (updCore c f s).boot = s.boot := rfl
@[simp] theorem updCore_sec (c : Nat) (f : Core → Core) (s : State) : (updCore c f s).sec = s.sec := rfl
@[simp] theorem updCore_crn (c : Nat) (f : Core → Core) (s : State) : (updCore c f s).crn = s.crn := rfl
@[simp] theorem updCore_cals (c : Nat) (f : Core → Core) (s : State) : (updCore c f s).cals = s.cals := rfl
@[simp] theorem updCore_test (c : Nat) (f : Core → Core) (s : State) : (updCore c f s).test = s.test := rfl
@[simp] theorem updCore_streak (c : Nat) (f : Core → Core) (s : State) : (updCore c f s).streak = s.streak := rfl

/-! ## setDie -/

@[simp] theorem setDie_pending (u : Nat) (d : DieSt) (s : State) : (setDie u d s).pending = s.pending := rfl
@[simp] theorem setDie_outputs (u : Nat) (d : DieSt) (s : State) : (setDie u d s).outputs = s.outputs := rfl
@[simp] theorem setDie_freeCtr (u : Nat) (d : DieSt) (s : State) : (setDie u d s).freeCtr = s.freeCtr := rfl
@[simp] theorem setDie_fuses (u : Nat) (d : DieSt) (s : State) : (setDie u d s).fuses = s.fuses := rfl
@[simp] theorem setDie_crest (u : Nat) (d : DieSt) (s : State) : (setDie u d s).crest = s.crest := rfl
@[simp] theorem setDie_crestRun (u : Nat) (d : DieSt) (s : State) : (setDie u d s).crestRun = s.crestRun := rfl
@[simp] theorem setDie_skew (u : Nat) (d : DieSt) (s : State) : (setDie u d s).skew = s.skew := rfl
@[simp] theorem setDie_aligning (u : Nat) (d : DieSt) (s : State) : (setDie u d s).aligning = s.aligning := rfl
@[simp] theorem setDie_regs (u : Nat) (d : DieSt) (s : State) : (setDie u d s).regs = s.regs := rfl
@[simp] theorem setDie_rdShadow (u : Nat) (d : DieSt) (s : State) : (setDie u d s).rdShadow = s.rdShadow := rfl
@[simp] theorem setDie_wrShadow (u : Nat) (d : DieSt) (s : State) : (setDie u d s).wrShadow = s.wrShadow := rfl
@[simp] theorem setDie_sram (u : Nat) (d : DieSt) (s : State) : (setDie u d s).sram = s.sram := rfl
@[simp] theorem setDie_cores (u : Nat) (d : DieSt) (s : State) : (setDie u d s).cores = s.cores := rfl
@[simp] theorem setDie_mem (u : Nat) (d : DieSt) (s : State) : (setDie u d s).mem = s.mem := rfl
@[simp] theorem setDie_cwErr (u : Nat) (d : DieSt) (s : State) : (setDie u d s).cwErr = s.cwErr := rfl
@[simp] theorem setDie_scrub (u : Nat) (d : DieSt) (s : State) : (setDie u d s).scrub = s.scrub := rfl
@[simp] theorem setDie_caches (u : Nat) (d : DieSt) (s : State) : (setDie u d s).caches = s.caches := rfl
@[simp] theorem setDie_grans (u : Nat) (d : DieSt) (s : State) : (setDie u d s).grans = s.grans := rfl
@[simp] theorem setDie_areas (u : Nat) (d : DieSt) (s : State) : (setDie u d s).areas = s.areas := rfl
@[simp] theorem setDie_tlbs (u : Nat) (d : DieSt) (s : State) : (setDie u d s).tlbs = s.tlbs := rfl
@[simp] theorem setDie_tags (u : Nat) (d : DieSt) (s : State) : (setDie u d s).tags = s.tags := rfl
@[simp] theorem setDie_portBind (u : Nat) (d : DieSt) (s : State) : (setDie u d s).portBind = s.portBind := rfl
@[simp] theorem setDie_reqSeq (u : Nat) (d : DieSt) (s : State) : (setDie u d s).reqSeq = s.reqSeq := rfl
@[simp] theorem setDie_deferred (u : Nat) (d : DieSt) (s : State) : (setDie u d s).deferred = s.deferred := rfl
@[simp] theorem setDie_ports (u : Nat) (d : DieSt) (s : State) : (setDie u d s).ports = s.ports := rfl
@[simp] theorem setDie_jports (u : Nat) (d : DieSt) (s : State) : (setDie u d s).jports = s.jports := rfl
@[simp] theorem setDie_sites (u : Nat) (d : DieSt) (s : State) : (setDie u d s).sites = s.sites := rfl
@[simp] theorem setDie_porgers (u : Nat) (d : DieSt) (s : State) : (setDie u d s).porgers = s.porgers := rfl
@[simp] theorem setDie_groups (u : Nat) (d : DieSt) (s : State) : (setDie u d s).groups = s.groups := rfl
@[simp] theorem setDie_collNet (u : Nat) (d : DieSt) (s : State) : (setDie u d s).collNet = s.collNet := rfl
@[simp] theorem setDie_notices (u : Nat) (d : DieSt) (s : State) : (setDie u d s).notices = s.notices := rfl
@[simp] theorem setDie_recLost (u : Nat) (d : DieSt) (s : State) : (setDie u d s).recLost = s.recLost := rfl
@[simp] theorem setDie_graphs (u : Nat) (d : DieSt) (s : State) : (setDie u d s).graphs = s.graphs := rfl
@[simp] theorem setDie_graphSeq (u : Nat) (d : DieSt) (s : State) : (setDie u d s).graphSeq = s.graphSeq := rfl
@[simp] theorem setDie_cRings (u : Nat) (d : DieSt) (s : State) : (setDie u d s).cRings = s.cRings := rfl
@[simp] theorem setDie_fRings (u : Nat) (d : DieSt) (s : State) : (setDie u d s).fRings = s.fRings := rfl
@[simp] theorem setDie_tRings (u : Nat) (d : DieSt) (s : State) : (setDie u d s).tRings = s.tRings := rfl
@[simp] theorem setDie_fseq (u : Nat) (d : DieSt) (s : State) : (setDie u d s).fseq = s.fseq := rfl
@[simp] theorem setDie_frecs (u : Nat) (d : DieSt) (s : State) : (setDie u d s).frecs = s.frecs := rfl
@[simp] theorem setDie_trecs (u : Nat) (d : DieSt) (s : State) : (setDie u d s).trecs = s.trecs := rfl
@[simp] theorem setDie_trcSeq (u : Nat) (d : DieSt) (s : State) : (setDie u d s).trcSeq = s.trcSeq := rfl
@[simp] theorem setDie_trcLost (u : Nat) (d : DieSt) (s : State) : (setDie u d s).trcLost = s.trcLost := rfl
@[simp] theorem setDie_qps (u : Nat) (d : DieSt) (s : State) : (setDie u d s).qps = s.qps := rfl
@[simp] theorem setDie_fns (u : Nat) (d : DieSt) (s : State) : (setDie u d s).fns = s.fns := rfl
@[simp] theorem setDie_inflight (u : Nat) (d : DieSt) (s : State) : (setDie u d s).inflight = s.inflight := rfl
@[simp] theorem setDie_waits (u : Nat) (d : DieSt) (s : State) : (setDie u d s).waits = s.waits := rfl
@[simp] theorem setDie_lastAccept (u : Nat) (d : DieSt) (s : State) : (setDie u d s).lastAccept = s.lastAccept := rfl
@[simp] theorem setDie_lastQp (u : Nat) (d : DieSt) (s : State) : (setDie u d s).lastQp = s.lastQp := rfl
@[simp] theorem setDie_lastZero (u : Nat) (d : DieSt) (s : State) : (setDie u d s).lastZero = s.lastZero := rfl
@[simp] theorem setDie_ready (u : Nat) (d : DieSt) (s : State) : (setDie u d s).ready = s.ready := rfl
@[simp] theorem setDie_dies (u : Nat) (d : DieSt) (s : State) : (setDie u d s).dies = Mp.put {} s.dies u d := rfl
@[simp] theorem setDie_pulse (u : Nat) (d : DieSt) (s : State) : (setDie u d s).pulse = s.pulse := rfl
@[simp] theorem setDie_inj (u : Nat) (d : DieSt) (s : State) : (setDie u d s).inj = s.inj := rfl
@[simp] theorem setDie_unseen (u : Nat) (d : DieSt) (s : State) : (setDie u d s).unseen = s.unseen := rfl
@[simp] theorem setDie_txeq (u : Nat) (d : DieSt) (s : State) : (setDie u d s).txeq = s.txeq := rfl
@[simp] theorem setDie_pwr (u : Nat) (d : DieSt) (s : State) : (setDie u d s).pwr = s.pwr := rfl
@[simp] theorem setDie_boot (u : Nat) (d : DieSt) (s : State) : (setDie u d s).boot = s.boot := rfl
@[simp] theorem setDie_sec (u : Nat) (d : DieSt) (s : State) : (setDie u d s).sec = s.sec := rfl
@[simp] theorem setDie_crn (u : Nat) (d : DieSt) (s : State) : (setDie u d s).crn = s.crn := rfl
@[simp] theorem setDie_cals (u : Nat) (d : DieSt) (s : State) : (setDie u d s).cals = s.cals := rfl
@[simp] theorem setDie_test (u : Nat) (d : DieSt) (s : State) : (setDie u d s).test = s.test := rfl
@[simp] theorem setDie_streak (u : Nat) (d : DieSt) (s : State) : (setDie u d s).streak = s.streak := rfl

/-! ## setGraph -/

@[simp] theorem setGraph_pending (h : Nat) (g : Graph) (s : State) : (setGraph h g s).pending = s.pending := rfl
@[simp] theorem setGraph_outputs (h : Nat) (g : Graph) (s : State) : (setGraph h g s).outputs = s.outputs := rfl
@[simp] theorem setGraph_freeCtr (h : Nat) (g : Graph) (s : State) : (setGraph h g s).freeCtr = s.freeCtr := rfl
@[simp] theorem setGraph_fuses (h : Nat) (g : Graph) (s : State) : (setGraph h g s).fuses = s.fuses := rfl
@[simp] theorem setGraph_crest (h : Nat) (g : Graph) (s : State) : (setGraph h g s).crest = s.crest := rfl
@[simp] theorem setGraph_crestRun (h : Nat) (g : Graph) (s : State) : (setGraph h g s).crestRun = s.crestRun := rfl
@[simp] theorem setGraph_skew (h : Nat) (g : Graph) (s : State) : (setGraph h g s).skew = s.skew := rfl
@[simp] theorem setGraph_aligning (h : Nat) (g : Graph) (s : State) : (setGraph h g s).aligning = s.aligning := rfl
@[simp] theorem setGraph_regs (h : Nat) (g : Graph) (s : State) : (setGraph h g s).regs = s.regs := rfl
@[simp] theorem setGraph_rdShadow (h : Nat) (g : Graph) (s : State) : (setGraph h g s).rdShadow = s.rdShadow := rfl
@[simp] theorem setGraph_wrShadow (h : Nat) (g : Graph) (s : State) : (setGraph h g s).wrShadow = s.wrShadow := rfl
@[simp] theorem setGraph_sram (h : Nat) (g : Graph) (s : State) : (setGraph h g s).sram = s.sram := rfl
@[simp] theorem setGraph_cores (h : Nat) (g : Graph) (s : State) : (setGraph h g s).cores = s.cores := rfl
@[simp] theorem setGraph_mem (h : Nat) (g : Graph) (s : State) : (setGraph h g s).mem = s.mem := rfl
@[simp] theorem setGraph_cwErr (h : Nat) (g : Graph) (s : State) : (setGraph h g s).cwErr = s.cwErr := rfl
@[simp] theorem setGraph_scrub (h : Nat) (g : Graph) (s : State) : (setGraph h g s).scrub = s.scrub := rfl
@[simp] theorem setGraph_caches (h : Nat) (g : Graph) (s : State) : (setGraph h g s).caches = s.caches := rfl
@[simp] theorem setGraph_grans (h : Nat) (g : Graph) (s : State) : (setGraph h g s).grans = s.grans := rfl
@[simp] theorem setGraph_areas (h : Nat) (g : Graph) (s : State) : (setGraph h g s).areas = s.areas := rfl
@[simp] theorem setGraph_tlbs (h : Nat) (g : Graph) (s : State) : (setGraph h g s).tlbs = s.tlbs := rfl
@[simp] theorem setGraph_tags (h : Nat) (g : Graph) (s : State) : (setGraph h g s).tags = s.tags := rfl
@[simp] theorem setGraph_portBind (h : Nat) (g : Graph) (s : State) : (setGraph h g s).portBind = s.portBind := rfl
@[simp] theorem setGraph_reqSeq (h : Nat) (g : Graph) (s : State) : (setGraph h g s).reqSeq = s.reqSeq := rfl
@[simp] theorem setGraph_deferred (h : Nat) (g : Graph) (s : State) : (setGraph h g s).deferred = s.deferred := rfl
@[simp] theorem setGraph_ports (h : Nat) (g : Graph) (s : State) : (setGraph h g s).ports = s.ports := rfl
@[simp] theorem setGraph_jports (h : Nat) (g : Graph) (s : State) : (setGraph h g s).jports = s.jports := rfl
@[simp] theorem setGraph_sites (h : Nat) (g : Graph) (s : State) : (setGraph h g s).sites = s.sites := rfl
@[simp] theorem setGraph_porgers (h : Nat) (g : Graph) (s : State) : (setGraph h g s).porgers = s.porgers := rfl
@[simp] theorem setGraph_groups (h : Nat) (g : Graph) (s : State) : (setGraph h g s).groups = s.groups := rfl
@[simp] theorem setGraph_collNet (h : Nat) (g : Graph) (s : State) : (setGraph h g s).collNet = s.collNet := rfl
@[simp] theorem setGraph_notices (h : Nat) (g : Graph) (s : State) : (setGraph h g s).notices = s.notices := rfl
@[simp] theorem setGraph_recLost (h : Nat) (g : Graph) (s : State) : (setGraph h g s).recLost = s.recLost := rfl
@[simp] theorem setGraph_graphs (h : Nat) (g : Graph) (s : State) : (setGraph h g s).graphs = Mp.ins s.graphs h g := rfl
@[simp] theorem setGraph_graphSeq (h : Nat) (g : Graph) (s : State) : (setGraph h g s).graphSeq = s.graphSeq := rfl
@[simp] theorem setGraph_cRings (h : Nat) (g : Graph) (s : State) : (setGraph h g s).cRings = s.cRings := rfl
@[simp] theorem setGraph_fRings (h : Nat) (g : Graph) (s : State) : (setGraph h g s).fRings = s.fRings := rfl
@[simp] theorem setGraph_tRings (h : Nat) (g : Graph) (s : State) : (setGraph h g s).tRings = s.tRings := rfl
@[simp] theorem setGraph_fseq (h : Nat) (g : Graph) (s : State) : (setGraph h g s).fseq = s.fseq := rfl
@[simp] theorem setGraph_frecs (h : Nat) (g : Graph) (s : State) : (setGraph h g s).frecs = s.frecs := rfl
@[simp] theorem setGraph_trecs (h : Nat) (g : Graph) (s : State) : (setGraph h g s).trecs = s.trecs := rfl
@[simp] theorem setGraph_trcSeq (h : Nat) (g : Graph) (s : State) : (setGraph h g s).trcSeq = s.trcSeq := rfl
@[simp] theorem setGraph_trcLost (h : Nat) (g : Graph) (s : State) : (setGraph h g s).trcLost = s.trcLost := rfl
@[simp] theorem setGraph_qps (h : Nat) (g : Graph) (s : State) : (setGraph h g s).qps = s.qps := rfl
@[simp] theorem setGraph_fns (h : Nat) (g : Graph) (s : State) : (setGraph h g s).fns = s.fns := rfl
@[simp] theorem setGraph_inflight (h : Nat) (g : Graph) (s : State) : (setGraph h g s).inflight = s.inflight := rfl
@[simp] theorem setGraph_waits (h : Nat) (g : Graph) (s : State) : (setGraph h g s).waits = s.waits := rfl
@[simp] theorem setGraph_lastAccept (h : Nat) (g : Graph) (s : State) : (setGraph h g s).lastAccept = s.lastAccept := rfl
@[simp] theorem setGraph_lastQp (h : Nat) (g : Graph) (s : State) : (setGraph h g s).lastQp = s.lastQp := rfl
@[simp] theorem setGraph_lastZero (h : Nat) (g : Graph) (s : State) : (setGraph h g s).lastZero = s.lastZero := rfl
@[simp] theorem setGraph_ready (h : Nat) (g : Graph) (s : State) : (setGraph h g s).ready = s.ready := rfl
@[simp] theorem setGraph_dies (h : Nat) (g : Graph) (s : State) : (setGraph h g s).dies = s.dies := rfl
@[simp] theorem setGraph_pulse (h : Nat) (g : Graph) (s : State) : (setGraph h g s).pulse = s.pulse := rfl
@[simp] theorem setGraph_inj (h : Nat) (g : Graph) (s : State) : (setGraph h g s).inj = s.inj := rfl
@[simp] theorem setGraph_unseen (h : Nat) (g : Graph) (s : State) : (setGraph h g s).unseen = s.unseen := rfl
@[simp] theorem setGraph_txeq (h : Nat) (g : Graph) (s : State) : (setGraph h g s).txeq = s.txeq := rfl
@[simp] theorem setGraph_pwr (h : Nat) (g : Graph) (s : State) : (setGraph h g s).pwr = s.pwr := rfl
@[simp] theorem setGraph_boot (h : Nat) (g : Graph) (s : State) : (setGraph h g s).boot = s.boot := rfl
@[simp] theorem setGraph_sec (h : Nat) (g : Graph) (s : State) : (setGraph h g s).sec = s.sec := rfl
@[simp] theorem setGraph_crn (h : Nat) (g : Graph) (s : State) : (setGraph h g s).crn = s.crn := rfl
@[simp] theorem setGraph_cals (h : Nat) (g : Graph) (s : State) : (setGraph h g s).cals = s.cals := rfl
@[simp] theorem setGraph_test (h : Nat) (g : Graph) (s : State) : (setGraph h g s).test = s.test := rfl
@[simp] theorem setGraph_streak (h : Nat) (g : Graph) (s : State) : (setGraph h g s).streak = s.streak := rfl

end Sys2Proof.Machine
end

