-- ==== Sys2Proof/Laws/Cores.lean ====
section
/-! SUPPORT. One core among the others, and what the sequencer and a unit do on a core with nothing queued. -/

namespace Sys2Proof.Machine

@[simp] theorem coreOf_setCore (c : Nat) (k : Core) (s : State) : coreOf (setCore c k s) c = k := by
  simp only [coreOf, setCore]
  unfold Mp.put
  split
  · rename_i h
    subst h
    simp [Mp.get_eq_find, Mp.del, Mp.find_filter_key s.cores (fun x => x != c)]
  · exact Mp.get_ins_same ..

theorem coreOf_setCore_ne (c d : Nat) (k : Core) (s : State) (h : d ≠ c) : coreOf (setCore c k s) d = coreOf s d :=
  Mp.get_put_ne _ _ _ _ _ h

@[simp] theorem coreOf_updCore (c : Nat) (f : Core → Core) (s : State) : coreOf (updCore c f s) c = f (coreOf s c) :=
  coreOf_setCore ..

theorem CoreOnly.refl (c : Nat) (s : State) : CoreOnly c (coreOf s c) s s := ⟨rfl, fun _ _ => rfl, rfl⟩

theorem CoreOnly.set {c : Nat} {k : Core} {s t : State} (h : CoreOnly c k s t) (k' : Core) : CoreOnly c k' s (setCore c k' t) := by
  refine ⟨coreOf_setCore .., fun d hd => (coreOf_setCore_ne c d k' t hd).trans (h.2.1 d hd), ?_⟩
  have := h.2.2
  rw [this]
  rfl

theorem CoreOnly.upd {c : Nat} {k : Core} {s t : State} (h : CoreOnly c k s t) (f : Core → Core) : CoreOnly c (f k) s (updCore c f t) := by
  have h1 := h.set (f (coreOf t c))
  rw [h.1] at h1
  unfold updCore
  rw [h.1]
  exact h1

theorem CoreOnly.eq {c : Nat} {k k' : Core} {s t : State} (h : CoreOnly c k s t) (e : k = k') : CoreOnly c k' s t := e ▸ h

/-! ## Nothing queued -/

theorem Mp.get_mem {α : Type} (d : α) (m : Mp α) (k : Nat) : Mp.get d m k = d ∨ (k, Mp.get d m k) ∈ m := by
  induction m with
  | nil => exact .inl rfl
  | cons p r ih =>
    obtain ⟨k', v⟩ := p
    unfold Mp.get
    split
    · rename_i h
      subst h
      exact .inr (List.mem_cons_self ..)
    · exact ih.imp id (List.mem_cons_of_mem _)

/-- A core with nothing queued has every queue empty. -/
theorem queue_nil {k : Core} (h : k.queues.flatMap (·.2) = []) (u : Nat) : Mp.get [] k.queues u = [] := by
  rcases Mp.get_mem [] k.queues u with h1 | h1
  · exact h1
  · rw [List.flatMap_eq_nil_iff] at h
    exact h _ h1

/-- Every queued instruction of a core has started. -/
def AllStarted (k : Core) : Prop := ∀ u, ∀ e ∈ Mp.get [] k.queues u, e.started = true

theorem startNext_idle {c u : Nat} {s : State} (h : AllStarted (coreOf s c)) : startNext c u s = (s, false) := by
  have h1 : (Mp.get [] (coreOf s c).queues u).find? (fun x => !x.started) = none := by
    rw [List.find?_eq_none]
    intro e he
    simp [h u e he]
  unfold startNext
  simp only [h1]

/-- Nothing starts where everything has started. -/
theorem pump_idle {c : Nat} {s : State} (h : AllStarted (coreOf s c)) : pump c s = s := by
  unfold pump pumpN
  have h1 (l : List Nat) : l.foldl (fun (r : State × Bool) u =>
      let q := startNext c u r.1
      (q.1, r.2 || q.2)) (s, false) = (s, false) := by
    induction l with
    | nil => rfl
    | cons u l ih => simp only [List.foldl_cons, startNext_idle h, Bool.or_false]; exact ih
  simp only [h1]
  rfl

theorem allStarted_nil {k : Core} (h : k.queues.flatMap (·.2) = []) : AllStarted k := fun u e he => by simp [queue_nil h u] at he

/-! ## An instruction of the sequencer's own -/

theorem allEnts_nil {k : Core} (h : k.queues.flatMap (·.2) = []) : allEnts k = [] := by simp only [allEnts, h, List.filter_nil]

theorem blocked_nil {k : Core} (h : k.queues.flatMap (·.2) = []) (x : List Nat × List Nat) : blocked k x = false := by
  simp [blocked, allEnts_nil h]

/-- The signal of a word that has room for it. -/
theorem signalEv_core {c pc : Nat} {p : Pre} {k : Core} {s t : State} (h : CoreOnly c k s t) (hf : SignalFits p k) :
    CoreOnly c (giveSignal p k) s (signalEv c pc p t) := by
  unfold signalEv giveSignal
  split
  · rename_i hv
    have h1 := hf hv
    unfold evAdd
    rw [h.1]
    rw [if_neg (by omega)]
    exact h.upd _
  · exact h

/-- What the sequencer does with a word a core is ready for and whose predicate holds, whatever its operation comes to. -/
theorem sqRun_eq {c : Nat} {w : CWord} {s : State} (eff : Nat → State → ERes) (h : CoreReady s c w)
    (hp : predOk (coreOf s c) w = true) : ∃ u, CoreOnly c { begun1 w (coreOf s c) with waited := w.pre.wv } s u ∧
      sqRun c w eff s = (match eff (coreOf s c).pc.toNat u with
        | .done t => pump c (signalEv c (coreOf s c).pc.toNat w.pre (updCore c (fun k => { k with waited := false }) t))
        | .fail st t => coreFail c st (coreOf s c).pc.toNat t
        | .ended t => t
        | .held t => updCore c (fun x => { x with pc := (coreOf s c).pc }) t) := by
  have hw1 : (w.pre.wv && evGet (coreOf s c) w.pre.we.toNat == 0) = false := by
    cases hv : w.pre.wv
    · simp
    · have := h.wait hv
      simp; omega
  have ho : otherInHand (coreOf s c) w = false := by simp [otherInHand, h.sem]
  refine ⟨setCore c { (if w.pre.wv = true then evSet w.pre.we.toNat (evGet (coreOf s c) w.pre.we.toNat - 1)
        { coreOf s c with waited := true } else coreOf s c) with pc := (coreOf s c).pc + 16#64 } s, ?_, ?_⟩
  · refine ((CoreOnly.refl c s).set _).eq ?_
    have := h.fresh
    unfold begun1 takeWait
    cases hv : w.pre.wv
    · simp only [Bool.false_eq_true, if_false, Core.mk.injEq, true_and, and_true]
      exact this
    · rfl
  · unfold sqRun
    simp only [h.issues, ho, h.legal, blocked_nil h.idle, hp, h.fresh, Bool.not_true, Bool.or_self, Bool.false_eq_true,
      if_false, Bool.and_false, Bool.not_false, Bool.and_true, if_true, hw1] <;> rfl

/-- What the sequencer does with a word a core is ready for and whose predicate holds: the operation, then the signal. -/
theorem sqRun_ready {c : Nat} {w : CWord} {s t : State} {k : Core} {eff : Nat → State → ERes} (h : CoreReady s c w)
    (hp : predOk (coreOf s c) w = true)
    (he : ∀ u, CoreOnly c { begun1 w (coreOf s c) with waited := w.pre.wv } s u →
      ∃ t, eff (coreOf s c).pc.toNat u = .done t ∧ CoreOnly c { k with waited := w.pre.wv } s t)
    (hq : k.queues.flatMap (·.2) = []) (hw : k.waited = false) (hf : SignalFits w.pre k) (ht : t = sqRun c w eff s) :
    CoreOnly c (giveSignal w.pre k) s t := by
  subst ht
  obtain ⟨u, hu, hr⟩ := sqRun_eq eff h hp
  obtain ⟨t, ht, hc⟩ := he _ hu
  rw [hr, ht]
  have h2 : CoreOnly c k s (updCore c (fun k => { k with waited := false }) t) := by
    refine (hc.upd _).eq ?_
    simp [← hw]
  have h3 := signalEv_core (pc := (coreOf s c).pc.toNat) h2 hf
  dsimp only
  rw [pump_idle]
  · exact h3
  · rw [h3.1]
    have : (giveSignal w.pre k).queues.flatMap (·.2) = [] := by
      unfold giveSignal
      split <;> exact hq
    exact allStarted_nil this

/-- A word whose predicate is false: its wait and its signal happen, its operation does not (R73). -/
theorem sqRun_skipped {c : Nat} {w : CWord} {s t : State} {eff : Nat → State → ERes} (h : CoreReady s c w)
    (hp : predOk (coreOf s c) w = false) (hf : SignalFits w.pre (begun1 w (coreOf s c))) (ht : t = sqRun c w eff s) :
    CoreOnly c (giveSignal w.pre (begun1 w (coreOf s c))) s t := by
  subst ht
  have hw1 : (w.pre.wv && evGet (coreOf s c) w.pre.we.toNat == 0) = false := by
    cases hv : w.pre.wv
    · simp
    · have := h.wait hv
      simp; omega
  have ho : otherInHand (coreOf s c) w = false := by simp [otherInHand, h.sem]
  unfold sqRun
  simp only [h.issues, ho, h.legal, blocked_nil h.idle, hp, h.fresh, Bool.not_true, Bool.or_self, Bool.false_eq_true,
    if_false, Bool.and_false, Bool.not_false, Bool.and_true, hw1]
  have h2 : CoreOnly c (begun1 w (coreOf s c)) s (updCore c (fun k => { k with waited := false })
      (setCore c { (if w.pre.wv = true then evSet w.pre.we.toNat (evGet (coreOf s c) w.pre.we.toNat - 1)
        { coreOf s c with waited := true } else coreOf s c) with pc := (coreOf s c).pc + 16#64 } s)) := by
    refine (((CoreOnly.refl c s).set _).upd _).eq ?_
    have := h.fresh
    unfold begun1 takeWait
    cases hv : w.pre.wv
    · simp only [Bool.false_eq_true, if_false, Core.mk.injEq, true_and, and_true]
      exact this.symm
    · simp only [if_true, evSet, Core.mk.injEq, true_and, and_true]
      exact this.symm
  have h3 := signalEv_core (pc := (coreOf s c).pc.toNat) h2 hf
  rw [pump_idle]
  · exact h3
  · rw [h3.1]
    have : (giveSignal w.pre (begun1 w (coreOf s c))).queues.flatMap (·.2) = [] := by
      have h4 := h.idle
      unfold giveSignal begun1 takeWait
      split <;> split <;> exact h4
    exact allStarted_nil this

/-! ## An instruction of another unit -/

theorem startNext_none {c u : Nat} {s : State} (h : (Mp.get [] (coreOf s c).queues u).find? (fun x => !x.started) = none) :
    startNext c u s = (s, false) := by
  unfold startNext
  simp only [h]

/-- One round over the units where one alone has something to start. -/
theorem pump_round {c u : Nat} {s t : State} (hu : startNext c u s = (t, true)) (hs : ∀ v, v ≠ u → startNext c v s = (s, false))
    (ht : ∀ v, startNext c v t = (t, false)) (l : List Nat) (b : Bool) :
    l.foldl (fun (r : State × Bool) v =>
      let q := startNext c v r.1
      (q.1, r.2 || q.2)) (s, b) = (if u ∈ l then (t, true) else (s, b)) := by
  have hr (l : List Nat) (b : Bool) : l.foldl (fun (r : State × Bool) v =>
      let q := startNext c v r.1
      (q.1, r.2 || q.2)) (t, b) = (t, b) := by
    induction l with
    | nil => rfl
    | cons v l ih => simp only [List.foldl_cons, ht, Bool.or_false]; exact ih
  induction l generalizing b with
  | nil => rfl
  | cons v l ih =>
    simp only [List.foldl_cons]
    by_cases hv : v = u
    · subst hv
      simp only [hu, Bool.or_true, hr, List.mem_cons, true_or, if_true]
    · simp only [hs v hv, Bool.or_false, ih, List.mem_cons, Ne.symm hv, false_or]

theorem pump_one {c u : Nat} {s t : State} (hu : startNext c u s = (t, true)) (hs : ∀ v, v ≠ u → startNext c v s = (s, false))
    (ht : AllStarted (coreOf t c)) (h12 : u < 12) : pump c s = t := by
  have h1 := pump_round hu hs (fun v => startNext_idle ht) (List.range 12) false
  have hm : u ∈ List.range 12 := List.mem_range.2 h12
  unfold pump
  unfold pumpN
  simp only [h1, hm, if_true]
  have h2 := pump_idle ht
  unfold pump at h2
  have h3 := pump_round (c := c) (u := 12) (s := t) (t := t)
  unfold pumpN
  have hr (l : List Nat) (b : Bool) : l.foldl (fun (r : State × Bool) v =>
      let q := startNext c v r.1
      (q.1, r.2 || q.2)) (t, b) = (t, b) := by
    induction l with
    | nil => rfl
    | cons v l ih => simp only [List.foldl_cons, startNext_idle ht, Bool.or_false]; exact ih
  simp only [hr, Bool.false_eq_true, if_false]

/-- The core when an instruction of another unit stands in its queue, not yet started. -/
def entered (u : Nat) (w : CWord) (k : Core) : Core :=
  { k with pc := k.pc + 16#64, place := k.place + 1, queues := Mp.put [] k.queues u [⟨w, k.pc, true, k.place, false, false⟩] }

theorem Mp.ins_ins {α : Type} (m : Mp α) (k : Nat) (v v' : α) : Mp.ins (Mp.ins m k v) k v' = Mp.ins m k v' := by
  induction m with
  | nil => simp [Mp.ins]
  | cons p r ih =>
    obtain ⟨k', x⟩ := p
    by_cases h1 : k' < k
    · simp [Mp.ins, h1, ih]
    · by_cases h2 : k' = k
      · subst h2
        simp [Mp.ins]
      · simp [Mp.ins, h1, h2]

/-- What a unit's instruction does on a core that is ready for it: it enters the queue and starts at once. -/
theorem unitIssue_ready {c u : Nat} {w : CWord} {s t : State} {k : Core} (h : CoreReady s c w) (hp : predOk (coreOf s c) w = true)
    (hu : unitOf w = some u) (h12 : u < 12) (hop : w.op ≠ 0xB0#8)
    (hx : u = 11 → (coreOf s c).xfers.length < 16)
    (he : ∀ v, CoreOnly c { takeWait w.pre (coreOf s c) with
        pc := (coreOf s c).pc + 16#64, place := (coreOf s c).place + 1, queues := (entered u w (coreOf s c)).queues } s v →
      ∃ t, unitEffect c (coreOf s c).pc.toNat ⟨w, (coreOf s c).pc, true, (coreOf s c).place, false, false⟩ v = .done t ∧
        CoreOnly c { k with queues := (entered u w (coreOf s c)).queues } s t)
    (hk : k.queues = (issued u w (coreOf s c)).queues) (ht : t = unitIssue c w s) : CoreOnly c k s t := by
  subst ht
  have hi := h.issues
  unfold canIssue at hi
  simp only [Bool.and_eq_true, Bool.not_eq_true', decide_eq_true_eq] at hi
  have ho : otherInHand (coreOf s c) w = false := by simp [otherInHand, h.sem]
  have hd : queueFull (coreOf s c) u = false := by
    unfold queueFull
    rw [queue_nil h.idle]
    split
    · rename_i h11
      have := hx h11
      simp; omega
    · unfold unitDepth
      repeat' split
      all_goals simp
  unfold unitIssue
  simp only [h.issues, ho, h.legal, hu, blocked_nil h.idle, hp, hd, Bool.not_true, Bool.or_self,
    Bool.false_eq_true, if_false]
  generalize hs1 : setCore c _ s = s1
  have h1 : CoreOnly c (entered u w (coreOf s c)) s s1 := by
    rw [← hs1]
    refine ((CoreOnly.refl c s).set _).eq ?_
    have hf := h.fresh
    simp only [entered, updQueue, Mp.upd, queue_nil h.idle, List.nil_append, Core.mk.injEq, true_and, and_true]
    exact hf.symm
  have hq (v : Nat) : Mp.get [] (coreOf s1 c).queues v =
      if v = u then [⟨w, (coreOf s c).pc, true, (coreOf s c).place, false, false⟩] else [] := by
    rw [h1.1]
    simp only [entered]
    split
    · rename_i hv
      subst hv
      unfold Mp.put
      rw [if_neg (by simp)]
      exact Mp.get_ins_same ..
    · rename_i hv
      rw [Mp.get_put_ne _ _ _ _ _ hv]
      exact queue_nil h.idle v
  -- the state the operation starts in
  generalize hs2 : (if w.pre.wv = true then updCore c (evSet w.pre.we.toNat (evGet (coreOf s1 c) w.pre.we.toNat - 1)) s1 else s1) = s2
  have h2 : CoreOnly c { takeWait w.pre (coreOf s c) with
        pc := (coreOf s c).pc + 16#64, place := (coreOf s c).place + 1, queues := (entered u w (coreOf s c)).queues } s s2 := by
    rw [← hs2, h1.1]
    unfold takeWait
    split
    · exact (h1.upd _).eq rfl
    · exact h1.eq rfl
  obtain ⟨t, het, hct⟩ := he s2 h2
  have hmay : mayStart (coreOf s1 c) u [⟨w, (coreOf s c).pc, true, (coreOf s c).place, false, false⟩]
      ⟨w, (coreOf s c).pc, true, (coreOf s c).place, false, false⟩ = true := by
    have hall : ∀ x ∈ allEnts (coreOf s1 c), x.place = (coreOf s c).place := by
      intro x hx
      unfold allEnts at hx
      rw [h1.1] at hx
      simp only [entered, List.mem_filter, List.mem_flatMap] at hx
      obtain ⟨⟨p, hp1, hp2⟩, -⟩ := hx
      unfold Mp.put at hp1
      rw [if_neg (by simp)] at hp1
      rcases Mp.mem_ins _ _ _ _ hp1 with hp1 | hp1
      · subst hp1
        simp at hp2
        rw [hp2]
      · have h0 := h.idle
        rw [List.flatMap_eq_nil_iff] at h0
        rw [h0 p hp1] at hp2
        simp at hp2
    have hw : (!w.pre.wv || decide (1 ≤ evGet (coreOf s1 c) w.pre.we.toNat)) = true := by
      cases hv : w.pre.wv
      · rfl
      · have := h.wait hv
        rw [h1.1]
        exact decide_eq_true this
    unfold mayStart
    simp only [Bool.and_eq_true, hw]
    refine ⟨⟨⟨⟨?_, ?_⟩, ?_⟩, trivial⟩, ?_⟩
    · simp
    · simp
    · rw [Bool.not_eq_true', List.any_eq_false]
      intro x hx
      simp [hall x hx]
    · simp [hop]
  have hstart : startNext c u s1 = (updCore c (markStarted u ⟨w, (coreOf s c).pc, true, (coreOf s c).place, false, false⟩) t, true) := by
    unfold startNext
    dsimp only
    rw [hq u]
    have he1 : (coreOf s1 c).ended = false := by rw [h1.1]; exact hi.1.1.1.2
    have he2 : (coreOf s1 c).stop = false := by rw [h1.1]; exact hi.1.1.2
    simp only [if_true, List.find?_cons, Bool.not_false, he1, he2, hmay, Bool.not_true, Bool.or_self, Bool.false_eq_true, if_false,
      hop, hs2, het]
  have hfin : CoreOnly c k s (updCore c (markStarted u ⟨w, (coreOf s c).pc, true, (coreOf s c).place, false, false⟩) t) := by
    refine (hct.upd _).eq ?_
    have : (markStarted u ⟨w, (coreOf s c).pc, true, (coreOf s c).place, false, false⟩
        { k with queues := (entered u w (coreOf s c)).queues }).queues = k.queues := by
      rw [hk]
      simp only [markStarted, updQueue, Mp.upd, entered, issued, hop, false_and, if_false]
      have hg : Mp.get [] (Mp.put [] (coreOf s c).queues u [⟨w, (coreOf s c).pc, true, (coreOf s c).place, false, false⟩]) u =
          [⟨w, (coreOf s c).pc, true, (coreOf s c).place, false, false⟩] := by
        unfold Mp.put
        rw [if_neg (by simp)]
        exact Mp.get_ins_same ..
      rw [hg]
      simp only [List.map_cons, List.map_nil, if_true]
      unfold Mp.put
      rw [if_neg (by simp), if_neg (by simp), if_neg (by simp)]
      exact Mp.ins_ins ..
    unfold markStarted updQueue at this ⊢
    dsimp only at this ⊢
    rw [this]
  have hall : AllStarted (coreOf (updCore c (markStarted u ⟨w, (coreOf s c).pc, true, (coreOf s c).place, false, false⟩) t) c) := by
    rw [hfin.1]
    intro v e hv
    rw [hk] at hv
    simp only [issued] at hv
    by_cases hvu : v = u
    · subst hvu
      unfold Mp.put at hv
      rw [if_neg (by simp), Mp.get_ins_same] at hv
      simp at hv
      rw [hv]
    · rw [Mp.get_put_ne _ _ _ _ _ hvu, queue_nil h.idle] at hv
      simp at hv
  rw [pump_one hstart (fun v hv => startNext_none (by rw [hq v, if_neg hv]; rfl)) hall h12]
  exact hfin

end Sys2Proof.Machine
end

