-- ==== Sys2Proof/Laws/Fields.lean ====
section
/-! SUPPORT. Bit fields: what `fieldOf`, `withField` and the register accessors give back. -/

namespace Sys2Proof.Machine

/-- A bit of a field is a bit of the number. -/
theorem testBit_fieldOf (x lo w i : Nat) : (fieldOf x lo w).testBit i = (decide (i < w) && x.testBit (lo + i)) := by
  simp [fieldOf, Nat.testBit_mod_two_pow, Nat.testBit_shiftRight]

/-- A number cut at a field: what is above, the field, what is below. -/
theorem split_field (x lo w : Nat) :
    x = x / 2 ^ (lo + w) * 2 ^ (lo + w) + fieldOf x lo w * 2 ^ lo + x % 2 ^ lo := by
  have h1 := Nat.div_add_mod x (2 ^ lo)
  have h2 := Nat.div_add_mod (x / 2 ^ lo) (2 ^ w)
  have h3 : x / 2 ^ lo / 2 ^ w = x / 2 ^ (lo + w) := by rw [Nat.div_div_eq_div_mul, Nat.pow_add]
  rw [h3] at h2
  have h4 : fieldOf x lo w = x / 2 ^ lo % 2 ^ w := by rw [fieldOf, Nat.shiftRight_eq_div_pow]
  rw [h4, Nat.pow_add]
  calc x = 2 ^ lo * (x / 2 ^ lo) + x % 2 ^ lo := h1.symm
    _ = 2 ^ lo * (2 ^ w * (x / 2 ^ (lo + w)) + x / 2 ^ lo % 2 ^ w) + x % 2 ^ lo := by rw [h2]
    _ = _ := by ring_nf

theorem fieldOf_lt (x lo w : Nat) : fieldOf x lo w < 2 ^ w := Nat.mod_lt _ (Nat.two_pow_pos w)

/-- A replaced field, cut as `split_field` cuts it. -/
theorem withField_eq (x lo w v : Nat) :
    withField x lo w v = x / 2 ^ (lo + w) * 2 ^ (lo + w) + v % 2 ^ w * 2 ^ lo + x % 2 ^ lo := by
  have h := split_field x lo w
  unfold withField
  generalize hf : fieldOf x lo w * 2 ^ lo = f at *
  omega

/-- A bit of a number with a field replaced: the new field's inside it, the old number's outside. -/
theorem testBit_withField (x lo w v i : Nat) :
    (withField x lo w v).testBit i = if lo ≤ i ∧ i < lo + w then v.testBit (i - lo) else x.testBit i := by
  rw [withField_eq]
  have hlow : x % 2 ^ lo < 2 ^ lo := Nat.mod_lt _ (Nat.two_pow_pos lo)
  have hv : v % 2 ^ w < 2 ^ w := Nat.mod_lt _ (Nat.two_pow_pos w)
  have e : x / 2 ^ (lo + w) * 2 ^ (lo + w) + v % 2 ^ w * 2 ^ lo + x % 2 ^ lo
      = 2 ^ lo * (2 ^ w * (x / 2 ^ (lo + w)) + v % 2 ^ w) + x % 2 ^ lo := by rw [Nat.pow_add]; ring_nf
  rw [e, Nat.testBit_two_pow_mul_add _ hlow]
  by_cases h1 : i < lo
  · have : ¬ (lo ≤ i ∧ i < lo + w) := by omega
    simp [h1, this, Nat.testBit_mod_two_pow]
  · rw [if_neg h1, Nat.testBit_two_pow_mul_add _ hv]
    by_cases h2 : i < lo + w
    · have : i - lo < w := by omega
      simp [this, Nat.testBit_mod_two_pow, show lo ≤ i by omega, h2]
    · have : ¬ (i - lo < w) := by omega
      simp only [this, if_false, show ¬ (lo ≤ i ∧ i < lo + w) by omega]
      rw [Nat.testBit_div_two_pow]
      congr 1; omega

/-- The field just written reads back, cut to its width. -/
@[simp] theorem fieldOf_withField_same (x lo w v : Nat) : fieldOf (withField x lo w v) lo w = v % 2 ^ w := by
  apply Nat.eq_of_testBit_eq
  intro i
  rw [testBit_fieldOf, testBit_withField, Nat.testBit_mod_two_pow]
  by_cases h : i < w
  · simp [h]
  · simp [h]

/-- A field apart from the one written reads as before. -/
theorem fieldOf_withField_apart (x lo w v lo' w' : Nat) (h : lo' + w' ≤ lo ∨ lo + w ≤ lo') :
    fieldOf (withField x lo w v) lo' w' = fieldOf x lo' w' := by
  apply Nat.eq_of_testBit_eq
  intro i
  rw [testBit_fieldOf, testBit_fieldOf, testBit_withField]
  by_cases hi : i < w'
  · have : ¬ (lo ≤ lo' + i ∧ lo' + i < lo + w) := by omega
    simp [hi, this]
  · simp [hi]

/-- A 64-bit register stays below 2^64 when a field inside it is replaced. -/
theorem withField_lt (x lo w v : Nat) (hx : x < 2 ^ 64) (hf : lo + w ≤ 64) : withField x lo w v < 2 ^ 64 := by
  apply Nat.lt_pow_two_of_testBit
  intro i hi
  rw [testBit_withField, if_neg (by omega)]
  exact Nat.testBit_lt_two_pow (lt_of_lt_of_le hx (Nat.pow_le_pow_right (by omega) hi))

end Sys2Proof.Machine
end

