-- ==== Sys2Proof/Laws/Image.lean ====
section
/-! SUPPORT. The lengths of what a core's context slot holds (R106): the image before the sheaf, and the park area. -/

namespace Sys2Proof.Machine

theorem leBytes_length (n x : Nat) : (leBytes n x).length = n := by
  induction n generalizing x with
  | zero => rfl
  | succ n ih => simp [leBytes, ih]

theorem wordsBytes_length (v : List Word32) : (wordsBytes v).length = 4 * v.length := by
  induction v with
  | nil => rfl
  | cons w r ih =>
    have : wordsBytes (w :: r) = leBytes 4 w.toNat ++ wordsBytes r := rfl
    rw [this, List.length_append, leBytes_length, ih, List.length_cons]
    omega

theorem sect_length (n : Nat) (l : List Byte) : ((l ++ List.replicate (n - l.length) 0#8).take n).length = n := by
  simp only [List.length_take, List.length_append, List.length_replicate]
  omega

theorem imageHead_length (k : Core) (version status : Nat) : (imageHead k version status).length = 0xD1000 := by
  unfold imageHead
  rw [List.length_append, List.length_append, List.length_append, List.length_append, List.length_append, List.length_append,
    List.length_append, List.length_append, List.length_append]
  simp only [sect_length, wordsBytes_length, Mp.slice_length]

theorem parkArea_length (k : Core) : (parkArea k).length = 1024 := by
  unfold parkArea
  simp only [List.length_take, List.length_append, List.length_replicate]
  omega

end Sys2Proof.Machine
end

