-- ==== Sys2Proof/Laws/Keeps.lean ====
section
/-! SUPPORT. `Keeps`, what every command keeps: it is reflexive and transitive, updates of other fields have it, and folds
and results that carry a state have it where each of their steps has. -/

namespace Sys2Proof.Machine

theorem Keeps.refl (s : State) : Keeps s s :=
  ⟨rfl, List.suffix_refl _, le_refl _, rfl, fun _ h => h, fun _ _ => le_refl _, fun h => h⟩

theorem Keeps.trans {s t u : State} (a : Keeps s t) (b : Keeps t u) : Keeps s u :=
  ⟨b.1.trans a.1, a.2.1.trans b.2.1, a.2.2.1.trans b.2.2.1, b.2.2.2.1.trans a.2.2.2.1,
   fun i h => b.2.2.2.2.1 i (a.2.2.2.2.1 i h), fun k hk => (a.2.2.2.2.2.1 k hk).trans (b.2.2.2.2.2.1 k hk),
   fun h => b.2.2.2.2.2.2 (a.2.2.2.2.2.2 h)⟩

/-- A state whose queue, outputs, free values, fuses and memory are those of another. -/
theorem Keeps.of_eq {s t : State} (h1 : t.pending = s.pending) (h2 : t.outputs = s.outputs) (h3 : t.freeCtr = s.freeCtr)
    (h4 : t.fuses = s.fuses) (h5 : t.mem = s.mem) : Keeps s t := by
  refine ⟨h1, ?_, ?_, ?_, ?_, ?_, ?_⟩ <;> simp_all

/-- An update of fields other than those. -/
theorem keeps_mk (s : State) (x4 : Nat) (x5 : Bool) (x6 : Mp Int) (x7 : List Nat) (x8 : Mp Word64) (x9 : Mp Word32) (x10 : Mp Word32) (x11 : Mp Word32) (x12 : Mp Core) (x14 : Mp (Mp Byte)) (x15 : Mp Nat) (x16 : Mp RCache) (x17 : Mp Gran) (x18 : Mp Area) (x19 : Mp (List TlbEnt)) (x20 : Mp (List TagEnt)) (x21 : Mp PortBind) (x22 : Nat) (x23 : List DefRec) (x24 : Mp Port) (x25 : Mp JPort) (x26 : Mp (List Nat)) (x27 : Mp Porger) (x28 : Mp Group) (x29 : List CollMsg) (x30 : List FailNotice) (x31 : Bool) (x32 : Mp Graph) (x33 : Nat) (x34 : Mp Ring) (x35 : Mp Ring) (x36 : Mp Ring) (x37 : Nat) (x38 : List FRec) (x39 : List TRec) (x40 : Mp Nat) (x41 : Mp Nat) (x42 : Mp QP) (x43 : Mp Fn) (x44 : List Inflight) (x45 : List Wait) (x46 : Nat) (x47 : Nat) (x48 : Bool) (x49 : Bool) (x50 : Mp DieSt) (x51 : Bool) (x52 : Mp Nat) (x53 : List (Nat × Nat × Nat × Nat)) (x54 : Mp Nat) (x55 : Pwr) (x56 : Boot) (x57 : Sec) (x58 : Crn) (x59 : Mp Cal) (x60 : Test) (x61 : Nat) :
    Keeps s ⟨s.pending, s.outputs, s.freeCtr, s.fuses, x4, x5, x6, x7, x8, x9, x10, x11, x12, s.mem, x14, x15, x16, x17, x18, x19, x20, x21, x22, x23, x24, x25, x26, x27, x28, x29, x30, x31, x32, x33, x34, x35, x36, x37, x38, x39, x40, x41, x42, x43, x44, x45, x46, x47, x48, x49, x50, x51, x52, x53, x54, x55, x56, x57, x58, x59, x60, x61⟩ :=
  .of_eq rfl rfl rfl rfl rfl

/-- An update of memory by a table in canonical form. -/
theorem Keeps.of_mem {s t : State} (h1 : t.pending = s.pending) (h2 : t.outputs = s.outputs) (h3 : t.freeCtr = s.freeCtr)
    (h4 : t.fuses = s.fuses) (h5 : Memory.wf s.mem = true → Memory.wf t.mem = true) : Keeps s t := by
  refine ⟨h1, ?_, ?_, ?_, ?_, ?_, h5⟩ <;> simp_all

/-! ## Results that carry a state -/

/-- The state of a unit's result. -/
def ERes.state : ERes → State
  | .done s => s
  | .fail _ s => s
  | .ended s => s
  | .held s => s

/-- The state of a command's result, or the one before where it has not started. -/
def Ans.stateOr (s : State) : Ans → State
  | .done _ _ _ _ t => t
  | .wait _ _ _ _ _ t => t
  | .stay => s

def Sent.state : Sent → State
  | .ok s => s
  | .wait s => s
  | .noRoute s => s

def Served.state : Served → State
  | .answer _ s => s
  | .later s => s

def Admit.stateOr (s : State) : Admit → State
  | .admitted _ t => t
  | .refused _ t => t
  | .queue _ t => t
  | .room => s
  | .path _ => s
  | .later => s
  | .full => s

def PageRes.stateOr (s : State) : PageRes → State
  | .ok _ t => t
  | .no _ _ => s
  | .fault _ _ => s

def sumState {α : Type} (s : State) : α ⊕ State → State
  | .inl _ => s
  | .inr t => t

/-- The next state of an outcome, or the one before. -/
def nextOr (s : State) : Host.Outcome State Fault Refusal → State
  | .next t => t
  | .fault _ => s
  | .refused _ => s

theorem Keeps.ans {s t : State} {a : Ans} (h : Keeps s t) (k : Keeps t (a.stateOr t)) : Keeps s (a.stateOr s) := by
  cases a <;> first | exact h.trans k | exact Keeps.refl s

theorem Keeps.page {s t : State} {a : PageRes} (h : Keeps s t) (k : Keeps t (a.stateOr t)) : Keeps s (a.stateOr s) := by
  cases a <;> first | exact h.trans k | exact Keeps.refl s

/-! ## Folds -/

theorem Keeps.foldl {α : Type} (l : List α) (f : State → α → State) (s : State) (h : ∀ s x, Keeps s (f s x)) :
    Keeps s (l.foldl f s) := by
  induction l generalizing s with
  | nil => exact Keeps.refl s
  | cons x r ih => exact (h s x).trans (ih _)

theorem Keeps.foldlSnd {α β : Type} (l : List α) (f : β × State → α → β × State) (r : β × State)
    (h : ∀ r x, Keeps r.2 (f r x).2) : Keeps r.2 (l.foldl f r).2 := by
  induction l generalizing r with
  | nil => exact Keeps.refl _
  | cons x q ih => exact (h r x).trans (ih _)

theorem Keeps.foldlSnd2 {α β γ : Type} (l : List α) (f : β × γ × State → α → β × γ × State) (r : β × γ × State)
    (h : ∀ r x, Keeps r.2.2 (f r x).2.2) : Keeps r.2.2 (l.foldl f r).2.2 := by
  induction l generalizing r with
  | nil => exact Keeps.refl _
  | cons x q ih => exact (h r x).trans (ih _)

theorem Keeps.foldlFst {α β : Type} (l : List α) (f : State × β → α → State × β) (r : State × β)
    (h : ∀ r x, Keeps r.1 (f r x).1) : Keeps r.1 (l.foldl f r).1 := by
  induction l generalizing r with
  | nil => exact Keeps.refl _
  | cons x q ih => exact (h r x).trans (ih _)

theorem Keeps.foldlERes {α : Type} (l : List α) (f : ERes → α → ERes) (r : ERes)
    (h : ∀ r x, Keeps r.state (f r x).state) : Keeps r.state (l.foldl f r).state := by
  induction l generalizing r with
  | nil => exact Keeps.refl _
  | cons x q ih => exact (h r x).trans (ih _)

theorem Keeps.foldlSndERes {α β : Type} (l : List α) (f : β × ERes → α → β × ERes) (r : β × ERes)
    (h : ∀ r x, Keeps r.2.state (f r x).2.state) : Keeps r.2.state (l.foldl f r).2.state := by
  induction l generalizing r with
  | nil => exact Keeps.refl _
  | cons x q ih => exact (h r x).trans (ih _)

theorem Keeps.ite {s : State} {c : Prop} [Decidable c] {a b : State} (h1 : Keeps s a) (h2 : Keeps s b) :
    Keeps s (if c then a else b) := by split <;> assumption

theorem Keeps.iteSnd {α : Type} {s : State} {c : Prop} [Decidable c] {a b : α × State} (h1 : Keeps s a.2) (h2 : Keeps s b.2) :
    Keeps s (if c then a else b).2 := by split <;> assumption

theorem Keeps.ite_state {s : State} {c : Prop} [Decidable c] {a b : ERes} (h1 : Keeps s a.state) (h2 : Keeps s b.state) :
    Keeps s (if c then a else b).state := by split <;> assumption

/-- A state that may be absent, handed on. -/
theorem Keeps.optMap {s : State} {o : Option State} (f : State → State) (hf : ∀ t, Keeps t (f t)) (h : Keeps s (o.getD s)) :
    Keeps s ((o.map f).getD s) := by
  cases o with
  | none => exact Keeps.refl s
  | some t => exact Keeps.trans h (hf t)

theorem Keeps.iteGetD {s : State} {c : Prop} [Decidable c] {a b : Option State} (h1 : Keeps s (a.getD s)) (h2 : Keeps s (b.getD s)) :
    Keeps s ((if c then a else b).getD s) := by split <;> assumption

theorem Keeps.iter (f : State → State) (n : Nat) (s : State) (h : ∀ s, Keeps s (f s)) : Keeps s (iter f n s) := by
  induction n generalizing s with
  | zero => exact Keeps.refl s
  | succ n ih => exact (h s).trans (ih _)

end Sys2Proof.Machine
end

