-- ==== Sys2Proof/Laws/KeepsOps.lean ====
section
/-! SUPPORT. Every operation of Sys2Proof/Machine/Ops.lean keeps what `Keeps` says. -/

namespace Sys2Proof.Machine

theorem keeps_nextFree (s) : Keeps s (nextFree s) :=
  ⟨rfl, List.suffix_refl _, Nat.le_succ _, rfl, fun _ h => h, fun _ _ => le_refl _, fun h => h⟩

theorem keeps_emit (o s) : Keeps s (emit o s) :=
  ⟨rfl, List.suffix_cons _ _, le_refl _, rfl, fun _ h => h, fun _ _ => le_refl _, fun h => h⟩

theorem keeps_regPut (a0 a1) (s) : Keeps s (regPut a0 a1 s) := by
  unfold regPut
  grind [Keeps.refl, Keeps.trans, keeps_mk, Keeps.foldl, Keeps.foldlSnd]

theorem keeps_fset (a0 a1 a2) (s) : Keeps s (fset a0 a1 a2 s) := by
  unfold fset
  grind [Keeps.refl, Keeps.trans, keeps_mk, Keeps.foldl, Keeps.foldlSnd, keeps_regPut]

theorem keeps_fsetBit (a0 a1 a2 a3) (s) : Keeps s (fsetBit a0 a1 a2 a3 s) := by
  unfold fsetBit
  grind [Keeps.refl, Keeps.trans, keeps_mk, Keeps.foldl, Keeps.foldlSnd, keeps_fset]

theorem keeps_fcount (a0 a1 a2) (s) : Keeps s (fcount a0 a1 a2 s) := by
  unfold fcount
  grind [Keeps.refl, Keeps.trans, keeps_mk, Keeps.foldl, Keeps.foldlSnd, keeps_fset]

theorem keeps_tick (s) : Keeps s (tick s) := by
  unfold tick
  grind [Keeps.refl, Keeps.trans, keeps_mk, Keeps.foldl, Keeps.foldlSnd]

theorem keeps_setDie (a0 a1) (s) : Keeps s (setDie a0 a1 s) := by
  unfold setDie
  grind [Keeps.refl, Keeps.trans, keeps_mk, Keeps.foldl, Keeps.foldlSnd]

theorem keeps_jxlSet (a0 a1 a2) (s) : Keeps s (jxlSet a0 a1 a2 s) := by
  unfold jxlSet
  grind [Keeps.refl, Keeps.trans, keeps_mk, Keeps.foldl, Keeps.foldlSnd, keeps_fset]

theorem keeps_trace (a0 a1 a2 a3 a4 a5) (s) : Keeps s (trace a0 a1 a2 a3 a4 a5 s) := by
  unfold trace
  grind [Keeps.refl, Keeps.trans, keeps_mk, Keeps.foldl, Keeps.foldlSnd, keeps_fcount]

theorem keeps_faultRec (a0) (s) : Keeps s (faultRec a0 s) := by
  unfold faultRec
  grind [Keeps.refl, Keeps.trans, keeps_mk, Keeps.foldl, Keeps.foldlSnd, keeps_fcount, keeps_trace]

theorem keeps_jStop (a0 a1) (s) : Keeps s (jStop a0 a1 s) := by
  unfold jStop
  grind [Keeps.refl, Keeps.trans, keeps_mk, Keeps.foldl, Keeps.foldlSnd]

theorem keeps_fenceOne (a0 a1) (s) : Keeps s (fenceOne a0 s a1) := by
  unfold fenceOne
  grind [Keeps.refl, Keeps.trans, keeps_mk, Keeps.foldl, Keeps.foldlSnd, keeps_setDie, keeps_fset, keeps_jStop]

theorem keeps_fenceStart (a0 a1) (s) : Keeps s (fenceStart a0 a1 s) := by
  unfold fenceStart
  grind [Keeps.refl, Keeps.trans, keeps_mk, Keeps.foldl, Keeps.foldlSnd, keeps_fenceOne]

theorem keeps_showFault (s) : Keeps s (showFault s) := by
  unfold showFault
  grind [Keeps.refl, Keeps.trans, keeps_mk, Keeps.foldl, Keeps.foldlSnd, keeps_emit]

theorem keeps_enterSafe (a0) (s) : Keeps s (enterSafe a0 s) := by
  unfold enterSafe
  grind [Keeps.refl, Keeps.trans, keeps_mk, Keeps.foldl, Keeps.foldlSnd, keeps_regPut, keeps_fset, keeps_emit, keeps_showFault]

theorem keeps_setLevel (a0 a1 a2 a3) (s) : Keeps s (setLevel a0 a1 a2 a3 s) := by
  unfold setLevel
  grind [Keeps.refl, Keeps.trans, keeps_mk, Keeps.foldl, Keeps.foldlSnd, keeps_regPut]

theorem keeps_blockEvent (a0 a1 a2 a3) (s) : Keeps s (blockEvent a0 a1 a2 a3 s) := by
  unfold blockEvent
  grind [Keeps.refl, Keeps.trans, keeps_mk, Keeps.foldl, Keeps.foldlSnd, keeps_faultRec]

theorem keeps_report (a0 a1 a2 a3) (s) : Keeps s (report a0 a1 a2 a3 s) := by
  unfold report
  grind [Keeps.refl, Keeps.trans, keeps_mk, Keeps.foldl, Keeps.foldlSnd, keeps_blockEvent]

theorem keeps_readUnseen (a0) (s) : Keeps s (readUnseen a0 s) := by
  unfold readUnseen
  grind [Keeps.refl, Keeps.trans, keeps_mk, Keeps.foldl, Keeps.foldlSnd, keeps_blockEvent]

theorem keeps_occur (a0 a1 a2 a3 a4) (s) : Keeps s (occur a0 a1 a2 a3 a4 s) := by
  unfold occur
  grind [Keeps.refl, Keeps.trans, keeps_mk, Keeps.foldl, Keeps.foldlSnd, keeps_fcount, keeps_fsetBit, keeps_regPut, keeps_fset, keeps_report, keeps_enterSafe, keeps_fenceStart]

theorem keeps_occurs (a0 a1 a2) (s) : Keeps s (occurs a0 a1 a2 s) := by
  unfold occurs
  grind [Keeps.refl, Keeps.trans, keeps_mk, Keeps.foldl, Keeps.foldlSnd, keeps_occur]

theorem keeps_addrFault (s) : Keeps s (addrFault s) := by
  unfold addrFault
  grind [Keeps.refl, Keeps.trans, keeps_mk, Keeps.foldl, Keeps.foldlSnd, keeps_occurs]

theorem keeps_topoSet (a0 a1 a2) (s) : Keeps s (topoSet a0 a1 a2 s) := by
  unfold topoSet
  grind [Keeps.refl, Keeps.trans, keeps_mk, Keeps.foldl, Keeps.foldlSnd, keeps_occurs, keeps_fsetBit]

theorem keeps_setCore (a0 a1) (s) : Keeps s (setCore a0 a1 s) := by
  unfold setCore
  grind [Keeps.refl, Keeps.trans, keeps_mk, Keeps.foldl, Keeps.foldlSnd]

theorem keeps_updCore (a0 a1) (s) : Keeps s (updCore a0 a1 s) := by
  unfold updCore
  grind [Keeps.refl, Keeps.trans, keeps_mk, Keeps.foldl, Keeps.foldlSnd, keeps_setCore]

theorem keeps_setGraph (a0 a1) (s) : Keeps s (setGraph a0 a1 s) := by
  unfold setGraph
  grind [Keeps.refl, Keeps.trans, keeps_mk, Keeps.foldl, Keeps.foldlSnd]

theorem keeps_updTask (a0 a1 a2) (s) : Keeps s (updTask a0 a1 a2 s) := by
  unfold updTask
  grind [Keeps.refl, Keeps.trans, keeps_mk, Keeps.foldl, Keeps.foldlSnd, keeps_setGraph]

theorem keeps_cancelTags (a0) (s) : Keeps s (cancelTags a0 s) := by
  unfold cancelTags
  grind [Keeps.refl, Keeps.trans, keeps_mk, Keeps.foldl, Keeps.foldlSnd]

theorem keeps_stopCore (a0 a1) (s) : Keeps s (stopCore a0 a1 s) := by
  unfold stopCore
  grind [Keeps.refl, Keeps.trans, keeps_mk, Keeps.foldl, Keeps.foldlSnd, keeps_cancelTags, keeps_setCore]

theorem keeps_failTask (a0 a1 a2 a3) (s) : Keeps s (failTask a0 a1 a2 a3 s) := by
  unfold failTask
  grind [Keeps.refl, Keeps.trans, keeps_mk, Keeps.foldl, Keeps.foldlSnd, keeps_updTask, keeps_stopCore]

theorem keeps_coreFail (a0 a1 a2) (s) : Keeps s (coreFail a0 a1 a2 s) := by
  unfold coreFail
  grind [Keeps.refl, Keeps.trans, keeps_mk, Keeps.foldl, Keeps.foldlSnd, keeps_failTask]

theorem keeps_preemptTask (a0 a1 a2) (s) : Keeps s (preemptTask a0 a1 a2 s) := by
  unfold preemptTask
  grind [Keeps.refl, Keeps.trans, keeps_mk, Keeps.foldl, Keeps.foldlSnd, keeps_updTask]

theorem keeps_faultTask (a0 a1 a2 a3) (s) : Keeps s (faultTask a0 a1 a2 a3 s) := by
  unfold faultTask
  grind [Keeps.refl, Keeps.trans, keeps_mk, Keeps.foldl, Keeps.foldlSnd, keeps_preemptTask, keeps_updTask]

end Sys2Proof.Machine
end

