-- ==== Sys2Proof/Laws/KeepsMemory.lean ====
section
/-! SUPPORT. Every operation of Sys2Proof/Machine/Memory.lean keeps what `Keeps` says. -/

namespace Sys2Proof.Machine

theorem keeps_setGran (a0 a1) (s) : Keeps s (setGran a0 a1 s) := by
  unfold setGran
  grind [Keeps.refl, Keeps.trans, keeps_mk, Keeps.foldl, Keeps.foldlSnd]

theorem keeps_zeroRange (pa len s) : Keeps s (zeroRange pa len s) :=
  .of_mem rfl rfl rfl rfl (fun h => Mp.wf_filter _ _ _ h)

theorem keeps_clearBlock (a0) (s) : Keeps s (clearBlock a0 s) := by
  unfold clearBlock
  grind [Keeps.refl, Keeps.trans, keeps_mk, Keeps.foldl, Keeps.foldlSnd, keeps_zeroRange, keeps_setGran]

theorem keeps_errAddr (a0 a1 a2 a3 a4 a5) (s) : Keeps s (errAddr a0 a1 a2 a3 a4 a5 s) := by
  unfold errAddr
  grind [Keeps.refl, Keeps.trans, keeps_mk, Keeps.foldl, Keeps.foldlSnd, keeps_regPut]

theorem keeps_freshCw (pa bs s) : Keeps s (freshCw pa bs s) :=
  .of_mem rfl rfl rfl rfl (fun h => Mp.wf_blit _ _ _ _ h)

theorem keeps_strikeCw (a0 a1 a2) (s) : Keeps s (strikeCw a0 a1 a2 s) := by
  unfold strikeCw
  grind [Keeps.refl, Keeps.trans, keeps_mk, Keeps.foldl, Keeps.foldlSnd, keeps_nextFree]

theorem keeps_readCw (a0 a1) (s) : Keeps s (readCw a0 a1 s).2 := by
  unfold readCw
  grind [Keeps.refl, Keeps.trans, keeps_mk, Keeps.foldl, Keeps.foldlSnd, keeps_strikeCw, keeps_freshCw, keeps_fcount, keeps_errAddr, keeps_occurs, keeps_fset]

theorem keeps_uncorrFault (a0 a1 a2 a3 a4 a5 a6 a7 a8) (s) : Keeps s (uncorrFault a0 a1 a2 a3 a4 a5 a6 a7 a8 s) := by
  unfold uncorrFault
  grind [Keeps.refl, Keeps.trans, keeps_mk, Keeps.foldl, Keeps.foldlSnd, keeps_faultRec]

theorem keeps_writeCw (a0 a1 a2 a3) (s) : Keeps s (writeCw a0 a1 a2 a3 s).2 := by
  unfold writeCw
  grind [Keeps.refl, Keeps.trans, keeps_mk, Keeps.foldl, Keeps.foldlSnd, keeps_clearBlock, keeps_freshCw, keeps_readCw]

theorem keeps_cacheWrite (a0 a1 a2 a3) (s) : Keeps s (cacheWrite a0 a1 a2 a3 s).2 := by
  unfold cacheWrite
  grind [Keeps.refl, Keeps.trans, keeps_mk, Keeps.foldl, Keeps.foldlSnd, keeps_writeCw, keeps_uncorrFault]

theorem keeps_setCache (a0 a1) (s) : Keeps s (setCache a0 a1 s) := by
  unfold setCache
  grind [Keeps.refl, Keeps.trans, keeps_mk, Keeps.foldl, Keeps.foldlSnd]

theorem keeps_touchLine (a0 a1 a2 a3) (s) : Keeps s (touchLine a0 a1 a2 a3 s) := by
  unfold touchLine
  grind [Keeps.refl, Keeps.trans, keeps_mk, Keeps.foldl, Keeps.foldlSnd, keeps_setCache]

theorem keeps_lineLost (a0 a1 a2) (s) : Keeps s (lineLost a0 a1 a2 s) := by
  unfold lineLost
  grind [Keeps.refl, Keeps.trans, keeps_mk, Keeps.foldl, Keeps.foldlSnd, keeps_fset, keeps_faultRec, keeps_occurs]

theorem keeps_writeBack (a0 a1) (s) : Keeps s (writeBack a0 a1 s).2.2 := by
  unfold writeBack
  grind [Keeps.refl, Keeps.trans, keeps_mk, Keeps.foldl, Keeps.foldlSnd, keeps_cacheWrite]

theorem keeps_putLine (a0 a1 a2) (s) : Keeps s (putLine a0 a1 a2 s) := by
  unfold putLine
  grind [Keeps.refl, Keeps.trans, keeps_mk, Keeps.foldl, Keeps.foldlSnd, keeps_setCache]

theorem keeps_dropLine (a0 a1) (s) : Keeps s (dropLine a0 a1 s) := by
  unfold dropLine
  grind [Keeps.refl, Keeps.trans, keeps_mk, Keeps.foldl, Keeps.foldlSnd, keeps_setCache]

theorem keeps_evict (a0 a1) (s) : Keeps s (evict a0 a1 s) := by
  unfold evict
  grind [Keeps.refl, Keeps.trans, keeps_mk, Keeps.foldl, Keeps.foldlSnd, keeps_writeBack, keeps_dropLine, keeps_lineLost]

theorem keeps_allocLine (a0 a1 a2 a3 a4) (s) : Keeps s ((allocLine a0 a1 a2 a3 a4 s).getD s) := by
  unfold allocLine
  grind [Keeps.refl, Keeps.trans, keeps_mk, Keeps.foldl, Keeps.foldlSnd, keeps_evict, keeps_touchLine, keeps_putLine]

theorem keeps_checkLine (a0 a1) (s) : Keeps s (checkLine a0 a1 s) := by
  unfold checkLine
  grind [Keeps.refl, Keeps.trans, keeps_mk, Keeps.foldl, Keeps.foldlSnd, keeps_dropLine, keeps_lineLost]

theorem keeps_strikeLine (a0) (s) : Keeps s (strikeLine a0 s) := by
  unfold strikeLine
  grind [Keeps.refl, Keeps.trans, keeps_mk, Keeps.foldl, Keeps.foldlSnd, keeps_occurs, keeps_checkLine, keeps_putLine, keeps_nextFree]

theorem keeps_ownRead (a0 a1 a2 a3) (s) : Keeps s (ownRead a0 a1 a2 a3 s).2 := by
  unfold ownRead
  grind [Keeps.refl, Keeps.trans, keeps_mk, Keeps.foldl, Keeps.foldlSnd, keeps_checkLine, keeps_touchLine, keeps_readCw, keeps_putLine, keeps_allocLine]

theorem keeps_ownWrite (a0 a1 a2 a3) (s) : Keeps s (ownWrite a0 a1 a2 a3 s).2 := by
  unfold ownWrite
  grind [Keeps.refl, Keeps.trans, keeps_mk, Keeps.foldl, Keeps.foldlSnd, keeps_checkLine, keeps_cacheWrite, keeps_putLine, keeps_touchLine, keeps_allocLine]

theorem keeps_farRead (a0 a1 a2 a3 a4) (s) : Keeps s (farRead a0 a1 a2 a3 a4 s).2 := by
  unfold farRead
  grind [Keeps.refl, Keeps.trans, keeps_mk, Keeps.foldl, Keeps.foldlSnd, keeps_ownRead]

theorem keeps_sectorRead (a0 a1 a2 a3 a4) (s) : Keeps s (sectorRead a0 a1 a2 a3 a4 s).2 := by
  unfold sectorRead
  grind [Keeps.refl, Keeps.trans, keeps_mk, Keeps.foldl, Keeps.foldlSnd, keeps_farRead, keeps_touchLine, keeps_allocLine, keeps_putLine]

theorem keeps_sectorWrite (a0 a1 a2 a3 a4) (s) : Keeps s (sectorWrite a0 a1 a2 a3 a4 s).2 := by
  unfold sectorWrite
  grind [Keeps.refl, Keeps.trans, keeps_mk, Keeps.foldl, Keeps.foldlSnd, keeps_ownWrite, keeps_putLine]

theorem keeps_memRead (a0 a1 a2 a3) (s) : Keeps s (memRead a0 a1 a2 a3 s).2 := by
  unfold memRead
  refine Keeps.foldlSnd _ _ (_, s) (fun r x => ?_)
  grind [Keeps.refl, Keeps.trans, keeps_sectorRead]

theorem keeps_ownerRead (a0 a1 a2 a3) (s) : Keeps s (ownerRead a0 a1 a2 a3 s).2 := by
  unfold ownerRead
  refine Keeps.foldlSnd _ _ (_, s) (fun r x => ?_)
  grind [Keeps.refl, Keeps.trans, keeps_mk, Keeps.foldl, Keeps.foldlSnd, keeps_farRead]

theorem keeps_memWrite (a0 a1 a2 a3) (s) : Keeps s (memWrite a0 a1 a2 a3 s).2 := by
  unfold memWrite
  refine Keeps.foldlSnd _ _ (_, s) (fun r x => ?_)
  grind [Keeps.refl, Keeps.trans, keeps_sectorWrite]

theorem keeps_flushLine (a0 a1) (s) : Keeps s (flushLine a0 a1 s).2 := by
  unfold flushLine
  grind [Keeps.refl, Keeps.trans, keeps_mk, Keeps.foldl, Keeps.foldlSnd, keeps_dropLine, keeps_checkLine, keeps_writeBack, keeps_putLine]

theorem keeps_dropRange (a0 a1) (s) : Keeps s (dropRange a0 a1 s) := by
  unfold dropRange
  grind [Keeps.refl, Keeps.trans, keeps_mk, Keeps.foldl, Keeps.foldlSnd]

theorem keeps_dropBorrowed (a0 a1 a2) (s) : Keeps s (dropBorrowed a0 a1 a2 s) := by
  unfold dropBorrowed
  grind [Keeps.refl, Keeps.trans, keeps_mk, Keeps.foldl, Keeps.foldlSnd]

theorem keeps_flushRange (a0 a1 a2) (s) : Keeps s (flushRange a0 a1 a2 s).2 := by
  unfold flushRange
  refine Keeps.iteSnd (Keeps.refl s) (Keeps.iteSnd (keeps_dropBorrowed ..) ?_)
  refine Keeps.trans ?_ (Keeps.foldlSnd _ _ (_, _) (fun r x => keeps_flushLine ..))
  dsimp only
  exact Keeps.ite (Keeps.refl s) (keeps_dropBorrowed ..)

theorem keeps_evictRange (a0 a1) (s) : Keeps s (evictRange a0 a1 s) := by
  unfold evictRange
  grind [Keeps.refl, Keeps.trans, keeps_mk, Keeps.foldl, Keeps.foldlSnd, keeps_dropRange, keeps_evict]

end Sys2Proof.Machine
end

