-- ==== Sys2Proof/Laws/KeepsTags.lean ====
section
/-! SUPPORT. Every operation of Sys2Proof/Machine/Tags.lean keeps what `Keeps` says. -/

namespace Sys2Proof.Machine

theorem keeps_tagRegs (a0 a1) (s) : Keeps s (tagRegs a0 a1 s) := by
  unfold tagRegs
  grind [Keeps.refl, Keeps.trans, keeps_mk, Keeps.foldl, Keeps.foldlSnd, keeps_fset]

theorem keeps_takeTag (a0 a1) (s) : Keeps s (takeTag a0 a1 s).2 := by
  unfold takeTag
  grind [Keeps.refl, Keeps.trans, keeps_mk, Keeps.foldl, Keeps.foldlSnd, keeps_tagRegs]

theorem keeps_freeTag (a0 a1) (s) : Keeps s (freeTag a0 a1 s) := by
  unfold freeTag
  grind [Keeps.refl, Keeps.trans, keeps_mk, Keeps.foldl, Keeps.foldlSnd, keeps_tagRegs]

theorem keeps_tagPass (a0 a1 a2) (s) : Keeps s ((tagPass a0 a1 a2 s).getD s) := by
  unfold tagPass
  grind [Keeps.refl, Keeps.trans, keeps_mk, Keeps.foldl, Keeps.foldlSnd, keeps_fset]

end Sys2Proof.Machine
end

