-- ==== Sys2Proof/Laws/KeepsTranslate.lean ====
section
/-! SUPPORT. Every operation of Sys2Proof/Machine/Translate.lean keeps what `Keeps` says. -/

namespace Sys2Proof.Machine

theorem keeps_readEntry (a0 a1) (s) : Keeps s (readEntry a0 a1 s).2 := by
  unfold readEntry
  grind [Keeps.refl, Keeps.trans, keeps_mk, Keeps.foldl, Keeps.foldlSnd, keeps_ownerRead, keeps_uncorrFault]

theorem keeps_walkFrom (a0 a1 a2 a3 a4) (s) : Keeps s (walkFrom a0 a1 a2 a3 a4 s).2 := by
  fun_induction walkFrom a0 a1 a2 a3 a4 s <;> grind [Keeps.refl, Keeps.trans, keeps_mk, Keeps.foldl, Keeps.foldlSnd, keeps_readEntry]

theorem keeps_walk (a0 a1 a2) (s) : Keeps s (walk a0 a1 a2 s).2 := by
  unfold walk
  grind [Keeps.refl, Keeps.trans, keeps_mk, Keeps.foldl, Keeps.foldlSnd, keeps_walkFrom]

theorem keeps_tlbAdd (a0 a1) (s) : Keeps s (tlbAdd a0 a1 s) := by
  unfold tlbAdd
  grind [Keeps.refl, Keeps.trans, keeps_mk, Keeps.foldl, Keeps.foldlSnd, keeps_nextFree]

theorem keeps_translate (a0 a1 a2 a3) (s) : Keeps s (translate a0 a1 a2 a3 s).2 := by
  unfold translate
  grind [Keeps.refl, Keeps.trans, keeps_mk, Keeps.foldl, Keeps.foldlSnd, keeps_tlbAdd, keeps_walk]

theorem keeps_transFault (a0 a1 a2 a3 a4 a5 a6 a7 a8 a9 a10 a11 a12 a13) (s) : Keeps s (transFault a0 a1 a2 a3 a4 a5 a6 a7 a8 a9 a10 a11 a12 a13 s) := by
  unfold transFault
  grind [Keeps.refl, Keeps.trans, keeps_mk, Keeps.foldl, Keeps.foldlSnd, keeps_faultRec]

theorem keeps_translateRange (a0 a1 a2 a3 a4) (s) : Keeps s (translateRange a0 a1 a2 a3 a4 s).2 := by
  unfold translateRange
  refine Keeps.foldlSnd _ _ (_, s) (fun r x => ?_)
  grind [Keeps.refl, Keeps.trans, keeps_mk, Keeps.foldl, Keeps.foldlSnd, keeps_translate]

theorem keeps_readPieces (a0 a1 a2 a3) (s) : Keeps s (readPieces a0 a1 a2 a3 s).2 := by
  unfold readPieces
  refine Keeps.foldlSnd _ _ (_, s) (fun r x => ?_)
  grind [Keeps.refl, Keeps.trans, keeps_mk, Keeps.foldl, Keeps.foldlSnd, keeps_memRead]

theorem keeps_writePieces (a0 a1 a2 a3 a4) (s) : Keeps s (writePieces a0 a1 a2 a3 a4 s).2 := by
  unfold writePieces
  refine Keeps.foldlSnd _ _ (_, s) (fun r x => ?_)
  grind [Keeps.refl, Keeps.trans, keeps_mk, Keeps.foldl, Keeps.foldlSnd, keeps_memWrite]

theorem keeps_vread (a0 a1 a2 a3 a4) (s) : Keeps s (vread a0 a1 a2 a3 a4 s).2 := by
  unfold vread
  grind [Keeps.refl, Keeps.trans, keeps_mk, Keeps.foldl, Keeps.foldlSnd, keeps_tagPass, keeps_translateRange, keeps_readPieces]

theorem keeps_vwrite (a0 a1 a2 a3 a4) (s) : Keeps s (vwrite a0 a1 a2 a3 a4 s).2 := by
  unfold vwrite
  grind [Keeps.refl, Keeps.trans, keeps_mk, Keeps.foldl, Keeps.foldlSnd, keeps_tagPass, keeps_translateRange, keeps_writePieces]

theorem keeps_recordFail (a0 a1 a2 a3 a4 a5 a6 a7 a8 a9) (s) : Keeps s (recordFail a0 a1 a2 a3 a4 a5 a6 a7 a8 a9 s) := by
  unfold recordFail
  grind [Keeps.refl, Keeps.trans, keeps_mk, Keeps.foldl, Keeps.foldlSnd, keeps_transFault, keeps_uncorrFault, keeps_faultRec]

end Sys2Proof.Machine
end

