-- ==== Sys2Proof/Laws/KeepsRecords.lean ====
section
/-! SUPPORT. Every operation of Sys2Proof/Machine/Records.lean keeps what `Keeps` says. -/

namespace Sys2Proof.Machine

theorem keeps_setFn (a0 a1) (s) : Keeps s (setFn a0 a1 s) := by
  unfold setFn
  grind [Keeps.refl, Keeps.trans, keeps_mk, Keeps.foldl, Keeps.foldlSnd]

theorem keeps_signalVector (a0 a1) (s) : Keeps s (signalVector a0 a1 s) := by
  unfold signalVector
  grind [Keeps.refl, Keeps.trans, keeps_mk, Keeps.foldl, Keeps.foldlSnd, keeps_setFn, keeps_emit]

theorem keeps_setRing (a0 a1) (s) : Keeps s (setRing a0 a1 s) := by
  unfold setRing
  grind [Keeps.refl, Keeps.trans, keeps_mk, Keeps.foldl, Keeps.foldlSnd]

theorem keeps_tailFail (a0 a1 a2) (s) : Keeps s (tailFail a0 a1 a2 s) := by
  unfold tailFail
  grind [Keeps.refl, Keeps.trans, keeps_mk, Keeps.foldl, Keeps.foldlSnd, keeps_recordFail]

theorem keeps_recordLost (a0 a1 a2 a3) (s) : Keeps s (recordLost a0 a1 a2 a3 s) := by
  unfold recordLost
  grind [Keeps.refl, Keeps.trans, keeps_mk, Keeps.foldl, Keeps.foldlSnd, keeps_fcount, keeps_recordFail]

theorem keeps_ringWrite (a0 a1) (s) : Keeps s (ringWrite a0 a1 s) := by
  unfold ringWrite
  grind [Keeps.refl, Keeps.trans, keeps_mk, Keeps.foldl, Keeps.foldlSnd, keeps_vwrite, keeps_setRing, keeps_tailFail, keeps_signalVector, keeps_recordLost]

theorem keeps_reserveLate (a0) (s) : Keeps s (reserveLate a0 s) := by
  unfold reserveLate
  grind [Keeps.refl, Keeps.trans, keeps_mk, Keeps.foldl, Keeps.foldlSnd, keeps_setGraph, keeps_setRing]

theorem keeps_ringReread (a0) (s) : Keeps s (ringReread a0 s) := by
  unfold ringReread
  grind [Keeps.refl, Keeps.trans, keeps_mk, Keeps.foldl, Keeps.foldlSnd, keeps_vread, keeps_reserveLate, keeps_setRing]

theorem keeps_ringReserve (a0 a1) (s) : Keeps s (ringReserve a0 a1 s) := by
  unfold ringReserve
  grind [Keeps.refl, Keeps.trans, keeps_mk, Keeps.foldl, Keeps.foldlSnd, keeps_setRing]

theorem keeps_putRecord (a0 a1 a2 a3) (s) : Keeps s (putRecord a0 a1 a2 a3 s) := by
  unfold putRecord
  grind [Keeps.refl, Keeps.trans, keeps_mk, Keeps.foldl, Keeps.foldlSnd, keeps_ringWrite, keeps_ringReserve, keeps_setRing, keeps_updTask]

theorem keeps_traceTask (a0 a1 a2 a3 a4 a5) (s) : Keeps s (traceTask a0 a1 a2 a3 a4 a5 s) := by
  unfold traceTask
  grind [Keeps.refl, Keeps.trans, keeps_mk, Keeps.foldl, Keeps.foldlSnd, keeps_trace]

theorem keeps_taskRecord (a0 a1 a2 a3 a4 a5) (s) : Keeps s (taskRecord a0 a1 a2 a3 a4 a5 s) := by
  unfold taskRecord
  grind [Keeps.refl, Keeps.trans, keeps_mk, Keeps.foldl, Keeps.foldlSnd, keeps_updTask, keeps_putRecord]

theorem keeps_unitFaultWait (a0 a1 a2 a3) (s) : Keeps s (unitFaultWait a0 a1 a2 a3 s) := by
  unfold unitFaultWait
  grind [Keeps.refl, Keeps.trans, keeps_mk, Keeps.foldl, Keeps.foldlSnd, keeps_updTask, keeps_traceTask, keeps_taskRecord]

end Sys2Proof.Machine
end

