-- ==== Sys2Proof/Laws/KeepsOperands.lean ====
section
/-! SUPPORT. Every operation of Sys2Proof/Machine/Operands.lean keeps what `Keeps` says. -/

namespace Sys2Proof.Machine

theorem keeps_strikeSheaf (a0 a1) (s) : Keeps s (strikeSheaf a0 a1 s) := by
  unfold strikeSheaf
  grind [Keeps.refl, Keeps.trans, keeps_mk, Keeps.foldl, Keeps.foldlSnd, keeps_updCore]

theorem keeps_sheafScan (a0 a1 a2) (s) : Keeps s (sheafScan a0 a1 a2 s).2 := by
  unfold sheafScan
  split
  all_goals (first | exact Keeps.refl _ | refine Keeps.trans ?_ (Keeps.foldlSnd _ _ _ (fun r x => ?_)))
  all_goals grind [Keeps.refl, Keeps.trans, keeps_mk, Keeps.foldl, Keeps.foldlSnd, keeps_strikeSheaf, keeps_fset, keeps_fcount, keeps_updCore, keeps_occur]

theorem keeps_sheafRead (a0 a1 a2) (s) : Keeps s (sheafRead a0 a1 a2 s).2 := by
  unfold sheafRead
  grind [Keeps.refl, Keeps.trans, keeps_mk, Keeps.foldl, Keeps.foldlSnd, keeps_sheafScan]

theorem keeps_sheafWrite (a0 a1 a2) (s) : Keeps s (sheafWrite a0 a1 a2 s).2 := by
  unfold sheafWrite
  grind [Keeps.refl, Keeps.trans, keeps_mk, Keeps.foldl, Keeps.foldlSnd, keeps_sheafScan, keeps_updCore]

end Sys2Proof.Machine
end

