-- ==== Sys2Proof/Laws/KeepsVector.lean ====
section
/-! SUPPORT. Every operation of Sys2Proof/Machine/Vector.lean keeps what `Keeps` says. -/

namespace Sys2Proof.Machine

theorem keeps_vecDone (a0 a1 a2 a3 a4) (s) : Keeps s (vecDone a0 a1 a2 a3 a4 s).state := by
  unfold vecDone
  grind [Keeps.refl, Keeps.trans, keeps_mk, Keeps.foldl, Keeps.foldlSnd, keeps_updCore, ERes.state, Keeps.foldlERes]

theorem keeps_vecRound (a0 a1 a2 a3) (s) : Keeps s (vecRound a0 a1 a2 a3 s).state := by
  unfold vecRound
  grind [Keeps.refl, Keeps.trans, keeps_mk, Keeps.foldl, Keeps.foldlSnd, keeps_vecDone, ERes.state, Keeps.foldlERes]

theorem keeps_vecPlain (a0 a1 a2) (s) : Keeps s (vecPlain a0 a1 a2 s).state := by
  unfold vecPlain
  grind [Keeps.refl, Keeps.trans, keeps_mk, Keeps.foldl, Keeps.foldlSnd, keeps_vecDone, ERes.state, Keeps.foldlERes]

theorem keeps_effVadd (a0 a1 a2) (s) : Keeps s (effVadd a0 a1 a2 s).state := by
  unfold effVadd
  grind [Keeps.refl, Keeps.trans, keeps_mk, Keeps.foldl, Keeps.foldlSnd, keeps_vecRound, ERes.state, Keeps.foldlERes]

theorem keeps_effVsub (a0 a1 a2) (s) : Keeps s (effVsub a0 a1 a2 s).state := by
  unfold effVsub
  grind [Keeps.refl, Keeps.trans, keeps_mk, Keeps.foldl, Keeps.foldlSnd, keeps_vecRound, ERes.state, Keeps.foldlERes]

theorem keeps_effVmul (a0 a1 a2) (s) : Keeps s (effVmul a0 a1 a2 s).state := by
  unfold effVmul
  grind [Keeps.refl, Keeps.trans, keeps_mk, Keeps.foldl, Keeps.foldlSnd, keeps_vecRound, ERes.state, Keeps.foldlERes]

theorem keeps_effVfma (a0 a1 a2) (s) : Keeps s (effVfma a0 a1 a2 s).state := by
  unfold effVfma
  grind [Keeps.refl, Keeps.trans, keeps_mk, Keeps.foldl, Keeps.foldlSnd, keeps_vecRound, ERes.state, Keeps.foldlERes]

theorem keeps_effVsqrt (a0 a1 a2) (s) : Keeps s (effVsqrt a0 a1 a2 s).state := by
  unfold effVsqrt
  grind [Keeps.refl, Keeps.trans, keeps_mk, Keeps.foldl, Keeps.foldlSnd, keeps_vecRound, ERes.state, Keeps.foldlERes]

theorem keeps_effVmin (a0 a1) (s) : Keeps s (effVmin a0 a1 s).state := by
  unfold effVmin
  grind [Keeps.refl, Keeps.trans, keeps_mk, Keeps.foldl, Keeps.foldlSnd, keeps_vecPlain, ERes.state, Keeps.foldlERes]

theorem keeps_effVmax (a0 a1) (s) : Keeps s (effVmax a0 a1 s).state := by
  unfold effVmax
  grind [Keeps.refl, Keeps.trans, keeps_mk, Keeps.foldl, Keeps.foldlSnd, keeps_vecPlain, ERes.state, Keeps.foldlERes]

theorem keeps_vecApprox (a0 a1 a2) (s) : Keeps s (vecApprox a0 a1 a2 s).state := by
  unfold vecApprox
  grind [Keeps.refl, Keeps.trans, keeps_mk, Keeps.foldl, Keeps.foldlSnd, keeps_vecPlain, ERes.state, Keeps.foldlERes]

theorem keeps_effVrcp (a0 a1) (s) : Keeps s (effVrcp a0 a1 s).state := by
  unfold effVrcp
  grind [Keeps.refl, Keeps.trans, keeps_mk, Keeps.foldl, Keeps.foldlSnd, keeps_vecApprox, ERes.state, Keeps.foldlERes]

theorem keeps_effVrsqrt (a0 a1) (s) : Keeps s (effVrsqrt a0 a1 s).state := by
  unfold effVrsqrt
  grind [Keeps.refl, Keeps.trans, keeps_mk, Keeps.foldl, Keeps.foldlSnd, keeps_vecApprox, ERes.state, Keeps.foldlERes]

theorem keeps_effVexp2 (a0 a1) (s) : Keeps s (effVexp2 a0 a1 s).state := by
  unfold effVexp2
  grind [Keeps.refl, Keeps.trans, keeps_mk, Keeps.foldl, Keeps.foldlSnd, keeps_vecApprox, ERes.state, Keeps.foldlERes]

theorem keeps_effVlog2 (a0 a1) (s) : Keeps s (effVlog2 a0 a1 s).state := by
  unfold effVlog2
  grind [Keeps.refl, Keeps.trans, keeps_mk, Keeps.foldl, Keeps.foldlSnd, keeps_vecApprox, ERes.state, Keeps.foldlERes]

theorem keeps_effVabs (a0 a1) (s) : Keeps s (effVabs a0 a1 s).state := by
  unfold effVabs
  grind [Keeps.refl, Keeps.trans, keeps_mk, Keeps.foldl, Keeps.foldlSnd, keeps_vecPlain, ERes.state, Keeps.foldlERes]

theorem keeps_effVcmplt (a0 a1) (s) : Keeps s (effVcmplt a0 a1 s).state := by
  unfold effVcmplt
  grind [Keeps.refl, Keeps.trans, keeps_mk, Keeps.foldl, Keeps.foldlSnd, keeps_vecPlain, ERes.state, Keeps.foldlERes]

theorem keeps_effVcmpeq (a0 a1) (s) : Keeps s (effVcmpeq a0 a1 s).state := by
  unfold effVcmpeq
  grind [Keeps.refl, Keeps.trans, keeps_mk, Keeps.foldl, Keeps.foldlSnd, keeps_vecPlain, ERes.state, Keeps.foldlERes]

theorem keeps_effVsel (a0 a1) (s) : Keeps s (effVsel a0 a1 s).state := by
  unfold effVsel
  grind [Keeps.refl, Keeps.trans, keeps_mk, Keeps.foldl, Keeps.foldlSnd, keeps_vecPlain, ERes.state, Keeps.foldlERes]

theorem keeps_effVmov (a0 a1) (s) : Keeps s (effVmov a0 a1 s).state := by
  unfold effVmov
  grind [Keeps.refl, Keeps.trans, keeps_mk, Keeps.foldl, Keeps.foldlSnd, keeps_vecPlain, ERes.state, Keeps.foldlERes]

theorem keeps_effViadd (a0 a1) (s) : Keeps s (effViadd a0 a1 s).state := by
  unfold effViadd
  grind [Keeps.refl, Keeps.trans, keeps_mk, Keeps.foldl, Keeps.foldlSnd, keeps_vecPlain, ERes.state, Keeps.foldlERes]

theorem keeps_effVisub (a0 a1) (s) : Keeps s (effVisub a0 a1 s).state := by
  unfold effVisub
  grind [Keeps.refl, Keeps.trans, keeps_mk, Keeps.foldl, Keeps.foldlSnd, keeps_vecPlain, ERes.state, Keeps.foldlERes]

theorem keeps_effVimul (a0 a1) (s) : Keeps s (effVimul a0 a1 s).state := by
  unfold effVimul
  grind [Keeps.refl, Keeps.trans, keeps_mk, Keeps.foldl, Keeps.foldlSnd, keeps_vecPlain, ERes.state, Keeps.foldlERes]

theorem keeps_effVand (a0 a1) (s) : Keeps s (effVand a0 a1 s).state := by
  unfold effVand
  grind [Keeps.refl, Keeps.trans, keeps_mk, Keeps.foldl, Keeps.foldlSnd, keeps_vecPlain, ERes.state, Keeps.foldlERes]

theorem keeps_effVor (a0 a1) (s) : Keeps s (effVor a0 a1 s).state := by
  unfold effVor
  grind [Keeps.refl, Keeps.trans, keeps_mk, Keeps.foldl, Keeps.foldlSnd, keeps_vecPlain, ERes.state, Keeps.foldlERes]

theorem keeps_effVxor (a0 a1) (s) : Keeps s (effVxor a0 a1 s).state := by
  unfold effVxor
  grind [Keeps.refl, Keeps.trans, keeps_mk, Keeps.foldl, Keeps.foldlSnd, keeps_vecPlain, ERes.state, Keeps.foldlERes]

theorem keeps_effVshl (a0 a1) (s) : Keeps s (effVshl a0 a1 s).state := by
  unfold effVshl
  grind [Keeps.refl, Keeps.trans, keeps_mk, Keeps.foldl, Keeps.foldlSnd, keeps_vecPlain, ERes.state, Keeps.foldlERes]

theorem keeps_effVshr (a0 a1) (s) : Keeps s (effVshr a0 a1 s).state := by
  unfold effVshr
  grind [Keeps.refl, Keeps.trans, keeps_mk, Keeps.foldl, Keeps.foldlSnd, keeps_vecPlain, ERes.state, Keeps.foldlERes]

theorem keeps_effVsar (a0 a1) (s) : Keeps s (effVsar a0 a1 s).state := by
  unfold effVsar
  grind [Keeps.refl, Keeps.trans, keeps_mk, Keeps.foldl, Keeps.foldlSnd, keeps_vecPlain, ERes.state, Keeps.foldlERes]

theorem keeps_effViota (a0 a1) (s) : Keeps s (effViota a0 a1 s).state := by
  unfold effViota
  grind [Keeps.refl, Keeps.trans, keeps_mk, Keeps.foldl, Keeps.foldlSnd, keeps_vecDone, ERes.state, Keeps.foldlERes]

theorem keeps_effVbcast (a0 a1) (s) : Keeps s (effVbcast a0 a1 s).state := by
  unfold effVbcast
  grind [Keeps.refl, Keeps.trans, keeps_mk, Keeps.foldl, Keeps.foldlSnd, keeps_vecDone, ERes.state, Keeps.foldlERes]

theorem keeps_effVcvt (a0 a1 a2) (s) : Keeps s (effVcvt a0 a1 a2 s).state := by
  unfold effVcvt
  grind [Keeps.refl, Keeps.trans, keeps_mk, Keeps.foldl, Keeps.foldlSnd, keeps_vecDone, ERes.state, Keeps.foldlERes]

theorem keeps_effVqb (a0 a1 a2) (s) : Keeps s (effVqb a0 a1 a2 s).state := by
  unfold effVqb
  grind [Keeps.refl, Keeps.trans, keeps_mk, Keeps.foldl, Keeps.foldlSnd, keeps_vecDone, keeps_updCore, ERes.state, Keeps.foldlERes]

theorem keeps_effVdqb (a0 a1) (s) : Keeps s (effVdqb a0 a1 s).state := by
  unfold effVdqb
  grind [Keeps.refl, Keeps.trans, keeps_mk, Keeps.foldl, Keeps.foldlSnd, keeps_vecDone, ERes.state, Keeps.foldlERes]

theorem keeps_vecReduce (a0 a1 a2 a3) (s) : Keeps s (vecReduce a0 a1 a2 a3 s).state := by
  unfold vecReduce
  grind [Keeps.refl, Keeps.trans, keeps_mk, Keeps.foldl, Keeps.foldlSnd, keeps_vecDone, ERes.state, Keeps.foldlERes]

theorem keeps_effVrsum (a0 a1) (s) : Keeps s (effVrsum a0 a1 s).state := by
  unfold effVrsum
  grind [Keeps.refl, Keeps.trans, keeps_mk, Keeps.foldl, Keeps.foldlSnd, keeps_vecReduce, ERes.state, Keeps.foldlERes]

theorem keeps_effVrmax (a0 a1) (s) : Keeps s (effVrmax a0 a1 s).state := by
  unfold effVrmax
  grind [Keeps.refl, Keeps.trans, keeps_mk, Keeps.foldl, Keeps.foldlSnd, keeps_vecReduce, ERes.state, Keeps.foldlERes]

theorem keeps_effVrmin (a0 a1) (s) : Keeps s (effVrmin a0 a1 s).state := by
  unfold effVrmin
  grind [Keeps.refl, Keeps.trans, keeps_mk, Keeps.foldl, Keeps.foldlSnd, keeps_vecReduce, ERes.state, Keeps.foldlERes]

theorem keeps_sheafLoad (a0 a1 a2 a3 a4) (s) (h : ∀ bs t, Keeps t (a4 bs t).state) : Keeps s (sheafLoad a0 a1 a2 a3 s a4).state := by
  unfold sheafLoad
  grind [Keeps.refl, Keeps.trans, keeps_mk, Keeps.foldl, Keeps.foldlSnd, keeps_sheafRead, ERes.state, Keeps.foldlERes]

theorem keeps_sheafStore (a0 a1 a2 a3) (s) : Keeps s (sheafStore a0 a1 a2 a3 s).state := by
  unfold sheafStore
  grind [Keeps.refl, Keeps.trans, keeps_mk, Keeps.foldl, Keeps.foldlSnd, keeps_sheafWrite, ERes.state, Keeps.foldlERes]

theorem keeps_effVld (a0 a1) (s) : Keeps s (effVld a0 a1 s).state := by
  unfold effVld
  grind [Keeps.refl, Keeps.trans, keeps_mk, Keeps.foldl, Keeps.foldlSnd, keeps_sheafLoad, keeps_updCore, ERes.state, Keeps.foldlERes]

theorem keeps_effVst (a0 a1) (s) : Keeps s (effVst a0 a1 s).state := by
  unfold effVst
  grind [Keeps.refl, Keeps.trans, keeps_mk, Keeps.foldl, Keeps.foldlSnd, keeps_sheafStore, ERes.state, Keeps.foldlERes]

theorem keeps_effVlds (a0 a1) (s) : Keeps s (effVlds a0 a1 s).state := by
  unfold effVlds
  dsimp only
  generalize hr : List.foldl _ _ _ = r
  have key : Keeps s r.2.state := by
    rw [← hr]
    exact Keeps.foldlSndERes _ _ (_, .done s) (fun r x => by
      grind [Keeps.refl, Keeps.trans, keeps_sheafLoad, ERes.state])
  grind [Keeps.trans, keeps_updCore, ERes.state]

theorem keeps_effVsts (a0 a1) (s) : Keeps s (effVsts a0 a1 s).state := by
  unfold effVsts
  exact Keeps.foldlERes _ _ (.done s) (fun r x => by grind [Keeps.refl, Keeps.trans, keeps_sheafStore, ERes.state])

theorem keeps_coreAccessFail (a0 a1 a2 a3 a4) (s) : Keeps s (coreAccessFail a0 a1 a2 a3 a4 s).state := by
  unfold coreAccessFail
  grind [Keeps.refl, Keeps.trans, keeps_mk, Keeps.foldl, Keeps.foldlSnd, keeps_updCore, keeps_faultTask, keeps_recordFail, keeps_failTask, ERes.state, Keeps.foldlERes]

theorem keeps_effVldg (a0 a1 a2) (s) : Keeps s (effVldg a0 a1 a2 s).state := by
  unfold effVldg
  grind [Keeps.refl, Keeps.trans, keeps_mk, Keeps.foldl, Keeps.foldlSnd, keeps_vread, keeps_updCore, keeps_coreAccessFail, ERes.state, Keeps.foldlERes]

theorem keeps_effVstg (a0 a1 a2) (s) : Keeps s (effVstg a0 a1 a2 s).state := by
  unfold effVstg
  grind [Keeps.refl, Keeps.trans, keeps_mk, Keeps.foldl, Keeps.foldlSnd, keeps_vwrite, keeps_coreAccessFail, ERes.state, Keeps.foldlERes]

end Sys2Proof.Machine
end

