-- ==== Sys2Proof/Laws/KeepsTensor.lean ====
section
/-! SUPPORT. Every operation of Sys2Proof/Machine/Tensor.lean keeps what `Keeps` says. -/

namespace Sys2Proof.Machine

theorem keeps_rowsToVec (a0 a1 a2) (s) : Keeps s (rowsToVec a0 a1 a2 s).state := by
  unfold rowsToVec
  grind [Keeps.refl, Keeps.trans, keeps_mk, Keeps.foldl, Keeps.foldlSnd, keeps_updCore, ERes.state, Keeps.foldlERes]

theorem keeps_effArsum (a0 a1) (s) : Keeps s (effArsum a0 a1 s).state := by
  unfold effArsum
  grind [Keeps.refl, Keeps.trans, keeps_mk, Keeps.foldl, Keeps.foldlSnd, keeps_rowsToVec, ERes.state, Keeps.foldlERes]

theorem keeps_effArmax (a0 a1) (s) : Keeps s (effArmax a0 a1 s).state := by
  unfold effArmax
  grind [Keeps.refl, Keeps.trans, keeps_mk, Keeps.foldl, Keeps.foldlSnd, keeps_rowsToVec, ERes.state, Keeps.foldlERes]

theorem keeps_effAsmx (a0 a1) (s) : Keeps s (effAsmx a0 a1 s).state := by
  unfold effAsmx
  grind [Keeps.refl, Keeps.trans, keeps_mk, Keeps.foldl, Keeps.foldlSnd, keeps_updCore, keeps_sheafStore, ERes.state, Keeps.foldlERes]

theorem keeps_rowScale (a0 a1 a2) (s) : Keeps s (rowScale a0 a1 a2 s).state := by
  unfold rowScale
  grind [Keeps.refl, Keeps.trans, keeps_mk, Keeps.foldl, Keeps.foldlSnd, keeps_updCore, ERes.state, Keeps.foldlERes]

theorem keeps_effAresc (a0 a1) (s) : Keeps s (effAresc a0 a1 s).state := by
  unfold effAresc
  grind [Keeps.refl, Keeps.trans, keeps_mk, Keeps.foldl, Keeps.foldlSnd, keeps_rowScale, ERes.state, Keeps.foldlERes]

theorem keeps_effAnorm (a0 a1) (s) : Keeps s (effAnorm a0 a1 s).state := by
  unfold effAnorm
  grind [Keeps.refl, Keeps.trans, keeps_mk, Keeps.foldl, Keeps.foldlSnd, keeps_rowScale, ERes.state, Keeps.foldlERes]

theorem keeps_effTld (a0 a1) (s) : Keeps s (effTld a0 a1 s).state := by
  unfold effTld
  grind [Keeps.refl, Keeps.trans, keeps_mk, Keeps.foldl, Keeps.foldlSnd, keeps_sheafLoad, keeps_updCore, ERes.state, Keeps.foldlERes]

theorem keeps_effTst (a0 a1) (s) : Keeps s (effTst a0 a1 s).state := by
  unfold effTst
  grind [Keeps.refl, Keeps.trans, keeps_mk, Keeps.foldl, Keeps.foldlSnd, keeps_sheafStore, ERes.state, Keeps.foldlERes]

theorem keeps_effTldt (a0 a1) (s) : Keeps s (effTldt a0 a1 s).state := by
  unfold effTldt
  grind [Keeps.refl, Keeps.trans, keeps_mk, Keeps.foldl, Keeps.foldlSnd, keeps_sheafLoad, keeps_updCore, ERes.state, Keeps.foldlERes]

theorem keeps_effTzero (a0 a1) (s) : Keeps s (effTzero a0 a1 s).state := by
  unfold effTzero
  grind [Keeps.refl, Keeps.trans, keeps_mk, Keeps.foldl, Keeps.foldlSnd, keeps_updCore, ERes.state, Keeps.foldlERes]

theorem keeps_tmmOperand (a0 a1 a2 a3 a4) (s) (h : ∀ bs t, Keeps t (a4 bs t).state) : Keeps s (tmmOperand a0 a1 a2 a3 s a4).state := by
  unfold tmmOperand
  grind [Keeps.refl, Keeps.trans, keeps_mk, Keeps.foldl, Keeps.foldlSnd, keeps_sheafLoad, ERes.state, Keeps.foldlERes]

theorem keeps_effTmm (a0 a1 a2) (s) : Keeps s (effTmm a0 a1 a2 s).state := by
  unfold effTmm
  grind [Keeps.refl, Keeps.trans, keeps_mk, Keeps.foldl, Keeps.foldlSnd, keeps_tmmOperand, keeps_updCore, ERes.state, Keeps.foldlERes]

theorem keeps_effAzero (a0 a1) (s) : Keeps s (effAzero a0 a1 s).state := by
  unfold effAzero
  grind [Keeps.refl, Keeps.trans, keeps_mk, Keeps.foldl, Keeps.foldlSnd, keeps_updCore, ERes.state, Keeps.foldlERes]

theorem keeps_effAst (a0 a1 a2) (s) : Keeps s (effAst a0 a1 a2 s).state := by
  unfold effAst
  grind [Keeps.refl, Keeps.trans, keeps_mk, Keeps.foldl, Keeps.foldlSnd, keeps_sheafStore, keeps_updCore, ERes.state, Keeps.foldlERes]

theorem keeps_effAld (a0 a1) (s) : Keeps s (effAld a0 a1 s).state := by
  unfold effAld
  grind [Keeps.refl, Keeps.trans, keeps_mk, Keeps.foldl, Keeps.foldlSnd, keeps_sheafLoad, keeps_updCore, ERes.state, Keeps.foldlERes]

theorem keeps_effArdv (a0 a1) (s) : Keeps s (effArdv a0 a1 s).state := by
  unfold effArdv
  grind [Keeps.refl, Keeps.trans, keeps_mk, Keeps.foldl, Keeps.foldlSnd, keeps_updCore, ERes.state, Keeps.foldlERes]

theorem keeps_effAwrv (a0 a1) (s) : Keeps s (effAwrv a0 a1 s).state := by
  unfold effAwrv
  exact keeps_updCore _ _ _

end Sys2Proof.Machine
end

