-- ==== Sys2Proof/Laws/KeepsDma.lean ====
section
/-! SUPPORT. Every operation of Sys2Proof/Machine/Dma.lean keeps what `Keeps` says. -/

namespace Sys2Proof.Machine

theorem keeps_evAdd (a0 a1 a2 a3) (s) : Keeps s (evAdd a0 a1 a2 a3 s) := by
  unfold evAdd
  grind [Keeps.refl, Keeps.trans, keeps_mk, Keeps.foldl, Keeps.foldlSnd, keeps_coreFail, keeps_updCore]

theorem keeps_signalEv (a0 a1 a2) (s) : Keeps s (signalEv a0 a1 a2 s) := by
  unfold signalEv
  grind [Keeps.refl, Keeps.trans, keeps_mk, Keeps.foldl, Keeps.foldlSnd, keeps_evAdd]

theorem keeps_setXfer (a0 a1) (s) : Keeps s (setXfer a0 a1 s) := by
  unfold setXfer
  grind [Keeps.refl, Keeps.trans, keeps_mk, Keeps.foldl, Keeps.foldlSnd, keeps_updCore, keeps_updTask]

theorem keeps_dropXfer (a0) (s) : Keeps s (dropXfer a0 s) := by
  unfold dropXfer
  grind [Keeps.refl, Keeps.trans, keeps_mk, Keeps.foldl, Keeps.foldlSnd, keeps_updCore, keeps_updTask]

theorem keeps_putDescRecord (a0) (s) : Keeps s (putDescRecord a0 s) := by
  unfold putDescRecord
  grind [Keeps.refl, Keeps.trans, keeps_mk, Keeps.foldl, Keeps.foldlSnd, keeps_vwrite, keeps_recordFail]

theorem keeps_flushDeferred (s) : Keeps s (flushDeferred s) := by
  unfold flushDeferred
  grind [Keeps.refl, Keeps.trans, keeps_mk, Keeps.foldl, Keeps.foldlSnd, keeps_putDescRecord]

theorem keeps_putXferRecord (a0 a1) (s) : Keeps s (putXferRecord a0 a1 s) := by
  unfold putXferRecord
  grind [Keeps.refl, Keeps.trans, keeps_mk, Keeps.foldl, Keeps.foldlSnd, keeps_updCore, keeps_putDescRecord]

theorem keeps_parkXfer (a0 a1 a2) (s) : Keeps s (parkXfer a0 a1 a2 s) := by
  unfold parkXfer
  grind [Keeps.refl, Keeps.trans, keeps_mk, Keeps.foldl, Keeps.foldlSnd, keeps_putXferRecord, keeps_setXfer, keeps_cancelTags]

theorem keeps_finishXfer (a0 a1 a2 a3) (s) : Keeps s (finishXfer a0 a1 a2 a3 s) := by
  unfold finishXfer
  grind [Keeps.refl, Keeps.trans, keeps_mk, Keeps.foldl, Keeps.foldlSnd, keeps_dropXfer, keeps_putXferRecord, keeps_cancelTags]

theorem keeps_xferError (a0 a1 a2) (s) : Keeps s (xferError a0 a1 a2 s) := by
  unfold xferError
  grind [Keeps.refl, Keeps.trans, keeps_mk, Keeps.foldl, Keeps.foldlSnd, keeps_failTask, keeps_finishXfer]

theorem keeps_xferFail (a0 a1 a2 a3) (s) : Keeps s (xferFail a0 a1 a2 a3 s) := by
  unfold xferFail
  split <;> grind [Keeps.refl, Keeps.trans, keeps_mk, Keeps.foldl, Keeps.foldlSnd, keeps_recordFail, keeps_parkXfer, keeps_faultTask, keeps_unitFaultWait, keeps_xferError]

theorem keeps_xferRefuse (a0 a1) (s) : Keeps s (xferRefuse a0 a1 s) := by
  unfold xferRefuse
  grind [Keeps.refl, Keeps.trans, keeps_mk, Keeps.foldl, Keeps.foldlSnd, keeps_faultRec, keeps_xferError]

theorem keeps_xferDone (a0) (s) : Keeps s (xferDone a0 s) := by
  unfold xferDone
  grind [Keeps.refl, Keeps.trans, keeps_mk, Keeps.foldl, Keeps.foldlSnd, keeps_finishXfer, keeps_signalEv, keeps_updTask]

theorem keeps_xferBegin (a0 a1) (s) : Keeps s (xferBegin a0 a1 s) := by
  unfold xferBegin
  grind [Keeps.refl, Keeps.trans, keeps_mk, Keeps.foldl, Keeps.foldlSnd, keeps_xferRefuse, keeps_xferDone]

theorem keeps_dmaStart (a0 a1) (s) : Keeps s (dmaStart a0 a1 s).state := by
  unfold dmaStart
  grind [Keeps.refl, Keeps.trans, keeps_mk, Keeps.foldl, Keeps.foldlSnd, keeps_updCore, keeps_sheafRead, keeps_xferBegin, keeps_xferError, ERes.state, Keeps.foldlERes]

end Sys2Proof.Machine
end

