-- ==== Sys2Proof/Laws/KeepsPacket.lean ====
section
/-! SUPPORT. Every operation of Sys2Proof/Machine/Packet.lean keeps what `Keeps` says. -/

namespace Sys2Proof.Machine

theorem keeps_setPort (a0 a1) (s) : Keeps s (setPort a0 a1 s) := by
  unfold setPort
  grind [Keeps.refl, Keeps.trans, keeps_mk, Keeps.foldl, Keeps.foldlSnd]

theorem keeps_updPort (a0 a1) (s) : Keeps s (updPort a0 a1 s) := by
  unfold updPort
  grind [Keeps.refl, Keeps.trans, keeps_mk, Keeps.foldl, Keeps.foldlSnd, keeps_setPort]

theorem keeps_updLane (a0 a1 a2) (s) : Keeps s (updLane a0 a1 a2 s) := by
  unfold updLane
  grind [Keeps.refl, Keeps.trans, keeps_mk, Keeps.foldl, Keeps.foldlSnd, keeps_updPort]

theorem keeps_setPortState (a0 a1) (s) : Keeps s (setPortState a0 a1 s) := by
  unfold setPortState
  grind [Keeps.refl, Keeps.trans, keeps_mk, Keeps.foldl, Keeps.foldlSnd, keeps_fset]

theorem keeps_enqueuePkt (a0 a1) (s) : Keeps s (enqueuePkt a0 a1 s) := by
  unfold enqueuePkt
  grind [Keeps.refl, Keeps.trans, keeps_mk, Keeps.foldl, Keeps.foldlSnd, keeps_updLane]

end Sys2Proof.Machine
end

