-- ==== Sys2Proof/Laws/KeepsBlocks.lean ====
section
/-! SUPPORT. Every operation of Sys2Proof/Machine/Blocks.lean keeps what `Keeps` says. -/

namespace Sys2Proof.Machine

theorem keeps_updPorger (a0 a1) (s) : Keeps s (updPorger a0 a1 s) := by
  unfold updPorger
  grind [Keeps.refl, Keeps.trans, keeps_mk, Keeps.foldl, Keeps.foldlSnd]

theorem keeps_emitBlocks (a0 a1) (s) : Keeps s (emitBlocks a0 a1 s) := by
  unfold emitBlocks
  grind [Keeps.refl, Keeps.trans, keeps_mk, Keeps.foldl, Keeps.foldlSnd, keeps_emit, keeps_setPort]

theorem keeps_sendOnLane (a0 a1 a2 a3) (s) : Keeps s (sendOnLane a0 a1 a2 a3 s) := by
  unfold sendOnLane
  grind [Keeps.refl, Keeps.trans, keeps_mk, Keeps.foldl, Keeps.foldlSnd, keeps_emitBlocks, keeps_emit]

theorem keeps_sendBlock (a0 a1) (s) : Keeps s (sendBlock a0 a1 s) := by
  unfold sendBlock
  grind [Keeps.refl, Keeps.trans, keeps_mk, Keeps.foldl, Keeps.foldlSnd, keeps_emitBlocks, keeps_emit]

theorem keeps_sendLowest (a0 a1) (s) : Keeps s (sendLowest a0 a1 s) := by
  unfold sendLowest
  grind [Keeps.refl, Keeps.trans, keeps_mk, Keeps.foldl, Keeps.foldlSnd, keeps_emitBlocks, keeps_emit]

end Sys2Proof.Machine
end

