-- ==== Sys2Proof/Laws/KeepsCollMsg.lean ====
section
/-! SUPPORT. Every operation of Sys2Proof/Machine/CollMsg.lean keeps what `Keeps` says. -/

namespace Sys2Proof.Machine

theorem keeps_sendColl (a0 a1 a2 a3 a4) (s) : Keeps s (sendColl a0 a1 a2 a3 a4 s).state := by
  unfold sendColl
  grind [Keeps.refl, Keeps.trans, keeps_mk, Keeps.foldl, Keeps.foldlSnd, keeps_takeTag, keeps_enqueuePkt, Sent.state]

theorem keeps_sendNotice (a0 a1) (s) : Keeps s (sendNotice a0 a1 s) := by
  unfold sendNotice
  grind [Keeps.refl, Keeps.trans, keeps_mk, Keeps.foldl, Keeps.foldlSnd, keeps_emit, keeps_enqueuePkt]

theorem keeps_markFailed (a0 a1 a2) (s) : Keeps s (markFailed a0 a1 a2 s) := by
  unfold markFailed
  grind [Keeps.refl, Keeps.trans, keeps_mk, Keeps.foldl, Keeps.foldlSnd]

theorem keeps_notifyPeers (a0 a1 a2 a3) (s) : Keeps s (notifyPeers a0 a1 a2 a3 s) := by
  unfold notifyPeers
  grind [Keeps.refl, Keeps.trans, keeps_mk, Keeps.foldl, Keeps.foldlSnd, keeps_sendNotice]

end Sys2Proof.Machine
end

