-- ==== Sys2Proof/Laws/KeepsIssue.lean ====
section
/-! SUPPORT. Every operation of Sys2Proof/Machine/Issue.lean keeps what `Keeps` says. -/

namespace Sys2Proof.Machine

theorem keeps_unitEffect (a0 a1 a2) (s) : Keeps s (unitEffect a0 a1 a2 s).state := by
  unfold unitEffect
  dsimp only
  split
  all_goals repeat' first
    | with_reducible apply Keeps.ite_state
    | with_reducible exact keeps_effVadd ..
    | with_reducible exact keeps_effVsub ..
    | with_reducible exact keeps_effVmul ..
    | with_reducible exact keeps_effVfma ..
    | with_reducible exact keeps_effVmin ..
    | with_reducible exact keeps_effVmax ..
    | with_reducible exact keeps_effVsqrt ..
    | with_reducible exact keeps_effVrcp ..
    | with_reducible exact keeps_effVrsqrt ..
    | with_reducible exact keeps_effVexp2 ..
    | with_reducible exact keeps_effVlog2 ..
    | with_reducible exact keeps_effVabs ..
    | with_reducible exact keeps_effVcmplt ..
    | with_reducible exact keeps_effVcmpeq ..
    | with_reducible exact keeps_effVsel ..
    | with_reducible exact keeps_effVmov ..
    | with_reducible exact keeps_effViadd ..
    | with_reducible exact keeps_effVisub ..
    | with_reducible exact keeps_effVimul ..
    | with_reducible exact keeps_effVand ..
    | with_reducible exact keeps_effVor ..
    | with_reducible exact keeps_effVxor ..
    | with_reducible exact keeps_effVshl ..
    | with_reducible exact keeps_effVshr ..
    | with_reducible exact keeps_effVsar ..
    | with_reducible exact keeps_effViota ..
    | with_reducible exact keeps_effVbcast ..
    | with_reducible exact keeps_effVcvt ..
    | with_reducible exact keeps_effVqb ..
    | with_reducible exact keeps_effVdqb ..
    | with_reducible exact keeps_effVrsum ..
    | with_reducible exact keeps_effVrmax ..
    | with_reducible exact keeps_effVrmin ..
    | with_reducible exact keeps_effVld ..
    | with_reducible exact keeps_effVst ..
    | with_reducible exact keeps_effVldg ..
    | with_reducible exact keeps_effVstg ..
    | with_reducible exact keeps_effVlds ..
    | with_reducible exact keeps_effVsts ..
    | with_reducible exact keeps_effArsum ..
    | with_reducible exact keeps_effArmax ..
    | with_reducible exact keeps_effAsmx ..
    | with_reducible exact keeps_effAresc ..
    | with_reducible exact keeps_effAnorm ..
    | with_reducible exact keeps_effTld ..
    | with_reducible exact keeps_effTst ..
    | with_reducible exact keeps_effTldt ..
    | with_reducible exact keeps_effTzero ..
    | with_reducible exact keeps_effTmm ..
    | with_reducible exact keeps_effAzero ..
    | with_reducible exact keeps_effAst ..
    | with_reducible exact keeps_effAld ..
    | with_reducible exact keeps_effArdv ..
    | with_reducible exact keeps_effAwrv ..
    | with_reducible exact keeps_dmaStart ..
    | exact keeps_setCore _ _ _

theorem keeps_startNext (a0 a1) (s) : Keeps s (startNext a0 a1 s).1 := by
  unfold startNext
  grind [Keeps.refl, Keeps.trans, keeps_mk, Keeps.foldl, Keeps.foldlSnd, keeps_updCore, keeps_unitEffect, keeps_coreFail, ERes.state, Keeps.foldlERes, Keeps.foldlFst]

theorem keeps_pumpN (a0 a1) (s) : Keeps s (pumpN a0 a1 s) := by
  induction a1 generalizing s with
  | zero => exact Keeps.refl s
  | succ n ih =>
    unfold pumpN
    dsimp only
    generalize hr : List.foldl _ _ _ = r
    have key : Keeps s r.1 := by
      rw [← hr]
      exact Keeps.foldlFst _ _ (s, false) (fun r x => keeps_startNext _ _ _)
    split
    · exact key.trans (ih _)
    · exact key

theorem keeps_pump (a0) (s) : Keeps s (pump a0 s) := by
  unfold pump
  grind [Keeps.refl, Keeps.trans, keeps_mk, Keeps.foldl, Keeps.foldlSnd, keeps_pumpN]

theorem keeps_sqRun (a0 a1 a2) (s) (h : ∀ pc t, Keeps t (a2 pc t).state) : Keeps s (sqRun a0 a1 a2 s) := by
  have hf (c pc : Nat) (p : Pre) (f : Core → Core) (t : State) : Keeps t (pump c (signalEv c pc p (updCore c f t))) :=
    ((keeps_updCore c f t).trans (keeps_signalEv ..)).trans (keeps_pump ..)
  unfold sqRun
  dsimp only
  refine Keeps.ite (Keeps.refl s) (Keeps.ite (keeps_coreFail ..) (Keeps.ite (Keeps.refl s) (Keeps.ite (Keeps.refl s) ?_)))
  generalize hs : setCore _ _ s = s1
  have h1 : Keeps s s1 := hs ▸ keeps_setCore _ _ _
  refine Keeps.ite ?_ (h1.trans (hf ..))
  generalize he : a2 _ _ = e
  have h2 : Keeps s e.state := he ▸ h1.trans (h _ _)
  cases e with
  | done t => exact h2.trans (hf ..)
  | fail st t => exact Keeps.trans h2 (keeps_coreFail ..)
  | ended t => exact h2
  | held t => exact Keeps.trans h2 (keeps_updCore ..)

theorem keeps_unitIssue (a0 a1) (s) : Keeps s (unitIssue a0 a1 s) := by
  unfold unitIssue
  grind [Keeps.refl, Keeps.trans, keeps_mk, Keeps.foldl, Keeps.foldlSnd, keeps_coreFail, keeps_pump, keeps_setCore]

theorem keeps_complete (a0 a1) (s) : Keeps s (complete a0 a1 s) := by
  unfold complete
  grind [Keeps.refl, Keeps.trans, keeps_mk, Keeps.foldl, Keeps.foldlSnd, keeps_pump, keeps_signalEv, keeps_setCore]

theorem keeps_effAlu (a0 a1 a2 a3) (s) : Keeps s (effAlu a0 a1 a2 a3 s).state := by
  unfold effAlu
  grind [Keeps.refl, Keeps.trans, keeps_mk, Keeps.foldl, Keeps.foldlSnd, keeps_setCore, ERes.state, Keeps.foldlERes]

theorem keeps_setPc (a0 a1) (s) : Keeps s (setPc a0 a1 s) := by
  unfold setPc
  grind [Keeps.refl, Keeps.trans, keeps_mk, Keeps.foldl, Keeps.foldlSnd, keeps_updCore]

theorem keeps_effJump (a0 a1 a2 a3) (s) : Keeps s (effJump a0 a1 a2 a3 s).state := by
  unfold effJump
  grind [Keeps.refl, Keeps.trans, keeps_mk, Keeps.foldl, Keeps.foldlSnd, keeps_setPc, ERes.state, Keeps.foldlERes]

theorem keeps_semRead (a0 a1) (s) : Keeps s (semRead a0 a1 s).2 := by
  unfold semRead
  grind [Keeps.refl, Keeps.trans, keeps_mk, Keeps.foldl, Keeps.foldlSnd, keeps_tagPass, keeps_translate, keeps_ownerRead]

theorem keeps_semWrite (a0 a1 a2 a3) (s) : Keeps s (semWrite a0 a1 a2 a3 s).2 := by
  unfold semWrite
  grind [Keeps.refl, Keeps.trans, keeps_mk, Keeps.foldl, Keeps.foldlSnd, keeps_memWrite]

end Sys2Proof.Machine
end

