-- ==== Sys2Proof/Laws/KeepsSched.lean ====
section
/-! SUPPORT. Every operation of Sys2Proof/Machine/Sched.lean keeps what `Keeps` says. -/

namespace Sys2Proof.Machine

theorem keeps_noteHeld (a0 a1 a2) (s) : Keeps s (noteHeld a0 a1 a2 s) := by
  unfold noteHeld
  grind [Keeps.refl, Keeps.trans, keeps_mk, Keeps.foldl, Keeps.foldlSnd]

theorem keeps_bindRecord (a0 a1 a2 a3 a4 a5 a6) (s) : Keeps s (bindRecord a0 a1 a2 a3 a4 a5 a6 s) := by
  unfold bindRecord
  grind [Keeps.refl, Keeps.trans, keeps_mk, Keeps.foldl, Keeps.foldlSnd, keeps_noteHeld, keeps_trace]

theorem keeps_bindDone (a0 a1) (s) : Keeps s (bindDone a0 a1 s) := by
  unfold bindDone
  grind [Keeps.refl, Keeps.trans, keeps_mk, Keeps.foldl, Keeps.foldlSnd, keeps_fset, keeps_regPut, keeps_bindRecord, keeps_setCore]

theorem keeps_bindAdvance (a0) (s) : Keeps s (bindAdvance a0 s) := by
  unfold bindAdvance
  grind [Keeps.refl, Keeps.trans, keeps_mk, Keeps.foldl, Keeps.foldlSnd, keeps_bindDone, keeps_fset]

theorem keeps_sheafCleared (a0) (s) : Keeps s (sheafCleared a0 s) := by
  unfold sheafCleared
  grind [Keeps.refl, Keeps.trans, keeps_mk, Keeps.foldl, Keeps.foldlSnd, keeps_bindDone, keeps_setCore]

theorem keeps_releaseCore (a0) (s) : Keeps s (releaseCore a0 s) := by
  unfold releaseCore
  grind [Keeps.refl, Keeps.trans, keeps_mk, Keeps.foldl, Keeps.foldlSnd, keeps_bindAdvance, keeps_updCore]

theorem keeps_retireCheck (a0 a1) (s) : Keeps s (retireCheck a0 a1 s) := by
  unfold retireCheck
  grind [Keeps.refl, Keeps.trans, keeps_mk, Keeps.foldl, Keeps.foldlSnd, keeps_putRecord, keeps_setGraph]

theorem keeps_makeFinal (a0 a1 a2 a3 a4) (s) : Keeps s (makeFinal a0 a1 a2 a3 a4 s) := by
  unfold makeFinal
  split
  · exact Keeps.refl s
  · refine Keeps.ite (Keeps.refl s) ?_
    refine Keeps.trans ?_ (keeps_retireCheck ..)
    refine Keeps.trans ?_ (Keeps.foldl _ _ _ (fun _ _ => keeps_releaseCore ..))
    have h1 (f : Task → Task) (u v : Nat) (cs ds : List Nat) := ((keeps_updTask a0 a1 f s).trans (keeps_taskRecord a0 a1 a2 a3 a4 cs _)).trans
      (keeps_traceTask a0 a1 u v a4 ds _)
    split
    · exact Keeps.ite (h1 ..) (((h1 ..).trans (keeps_markFailed ..)).trans (keeps_notifyPeers ..))
    · exact h1 ..

theorem keeps_settleEdge (a0 a1) (s) : Keeps s (settleEdge a0 a1 s) := by
  unfold settleEdge
  grind [Keeps.refl, Keeps.trans, keeps_mk, Keeps.foldl, Keeps.foldlSnd, keeps_setGraph, keeps_makeFinal]

theorem keeps_readyTask (a0 a1) (s) : Keeps s (readyTask a0 a1 s) := by
  unfold readyTask
  grind [Keeps.refl, Keeps.trans, keeps_mk, Keeps.foldl, Keeps.foldlSnd, keeps_updTask, keeps_makeFinal]

theorem keeps_settleRound (s) : Keeps s (settleRound s) := by
  unfold settleRound
  grind [Keeps.refl, Keeps.trans, keeps_mk, Keeps.foldl, Keeps.foldlSnd, keeps_settleEdge, keeps_readyTask]

theorem keeps_settleN (a0) (s) : Keeps s (settleN a0 s) := by
  fun_induction settleN a0 s <;> grind [Keeps.refl, Keeps.trans, keeps_mk, Keeps.foldl, Keeps.foldlSnd, keeps_settleRound]

theorem keeps_settle (s) : Keeps s (settle s) := by
  unfold settle
  grind [Keeps.refl, Keeps.trans, keeps_mk, Keeps.foldl, Keeps.foldlSnd, keeps_settleN]

theorem keeps_wakeCore (a0) (s) : Keeps s (wakeCore a0 s) := by
  unfold wakeCore
  grind [Keeps.refl, Keeps.trans, keeps_mk, Keeps.foldl, Keeps.foldlSnd, keeps_fset]

theorem keeps_startCores (a0 a1 a2) (s) : Keeps s (startCores a0 a1 a2 s) := by
  unfold startCores
  grind [Keeps.refl, Keeps.trans, keeps_mk, Keeps.foldl, Keeps.foldlSnd, keeps_wakeCore, keeps_setCore, keeps_traceTask, keeps_updTask]

theorem keeps_readDmaDesc (a0 a1) (s) : Keeps s (readDmaDesc a0 a1 s) := by
  unfold readDmaDesc
  split
  · exact Keeps.refl s
  · dsimp only
    refine Keeps.ite ((keeps_setXfer ..).trans (keeps_xferRefuse ..)) ?_
    generalize hv : vread _ _ _ _ _ _ = v
    have h1 : Keeps s v.2 := hv ▸ keeps_vread ..
    split
    · refine Keeps.ite ((h1.trans (keeps_setXfer ..)).trans (keeps_xferBegin ..)) ?_
      repeat' split
      all_goals grind [Keeps.trans, keeps_setXfer, keeps_translate, keeps_updTask, keeps_xferBegin, keeps_faultRec, keeps_xferError]
    · exact (Keeps.trans h1 (keeps_setXfer ..)).trans (keeps_xferFail ..)

theorem keeps_startUnit (a0 a1) (s) : Keeps s (startUnit a0 a1 s) := by
  unfold startUnit
  grind [Keeps.refl, Keeps.trans, keeps_mk, Keeps.foldl, Keeps.foldlSnd, keeps_updTask, keeps_traceTask, keeps_readDmaDesc, keeps_setXfer]

theorem keeps_saveFail (a0 a1 a2 a3 a4 a5) (s) : Keeps s (saveFail a0 a1 a2 a3 a4 a5 s) := by
  unfold saveFail
  grind [Keeps.refl, Keeps.trans, keeps_mk, Keeps.foldl, Keeps.foldlSnd, keeps_faultRec, keeps_failTask]

theorem keeps_preemptDone (a0 a1) (s) : Keeps s (preemptDone a0 a1 s) := by
  unfold preemptDone
  grind [Keeps.refl, Keeps.trans, keeps_mk, Keeps.foldl, Keeps.foldlSnd, keeps_updTask, keeps_putRecord, keeps_traceTask, keeps_releaseCore]

theorem keeps_preemptCore (a0) (s) : Keeps s (preemptCore a0 s) := by
  unfold preemptCore
  grind [Keeps.refl, Keeps.trans, keeps_mk, Keeps.foldl, Keeps.foldlSnd, keeps_setCore, keeps_parkXfer]

theorem keeps_saveCore (a0) (s) : Keeps s (saveCore a0 s) := by
  unfold saveCore
  dsimp only
  split
  · exact Keeps.refl s
  split
  · exact Keeps.refl s
  refine Keeps.ite (Keeps.refl s) ?_
  generalize hv : sheafRead _ _ _ _ = v
  have h1 : Keeps s v.2 := hv ▸ (keeps_nextFree s).trans (keeps_sheafRead ..)
  split
  · exact Keeps.trans h1 (keeps_coreFail ..)
  · generalize hw : vwrite _ _ _ _ _ _ = w
    have h2 : Keeps s w.2 := hw ▸ Keeps.trans h1 (keeps_vwrite ..)
    split
    · generalize hx : vwrite _ _ _ _ _ _ = x
      have h3 : Keeps s x.2 := hx ▸ Keeps.trans h2 (keeps_vwrite ..)
      split
      · exact (Keeps.trans h3 (keeps_updCore ..)).trans ((keeps_updTask ..).trans (keeps_preemptDone ..))
      · exact h3
      · exact Keeps.trans h3 (keeps_saveFail ..)
    · exact h2
    · exact Keeps.trans h2 (keeps_saveFail ..)

theorem keeps_restoreRank (a0 a1 a2 a3) (s) : Keeps s (restoreRank a0 a1 a2 a3 s).2 := by
  unfold restoreRank
  grind [Keeps.refl, Keeps.trans, keeps_mk, Keeps.foldl, Keeps.foldlSnd, keeps_vread]

theorem keeps_restoreFail (a0 a1 a2 a3) (s) : Keeps s (restoreFail a0 a1 a2 a3 s) := by
  unfold restoreFail
  grind [Keeps.refl, Keeps.trans, keeps_mk, Keeps.foldl, Keeps.foldlSnd, keeps_recordFail, keeps_updTask, keeps_traceTask, keeps_taskRecord, keeps_settle, keeps_makeFinal]

theorem keeps_readImages (a0 a1 a2) (s) : Keeps s (readImages a0 a1 a2 s).2 := by
  unfold readImages
  refine Keeps.foldlSnd _ _ (_, s) (fun r x => ?_)
  grind [Keeps.refl, Keeps.trans, keeps_mk, Keeps.foldl, Keeps.foldlSnd, keeps_restoreRank]

theorem keeps_resumeTask (a0 a1 a2 a3) (s) : Keeps s (resumeTask a0 a1 a2 a3 s) := by
  unfold resumeTask
  dsimp only
  refine Keeps.trans ?_ (Keeps.foldl _ _ _ (fun _ _ => keeps_pump ..))
  refine Keeps.trans ?_ ((keeps_updTask ..).trans (keeps_traceTask ..))
  exact Keeps.foldl _ _ _ (fun _ _ => (keeps_setCore ..).trans (keeps_wakeCore ..))

theorem keeps_readGang (a0 a1) (s) : Keeps s (readGang a0 a1 s).2 := by
  fun_induction readGang a0 a1 s <;> grind [Keeps.refl, Keeps.trans, keeps_mk, Keeps.foldl, Keeps.foldlSnd, keeps_readImages]

theorem keeps_reserveSlots (a0 a1 a2) (s) : Keeps s (reserveSlots a0 a1 a2 s) := by
  unfold reserveSlots
  split
  · exact Keeps.refl s
  · exact Keeps.iter _ _ _ (fun _ => keeps_ringReserve ..)

theorem keeps_dispatch (a0 a1) (s) : Keeps s (dispatch a0 a1 s) := by
  unfold dispatch
  split
  · exact Keeps.refl s
  split
  · exact Keeps.refl s
  refine Keeps.ite (Keeps.refl s) ?_
  generalize hv : readGang _ _ _ = v
  have h1 : Keeps s v.2 := hv ▸ (keeps_reserveSlots ..).trans (keeps_readGang ..)
  split
  · refine Keeps.ite (Keeps.trans h1 (keeps_reserveSlots ..)) ?_
    exact (Keeps.trans h1 (keeps_reserveSlots ..)).trans ((keeps_updTask ..).trans (keeps_restoreFail ..))
  · refine Keeps.trans h1 (Keeps.foldl _ _ _ (fun _ _ => ?_))
    split
    · exact Keeps.refl _
    · exact Keeps.ite (keeps_startUnit ..) (Keeps.ite (keeps_resumeTask ..) (keeps_startCores ..))

theorem keeps_preemptFor (a0 a1 a2) (s) : Keeps s (preemptFor a0 a1 a2 s) := by
  fun_induction preemptFor a0 a1 a2 s <;> grind [Keeps.refl, Keeps.trans, keeps_mk, Keeps.foldl, Keeps.foldlSnd, keeps_preemptTask]

theorem keeps_backfillExpire (a0 a1) (s) : Keeps s (backfillExpire a0 a1 s) := by
  unfold backfillExpire
  grind [Keeps.refl, Keeps.trans, keeps_mk, Keeps.foldl, Keeps.foldlSnd, keeps_updTask, keeps_preemptFor]

theorem keeps_commitTask (a0 a1) (s) : Keeps s (commitTask a0 a1 s) := by
  unfold commitTask
  grind [Keeps.refl, Keeps.trans, keeps_mk, Keeps.foldl, Keeps.foldlSnd, keeps_settle, keeps_makeFinal]

theorem keeps_discardTask (a0 a1 a2) (s) : Keeps s (discardTask a0 a1 a2 s) := by
  unfold discardTask
  grind [Keeps.refl, Keeps.trans, keeps_mk, Keeps.foldl, Keeps.foldlSnd, keeps_settle, keeps_makeFinal, keeps_stopCore]

end Sys2Proof.Machine
end

