-- ==== Sys2Proof/Laws/KeepsTransfer.lean ====
section
/-! SUPPORT. Every operation of Sys2Proof/Machine/Transfer.lean keeps what `Keeps` says. -/

namespace Sys2Proof.Machine

theorem keeps_pieceAddr (a0 a1 a2 a3) (s) : Keeps s (pieceAddr a0 a1 a2 a3 s).2 := by
  unfold pieceAddr
  grind [Keeps.refl, Keeps.trans, keeps_mk, Keeps.foldl, Keeps.foldlSnd, keeps_translate]

theorem keeps_buildPieces (a0 a1 a2) (s) : Keeps s (buildPieces a0 a1 a2 s).2 := by
  fun_induction buildPieces a0 a1 a2 s <;> grind [Keeps.refl, Keeps.trans, keeps_mk, Keeps.foldl, Keeps.foldlSnd, keeps_pieceAddr]

theorem keeps_settlePiece (a0 a1 a2) (s) : Keeps s (settlePiece a0 a1 a2 s).2 := by
  unfold settlePiece
  grind [Keeps.refl, Keeps.trans, keeps_mk, Keeps.foldl, Keeps.foldlSnd, keeps_sheafWrite, keeps_nextFree, keeps_sheafRead]

theorem keeps_settlePieces (a0 a1 a2) (s) : Keeps s (settlePieces a0 a1 a2 s).2 := by
  fun_induction settlePieces a0 a1 a2 s <;> grind [Keeps.refl, Keeps.trans, keeps_mk, Keeps.foldl, Keeps.foldlSnd, keeps_settlePiece]

theorem keeps_remoteFail (a0 a1 a2 a3 a4 a5 a6) (s) : Keeps s (remoteFail a0 a1 a2 a3 a4 a5 a6 s) := by
  unfold remoteFail
  grind [Keeps.refl, Keeps.trans, keeps_mk, Keeps.foldl, Keeps.foldlSnd, keeps_faultRec, keeps_parkXfer, keeps_faultTask, keeps_unitFaultWait, keeps_xferError]

theorem keeps_issuePiece (a0 a1 a2 a3) (s) : Keeps s (issuePiece a0 a1 a2 a3 s) := by
  unfold issuePiece
  grind [Keeps.refl, Keeps.trans, keeps_mk, Keeps.foldl, Keeps.foldlSnd, keeps_setXfer, keeps_remoteFail, keeps_parkXfer, keeps_takeTag, keeps_enqueuePkt, keeps_translate, keeps_xferFail]

theorem keeps_listChunk (a0 a1) (s) : Keeps s (listChunk a0 a1 s) := by
  unfold listChunk
  grind [Keeps.refl, Keeps.trans, keeps_mk, Keeps.foldl, Keeps.foldlSnd, keeps_buildPieces, keeps_xferFail, keeps_settlePieces, keeps_xferError, keeps_setXfer]

theorem keeps_acquireChunk (a0) (s) : Keeps s (acquireChunk a0 s) := by
  unfold acquireChunk
  grind [Keeps.refl, Keeps.trans, keeps_mk, Keeps.foldl, Keeps.foldlSnd, keeps_readDmaDesc, keeps_issuePiece, keeps_listChunk]

theorem keeps_tagAcquire (a0 a1 a2 a3) (s) : Keeps s (tagAcquire a0 a1 a2 a3 s) := by
  unfold tagAcquire
  grind [Keeps.refl, Keeps.trans, keeps_mk, Keeps.foldl, Keeps.foldlSnd, keeps_acquireChunk, keeps_takeTag]

theorem keeps_pieceRead (a0 a1 a2 a3) (s) : Keeps s (pieceRead a0 a1 a2 a3 s) := by
  unfold pieceRead
  split <;> grind [Keeps.refl, Keeps.trans, keeps_mk, Keeps.foldl, Keeps.foldlSnd, keeps_settlePiece, keeps_setXfer, keeps_xferError]

theorem keeps_chunkResponse (a0 a1 a2 a3 a4 a5 a6) (s) : Keeps s (chunkResponse a0 a1 a2 a3 a4 a5 a6 s) := by
  unfold chunkResponse
  grind [Keeps.refl, Keeps.trans, keeps_mk, Keeps.foldl, Keeps.foldlSnd, keeps_remoteFail, keeps_setXfer, keeps_pieceRead, keeps_memWrite, keeps_nextFree, keeps_xferFail, keeps_memRead]

theorem keeps_transactionResponse (a0 a1 a2 a3 a4 a5 a6) (s) : Keeps s (transactionResponse a0 a1 a2 a3 a4 a5 a6 s) := by
  unfold transactionResponse
  grind [Keeps.refl, Keeps.trans, keeps_mk, Keeps.foldl, Keeps.foldlSnd, keeps_freeTag, keeps_flushDeferred, keeps_memWrite, keeps_nextFree, keeps_chunkResponse]

theorem keeps_chunkRetire (a0) (s) : Keeps s (chunkRetire a0 s) := by
  unfold chunkRetire
  split <;> grind [Keeps.refl, Keeps.trans, keeps_mk, Keeps.foldl, Keeps.foldlSnd, keeps_setXfer, keeps_xferDone, keeps_pump]

theorem keeps_execTagAcquire (a0 a1 a2 a3) (s) : Keeps s (nextOr s (execTagAcquire a0 a1 a2 a3 s)) := by
  unfold execTagAcquire
  grind [Keeps.refl, Keeps.trans, keeps_mk, Keeps.foldl, Keeps.foldlSnd, keeps_tagAcquire, nextOr]

theorem keeps_execTransactionResponse (a0 a1 a2 a3 a4 a5 a6) (s) : Keeps s (nextOr s (execTransactionResponse a0 a1 a2 a3 a4 a5 a6 s)) := by
  unfold execTransactionResponse
  grind [Keeps.refl, Keeps.trans, keeps_mk, Keeps.foldl, Keeps.foldlSnd, keeps_transactionResponse, nextOr]

theorem keeps_execDmaChunkRetire (a0) (s) : Keeps s (nextOr s (execDmaChunkRetire a0 s)) := by
  unfold execDmaChunkRetire
  grind [Keeps.refl, Keeps.trans, keeps_mk, Keeps.foldl, Keeps.foldlSnd, keeps_chunkRetire, nextOr]

end Sys2Proof.Machine
end

