-- ==== Sys2Proof/Laws/KeepsCollective.lean ====
section
/-! SUPPORT. Every operation of Sys2Proof/Machine/Collective.lean keeps what `Keeps` says. -/

namespace Sys2Proof.Machine

theorem keeps_setColl (a0 a1 a2) (s) : Keeps s (setColl a0 a1 a2 s) := by
  unfold setColl
  grind [Keeps.refl, Keeps.trans, keeps_mk, Keeps.foldl, Keeps.foldlSnd, keeps_updTask]

theorem keeps_putCollRecord (a0 a1 a2 a3 a4) (s) : Keeps s (putCollRecord a0 a1 a2 a3 a4 s) := by
  unfold putCollRecord
  grind [Keeps.refl, Keeps.trans, keeps_mk, Keeps.foldl, Keeps.foldlSnd, keeps_putDescRecord]

theorem keeps_collEnd (a0 a1 a2 a3 a4) (s) : Keeps s (collEnd a0 a1 a2 a3 a4 s) := by
  unfold collEnd
  grind [Keeps.refl, Keeps.trans, keeps_mk, Keeps.foldl, Keeps.foldlSnd, keeps_putCollRecord, keeps_setColl, keeps_failTask, keeps_settle, keeps_makeFinal]

theorem keeps_collRefuse (a0 a1 a2) (s) : Keeps s (collRefuse a0 a1 a2 s) := by
  unfold collRefuse
  grind [Keeps.refl, Keeps.trans, keeps_mk, Keeps.foldl, Keeps.foldlSnd, keeps_collEnd, keeps_faultRec]

theorem keeps_collFail (a0 a1 a2 a3 a4) (s) : Keeps s (collFail a0 a1 a2 a3 a4 s) := by
  unfold collFail
  split
  · exact Keeps.refl s
  dsimp only
  split
  · exact Keeps.refl s
  · exact Keeps.refl s
  · refine Keeps.trans (Keeps.trans ?_ (keeps_putCollRecord ..)) (keeps_unitFaultWait ..)
    split
    · exact (keeps_recordFail ..).trans (keeps_setColl ..)
    · exact keeps_recordFail ..
  · exact (keeps_recordFail ..).trans (keeps_collEnd ..)
  · exact (keeps_recordFail ..).trans (keeps_collEnd ..)

theorem keeps_collRead (a0 a1 a2 a3 a4) (s) (h : ∀ bs t, Keeps t (a4 bs t)) : Keeps s (collRead a0 a1 a2 a3 s a4) := by
  unfold collRead
  grind [Keeps.refl, Keeps.trans, keeps_mk, Keeps.foldl, Keeps.foldlSnd, keeps_vread, keeps_collFail]

theorem keeps_collBegin (a0 a1 a2) (s) : Keeps s (collBegin a0 a1 a2 s) := by
  unfold collBegin
  grind [Keeps.refl, Keeps.trans, keeps_mk, Keeps.foldl, Keeps.foldlSnd, keeps_setColl]

theorem keeps_collAux (a0 a1 a2) (s) : Keeps s (collAux a0 a1 a2 s) := by
  unfold collAux
  grind [Keeps.refl, Keeps.trans, keeps_mk, Keeps.foldl, Keeps.foldlSnd, keeps_collRead, keeps_collRefuse, keeps_collBegin]

theorem keeps_collGo (a0 a1) (s) : Keeps s (collGo a0 a1 s) := by
  unfold collGo
  grind [Keeps.refl, Keeps.trans, keeps_mk, Keeps.foldl, Keeps.foldlSnd, keeps_collRefuse, keeps_collAux]

theorem keeps_collList (a0 a1 a2 a3 a4 a5) (s) : Keeps s ((collList a0 a1 a2 a3 a4 a5 s).getD s) := by
  unfold collList
  grind [Keeps.refl, Keeps.trans, keeps_mk, Keeps.foldl, Keeps.foldlSnd, keeps_updTask]

theorem keeps_collPick (a0 a1 a2 a3 a4 a5) (s) : Keeps s (collPick a0 a1 a2 a3 a4 a5 s) := by
  unfold collPick
  grind [Keeps.refl, Keeps.trans, keeps_mk, Keeps.foldl, Keeps.foldlSnd, keeps_collEnd, keeps_faultRec, keeps_updTask, keeps_collList, keeps_collRefuse, keeps_collGo]

theorem keeps_collOwner (a0 a1 a2 a3 a4 a5 a6) (s) : Keeps s (collOwner a0 a1 a2 a3 a4 a5 a6 s) := by
  unfold collOwner
  grind [Keeps.refl, Keeps.trans, keeps_mk, Keeps.foldl, Keeps.foldlSnd, keeps_translate, keeps_collPick, keeps_collFail]

theorem keeps_applyNotice (a0 a1 a2) (s) : Keeps s (applyNotice a0 a1 a2 s) := by
  unfold applyNotice
  grind [Keeps.refl, Keeps.trans, keeps_mk, Keeps.foldl, Keeps.foldlSnd, keeps_collRefuse, keeps_collEnd, keeps_faultRec]

theorem keeps_collRegister (a0 a1) (s) : Keeps s (collRegister a0 a1 s) := by
  unfold collRegister
  split <;> grind [Keeps.refl, Keeps.trans, keeps_mk, Keeps.foldl, Keeps.foldlSnd, keeps_collRefuse, keeps_collRead, keeps_collList, keeps_collPick, keeps_collOwner]

theorem keeps_collStart (a0 a1) (s) : Keeps s (collStart a0 a1 s) := by
  unfold collStart
  split
  · exact Keeps.refl s
  rename_i k _
  refine Keeps.ite (Keeps.refl s) ?_
  have hgo (o : Option CollRun) : Keeps s (match o with
      | some _ => collGo a0 a1 s
      | none => collRegister a0 a1 s) := by
    cases o
    · exact keeps_collRegister ..
    · exact keeps_collGo ..
  have h1 := hgo k.coll
  dsimp only
  split
  · exact (Keeps.trans h1 (.of_eq rfl rfl rfl rfl rfl)).trans (keeps_applyNotice ..)
  · exact h1

theorem keeps_collGather (a0 a1 a2 a3) (s) : Keeps s (collGather a0 a1 a2 a3 s).2 := by
  fun_induction collGather a0 a1 a2 a3 s <;> grind [Keeps.refl, Keeps.trans, keeps_mk, Keeps.foldl, Keeps.foldlSnd, keeps_vread]

theorem keeps_owedData (a0 a1 a2 a3 a4 a5) (s) : Keeps s (owedData s a0 a1 a2 a3 a4 a5).2 := by
  unfold owedData
  grind [Keeps.refl, Keeps.trans, keeps_mk, Keeps.foldl, Keeps.foldlSnd, keeps_vread, keeps_collGather]

theorem keeps_sendOwed (a0 a1 a2) (s) : Keeps s (sendOwed a0 a1 a2 s) := by
  fun_induction sendOwed a0 a1 a2 s <;> grind [Keeps.refl, Keeps.trans, keeps_mk, Keeps.foldl, Keeps.foldlSnd, keeps_owedData, keeps_setColl, keeps_sendColl, keeps_collEnd, keeps_faultRec, keeps_collFail, Sent.state]

theorem keeps_sendFwd (a0 a1 a2) (s) : Keeps s (sendFwd a0 a1 a2 s) := by
  fun_induction sendFwd a0 a1 a2 s <;> grind [Keeps.refl, Keeps.trans, keeps_mk, Keeps.foldl, Keeps.foldlSnd, keeps_sendColl, keeps_setColl, Sent.state]

theorem keeps_collFirstSend (a0 a1) (s) : Keeps s (collFirstSend a0 a1 s) := by
  unfold collFirstSend
  grind [Keeps.refl, Keeps.trans, keeps_mk, Keeps.foldl, Keeps.foldlSnd, keeps_sendFwd, keeps_sendOwed]

theorem keeps_collAck (a0 a1) (s) : Keeps s (collAck a0 a1 s) := by
  unfold collAck
  grind [Keeps.refl, Keeps.trans, keeps_mk, Keeps.foldl, Keeps.foldlSnd, keeps_setColl]

theorem keeps_takeBlock (a0 a1 a2 a3 a4) (s) : Keeps s ((takeBlock a0 a1 a2 a3 a4 s).getD s) := by
  unfold takeBlock
  grind [Keeps.refl, Keeps.trans, keeps_mk, Keeps.foldl, Keeps.foldlSnd, keeps_collFirstSend, keeps_setColl]

theorem keeps_collUnknown (a0 a1) (s) : Keeps s (collUnknown a0 a1 s) := by
  unfold collUnknown
  grind [Keeps.refl, Keeps.trans, keeps_mk, Keeps.foldl, Keeps.foldlSnd, keeps_faultRec, keeps_sendNotice]

theorem keeps_takeHello (a0 a1 a2 a3 a4 a5 a6) (s) : Keeps s ((takeHello a0 a1 a2 a3 a4 a5 a6 s).getD s) := by
  unfold takeHello
  grind [Keeps.refl, Keeps.trans, keeps_mk, Keeps.foldl, Keeps.foldlSnd, keeps_collRefuse, keeps_sendColl, keeps_setColl, Sent.state]

theorem keeps_collReceive (a0 a1) (s) : Keeps s ((collReceive a0 a1 s).getD s) := by
  unfold collReceive
  split
  · exact keeps_collUnknown ..
  refine Keeps.iteGetD (keeps_collUnknown ..) ?_
  split
  · exact Keeps.iteGetD (keeps_collAck ..) (Keeps.refl s)
  refine Keeps.iteGetD (Keeps.refl s) ?_
  dsimp only
  split
  · exact Keeps.optMap _ (fun _ => keeps_collAck ..) (keeps_takeHello ..)
  refine Keeps.iteGetD (Keeps.optMap _ (fun _ => keeps_collAck ..) (keeps_takeBlock ..)) (Keeps.iteGetD (Keeps.refl s) ?_)
  exact Keeps.trans (keeps_setColl ..) (keeps_collAck ..)

theorem keeps_collMessage (a0 a1) (s) : Keeps s (collMessage a0 a1 s) := by
  unfold collMessage
  grind [Keeps.refl, Keeps.trans, keeps_mk, Keeps.foldl, Keeps.foldlSnd, keeps_collReceive]

theorem keeps_collChunkRetire (a0 a1) (s) : Keeps s (collChunkRetire a0 a1 s) := by
  unfold collChunkRetire
  grind [Keeps.refl, Keeps.trans, keeps_mk, Keeps.foldl, Keeps.foldlSnd, keeps_vwrite, keeps_updTask, keeps_collFail]

theorem keeps_atomicAdd (a0 a1 a2 a3 a4) (s) : Keeps s (atomicAdd a0 a1 a2 a3 a4 s).2 := by
  unfold atomicAdd
  grind [Keeps.refl, Keeps.trans, keeps_mk, Keeps.foldl, Keeps.foldlSnd, keeps_tagPass, keeps_translate, keeps_ownerRead, keeps_memWrite]

theorem keeps_takeFree (a0 a1 a2) (s) : Keeps s (takeFree a0 a1 a2 s).2 := by
  fun_induction takeFree a0 a1 a2 s <;> grind [Keeps.refl, Keeps.trans, keeps_mk, Keeps.foldl, Keeps.foldlSnd, keeps_atomicAdd, keeps_setColl, keeps_collFail]

theorem keeps_raiseReady (a0 a1 a2) (s) : Keeps s (raiseReady a0 a1 a2 s).2 := by
  fun_induction raiseReady a0 a1 a2 s <;> grind [Keeps.refl, Keeps.trans, keeps_mk, Keeps.foldl, Keeps.foldlSnd, keeps_atomicAdd, keeps_setColl, keeps_collFail]

theorem keeps_translateAll (a0 a1 a2) (s) : Keeps s (translateAll a0 a1 a2 s).2 := by
  fun_induction translateAll a0 a1 a2 s <;> grind [Keeps.refl, Keeps.trans, keeps_mk, Keeps.foldl, Keeps.foldlSnd, keeps_translateRange]

theorem keeps_attnPut (a0 a1 a2 a3 a4 a5 a6 a7 a8) (s) : Keeps s (attnPut a0 a1 a2 a3 a4 a5 a6 a7 a8 s) := by
  unfold attnPut
  dsimp only
  generalize hz : translateAll _ _ _ s = z
  have h0 : Keeps s z.2 := hz ▸ keeps_translateAll ..
  split
  · exact Keeps.trans h0 (keeps_collFail ..)
  rename_i s0
  generalize hv : (if a7 = helloChunk ∨ a5 ≠ a4.rank then ((VRes.ok a8, s0) : VRes × State) else vread _ _ _ _ _ s0) = v
  have h1 : Keeps s v.2 := by
    rw [← hv]
    exact Keeps.iteSnd h0 (Keeps.trans h0 (keeps_vread ..))
  split
  · rename_i bs t
    generalize hw : (if a7 = helloChunk then ((VRes.ok [], t) : VRes × State) else vwrite _ _ _ _ _ t) = w
    have h2 : Keeps s w.2 := by
      rw [← hw]
      exact Keeps.iteSnd h1 (h1.trans (keeps_vwrite ..))
    split
    · rename_i u
      generalize hx : vwrite _ _ _ _ _ _ = x
      have h3 : Keeps s x.2 := hx ▸ Keeps.trans h2 (keeps_vwrite ..)
      split
      · rename_i y
        have h4 := Keeps.trans h3 (keeps_raiseReady a0 a1 (aConsumers a4.aux + 1) y)
        refine Keeps.ite h4 ?_
        split
        · exact h4
        · exact Keeps.trans h4 (keeps_setColl ..)
      · exact Keeps.trans h3 (keeps_collFail ..)
    · exact Keeps.trans h2 (keeps_collFail ..)
  · exact Keeps.trans h1 (keeps_collFail ..)

theorem keeps_attnStage (a0 a1) (s) : Keeps s (attnStage a0 a1 s) := by
  unfold attnStage
  grind [Keeps.refl, Keeps.trans, keeps_mk, Keeps.foldl, Keeps.foldlSnd, keeps_takeFree, keeps_attnPut]

theorem keeps_collCommit (a0 a1) (s) : Keeps s (collCommit a0 a1 s) := by
  unfold collCommit
  split
  · exact Keeps.refl s
  split
  · exact Keeps.refl s
  refine Keeps.ite (Keeps.refl s) ?_
  dsimp only
  refine Keeps.trans ?_ ((keeps_makeFinal ..).trans (keeps_settle ..))
  split
  · exact (keeps_putCollRecord ..).trans (keeps_mk ..)
  · exact keeps_putCollRecord ..

theorem keeps_takeNotice (a0 a1) (s) : Keeps s (takeNotice a0 a1 s) := by
  unfold takeNotice
  grind [Keeps.refl, Keeps.trans, keeps_mk, Keeps.foldl, Keeps.foldlSnd, keeps_applyNotice, keeps_markFailed]

theorem keeps_noticeReceive (a0 a1) (s) : Keeps s (noticeReceive a0 a1 s) := by
  unfold noticeReceive
  grind [Keeps.refl, Keeps.trans, keeps_mk, Keeps.foldl, Keeps.foldlSnd, keeps_takeNotice]

theorem keeps_execCollectiveTaskStart (a0 a1) (s) : Keeps s (nextOr s (execCollectiveTaskStart a0 a1 s)) := by
  unfold execCollectiveTaskStart
  grind [Keeps.refl, Keeps.trans, keeps_mk, Keeps.foldl, Keeps.foldlSnd, keeps_collStart, nextOr]

theorem keeps_execCollectiveFirstSend (a0 a1) (s) : Keeps s (nextOr s (execCollectiveFirstSend a0 a1 s)) := by
  unfold execCollectiveFirstSend
  grind [Keeps.refl, Keeps.trans, keeps_mk, Keeps.foldl, Keeps.foldlSnd, keeps_collFirstSend, nextOr]

theorem keeps_execCollectiveMessageReceive (a0 a1) (s) : Keeps s (nextOr s (execCollectiveMessageReceive a0 a1 s)) := by
  unfold execCollectiveMessageReceive
  grind [Keeps.refl, Keeps.trans, keeps_mk, Keeps.foldl, Keeps.foldlSnd, keeps_collMessage, nextOr]

theorem keeps_execCollectiveChunkRetire (a0 a1) (s) : Keeps s (nextOr s (execCollectiveChunkRetire a0 a1 s)) := by
  unfold execCollectiveChunkRetire
  grind [Keeps.refl, Keeps.trans, keeps_mk, Keeps.foldl, Keeps.foldlSnd, keeps_collChunkRetire, nextOr]

theorem keeps_execCollectiveCommit (a0 a1) (s) : Keeps s (nextOr s (execCollectiveCommit a0 a1 s)) := by
  unfold execCollectiveCommit
  grind [Keeps.refl, Keeps.trans, keeps_mk, Keeps.foldl, Keeps.foldlSnd, keeps_collCommit, nextOr]

theorem keeps_execFailureNoticeReceive (a0 a1) (s) : Keeps s (nextOr s (execFailureNoticeReceive a0 a1 s)) := by
  unfold execFailureNoticeReceive
  grind [Keeps.refl, Keeps.trans, keeps_mk, Keeps.foldl, Keeps.foldlSnd, keeps_noticeReceive, nextOr]

theorem keeps_execAttnBlockStage (a0 a1) (s) : Keeps s (nextOr s (execAttnBlockStage a0 a1 s)) := by
  unfold execAttnBlockStage
  grind [Keeps.refl, Keeps.trans, keeps_mk, Keeps.foldl, Keeps.foldlSnd, keeps_attnStage, nextOr]

end Sys2Proof.Machine
end

