-- ==== Sys2Proof/Laws/KeepsNear.lean ====
section
/-! SUPPORT. Every operation of Sys2Proof/Machine/Near.lean keeps what `Keeps` says. -/

namespace Sys2Proof.Machine

theorem keeps_rawRead (a0 a1) (s) : Keeps s (rawRead a0 a1 s).2 := by
  unfold rawRead
  refine Keeps.foldlSnd _ _ (_, s) (fun r x => ?_)
  grind [Keeps.refl, Keeps.trans, keeps_mk, Keeps.foldl, Keeps.foldlSnd, keeps_readCw]

theorem keeps_rawWrite (a0 a1) (s) : Keeps s (rawWrite a0 a1 s).2 := by
  unfold rawWrite
  refine Keeps.foldlSnd2 _ _ (_, _, s) (fun r x => ?_)
  grind [Keeps.refl, Keeps.trans, keeps_writeCw]

theorem keeps_flushOut (a0 a1) (s) : Keeps s (flushOut a0 a1 s) := by
  unfold flushOut
  grind [Keeps.refl, Keeps.trans, keeps_mk, Keeps.foldl, Keeps.foldlSnd, keeps_flushLine, keeps_dropLine]

theorem keeps_putNearRecord (a0 a1) (s) : Keeps s (putNearRecord a0 a1 s) := by
  unfold putNearRecord
  grind [Keeps.refl, Keeps.trans, keeps_mk, Keeps.foldl, Keeps.foldlSnd, keeps_putDescRecord]

theorem keeps_nearEnd (a0 a1 a2 a3) (s) : Keeps s (nearEnd a0 a1 a2 a3 s) := by
  unfold nearEnd
  grind [Keeps.refl, Keeps.trans, keeps_mk, Keeps.foldl, Keeps.foldlSnd, keeps_failTask, keeps_putNearRecord]

theorem keeps_nearRefuse (a0 a1 a2) (s) : Keeps s (nearRefuse a0 a1 a2 s) := by
  unfold nearRefuse
  grind [Keeps.refl, Keeps.trans, keeps_mk, Keeps.foldl, Keeps.foldlSnd, keeps_nearEnd, keeps_faultRec]

theorem keeps_nearFail (a0 a1 a2 a3 a4) (s) : Keeps s (nearFail a0 a1 a2 a3 a4 s) := by
  unfold nearFail
  grind [Keeps.refl, Keeps.trans, keeps_mk, Keeps.foldl, Keeps.foldlSnd, keeps_unitFaultWait, keeps_recordFail, keeps_nearEnd]

theorem keeps_nearFails (a0 a1 a2 a3) (s) : Keeps s (nearFails a0 a1 a2 a3 s) := by
  unfold nearFails
  grind [Keeps.refl, Keeps.trans, keeps_mk, Keeps.foldl, Keeps.foldlSnd, keeps_recordFail, keeps_nearFail]

theorem keeps_nearTranslate (a0 a1 a2) (s) : Keeps s (nearTranslate a0 a1 a2 s).2 := by
  fun_induction nearTranslate a0 a1 a2 s <;> grind [Keeps.refl, Keeps.trans, keeps_mk, Keeps.foldl, Keeps.foldlSnd, keeps_translateRange]

theorem keeps_nearRead (a0 a1) (s) : Keeps s (nearRead a0 a1 s).2 := by
  unfold nearRead
  refine Keeps.foldlSnd _ _ (_, s) (fun r x => ?_)
  grind [Keeps.refl, Keeps.trans, keeps_mk, Keeps.foldl, Keeps.foldlSnd, keeps_rawRead]

theorem keeps_nearWrite (a0 a1 a2) (s) : Keeps s (nearWrite a0 a1 a2 s).2 := by
  unfold nearWrite
  exact Keeps.foldlSnd2 _ _ (_, _, s) (fun r x => keeps_rawWrite ..)

theorem keeps_nearPages (a0 a1 a2) (s) : Keeps s (nearPages a0 a1 a2 s).2 := by
  fun_induction nearPages a0 a1 a2 s <;> grind [Keeps.refl, Keeps.trans, keeps_mk, Keeps.foldl, Keeps.foldlSnd, keeps_translateRange]

theorem keeps_nearReads (a0) (s) : Keeps s (nearReads a0 s).2 := by
  fun_induction nearReads a0 s <;> grind [Keeps.refl, Keeps.trans, keeps_mk, Keeps.foldl, Keeps.foldlSnd, keeps_nearRead]

theorem keeps_nearChunkDone (a0 a1 a2 a3) (s) : Keeps s (nearChunkDone a0 a1 a2 a3 s) := by
  unfold nearChunkDone
  grind [Keeps.refl, Keeps.trans, keeps_mk, Keeps.foldl, Keeps.foldlSnd, keeps_updTask, keeps_nearEnd]

theorem keeps_nearMove (a0 a1 a2 a3) (s) : Keeps s (nearMove a0 a1 a2 a3 s) := by
  unfold nearMove
  dsimp only
  generalize hv : nearTranslate _ _ _ _ = v
  have h1 : Keeps s v.2 := hv ▸ keeps_nearTranslate ..
  split
  · exact Keeps.trans h1 (keeps_nearRefuse ..)
  · exact Keeps.trans h1 (keeps_nearFail ..)
  generalize hw : nearReads _ _ = w
  have h2 : Keeps s w.2 := hw ▸ Keeps.trans h1 (keeps_nearReads ..)
  split
  · exact Keeps.trans h2 (keeps_nearFail ..)
  split
  · rename_i va e u hx
    have h3 : Keeps s u := by grind [Keeps.trans, keeps_nearReads]
    exact h3.trans (keeps_nearFail ..)
  rename_i old u hx
  have h3 : Keeps s u := by grind [Keeps.trans, keeps_nearReads]
  generalize hy : List.foldl _ _ _ = y
  have h4 : Keeps s y.2.2 := by
    rw [← hy]
    refine Keeps.trans ?_ (Keeps.foldlSnd2 _ _ (_, _, _) (fun r x => ?_))
    · exact h3.trans ⟨rfl, List.suffix_refl _, Nat.le_add_right _ _, rfl, fun _ h => h, fun _ _ => le_refl _, fun h => h⟩
    · exact keeps_nearWrite ..
  split
  · exact Keeps.trans h4 (keeps_nearChunkDone ..)
  · exact Keeps.trans h4 (keeps_nearFails ..)

theorem keeps_nearApply (d) (a : List (Nat × VRes) × Flags × State) (p) : Keeps a.2.2 (nearApply d a p).2.2 := by
  unfold nearApply
  generalize hv : nearRead _ _ _ = v
  have h1 : Keeps a.2.2 v.2 := hv ▸ keeps_nearRead ..
  split
  · exact Keeps.trans h1 (keeps_nearWrite ..)
  · exact h1

theorem keeps_nearScatter (a0 a1 a2 a3) (s) : Keeps s (nearScatter a0 a1 a2 a3 s) := by
  unfold nearScatter
  dsimp only
  generalize hv : nearTranslate _ _ _ _ = v
  have h1 : Keeps s v.2 := hv ▸ keeps_nearTranslate ..
  split
  · exact Keeps.trans h1 (keeps_nearRefuse ..)
  · exact Keeps.trans h1 (keeps_nearFail ..)
  generalize hw : nearReads _ _ = w
  have h2 : Keeps s w.2 := hw ▸ Keeps.trans h1 (keeps_nearReads ..)
  split
  · exact Keeps.trans h2 (keeps_nearFail ..)
  generalize hx : nearTranslate _ _ _ _ = x
  have h3 : Keeps s x.2 := hx ▸ Keeps.trans h2 ((keeps_nextFree _).trans (keeps_nearTranslate ..))
  split
  · exact Keeps.trans h3 (keeps_nearRefuse ..)
  · exact Keeps.trans h3 (keeps_nearFail ..)
  generalize hy : List.foldl (nearApply _) _ _ = y
  have h4 : Keeps s y.2.2 := by
    rw [← hy]
    exact Keeps.trans h3 (Keeps.foldlSnd2 _ _ (_, _, _) (fun r x => keeps_nearApply ..))
  split
  · exact Keeps.trans h4 (keeps_nearFails ..)
  · exact Keeps.trans h4 (keeps_nearChunkDone ..)

theorem keeps_nearStart (a0 a1) (s) : Keeps s (nearStart a0 a1 s) := by
  unfold nearStart
  split
  · exact Keeps.refl s
  refine Keeps.ite (Keeps.refl s) ?_
  dsimp only
  refine Keeps.ite (keeps_nearRefuse ..) ?_
  generalize hv : vread _ _ _ _ _ _ = v
  have h1 : Keeps s v.2 := hv ▸ keeps_vread ..
  split
  · split
    · exact (Keeps.trans h1 (keeps_updTask ..)).trans (keeps_nearRefuse ..)
    generalize hw : translate _ _ _ _ _ = w
    have h2 : Keeps s w.2 := hw ▸ Keeps.trans h1 (keeps_translate ..)
    split
    · have h3 (f) := Keeps.trans h2 (keeps_updTask a0 a1 f _)
      refine Keeps.ite (h3 _) (Keeps.ite (((h3 _).trans (keeps_updTask ..)).trans (keeps_nearFail ..))
        (Keeps.ite (((h3 _).trans (keeps_updTask ..)).trans (keeps_nearEnd ..)) (Keeps.ite ?_ ((h3 _).trans (keeps_updTask ..)))))
      generalize hx : nearPages _ _ _ _ = x
      have h4 : Keeps s x.2 := hx ▸ (h3 _).trans (keeps_nearPages ..)
      split
      · exact Keeps.trans h4 (keeps_nearFail ..)
      · exact (Keeps.trans h4 (Keeps.foldl _ _ _ (fun _ _ => keeps_flushOut ..))).trans (keeps_updTask ..)
    · exact Keeps.trans h2 (keeps_nearFail ..)
  · exact Keeps.trans h1 (keeps_nearFail ..)

theorem keeps_nearChunk (a0 a1) (s) : Keeps s (nearChunk a0 a1 s) := by
  unfold nearChunk
  grind [Keeps.refl, Keeps.trans, keeps_mk, Keeps.foldl, Keeps.foldlSnd, keeps_tagPass, keeps_updTask, keeps_nearScatter, keeps_nearMove]

theorem keeps_endUnit (a0 a1 a2) (s) : Keeps s (endUnit a0 a1 a2 s) := by
  unfold endUnit
  split <;> grind [Keeps.refl, Keeps.trans, keeps_mk, Keeps.foldl, Keeps.foldlSnd, keeps_finishXfer, keeps_cancelTags, keeps_putNearRecord, keeps_putCollRecord, keeps_setColl]

theorem keeps_abortTask (a0 a1) (s) : Keeps s (abortTask a0 a1 s) := by
  unfold abortTask
  grind [Keeps.refl, Keeps.trans, keeps_mk, Keeps.foldl, Keeps.foldlSnd, keeps_stopCore, keeps_settle, keeps_makeFinal, keeps_endUnit]

theorem keeps_execNearTaskStart (a0 a1) (s) : Keeps s (nextOr s (execNearTaskStart a0 a1 s)) := by
  unfold execNearTaskStart
  grind [Keeps.refl, Keeps.trans, keeps_mk, Keeps.foldl, Keeps.foldlSnd, keeps_nearStart, nextOr]

theorem keeps_execNearChunkComplete (a0 a1) (s) : Keeps s (nextOr s (execNearChunkComplete a0 a1 s)) := by
  unfold execNearChunkComplete
  grind [Keeps.refl, Keeps.trans, keeps_mk, Keeps.foldl, Keeps.foldlSnd, keeps_nearChunk, nextOr]

end Sys2Proof.Machine
end

