-- ==== Sys2Proof/Laws/KeepsFabric.lean ====
section
/-! SUPPORT. Every operation of Sys2Proof/Machine/Fabric.lean keeps what `Keeps` says. -/

namespace Sys2Proof.Machine

theorem keeps_portEvt (a0 a1) (s) : Keeps s (portEvt a0 a1 s) := by
  unfold portEvt
  grind [Keeps.refl, Keeps.trans, keeps_mk, Keeps.foldl, Keeps.foldlSnd, keeps_fset]

theorem keeps_traceLink (a0 a1) (s) : Keeps s (traceLink a0 a1 s) := by
  unfold traceLink
  grind [Keeps.refl, Keeps.trans, keeps_mk, Keeps.foldl, Keeps.foldlSnd, keeps_trace]

theorem keeps_heldReg (a0) (s) : Keeps s (heldReg a0 s) := by
  unfold heldReg
  grind [Keeps.refl, Keeps.trans, keeps_mk, Keeps.foldl, Keeps.foldlSnd, keeps_fset]

theorem keeps_strikeData (a0 a1) (s) : Keeps s (strikeData a0 a1 s).2 := by
  unfold strikeData
  grind [Keeps.refl, Keeps.trans, keeps_mk, Keeps.foldl, Keeps.foldlSnd, keeps_nextFree]

theorem keeps_packetSend (a0 a1) (s) : Keeps s (packetSend a0 a1 s) := by
  unfold packetSend
  grind [Keeps.refl, Keeps.trans, keeps_mk, Keeps.foldl, Keeps.foldlSnd, keeps_strikeData, keeps_heldReg, keeps_sendOnLane, keeps_setPort]

theorem keeps_sendCtl (a0 a1) (s) : Keeps s (sendCtl a0 a1 s) := by
  unfold sendCtl
  grind [Keeps.refl, Keeps.trans, keeps_mk, Keeps.foldl, Keeps.foldlSnd, keeps_sendBlock]

theorem keeps_sendRxstat (a0 a1 a2) (s) : Keeps s (sendRxstat a0 a1 a2 s) := by
  unfold sendRxstat
  grind [Keeps.refl, Keeps.trans, keeps_mk, Keeps.foldl, Keeps.foldlSnd, keeps_sendCtl, keeps_updLane]

theorem keeps_sendAck (a0 a1) (s) : Keeps s (sendAck a0 a1 s) := by
  unfold sendAck
  grind [Keeps.refl, Keeps.trans, keeps_mk, Keeps.foldl, Keeps.foldlSnd, keeps_sendCtl, keeps_updLane]

theorem keeps_laneReports (a0 a1) (s) : Keeps s (laneReports a0 a1 s) := by
  unfold laneReports
  grind [Keeps.refl, Keeps.trans, keeps_mk, Keeps.foldl, Keeps.foldlSnd, keeps_sendAck, keeps_sendRxstat]

theorem keeps_laneConsume (a0 a1) (s) : Keeps s (laneConsume a0 a1 s) := by
  unfold laneConsume
  grind [Keeps.refl, Keeps.trans, keeps_mk, Keeps.foldl, Keeps.foldlSnd, keeps_updLane, keeps_sendAck]

theorem keeps_resend (a0 a1 a2) (s) : Keeps s (resend a0 a1 a2 s) := by
  unfold resend
  grind [Keeps.refl, Keeps.trans, keeps_mk, Keeps.foldl, Keeps.foldlSnd, keeps_sendOnLane]

theorem keeps_replay (a0 a1 a2) (s) : Keeps s (replay a0 a1 a2 s) := by
  unfold replay
  grind [Keeps.refl, Keeps.trans, keeps_mk, Keeps.foldl, Keeps.foldlSnd, keeps_resend, keeps_fcount]

theorem keeps_ackReceive (a0 a1 a2 a3) (s) : Keeps s (ackReceive a0 a1 a2 a3 s) := by
  unfold ackReceive
  grind [Keeps.refl, Keeps.trans, keeps_mk, Keeps.foldl, Keeps.foldlSnd, keeps_heldReg, keeps_updLane]

theorem keeps_rxstatReceive (a0 a1 a2 a3) (s) : Keeps s (rxstatReceive a0 a1 a2 a3 s) := by
  unfold rxstatReceive
  grind [Keeps.refl, Keeps.trans, keeps_mk, Keeps.foldl, Keeps.foldlSnd, keeps_updLane, keeps_replay]

theorem keeps_replayTimeout (a0 a1) (s) : Keeps s (replayTimeout a0 a1 s) := by
  unfold replayTimeout
  grind [Keeps.refl, Keeps.trans, keeps_mk, Keeps.foldl, Keeps.foldlSnd, keeps_replay]

theorem keeps_newSession (a0) (s) : Keeps s (newSession a0 s) := by
  unfold newSession
  grind [Keeps.refl, Keeps.trans, keeps_mk, Keeps.foldl, Keeps.foldlSnd, keeps_fset, keeps_heldReg, keeps_updPort]

theorem keeps_portDrop (a0) (s) : Keeps s (portDrop a0 s) := by
  unfold portDrop
  grind [Keeps.refl, Keeps.trans, keeps_mk, Keeps.foldl, Keeps.foldlSnd, keeps_setPortState, keeps_regPut, keeps_updPort, keeps_fset, keeps_traceLink, keeps_occurs, keeps_portEvt]

theorem keeps_modMismatch (a0) (s) : Keeps s (modMismatch a0 s) := by
  unfold modMismatch
  grind [Keeps.refl, Keeps.trans, keeps_mk, Keeps.foldl, Keeps.foldlSnd, keeps_portDrop, keeps_occurs, keeps_portEvt]

theorem keeps_sendLink (a0 a1 a2) (s) : Keeps s (sendLink a0 a1 a2 s) := by
  unfold sendLink
  grind [Keeps.refl, Keeps.trans, keeps_mk, Keeps.foldl, Keeps.foldlSnd, keeps_sendLowest]

theorem keeps_sendHelloA (a0) (s) : Keeps s (sendHelloA a0 s) := by
  unfold sendHelloA
  grind [Keeps.refl, Keeps.trans, keeps_mk, Keeps.foldl, Keeps.foldlSnd, keeps_sendLink]

theorem keeps_sendHelloB (a0) (s) : Keeps s (sendHelloB a0 s) := by
  unfold sendHelloB
  grind [Keeps.refl, Keeps.trans, keeps_mk, Keeps.foldl, Keeps.foldlSnd, keeps_sendLink]

theorem keeps_portTrain (a0) (s) : Keeps s (portTrain a0 s) := by
  unfold portTrain
  grind [Keeps.refl, Keeps.trans, keeps_mk, Keeps.foldl, Keeps.foldlSnd, keeps_sendHelloB, keeps_sendHelloA, keeps_setPortState, keeps_updPort]

theorem keeps_retrainAttempt (a0) (s) : Keeps s (retrainAttempt a0 s) := by
  unfold retrainAttempt
  grind [Keeps.refl, Keeps.trans, keeps_mk, Keeps.foldl, Keeps.foldlSnd, keeps_portTrain]

theorem keeps_setActive (a0 a1) (s) : Keeps s (setActive a0 a1 s) := by
  unfold setActive
  grind [Keeps.refl, Keeps.trans, keeps_mk, Keeps.foldl, Keeps.foldlSnd, keeps_updPort, keeps_fset]

theorem keeps_setHalf (a0 a1) (s) : Keeps s (setHalf a0 a1 s) := by
  unfold setHalf
  grind [Keeps.refl, Keeps.trans, keeps_mk, Keeps.foldl, Keeps.foldlSnd, keeps_fset, keeps_occurs, keeps_portEvt]

theorem keeps_askChange (a0 a1 a2 a3) (s) : Keeps s (askChange a0 a1 a2 a3 s) := by
  unfold askChange
  grind [Keeps.refl, Keeps.trans, keeps_mk, Keeps.foldl, Keeps.foldlSnd, keeps_updPort, keeps_nextFree, keeps_sendLink]

theorem keeps_askStripe (a0) (s) : Keeps s (askStripe a0 s) := by
  unfold askStripe
  grind [Keeps.refl, Keeps.trans, keeps_mk, Keeps.foldl, Keeps.foldlSnd, keeps_askChange]

theorem keeps_portUp (a0) (s) : Keeps s (portUp a0 s) := by
  unfold portUp
  grind [Keeps.refl, Keeps.trans, keeps_mk, Keeps.foldl, Keeps.foldlSnd, keeps_portEvt, keeps_setPortState, keeps_updPort, keeps_resend, keeps_sendLink, keeps_askStripe, keeps_setActive, keeps_traceLink]

theorem keeps_helloAReceive (a0 a1 a2 a3 a4 a5) (s) : Keeps s (helloAReceive a0 a1 a2 a3 a4 a5 s) := by
  unfold helloAReceive
  grind [Keeps.refl, Keeps.trans, keeps_mk, Keeps.foldl, Keeps.foldlSnd, keeps_modMismatch, keeps_fset, keeps_setHalf, keeps_sendHelloB, keeps_sendHelloA, keeps_updPort]

theorem keeps_helloBReceive (a0 a1 a2) (s) : Keeps s (helloBReceive a0 a1 a2 s) := by
  unfold helloBReceive
  grind [Keeps.refl, Keeps.trans, keeps_mk, Keeps.foldl, Keeps.foldlSnd, keeps_portUp, keeps_traceLink, keeps_occurs, keeps_portEvt, keeps_setPortState, keeps_nextFree, keeps_fset, keeps_updPort]

theorem keeps_setSpare (a0 a1 a2) (s) : Keeps s (setSpare a0 a1 a2 s) := by
  unfold setSpare
  grind [Keeps.refl, Keeps.trans, keeps_mk, Keeps.foldl, Keeps.foldlSnd, keeps_fset]

theorem keeps_makeChange (a0 a1) (s) : Keeps s (makeChange a0 a1 s) := by
  unfold makeChange
  grind [Keeps.refl, Keeps.trans, keeps_mk, Keeps.foldl, Keeps.foldlSnd, keeps_traceLink, keeps_setHalf, keeps_setActive, keeps_setSpare, keeps_occurs, keeps_fset]

theorem keeps_agree (a0 a1) (s) : Keeps s (agree a0 a1 s) := by
  unfold agree
  grind [Keeps.refl, Keeps.trans, keeps_mk, Keeps.foldl, Keeps.foldlSnd, keeps_updPort]

theorem keeps_modeReceive (a0 a1 a2) (s) : Keeps s (modeReceive a0 a1 a2 s) := by
  unfold modeReceive
  grind [Keeps.refl, Keeps.trans, keeps_mk, Keeps.foldl, Keeps.foldlSnd, keeps_agree, keeps_sendLink]

theorem keeps_substReceive (a0 a1 a2 a3) (s) : Keeps s (substReceive a0 a1 a2 a3 s) := by
  unfold substReceive
  grind [Keeps.refl, Keeps.trans, keeps_mk, Keeps.foldl, Keeps.foldlSnd, keeps_updPort, keeps_agree, keeps_sendLink]

theorem keeps_stripeReceive (a0 a1 a2) (s) : Keeps s (stripeReceive a0 a1 a2 s) := by
  unfold stripeReceive
  grind [Keeps.refl, Keeps.trans, keeps_mk, Keeps.foldl, Keeps.foldlSnd, keeps_agree, keeps_sendLink, keeps_askChange]

theorem keeps_alignReceive (a0 a1 a2) (s) : Keeps s (alignReceive a0 a1 a2 s) := by
  unfold alignReceive
  grind [Keeps.refl, Keeps.trans, keeps_mk, Keeps.foldl, Keeps.foldlSnd, keeps_updPort, keeps_makeChange]

theorem keeps_startSubst (a0 a1) (s) : Keeps s ((startSubst a0 a1 s).getD s) := by
  unfold startSubst
  grind [Keeps.refl, Keeps.trans, keeps_mk, Keeps.foldl, Keeps.foldlSnd, keeps_askChange]

theorem keeps_linkDown (a0 a1) (s) : Keeps s (linkDown a0 a1 s) := by
  unfold linkDown
  dsimp only
  refine Keeps.ite (Keeps.refl s) ?_
  cases a1 with
  | allLock => exact Keeps.ite (keeps_portDrop ..) (Keeps.refl s)
  | oneLock w =>
    refine Keeps.ite ?_ (Keeps.refl s)
    have h := keeps_startSubst a0 w s
    cases hx : startSubst a0 w s with
    | none => exact keeps_portDrop ..
    | some t => simpa [hx] using h
  | modulation => exact keeps_modMismatch ..
  | replays => exact keeps_portDrop ..
  | laserLost => exact keeps_portDrop ..
  | siteLost => exact keeps_portDrop ..

theorem keeps_ratioExceeded (a0 a1) (s) : Keeps s (ratioExceeded a0 a1 s) := by
  unfold ratioExceeded
  grind [Keeps.refl, Keeps.trans, keeps_mk, Keeps.foldl, Keeps.foldlSnd, keeps_startSubst]

theorem keeps_testReceive (a0 a1) (s) : Keeps s (testReceive a0 a1 s) := by
  unfold testReceive
  grind [Keeps.refl, Keeps.trans, keeps_mk, Keeps.foldl, Keeps.foldlSnd, keeps_updPort, keeps_sendLink, keeps_fset, keeps_setPortState, keeps_portTrain]

theorem keeps_linkRepeat (a0) (s) : Keeps s (linkRepeat a0 s) := by
  unfold linkRepeat
  grind [Keeps.refl, Keeps.trans, keeps_mk, Keeps.foldl, Keeps.foldlSnd, keeps_sendHelloB, keeps_sendHelloA, keeps_sendLink]

theorem keeps_timeSend (a0) (s) : Keeps s (timeSend a0 s) := by
  unfold timeSend
  grind [Keeps.refl, Keeps.trans, keeps_mk, Keeps.foldl, Keeps.foldlSnd, keeps_sendLowest, keeps_updPort]

theorem keeps_timeReceive (a0 a1) (s) : Keeps s (timeReceive a0 a1 s) := by
  unfold timeReceive
  grind [Keeps.refl, Keeps.trans, keeps_mk, Keeps.foldl, Keeps.foldlSnd, keeps_updPort]

theorem keeps_blockLock (a0 a1 a2) (s) : Keeps s (blockLock a0 a1 a2 s) := by
  unfold blockLock
  grind [Keeps.refl, Keeps.trans, keeps_mk, Keeps.foldl, Keeps.foldlSnd, keeps_updPort]

theorem keeps_execFabricPacketSend (a0 a1) (s) : Keeps s (nextOr s (execFabricPacketSend a0 a1 s)) := by
  unfold execFabricPacketSend
  grind [Keeps.refl, Keeps.trans, keeps_mk, Keeps.foldl, Keeps.foldlSnd, keeps_packetSend, nextOr]

theorem keeps_execAck (a0 a1 a2 a3) (s) : Keeps s (nextOr s (execAck a0 a1 a2 a3 s)) := by
  unfold execAck
  grind [Keeps.refl, Keeps.trans, keeps_mk, Keeps.foldl, Keeps.foldlSnd, keeps_ackReceive, nextOr]

theorem keeps_execRxstat (a0 a1 a2 a3) (s) : Keeps s (nextOr s (execRxstat a0 a1 a2 a3 s)) := by
  unfold execRxstat
  grind [Keeps.refl, Keeps.trans, keeps_mk, Keeps.foldl, Keeps.foldlSnd, keeps_rxstatReceive, nextOr]

theorem keeps_execAlign (a0 a1 a2 a3) (s) : Keeps s (nextOr s (execAlign a0 a1 a2 a3 s)) := by
  unfold execAlign
  grind [Keeps.refl, Keeps.trans, keeps_mk, Keeps.foldl, Keeps.foldlSnd, keeps_alignReceive, nextOr]

theorem keeps_execFabricReplayTimeout (a0 a1) (s) : Keeps s (nextOr s (execFabricReplayTimeout a0 a1 s)) := by
  unfold execFabricReplayTimeout
  grind [Keeps.refl, Keeps.trans, keeps_mk, Keeps.foldl, Keeps.foldlSnd, keeps_replayTimeout, nextOr]

theorem keeps_execLinkDown (a0 a1) (s) : Keeps s (nextOr s (execLinkDown a0 a1 s)) := by
  unfold execLinkDown
  grind [Keeps.refl, Keeps.trans, keeps_mk, Keeps.foldl, Keeps.foldlSnd, keeps_linkDown, nextOr]

theorem keeps_execFabricRetrainAttempt (a0) (s) : Keeps s (nextOr s (execFabricRetrainAttempt a0 s)) := by
  unfold execFabricRetrainAttempt
  grind [Keeps.refl, Keeps.trans, keeps_mk, Keeps.foldl, Keeps.foldlSnd, keeps_retrainAttempt, nextOr]

theorem keeps_execHelloA (a0 a1 a2 a3 a4 a5) (s) : Keeps s (nextOr s (execHelloA a0 a1 a2 a3 a4 a5 s)) := by
  unfold execHelloA
  grind [Keeps.refl, Keeps.trans, keeps_mk, Keeps.foldl, Keeps.foldlSnd, keeps_helloAReceive, nextOr]

theorem keeps_execHelloB (a0 a1 a2) (s) : Keeps s (nextOr s (execHelloB a0 a1 a2 s)) := by
  unfold execHelloB
  grind [Keeps.refl, Keeps.trans, keeps_mk, Keeps.foldl, Keeps.foldlSnd, keeps_helloBReceive, nextOr]

theorem keeps_execMode (a0 a1 a2) (s) : Keeps s (nextOr s (execMode a0 a1 a2 s)) := by
  unfold execMode
  grind [Keeps.refl, Keeps.trans, keeps_mk, Keeps.foldl, Keeps.foldlSnd, keeps_modeReceive, nextOr]

theorem keeps_execSubst (a0 a1 a2 a3) (s) : Keeps s (nextOr s (execSubst a0 a1 a2 a3 s)) := by
  unfold execSubst
  grind [Keeps.refl, Keeps.trans, keeps_mk, Keeps.foldl, Keeps.foldlSnd, keeps_substReceive, nextOr]

theorem keeps_execStripe (a0 a1 a2) (s) : Keeps s (nextOr s (execStripe a0 a1 a2 s)) := by
  unfold execStripe
  grind [Keeps.refl, Keeps.trans, keeps_mk, Keeps.foldl, Keeps.foldlSnd, keeps_stripeReceive, nextOr]

theorem keeps_execMon (a0 a1 a2) (s) : Keeps s (nextOr s (execMon a0 a1 a2 s)) := by
  unfold execMon
  grind [Keeps.refl, Keeps.trans, keeps_mk, Keeps.foldl, Keeps.foldlSnd, keeps_updPort, nextOr]

theorem keeps_execTest (a0 a1) (s) : Keeps s (nextOr s (execTest a0 a1 s)) := by
  unfold execTest
  grind [Keeps.refl, Keeps.trans, keeps_mk, Keeps.foldl, Keeps.foldlSnd, keeps_testReceive, nextOr]

theorem keeps_execLinkExchangeRepeat (a0) (s) : Keeps s (nextOr s (execLinkExchangeRepeat a0 s)) := by
  unfold execLinkExchangeRepeat
  grind [Keeps.refl, Keeps.trans, keeps_mk, Keeps.foldl, Keeps.foldlSnd, keeps_linkRepeat, nextOr]

theorem keeps_execTime (a0 a1) (s) : Keeps s (nextOr s (execTime a0 a1 s)) := by
  unfold execTime
  grind [Keeps.refl, Keeps.trans, keeps_mk, Keeps.foldl, Keeps.foldlSnd, keeps_timeReceive, nextOr]

theorem keeps_execTimeBlockSend (a0) (s) : Keeps s (nextOr s (execTimeBlockSend a0 s)) := by
  unfold execTimeBlockSend
  grind [Keeps.refl, Keeps.trans, keeps_mk, Keeps.foldl, Keeps.foldlSnd, keeps_timeSend, nextOr]

theorem keeps_execStreamErrorRatioExceeded (a0 a1) (s) : Keeps s (nextOr s (execStreamErrorRatioExceeded a0 a1 s)) := by
  unfold execStreamErrorRatioExceeded
  grind [Keeps.refl, Keeps.trans, keeps_mk, Keeps.foldl, Keeps.foldlSnd, keeps_ratioExceeded, nextOr]

theorem keeps_execBlockLockLoss (a0 a1) (s) : Keeps s (nextOr s (execBlockLockLoss a0 a1 s)) := by
  unfold execBlockLockLoss
  grind [Keeps.refl, Keeps.trans, keeps_mk, Keeps.foldl, Keeps.foldlSnd, keeps_blockLock, nextOr]

theorem keeps_execBlockLock (a0 a1) (s) : Keeps s (nextOr s (execBlockLock a0 a1 s)) := by
  unfold execBlockLock
  grind [Keeps.refl, Keeps.trans, keeps_mk, Keeps.foldl, Keeps.foldlSnd, keeps_blockLock, nextOr]

end Sys2Proof.Machine
end

