-- ==== Sys2Proof/Laws/KeepsMelhal.lean ====
section
/-! SUPPORT. Every operation of Sys2Proof/Machine/Melhal.lean keeps what `Keeps` says. -/

namespace Sys2Proof.Machine

theorem keeps_setQp (a0 a1) (s) : Keeps s (setQp a0 a1 s) := by
  unfold setQp
  grind [Keeps.refl, Keeps.trans, keeps_mk, Keeps.foldl, Keeps.foldlSnd]

theorem keeps_qpError (a0) (s) : Keeps s (qpError a0 s) := by
  unfold qpError
  grind [Keeps.refl, Keeps.trans, keeps_mk, Keeps.foldl, Keeps.foldlSnd, keeps_signalVector, keeps_setQp]

theorem keeps_qpMake (a0 a1 a2 a3 a4 a5) (s) : Keeps s (qpMake a0 a1 a2 a3 a4 a5 s) := by
  unfold qpMake
  grind [Keeps.refl, Keeps.trans, keeps_mk, Keeps.foldl, Keeps.foldlSnd, keeps_setQp]

theorem keeps_qpDrop (a0) (s) : Keeps s (qpDrop a0 s) := by
  unfold qpDrop
  grind [Keeps.refl, Keeps.trans, keeps_mk, Keeps.foldl, Keeps.foldlSnd, keeps_setQp]

theorem keeps_pathLostRec (a0 a1 a2) (s) : Keeps s (pathLostRec a0 a1 a2 s) := by
  unfold pathLostRec
  grind [Keeps.refl, Keeps.trans, keeps_mk, Keeps.foldl, Keeps.foldlSnd, keeps_faultRec]

theorem keeps_routeOut (a0 a1) (s) : Keeps s (routeOut a0 a1 s) := by
  unfold routeOut
  grind [Keeps.refl, Keeps.trans, keeps_mk, Keeps.foldl, Keeps.foldlSnd, keeps_enqueuePkt, keeps_pathLostRec]

theorem keeps_respond (a0 a1 a2) (s) : Keeps s (respond a0 a1 a2 s) := by
  unfold respond
  grind [Keeps.refl, Keeps.trans, keeps_mk, Keeps.foldl, Keeps.foldlSnd, keeps_updLane, keeps_laneConsume, keeps_routeOut]

theorem keeps_sendReply (a0 a1 a2 a3 a4 a5 a6 a7 a8 a9 a10) (s) : Keeps s (sendReply a0 a1 a2 a3 a4 a5 a6 a7 a8 a9 a10 s) := by
  unfold sendReply
  grind [Keeps.refl, Keeps.trans, keeps_mk, Keeps.foldl, Keeps.foldlSnd, keeps_emit, keeps_setQp, keeps_signalVector, keeps_respond]

theorem keeps_answerWait (a0 a1 a2 a3 a4) (s) : Keeps s (answerWait a0 a1 a2 a3 a4 s) := by
  unfold answerWait
  grind [Keeps.refl, Keeps.trans, keeps_mk, Keeps.foldl, Keeps.foldlSnd, keeps_sendReply]

theorem keeps_answerAll (a0 a1 a2) (s) : Keeps s (answerAll a0 a1 a2 s) := by
  unfold answerAll
  grind [Keeps.refl, Keeps.trans, keeps_mk, Keeps.foldl, Keeps.foldlSnd, keeps_answerWait]

theorem keeps_acceptCmd (a0 a1 a2) (s) : Keeps s (acceptCmd a0 a1 a2 s) := by
  unfold acceptCmd
  grind [Keeps.refl, Keeps.trans, keeps_mk, Keeps.foldl, Keeps.foldlSnd, keeps_trace]

theorem keeps_refuseLast (a0) (s) : Keeps s (refuseLast a0 s) := by
  unfold refuseLast
  grind [Keeps.refl, Keeps.trans, keeps_mk, Keeps.foldl, Keeps.foldlSnd, keeps_sendReply]

theorem keeps_fetchCmd (a0 a1 a2) (s) : Keeps s (fetchCmd a0 a1 a2 s) := by
  unfold fetchCmd
  grind [Keeps.refl, Keeps.trans, keeps_mk, Keeps.foldl, Keeps.foldlSnd, keeps_qpError, keeps_acceptCmd, keeps_setQp, keeps_refuseLast]

theorem keeps_remoteReceive (a0 a1 a2 a3 a4 a5) (s) : Keeps s (remoteReceive a0 a1 a2 a3 a4 a5 s) := by
  unfold remoteReceive
  grind [Keeps.refl, Keeps.trans, keeps_mk, Keeps.foldl, Keeps.foldlSnd, keeps_acceptCmd, keeps_updLane, keeps_refuseLast]

theorem keeps_Ans_ok (a0 a1) (s) : Keeps s ((Ans.ok a0 a1 s).stateOr s) := by
  unfold Ans.ok
  grind [Keeps.refl, Keeps.trans, keeps_mk, Keeps.foldl, Keeps.foldlSnd, Ans.stateOr, Ans.ok, Ans.no]

theorem keeps_Ans_no (a0 a1) (s) : Keeps s ((Ans.no a0 a1 s).stateOr s) := by
  unfold Ans.no
  grind [Keeps.refl, Keeps.trans, keeps_mk, Keeps.foldl, Keeps.foldlSnd, Ans.stateOr, Ans.ok, Ans.no]

theorem keeps_runCmd (a0 a1 a2 a3 a4 a5) (s) (h : ∀ ps tn t, Keeps t ((a5 ps tn t).stateOr t)) :
    Keeps s (runCmd a0 a1 a2 a3 a4 a5 s) := by
  unfold runCmd
  split
  · exact Keeps.refl s
  dsimp only
  refine Keeps.ite (Keeps.refl s) ?_
  have h1 (x : List Inflight) : Keeps s { s with inflight := x } := keeps_mk ..
  split
  · exact (h1 _).trans (keeps_sendReply ..)
  · rename_i i _ _ _
    have h2 := h (paramsOf { a0 with entry := i.entry }) (actingOf { s with inflight := s.inflight.erase i } a0.path i.entry)
      { s with inflight := s.inflight.erase i }
    split
    · rename_i hx
      rw [hx] at h2
      exact ((h1 _).trans h2).trans (keeps_sendReply ..)
    · rename_i hx
      rw [hx] at h2
      exact ((h1 _).trans h2).trans (keeps_mk ..)
    · exact Keeps.refl s

theorem keeps_execCommandFetch (a0 a1 a2) (s) : Keeps s (nextOr s (execCommandFetch a0 a1 a2 s)) := by
  unfold execCommandFetch
  grind [Keeps.refl, Keeps.trans, keeps_mk, Keeps.foldl, Keeps.foldlSnd, keeps_fetchCmd, nextOr]

theorem keeps_execRemoteCommandReceive (a0 a1 a2 a3 a4 a5) (s) : Keeps s (nextOr s (execRemoteCommandReceive a0 a1 a2 a3 a4 a5 s)) := by
  unfold execRemoteCommandReceive
  grind [Keeps.refl, Keeps.trans, keeps_mk, Keeps.foldl, Keeps.foldlSnd, keeps_remoteReceive, nextOr]

end Sys2Proof.Machine
end

