-- ==== Sys2Proof/Laws/KeepsFabricRx.lean ====
section
/-! SUPPORT. Every operation of Sys2Proof/Machine/FabricRx.lean keeps what `Keeps` says. -/

namespace Sys2Proof.Machine

theorem keeps_memWriteM (a0 a1 a2 a3 a4) (s) : Keeps s (memWriteM a0 a1 a2 a3 a4 s).2 := by
  unfold memWriteM
  refine Keeps.foldlSnd _ _ (_, s) (fun r x => ?_)
  split
  · dsimp only
    split
    · exact Keeps.refl _
    · grind [keeps_sectorWrite]
  · exact Keeps.refl _

theorem keeps_vwriteM (a0 a1 a2 a3 a4 a5) (s) : Keeps s (vwriteM a0 a1 a2 a3 a4 a5 s).2 := by
  unfold vwriteM
  have h0 := keeps_tagPass (rqRidge a0) a0 a1 s
  split
  · exact Keeps.refl s
  · rename_i v hv
    rw [hv] at h0
    have h := Keeps.trans h0 (keeps_translateRange a0 a1 a2 a3.length a5 v)
    split
    · rename_i hx
      simpa [hx] using h
    · rename_i hx
      rw [hx] at h
      refine Keeps.trans h (Keeps.foldlSnd _ _ (_, _) (fun r x => ?_))
      split
      · dsimp only
        grind [keeps_memWriteM]
      · exact Keeps.refl _

theorem keeps_memoryFail (a0 a1 a2 a3 a4) (s) : Keeps s (memoryFail a0 a1 a2 a3 a4 s) := by
  unfold memoryFail
  grind [Keeps.refl, Keeps.trans, keeps_mk, Keeps.foldl, Keeps.foldlSnd, keeps_emit, keeps_recordFail]

theorem keeps_badAddress (a0 a1 a2 a3) (s) : Keeps s (badAddress a0 a1 a2 a3 s) := by
  unfold badAddress
  grind [Keeps.refl, Keeps.trans, keeps_mk, Keeps.foldl, Keeps.foldlSnd, keeps_emit, keeps_faultRec]

theorem keeps_memoryRead (a0 a1 a2 a3) (s) : Keeps s (memoryRead a0 a1 a2 a3 s) := by
  unfold memoryRead
  grind [Keeps.refl, Keeps.trans, keeps_mk, Keeps.foldl, Keeps.foldlSnd, keeps_badAddress, keeps_memRead, keeps_emit, keeps_memoryFail]

theorem keeps_memoryWrite (a0 a1 a2 a3 a4) (s) : Keeps s (memoryWrite a0 a1 a2 a3 a4 s) := by
  unfold memoryWrite
  grind [Keeps.refl, Keeps.trans, keeps_mk, Keeps.foldl, Keeps.foldlSnd, keeps_badAddress, keeps_memWriteM, keeps_memoryFail]

theorem keeps_servedFail (a0 a1 a2 a3) (s) : Keeps s (servedFail a0 a1 a2 a3 s).state := by
  unfold servedFail
  grind [Keeps.refl, Keeps.trans, keeps_mk, Keeps.foldl, Keeps.foldlSnd, keeps_recordFail, Served.state]

theorem keeps_serveMem (a0 a1) (s) : Keeps s (serveMem a0 a1 s).state := by
  unfold serveMem
  grind [Keeps.refl, Keeps.trans, keeps_mk, Keeps.foldl, Keeps.foldlSnd, keeps_faultRec, keeps_vread, keeps_servedFail, keeps_vwriteM, Served.state]

theorem keeps_serveMsg (a0) (s) : Keeps s (serveMsg a0 s).state := by
  unfold serveMsg
  grind [Keeps.refl, Keeps.trans, keeps_mk, Keeps.foldl, Keeps.foldlSnd, keeps_takeNotice, keeps_collReceive, Served.state]

theorem keeps_msgDone (a0 a1) (s) : Keeps s (msgDone a0 a1 s) := by
  unfold msgDone
  grind [Keeps.refl, Keeps.trans, keeps_mk, Keeps.foldl, Keeps.foldlSnd, keeps_setColl, keeps_collEnd, keeps_faultRec]

theorem keeps_takeResponse (a0 a1) (s) : Keeps s (takeResponse a0 a1 s) := by
  unfold takeResponse
  grind [Keeps.refl, Keeps.trans, keeps_mk, Keeps.foldl, Keeps.foldlSnd, keeps_answerWait, keeps_freeTag, keeps_updPort, keeps_msgDone, keeps_transactionResponse]

theorem keeps_forward (a0 a1 a2) (s) : Keeps s ((forward a0 a1 a2 s).getD s) := by
  unfold forward
  grind [Keeps.refl, Keeps.trans, keeps_mk, Keeps.foldl, Keeps.foldlSnd, keeps_occurs, keeps_portEvt, keeps_pathLostRec, keeps_respond, keeps_laneConsume, keeps_enqueuePkt]

theorem keeps_laneStep (a0 a1) (s) : Keeps s ((laneStep a0 a1 s).getD s) := by
  unfold laneStep
  grind [Keeps.refl, Keeps.trans, keeps_mk, Keeps.foldl, Keeps.foldlSnd, keeps_forward, keeps_laneConsume, keeps_takeResponse, keeps_serveMsg, keeps_serveMem, keeps_respond, Served.state]

theorem keeps_laneDrain (a0 a1 a2) (s) : Keeps s (laneDrain a0 a1 a2 s) := by
  fun_induction laneDrain a0 a1 a2 s <;> grind [Keeps.refl, Keeps.trans, keeps_mk, Keeps.foldl, Keeps.foldlSnd, keeps_laneStep]

theorem keeps_answerDup (a0 a1 a2) (s) : Keeps s (answerDup a0 a1 a2 s) := by
  unfold answerDup
  grind [Keeps.refl, Keeps.trans, keeps_mk, Keeps.foldl, Keeps.foldlSnd, keeps_fcount, keeps_serveMem, keeps_routeOut, Served.state]

theorem keeps_rejectPkt (a0 a1) (s) : Keeps s (rejectPkt a0 a1 s) := by
  unfold rejectPkt
  grind [Keeps.refl, Keeps.trans, keeps_mk, Keeps.foldl, Keeps.foldlSnd, keeps_sendRxstat, keeps_updLane]

theorem keeps_thaw (a0) (s) : Keeps s (thaw a0 s) := by
  unfold thaw
  grind [Keeps.refl, Keeps.trans, keeps_mk, Keeps.foldl, Keeps.foldlSnd, keeps_fset]

theorem keeps_packetReceive (a0 a1 a2) (s) : Keeps s (packetReceive a0 a1 a2 s) := by
  unfold packetReceive
  have h1 := keeps_thaw a0 s
  generalize thaw a0 s = u at h1 ⊢
  dsimp only
  refine Keeps.ite h1 ?_
  split
  · exact (h1.trans (keeps_fcount ..)).trans (keeps_rejectPkt ..)
  · exact Keeps.ite ((h1.trans (keeps_updLane ..)).trans (keeps_laneDrain ..)) (Keeps.ite
      (Keeps.ite (h1.trans (keeps_answerDup ..)) h1) (Keeps.ite h1 (h1.trans (keeps_rejectPkt ..))))

theorem keeps_ackTimer (a0 a1) (s) : Keeps s (ackTimer a0 a1 s) := by
  unfold ackTimer
  grind [Keeps.refl, Keeps.trans, keeps_mk, Keeps.foldl, Keeps.foldlSnd, keeps_laneDrain, keeps_laneReports]

theorem keeps_execFabricPacketReceive (a0 a1 a2) (s) : Keeps s (nextOr s (execFabricPacketReceive a0 a1 a2 s)) := by
  unfold execFabricPacketReceive
  grind [Keeps.refl, Keeps.trans, keeps_mk, Keeps.foldl, Keeps.foldlSnd, keeps_packetReceive, nextOr]

theorem keeps_execFabricAckTimer (a0 a1) (s) : Keeps s (nextOr s (execFabricAckTimer a0 a1 s)) := by
  unfold execFabricAckTimer
  grind [Keeps.refl, Keeps.trans, keeps_mk, Keeps.foldl, Keeps.foldlSnd, keeps_ackTimer, nextOr]

theorem keeps_execMemoryReadRequest (a0 a1 a2 a3) (s) : Keeps s (nextOr s (execMemoryReadRequest a0 a1 a2 a3 s)) := by
  unfold execMemoryReadRequest
  grind [Keeps.refl, Keeps.trans, keeps_mk, Keeps.foldl, Keeps.foldlSnd, keeps_memoryRead, nextOr]

theorem keeps_execMemoryWriteRequest (a0 a1 a2 a3 a4) (s) : Keeps s (nextOr s (execMemoryWriteRequest a0 a1 a2 a3 a4 s)) := by
  unfold execMemoryWriteRequest
  grind [Keeps.refl, Keeps.trans, keeps_mk, Keeps.foldl, Keeps.foldlSnd, keeps_memoryWrite, nextOr]

end Sys2Proof.Machine
end

