-- ==== Sys2Proof/Laws/KeepsGraphs.lean ====
section
/-! SUPPORT. Every operation of Sys2Proof/Machine/Graphs.lean keeps what `Keeps` says. -/

namespace Sys2Proof.Machine

theorem keeps_memFail (a0 a1 a2 a3) (s) : Keeps s ((memFail a0 a1 a2 a3 s).stateOr s) := by
  unfold memFail
  grind [Keeps.refl, Keeps.trans, keeps_mk, Keeps.foldl, Keeps.foldlSnd, keeps_recordFail, keeps_Ans_no, Ans.stateOr, Ans.ok, Ans.no]

theorem keeps_flushPreempts (s) : Keeps s (flushPreempts s) := by
  unfold flushPreempts
  grind [Keeps.refl, Keeps.trans, keeps_mk, Keeps.foldl, Keeps.foldlSnd, keeps_answerWait]

theorem keeps_withTask (a0 a1 a2) (s) (h : ∀ a b c, Keeps s ((a2 a b c).stateOr s)) : Keeps s ((withTask a0 a1 s a2).stateOr s) := by
  unfold withTask
  grind [Keeps.refl, Keeps.trans, keeps_mk, Keeps.foldl, Keeps.foldlSnd, keeps_Ans_no, Ans.stateOr, Ans.ok, Ans.no]

theorem keeps_readImage (a0 a1 a2 a3) (s) (h : ∀ bs t, Keeps t ((a3 bs t).stateOr t)) :
    Keeps s ((readImage a0 a1 a2 s a3).stateOr s) := by
  unfold readImage
  have h1 := keeps_vread .admission a0 a1 a2 accRead s
  dsimp only
  split
  · rename_i bs t hx
    rw [hx] at h1
    have h2 := Keeps.trans h1 (h bs t)
    generalize a3 bs t = a at h2 ⊢
    cases a <;> first | exact h2 | exact Keeps.refl s
  · exact Keeps.refl s
  · rename_i hx
    rw [hx] at h1
    exact Keeps.trans h1 (keeps_recordFail ..)

theorem keeps_buildGraph (a0 a1 a2 a3) (s) : Keeps s ((buildGraph a0 a1 a2 a3 s).stateOr s) := by
  unfold buildGraph
  grind [Keeps.refl, Keeps.trans, keeps_mk, Keeps.foldl, Keeps.foldlSnd, keeps_ringReserve, keeps_settle, keeps_setGraph, Admit.stateOr]

theorem keeps_admitGraph (a0 a1) (s) : Keeps s ((admitGraph a0 a1 s).stateOr s) := by
  unfold admitGraph
  split
  · exact Keeps.refl s
  split
  · exact Keeps.refl s
  split
  · exact Keeps.refl s
  refine keeps_readImage _ _ _ _ _ (fun bs t => ?_)
  split
  · exact keeps_buildGraph ..
  · exact keeps_readImage _ _ _ _ _ (fun _ _ => keeps_buildGraph ..)

theorem keeps_graphSubmitBody (a0 a1) (s) : Keeps s ((graphSubmitBody a0 a1 s).stateOr s) := by
  unfold graphSubmitBody
  grind [Keeps.refl, Keeps.trans, keeps_mk, Keeps.foldl, Keeps.foldlSnd, keeps_Ans_no, keeps_readImage, keeps_admitGraph, keeps_Ans_ok, Ans.stateOr, Ans.ok, Ans.no, Admit.stateOr]

theorem keeps_graphSubmit (a0) (s) : Keeps s (graphSubmit a0 s) := by
  unfold graphSubmit
  grind [Keeps.refl, Keeps.trans, keeps_mk, Keeps.foldl, Keeps.foldlSnd, keeps_runCmd, keeps_graphSubmitBody, Ans.stateOr, Ans.ok, Ans.no]

theorem keeps_graphAdmission (a0) (s) : Keeps s (graphAdmission a0 s) := by
  unfold graphAdmission
  grind [Keeps.refl, Keeps.trans, keeps_mk, Keeps.foldl, Keeps.foldlSnd, keeps_admitGraph, keeps_answerWait, Admit.stateOr]

theorem keeps_graphStartBody (a0 a1) (s) : Keeps s ((graphStartBody a0 a1 s).stateOr s) := by
  unfold graphStartBody
  grind [Keeps.refl, Keeps.trans, keeps_mk, Keeps.foldl, Keeps.foldlSnd, keeps_Ans_no, keeps_Ans_ok, keeps_settle, keeps_setGraph, Ans.stateOr, Ans.ok, Ans.no]

theorem keeps_graphStart (a0) (s) : Keeps s (graphStart a0 s) := by
  unfold graphStart
  grind [Keeps.refl, Keeps.trans, keeps_mk, Keeps.foldl, Keeps.foldlSnd, keeps_runCmd, keeps_graphStartBody, Ans.stateOr, Ans.ok, Ans.no]

theorem keeps_forgetGraph (a0) (s) : Keeps s (forgetGraph a0 s) := by
  unfold forgetGraph
  grind [Keeps.refl, Keeps.trans, keeps_mk, Keeps.foldl, Keeps.foldlSnd]

theorem keeps_graphReleaseBody (a0 a1) (s) : Keeps s ((graphReleaseBody a0 a1 s).stateOr s) := by
  unfold graphReleaseBody
  grind [Keeps.refl, Keeps.trans, keeps_mk, Keeps.foldl, Keeps.foldlSnd, keeps_Ans_no, keeps_Ans_ok, keeps_forgetGraph, keeps_setGraph, Ans.stateOr, Ans.ok, Ans.no]

theorem keeps_graphRelease (a0) (s) : Keeps s (graphRelease a0 s) := by
  unfold graphRelease
  grind [Keeps.refl, Keeps.trans, keeps_mk, Keeps.foldl, Keeps.foldlSnd, keeps_runCmd, keeps_graphReleaseBody, Ans.stateOr, Ans.ok, Ans.no]

theorem keeps_abortBody (a0 a1) (s) : Keeps s ((abortBody a0 a1 s).stateOr s) := by
  unfold abortBody
  grind [Keeps.refl, Keeps.trans, keeps_mk, Keeps.foldl, Keeps.foldlSnd, keeps_Ans_ok, keeps_withTask, keeps_Ans_no, Ans.stateOr, Ans.ok, Ans.no]

theorem keeps_abortCmd (a0) (s) : Keeps s (abortCmd a0 s) := by
  unfold abortCmd
  grind [Keeps.refl, Keeps.trans, keeps_mk, Keeps.foldl, Keeps.foldlSnd, keeps_runCmd, keeps_abortBody, Ans.stateOr, Ans.ok, Ans.no]

theorem keeps_abortArrive (a0 a1) (s) : Keeps s (abortArrive a0 a1 s) := by
  unfold abortArrive
  grind [Keeps.refl, Keeps.trans, keeps_mk, Keeps.foldl, Keeps.foldlSnd, keeps_answerWait, keeps_abortTask, keeps_forgetGraph]

theorem keeps_preemptBody (a0 a1) (s) : Keeps s ((preemptBody a0 a1 s).stateOr s) := by
  unfold preemptBody
  grind [Keeps.refl, Keeps.trans, keeps_mk, Keeps.foldl, Keeps.foldlSnd, keeps_withTask, keeps_preemptTask, keeps_Ans_no, Ans.stateOr, Ans.ok, Ans.no]

theorem keeps_preemptCmd (a0) (s) : Keeps s (preemptCmd a0 s) := by
  unfold preemptCmd
  grind [Keeps.refl, Keeps.trans, keeps_mk, Keeps.foldl, Keeps.foldlSnd, keeps_runCmd, keeps_preemptBody, Ans.stateOr, Ans.ok, Ans.no]

theorem keeps_taskRestartBody (a0 a1) (s) : Keeps s ((taskRestartBody a0 a1 s).stateOr s) := by
  unfold taskRestartBody
  grind [Keeps.refl, Keeps.trans, keeps_mk, Keeps.foldl, Keeps.foldlSnd, keeps_withTask, keeps_Ans_ok, keeps_settle, keeps_updTask, keeps_Ans_no, Ans.stateOr, Ans.ok, Ans.no]

theorem keeps_taskRestart (a0) (s) : Keeps s (taskRestart a0 s) := by
  unfold taskRestart
  grind [Keeps.refl, Keeps.trans, keeps_mk, Keeps.foldl, Keeps.foldlSnd, keeps_runCmd, keeps_taskRestartBody, Ans.stateOr, Ans.ok, Ans.no]

theorem keeps_gateReleaseBody (a0 a1) (s) : Keeps s ((gateReleaseBody a0 a1 s).stateOr s) := by
  unfold gateReleaseBody
  grind [Keeps.refl, Keeps.trans, keeps_mk, Keeps.foldl, Keeps.foldlSnd, keeps_withTask, keeps_Ans_ok, keeps_settle, keeps_updTask, keeps_Ans_no, Ans.stateOr, Ans.ok, Ans.no]

theorem keeps_gateRelease (a0) (s) : Keeps s (gateRelease a0 s) := by
  unfold gateRelease
  grind [Keeps.refl, Keeps.trans, keeps_mk, Keeps.foldl, Keeps.foldlSnd, keeps_runCmd, keeps_gateReleaseBody, Ans.stateOr, Ans.ok, Ans.no]

theorem keeps_ringCreateBody (a0 a1) (s) : Keeps s ((ringCreateBody a0 a1 s).stateOr s) := by
  unfold ringCreateBody
  grind [Keeps.refl, Keeps.trans, keeps_mk, Keeps.foldl, Keeps.foldlSnd, keeps_Ans_no, keeps_Ans_ok, keeps_setRing, Ans.stateOr, Ans.ok, Ans.no]

theorem keeps_ringCreate (a0) (s) : Keeps s (ringCreate a0 s) := by
  unfold ringCreate
  grind [Keeps.refl, Keeps.trans, keeps_mk, Keeps.foldl, Keeps.foldlSnd, keeps_runCmd, keeps_ringCreateBody, Ans.stateOr, Ans.ok, Ans.no]

theorem keeps_ringDeleteBody (a0 a1) (s) : Keeps s ((ringDeleteBody a0 a1 s).stateOr s) := by
  unfold ringDeleteBody
  grind [Keeps.refl, Keeps.trans, keeps_mk, Keeps.foldl, Keeps.foldlSnd, keeps_Ans_no, keeps_Ans_ok, Ans.stateOr, Ans.ok, Ans.no]

theorem keeps_ringDelete (a0) (s) : Keeps s (ringDelete a0 s) := by
  unfold ringDelete
  grind [Keeps.refl, Keeps.trans, keeps_mk, Keeps.foldl, Keeps.foldlSnd, keeps_runCmd, keeps_ringDeleteBody, Ans.stateOr, Ans.ok, Ans.no]

theorem keeps_popRead (a0 a1 a2 a3 a4) (s) : Keeps s (popRead a0 a1 a2 a3 a4 s).2 := by
  fun_induction popRead a0 a1 a2 a3 a4 s <;> grind [Keeps.refl, Keeps.trans, keeps_mk, Keeps.foldl, Keeps.foldlSnd, keeps_vread]

theorem keeps_ringPopBody (a0 a1 a2) (s) : Keeps s ((ringPopBody a0 a1 a2 s).stateOr s) := by
  unfold ringPopBody
  dsimp only
  generalize (if leAt a1 0 1 = 0 then RingRef.completion (a2 * 16 + leAt a1 1 1) else if leAt a1 0 1 = 1 then .fault a2
    else .trace (leAt a1 1 1)) = r
  split
  · exact Keeps.refl s
  have h1 := keeps_ringReread r s
  split
  · exact h1
  rename_i x _
  generalize hn : min (x.tail - x.head) _ = n
  have h2 := h1.trans (keeps_popRead x.tenant r x n x.head (ringReread r s))
  split
  · rename_i bs t hx
    rw [hx] at h2
    have h3 := Keeps.trans h2 (keeps_vwrite .melhal x.tenant ((x.ctrl + 8) % 2 ^ 64) (leBytes 8 (x.head + n)) accWrite t)
    split
    · rename_i hy
      rw [hy] at h3
      exact Keeps.trans h3 (keeps_setRing ..)
    · rename_i e u _ hy
      rw [hy] at h3
      have h4 := keeps_memFail x.tenant ((x.ctrl + 8) % 2 ^ 64) accWrite e u
      generalize memFail x.tenant ((x.ctrl + 8) % 2 ^ 64) accWrite e u = a at h4 ⊢
      cases a <;> first | exact Keeps.trans h3 h4 | exact Keeps.refl s
  · rename_i e u _ hy
    rw [hy] at h2
    have h4 := keeps_memFail x.tenant x.base accRead e u
    generalize memFail x.tenant x.base accRead e u = a at h4 ⊢
    cases a <;> first | exact Keeps.trans h2 h4 | exact Keeps.refl s

theorem keeps_ringPop (a0) (s) : Keeps s (ringPop a0 s) := by
  unfold ringPop
  grind [Keeps.refl, Keeps.trans, keeps_mk, Keeps.foldl, Keeps.foldlSnd, keeps_runCmd, keeps_ringPopBody, Ans.stateOr, Ans.ok, Ans.no]

theorem keeps_execGraphSubmit (a0) (s) : Keeps s (nextOr s (execGraphSubmit a0 s)) := by
  unfold execGraphSubmit
  grind [Keeps.refl, Keeps.trans, keeps_mk, Keeps.foldl, Keeps.foldlSnd, keeps_graphSubmit, nextOr]

theorem keeps_execGraphAdmission (a0) (s) : Keeps s (nextOr s (execGraphAdmission a0 s)) := by
  unfold execGraphAdmission
  grind [Keeps.refl, Keeps.trans, keeps_mk, Keeps.foldl, Keeps.foldlSnd, keeps_graphAdmission, nextOr]

theorem keeps_execGraphStart (a0) (s) : Keeps s (nextOr s (execGraphStart a0 s)) := by
  unfold execGraphStart
  grind [Keeps.refl, Keeps.trans, keeps_mk, Keeps.foldl, Keeps.foldlSnd, keeps_graphStart, nextOr]

theorem keeps_execGraphRelease (a0) (s) : Keeps s (nextOr s (execGraphRelease a0 s)) := by
  unfold execGraphRelease
  grind [Keeps.refl, Keeps.trans, keeps_mk, Keeps.foldl, Keeps.foldlSnd, keeps_graphRelease, nextOr]

theorem keeps_execAbort (a0) (s) : Keeps s (nextOr s (execAbort a0 s)) := by
  unfold execAbort
  grind [Keeps.refl, Keeps.trans, keeps_mk, Keeps.foldl, Keeps.foldlSnd, keeps_abortCmd, nextOr]

theorem keeps_execPreempt (a0) (s) : Keeps s (nextOr s (execPreempt a0 s)) := by
  unfold execPreempt
  grind [Keeps.refl, Keeps.trans, keeps_mk, Keeps.foldl, Keeps.foldlSnd, keeps_preemptCmd, nextOr]

theorem keeps_execTaskRestart (a0) (s) : Keeps s (nextOr s (execTaskRestart a0 s)) := by
  unfold execTaskRestart
  grind [Keeps.refl, Keeps.trans, keeps_mk, Keeps.foldl, Keeps.foldlSnd, keeps_taskRestart, nextOr]

theorem keeps_execGateRelease (a0) (s) : Keeps s (nextOr s (execGateRelease a0 s)) := by
  unfold execGateRelease
  grind [Keeps.refl, Keeps.trans, keeps_mk, Keeps.foldl, Keeps.foldlSnd, keeps_gateRelease, nextOr]

theorem keeps_execRingCreate (a0) (s) : Keeps s (nextOr s (execRingCreate a0 s)) := by
  unfold execRingCreate
  grind [Keeps.refl, Keeps.trans, keeps_mk, Keeps.foldl, Keeps.foldlSnd, keeps_ringCreate, nextOr]

theorem keeps_execRingDelete (a0) (s) : Keeps s (nextOr s (execRingDelete a0 s)) := by
  unfold execRingDelete
  grind [Keeps.refl, Keeps.trans, keeps_mk, Keeps.foldl, Keeps.foldlSnd, keeps_ringDelete, nextOr]

theorem keeps_execRingPop (a0) (s) : Keeps s (nextOr s (execRingPop a0 s)) := by
  unfold execRingPop
  grind [Keeps.refl, Keeps.trans, keeps_mk, Keeps.foldl, Keeps.foldlSnd, keeps_ringPop, nextOr]

end Sys2Proof.Machine
end

