-- ==== Sys2Proof/Laws/KeepsBinding.lean ====
section
/-! SUPPORT. Every operation of Sys2Proof/Machine/Binding.lean keeps what `Keeps` says. -/

namespace Sys2Proof.Machine

theorem keeps_bindEvict (a0 a1) (s) : Keeps s (bindEvict a0 a1 s) := by
  unfold bindEvict
  grind [Keeps.refl, Keeps.trans, keeps_mk, Keeps.foldl, Keeps.foldlSnd, keeps_preemptTask, keeps_discardTask]

theorem keeps_bindBegin (a0 a1 a2) (s) : Keeps s (bindBegin a0 a1 a2 s) := by
  unfold bindBegin
  grind [Keeps.refl, Keeps.trans, keeps_mk, Keeps.foldl, Keeps.foldlSnd, keeps_updCore, keeps_noteHeld, keeps_fset, keeps_bindAdvance, keeps_bindEvict]

theorem keeps_setWait (a0 a1) (s) : Keeps s (setWait a0 a1 s) := by
  unfold setWait
  grind [Keeps.refl, Keeps.trans, keeps_mk, Keeps.foldl, Keeps.foldlSnd]

theorem keeps_bindKey (a0 a1) (s) : Keeps s (bindKey a0 a1 s).2 := by
  unfold bindKey
  grind [Keeps.refl, Keeps.trans, keeps_mk, Keeps.foldl, Keeps.foldlSnd, keeps_setWait, keeps_bindBegin]

theorem keeps_flushBinds (s) : Keeps s (flushBinds s) := by
  unfold flushBinds
  refine Keeps.foldl _ _ _ (fun u w0 => ?_)
  split
  · exact Keeps.refl u
  · rename_i w _
    have h1 : Keeps u (w.keys.foldl (fun (a : Wait × State) k => bindKey (k % 1024) a.1 a.2) (w, u)).2 :=
      Keeps.foldlSnd _ _ (w, u) (fun r x => keeps_bindKey ..)
    exact Keeps.ite (h1.trans (keeps_answerWait ..)) h1

theorem keeps_flushWaits (s) : Keeps s (flushWaits s) := by
  unfold flushWaits
  grind [Keeps.refl, Keeps.trans, keeps_mk, Keeps.foldl, Keeps.foldlSnd, keeps_flushPreempts, keeps_flushBinds]

theorem keeps_bindCoresBody (a0 a1) (s) : Keeps s ((bindCoresBody a0 a1 s).stateOr s) := by
  unfold bindCoresBody
  grind [Keeps.refl, Keeps.trans, keeps_mk, Keeps.foldl, Keeps.foldlSnd, keeps_Ans_no, keeps_Ans_ok, Ans.stateOr, Ans.ok, Ans.no]

theorem keeps_bindCores (a0) (s) : Keeps s (bindCores a0 s) := by
  unfold bindCores
  grind [Keeps.refl, Keeps.trans, keeps_mk, Keeps.foldl, Keeps.foldlSnd, keeps_flushBinds, keeps_runCmd, keeps_bindCoresBody, Ans.stateOr, Ans.ok, Ans.no]

theorem keeps_bindMemoryBody (a0 a1) (s) : Keeps s ((bindMemoryBody a0 a1 s).stateOr s) := by
  unfold bindMemoryBody
  grind [Keeps.refl, Keeps.trans, keeps_mk, Keeps.foldl, Keeps.foldlSnd, keeps_Ans_no, keeps_Ans_ok, keeps_setGran, Ans.stateOr, Ans.ok, Ans.no]

theorem keeps_bindMemory (a0) (s) : Keeps s (bindMemory a0 s) := by
  unfold bindMemory
  grind [Keeps.refl, Keeps.trans, keeps_mk, Keeps.foldl, Keeps.foldlSnd, keeps_runCmd, keeps_bindMemoryBody, Ans.stateOr, Ans.ok, Ans.no]

theorem keeps_dropTlbs (a0) (s) : Keeps s (dropTlbs a0 s) := by
  unfold dropTlbs
  grind [Keeps.refl, Keeps.trans, keeps_mk, Keeps.foldl, Keeps.foldlSnd]

theorem keeps_stackSleep (a0) (s) : Keeps s (stackSleep a0 s) := by
  unfold stackSleep
  grind [Keeps.refl, Keeps.trans, keeps_mk, Keeps.foldl, Keeps.foldlSnd, keeps_fset]

theorem keeps_granTake (a0 a1 a2) (s) : Keeps s (granTake a0 a1 a2 s) := by
  unfold granTake
  grind [Keeps.refl, Keeps.trans, keeps_mk, Keeps.foldl, Keeps.foldlSnd, keeps_fset, keeps_dropRange, keeps_stackSleep, keeps_evictRange]

theorem keeps_granCommit (a0 a1) (s) : Keeps s (granCommit a0 a1 s) := by
  unfold granCommit
  dsimp only
  split
  · exact Keeps.refl s
  refine Keeps.ite (Keeps.refl s) ?_
  have h2 (c) := (keeps_dropTlbs (granKey a0 a1) s).trans (keeps_granTake a0 a1 c _)
  split
  · exact ((h2 _).trans (keeps_setGran ..)).trans (keeps_bindRecord ..)
  · exact Keeps.ite ((((h2 _).trans (keeps_setGran ..)).trans (keeps_bindRecord ..)).trans (keeps_answerWait ..))
      ((((h2 _).trans (keeps_setGran ..)).trans (keeps_bindRecord ..)).trans (keeps_setWait ..))

theorem keeps_granChange (a0 a1) (s) : Keeps s (granChange a0 a1 s) := by
  unfold granChange
  grind [Keeps.refl, Keeps.trans, keeps_mk, Keeps.foldl, Keeps.foldlSnd, keeps_flushDeferred, keeps_granCommit]

theorem keeps_granCleared (a0 a1) (s) : Keeps s (granCleared a0 a1 s) := by
  unfold granCleared
  grind [Keeps.refl, Keeps.trans, keeps_mk, Keeps.foldl, Keeps.foldlSnd, keeps_zeroRange, keeps_fset, keeps_setGran]

theorem keeps_unhandPiece (a0 a1 a2) (s) : Keeps s (unhandPiece a0 a1 a2 s) := by
  unfold unhandPiece
  grind [Keeps.refl, Keeps.trans, keeps_mk, Keeps.foldl, Keeps.foldlSnd, keeps_freeTag, keeps_setXfer]

theorem keeps_unhandMsg (a0 a1 a2 a3 a4 a5 a6 a7) (s) : Keeps s (unhandMsg a0 a1 a2 a3 a4 a5 a6 a7 s) := by
  unfold unhandMsg
  grind [Keeps.refl, Keeps.trans, keeps_mk, Keeps.foldl, Keeps.foldlSnd, keeps_freeTag, keeps_setColl]

theorem keeps_unhandPort (a0) (s) : Keeps s (unhandPort a0 s) := by
  unfold unhandPort
  grind [Keeps.refl, Keeps.trans, keeps_mk, Keeps.foldl, Keeps.foldlSnd, keeps_updLane, keeps_freeTag, keeps_unhandPiece, keeps_parkXfer, keeps_unhandMsg]

theorem keeps_bindPort (a0 a1) (s) : Keeps s (bindPort a0 a1 s) := by
  unfold bindPort
  grind [Keeps.refl, Keeps.trans, keeps_mk, Keeps.foldl, Keeps.foldlSnd, keeps_testReceive, keeps_unhandPort, keeps_fset, keeps_askStripe, keeps_bindRecord]

theorem keeps_bindPortsBody (a0 a1) (s) : Keeps s ((bindPortsBody a0 a1 s).stateOr s) := by
  unfold bindPortsBody
  grind [Keeps.refl, Keeps.trans, keeps_mk, Keeps.foldl, Keeps.foldlSnd, keeps_Ans_no, keeps_bindPort, Ans.stateOr, Ans.ok, Ans.no]

theorem keeps_bindPorts (a0) (s) : Keeps s (bindPorts a0 s) := by
  unfold bindPorts
  grind [Keeps.refl, Keeps.trans, keeps_mk, Keeps.foldl, Keeps.foldlSnd, keeps_runCmd, keeps_bindPortsBody, Ans.stateOr, Ans.ok, Ans.no]

theorem keeps_setShareBody (a0 a1) (s) : Keeps s ((setShareBody a0 a1 s).stateOr s) := by
  unfold setShareBody
  grind [Keeps.refl, Keeps.trans, keeps_mk, Keeps.foldl, Keeps.foldlSnd, keeps_Ans_no, keeps_fset, keeps_Ans_ok, Ans.stateOr, Ans.ok, Ans.no]

theorem keeps_setShare (a0) (s) : Keeps s (setShare a0 s) := by
  unfold setShare
  grind [Keeps.refl, Keeps.trans, keeps_mk, Keeps.foldl, Keeps.foldlSnd, keeps_runCmd, keeps_setShareBody, Ans.stateOr, Ans.ok, Ans.no]

theorem keeps_schedPolicyBody (a0 a1) (s) : Keeps s ((schedPolicyBody a0 a1 s).stateOr s) := by
  unfold schedPolicyBody
  grind [Keeps.refl, Keeps.trans, keeps_mk, Keeps.foldl, Keeps.foldlSnd, keeps_Ans_ok, keeps_fset, Ans.stateOr, Ans.ok, Ans.no]

theorem keeps_schedPolicy (a0) (s) : Keeps s (schedPolicy a0 s) := by
  unfold schedPolicy
  grind [Keeps.refl, Keeps.trans, keeps_mk, Keeps.foldl, Keeps.foldlSnd, keeps_runCmd, keeps_schedPolicyBody, Ans.stateOr, Ans.ok, Ans.no]

theorem keeps_execBindCores (a0) (s) : Keeps s (nextOr s (execBindCores a0 s)) := by
  unfold execBindCores
  grind [Keeps.refl, Keeps.trans, keeps_mk, Keeps.foldl, Keeps.foldlSnd, keeps_flushWaits, keeps_bindCores, nextOr]

theorem keeps_execBindMemory (a0) (s) : Keeps s (nextOr s (execBindMemory a0 s)) := by
  unfold execBindMemory
  grind [Keeps.refl, Keeps.trans, keeps_mk, Keeps.foldl, Keeps.foldlSnd, keeps_bindMemory, nextOr]

theorem keeps_execBindPorts (a0) (s) : Keeps s (nextOr s (execBindPorts a0 s)) := by
  unfold execBindPorts
  grind [Keeps.refl, Keeps.trans, keeps_mk, Keeps.foldl, Keeps.foldlSnd, keeps_bindPorts, nextOr]

theorem keeps_execSetShare (a0) (s) : Keeps s (nextOr s (execSetShare a0 s)) := by
  unfold execSetShare
  grind [Keeps.refl, Keeps.trans, keeps_mk, Keeps.foldl, Keeps.foldlSnd, keeps_setShare, nextOr]

theorem keeps_execSchedPolicy (a0) (s) : Keeps s (nextOr s (execSchedPolicy a0 s)) := by
  unfold execSchedPolicy
  grind [Keeps.refl, Keeps.trans, keeps_mk, Keeps.foldl, Keeps.foldlSnd, keeps_schedPolicy, nextOr]

theorem keeps_execTaskDispatch (a0) (s) : Keeps s (nextOr s (execTaskDispatch a0 s)) := by
  unfold execTaskDispatch
  grind [Keeps.refl, Keeps.trans, keeps_mk, Keeps.foldl, Keeps.foldlSnd, keeps_dispatch, nextOr]

theorem keeps_execTaskResume (a0) (s) : Keeps s (nextOr s (execTaskResume a0 s)) := by
  unfold execTaskResume
  grind [Keeps.refl, Keeps.trans, keeps_mk, Keeps.foldl, Keeps.foldlSnd, keeps_dispatch, nextOr]

theorem keeps_execBackfillLimitExpiry (a0 a1) (s) : Keeps s (nextOr s (execBackfillLimitExpiry a0 a1 s)) := by
  unfold execBackfillLimitExpiry
  grind [Keeps.refl, Keeps.trans, keeps_mk, Keeps.foldl, Keeps.foldlSnd, keeps_backfillExpire, nextOr]

theorem keeps_execTaskCommit (a0 a1) (s) : Keeps s (nextOr s (execTaskCommit a0 a1 s)) := by
  unfold execTaskCommit
  grind [Keeps.refl, Keeps.trans, keeps_mk, Keeps.foldl, Keeps.foldlSnd, keeps_flushWaits, keeps_commitTask, nextOr]

theorem keeps_execAbortArrival (a0 a1) (s) : Keeps s (nextOr s (execAbortArrival a0 a1 s)) := by
  unfold execAbortArrival
  grind [Keeps.refl, Keeps.trans, keeps_mk, Keeps.foldl, Keeps.foldlSnd, keeps_flushWaits, keeps_abortArrive, nextOr]

theorem keeps_execPreemptionRequest (a0) (s) : Keeps s (nextOr s (execPreemptionRequest a0 s)) := by
  unfold execPreemptionRequest
  grind [Keeps.refl, Keeps.trans, keeps_mk, Keeps.foldl, Keeps.foldlSnd, keeps_preemptCore, nextOr]

theorem keeps_execContextSaveComplete (a0) (s) : Keeps s (nextOr s (execContextSaveComplete a0 s)) := by
  unfold execContextSaveComplete
  grind [Keeps.refl, Keeps.trans, keeps_mk, Keeps.foldl, Keeps.foldlSnd, keeps_flushWaits, keeps_saveCore, nextOr]

theorem keeps_execCoreSheafClearDone (a0) (s) : Keeps s (nextOr s (execCoreSheafClearDone a0 s)) := by
  unfold execCoreSheafClearDone
  grind [Keeps.refl, Keeps.trans, keeps_mk, Keeps.foldl, Keeps.foldlSnd, keeps_flushWaits, keeps_sheafCleared, nextOr]

theorem keeps_execGranuleBindCommit (a0 a1) (s) : Keeps s (nextOr s (execGranuleBindCommit a0 a1 s)) := by
  unfold execGranuleBindCommit
  grind [Keeps.refl, Keeps.trans, keeps_mk, Keeps.foldl, Keeps.foldlSnd, keeps_granChange, nextOr]

theorem keeps_execGranuleClearComplete (a0 a1) (s) : Keeps s (nextOr s (execGranuleClearComplete a0 a1 s)) := by
  unfold execGranuleClearComplete
  grind [Keeps.refl, Keeps.trans, keeps_mk, Keeps.foldl, Keeps.foldlSnd, keeps_granCleared, nextOr]

end Sys2Proof.Machine
end

