-- ==== Sys2Proof/Laws/KeepsHost.lean ====
section
/-! SUPPORT. Every operation of Sys2Proof/Machine/Host.lean keeps what `Keeps` says. -/

namespace Sys2Proof.Machine

theorem keeps_ringDrain (a0 a1) (s) : Keeps s (ringDrain a0 a1 s) := by
  unfold ringDrain
  dsimp only
  split
  · exact Keeps.refl s
  split
  · exact Keeps.refl s
  refine Keeps.ite (Keeps.refl s) ?_
  have h1 (r x y) := (keeps_setRing r x s).trans (keeps_ringWrite r y _)
  split
  · exact h1 ..
  · exact ((h1 ..).trans (keeps_updTask ..)).trans (keeps_forgetGraph ..)

theorem keeps_ringLacks (a0) (s) : Keeps s (ringLacks a0 s) := by
  unfold ringLacks
  grind [Keeps.refl, Keeps.trans, keeps_mk, Keeps.foldl, Keeps.foldlSnd, keeps_ringReread]

theorem keeps_faultDrain (a0) (s) : Keeps s (faultDrain a0 s) := by
  unfold faultDrain
  grind [Keeps.refl, Keeps.trans, keeps_mk, Keeps.foldl, Keeps.foldlSnd, keeps_ringWrite, keeps_occurs]

theorem keeps_traceDrain (a0) (s) : Keeps s (traceDrain a0 s) := by
  unfold traceDrain
  grind [Keeps.refl, Keeps.trans, keeps_mk, Keeps.foldl, Keeps.foldlSnd, keeps_ringWrite, keeps_occurs, keeps_trace]

theorem keeps_flushMsix (a0) (s) : Keeps s (flushMsix a0 s) := by
  unfold flushMsix
  grind [Keeps.refl, Keeps.trans, keeps_mk, Keeps.foldl, Keeps.foldlSnd, keeps_signalVector, keeps_setFn]

theorem keeps_moderationDone (a0) (s) : Keeps s (moderationDone a0 s) := by
  unfold moderationDone
  grind [Keeps.refl, Keeps.trans, keeps_mk, Keeps.foldl, Keeps.foldlSnd, keeps_signalVector, keeps_setRing, keeps_setQp]

theorem keeps_doorbellCmd (a0 a1 a2) (s) : Keeps s (doorbellCmd a0 a1 a2 s) := by
  unfold doorbellCmd
  split
  · exact Keeps.refl s
  · exact Keeps.ite ((keeps_setQp ..).trans (keeps_qpError ..)) (keeps_setQp ..)

theorem keeps_doorbellRpl (a0 a1 a2) (s) : Keeps s (doorbellRpl a0 a1 a2 s) := by
  unfold doorbellRpl
  grind [Keeps.refl, Keeps.trans, keeps_mk, Keeps.foldl, Keeps.foldlSnd, keeps_setQp]

theorem keeps_writeQpb (a0 a1 a2) (s) : Keeps s (writeQpb a0 a1 a2 s) := by
  unfold writeQpb
  grind [Keeps.refl, Keeps.trans, keeps_mk, Keeps.foldl, Keeps.foldlSnd, keeps_qpDrop, keeps_setFn, keeps_qpMake]

theorem keeps_flr (a0) (s) : Keeps s (flr a0 s) := by
  unfold flr
  grind [Keeps.refl, Keeps.trans, keeps_mk, Keeps.foldl, Keeps.foldlSnd, keeps_qpDrop, keeps_setFn]

theorem keeps_marginCommand (a0 a1) (s) : Keeps s (marginCommand a0 a1 s) := by
  unfold marginCommand
  grind [Keeps.refl, Keeps.trans, keeps_mk, Keeps.foldl, Keeps.foldlSnd, keeps_nextFree, keeps_setFn]

theorem keeps_cfgRequest (a0 a1 a2 a3) (s) : Keeps s (cfgRequest a0 a1 a2 a3 s) := by
  unfold cfgRequest
  grind [Keeps.refl, Keeps.trans, keeps_mk, Keeps.foldl, Keeps.foldlSnd, keeps_emit, keeps_marginCommand, keeps_flushMsix, keeps_setFn, keeps_nextFree]

theorem keeps_execRecordWrite (a0 a1) (s) : Keeps s (nextOr s (execRecordWrite a0 a1 s)) := by
  unfold execRecordWrite
  grind [Keeps.refl, Keeps.trans, keeps_mk, Keeps.foldl, Keeps.foldlSnd, keeps_ringDrain, nextOr]

theorem keeps_execRingHeadReread (a0 a1 a2) (s) : Keeps s (nextOr s (execRingHeadReread a0 a1 a2 s)) := by
  unfold execRingHeadReread
  grind [Keeps.refl, Keeps.trans, keeps_mk, Keeps.foldl, Keeps.foldlSnd, keeps_ringLacks, nextOr]

theorem keeps_execFaultRecordWrite (a0) (s) : Keeps s (nextOr s (execFaultRecordWrite a0 s)) := by
  unfold execFaultRecordWrite
  grind [Keeps.refl, Keeps.trans, keeps_mk, Keeps.foldl, Keeps.foldlSnd, keeps_faultDrain, nextOr]

theorem keeps_execTraceRecordWrite (a0) (s) : Keeps s (nextOr s (execTraceRecordWrite a0 s)) := by
  unfold execTraceRecordWrite
  grind [Keeps.refl, Keeps.trans, keeps_mk, Keeps.foldl, Keeps.foldlSnd, keeps_traceDrain, nextOr]

theorem keeps_execMsixModerationTimer (a0) (s) : Keeps s (nextOr s (execMsixModerationTimer a0 s)) := by
  unfold execMsixModerationTimer
  grind [Keeps.refl, Keeps.trans, keeps_mk, Keeps.foldl, Keeps.foldlSnd, keeps_moderationDone, nextOr]

theorem keeps_execHstDbCmd (a0 a1 a2) (s) : Keeps s (nextOr s (execHstDbCmd a0 a1 a2 s)) := by
  unfold execHstDbCmd
  grind [Keeps.refl, Keeps.trans, keeps_mk, Keeps.foldl, Keeps.foldlSnd, keeps_doorbellCmd, nextOr]

theorem keeps_execHstDbRpl (a0 a1 a2) (s) : Keeps s (nextOr s (execHstDbRpl a0 a1 a2 s)) := by
  unfold execHstDbRpl
  grind [Keeps.refl, Keeps.trans, keeps_mk, Keeps.foldl, Keeps.foldlSnd, keeps_doorbellRpl, nextOr]

theorem keeps_execQpEnable (a0 a1) (s) : Keeps s (nextOr s (execQpEnable a0 a1 s)) := by
  unfold execQpEnable
  grind [Keeps.refl, Keeps.trans, keeps_mk, Keeps.foldl, Keeps.foldlSnd, keeps_writeQpb, nextOr]

theorem keeps_execQpDisable (a0 a1) (s) : Keeps s (nextOr s (execQpDisable a0 a1 s)) := by
  unfold execQpDisable
  grind [Keeps.refl, Keeps.trans, keeps_mk, Keeps.foldl, Keeps.foldlSnd, keeps_writeQpb, nextOr]

theorem keeps_execFunctionLevelReset (a0) (s) : Keeps s (nextOr s (execFunctionLevelReset a0 s)) := by
  unfold execFunctionLevelReset
  grind [Keeps.refl, Keeps.trans, keeps_mk, Keeps.foldl, Keeps.foldlSnd, keeps_flr, nextOr]

theorem keeps_execPcieConfigurationRequest (a0 a1 a2 a3) (s) : Keeps s (nextOr s (execPcieConfigurationRequest a0 a1 a2 a3 s)) := by
  unfold execPcieConfigurationRequest
  grind [Keeps.refl, Keeps.trans, keeps_mk, Keeps.foldl, Keeps.foldlSnd, keeps_cfgRequest, nextOr]

end Sys2Proof.Machine
end

