-- ==== Sys2Proof/Laws/KeepsFence.lean ====
section
/-! SUPPORT. Every operation of Sys2Proof/Machine/Fence.lean keeps what `Keeps` says. -/

namespace Sys2Proof.Machine

theorem keeps_raiseRbc (s) : Keeps s (raiseRbc s) := by
  unfold raiseRbc
  dsimp only
  split
  · exact Keeps.refl s
  · refine ⟨rfl, List.suffix_refl _, le_refl _, rfl, fun _ h => h, fun k hk => ?_, fun h => h⟩
    have e : (List.range 4)[k]? = some k := List.getElem?_range hk
    simp only [List.getElem?_map, e, Option.map_some, Option.getD_some]
    split
    · exact le_max_left _ _
    · exact le_refl _

theorem keeps_topoNow (s) : Keeps s (topoNow s) := by
  unfold topoNow
  grind [Keeps.refl, Keeps.trans, keeps_mk, Keeps.foldl, Keeps.foldlSnd, keeps_topoSet, keeps_readUnseen, keeps_raiseRbc]

theorem keeps_collLost (a0) (s) : Keeps s (collLost a0 s) := by
  unfold collLost
  grind [Keeps.refl, Keeps.trans, keeps_mk, Keeps.foldl, Keeps.foldlSnd, keeps_notifyPeers, keeps_markFailed]

theorem keeps_holdTask (a0 a1 a2) (s) : Keeps s (holdTask a0 a1 a2 s) := by
  unfold holdTask
  grind [Keeps.refl, Keeps.trans, keeps_mk, Keeps.foldl, Keeps.foldlSnd, keeps_cancelTags, keeps_stopCore, keeps_updTask, keeps_collLost, keeps_traceTask, keeps_taskRecord, keeps_releaseCore]

theorem keeps_loseTasks (a0) (s) : Keeps s (loseTasks a0 s) := by
  unfold loseTasks
  grind [Keeps.refl, Keeps.trans, keeps_mk, Keeps.foldl, Keeps.foldlSnd, keeps_holdTask, keeps_updTask]

theorem keeps_loseRequest (a0 a1 a2) (s) : Keeps s (loseRequest a0 a1 a2 s) := by
  unfold loseRequest
  grind [Keeps.refl, Keeps.trans, keeps_mk, Keeps.foldl, Keeps.foldlSnd, keeps_flushDeferred, keeps_freeTag, keeps_xferFail]

theorem keeps_completeTags (a0) (s) : Keeps s (completeTags a0 s) := by
  unfold completeTags
  grind [Keeps.refl, Keeps.trans, keeps_mk, Keeps.foldl, Keeps.foldlSnd, keeps_loseRequest, keeps_flushDeferred, keeps_freeTag]

theorem keeps_siteLost (a0) (s) : Keeps s (siteLost a0 s) := by
  unfold siteLost
  grind [Keeps.refl, Keeps.trans, keeps_mk, Keeps.foldl, Keeps.foldlSnd, keeps_portDrop]

theorem keeps_bridgeEnd (a0 a1 a2) (s) : Keeps s (bridgeEnd a0 a1 a2 s) := by
  unfold bridgeEnd
  grind [Keeps.refl, Keeps.trans, keeps_mk, Keeps.foldl, Keeps.foldlSnd, keeps_occurs, keeps_regPut, keeps_fset, keeps_jxlSet, keeps_jStop]

theorem keeps_bridgeFence (a0 a1 a2) (s) : Keeps s (bridgeFence a0 a1 a2 s) := by
  unfold bridgeFence
  grind [Keeps.refl, Keeps.trans, keeps_mk, Keeps.foldl, Keeps.foldlSnd, keeps_bridgeEnd, keeps_loseRequest]

theorem keeps_bridgesDown (a0) (s) : Keeps s (bridgesDown a0 s) := by
  unfold bridgesDown
  grind [Keeps.refl, Keeps.trans, keeps_mk, Keeps.foldl, Keeps.foldlSnd, keeps_bridgeFence]

theorem keeps_stopCals (a0 a1 a2) (s) : Keeps s (stopCals a0 a1 a2 s) := by
  unfold stopCals
  grind [Keeps.refl, Keeps.trans, keeps_mk, Keeps.foldl, Keeps.foldlSnd, keeps_regPut, keeps_answerWait]

theorem keeps_fencedOne (a0) (s) : Keeps s (fencedOne s a0) := by
  unfold fencedOne
  grind [Keeps.refl, Keeps.trans, keeps_mk, Keeps.foldl, Keeps.foldlSnd, keeps_setDie, keeps_completeTags, keeps_stopCals, keeps_noteHeld, keeps_occurs, keeps_loseTasks, keeps_regPut, keeps_bridgesDown, keeps_siteLost]

theorem keeps_fenceDone (a0) (s) : Keeps s (fenceDone a0 s) := by
  unfold fenceDone
  grind [Keeps.refl, Keeps.trans, keeps_mk, Keeps.foldl, Keeps.foldlSnd, keeps_topoNow, keeps_fencedOne, keeps_answerAll, keeps_flushWaits]

theorem keeps_coreBack (a0) (s) : Keeps s (coreBack a0 s) := by
  unfold coreBack
  grind [Keeps.refl, Keeps.trans, keeps_mk, Keeps.foldl, Keeps.foldlSnd, keeps_setCore, keeps_fset, keeps_bindDone, keeps_updCore]

theorem keeps_unitRestart (a0) (s) : Keeps s (unitRestart a0 s) := by
  unfold unitRestart
  grind [Keeps.refl, Keeps.trans, keeps_mk, Keeps.foldl, Keeps.foldlSnd]

theorem keeps_unitReset (a0) (s) : Keeps s (unitReset a0 s) := by
  unfold unitReset
  grind [Keeps.refl, Keeps.trans, keeps_mk, Keeps.foldl, Keeps.foldlSnd, keeps_unitRestart]

theorem keeps_portFresh (a0 a1) (s) : Keeps s (portFresh a0 a1 s) := by
  unfold portFresh
  grind [Keeps.refl, Keeps.trans, keeps_mk, Keeps.foldl, Keeps.foldlSnd, keeps_jxlSet]

theorem keeps_rejoinOne (a0) (s) : Keeps s (rejoinOne a0 s) := by
  unfold rejoinOne
  grind [Keeps.refl, Keeps.trans, keeps_mk, Keeps.foldl, Keeps.foldlSnd, keeps_unitReset, keeps_setDie, keeps_coreBack, keeps_portFresh, keeps_fset, keeps_fsetBit, keeps_bindRecord, keeps_regPut, keeps_jxlSet]

theorem keeps_ridgeBack (a0) (s) : Keeps s (ridgeBack a0 s) := by
  unfold ridgeBack
  grind [Keeps.refl, Keeps.trans, keeps_mk, Keeps.foldl, Keeps.foldlSnd, keeps_setDie, keeps_rejoinOne, keeps_noteHeld, keeps_answerAll]

theorem keeps_computeBack (a0) (s) : Keeps s (computeBack a0 s) := by
  unfold computeBack
  grind [Keeps.refl, Keeps.trans, keeps_mk, Keeps.foldl, Keeps.foldlSnd, keeps_answerAll, keeps_setDie]

theorem keeps_linksSettle (s) : Keeps s (linksSettle s) := by
  unfold linksSettle
  grind [Keeps.refl, Keeps.trans, keeps_mk, Keeps.foldl, Keeps.foldlSnd, keeps_ridgeBack, keeps_topoNow, keeps_computeBack]

theorem keeps_dieFenceBody (a0 a1) (s) : Keeps s ((dieFenceBody a0 a1 s).stateOr s) := by
  unfold dieFenceBody
  grind [Keeps.refl, Keeps.trans, keeps_mk, Keeps.foldl, Keeps.foldlSnd, keeps_Ans_no, keeps_fenceStart, Ans.stateOr, Ans.ok, Ans.no]

theorem keeps_dieFence (a0) (s) : Keeps s (dieFence a0 s) := by
  unfold dieFence
  grind [Keeps.refl, Keeps.trans, keeps_mk, Keeps.foldl, Keeps.foldlSnd, keeps_runCmd, keeps_dieFenceBody, Ans.stateOr, Ans.ok, Ans.no]

theorem keeps_dieRejoinBody (a0 a1) (s) : Keeps s ((dieRejoinBody a0 a1 s).stateOr s) := by
  unfold dieRejoinBody
  grind [Keeps.refl, Keeps.trans, keeps_mk, Keeps.foldl, Keeps.foldlSnd, keeps_Ans_no, keeps_Ans_ok, keeps_topoNow, keeps_rejoinOne, Ans.stateOr, Ans.ok, Ans.no]

theorem keeps_dieRejoin (a0) (s) : Keeps s (dieRejoin a0 s) := by
  unfold dieRejoin
  grind [Keeps.refl, Keeps.trans, keeps_mk, Keeps.foldl, Keeps.foldlSnd, keeps_runCmd, keeps_dieRejoinBody, Ans.stateOr, Ans.ok, Ans.no]

theorem keeps_stackRejoinBody (a0 a1) (s) : Keeps s ((stackRejoinBody a0 a1 s).stateOr s) := by
  unfold stackRejoinBody
  dsimp only
  split
  · exact Keeps.refl s
  split
  · exact Keeps.refl s
  simp only [Ans.ok, Ans.stateOr]
  refine Keeps.trans ?_ (keeps_fset ..)
  refine Keeps.trans ?_ (keeps_fsetBit ..)
  generalize hu : List.foldl _ s _ = u
  have h1 : Keeps s u := hu ▸ Keeps.foldl _ _ s (fun _ _ => keeps_lineLost ..)
  exact h1.trans (.of_mem rfl rfl rfl rfl (fun h => Mp.wf_filter _ _ _ h))

theorem keeps_stackRejoin (a0) (s) : Keeps s (stackRejoin a0 s) := by
  unfold stackRejoin
  grind [Keeps.refl, Keeps.trans, keeps_mk, Keeps.foldl, Keeps.foldlSnd, keeps_runCmd, keeps_stackRejoinBody, Ans.stateOr, Ans.ok, Ans.no]

theorem keeps_execFenceTrigger (a0 a1) (s) : Keeps s (nextOr s (execFenceTrigger a0 a1 s)) := by
  unfold execFenceTrigger
  grind [Keeps.refl, Keeps.trans, keeps_mk, Keeps.foldl, Keeps.foldlSnd, keeps_fenceStart, nextOr]

theorem keeps_execFenceComplete (a0) (s) : Keeps s (nextOr s (execFenceComplete a0 s)) := by
  unfold execFenceComplete
  grind [Keeps.refl, Keeps.trans, keeps_mk, Keeps.foldl, Keeps.foldlSnd, keeps_fenceDone, nextOr]

theorem keeps_execDieFence (a0) (s) : Keeps s (nextOr s (execDieFence a0 s)) := by
  unfold execDieFence
  grind [Keeps.refl, Keeps.trans, keeps_mk, Keeps.foldl, Keeps.foldlSnd, keeps_dieFence, nextOr]

theorem keeps_execDieRejoin (a0) (s) : Keeps s (nextOr s (execDieRejoin a0 s)) := by
  unfold execDieRejoin
  grind [Keeps.refl, Keeps.trans, keeps_mk, Keeps.foldl, Keeps.foldlSnd, keeps_dieRejoin, nextOr]

theorem keeps_execStackRejoin (a0) (s) : Keeps s (nextOr s (execStackRejoin a0 s)) := by
  unfold execStackRejoin
  grind [Keeps.refl, Keeps.trans, keeps_mk, Keeps.foldl, Keeps.foldlSnd, keeps_stackRejoin, nextOr]

end Sys2Proof.Machine
end

