-- ==== Sys2Proof/Laws/KeepsLinks.lean ====
section
/-! SUPPORT. Every operation of Sys2Proof/Machine/Links.lean keeps what `Keeps` says. -/

namespace Sys2Proof.Machine

theorem keeps_updJ (a0 a1 a2) (s) : Keeps s (updJ a0 a1 a2 s) := by
  unfold updJ
  grind [Keeps.refl, Keeps.trans, keeps_mk, Keeps.foldl, Keeps.foldlSnd]

theorem keeps_emitBeat (a0 a1 a2 a3) (s) : Keeps s (emitBeat a0 a1 a2 a3 s) := by
  unfold emitBeat
  grind [Keeps.refl, Keeps.trans, keeps_mk, Keeps.foldl, Keeps.foldlSnd, keeps_emit]

theorem keeps_noteParity (a0 a1 a2 a3) (s) : Keeps s (noteParity a0 a1 a2 a3 s) := by
  unfold noteParity
  grind [Keeps.refl, Keeps.trans, keeps_mk, Keeps.foldl, Keeps.foldlSnd, keeps_updJ]

theorem keeps_sendBeat (a0 a1 a2 a3) (s) : Keeps s (sendBeat a0 a1 a2 a3 s) := by
  unfold sendBeat
  grind [Keeps.refl, Keeps.trans, keeps_mk, Keeps.foldl, Keeps.foldlSnd, keeps_emitBeat, keeps_updJ]

theorem keeps_sendPieces (a0 a1 a2 a3) (s) : Keeps s (sendPieces a0 a1 a2 a3 s) := by
  fun_induction sendPieces a0 a1 a2 a3 s <;> grind [Keeps.refl, Keeps.trans, keeps_mk, Keeps.foldl, Keeps.foldlSnd, keeps_sendBeat]

theorem keeps_jPump (a0 a1) (s) : Keeps s (jPump a0 a1 s) := by
  unfold jPump
  grind [Keeps.refl, Keeps.trans, keeps_mk, Keeps.foldl, Keeps.foldlSnd, keeps_sendPieces, keeps_updJ]

theorem keeps_jSend (a0 a1 a2 a3) (s) : Keeps s (jSend a0 a1 a2 a3 s) := by
  unfold jSend
  grind [Keeps.refl, Keeps.trans, keeps_mk, Keeps.foldl, Keeps.foldlSnd, keeps_jPump, keeps_updJ]

theorem keeps_jServe (a0 a1 a2) (s) (h : ∀ t, Keeps t (a2 t).2) : Keeps s (jServe a0 a1 s a2).2.2 := by
  unfold jServe
  grind [Keeps.refl, Keeps.trans, keeps_mk, Keeps.foldl, Keeps.foldlSnd, keeps_uncorrFault]

theorem keeps_stacksUp (a0) (s) : Keeps s (stacksUp a0 s) := by
  unfold stacksUp
  grind [Keeps.refl, Keeps.trans, keeps_mk, Keeps.foldl, Keeps.foldlSnd, keeps_fsetBit, keeps_fset]

theorem keeps_giveIndexes (a0 a1) (s) : Keeps s (giveIndexes a0 a1 s) := by
  unfold giveIndexes
  grind [Keeps.refl, Keeps.trans, keeps_mk, Keeps.foldl, Keeps.foldlSnd, keeps_fset]

theorem keeps_takeIdentity (a0 a1 a2) (s) : Keeps s (takeIdentity a0 a1 a2 s) := by
  unfold takeIdentity
  dsimp only
  refine Keeps.trans ?_ (keeps_linksSettle ..)
  refine Keeps.trans ?_ (Keeps.foldl _ _ _ (fun u p => Keeps.ite (keeps_jSend ..) (Keeps.refl u)))
  refine Keeps.trans ?_ (keeps_stacksUp ..)
  refine Keeps.trans ?_ (keeps_giveIndexes ..)
  refine Keeps.trans (?_ : Keeps s (if _ then _ else _)) (Keeps.of_eq rfl rfl rfl rfl rfl)
  have h : Keeps s (fset (rJXL_IDENT a0) fJXL_IDENT_SOURCE a2 (fset (rJXL_IDENT a0) fJXL_IDENT_ID a1 (fset (rJXL_IDENT a0) fJXL_IDENT_ROT a1 s))) :=
    ((keeps_fset ..).trans (keeps_fset ..)).trans (keeps_fset ..)
  exact Keeps.ite ((h.trans (keeps_fset ..)).trans (keeps_occurs ..)) h

theorem keeps_conflictDown (a0) (s) : Keeps s (conflictDown a0 s) := by
  unfold conflictDown
  grind [Keeps.refl, Keeps.trans, keeps_mk, Keeps.foldl, Keeps.foldlSnd, keeps_jxlSet, keeps_jStop, keeps_updJ]

theorem keeps_identReceive (a0 a1 a2) (s) : Keeps s (identReceive a0 a1 a2 s) := by
  unfold identReceive
  grind [Keeps.refl, Keeps.trans, keeps_mk, Keeps.foldl, Keeps.foldlSnd, keeps_takeIdentity, keeps_occurs, keeps_fset, keeps_giveIndexes, keeps_linksSettle, keeps_conflictDown]

theorem keeps_jAtomic (a0 a1 a2 a3) (s) : Keeps s (jAtomic a0 a1 a2 a3 s).2 := by
  unfold jAtomic
  grind [Keeps.refl, Keeps.trans, keeps_mk, Keeps.foldl, Keeps.foldlSnd, keeps_ownerRead, keeps_memWrite]

theorem keeps_jMsg (a0 a1 a2 a3 a4) (s) : Keeps s ((jMsg a0 a1 a2 a3 a4 s).getD s) := by
  unfold jMsg
  grind [Keeps.refl, Keeps.trans, keeps_mk, Keeps.foldl, Keeps.foldlSnd, keeps_enqueuePkt, keeps_takeNotice, keeps_collReceive]

theorem keeps_jAct (a0 a1 a2) (s) : Keeps s ((jAct a0 a1 a2 s).getD s) := by
  unfold jAct
  grind [Keeps.refl, Keeps.trans, keeps_mk, Keeps.foldl, Keeps.foldlSnd, keeps_jSend, keeps_identReceive, keeps_jServe, keeps_memRead, keeps_memWrite, keeps_memWriteM, keeps_jAtomic, keeps_transactionResponse, keeps_jMsg]

theorem keeps_jParse (a0 a1 a2) (s) : Keeps s (jParse a0 a1 a2 s) := by
  fun_induction jParse a0 a1 a2 s <;> grind [Keeps.refl, Keeps.trans, keeps_mk, Keeps.foldl, Keeps.foldlSnd, keeps_updJ]

theorem keeps_jTaken (a0 a1 a2) (s) : Keeps s (jTaken a0 a1 a2 s) := by
  unfold jTaken
  grind [Keeps.refl, Keeps.trans, keeps_mk, Keeps.foldl, Keeps.foldlSnd, keeps_updJ]

theorem keeps_jDrain (a0 a1 a2) (s) : Keeps s (jDrain a0 a1 a2 s) := by
  induction a2 generalizing s with
  | zero => exact Keeps.refl s
  | succ f ih =>
    unfold jDrain
    dsimp only
    split
    · exact Keeps.refl s
    · next r h =>
      obtain ⟨x, _, hx⟩ := List.exists_of_findSome?_eq_some h
      obtain ⟨t, ht, rfl⟩ := Option.map_eq_some_iff.1 hx
      have k := keeps_jAct a0 a1 x.2 s
      rw [ht] at k
      exact (k.trans (keeps_jTaken ..)).trans (ih _)

theorem keeps_retrain (a0 a1) (s) : Keeps s (retrain a0 a1 s) := by
  unfold retrain
  grind [Keeps.refl, Keeps.trans, keeps_mk, Keeps.foldl, Keeps.foldlSnd, keeps_occurs, keeps_fset, keeps_jxlSet, keeps_topoNow, keeps_updJ]

theorem keeps_jReplay (a0 a1) (s) : Keeps s (jReplay a0 a1 s) := by
  unfold jReplay
  grind [Keeps.refl, Keeps.trans, keeps_mk, Keeps.foldl, Keeps.foldlSnd, keeps_fcount, keeps_emitBeat, keeps_updJ]

theorem keeps_jAck (a0 a1 a2) (s) : Keeps s (jAck a0 a1 a2 s) := by
  unfold jAck
  grind [Keeps.refl, Keeps.trans, keeps_mk, Keeps.foldl, Keeps.foldlSnd, keeps_updJ]

theorem keeps_nakReceive (a0 a1 a2) (s) : Keeps s (nakReceive a0 a1 a2 s) := by
  unfold nakReceive
  grind [Keeps.refl, Keeps.trans, keeps_mk, Keeps.foldl, Keeps.foldlSnd, keeps_jReplay, keeps_jAck]

theorem keeps_beatCredits (a0 a1 a2) (s) : Keeps s (beatCredits a0 a1 a2 s) := by
  unfold beatCredits
  grind [Keeps.refl, Keeps.trans, keeps_mk, Keeps.foldl, Keeps.foldlSnd, keeps_updJ]

theorem keeps_beatAcks (a0 a1 a2) (s) : Keeps s (beatAcks a0 a1 a2 s) := by
  unfold beatAcks
  grind [Keeps.refl, Keeps.trans, keeps_mk, Keeps.foldl, Keeps.foldlSnd, keeps_jAck, keeps_nakReceive]

theorem keeps_beatData (a0 a1 a2) (s) : Keeps s (beatData a0 a1 a2 s) := by
  unfold beatData
  grind [Keeps.refl, Keeps.trans, keeps_mk, Keeps.foldl, Keeps.foldlSnd, keeps_updJ, keeps_jParse, keeps_jPump, keeps_jDrain, keeps_sendBeat]

theorem keeps_beatReceive (a0 a1 a2) (s) : Keeps s (beatReceive a0 a1 a2 s) := by
  unfold beatReceive
  dsimp only
  have h : Keeps s (a2.zipIdx.foldl (fun u f => noteParity a0 a1 (((jPort s a0 a1).map[f.2]?).getD f.2) (parityErrors f.1) u) s) :=
    Keeps.foldl _ _ _ (fun u f => keeps_noteParity ..)
  refine Keeps.ite (Keeps.refl s) (Keeps.ite (keeps_emitBeat ..) (Keeps.ite ?_ (Keeps.ite h (Keeps.ite (h.trans (keeps_fcount ..)) ?_))))
  · exact (((h.trans (keeps_updJ ..)).trans (keeps_beatCredits ..)).trans (keeps_beatAcks ..)).trans (keeps_beatData ..)
  · exact ((h.trans (keeps_fcount ..)).trans (keeps_updJ ..)).trans (keeps_sendBeat ..)

theorem keeps_jAckTimer (a0 a1) (s) : Keeps s (jAckTimer a0 a1 s) := by
  unfold jAckTimer
  grind [Keeps.refl, Keeps.trans, keeps_mk, Keeps.foldl, Keeps.foldlSnd, keeps_jPump, keeps_jDrain, keeps_sendBeat]

theorem keeps_jGiveUp (a0 a1 a2) (s) : Keeps s (jGiveUp a0 a1 a2 s) := by
  unfold jGiveUp
  grind [Keeps.refl, Keeps.trans, keeps_mk, Keeps.foldl, Keeps.foldlSnd, keeps_fenceStart, keeps_topoNow, keeps_bridgeFence, keeps_jxlSet, keeps_jStop]

theorem keeps_advertise (a0 a1) (s) : Keeps s (advertise a0 a1 s) := by
  unfold advertise
  grind [Keeps.refl, Keeps.trans, keeps_mk, Keeps.foldl, Keeps.foldlSnd, keeps_fset, keeps_jGiveUp, keeps_emitBeat, keeps_updJ]

theorem keeps_farStart (a0 a1 a2) (s) : Keeps s (farStart a0 a1 a2 s) := by
  unfold farStart
  grind [Keeps.refl, Keeps.trans, keeps_mk, Keeps.foldl, Keeps.foldlSnd, keeps_updJ]

theorem keeps_farMarker (a0 a1 a2) (s) : Keeps s (farMarker a0 a1 a2 s) := by
  unfold farMarker
  grind [Keeps.refl, Keeps.trans, keeps_mk, Keeps.foldl, Keeps.foldlSnd, keeps_emitBeat, keeps_fset]

theorem keeps_trainStart (a0 a1 a2) (s) : Keeps s (trainStart a0 a1 a2 s) := by
  unfold trainStart
  grind [Keeps.refl, Keeps.trans, keeps_mk, Keeps.foldl, Keeps.foldlSnd, keeps_farStart, keeps_updJ, keeps_jGiveUp, keeps_fset, keeps_jxlSet, keeps_occurs, keeps_advertise]

theorem keeps_jUp (a0 a1 a2 a3) (s) : Keeps s (jUp a0 a1 a2 a3 s) := by
  unfold jUp
  grind [Keeps.refl, Keeps.trans, keeps_mk, Keeps.foldl, Keeps.foldlSnd, keeps_fset, keeps_jxlSet, keeps_emitBeat, keeps_updJ, keeps_takeIdentity, keeps_jSend, keeps_linksSettle, keeps_jPump]

theorem keeps_markerReceive (a0 a1 a2) (s) : Keeps s (markerReceive a0 a1 a2 s) := by
  unfold markerReceive
  grind [Keeps.refl, Keeps.trans, keeps_mk, Keeps.foldl, Keeps.foldlSnd, keeps_farMarker, keeps_jUp, keeps_updJ, keeps_jGiveUp, keeps_emitBeat]

theorem keeps_strapTimeout (a0) (s) : Keeps s (strapTimeout a0 s) := by
  unfold strapTimeout
  grind [Keeps.refl, Keeps.trans, keeps_mk, Keeps.foldl, Keeps.foldlSnd, keeps_takeIdentity, keeps_occurs, keeps_fset]

theorem keeps_stolonReport (a0) (s) : Keeps s (stolonReport a0 s) := by
  unfold stolonReport
  grind [Keeps.refl, Keeps.trans, keeps_mk, Keeps.foldl, Keeps.foldlSnd, keeps_topoSet, keeps_fenceStart, keeps_occurs, keeps_fset]

theorem keeps_clockLoss (a0 a1) (s) : Keeps s (clockLoss a0 a1 s) := by
  unfold clockLoss
  grind [Keeps.refl, Keeps.trans, keeps_mk, Keeps.foldl, Keeps.foldlSnd, keeps_jGiveUp]

theorem keeps_execNak (a0 a1 a2) (s) : Keeps s (nextOr s (execNak a0 a1 a2 s)) := by
  unfold execNak
  grind [Keeps.refl, Keeps.trans, keeps_mk, Keeps.foldl, Keeps.foldlSnd, keeps_nakReceive, nextOr]

theorem keeps_execJxlReplayTimeout (a0 a1) (s) : Keeps s (nextOr s (execJxlReplayTimeout a0 a1 s)) := by
  unfold execJxlReplayTimeout
  grind [Keeps.refl, Keeps.trans, keeps_mk, Keeps.foldl, Keeps.foldlSnd, keeps_jReplay, nextOr]

theorem keeps_execJxlRetrain (a0 a1 a2) (s) : Keeps s (nextOr s (execJxlRetrain a0 a1 a2 s)) := by
  unfold execJxlRetrain
  grind [Keeps.refl, Keeps.trans, keeps_mk, Keeps.foldl, Keeps.foldlSnd, keeps_retrain, nextOr]

theorem keeps_execJxlTrainStart (a0 a1 a2) (s) : Keeps s (nextOr s (execJxlTrainStart a0 a1 a2 s)) := by
  unfold execJxlTrainStart
  grind [Keeps.refl, Keeps.trans, keeps_mk, Keeps.foldl, Keeps.foldlSnd, keeps_trainStart, nextOr]

theorem keeps_execJxlMarkerReceive (a0 a1 a2) (s) : Keeps s (nextOr s (execJxlMarkerReceive a0 a1 a2 s)) := by
  unfold execJxlMarkerReceive
  grind [Keeps.refl, Keeps.trans, keeps_mk, Keeps.foldl, Keeps.foldlSnd, keeps_markerReceive, nextOr]

theorem keeps_execIdent (a0 a1 a2) (s) : Keeps s (nextOr s (execIdent a0 a1 a2 s)) := by
  unfold execIdent
  grind [Keeps.refl, Keeps.trans, keeps_mk, Keeps.foldl, Keeps.foldlSnd, keeps_identReceive, nextOr]

theorem keeps_execStrapIdentityTimeout (a0) (s) : Keeps s (nextOr s (execStrapIdentityTimeout a0 s)) := by
  unfold execStrapIdentityTimeout
  grind [Keeps.refl, Keeps.trans, keeps_mk, Keeps.foldl, Keeps.foldlSnd, keeps_strapTimeout, nextOr]

theorem keeps_execStolonIdentityReport (a0) (s) : Keeps s (nextOr s (execStolonIdentityReport a0 s)) := by
  unfold execStolonIdentityReport
  grind [Keeps.refl, Keeps.trans, keeps_mk, Keeps.foldl, Keeps.foldlSnd, keeps_stolonReport, nextOr]

theorem keeps_execJxlClockLoss (a0 a1) (s) : Keeps s (nextOr s (execJxlClockLoss a0 a1 s)) := by
  unfold execJxlClockLoss
  grind [Keeps.refl, Keeps.trans, keeps_mk, Keeps.foldl, Keeps.foldlSnd, keeps_clockLoss, nextOr]

end Sys2Proof.Machine
end

