-- ==== Sys2Proof/Laws/KeepsPorger.lean ====
section
/-! SUPPORT. Every operation of Sys2Proof/Machine/Porger.lean keeps what `Keeps` says. -/

namespace Sys2Proof.Machine

theorem keeps_setLine (a0 a1 a2) (s) : Keeps s (setLine a0 a1 a2 s) := by
  unfold setLine
  grind [Keeps.refl, Keeps.trans, keeps_mk, Keeps.foldl, Keeps.foldlSnd, keeps_fset]

theorem keeps_setSpareState (a0 a1) (s) : Keeps s (setSpareState a0 a1 s) := by
  unfold setSpareState
  grind [Keeps.refl, Keeps.trans, keeps_mk, Keeps.foldl, Keeps.foldlSnd, keeps_fset]

theorem keeps_laserEvt (a0 a1) (s) : Keeps s (laserEvt a0 a1 s) := by
  unfold laserEvt
  grind [Keeps.refl, Keeps.trans, keeps_mk, Keeps.foldl, Keeps.foldlSnd, keeps_fset]

theorem keeps_sidebandDown (a0 a1) (s) : Keeps s (sidebandDown a0 a1 s) := by
  unfold sidebandDown
  grind [Keeps.refl, Keeps.trans, keeps_mk, Keeps.foldl, Keeps.foldlSnd, keeps_updPorger, keeps_fenceStart, keeps_occurs]

theorem keeps_onPorts (a0) (s) (h : ∀ a t, Keeps t (a0 a t)) : Keeps s (onPorts a0 s) := by
  unfold onPorts
  grind [Keeps.refl, Keeps.trans, keeps_mk, Keeps.foldl, Keeps.foldlSnd]

theorem keeps_answerLaser (a0 a1) (s) : Keeps s (answerLaser a0 a1 s) := by
  unfold answerLaser
  grind [Keeps.refl, Keeps.trans, keeps_mk, Keeps.foldl, Keeps.foldlSnd, keeps_answerAll]

theorem keeps_refuseEngine (a0) (s) : Keeps s (refuseEngine a0 s) := by
  unfold refuseEngine
  grind [Keeps.refl, Keeps.trans, keeps_mk, Keeps.foldl, Keeps.foldlSnd, keeps_fset, keeps_onPorts, keeps_setPortState, keeps_setLine, keeps_portDrop, keeps_answerLaser, keeps_occurs]

theorem keeps_moduleTrain (a0 a1 a2) (s) : Keeps s (moduleTrain a0 a1 a2 s) := by
  unfold moduleTrain
  grind [Keeps.refl, Keeps.trans, keeps_mk, Keeps.foldl, Keeps.foldlSnd, keeps_fset, keeps_updPorger, keeps_fsetBit]

theorem keeps_identAnswer (a0 a1 a2) (s) : Keeps s (identAnswer a0 a1 a2 s) := by
  unfold identAnswer
  grind [Keeps.refl, Keeps.trans, keeps_mk, Keeps.foldl, Keeps.foldlSnd, keeps_emit, keeps_refuseEngine, keeps_fset]

theorem keeps_paramAnswer (a0 a1) (s) : Keeps s (paramAnswer a0 a1 s) := by
  unfold paramAnswer
  grind [Keeps.refl, Keeps.trans, keeps_mk, Keeps.foldl, Keeps.foldlSnd, keeps_emit, keeps_refuseEngine, keeps_fset, keeps_updPorger, keeps_setSpareState, keeps_onPorts, keeps_setLine, keeps_raiseRbc, keeps_answerAll, keeps_setDie]

theorem keeps_statusPoll (a0 a1 a2) (s) : Keeps s (statusPoll a0 a1 a2 s) := by
  unfold statusPoll
  grind [Keeps.refl, Keeps.trans, keeps_mk, Keeps.foldl, Keeps.foldlSnd, keeps_emit, keeps_refuseEngine, keeps_updPorger]

theorem keeps_acquired (a0 a1 a2 a3) (s) : Keeps s (acquired a0 a1 a2 a3 s) := by
  unfold acquired
  grind [Keeps.refl, Keeps.trans, keeps_mk, Keeps.foldl, Keeps.foldlSnd, keeps_updPorger]

theorem keeps_lagged (a0 a1) (s) : Keeps s (lagged a0 a1 s).2 := by
  unfold lagged
  grind [Keeps.refl, Keeps.trans, keeps_mk, Keeps.foldl, Keeps.foldlSnd, keeps_nextFree]

theorem keeps_tempForward (a0 a1) (s) : Keeps s (tempForward a0 a1 s) := by
  unfold tempForward
  grind [Keeps.refl, Keeps.trans, keeps_mk, Keeps.foldl, Keeps.foldlSnd, keeps_emit, keeps_lagged, keeps_updPorger]

theorem keeps_blankSite (a0 a1) (s) : Keeps s (blankSite a0 a1 s) := by
  unfold blankSite
  grind [Keeps.refl, Keeps.trans, keeps_mk, Keeps.foldl, Keeps.foldlSnd, keeps_refuseEngine, keeps_answerLaser, keeps_updPorger, keeps_onPorts, keeps_setLine]

theorem keeps_unblankSite (a0) (s) : Keeps s (unblankSite a0 s) := by
  unfold unblankSite
  grind [Keeps.refl, Keeps.trans, keeps_mk, Keeps.foldl, Keeps.foldlSnd, keeps_emit, keeps_onPorts, keeps_setLine, keeps_updPorger]

theorem keeps_laserLost (a0) (s) : Keeps s (laserLost a0 s) := by
  unfold laserLost
  grind [Keeps.refl, Keeps.trans, keeps_mk, Keeps.foldl, Keeps.foldlSnd, keeps_updPorger, keeps_fset, keeps_laserEvt, keeps_occurs, keeps_onPorts, keeps_portDrop, keeps_setLine]

theorem keeps_startSpare (a0) (s) : Keeps s (startSpare a0 s) := by
  unfold startSpare
  grind [Keeps.refl, Keeps.trans, keeps_mk, Keeps.foldl, Keeps.foldlSnd, keeps_setSpareState]

theorem keeps_askSwitch (a0) (s) : Keeps s (askSwitch a0 s) := by
  unfold askSwitch
  grind [Keeps.refl, Keeps.trans, keeps_mk, Keeps.foldl, Keeps.foldlSnd, keeps_fset]

theorem keeps_laserSample (a0 a1) (s) : Keeps s (laserSample a0 a1 s) := by
  unfold laserSample
  grind [Keeps.refl, Keeps.trans, keeps_mk, Keeps.foldl, Keeps.foldlSnd, keeps_updPorger, keeps_occurs, keeps_laserEvt, keeps_startSpare, keeps_onPorts, keeps_setLine, keeps_laserLost]

theorem keeps_fadeNow (a0) (s) : Keeps s (fadeNow a0 s) := by
  unfold fadeNow
  grind [Keeps.refl, Keeps.trans, keeps_mk, Keeps.foldl, Keeps.foldlSnd, keeps_fset, keeps_occurs, keeps_laserEvt, keeps_updPorger, keeps_startSpare, keeps_askSwitch, keeps_laserLost]

theorem keeps_spareWarm (a0) (s) : Keeps s (spareWarm a0 s) := by
  unfold spareWarm
  grind [Keeps.refl, Keeps.trans, keeps_mk, Keeps.foldl, Keeps.foldlSnd, keeps_setSpareState]

theorem keeps_spareReady (a0 a1) (s) : Keeps s (spareReady a0 a1 s) := by
  unfold spareReady
  grind [Keeps.refl, Keeps.trans, keeps_mk, Keeps.foldl, Keeps.foldlSnd, keeps_fset, keeps_setSpareState, keeps_updPorger, keeps_askSwitch]

theorem keeps_fuseSpareBad (a0) (s) : Keeps s (fuseSpareBad a0 s) := by
  unfold fuseSpareBad
  (try dsimp only)
  repeat' first
    | exact Keeps.refl _
    | assumption
    | with_reducible refine Keeps.ite ?_ ?_
    | with_reducible refine Keeps.ite_state ?_ ?_
    | with_reducible refine Keeps.trans ?_ (Keeps.foldl _ _ _ (fun _ _ => ?_))
    | with_reducible refine Keeps.trans ?_ (keeps_mk ..)
    | split
    | grind [Keeps.refl, Keeps.trans, keeps_mk, Keeps.foldl, Keeps.foldlSnd]

theorem keeps_fuseSwitched (a0) (s) : Keeps s (fuseSwitched a0 s) := by
  unfold fuseSwitched
  (try dsimp only)
  repeat' first
    | exact Keeps.refl _
    | assumption
    | with_reducible refine Keeps.ite ?_ ?_
    | with_reducible refine Keeps.ite_state ?_ ?_
    | with_reducible refine Keeps.trans ?_ (Keeps.foldl _ _ _ (fun _ _ => ?_))
    | with_reducible refine Keeps.trans ?_ (keeps_mk ..)
    | split
    | grind [Keeps.refl, Keeps.trans, keeps_mk, Keeps.foldl, Keeps.foldlSnd]

theorem keeps_spareFail (a0) (s) : Keeps s (spareFail a0 s) := by
  unfold spareFail
  grind [Keeps.refl, Keeps.trans, keeps_mk, Keeps.foldl, Keeps.foldlSnd, keeps_occurs, keeps_laserEvt, keeps_setSpareState, keeps_answerLaser, keeps_fuseSpareBad, keeps_laserLost]

theorem keeps_switchGo (a0 a1) (s) : Keeps s (switchGo a0 a1 s) := by
  unfold switchGo
  grind [Keeps.refl, Keeps.trans, keeps_mk, Keeps.foldl, Keeps.foldlSnd, keeps_updPorger]

theorem keeps_switchTurn (a0) (s) : Keeps s (switchTurn a0 s) := by
  unfold switchTurn
  grind [Keeps.refl, Keeps.trans, keeps_mk, Keeps.foldl, Keeps.foldlSnd, keeps_fset, keeps_setSpareState, keeps_updPorger, keeps_laserEvt, keeps_fuseSwitched, keeps_occurs, keeps_onPorts, keeps_traceLink]

theorem keeps_switchResume (a0 a1) (s) : Keeps s (switchResume a0 a1 s) := by
  unfold switchResume
  grind [Keeps.refl, Keeps.trans, keeps_mk, Keeps.foldl, Keeps.foldlSnd, keeps_fset, keeps_updPorger, keeps_onPorts, keeps_setLine, keeps_replay, keeps_answerLaser]

theorem keeps_prgEvt (a0 a1 a2) (s) : Keeps s (prgEvt a0 a1 a2 s) := by
  unfold prgEvt
  grind [Keeps.refl, Keeps.trans, keeps_mk, Keeps.foldl, Keeps.foldlSnd, keeps_fset]

theorem keeps_slip (a0 a1 a2 a3) (s) : Keeps s (slip a0 a1 a2 a3 s) := by
  unfold slip
  grind [Keeps.refl, Keeps.trans, keeps_mk, Keeps.foldl, Keeps.foldlSnd, keeps_occurs, keeps_fcount, keeps_prgEvt, keeps_fset]

theorem keeps_relock (a0 a1 a2 a3 a4) (s) : Keeps s (relock a0 a1 a2 a3 a4 s) := by
  unfold relock
  grind [Keeps.refl, Keeps.trans, keeps_mk, Keeps.foldl, Keeps.foldlSnd, keeps_fset]

theorem keeps_ringFailed (a0 a1 a2 a3) (s) : Keeps s (ringFailed a0 a1 a2 a3 s) := by
  unfold ringFailed
  grind [Keeps.refl, Keeps.trans, keeps_mk, Keeps.foldl, Keeps.foldlSnd, keeps_occurs, keeps_prgEvt, keeps_fset, keeps_startSubst]

theorem keeps_wlBad (a0 a1 a2) (s) : Keeps s (wlBad a0 a1 a2 s) := by
  unfold wlBad
  grind [Keeps.refl, Keeps.trans, keeps_mk, Keeps.foldl, Keeps.foldlSnd, keeps_occurs, keeps_prgEvt, keeps_fset]

theorem keeps_losStart (a0 a1 a2) (s) : Keeps s (losStart a0 a1 a2 s) := by
  unfold losStart
  grind [Keeps.refl, Keeps.trans, keeps_mk, Keeps.foldl, Keeps.foldlSnd, keeps_occurs, keeps_prgEvt, keeps_fset, keeps_updPorger]

theorem keeps_losEnd (a0 a1 a2 a3) (s) : Keeps s (losEnd a0 a1 a2 a3 s) := by
  unfold losEnd
  grind [Keeps.refl, Keeps.trans, keeps_mk, Keeps.foldl, Keeps.foldlSnd, keeps_updPorger, keeps_nextFree, keeps_fset, keeps_acquired]

theorem keeps_los1ms (a0 a1 a2) (s) : Keeps s (los1ms a0 a1 a2 s) := by
  unfold los1ms
  grind [Keeps.refl, Keeps.trans, keeps_mk, Keeps.foldl, Keeps.foldlSnd, keeps_startSubst, keeps_portDrop]

theorem keeps_freeze (a0 a1 a2) (s) : Keeps s (freeze a0 a1 a2 s) := by
  unfold freeze
  grind [Keeps.refl, Keeps.trans, keeps_mk, Keeps.foldl, Keeps.foldlSnd, keeps_fset]

theorem keeps_eyePass (a0 a1 a2 a3) (s) : Keeps s (eyePass a0 a1 a2 a3 s) := by
  unfold eyePass
  grind [Keeps.refl, Keeps.trans, keeps_mk, Keeps.foldl, Keeps.foldlSnd, keeps_regPut]

theorem keeps_acquireLaser (a0 a1) (s) : Keeps s (acquireLaser a0 a1 s) := by
  unfold acquireLaser
  grind [Keeps.refl, Keeps.trans, keeps_mk, Keeps.foldl, Keeps.foldlSnd, keeps_fset, keeps_onPorts, keeps_nextFree]

theorem keeps_acquireRings (a0) (s) : Keeps s (acquireRings a0 s) := by
  unfold acquireRings
  grind [Keeps.refl, Keeps.trans, keeps_mk, Keeps.foldl, Keeps.foldlSnd, keeps_onPorts, keeps_nextFree, keeps_acquired, keeps_fset]

theorem keeps_keepRefs (a0 a1) (s) : Keeps s (keepRefs a0 a1 s) := by
  unfold keepRefs
  grind [Keeps.refl, Keeps.trans, keeps_mk, Keeps.foldl, Keeps.foldlSnd, keeps_updPorger]

theorem keeps_adapted (a0 a1) (s) : Keeps s (adapted a0 a1 s) := by
  unfold adapted
  grind [Keeps.refl, Keeps.trans, keeps_mk, Keeps.foldl, Keeps.foldlSnd, keeps_nextFree, keeps_acquired, keeps_fset, keeps_keepRefs, keeps_setLine, keeps_updPorger, keeps_portTrain]

theorem keeps_injectOne (a0 a1 a2) (s) : Keeps s (injectOne a0 a1 a2 s) := by
  unfold injectOne
  grind [Keeps.refl, Keeps.trans, keeps_mk, Keeps.foldl, Keeps.foldlSnd, keeps_regPut, keeps_emit]

theorem keeps_pam4Write (a0 a1 a2) (s) : Keeps s (pam4Write a0 a1 a2 s) := by
  unfold pam4Write
  grind [Keeps.refl, Keeps.trans, keeps_mk, Keeps.foldl, Keeps.foldlSnd, keeps_regPut]

theorem keeps_onPort (a0 a1) (s) (h : ∀ t, Keeps t ((a1 t).stateOr t)) : Keeps s ((onPort a0 s a1).stateOr s) := by
  unfold onPort
  grind [Keeps.refl, Keeps.trans, keeps_mk, Keeps.foldl, Keeps.foldlSnd, keeps_Ans_no, Ans.stateOr, Ans.ok, Ans.no]

theorem keeps_vcWeightBody (a0 a1) (s) : Keeps s ((vcWeightBody a0 a1 s).stateOr s) := by
  unfold vcWeightBody
  grind [Keeps.refl, Keeps.trans, keeps_mk, Keeps.foldl, Keeps.foldlSnd, keeps_onPort, keeps_Ans_ok, keeps_updPort, Ans.stateOr, Ans.ok, Ans.no]

theorem keeps_vcWeight (a0) (s) : Keeps s (vcWeight a0 s) := by
  unfold vcWeight
  grind [Keeps.refl, Keeps.trans, keeps_mk, Keeps.foldl, Keeps.foldlSnd, keeps_runCmd, keeps_vcWeightBody, Ans.stateOr, Ans.ok, Ans.no]

theorem keeps_portDownBody (a0 a1) (s) : Keeps s ((portDownBody a0 a1 s).stateOr s) := by
  unfold portDownBody
  grind [Keeps.refl, Keeps.trans, keeps_mk, Keeps.foldl, Keeps.foldlSnd, keeps_onPort, keeps_Ans_ok, keeps_portDrop, Ans.stateOr, Ans.ok, Ans.no]

theorem keeps_portDownCmd (a0) (s) : Keeps s (portDownCmd a0 s) := by
  unfold portDownCmd
  grind [Keeps.refl, Keeps.trans, keeps_mk, Keeps.foldl, Keeps.foldlSnd, keeps_runCmd, keeps_portDownBody, Ans.stateOr, Ans.ok, Ans.no]

theorem keeps_flushTag (a0 a1) (s) : Keeps s (flushTag a0 a1 s) := by
  unfold flushTag
  grind [Keeps.refl, Keeps.trans, keeps_mk, Keeps.foldl, Keeps.foldlSnd, keeps_freeTag, keeps_xferFail, keeps_collEnd, keeps_faultRec]

theorem keeps_flushPort (a0) (s) : Keeps s (flushPort a0 s) := by
  unfold flushPort
  grind [Keeps.refl, Keeps.trans, keeps_mk, Keeps.foldl, Keeps.foldlSnd, keeps_flushTag, keeps_answerWait, keeps_pathLostRec, keeps_portTrain, keeps_newSession]

theorem keeps_portFlushBody (a0 a1) (s) : Keeps s ((portFlushBody a0 a1 s).stateOr s) := by
  unfold portFlushBody
  grind [Keeps.refl, Keeps.trans, keeps_mk, Keeps.foldl, Keeps.foldlSnd, keeps_onPort, keeps_Ans_ok, keeps_flushPort, Ans.stateOr, Ans.ok, Ans.no]

theorem keeps_portFlushCmd (a0) (s) : Keeps s (portFlushCmd a0 s) := by
  unfold portFlushCmd
  grind [Keeps.refl, Keeps.trans, keeps_mk, Keeps.foldl, Keeps.foldlSnd, keeps_runCmd, keeps_portFlushBody, Ans.stateOr, Ans.ok, Ans.no]

theorem keeps_portModeBody (a0 a1) (s) : Keeps s ((portModeBody a0 a1 s).stateOr s) := by
  unfold portModeBody
  grind [Keeps.refl, Keeps.trans, keeps_mk, Keeps.foldl, Keeps.foldlSnd, keeps_onPort, keeps_fset, keeps_Ans_ok, keeps_portTrain, Ans.stateOr, Ans.ok, Ans.no]

theorem keeps_portModeCmd (a0) (s) : Keeps s (portModeCmd a0 s) := by
  unfold portModeCmd
  grind [Keeps.refl, Keeps.trans, keeps_mk, Keeps.foldl, Keeps.foldlSnd, keeps_runCmd, keeps_portModeBody, Ans.stateOr, Ans.ok, Ans.no]

theorem keeps_portTestBody (a0 a1) (s) : Keeps s ((portTestBody a0 a1 s).stateOr s) := by
  unfold portTestBody
  grind [Keeps.refl, Keeps.trans, keeps_mk, Keeps.foldl, Keeps.foldlSnd, keeps_onPort, keeps_Ans_no, keeps_Ans_ok, keeps_sendLink, keeps_updPort, Ans.stateOr, Ans.ok, Ans.no]

theorem keeps_portTestCmd (a0) (s) : Keeps s (portTestCmd a0 s) := by
  unfold portTestCmd
  grind [Keeps.refl, Keeps.trans, keeps_mk, Keeps.foldl, Keeps.foldlSnd, keeps_runCmd, keeps_portTestBody, Ans.stateOr, Ans.ok, Ans.no]

theorem keeps_laserSwitchBody (a0 a1) (s) : Keeps s ((laserSwitchBody a0 a1 s).stateOr s) := by
  unfold laserSwitchBody
  grind [Keeps.refl, Keeps.trans, keeps_mk, Keeps.foldl, Keeps.foldlSnd, keeps_Ans_no, keeps_askSwitch, keeps_startSpare, Ans.stateOr, Ans.ok, Ans.no]

theorem keeps_laserSwitchCmd (a0) (s) : Keeps s (laserSwitchCmd a0 s) := by
  unfold laserSwitchCmd
  grind [Keeps.refl, Keeps.trans, keeps_mk, Keeps.foldl, Keeps.foldlSnd, keeps_runCmd, keeps_laserSwitchBody, Ans.stateOr, Ans.ok, Ans.no]

theorem keeps_wlSubstBody (a0 a1) (s) : Keeps s ((wlSubstBody a0 a1 s).stateOr s) := by
  unfold wlSubstBody
  grind [Keeps.refl, Keeps.trans, keeps_mk, Keeps.foldl, Keeps.foldlSnd, keeps_onPort, keeps_Ans_no, keeps_Ans_ok, keeps_askChange, Ans.stateOr, Ans.ok, Ans.no]

theorem keeps_wlSubstCmd (a0) (s) : Keeps s (wlSubstCmd a0 s) := by
  unfold wlSubstCmd
  grind [Keeps.refl, Keeps.trans, keeps_mk, Keeps.foldl, Keeps.foldlSnd, keeps_runCmd, keeps_wlSubstBody, Ans.stateOr, Ans.ok, Ans.no]

theorem keeps_wlRestoreBody (a0 a1) (s) : Keeps s ((wlRestoreBody a0 a1 s).stateOr s) := by
  unfold wlRestoreBody
  grind [Keeps.refl, Keeps.trans, keeps_mk, Keeps.foldl, Keeps.foldlSnd, keeps_onPort, keeps_Ans_ok, keeps_askChange, Ans.stateOr, Ans.ok, Ans.no]

theorem keeps_wlRestoreCmd (a0) (s) : Keeps s (wlRestoreCmd a0 s) := by
  unfold wlRestoreCmd
  grind [Keeps.refl, Keeps.trans, keeps_mk, Keeps.foldl, Keeps.foldlSnd, keeps_runCmd, keeps_wlRestoreBody, Ans.stateOr, Ans.ok, Ans.no]

theorem keeps_execUcieModuleTrain (a0 a1 a2 a3) (s) : Keeps s (nextOr s (execUcieModuleTrain a0 a1 a2 a3 s)) := by
  unfold execUcieModuleTrain
  grind [Keeps.refl, Keeps.trans, keeps_mk, Keeps.foldl, Keeps.foldlSnd, keeps_moduleTrain, nextOr]

theorem keeps_execIdentQ (a0 a1 a2 a3) (s) : Keeps s (nextOr s (execIdentQ a0 a1 a2 a3 s)) := by
  unfold execIdentQ
  grind [Keeps.refl, Keeps.trans, keeps_mk, Keeps.foldl, Keeps.foldlSnd, keeps_identAnswer, nextOr]

theorem keeps_execParamSet (a0 a1 a2) (s) : Keeps s (nextOr s (execParamSet a0 a1 a2 s)) := by
  unfold execParamSet
  grind [Keeps.refl, Keeps.trans, keeps_mk, Keeps.foldl, Keeps.foldlSnd, keeps_paramAnswer, nextOr]

theorem keeps_execEngineRefused (a0 a1) (s) : Keeps s (nextOr s (execEngineRefused a0 a1 s)) := by
  unfold execEngineRefused
  grind [Keeps.refl, Keeps.trans, keeps_mk, Keeps.foldl, Keeps.foldlSnd, keeps_refuseEngine, nextOr]

theorem keeps_execSidebandLost (a0 a1) (s) : Keeps s (nextOr s (execSidebandLost a0 a1 s)) := by
  unfold execSidebandLost
  grind [Keeps.refl, Keeps.trans, keeps_mk, Keeps.foldl, Keeps.foldlSnd, keeps_sidebandDown, nextOr]

theorem keeps_execStatusQ (a0 a1 a2) (s) : Keeps s (nextOr s (execStatusQ a0 a1 a2 s)) := by
  unfold execStatusQ
  grind [Keeps.refl, Keeps.trans, keeps_mk, Keeps.foldl, Keeps.foldlSnd, keeps_statusPoll, nextOr]

theorem keeps_execTempFf (a0 a1) (s) : Keeps s (nextOr s (execTempFf a0 a1 s)) := by
  unfold execTempFf
  grind [Keeps.refl, Keeps.trans, keeps_mk, Keeps.foldl, Keeps.foldlSnd, keeps_tempForward, nextOr]

theorem keeps_execBlank (a0 a1) (s) : Keeps s (nextOr s (execBlank a0 a1 s)) := by
  unfold execBlank
  grind [Keeps.refl, Keeps.trans, keeps_mk, Keeps.foldl, Keeps.foldlSnd, keeps_blankSite, nextOr]

theorem keeps_execUnblank (a0) (s) : Keeps s (nextOr s (execUnblank a0 s)) := by
  unfold execUnblank
  grind [Keeps.refl, Keeps.trans, keeps_mk, Keeps.foldl, Keeps.foldlSnd, keeps_unblankSite, nextOr]

theorem keeps_execLaserMonitorSample (a0 a1) (s) : Keeps s (nextOr s (execLaserMonitorSample a0 a1 s)) := by
  unfold execLaserMonitorSample
  grind [Keeps.refl, Keeps.trans, keeps_mk, Keeps.foldl, Keeps.foldlSnd, keeps_laserSample, nextOr]

theorem keeps_execFadeUpdate (a0) (s) : Keeps s (nextOr s (execFadeUpdate a0 s)) := by
  unfold execFadeUpdate
  grind [Keeps.refl, Keeps.trans, keeps_mk, Keeps.foldl, Keeps.foldlSnd, keeps_fadeNow, nextOr]

theorem keeps_execSpareWarmDone (a0) (s) : Keeps s (nextOr s (execSpareWarmDone a0 s)) := by
  unfold execSpareWarmDone
  grind [Keeps.refl, Keeps.trans, keeps_mk, Keeps.foldl, Keeps.foldlSnd, keeps_spareWarm, nextOr]

theorem keeps_execSpareStandby (a0 a1) (s) : Keeps s (nextOr s (execSpareStandby a0 a1 s)) := by
  unfold execSpareStandby
  grind [Keeps.refl, Keeps.trans, keeps_mk, Keeps.foldl, Keeps.foldlSnd, keeps_spareReady, nextOr]

theorem keeps_execSpareFailed (a0) (s) : Keeps s (nextOr s (execSpareFailed a0 s)) := by
  unfold execSpareFailed
  grind [Keeps.refl, Keeps.trans, keeps_mk, Keeps.foldl, Keeps.foldlSnd, keeps_spareFail, nextOr]

theorem keeps_execPrgSwitch (a0 a1) (s) : Keeps s (nextOr s (execPrgSwitch a0 a1 s)) := by
  unfold execPrgSwitch
  grind [Keeps.refl, Keeps.trans, keeps_mk, Keeps.foldl, Keeps.foldlSnd, keeps_switchGo, nextOr]

theorem keeps_execLaserSwitchover (a0) (s) : Keeps s (nextOr s (execLaserSwitchover a0 s)) := by
  unfold execLaserSwitchover
  grind [Keeps.refl, Keeps.trans, keeps_mk, Keeps.foldl, Keeps.foldlSnd, keeps_switchTurn, nextOr]

theorem keeps_execSwitchoverResume (a0 a1) (s) : Keeps s (nextOr s (execSwitchoverResume a0 a1 s)) := by
  unfold execSwitchoverResume
  grind [Keeps.refl, Keeps.trans, keeps_mk, Keeps.foldl, Keeps.foldlSnd, keeps_switchResume, nextOr]

theorem keeps_execRingSlip (a0 a1 a2 a3) (s) : Keeps s (nextOr s (execRingSlip a0 a1 a2 a3 s)) := by
  unfold execRingSlip
  grind [Keeps.refl, Keeps.trans, keeps_mk, Keeps.foldl, Keeps.foldlSnd, keeps_slip, nextOr]

theorem keeps_execRingRelock (a0 a1 a2 a3 a4) (s) : Keeps s (nextOr s (execRingRelock a0 a1 a2 a3 a4 s)) := by
  unfold execRingRelock
  grind [Keeps.refl, Keeps.trans, keeps_mk, Keeps.foldl, Keeps.foldlSnd, keeps_relock, nextOr]

theorem keeps_execRingFail (a0 a1 a2 a3) (s) : Keeps s (nextOr s (execRingFail a0 a1 a2 a3 s)) := by
  unfold execRingFail
  grind [Keeps.refl, Keeps.trans, keeps_mk, Keeps.foldl, Keeps.foldlSnd, keeps_ringFailed, nextOr]

theorem keeps_execSpareWlBad (a0 a1 a2) (s) : Keeps s (nextOr s (execSpareWlBad a0 a1 a2 s)) := by
  unfold execSpareWlBad
  grind [Keeps.refl, Keeps.trans, keeps_mk, Keeps.foldl, Keeps.foldlSnd, keeps_wlBad, nextOr]

theorem keeps_execLossOfSignal (a0 a1 a2) (s) : Keeps s (nextOr s (execLossOfSignal a0 a1 a2 s)) := by
  unfold execLossOfSignal
  grind [Keeps.refl, Keeps.trans, keeps_mk, Keeps.foldl, Keeps.foldlSnd, keeps_losStart, nextOr]

theorem keeps_execSignalReturn (a0 a1 a2 a3) (s) : Keeps s (nextOr s (execSignalReturn a0 a1 a2 a3 s)) := by
  unfold execSignalReturn
  grind [Keeps.refl, Keeps.trans, keeps_mk, Keeps.foldl, Keeps.foldlSnd, keeps_losEnd, nextOr]

theorem keeps_execLossOfSignal1Ms (a0 a1 a2) (s) : Keeps s (nextOr s (execLossOfSignal1Ms a0 a1 a2 s)) := by
  unfold execLossOfSignal1Ms
  grind [Keeps.refl, Keeps.trans, keeps_mk, Keeps.foldl, Keeps.foldlSnd, keeps_los1ms, nextOr]

theorem keeps_execAdaptationFreeze (a0 a1 a2) (s) : Keeps s (nextOr s (execAdaptationFreeze a0 a1 a2 s)) := by
  unfold execAdaptationFreeze
  grind [Keeps.refl, Keeps.trans, keeps_mk, Keeps.foldl, Keeps.foldlSnd, keeps_freeze, nextOr]

theorem keeps_execEyeScanPass (a0 a1 a2 a3) (s) : Keeps s (nextOr s (execEyeScanPass a0 a1 a2 a3 s)) := by
  unfold execEyeScanPass
  grind [Keeps.refl, Keeps.trans, keeps_mk, Keeps.foldl, Keeps.foldlSnd, keeps_eyePass, nextOr]

theorem keeps_execSiteAcquireLaserLocked (a0 a1) (s) : Keeps s (nextOr s (execSiteAcquireLaserLocked a0 a1 s)) := by
  unfold execSiteAcquireLaserLocked
  grind [Keeps.refl, Keeps.trans, keeps_mk, Keeps.foldl, Keeps.foldlSnd, keeps_acquireLaser, nextOr]

theorem keeps_execSiteAcquireRings (a0) (s) : Keeps s (nextOr s (execSiteAcquireRings a0 s)) := by
  unfold execSiteAcquireRings
  grind [Keeps.refl, Keeps.trans, keeps_mk, Keeps.foldl, Keeps.foldlSnd, keeps_acquireRings, nextOr]

theorem keeps_execReceiversAdapted (a0 a1) (s) : Keeps s (nextOr s (execReceiversAdapted a0 a1 s)) := by
  unfold execReceiversAdapted
  grind [Keeps.refl, Keeps.trans, keeps_mk, Keeps.foldl, Keeps.foldlSnd, keeps_adapted, nextOr]

theorem keeps_execInjOne (a0 a1 a2) (s) : Keeps s (nextOr s (execInjOne a0 a1 a2 s)) := by
  unfold execInjOne
  grind [Keeps.refl, Keeps.trans, keeps_mk, Keeps.foldl, Keeps.foldlSnd, keeps_injectOne, nextOr]

theorem keeps_execPam4LevelWrite (a0 a1 a2) (s) : Keeps s (nextOr s (execPam4LevelWrite a0 a1 a2 s)) := by
  unfold execPam4LevelWrite
  grind [Keeps.refl, Keeps.trans, keeps_mk, Keeps.foldl, Keeps.foldlSnd, keeps_pam4Write, nextOr]

theorem keeps_execVcWeight (a0) (s) : Keeps s (nextOr s (execVcWeight a0 s)) := by
  unfold execVcWeight
  grind [Keeps.refl, Keeps.trans, keeps_mk, Keeps.foldl, Keeps.foldlSnd, keeps_vcWeight, nextOr]

theorem keeps_execPortDown (a0) (s) : Keeps s (nextOr s (execPortDown a0 s)) := by
  unfold execPortDown
  grind [Keeps.refl, Keeps.trans, keeps_mk, Keeps.foldl, Keeps.foldlSnd, keeps_portDownCmd, nextOr]

theorem keeps_execPortFlush (a0) (s) : Keeps s (nextOr s (execPortFlush a0 s)) := by
  unfold execPortFlush
  grind [Keeps.refl, Keeps.trans, keeps_mk, Keeps.foldl, Keeps.foldlSnd, keeps_flushWaits, keeps_portFlushCmd, nextOr]

theorem keeps_execPortMode (a0) (s) : Keeps s (nextOr s (execPortMode a0 s)) := by
  unfold execPortMode
  grind [Keeps.refl, Keeps.trans, keeps_mk, Keeps.foldl, Keeps.foldlSnd, keeps_portModeCmd, nextOr]

theorem keeps_execPortTest (a0) (s) : Keeps s (nextOr s (execPortTest a0 s)) := by
  unfold execPortTest
  grind [Keeps.refl, Keeps.trans, keeps_mk, Keeps.foldl, Keeps.foldlSnd, keeps_portTestCmd, nextOr]

theorem keeps_execLaserSwitch (a0) (s) : Keeps s (nextOr s (execLaserSwitch a0 s)) := by
  unfold execLaserSwitch
  grind [Keeps.refl, Keeps.trans, keeps_mk, Keeps.foldl, Keeps.foldlSnd, keeps_laserSwitchCmd, nextOr]

theorem keeps_execWlSubst (a0) (s) : Keeps s (nextOr s (execWlSubst a0 s)) := by
  unfold execWlSubst
  grind [Keeps.refl, Keeps.trans, keeps_mk, Keeps.foldl, Keeps.foldlSnd, keeps_wlSubstCmd, nextOr]

theorem keeps_execWlRestore (a0) (s) : Keeps s (nextOr s (execWlRestore a0 s)) := by
  unfold execWlRestore
  grind [Keeps.refl, Keeps.trans, keeps_mk, Keeps.foldl, Keeps.foldlSnd, keeps_wlRestoreCmd, nextOr]

end Sys2Proof.Machine
end

