-- ==== Sys2Proof/Laws/KeepsPower.lean ====
section
/-! SUPPORT. Every operation of Sys2Proof/Machine/Power.lean keeps what `Keeps` says. -/

namespace Sys2Proof.Machine

theorem keeps_updPwr (a0) (s) : Keeps s (updPwr a0 s) := by
  unfold updPwr
  grind [Keeps.refl, Keeps.trans, keeps_mk, Keeps.foldl, Keeps.foldlSnd]

theorem keeps_tracePower (a0) (s) : Keeps s (tracePower a0 s) := by
  unfold tracePower
  grind [Keeps.refl, Keeps.trans, keeps_mk, Keeps.foldl, Keeps.foldlSnd, keeps_trace]

theorem keeps_coreClock (a0 a1) (s) : Keeps s (coreClock a0 a1 s) := by
  unfold coreClock
  grind [Keeps.refl, Keeps.trans, keeps_mk, Keeps.foldl, Keeps.foldlSnd, keeps_fset]

theorem keeps_dieClocks (a0) (s) : Keeps s (dieClocks a0 s) := by
  unfold dieClocks
  grind [Keeps.refl, Keeps.trans, keeps_mk, Keeps.foldl, Keeps.foldlSnd, keeps_fset, keeps_coreClock]

theorem keeps_allClocks (s) : Keeps s (allClocks s) := by
  unfold allClocks
  grind [Keeps.refl, Keeps.trans, keeps_mk, Keeps.foldl, Keeps.foldlSnd, keeps_dieClocks]

theorem keeps_slowStart (a0 a1) (s) : Keeps s (slowStart a0 a1 s) := by
  unfold slowStart
  grind [Keeps.refl, Keeps.trans, keeps_mk, Keeps.foldl, Keeps.foldlSnd, keeps_regPut, keeps_fset, keeps_fcount, keeps_allClocks, keeps_tracePower, keeps_occurs]

theorem keeps_slowEnd (a0) (s) : Keeps s (slowEnd a0 s) := by
  unfold slowEnd
  grind [Keeps.refl, Keeps.trans, keeps_mk, Keeps.foldl, Keeps.foldlSnd, keeps_regPut, keeps_tracePower]

theorem keeps_inputSample (a0 a1) (s) : Keeps s (inputSample a0 a1 s) := by
  unfold inputSample
  grind [Keeps.refl, Keeps.trans, keeps_mk, Keeps.foldl, Keeps.foldlSnd, keeps_updPwr, keeps_occurs, keeps_fset, keeps_slowStart]

theorem keeps_overcurrentStart (s) : Keeps s (overcurrentStart s) := by
  unfold overcurrentStart
  grind [Keeps.refl, Keeps.trans, keeps_mk, Keeps.foldl, Keeps.foldlSnd, keeps_slowStart, keeps_updPwr]

theorem keeps_slowWithdraw (s) : Keeps s (slowWithdraw s) := by
  unfold slowWithdraw
  grind [Keeps.refl, Keeps.trans, keeps_mk, Keeps.foldl, Keeps.foldlSnd, keeps_slowEnd, keeps_updPwr, keeps_allClocks, keeps_fset]

theorem keeps_capStep (a0) (s) : Keeps s (capStep a0 s) := by
  unfold capStep
  grind [Keeps.refl, Keeps.trans, keeps_mk, Keeps.foldl, Keeps.foldlSnd, keeps_fset, keeps_updPwr, keeps_dieClocks, keeps_occurs]

theorem keeps_coreSleep (a0) (s) : Keeps s (coreSleep a0 s) := by
  unfold coreSleep
  grind [Keeps.refl, Keeps.trans, keeps_mk, Keeps.foldl, Keeps.foldlSnd, keeps_fset]

theorem keeps_coreWake (a0) (s) : Keeps s (coreWake a0 s) := by
  unfold coreWake
  grind [Keeps.refl, Keeps.trans, keeps_mk, Keeps.foldl, Keeps.foldlSnd, keeps_dieClocks, keeps_fset]

theorem keeps_droop (a0 a1) (s) : Keeps s (droop a0 a1 s) := by
  unfold droop
  grind [Keeps.refl, Keeps.trans, keeps_mk, Keeps.foldl, Keeps.foldlSnd, keeps_fcount, keeps_occur, keeps_updCore]

theorem keeps_droopEnd (a0) (s) : Keeps s (droopEnd a0 s) := by
  unfold droopEnd
  grind [Keeps.refl, Keeps.trans, keeps_mk, Keeps.foldl, Keeps.foldlSnd, keeps_updCore]

theorem keeps_tempSample (a0 a1) (s) : Keeps s (tempSample a0 a1 s) := by
  unfold tempSample
  grind [Keeps.refl, Keeps.trans, keeps_mk, Keeps.foldl, Keeps.foldlSnd, keeps_updPwr, keeps_fset]

theorem keeps_showLimit (a0) (s) : Keeps s (showLimit a0 s) := by
  unfold showLimit
  grind [Keeps.refl, Keeps.trans, keeps_mk, Keeps.foldl, Keeps.foldlSnd, keeps_fsetBit]

theorem keeps_throttleStep (a0) (s) : Keeps s (throttleStep a0 s) := by
  unfold throttleStep
  grind [Keeps.refl, Keeps.trans, keeps_mk, Keeps.foldl, Keeps.foldlSnd, keeps_tracePower, keeps_occurs, keeps_updPwr, keeps_fset, keeps_showLimit, keeps_dieClocks]

theorem keeps_throttleRelease (a0) (s) : Keeps s (throttleRelease a0 s) := by
  unfold throttleRelease
  grind [Keeps.refl, Keeps.trans, keeps_mk, Keeps.foldl, Keeps.foldlSnd, keeps_tracePower, keeps_updPwr, keeps_showLimit, keeps_dieClocks, keeps_fset]

theorem keeps_tripDie (a0) (s) : Keeps s (tripDie a0 s) := by
  unfold tripDie
  grind [Keeps.refl, Keeps.trans, keeps_mk, Keeps.foldl, Keeps.foldlSnd, keeps_tempSample, keeps_occurs, keeps_fenceStart, keeps_fset, keeps_blankSite]

theorem keeps_setThermal (a0 a1) (s) : Keeps s (setThermal a0 a1 s) := by
  unfold setThermal
  grind [Keeps.refl, Keeps.trans, keeps_mk, Keeps.foldl, Keeps.foldlSnd, keeps_dieClocks, keeps_fset]

theorem keeps_setLimit (a0 a1) (s) : Keeps s (setLimit a0 a1 s) := by
  unfold setLimit
  grind [Keeps.refl, Keeps.trans, keeps_mk, Keeps.foldl, Keeps.foldlSnd, keeps_showLimit, keeps_updPwr]

theorem keeps_enterBand (a0 a1) (s) : Keeps s (enterBand a0 a1 s) := by
  unfold enterBand
  grind [Keeps.refl, Keeps.trans, keeps_mk, Keeps.foldl, Keeps.foldlSnd, keeps_updPwr, keeps_setThermal, keeps_setLimit]

theorem keeps_bandChange (a0 a1 a2) (s) : Keeps s (bandChange a0 a1 a2 s) := by
  unfold bandChange
  grind [Keeps.refl, Keeps.trans, keeps_mk, Keeps.foldl, Keeps.foldlSnd, keeps_updPwr, keeps_enterBand]

theorem keeps_switchMode (s) : Keeps s (switchMode s) := by
  unfold switchMode
  grind [Keeps.refl, Keeps.trans, keeps_mk, Keeps.foldl, Keeps.foldlSnd, keeps_fset, keeps_enterBand]

theorem keeps_centralStep (a0) (s) : Keeps s (centralStep a0 s) := by
  unfold centralStep
  grind [Keeps.refl, Keeps.trans, keeps_mk, Keeps.foldl, Keeps.foldlSnd, keeps_setThermal, keeps_setLimit]

theorem keeps_thermalStep (a0) (s) : Keeps s (thermalStep a0 s) := by
  unfold thermalStep
  grind [Keeps.refl, Keeps.trans, keeps_mk, Keeps.foldl, Keeps.foldlSnd, keeps_updPwr, keeps_switchMode, keeps_centralStep]

theorem keeps_selfSafe (a0) (s) : Keeps s (selfSafe a0 s) := by
  unfold selfSafe
  grind [Keeps.refl, Keeps.trans, keeps_mk, Keeps.foldl, Keeps.foldlSnd, keeps_setDie, keeps_blankSite, keeps_fset]

theorem keeps_colLost (s) : Keeps s (colLost s) := by
  unfold colLost
  grind [Keeps.refl, Keeps.trans, keeps_mk, Keeps.foldl, Keeps.foldlSnd, keeps_showFault, keeps_selfSafe]

theorem keeps_clockLost (a0) (s) : Keeps s (clockLost a0 s) := by
  unfold clockLost
  grind [Keeps.refl, Keeps.trans, keeps_mk, Keeps.foldl, Keeps.foldlSnd, keeps_occurs, keeps_fenceStart, keeps_fset, keeps_colLost]

theorem keeps_setProt (a0) (s) : Keeps s (setProt a0 s) := by
  unfold setProt
  grind [Keeps.refl, Keeps.trans, keeps_mk, Keeps.foldl, Keeps.foldlSnd, keeps_fset]

theorem keeps_setLinkMode (a0) (s) : Keeps s (setLinkMode a0 s) := by
  unfold setLinkMode
  grind [Keeps.refl, Keeps.trans, keeps_mk, Keeps.foldl, Keeps.foldlSnd, keeps_fset, keeps_askChange]

theorem keeps_setCeil (a0) (s) : Keeps s (setCeil a0 s) := by
  unfold setCeil
  grind [Keeps.refl, Keeps.trans, keeps_mk, Keeps.foldl, Keeps.foldlSnd, keeps_allClocks, keeps_fset]

theorem keeps_setCap (s) : Keeps s (setCap s) := by
  unfold setCap
  grind [Keeps.refl, Keeps.trans, keeps_mk, Keeps.foldl, Keeps.foldlSnd, keeps_fset]

theorem keeps_setFromProfile (a0) (s) : Keeps s (setFromProfile a0 s) := by
  unfold setFromProfile
  grind [Keeps.refl, Keeps.trans, keeps_mk, Keeps.foldl, Keeps.foldlSnd, keeps_setCeil, keeps_setCap, keeps_setProt, keeps_setLinkMode]

theorem keeps_setProfile (a0) (s) : Keeps s (setProfile a0 s) := by
  unfold setProfile
  grind [Keeps.refl, Keeps.trans, keeps_mk, Keeps.foldl, Keeps.foldlSnd, keeps_fset, keeps_tracePower, keeps_setFromProfile]

theorem keeps_profileBody (a0 a1) (s) : Keeps s ((profileBody a0 a1 s).stateOr s) := by
  unfold profileBody
  grind [Keeps.refl, Keeps.trans, keeps_mk, Keeps.foldl, Keeps.foldlSnd, keeps_Ans_ok, keeps_setProfile, Ans.stateOr, Ans.ok, Ans.no]

theorem keeps_profileCmd (a0) (s) : Keeps s (profileCmd a0 s) := by
  unfold profileCmd
  grind [Keeps.refl, Keeps.trans, keeps_mk, Keeps.foldl, Keeps.foldlSnd, keeps_runCmd, keeps_profileBody, Ans.stateOr, Ans.ok, Ans.no]

theorem keeps_setOverride (a0 a1 a2) (s) : Keeps s (setOverride a0 a1 a2 s) := by
  unfold setOverride
  grind [Keeps.refl, Keeps.trans, keeps_mk, Keeps.foldl, Keeps.foldlSnd, keeps_setFromProfile, keeps_fset, keeps_setCeil, keeps_setCap, keeps_updPwr, keeps_setProt, keeps_setLinkMode]

theorem keeps_overrideBody (a0 a1) (s) : Keeps s ((overrideBody a0 a1 s).stateOr s) := by
  unfold overrideBody
  grind [Keeps.refl, Keeps.trans, keeps_mk, Keeps.foldl, Keeps.foldlSnd, keeps_Ans_ok, keeps_setOverride, Ans.stateOr, Ans.ok, Ans.no]

theorem keeps_overrideCmd (a0) (s) : Keeps s (overrideCmd a0 s) := by
  unfold overrideCmd
  grind [Keeps.refl, Keeps.trans, keeps_mk, Keeps.foldl, Keeps.foldlSnd, keeps_runCmd, keeps_overrideBody, Ans.stateOr, Ans.ok, Ans.no]

theorem keeps_thermalBody (a0 a1) (s) : Keeps s ((thermalBody a0 a1 s).stateOr s) := by
  unfold thermalBody
  grind [Keeps.refl, Keeps.trans, keeps_mk, Keeps.foldl, Keeps.foldlSnd, keeps_Ans_ok, keeps_updPwr, Ans.stateOr, Ans.ok, Ans.no]

theorem keeps_thermalCmd (a0) (s) : Keeps s (thermalCmd a0 s) := by
  unfold thermalCmd
  grind [Keeps.refl, Keeps.trans, keeps_mk, Keeps.foldl, Keeps.foldlSnd, keeps_runCmd, keeps_thermalBody, Ans.stateOr, Ans.ok, Ans.no]

theorem keeps_powerReadBody (a0 a1) (s) : Keeps s ((powerReadBody a0 a1 s).stateOr s) := by
  unfold powerReadBody
  grind [Keeps.refl, Keeps.trans, keeps_mk, Keeps.foldl, Keeps.foldlSnd, keeps_Ans_ok, Ans.stateOr, Ans.ok, Ans.no]

theorem keeps_powerReadCmd (a0) (s) : Keeps s (powerReadCmd a0 s) := by
  unfold powerReadCmd
  grind [Keeps.refl, Keeps.trans, keeps_mk, Keeps.foldl, Keeps.foldlSnd, keeps_runCmd, keeps_powerReadBody, Ans.stateOr, Ans.ok, Ans.no]

theorem keeps_execInputMonitorSample (a0 a1) (s) : Keeps s (nextOr s (execInputMonitorSample a0 a1 s)) := by
  unfold execInputMonitorSample
  grind [Keeps.refl, Keeps.trans, keeps_mk, Keeps.foldl, Keeps.foldlSnd, keeps_inputSample, nextOr]

theorem keeps_execOvercurrent (s) : Keeps s (nextOr s (execOvercurrent s)) := by
  unfold execOvercurrent
  grind [Keeps.refl, Keeps.trans, keeps_mk, Keeps.foldl, Keeps.foldlSnd, keeps_overcurrentStart, nextOr]

theorem keeps_execSlowRelease (s) : Keeps s (nextOr s (execSlowRelease s)) := by
  unfold execSlowRelease
  grind [Keeps.refl, Keeps.trans, keeps_mk, Keeps.foldl, Keeps.foldlSnd, keeps_slowWithdraw, nextOr]

theorem keeps_execClockGoodLoss (a0) (s) : Keeps s (nextOr s (execClockGoodLoss a0 s)) := by
  unfold execClockGoodLoss
  grind [Keeps.refl, Keeps.trans, keeps_mk, Keeps.foldl, Keeps.foldlSnd, keeps_clockLost, nextOr]

theorem keeps_execCoreIdleSleep (a0) (s) : Keeps s (nextOr s (execCoreIdleSleep a0 s)) := by
  unfold execCoreIdleSleep
  grind [Keeps.refl, Keeps.trans, keeps_mk, Keeps.foldl, Keeps.foldlSnd, keeps_coreSleep, nextOr]

theorem keeps_execCoreWakeComplete (a0) (s) : Keeps s (nextOr s (execCoreWakeComplete a0 s)) := by
  unfold execCoreWakeComplete
  grind [Keeps.refl, Keeps.trans, keeps_mk, Keeps.foldl, Keeps.foldlSnd, keeps_coreWake, nextOr]

theorem keeps_execDroopStretch (a0 a1) (s) : Keeps s (nextOr s (execDroopStretch a0 a1 s)) := by
  unfold execDroopStretch
  grind [Keeps.refl, Keeps.trans, keeps_mk, Keeps.foldl, Keeps.foldlSnd, keeps_droop, nextOr]

theorem keeps_execDroopRecover (a0) (s) : Keeps s (nextOr s (execDroopRecover a0 s)) := by
  unfold execDroopRecover
  grind [Keeps.refl, Keeps.trans, keeps_mk, Keeps.foldl, Keeps.foldlSnd, keeps_droopEnd, nextOr]

theorem keeps_execPowerCapStep (a0) (s) : Keeps s (nextOr s (execPowerCapStep a0 s)) := by
  unfold execPowerCapStep
  grind [Keeps.refl, Keeps.trans, keeps_mk, Keeps.foldl, Keeps.foldlSnd, keeps_capStep, nextOr]

theorem keeps_execTemperatureSample (a0 a1) (s) : Keeps s (nextOr s (execTemperatureSample a0 a1 s)) := by
  unfold execTemperatureSample
  grind [Keeps.refl, Keeps.trans, keeps_mk, Keeps.foldl, Keeps.foldlSnd, keeps_tempSample, nextOr]

theorem keeps_execLocalThrottleStep (a0) (s) : Keeps s (nextOr s (execLocalThrottleStep a0 s)) := by
  unfold execLocalThrottleStep
  grind [Keeps.refl, Keeps.trans, keeps_mk, Keeps.foldl, Keeps.foldlSnd, keeps_throttleStep, nextOr]

theorem keeps_execLocalThrottleReleaseStep (a0) (s) : Keeps s (nextOr s (execLocalThrottleReleaseStep a0 s)) := by
  unfold execLocalThrottleReleaseStep
  grind [Keeps.refl, Keeps.trans, keeps_mk, Keeps.foldl, Keeps.foldlSnd, keeps_throttleRelease, nextOr]

theorem keeps_execTrip (a0) (s) : Keeps s (nextOr s (execTrip a0 s)) := by
  unfold execTrip
  grind [Keeps.refl, Keeps.trans, keeps_mk, Keeps.foldl, Keeps.foldlSnd, keeps_tripDie, nextOr]

theorem keeps_execThermalControlStep (a0) (s) : Keeps s (nextOr s (execThermalControlStep a0 s)) := by
  unfold execThermalControlStep
  grind [Keeps.refl, Keeps.trans, keeps_mk, Keeps.foldl, Keeps.foldlSnd, keeps_thermalStep, nextOr]

theorem keeps_execStackedBandChange (a0 a1 a2) (s) : Keeps s (nextOr s (execStackedBandChange a0 a1 a2 s)) := by
  unfold execStackedBandChange
  grind [Keeps.refl, Keeps.trans, keeps_mk, Keeps.foldl, Keeps.foldlSnd, keeps_bandChange, nextOr]

theorem keeps_execProfileSet (a0) (s) : Keeps s (nextOr s (execProfileSet a0 s)) := by
  unfold execProfileSet
  grind [Keeps.refl, Keeps.trans, keeps_mk, Keeps.foldl, Keeps.foldlSnd, keeps_profileCmd, nextOr]

theorem keeps_execOverride (a0) (s) : Keeps s (nextOr s (execOverride a0 s)) := by
  unfold execOverride
  grind [Keeps.refl, Keeps.trans, keeps_mk, Keeps.foldl, Keeps.foldlSnd, keeps_overrideCmd, nextOr]

theorem keeps_execThermalMode (a0) (s) : Keeps s (nextOr s (execThermalMode a0 s)) := by
  unfold execThermalMode
  grind [Keeps.refl, Keeps.trans, keeps_mk, Keeps.foldl, Keeps.foldlSnd, keeps_thermalCmd, nextOr]

theorem keeps_execPowerRead (a0) (s) : Keeps s (nextOr s (execPowerRead a0 s)) := by
  unfold execPowerRead
  grind [Keeps.refl, Keeps.trans, keeps_mk, Keeps.foldl, Keeps.foldlSnd, keeps_powerReadCmd, nextOr]

end Sys2Proof.Machine
end

