-- ==== Sys2Proof/Laws/KeepsFaults.lean ====
section
/-! SUPPORT. Every operation of Sys2Proof/Machine/Faults.lean keeps what `Keeps` says. -/

namespace Sys2Proof.Machine

theorem keeps_sourceOccurs (a0 a1 a2) (s) : Keeps s (sourceOccurs a0 a1 a2 s) := by
  unfold sourceOccurs
  grind [Keeps.refl, Keeps.trans, keeps_mk, Keeps.foldl, Keeps.foldlSnd, keeps_strikeLine, keeps_occur]

theorem keeps_faultRingBody (a0 a1) (s) : Keeps s ((faultRingBody a0 a1 s).stateOr s) := by
  unfold faultRingBody
  grind [Keeps.refl, Keeps.trans, keeps_mk, Keeps.foldl, Keeps.foldlSnd, keeps_Ans_no, keeps_Ans_ok, keeps_setRing, Ans.stateOr, Ans.ok, Ans.no]

theorem keeps_faultRingCmd (a0) (s) : Keeps s (faultRingCmd a0 s) := by
  unfold faultRingCmd
  grind [Keeps.refl, Keeps.trans, keeps_mk, Keeps.foldl, Keeps.foldlSnd, keeps_runCmd, keeps_faultRingBody, Ans.stateOr, Ans.ok, Ans.no]

theorem keeps_faultResumeBody (a0 a1) (s) : Keeps s ((faultResumeBody a0 a1 s).stateOr s) := by
  unfold faultResumeBody
  grind [Keeps.refl, Keeps.trans, keeps_mk, Keeps.foldl, Keeps.foldlSnd, keeps_withTask, keeps_Ans_ok, keeps_updTask, keeps_Ans_no, Ans.stateOr, Ans.ok, Ans.no]

theorem keeps_faultResumeCmd (a0) (s) : Keeps s (faultResumeCmd a0 s) := by
  unfold faultResumeCmd
  grind [Keeps.refl, Keeps.trans, keeps_mk, Keeps.foldl, Keeps.foldlSnd, keeps_runCmd, keeps_faultResumeBody, Ans.stateOr, Ans.ok, Ans.no]

theorem keeps_faultEndBody (a0 a1) (s) : Keeps s ((faultEndBody a0 a1 s).stateOr s) := by
  unfold faultEndBody
  grind [Keeps.refl, Keeps.trans, keeps_mk, Keeps.foldl, Keeps.foldlSnd, keeps_withTask, keeps_Ans_ok, keeps_forgetGraph, keeps_settle, keeps_makeFinal, keeps_endUnit, keeps_Ans_no, Ans.stateOr, Ans.ok, Ans.no]

theorem keeps_faultEndCmd (a0) (s) : Keeps s (faultEndCmd a0 s) := by
  unfold faultEndCmd
  grind [Keeps.refl, Keeps.trans, keeps_mk, Keeps.foldl, Keeps.foldlSnd, keeps_runCmd, keeps_faultEndBody, Ans.stateOr, Ans.ok, Ans.no]

theorem keeps_severityBody (a0 a1) (s) : Keeps s ((severityBody a0 a1 s).stateOr s) := by
  unfold severityBody
  grind [Keeps.refl, Keeps.trans, keeps_mk, Keeps.foldl, Keeps.foldlSnd, keeps_Ans_ok, keeps_setLevel, Ans.stateOr, Ans.ok, Ans.no]

theorem keeps_severityCmd (a0) (s) : Keeps s (severityCmd a0 s) := by
  unfold severityCmd
  grind [Keeps.refl, Keeps.trans, keeps_mk, Keeps.foldl, Keeps.foldlSnd, keeps_runCmd, keeps_severityBody, Ans.stateOr, Ans.ok, Ans.no]

theorem keeps_setPin (a0) (s) : Keeps s (setPin a0 s) := by
  unfold setPin
  grind [Keeps.refl, Keeps.trans, keeps_mk, Keeps.foldl, Keeps.foldlSnd, keeps_fset, keeps_showFault]

theorem keeps_faultPinBody (a0 a1) (s) : Keeps s ((faultPinBody a0 a1 s).stateOr s) := by
  unfold faultPinBody
  grind [Keeps.refl, Keeps.trans, keeps_mk, Keeps.foldl, Keeps.foldlSnd, keeps_Ans_ok, keeps_setPin, Ans.stateOr, Ans.ok, Ans.no]

theorem keeps_faultPinCmd (a0) (s) : Keeps s (faultPinCmd a0 s) := by
  unfold faultPinCmd
  grind [Keeps.refl, Keeps.trans, keeps_mk, Keeps.foldl, Keeps.foldlSnd, keeps_runCmd, keeps_faultPinBody, Ans.stateOr, Ans.ok, Ans.no]

theorem keeps_injectBody (a0 a1) (s) : Keeps s ((injectBody a0 a1 s).stateOr s) := by
  unfold injectBody
  grind [Keeps.refl, Keeps.trans, keeps_mk, Keeps.foldl, Keeps.foldlSnd, keeps_Ans_no, Ans.stateOr, Ans.ok, Ans.no]

theorem keeps_injectCmd (a0) (s) : Keeps s (injectCmd a0 s) := by
  unfold injectCmd
  grind [Keeps.refl, Keeps.trans, keeps_mk, Keeps.foldl, Keeps.foldlSnd, keeps_runCmd, keeps_injectBody, Ans.stateOr, Ans.ok, Ans.no]

theorem keeps_injectNow (a0) (s) : Keeps s (injectNow a0 s) := by
  unfold injectNow
  grind [Keeps.refl, Keeps.trans, keeps_mk, Keeps.foldl, Keeps.foldlSnd, keeps_sourceOccurs, keeps_emit]

theorem keeps_injectStep (a0) (s) : Keeps s (injectStep a0 s) := by
  unfold injectStep
  grind [Keeps.refl, Keeps.trans, keeps_mk, Keeps.foldl, Keeps.foldlSnd, keeps_injectNow, keeps_answerWait, keeps_setWait]

theorem keeps_pulseEnd (s) : Keeps s (pulseEnd s) := by
  unfold pulseEnd
  grind [Keeps.refl, Keeps.trans, keeps_mk, Keeps.foldl, Keeps.foldlSnd, keeps_showFault]

theorem keeps_localSafe (a0) (s) : Keeps s (localSafe a0 s) := by
  unfold localSafe
  grind [Keeps.refl, Keeps.trans, keeps_mk, Keeps.foldl, Keeps.foldlSnd, keeps_fenceStart, keeps_topoSet, keeps_showFault, keeps_selfSafe]

theorem keeps_writeSafeInfo (a0) (s) : Keeps s (writeSafeInfo a0 s) := by
  unfold writeSafeInfo
  grind [Keeps.refl, Keeps.trans, keeps_mk, Keeps.foldl, Keeps.foldlSnd, keeps_fset]

theorem keeps_stolonPoll (a0) (s) : Keeps s (stolonPoll a0 s) := by
  unfold stolonPoll
  grind [Keeps.refl, Keeps.trans, keeps_mk, Keeps.foldl, Keeps.foldlSnd, keeps_readUnseen]

theorem keeps_execFaultRing (a0) (s) : Keeps s (nextOr s (execFaultRing a0 s)) := by
  unfold execFaultRing
  grind [Keeps.refl, Keeps.trans, keeps_mk, Keeps.foldl, Keeps.foldlSnd, keeps_faultRingCmd, nextOr]

theorem keeps_execFaultResume (a0) (s) : Keeps s (nextOr s (execFaultResume a0 s)) := by
  unfold execFaultResume
  grind [Keeps.refl, Keeps.trans, keeps_mk, Keeps.foldl, Keeps.foldlSnd, keeps_faultResumeCmd, nextOr]

theorem keeps_execFaultEnd (a0) (s) : Keeps s (nextOr s (execFaultEnd a0 s)) := by
  unfold execFaultEnd
  grind [Keeps.refl, Keeps.trans, keeps_mk, Keeps.foldl, Keeps.foldlSnd, keeps_flushWaits, keeps_faultEndCmd, nextOr]

theorem keeps_execSeverity (a0) (s) : Keeps s (nextOr s (execSeverity a0 s)) := by
  unfold execSeverity
  grind [Keeps.refl, Keeps.trans, keeps_mk, Keeps.foldl, Keeps.foldlSnd, keeps_severityCmd, nextOr]

theorem keeps_execFaultPin (a0) (s) : Keeps s (nextOr s (execFaultPin a0 s)) := by
  unfold execFaultPin
  grind [Keeps.refl, Keeps.trans, keeps_mk, Keeps.foldl, Keeps.foldlSnd, keeps_faultPinCmd, nextOr]

theorem keeps_execFaultInject (a0) (s) : Keeps s (nextOr s (execFaultInject a0 s)) := by
  unfold execFaultInject
  grind [Keeps.refl, Keeps.trans, keeps_mk, Keeps.foldl, Keeps.foldlSnd, keeps_injectCmd, nextOr]

theorem keeps_execFaultInjectOccurrence (a0) (s) : Keeps s (nextOr s (execFaultInjectOccurrence a0 s)) := by
  unfold execFaultInjectOccurrence
  grind [Keeps.refl, Keeps.trans, keeps_mk, Keeps.foldl, Keeps.foldlSnd, keeps_injectStep, nextOr]

theorem keeps_execFaultSourceOccurrence (a0 a1) (s) : Keeps s (nextOr s (execFaultSourceOccurrence a0 a1 s)) := by
  unfold execFaultSourceOccurrence
  grind [Keeps.refl, Keeps.trans, keeps_mk, Keeps.foldl, Keeps.foldlSnd, keeps_sourceOccurs, nextOr]

theorem keeps_execFaultNPulseEnd (s) : Keeps s (nextOr s (execFaultNPulseEnd s)) := by
  unfold execFaultNPulseEnd
  grind [Keeps.refl, Keeps.trans, keeps_mk, Keeps.foldl, Keeps.foldlSnd, keeps_pulseEnd, nextOr]

theorem keeps_execLocalSafeState (a0) (s) : Keeps s (nextOr s (execLocalSafeState a0 s)) := by
  unfold execLocalSafeState
  grind [Keeps.refl, Keeps.trans, keeps_mk, Keeps.foldl, Keeps.foldlSnd, keeps_localSafe, nextOr]

theorem keeps_execSafeInfoClear (a0) (s) : Keeps s (nextOr s (execSafeInfoClear a0 s)) := by
  unfold execSafeInfoClear
  grind [Keeps.refl, Keeps.trans, keeps_mk, Keeps.foldl, Keeps.foldlSnd, keeps_writeSafeInfo, nextOr]

theorem keeps_execStolonFaultPoll (a0) (s) : Keeps s (nextOr s (execStolonFaultPoll a0 s)) := by
  unfold execStolonFaultPoll
  grind [Keeps.refl, Keeps.trans, keeps_mk, Keeps.foldl, Keeps.foldlSnd, keeps_stolonPoll, nextOr]

end Sys2Proof.Machine
end

