-- ==== Sys2Proof/Laws/KeepsReset.lean ====
section
/-! SUPPORT. Every operation of Sys2Proof/Machine/Reset.lean keeps what `Keeps` says. -/

namespace Sys2Proof.Machine

theorem keeps_updBoot (a0) (s) : Keeps s (updBoot a0 s) := by
  unfold updBoot
  grind [Keeps.refl, Keeps.trans, keeps_mk, Keeps.foldl, Keeps.foldlSnd]

theorem keeps_noteCause (a0) (s) : Keeps s (noteCause a0 s) := by
  unfold noteCause
  grind [Keeps.refl, Keeps.trans, keeps_mk, Keeps.foldl, Keeps.foldlSnd, keeps_fsetBit, keeps_fset]

theorem keeps_loadCut (s) : Keeps s (loadCut s) := by
  unfold loadCut
  grind [Keeps.refl, Keeps.trans, keeps_mk, Keeps.foldl, Keeps.foldlSnd, keeps_updBoot, keeps_fset]

theorem keeps_collNotices (s) : Keeps s (collNotices s) := by
  unfold collNotices
  grind [Keeps.refl, Keeps.trans, keeps_mk, Keeps.foldl, Keeps.foldlSnd, keeps_notifyPeers]

theorem keeps_abandonTags (s) : Keeps s (abandonTags s) := by
  unfold abandonTags
  grind [Keeps.refl, Keeps.trans, keeps_mk, Keeps.foldl, Keeps.foldlSnd]

theorem keeps_doCoreReset (s) : Keeps s (doCoreReset s) := by
  unfold doCoreReset
  dsimp only
  refine Keeps.trans ?_ (keeps_flushWaits ..)
  have h1 := ((keeps_loadCut s).trans (keeps_collNotices ..)).trans (keeps_abandonTags ..)
  generalize abandonTags (collNotices (loadCut s)) = u1 at h1 ⊢
  have h2 (op : Nat) (a b : Nat) (u : State) : Keeps u ((u.waits.filter (fun w => w.op == op)).foldl
      (fun s w => answerWait w a b (colNow s) [] s) u) := Keeps.foldl _ _ u (fun _ _ => keeps_answerWait ..)
  have h3 := (h1.trans (h2 0x300 rsState 0 u1)).trans (h2 0x304 rsNotFound 0 _)
  generalize List.foldl _ (List.foldl _ u1 _) _ = u2 at h3 ⊢
  have h4 : Keeps s ((List.range (nDies u2)).foldl (fun s d => stopCals (8 + d) rsState 4 s) u2) :=
    h3.trans (Keeps.foldl _ _ u2 (fun _ _ => keeps_stopCals ..))
  generalize List.foldl _ u2 _ = u3 at h4 ⊢
  generalize hu : State.mk .. = u4
  have h5 : Keeps s u4 := hu ▸ h4.trans (keeps_mk ..)
  have h6 : Keeps s ((List.range (nCores u4)).foldl (fun s c => bindAdvance c s) u4) :=
    h5.trans (Keeps.foldl _ _ u4 (fun _ _ => keeps_bindAdvance ..))
  have h7 (a b) := (h6.trans (keeps_fsetBit rSEC_BOOT_STATUS fSEC_BOOT_STATUS_BANKS 1 a _)).trans (keeps_regPut rRST_TIME b _)
  generalize List.foldl _ u4 _ = u5 at h7 ⊢
  have h7 := h7 (Mp.get 0 u5.sec.active 1 == 1) (BitVec.ofNat 64 (stampAt (fsetBit rSEC_BOOT_STATUS fSEC_BOOT_STATUS_BANKS 1
    (Mp.get 0 u5.sec.active 1 == 1) u5) 64))
  generalize regPut rRST_TIME _ _ = u6 at h7 ⊢
  have h8 : Keeps s ((List.range 64).foldl (fun s f => if fnEnabled s f then signalVector f 0 s else s) u6) :=
    h7.trans (Keeps.foldl _ _ u6 (fun _ _ => Keeps.ite (keeps_signalVector ..) (Keeps.refl _)))
  generalize List.foldl _ u6 _ = u7 at h8 ⊢
  exact Keeps.ite (h8.trans (keeps_updBoot ..)) h8

theorem keeps_pinsReset (s) : Keeps s (pinsReset s) := by
  unfold pinsReset
  grind [Keeps.refl, Keeps.trans, keeps_mk, Keeps.foldl, Keeps.foldlSnd, keeps_emit]

theorem keeps_coreReset (a0) (s) : Keeps s (coreReset a0 s) := by
  unfold coreReset
  grind [Keeps.refl, Keeps.trans, keeps_mk, Keeps.foldl, Keeps.foldlSnd, keeps_noteCause, keeps_doCoreReset]

theorem keeps_clearedState (s) : Keeps s (clearedState s) := .of_mem rfl rfl rfl rfl (fun _ => rfl)

theorem keeps_systemCleared (s) : Keeps s (systemCleared s) := by
  unfold systemCleared
  dsimp only
  have h1 : Keeps s (clearedState s) := keeps_clearedState s
  generalize clearedState s = b at h1 ⊢
  have h2 : Keeps s ((epochs s).foldl (fun b p => regPut p.1 p.2 b) b) := h1.trans (Keeps.foldl _ _ b (fun _ _ => keeps_regPut ..))
  exact (((((h2.trans (keeps_regPut ..)).trans (keeps_fset ..)).trans (keeps_fset ..)).trans (keeps_fset ..)).trans
    (keeps_fset ..)).trans (keeps_mk ..)

theorem keeps_systemReset (a0) (s) : Keeps s (systemReset a0 s) := by
  unfold systemReset
  grind [Keeps.refl, Keeps.trans, keeps_mk, Keeps.foldl, Keeps.foldlSnd, keeps_noteCause, keeps_systemCleared, keeps_loadCut]

theorem keeps_powerReset (a0 a1) (s) : Keeps s (powerReset a0 a1 s) := by
  unfold powerReset
  dsimp only
  refine Keeps.trans ?_ (keeps_regPut ..)
  exact .of_mem rfl rfl rfl rfl (fun _ => rfl)

theorem keeps_brownOut (s) : Keeps s (brownOut s) := by
  unfold brownOut
  grind [Keeps.refl, Keeps.trans, keeps_mk, Keeps.foldl, Keeps.foldlSnd, keeps_powerReset]

theorem keeps_perstAssert (s) : Keeps s (perstAssert s) := by
  unfold perstAssert
  grind [Keeps.refl, Keeps.trans, keeps_mk, Keeps.foldl, Keeps.foldlSnd, keeps_updBoot, keeps_occurs, keeps_systemReset, keeps_noteCause, keeps_qpDrop, keeps_regPut]

theorem keeps_perstRelease (s) : Keeps s (perstRelease s) := by
  unfold perstRelease
  grind [Keeps.refl, Keeps.trans, keeps_mk, Keeps.foldl, Keeps.foldlSnd, keeps_updBoot]

theorem keeps_watchdog (s) : Keeps s (watchdog s) := by
  unfold watchdog
  grind [Keeps.refl, Keeps.trans, keeps_mk, Keeps.foldl, Keeps.foldlSnd, keeps_systemReset]

theorem keeps_critError (a0 a1 a2) (s) : Keeps s (critError a0 a1 a2 s) := by
  unfold critError
  grind [Keeps.refl, Keeps.trans, keeps_mk, Keeps.foldl, Keeps.foldlSnd, keeps_fcount, keeps_occurs, keeps_powerReset, keeps_systemReset, keeps_coreReset, keeps_fset]

theorem keeps_writeRstCtrl (a0) (s) : Keeps s (writeRstCtrl a0 s) := by
  unfold writeRstCtrl
  grind [Keeps.refl, Keeps.trans, keeps_mk, Keeps.foldl, Keeps.foldlSnd, keeps_systemReset, keeps_coreReset]

theorem keeps_autoReset (s) : Keeps s (autoReset s) := by
  unfold autoReset
  grind [Keeps.refl, Keeps.trans, keeps_mk, Keeps.foldl, Keeps.foldlSnd, keeps_systemReset]

theorem keeps_phaseFails (s) : Keeps s (phaseFails s) := by
  unfold phaseFails
  grind [Keeps.refl, Keeps.trans, keeps_mk, Keeps.foldl, Keeps.foldlSnd, keeps_fset, keeps_occurs, keeps_brownOut]

theorem keeps_loadFields (a0 a1) (s) : Keeps s (loadFields a0 a1 s) := by
  unfold loadFields
  grind [Keeps.refl, Keeps.trans, keeps_mk, Keeps.foldl, Keeps.foldlSnd, keeps_fset]

theorem keeps_optionDefaults (s) : Keeps s (optionDefaults s) := by
  unfold optionDefaults
  grind [Keeps.refl, Keeps.trans, keeps_mk, Keeps.foldl, Keeps.foldlSnd, keeps_fset]

theorem keeps_checkImage (a0) (s) : Keeps s (sumState s (checkImage a0 s)) := by
  unfold checkImage
  grind [Keeps.refl, Keeps.trans, keeps_mk, Keeps.foldl, Keeps.foldlSnd, keeps_loadFields, keeps_optionDefaults, sumState]

theorem keeps_safeDefaults (s) : Keeps s (safeDefaults s) := by
  unfold safeDefaults
  grind [Keeps.refl, Keeps.trans, keeps_mk, Keeps.foldl, Keeps.foldlSnd, keeps_optionDefaults, keeps_fset, keeps_occurs, keeps_updBoot]

theorem keeps_winnow (a0 a1) (s) : Keeps s (winnow a0 a1 s) := by
  unfold winnow
  grind [Keeps.refl, Keeps.trans, keeps_mk, Keeps.foldl, Keeps.foldlSnd, keeps_occurs, keeps_fset, keeps_checkImage, keeps_updBoot, keeps_safeDefaults, sumState]

theorem keeps_drawChallenge (s) : Keeps s (drawChallenge s) := by
  unfold drawChallenge
  grind [Keeps.refl, Keeps.trans, keeps_mk, Keeps.foldl, Keeps.foldlSnd, keeps_nextFree, keeps_fset]

theorem keeps_colRelease (s) : Keeps s (colRelease s) := by
  unfold colRelease
  grind [Keeps.refl, Keeps.trans, keeps_mk, Keeps.foldl, Keeps.foldlSnd, keeps_nextFree, keeps_fset, keeps_regPut, keeps_drawChallenge, keeps_showFault, keeps_updBoot, keeps_safeDefaults]

theorem keeps_noteStable (a0) (s) : Keeps s (noteStable a0 s) := by
  unfold noteStable
  grind [Keeps.refl, Keeps.trans, keeps_mk, Keeps.foldl, Keeps.foldlSnd, keeps_updBoot]

theorem keeps_blockRelease (a0) (s) : Keeps s (blockRelease a0 s) := by
  unfold blockRelease
  grind [Keeps.refl, Keeps.trans, keeps_mk, Keeps.foldl, Keeps.foldlSnd, keeps_colRelease, keeps_stacksUp, keeps_topoSet, keeps_noteStable, keeps_fsetBit, keeps_dieClocks, keeps_fset]

theorem keeps_writeHold (a0) (s) : Keeps s (writeHold a0 s) := by
  unfold writeHold
  grind [Keeps.refl, Keeps.trans, keeps_mk, Keeps.foldl, Keeps.foldlSnd, keeps_fsetBit]

theorem keeps_becomeReady (s) : Keeps s (becomeReady s) := by
  unfold becomeReady
  dsimp only
  refine Keeps.ite (Keeps.refl s) (Keeps.ite (keeps_mk ..) (Keeps.ite (keeps_mk ..) ?_))
  refine ⟨rfl, List.suffix_refl _, le_refl _, rfl, fun _ h => h, fun k hk => ?_, fun h => h⟩
  have h : (List.range 4)[k]? = some k := by simp [hk]
  simp only [List.getElem?_map, h, Option.map_some, Option.getD_some]
  generalize min 64 _ = m
  generalize (s.fuses.rbc[k]?).getD 0 = r
  repeat' split
  all_goals omega

theorem keeps_bootRom (a0) (s) : Keeps s (bootRom a0 s) := by
  unfold bootRom
  grind [Keeps.refl, Keeps.trans, keeps_mk, Keeps.foldl, Keeps.foldlSnd, keeps_fset, keeps_updBoot, keeps_becomeReady, keeps_occurs]

theorem keeps_firmwareRuns (s) : Keeps s (firmwareRuns s) := by
  unfold firmwareRuns
  grind [Keeps.refl, Keeps.trans, keeps_mk, Keeps.foldl, Keeps.foldlSnd, keeps_becomeReady, keeps_updBoot]

theorem keeps_setCoef (a0 a1 a2 a3) (s) : Keeps s (setCoef a0 a1 a2 a3 s) := by
  unfold setCoef
  grind [Keeps.refl, Keeps.trans, keeps_mk, Keeps.foldl, Keeps.foldlSnd]

theorem keeps_takeOverride (a0) (s) : Keeps s (takeOverride a0 s) := by
  unfold takeOverride
  grind [Keeps.refl, Keeps.trans, keeps_mk, Keeps.foldl, Keeps.foldlSnd, keeps_setCoef]

theorem keeps_linkTrain (a0 a1 a2 a3) (s) : Keeps s (linkTrain a0 a1 a2 a3 s) := by
  unfold linkTrain
  grind [Keeps.refl, Keeps.trans, keeps_mk, Keeps.foldl, Keeps.foldlSnd, keeps_fcount, keeps_takeOverride, keeps_fset, keeps_becomeReady]

theorem keeps_coefRequest (a0 a1 a2 a3) (s) : Keeps s (coefRequest a0 a1 a2 a3 s) := by
  unfold coefRequest
  grind [Keeps.refl, Keeps.trans, keeps_mk, Keeps.foldl, Keeps.foldlSnd, keeps_setCoef]

theorem keeps_hostEye (a0 a1) (s) : Keeps s (hostEye a0 a1 s) := by
  unfold hostEye
  grind [Keeps.refl, Keeps.trans, keeps_mk, Keeps.foldl, Keeps.foldlSnd, keeps_regPut]

theorem keeps_loopIn (s) : Keeps s (loopIn s) := by
  unfold loopIn
  grind [Keeps.refl, Keeps.trans, keeps_mk, Keeps.foldl, Keeps.foldlSnd, keeps_fset, keeps_regPut]

theorem keeps_loopOut (a0) (s) : Keeps s (loopOut a0 s) := by
  unfold loopOut
  grind [Keeps.refl, Keeps.trans, keeps_mk, Keeps.foldl, Keeps.foldlSnd, keeps_fset, keeps_fcount]

theorem keeps_linkLost (a0) (s) : Keeps s (linkLost a0 s) := by
  unfold linkLost
  grind [Keeps.refl, Keeps.trans, keeps_mk, Keeps.foldl, Keeps.foldlSnd, keeps_occurs, keeps_fset]

theorem keeps_execPowerOn (s) : Keeps s (nextOr s (execPowerOn s)) := by
  unfold execPowerOn
  grind [Keeps.refl, Keeps.trans, keeps_mk, Keeps.foldl, Keeps.foldlSnd, keeps_pinsReset, keeps_updBoot, nextOr]

theorem keeps_execRailsComplete (s) : Keeps s (nextOr s (execRailsComplete s)) := by
  unfold execRailsComplete
  grind [Keeps.refl, Keeps.trans, keeps_mk, Keeps.foldl, Keeps.foldlSnd, keeps_updBoot, nextOr]

theorem keeps_execBor (s) : Keeps s (nextOr s (execBor s)) := by
  unfold execBor
  grind [Keeps.refl, Keeps.trans, keeps_mk, Keeps.foldl, Keeps.foldlSnd, keeps_brownOut, nextOr]

theorem keeps_execOvs (s) : Keeps s (nextOr s (execOvs s)) := by
  unfold execOvs
  grind [Keeps.refl, Keeps.trans, keeps_mk, Keeps.foldl, Keeps.foldlSnd, keeps_powerReset, nextOr]

theorem keeps_execPhaseLost (s) : Keeps s (nextOr s (execPhaseLost s)) := by
  unfold execPhaseLost
  grind [Keeps.refl, Keeps.trans, keeps_mk, Keeps.foldl, Keeps.foldlSnd, keeps_phaseFails, nextOr]

theorem keeps_execMrst (s) : Keeps s (nextOr s (execMrst s)) := by
  unfold execMrst
  grind [Keeps.refl, Keeps.trans, keeps_mk, Keeps.foldl, Keeps.foldlSnd, keeps_systemReset, nextOr]

theorem keeps_execMrstLong (s) : Keeps s (nextOr s (execMrstLong s)) := by
  unfold execMrstLong
  grind [Keeps.refl, Keeps.trans, keeps_mk, Keeps.foldl, Keeps.foldlSnd, keeps_powerReset, nextOr]

theorem keeps_execPerst (s) : Keeps s (nextOr s (execPerst s)) := by
  unfold execPerst
  grind [Keeps.refl, Keeps.trans, keeps_mk, Keeps.foldl, Keeps.foldlSnd, keeps_perstAssert, nextOr]

theorem keeps_execPerstDeassert (s) : Keeps s (nextOr s (execPerstDeassert s)) := by
  unfold execPerstDeassert
  grind [Keeps.refl, Keeps.trans, keeps_mk, Keeps.foldl, Keeps.foldlSnd, keeps_perstRelease, nextOr]

theorem keeps_execWdog (s) : Keeps s (nextOr s (execWdog s)) := by
  unfold execWdog
  grind [Keeps.refl, Keeps.trans, keeps_mk, Keeps.foldl, Keeps.foldlSnd, keeps_watchdog, nextOr]

theorem keeps_execCrit (a0 a1 a2) (s) : Keeps s (nextOr s (execCrit a0 a1 a2 s)) := by
  unfold execCrit
  grind [Keeps.refl, Keeps.trans, keeps_mk, Keeps.foldl, Keeps.foldlSnd, keeps_critError, nextOr]

theorem keeps_execSwSys (a0) (s) : Keeps s (nextOr s (execSwSys a0 s)) := by
  unfold execSwSys
  grind [Keeps.refl, Keeps.trans, keeps_mk, Keeps.foldl, Keeps.foldlSnd, keeps_writeRstCtrl, nextOr]

theorem keeps_execSwCore (a0) (s) : Keeps s (nextOr s (execSwCore a0 s)) := by
  unfold execSwCore
  grind [Keeps.refl, Keeps.trans, keeps_mk, Keeps.foldl, Keeps.foldlSnd, keeps_writeRstCtrl, nextOr]

theorem keeps_execSafeAutoReset (s) : Keeps s (nextOr s (execSafeAutoReset s)) := by
  unfold execSafeAutoReset
  grind [Keeps.refl, Keeps.trans, keeps_mk, Keeps.foldl, Keeps.foldlSnd, keeps_autoReset, nextOr]

theorem keeps_execHoldReleaseRequest (a0) (s) : Keeps s (nextOr s (execHoldReleaseRequest a0 s)) := by
  unfold execHoldReleaseRequest
  grind [Keeps.refl, Keeps.trans, keeps_mk, Keeps.foldl, Keeps.foldlSnd, keeps_writeHold, nextOr]

theorem keeps_execBlockResetRelease (a0) (s) : Keeps s (nextOr s (execBlockResetRelease a0 s)) := by
  unfold execBlockResetRelease
  grind [Keeps.refl, Keeps.trans, keeps_mk, Keeps.foldl, Keeps.foldlSnd, keeps_blockRelease, nextOr]

theorem keeps_execWinnowerLoadComplete (a0 a1) (s) : Keeps s (nextOr s (execWinnowerLoadComplete a0 a1 s)) := by
  unfold execWinnowerLoadComplete
  grind [Keeps.refl, Keeps.trans, keeps_mk, Keeps.foldl, Keeps.foldlSnd, keeps_winnow, nextOr]

theorem keeps_execRomBoot (a0) (s) : Keeps s (nextOr s (execRomBoot a0 s)) := by
  unfold execRomBoot
  grind [Keeps.refl, Keeps.trans, keeps_mk, Keeps.foldl, Keeps.foldlSnd, keeps_bootRom, nextOr]

theorem keeps_execFirmwareReady (s) : Keeps s (nextOr s (execFirmwareReady s)) := by
  unfold execFirmwareReady
  grind [Keeps.refl, Keeps.trans, keeps_mk, Keeps.foldl, Keeps.foldlSnd, keeps_firmwareRuns, nextOr]

theorem keeps_execPcieLinkTraining (a0 a1 a2 a3) (s) : Keeps s (nextOr s (execPcieLinkTraining a0 a1 a2 a3 s)) := by
  unfold execPcieLinkTraining
  grind [Keeps.refl, Keeps.trans, keeps_mk, Keeps.foldl, Keeps.foldlSnd, keeps_linkTrain, nextOr]

theorem keeps_execEqCoefficientRequest (a0 a1 a2 a3) (s) : Keeps s (nextOr s (execEqCoefficientRequest a0 a1 a2 a3 s)) := by
  unfold execEqCoefficientRequest
  grind [Keeps.refl, Keeps.trans, keeps_mk, Keeps.foldl, Keeps.foldlSnd, keeps_coefRequest, nextOr]

theorem keeps_execHostEyeScanPass (a0 a1) (s) : Keeps s (nextOr s (execHostEyeScanPass a0 a1 s)) := by
  unfold execHostEyeScanPass
  grind [Keeps.refl, Keeps.trans, keeps_mk, Keeps.foldl, Keeps.foldlSnd, keeps_hostEye, nextOr]

theorem keeps_execLoopbackEntry (s) : Keeps s (nextOr s (execLoopbackEntry s)) := by
  unfold execLoopbackEntry
  grind [Keeps.refl, Keeps.trans, keeps_mk, Keeps.foldl, Keeps.foldlSnd, keeps_loopIn, nextOr]

theorem keeps_execLoopbackExit (a0) (s) : Keeps s (nextOr s (execLoopbackExit a0 s)) := by
  unfold execLoopbackExit
  grind [Keeps.refl, Keeps.trans, keeps_mk, Keeps.foldl, Keeps.foldlSnd, keeps_loopOut, nextOr]

theorem keeps_execHostLinkDown (a0) (s) : Keeps s (nextOr s (execHostLinkDown a0 s)) := by
  unfold execHostLinkDown
  grind [Keeps.refl, Keeps.trans, keeps_mk, Keeps.foldl, Keeps.foldlSnd, keeps_linkLost, nextOr]

end Sys2Proof.Machine
end

