-- ==== Sys2Proof/Laws/KeepsSecurity.lean ====
section
/-! SUPPORT. Every operation of Sys2Proof/Machine/Security.lean keeps what `Keeps` says. -/

namespace Sys2Proof.Machine

theorem keeps_certBody (a0 a1) (s) : Keeps s ((certBody a0 a1 s).stateOr s) := by
  unfold certBody
  grind [Keeps.refl, Keeps.trans, keeps_mk, Keeps.foldl, Keeps.foldlSnd, keeps_Ans_ok, Ans.stateOr, Ans.ok, Ans.no]

theorem keeps_certCmd (a0) (s) : Keeps s (certCmd a0 s) := by
  unfold certCmd
  grind [Keeps.refl, Keeps.trans, keeps_mk, Keeps.foldl, Keeps.foldlSnd, keeps_runCmd, keeps_certBody, Ans.stateOr, Ans.ok, Ans.no]

theorem keeps_stageBody (a0 a1 a2) (s) : Keeps s ((stageBody a0 a1 a2 s).stateOr s) := by
  unfold stageBody
  grind [Keeps.refl, Keeps.trans, keeps_mk, Keeps.foldl, Keeps.foldlSnd, keeps_Ans_ok, Ans.stateOr, Ans.ok, Ans.no]

theorem keeps_stageCmd (a0) (s) : Keeps s (stageCmd a0 s) := by
  unfold stageCmd
  grind [Keeps.refl, Keeps.trans, keeps_mk, Keeps.foldl, Keeps.foldlSnd, keeps_runCmd, keeps_Ans_no, keeps_stageBody, Ans.stateOr, Ans.ok, Ans.no]

theorem keeps_activateBody (a0 a1) (s) : Keeps s ((activateBody a0 a1 s).stateOr s) := by
  unfold activateBody
  dsimp only
  split
  · refine ⟨rfl, List.suffix_refl _, le_refl _, rfl, fun i h => ?_, fun _ _ => le_refl _, fun h => h⟩
    show Nat.testBit (s.fuses.rootRevoked ||| _) i = true
    rw [Nat.testBit_or, h, Bool.true_or]
  · exact Keeps.refl s

theorem keeps_activateCmd (a0) (s) : Keeps s (activateCmd a0 s) := by
  unfold activateCmd
  grind [Keeps.refl, Keeps.trans, keeps_mk, Keeps.foldl, Keeps.foldlSnd, keeps_runCmd, keeps_activateBody, Ans.stateOr, Ans.ok, Ans.no]

theorem keeps_rollbackBody (a0 a1) (s) : Keeps s ((rollbackBody a0 a1 s).stateOr s) := by
  unfold rollbackBody
  grind [Keeps.refl, Keeps.trans, keeps_mk, Keeps.foldl, Keeps.foldlSnd, keeps_Ans_ok, Ans.stateOr, Ans.ok, Ans.no]

theorem keeps_rollbackCmd (a0) (s) : Keeps s (rollbackCmd a0 s) := by
  unfold rollbackCmd
  grind [Keeps.refl, Keeps.trans, keeps_mk, Keeps.foldl, Keeps.foldlSnd, keeps_runCmd, keeps_rollbackBody, Ans.stateOr, Ans.ok, Ans.no]

theorem keeps_attestBody (a0 a1) (s) : Keeps s ((attestBody a0 a1 s).stateOr s) := by
  unfold attestBody
  grind [Keeps.refl, Keeps.trans, keeps_mk, Keeps.foldl, Keeps.foldlSnd, keeps_Ans_ok, Ans.stateOr, Ans.ok, Ans.no]

theorem keeps_attestCmd (a0) (s) : Keeps s (attestCmd a0 s) := by
  unfold attestCmd
  grind [Keeps.refl, Keeps.trans, keeps_mk, Keeps.foldl, Keeps.foldlSnd, keeps_runCmd, keeps_attestBody, Ans.stateOr, Ans.ok, Ans.no]

theorem keeps_factoryEnterBody (a0 a1 a2) (s) : Keeps s ((factoryEnterBody a0 a1 a2 s).stateOr s) := by
  unfold factoryEnterBody
  grind [Keeps.refl, Keeps.trans, keeps_mk, Keeps.foldl, Keeps.foldlSnd, keeps_Ans_no, keeps_drawChallenge, keeps_fset, keeps_Ans_ok, Ans.stateOr, Ans.ok, Ans.no]

theorem keeps_factoryEnterCmd (a0) (s) : Keeps s (factoryEnterCmd a0 s) := by
  unfold factoryEnterCmd
  grind [Keeps.refl, Keeps.trans, keeps_mk, Keeps.foldl, Keeps.foldlSnd, keeps_runCmd, keeps_factoryEnterBody, Ans.stateOr, Ans.ok, Ans.no]

theorem keeps_closeTap (s) : Keeps s (closeTap s) := by
  unfold closeTap
  grind [Keeps.refl, Keeps.trans, keeps_mk, Keeps.foldl, Keeps.foldlSnd, keeps_regPut]

theorem keeps_factoryExitBody (a0 a1) (s) : Keeps s ((factoryExitBody a0 a1 s).stateOr s) := by
  unfold factoryExitBody
  grind [Keeps.refl, Keeps.trans, keeps_mk, Keeps.foldl, Keeps.foldlSnd, keeps_Ans_ok, keeps_closeTap, keeps_regPut, Ans.stateOr, Ans.ok, Ans.no]

theorem keeps_factoryExitCmd (a0) (s) : Keeps s (factoryExitCmd a0 s) := by
  unfold factoryExitCmd
  grind [Keeps.refl, Keeps.trans, keeps_mk, Keeps.foldl, Keeps.foldlSnd, keeps_runCmd, keeps_factoryExitBody, Ans.stateOr, Ans.ok, Ans.no]

theorem keeps_logBody (a0 a1 a2) (s) : Keeps s ((logBody a0 a1 a2 s).stateOr s) := by
  unfold logBody
  grind [Keeps.refl, Keeps.trans, keeps_mk, Keeps.foldl, Keeps.foldlSnd, keeps_Ans_ok, keeps_nextFree, Ans.stateOr, Ans.ok, Ans.no]

theorem keeps_logCmd (a0) (s) : Keeps s (logCmd a0 s) := by
  unfold logCmd
  grind [Keeps.refl, Keeps.trans, keeps_mk, Keeps.foldl, Keeps.foldlSnd, keeps_runCmd, keeps_logBody, Ans.stateOr, Ans.ok, Ans.no]

theorem keeps_execCertRead (a0) (s) : Keeps s (nextOr s (execCertRead a0 s)) := by
  unfold execCertRead
  grind [Keeps.refl, Keeps.trans, keeps_mk, Keeps.foldl, Keeps.foldlSnd, keeps_certCmd, nextOr]

theorem keeps_execFwStage (a0) (s) : Keeps s (nextOr s (execFwStage a0 s)) := by
  unfold execFwStage
  grind [Keeps.refl, Keeps.trans, keeps_mk, Keeps.foldl, Keeps.foldlSnd, keeps_stageCmd, nextOr]

theorem keeps_execFwActivate (a0) (s) : Keeps s (nextOr s (execFwActivate a0 s)) := by
  unfold execFwActivate
  grind [Keeps.refl, Keeps.trans, keeps_mk, Keeps.foldl, Keeps.foldlSnd, keeps_activateCmd, nextOr]

theorem keeps_execRollbackRead (a0) (s) : Keeps s (nextOr s (execRollbackRead a0 s)) := by
  unfold execRollbackRead
  grind [Keeps.refl, Keeps.trans, keeps_mk, Keeps.foldl, Keeps.foldlSnd, keeps_rollbackCmd, nextOr]

theorem keeps_execAttest (a0) (s) : Keeps s (nextOr s (execAttest a0 s)) := by
  unfold execAttest
  grind [Keeps.refl, Keeps.trans, keeps_mk, Keeps.foldl, Keeps.foldlSnd, keeps_attestCmd, nextOr]

theorem keeps_execFactoryEnter (a0) (s) : Keeps s (nextOr s (execFactoryEnter a0 s)) := by
  unfold execFactoryEnter
  grind [Keeps.refl, Keeps.trans, keeps_mk, Keeps.foldl, Keeps.foldlSnd, keeps_factoryEnterCmd, nextOr]

theorem keeps_execFactoryExit (a0) (s) : Keeps s (nextOr s (execFactoryExit a0 s)) := by
  unfold execFactoryExit
  grind [Keeps.refl, Keeps.trans, keeps_mk, Keeps.foldl, Keeps.foldlSnd, keeps_factoryExitCmd, nextOr]

theorem keeps_execLogRead (a0) (s) : Keeps s (nextOr s (execLogRead a0 s)) := by
  unfold execLogRead
  grind [Keeps.refl, Keeps.trans, keeps_mk, Keeps.foldl, Keeps.foldlSnd, keeps_logCmd, nextOr]

end Sys2Proof.Machine
end

