-- ==== Sys2Proof/Laws/KeepsHooks.lean ====
section
/-! SUPPORT. Every operation of Sys2Proof/Machine/Hooks.lean keeps what `Keeps` says. -/

namespace Sys2Proof.Machine

theorem keeps_updHook (a0 a1) (s) : Keeps s (updHook a0 a1 s) := by
  unfold updHook
  grind [Keeps.refl, Keeps.trans, keeps_mk, Keeps.foldl, Keeps.foldlSnd]

theorem keeps_runHook (a0) (s) : Keeps s (runHook a0 s) := by
  unfold runHook
  grind [Keeps.refl, Keeps.trans, keeps_mk, Keeps.foldl, Keeps.foldlSnd, keeps_updHook, keeps_emit]

end Sys2Proof.Machine
end

