-- ==== Sys2Proof/Laws/KeepsCalib.lean ====
section
/-! SUPPORT. Every operation of Sys2Proof/Machine/Calib.lean keeps what `Keeps` says. -/

namespace Sys2Proof.Machine

theorem keeps_calRunBody (a0 a1) (s) : Keeps s ((calRunBody a0 a1 s).stateOr s) := by
  unfold calRunBody
  grind [Keeps.refl, Keeps.trans, keeps_mk, Keeps.foldl, Keeps.foldlSnd, keeps_Ans_no, keeps_retrain, keeps_dieClocks, keeps_fset, Ans.stateOr, Ans.ok, Ans.no]

theorem keeps_calRunCmd (a0) (s) : Keeps s (calRunCmd a0 s) := by
  unfold calRunCmd
  grind [Keeps.refl, Keeps.trans, keeps_mk, Keeps.foldl, Keeps.foldlSnd, keeps_runCmd, keeps_calRunBody, Ans.stateOr, Ans.ok, Ans.no]

theorem keeps_calApply (a0 a1 a2 a3) (s) : Keeps s (calApply a0 a1 a2 a3 s) := by
  unfold calApply
  grind [Keeps.refl, Keeps.trans, keeps_mk, Keeps.foldl, Keeps.foldlSnd, keeps_regPut, keeps_fset, keeps_pam4Write]

theorem keeps_droopOver (a0 a1 a2) (s) : Keeps s (droopOver a0 a1 a2 s) := by
  unfold droopOver
  grind [Keeps.refl, Keeps.trans, keeps_mk, Keeps.foldl, Keeps.foldlSnd, keeps_regPut]

theorem keeps_calDone (a0 a1 a2 a3 a4) (s) : Keeps s (calDone a0 a1 a2 a3 a4 s) := by
  unfold calDone
  grind [Keeps.refl, Keeps.trans, keeps_mk, Keeps.foldl, Keeps.foldlSnd, keeps_droopOver, keeps_answerWait, keeps_calApply]

theorem keeps_calStatusBody (a0 a1) (s) : Keeps s ((calStatusBody a0 a1 s).stateOr s) := by
  unfold calStatusBody
  grind [Keeps.refl, Keeps.trans, keeps_mk, Keeps.foldl, Keeps.foldlSnd, keeps_Ans_ok, Ans.stateOr, Ans.ok, Ans.no]

theorem keeps_calStatusCmd (a0) (s) : Keeps s (calStatusCmd a0 s) := by
  unfold calStatusCmd
  grind [Keeps.refl, Keeps.trans, keeps_mk, Keeps.foldl, Keeps.foldlSnd, keeps_runCmd, keeps_calStatusBody, Ans.stateOr, Ans.ok, Ans.no]

theorem keeps_tapLoad (a0 a1) (s) : Keeps s (tapLoad a0 a1 s) := by
  unfold tapLoad
  grind [Keeps.refl, Keeps.trans, keeps_mk, Keeps.foldl, Keeps.foldlSnd, keeps_fset, keeps_showFault]

theorem keeps_tapPrivate (a0 a1) (s) : Keeps s (tapPrivate a0 a1 s) := by
  unfold tapPrivate
  grind [Keeps.refl, Keeps.trans, keeps_mk, Keeps.foldl, Keeps.foldlSnd, keeps_tapLoad, keeps_fenceStart, keeps_fsetBit, keeps_fset, keeps_runHook]

theorem keeps_tapReset (s) : Keeps s (tapReset s) := by
  unfold tapReset
  grind [Keeps.refl, Keeps.trans, keeps_mk, Keeps.foldl, Keeps.foldlSnd, keeps_regPut, keeps_tapLoad]

theorem keeps_execCalRun (a0) (s) : Keeps s (nextOr s (execCalRun a0 s)) := by
  unfold execCalRun
  grind [Keeps.refl, Keeps.trans, keeps_mk, Keeps.foldl, Keeps.foldlSnd, keeps_calRunCmd, nextOr]

theorem keeps_execCalStatus (a0) (s) : Keeps s (nextOr s (execCalStatus a0 s)) := by
  unfold execCalStatus
  grind [Keeps.refl, Keeps.trans, keeps_mk, Keeps.foldl, Keeps.foldlSnd, keeps_calStatusCmd, nextOr]

theorem keeps_execCalibrationComplete (a0 a1 a2 a3 a4) (s) : Keeps s (nextOr s (execCalibrationComplete a0 a1 a2 a3 a4 s)) := by
  unfold execCalibrationComplete
  grind [Keeps.refl, Keeps.trans, keeps_mk, Keeps.foldl, Keeps.foldlSnd, keeps_calDone, nextOr]

theorem keeps_execExtest (a0) (s) : Keeps s (nextOr s (execExtest a0 s)) := by
  unfold execExtest
  grind [Keeps.refl, Keeps.trans, keeps_mk, Keeps.foldl, Keeps.foldlSnd, keeps_tapLoad, nextOr]

theorem keeps_execIdcode (s) : Keeps s (nextOr s (execIdcode s)) := by
  unfold execIdcode
  grind [Keeps.refl, Keeps.trans, keeps_mk, Keeps.foldl, Keeps.foldlSnd, keeps_emit, keeps_tapLoad, nextOr]

theorem keeps_execBypass (s) : Keeps s (nextOr s (execBypass s)) := by
  unfold execBypass
  grind [Keeps.refl, Keeps.trans, keeps_mk, Keeps.foldl, Keeps.foldlSnd, keeps_tapLoad, nextOr]

theorem keeps_execSamplePreload (a0) (s) : Keeps s (nextOr s (execSamplePreload a0 s)) := by
  unfold execSamplePreload
  grind [Keeps.refl, Keeps.trans, keeps_mk, Keeps.foldl, Keeps.foldlSnd, keeps_emit, keeps_tapLoad, nextOr]

theorem keeps_execPrivateTestInstruction (a0) (s) : Keeps s (nextOr s (execPrivateTestInstruction a0 s)) := by
  unfold execPrivateTestInstruction
  grind [Keeps.refl, Keeps.trans, keeps_mk, Keeps.foldl, Keeps.foldlSnd, keeps_tapPrivate, nextOr]

theorem keeps_execTrstN (s) : Keeps s (nextOr s (execTrstN s)) := by
  unfold execTrstN
  grind [Keeps.refl, Keeps.trans, keeps_mk, Keeps.foldl, Keeps.foldlSnd, keeps_tapReset, nextOr]

end Sys2Proof.Machine
end

