-- ==== Sys2Proof/Laws/KeepsCairn.lean ====
section
/-! SUPPORT. Every operation of Sys2Proof/Machine/Cairn.lean keeps what `Keeps` says. -/

namespace Sys2Proof.Machine

theorem keeps_updCrn (a0) (s) : Keeps s (updCrn a0 s) := by
  unfold updCrn
  grind [Keeps.refl, Keeps.trans, keeps_mk, Keeps.foldl, Keeps.foldlSnd]

theorem keeps_putCairn (a0) (s) : Keeps s (putCairn a0 s) := by
  unfold putCairn
  grind [Keeps.refl, Keeps.trans, keeps_mk, Keeps.foldl, Keeps.foldlSnd, keeps_nextFree]

theorem keeps_cairnEvent (a0 a1) (s) : Keeps s (cairnEvent a0 a1 s) := by
  unfold cairnEvent
  grind [Keeps.refl, Keeps.trans, keeps_mk, Keeps.foldl, Keeps.foldlSnd, keeps_updCrn, keeps_nextFree, keeps_putCairn]

theorem keeps_closeInterval (a0 a1 a2 a3) (s) : Keeps s (closeInterval a0 a1 a2 a3 s) := by
  unfold closeInterval
  grind [Keeps.refl, Keeps.trans, keeps_mk, Keeps.foldl, Keeps.foldlSnd, keeps_updCrn, keeps_putCairn, keeps_cairnEvent]

theorem keeps_intervalEnd (a0) (s) : Keeps s (intervalEnd a0 s) := by
  unfold intervalEnd
  grind [Keeps.refl, Keeps.trans, keeps_mk, Keeps.foldl, Keeps.foldlSnd, keeps_closeInterval]

theorem keeps_supplyLoss (a0) (s) : Keeps s (supplyLoss a0 s) := by
  unfold supplyLoss
  grind [Keeps.refl, Keeps.trans, keeps_mk, Keeps.foldl, Keeps.foldlSnd, keeps_updCrn, keeps_closeInterval]

theorem keeps_coverRecord (s) : Keeps s (coverRecord s) := by
  unfold coverRecord
  grind [Keeps.refl, Keeps.trans, keeps_mk, Keeps.foldl, Keeps.foldlSnd, keeps_cairnEvent, keeps_updCrn]

theorem keeps_supplyUp (s) : Keeps s (supplyUp s) := by
  unfold supplyUp
  exact Keeps.ite (Keeps.refl s) (((keeps_updCrn ..).trans (keeps_cairnEvent ..)).trans (Keeps.iter _ _ _ keeps_coverRecord))

theorem keeps_coverOpens (s) : Keeps s (coverOpens s) := by
  unfold coverOpens
  grind [Keeps.refl, Keeps.trans, keeps_mk, Keeps.foldl, Keeps.foldlSnd, keeps_coverRecord, keeps_updCrn]

theorem keeps_magneticField (s) : Keeps s (magneticField s) := by
  unfold magneticField
  grind [Keeps.refl, Keeps.trans, keeps_mk, Keeps.foldl, Keeps.foldlSnd, keeps_cairnEvent, keeps_updCrn]

theorem keeps_crestGone (s) : Keeps s (crestGone s) := by
  unfold crestGone
  grind [Keeps.refl, Keeps.trans, keeps_mk, Keeps.foldl, Keeps.foldlSnd, keeps_cairnEvent, keeps_updCrn]

theorem keeps_crestCome (a0) (s) : Keeps s (crestCome a0 s) := by
  unfold crestCome
  grind [Keeps.refl, Keeps.trans, keeps_mk, Keeps.foldl, Keeps.foldlSnd, keeps_closeInterval, keeps_updCrn, keeps_cairnEvent]

theorem keeps_raiseAck (a0) (s) : Keeps s (raiseAck a0 s) := by
  unfold raiseAck
  grind [Keeps.refl, Keeps.trans, keeps_mk, Keeps.foldl, Keeps.foldlSnd, keeps_updCrn]

theorem keeps_askInterval (a0) (s) : Keeps s (askInterval a0 s) := by
  unfold askInterval
  grind [Keeps.refl, Keeps.trans, keeps_mk, Keeps.foldl, Keeps.foldlSnd, keeps_updCrn]

theorem keeps_cairnRecordBody (a0 a1) (s) : Keeps s ((cairnRecordBody a0 a1 s).stateOr s) := by
  unfold cairnRecordBody
  grind [Keeps.refl, Keeps.trans, keeps_mk, Keeps.foldl, Keeps.foldlSnd, keeps_Ans_ok, keeps_Ans_no, Ans.stateOr, Ans.ok, Ans.no]

theorem keeps_cairnRecordCmd (a0) (s) : Keeps s (cairnRecordCmd a0 s) := by
  unfold cairnRecordCmd
  grind [Keeps.refl, Keeps.trans, keeps_mk, Keeps.foldl, Keeps.foldlSnd, keeps_runCmd, keeps_cairnRecordBody, Ans.stateOr, Ans.ok, Ans.no]

theorem keeps_cairnStatusBody (a0 a1) (s) : Keeps s ((cairnStatusBody a0 a1 s).stateOr s) := by
  unfold cairnStatusBody
  grind [Keeps.refl, Keeps.trans, keeps_mk, Keeps.foldl, Keeps.foldlSnd, keeps_Ans_ok, Ans.stateOr, Ans.ok, Ans.no]

theorem keeps_cairnStatusCmd (a0) (s) : Keeps s (cairnStatusCmd a0 s) := by
  unfold cairnStatusCmd
  grind [Keeps.refl, Keeps.trans, keeps_mk, Keeps.foldl, Keeps.foldlSnd, keeps_runCmd, keeps_cairnStatusBody, Ans.stateOr, Ans.ok, Ans.no]

theorem keeps_apportionBody (a0 a1 a2) (s) : Keeps s ((apportionBody a0 a1 a2 s).stateOr s) := by
  unfold apportionBody
  grind [Keeps.refl, Keeps.trans, keeps_mk, Keeps.foldl, Keeps.foldlSnd, keeps_Ans_ok, Ans.stateOr, Ans.ok, Ans.no]

theorem keeps_apportionCmd (a0) (s) : Keeps s (apportionCmd a0 s) := by
  unfold apportionCmd
  grind [Keeps.refl, Keeps.trans, keeps_mk, Keeps.foldl, Keeps.foldlSnd, keeps_runCmd, keeps_apportionBody, Ans.stateOr, Ans.ok, Ans.no]

theorem keeps_execIntervalClose (a0) (s) : Keeps s (nextOr s (execIntervalClose a0 s)) := by
  unfold execIntervalClose
  grind [Keeps.refl, Keeps.trans, keeps_mk, Keeps.foldl, Keeps.foldlSnd, keeps_intervalEnd, nextOr]

theorem keeps_execPowerUp (s) : Keeps s (nextOr s (execPowerUp s)) := by
  unfold execPowerUp
  grind [Keeps.refl, Keeps.trans, keeps_mk, Keeps.foldl, Keeps.foldlSnd, keeps_supplyUp, nextOr]

theorem keeps_execCairnSupplyLoss (a0) (s) : Keeps s (nextOr s (execCairnSupplyLoss a0 s)) := by
  unfold execCairnSupplyLoss
  grind [Keeps.refl, Keeps.trans, keeps_mk, Keeps.foldl, Keeps.foldlSnd, keeps_supplyLoss, nextOr]

theorem keeps_execCoverOpen (s) : Keeps s (nextOr s (execCoverOpen s)) := by
  unfold execCoverOpen
  grind [Keeps.refl, Keeps.trans, keeps_mk, Keeps.foldl, Keeps.foldlSnd, keeps_coverOpens, nextOr]

theorem keeps_execMagnetic (s) : Keeps s (nextOr s (execMagnetic s)) := by
  unfold execMagnetic
  grind [Keeps.refl, Keeps.trans, keeps_mk, Keeps.foldl, Keeps.foldlSnd, keeps_magneticField, nextOr]

theorem keeps_execCairnCrestValue (a0) (s) : Keeps s (nextOr s (execCairnCrestValue a0 s)) := by
  unfold execCairnCrestValue
  grind [Keeps.refl, Keeps.trans, keeps_mk, Keeps.foldl, Keeps.foldlSnd, keeps_crestCome, nextOr]

theorem keeps_execCrestLost (s) : Keeps s (nextOr s (execCrestLost s)) := by
  unfold execCrestLost
  grind [Keeps.refl, Keeps.trans, keeps_mk, Keeps.foldl, Keeps.foldlSnd, keeps_crestGone, nextOr]

theorem keeps_execCairnRecord (a0) (s) : Keeps s (nextOr s (execCairnRecord a0 s)) := by
  unfold execCairnRecord
  grind [Keeps.refl, Keeps.trans, keeps_mk, Keeps.foldl, Keeps.foldlSnd, keeps_cairnRecordCmd, nextOr]

theorem keeps_execCairnStatus (a0) (s) : Keeps s (nextOr s (execCairnStatus a0 s)) := by
  unfold execCairnStatus
  grind [Keeps.refl, Keeps.trans, keeps_mk, Keeps.foldl, Keeps.foldlSnd, keeps_cairnStatusCmd, nextOr]

theorem keeps_execApportion (a0) (s) : Keeps s (nextOr s (execApportion a0 s)) := by
  unfold execApportion
  grind [Keeps.refl, Keeps.trans, keeps_mk, Keeps.foldl, Keeps.foldlSnd, keeps_apportionCmd, nextOr]

end Sys2Proof.Machine
end

