-- ==== Sys2Proof/Laws/KeepsRegs.lean ====
section
/-! SUPPORT. Every operation of Sys2Proof/Machine/Regs.lean keeps what `Keeps` says. -/

namespace Sys2Proof.Machine

theorem keeps_clearRead (a0 a1) (s) : Keeps s (clearRead a0 a1 s) := by
  unfold clearRead
  grind [Keeps.refl, Keeps.trans, keeps_mk, Keeps.foldl, Keeps.foldlSnd, keeps_fset]

theorem keeps_readReg (a0 a1 a2) (s) : Keeps s (readReg a0 a1 a2 s).2 := by
  unfold readReg
  grind [Keeps.refl, Keeps.trans, keeps_mk, Keeps.foldl, Keeps.foldlSnd, keeps_nextFree, keeps_clearRead]

theorem keeps_sideMsg (a0 a1 a2) (s) : Keeps s (sideMsg a0 a1 a2 s) := by
  unfold sideMsg
  grind [Keeps.refl, Keeps.trans, keeps_mk, Keeps.foldl, Keeps.foldlSnd, keeps_emit]

theorem keeps_devRead (a0) (s) : Keeps s (devRead a0 s).2 := by
  unfold devRead
  grind [Keeps.refl, Keeps.trans, keeps_mk, Keeps.foldl, Keeps.foldlSnd, keeps_addrFault, keeps_readReg, keeps_sideMsg]

theorem keeps_standing (a0) (s) : Keeps s (standing a0 s) := by
  unfold standing
  grind [Keeps.refl, Keeps.trans, keeps_mk, Keeps.foldl, Keeps.foldlSnd, keeps_fset]

theorem keeps_stickyCleared (a0 a1 a2) (s) : Keeps s (stickyCleared a0 a1 a2 s) := by
  unfold stickyCleared
  grind [Keeps.refl, Keeps.trans, keeps_mk, Keeps.foldl, Keeps.foldlSnd, keeps_regPut, keeps_occurs]

theorem keeps_writePlain (a0 a1 a2) (s) : Keeps s (writePlain a0 a1 a2 s) := by
  unfold writePlain
  grind [Keeps.refl, Keeps.trans, keeps_mk, Keeps.foldl, Keeps.foldlSnd, keeps_standing, keeps_regPut, keeps_stickyCleared, keeps_showFault]

theorem keeps_commitReg (a0 a1 a2) (s) : Keeps s (commitReg a0 a1 a2 s) := by
  unfold commitReg
  grind [Keeps.refl, Keeps.trans, keeps_mk, Keeps.foldl, Keeps.foldlSnd, keeps_writeRstCtrl, keeps_writeHold, keeps_writeSafeInfo, keeps_raiseAck, keeps_askInterval, keeps_switchGo, keeps_injectOne, keeps_pam4Write, keeps_writePlain]

theorem keeps_writeReg (a0 a1 a2 a3) (s) : Keeps s (writeReg a0 a1 a2 a3 s) := by
  unfold writeReg
  grind [Keeps.refl, Keeps.trans, keeps_mk, Keeps.foldl, Keeps.foldlSnd, keeps_commitReg]

theorem keeps_devWrite (a0 a1) (s) : Keeps s (devWrite a0 a1 s) := by
  unfold devWrite
  grind [Keeps.refl, Keeps.trans, keeps_mk, Keeps.foldl, Keeps.foldlSnd, keeps_addrFault, keeps_writeReg, keeps_sideMsg]

theorem keeps_wholeRead (a0 a1) (s) : Keeps s (wholeRead a0 a1 s).2 := by
  unfold wholeRead
  grind [Keeps.refl, Keeps.trans, keeps_mk, Keeps.foldl, Keeps.foldlSnd, keeps_devRead, keeps_addrFault]

theorem keeps_wholeWrite (a0 a1 a2) (s) : Keeps s (wholeWrite a0 a1 a2 s) := by
  unfold wholeWrite
  grind [Keeps.refl, Keeps.trans, keeps_mk, Keeps.foldl, Keeps.foldlSnd, keeps_devWrite, keeps_addrFault]

theorem keeps_barRead (a0 a1 a2) (s) : Keeps s (barRead a0 a1 a2 s).2 := by
  unfold barRead
  dsimp only
  repeat' first
    | with_reducible refine Keeps.iteSnd ?_ ?_
    | with_reducible exact Keeps.refl _
    | with_reducible exact keeps_wholeRead ..
    | with_reducible exact keeps_setFn ..
    | split

theorem keeps_barWrite (a0 a1 a2 a3) (s) : Keeps s (barWrite a0 a1 a2 a3 s) := by
  unfold barWrite
  dsimp only
  repeat' first
    | with_reducible refine Keeps.ite ?_ ?_
    | with_reducible exact Keeps.refl _
    | with_reducible exact keeps_wholeWrite ..
    | with_reducible exact keeps_setFn ..
    | with_reducible exact keeps_writeQpb ..
    | with_reducible exact (keeps_setFn ..).trans (keeps_flushMsix ..)
    | with_reducible exact keeps_doorbellCmd ..
    | with_reducible exact keeps_doorbellRpl ..

theorem keeps_hostRead (a0 a1) (s) : Keeps s (hostRead a0 a1 s) := by
  unfold hostRead
  dsimp only
  exact Keeps.trans (Keeps.iteSnd (keeps_wholeRead ..) (keeps_barRead ..)) (keeps_emit ..)

theorem keeps_hostWrite (a0 a1 a2) (s) : Keeps s (hostWrite a0 a1 a2 s) :=
  Keeps.ite (keeps_wholeWrite ..) (keeps_barWrite ..)

theorem keeps_readWords (a0 a1) (s) : Keeps s (readWords a0 a1 s).2 := by
  fun_induction readWords a0 a1 s <;> grind [Keeps.refl, Keeps.trans, keeps_mk, Keeps.foldl, Keeps.foldlSnd, keeps_devRead]

theorem keeps_writeWords (a0 a1) (s) : Keeps s (writeWords a0 a1 s) := by
  fun_induction writeWords a0 a1 s <;> grind [Keeps.refl, Keeps.trans, keeps_mk, Keeps.foldl, Keeps.foldlSnd, keeps_devWrite]

theorem keeps_regReadBody (a0 a1) (s) : Keeps s ((regReadBody a0 a1 s).stateOr s) := by
  unfold regReadBody
  grind [Keeps.refl, Keeps.trans, keeps_mk, Keeps.foldl, Keeps.foldlSnd, keeps_readWords, keeps_Ans_ok, Ans.stateOr, Ans.ok, Ans.no]

theorem keeps_regReadCmd (a0) (s) : Keeps s (regReadCmd a0 s) := by
  unfold regReadCmd
  grind [Keeps.refl, Keeps.trans, keeps_mk, Keeps.foldl, Keeps.foldlSnd, keeps_runCmd, keeps_regReadBody, Ans.stateOr, Ans.ok, Ans.no]

theorem keeps_regWriteBody (a0 a1 a2) (s) : Keeps s ((regWriteBody a0 a1 a2 s).stateOr s) := by
  unfold regWriteBody
  grind [Keeps.refl, Keeps.trans, keeps_mk, Keeps.foldl, Keeps.foldlSnd, keeps_Ans_ok, keeps_writeWords, Ans.stateOr, Ans.ok, Ans.no]

theorem keeps_regWriteCmd (a0) (s) : Keeps s (regWriteCmd a0 s) := by
  unfold regWriteCmd
  grind [Keeps.refl, Keeps.trans, keeps_mk, Keeps.foldl, Keeps.foldlSnd, keeps_runCmd, keeps_regWriteBody, Ans.stateOr, Ans.ok, Ans.no]

theorem keeps_sidebandRead (a0 a1 a2) (s) : Keeps s (sidebandRead a0 a1 a2 s) := by
  unfold sidebandRead
  grind [Keeps.refl, Keeps.trans, keeps_mk, Keeps.foldl, Keeps.foldlSnd, keeps_refuseEngine, keeps_sideMsg, keeps_devRead, keeps_emit]

theorem keeps_sidebandWrite (a0 a1 a2 a3) (s) : Keeps s (sidebandWrite a0 a1 a2 a3 s) := by
  unfold sidebandWrite
  grind [Keeps.refl, Keeps.trans, keeps_mk, Keeps.foldl, Keeps.foldlSnd, keeps_refuseEngine, keeps_sideMsg, keeps_devWrite]

theorem keeps_mgtAnswer (a0 a1 a2) (s) : Keeps s (mgtAnswer a0 a1 a2 s) := by
  unfold mgtAnswer
  grind [Keeps.refl, Keeps.trans, keeps_mk, Keeps.foldl, Keeps.foldlSnd, keeps_devRead, keeps_devWrite, keeps_jSend]

theorem keeps_mgtServe (a0 a1 a2) (s) : Keeps s (mgtServe a0 a1 a2 s) := by
  fun_induction mgtServe a0 a1 a2 s <;> grind [Keeps.refl, Keeps.trans, keeps_mk, Keeps.foldl, Keeps.foldlSnd, keeps_jTaken, keeps_mgtAnswer, keeps_jDrain]

theorem keeps_portServe (a0 a1) (s) : Keeps s (portServe a0 a1 s) := by
  unfold portServe
  grind [Keeps.refl, Keeps.trans, keeps_mk, Keeps.foldl, Keeps.foldlSnd, keeps_mgtServe]

theorem keeps_execJxlBeatReceive (a0 a1 a2) (s) : Keeps s (nextOr s (execJxlBeatReceive a0 a1 a2 s)) := by
  unfold execJxlBeatReceive
  grind [Keeps.refl, Keeps.trans, keeps_mk, Keeps.foldl, Keeps.foldlSnd, keeps_portServe, keeps_beatReceive, nextOr]

theorem keeps_execJxlAckTimer (a0 a1) (s) : Keeps s (nextOr s (execJxlAckTimer a0 a1 s)) := by
  unfold execJxlAckTimer
  grind [Keeps.refl, Keeps.trans, keeps_mk, Keeps.foldl, Keeps.foldlSnd, keeps_portServe, keeps_jAckTimer, nextOr]

theorem keeps_execRegisterWrite (a0 a1) (s) : Keeps s (nextOr s (execRegisterWrite a0 a1 s)) := by
  unfold execRegisterWrite
  grind [Keeps.refl, Keeps.trans, keeps_mk, Keeps.foldl, Keeps.foldlSnd, keeps_hostWrite, nextOr]

theorem keeps_execReg64LowWordRead (a0) (s) : Keeps s (nextOr s (execReg64LowWordRead a0 s)) := by
  unfold execReg64LowWordRead
  grind [Keeps.refl, Keeps.trans, keeps_mk, Keeps.foldl, Keeps.foldlSnd, keeps_hostRead, nextOr]

theorem keeps_execReg64LowWordWrite (a0 a1) (s) : Keeps s (nextOr s (execReg64LowWordWrite a0 a1 s)) := by
  unfold execReg64LowWordWrite
  grind [Keeps.refl, Keeps.trans, keeps_mk, Keeps.foldl, Keeps.foldlSnd, keeps_hostWrite, nextOr]

theorem keeps_execRcFieldRead (a0) (s) : Keeps s (nextOr s (execRcFieldRead a0 s)) := by
  unfold execRcFieldRead
  grind [Keeps.refl, Keeps.trans, keeps_mk, Keeps.foldl, Keeps.foldlSnd, keeps_hostRead, nextOr]

theorem keeps_execCrnAckWrite (a0) (s) : Keeps s (nextOr s (execCrnAckWrite a0 s)) := by
  unfold execCrnAckWrite
  grind [Keeps.refl, Keeps.trans, keeps_mk, Keeps.foldl, Keeps.foldlSnd, keeps_hostWrite, nextOr]

theorem keeps_execCrnIntervalWrite (a0) (s) : Keeps s (nextOr s (execCrnIntervalWrite a0 s)) := by
  unfold execCrnIntervalWrite
  grind [Keeps.refl, Keeps.trans, keeps_mk, Keeps.foldl, Keeps.foldlSnd, keeps_hostWrite, nextOr]

theorem keeps_execRegRead (a0) (s) : Keeps s (nextOr s (execRegRead a0 s)) := by
  unfold execRegRead
  grind [Keeps.refl, Keeps.trans, keeps_mk, Keeps.foldl, Keeps.foldlSnd, keeps_regReadCmd, nextOr]

theorem keeps_execRegWrite (a0) (s) : Keeps s (nextOr s (execRegWrite a0 s)) := by
  unfold execRegWrite
  grind [Keeps.refl, Keeps.trans, keeps_mk, Keeps.foldl, Keeps.foldlSnd, keeps_regWriteCmd, nextOr]

theorem keeps_execRegRd (a0 a1 a2) (s) : Keeps s (nextOr s (execRegRd a0 a1 a2 s)) := by
  unfold execRegRd
  grind [Keeps.refl, Keeps.trans, keeps_mk, Keeps.foldl, Keeps.foldlSnd, keeps_sidebandRead, nextOr]

theorem keeps_execRegWr (a0 a1 a2 a3) (s) : Keeps s (nextOr s (execRegWr a0 a1 a2 a3 s)) := by
  unfold execRegWr
  grind [Keeps.refl, Keeps.trans, keeps_mk, Keeps.foldl, Keeps.foldlSnd, keeps_sidebandWrite, nextOr]

end Sys2Proof.Machine
end

