-- ==== Sys2Proof/Laws/KeepsTables.lean ====
section
/-! SUPPORT. Every operation of Sys2Proof/Machine/Tables.lean keeps what `Keeps` says. -/

namespace Sys2Proof.Machine

theorem keeps_setArea (a0 a1) (s) : Keeps s (setArea a0 a1 s) := by
  unfold setArea
  grind [Keeps.refl, Keeps.trans, keeps_mk, Keeps.foldl, Keeps.foldlSnd]

theorem keeps_giveTables (a0 a1) (s) : Keeps s (giveTables a0 a1 s) := by
  unfold giveTables
  grind [Keeps.refl, Keeps.trans, keeps_mk, Keeps.foldl, Keeps.foldlSnd, keeps_setArea]

theorem keeps_writeTable (a0 a1) (s) : Keeps s (writeTable a0 a1 s).2 := by
  unfold writeTable
  grind [Keeps.refl, Keeps.trans, keeps_mk, Keeps.foldl, Keeps.foldlSnd, keeps_memWrite]

theorem keeps_setEntry (a0 a1 a2) (s) : Keeps s ((setEntry a0 a1 a2 s).stateOr s) := by
  unfold setEntry
  grind [Keeps.refl, Keeps.trans, keeps_mk, Keeps.foldl, Keeps.foldlSnd, keeps_writeTable, PageRes.stateOr]

theorem Keeps.itePage {s : State} {c : Prop} [Decidable c] {a b : PageRes} (h1 : Keeps s (a.stateOr s)) (h2 : Keeps s (b.stateOr s)) :
    Keeps s ((if c then a else b).stateOr s) := by split <;> assumption

theorem keeps_atPage (a0 a1 a2 a3 a4) (s) : Keeps s ((atPage a0 a1 a2 a3 a4 s).stateOr s) := by
  unfold atPage
  cases a1 with
  | map leaf =>
    refine Keeps.itePage (keeps_setEntry ..) (Keeps.itePage (keeps_setEntry ..) (Keeps.itePage (Keeps.refl s) ?_))
    generalize (tablesBelow s 3 (a2 + 1) (entryPa a4)).map (·.1) = l
    exact Keeps.page (keeps_giveTables a0 l s) (keeps_setEntry ..)
  | unmap =>
    exact Keeps.itePage (Keeps.refl s) (Keeps.itePage (keeps_setEntry ..) (Keeps.itePage (Keeps.refl s) (Keeps.refl s)))
  | protect perms =>
    exact Keeps.itePage (Keeps.refl s) (Keeps.itePage (keeps_setEntry ..) (Keeps.itePage (Keeps.refl s) (Keeps.refl s)))

theorem keeps_linkTable (a0 a1 a2) (s) : Keeps s ((linkTable a0 a1 a2 s).1.stateOr s) := by
  unfold linkTable
  dsimp only
  split
  · exact Keeps.refl s
  rename_i p _
  have h1 := keeps_setArea a0 { areaOf s a0 with used := (p, tableSize a1) :: (areaOf s a0).used } s
  have h2 := h1.trans (keeps_writeTable p (List.replicate (tableSize a1) 0#8) _)
  split
  · exact Keeps.refl s
  · rename_i hx
    rw [hx] at h2
    exact Keeps.page h2 (keeps_setEntry ..)

theorem keeps_dropTable (a0 a1 a2 a3 a4) (s) : Keeps s ((dropTable a0 a1 a2 a3 a4 s).stateOr s) := by
  unfold dropTable
  split
  · exact Keeps.page (keeps_giveTables ..) (keeps_setEntry ..)
  · exact Keeps.refl s

theorem keeps_pageOp (a0 a1 a2 a3 a4 a5 a6) (s) : Keeps s ((pageOp a0 a1 a2 a3 a4 a5 a6 s).stateOr s) := by
  induction a4 generalizing a5 a6 s with
  | zero => exact Keeps.refl s
  | succ f ih =>
    unfold pageOp
    dsimp only
    have h1 := keeps_readEntry .melhal (a6 + 8 * levelIndex a5 a1) s
    split
    · exact Keeps.refl s
    · exact Keeps.refl s
    rename_i e t hx
    rw [hx] at h1
    refine Keeps.page h1 ?_
    split
    · exact Keeps.refl t
    split
    · exact keeps_atPage ..
    split
    · split
      · have h2 := keeps_linkTable a0 (a5 + 1) (a6 + 8 * levelIndex a5 a1) t
        split
        · rename_i hy
          rw [hy] at h2
          exact Keeps.page h2 (ih ..)
        · rename_i hy
          rw [hy] at h2
          exact h2
      · exact Keeps.refl t
      · exact Keeps.refl t
    split
    · exact Keeps.refl t
    have h2 := ih (a5 + 1) (entryPa e) t
    split
    · rename_i hy
      rw [hy] at h2
      split
      · exact Keeps.page h2 (keeps_dropTable ..)
      · exact h2
    · exact h2

theorem keeps_pagesOp (a0 a1 a2 a3 a4 a5) (s) : Keeps s ((pagesOp a0 a1 a2 a3 a4 a5 s).1.stateOr s) := by
  induction a3 generalizing a4 a5 s with
  | zero => exact Keeps.refl s
  | succ n ih =>
    unfold pagesOp
    have h2 := keeps_pageOp a0 a4 (sizeLevel a1) (a2 a4) 4 0 (fget s (rMMU_ROOT a0) fMMU_ROOT_ROOT * 4096) s
    split
    · rename_i hy
      rw [hy] at h2
      exact Keeps.page h2 (ih ..)
    · exact h2

theorem keeps_dropVa (a0 a1 a2) (s) : Keeps s (dropVa a0 a1 a2 s) := by
  unfold dropVa
  grind [Keeps.refl, Keeps.trans, keeps_mk, Keeps.foldl, Keeps.foldlSnd]

theorem keeps_changePages (a0 a1 a2 a3 a4) (s) : Keeps s ((changePages a0 a1 a2 a3 a4 s).stateOr s) := by
  unfold changePages
  split
  · exact Keeps.refl s
  split
  · exact Keeps.refl s
  have h := keeps_pagesOp a0 a2 a4 a3 a1 [] s
  split
  · rename_i hy
    rw [hy] at h
    split
    · exact Keeps.refl s
    · exact Keeps.trans h (keeps_dropVa ..)
  · exact Keeps.refl s
  · exact Keeps.ans (keeps_readEntry ..) (keeps_memFail ..)

theorem keeps_mapBody (a0 a1) (s) : Keeps s ((mapBody a0 a1 s).stateOr s) := by
  unfold mapBody
  grind [Keeps.refl, Keeps.trans, keeps_mk, Keeps.foldl, Keeps.foldlSnd, keeps_Ans_no, keeps_changePages, Ans.stateOr, Ans.ok, Ans.no]

theorem keeps_mapCmd (a0) (s) : Keeps s (mapCmd a0 s) := by
  unfold mapCmd
  grind [Keeps.refl, Keeps.trans, keeps_mk, Keeps.foldl, Keeps.foldlSnd, keeps_runCmd, keeps_mapBody, Ans.stateOr, Ans.ok, Ans.no]

theorem keeps_unmapBody (a0 a1) (s) : Keeps s ((unmapBody a0 a1 s).stateOr s) := by
  unfold unmapBody
  grind [Keeps.refl, Keeps.trans, keeps_mk, Keeps.foldl, Keeps.foldlSnd, keeps_changePages, Ans.stateOr, Ans.ok, Ans.no]

theorem keeps_unmapCmd (a0) (s) : Keeps s (unmapCmd a0 s) := by
  unfold unmapCmd
  grind [Keeps.refl, Keeps.trans, keeps_mk, Keeps.foldl, Keeps.foldlSnd, keeps_runCmd, keeps_unmapBody, Ans.stateOr, Ans.ok, Ans.no]

theorem keeps_protectBody (a0 a1) (s) : Keeps s ((protectBody a0 a1 s).stateOr s) := by
  unfold protectBody
  grind [Keeps.refl, Keeps.trans, keeps_mk, Keeps.foldl, Keeps.foldlSnd, keeps_changePages, Ans.stateOr, Ans.ok, Ans.no]

theorem keeps_protectCmd (a0) (s) : Keeps s (protectCmd a0 s) := by
  unfold protectCmd
  grind [Keeps.refl, Keeps.trans, keeps_mk, Keeps.foldl, Keeps.foldlSnd, keeps_runCmd, keeps_protectBody, Ans.stateOr, Ans.ok, Ans.no]

theorem keeps_aspaceBody (a0 a1) (s) : Keeps s ((aspaceBody a0 a1 s).stateOr s) := by
  unfold aspaceBody
  grind [Keeps.refl, Keeps.trans, keeps_mk, Keeps.foldl, Keeps.foldlSnd, keeps_dropVa, keeps_Ans_ok, keeps_setArea, keeps_fset, keeps_writeTable, keeps_Ans_no, Ans.stateOr, Ans.ok, Ans.no]

theorem keeps_aspaceCmd (a0) (s) : Keeps s (aspaceCmd a0 s) := by
  unfold aspaceCmd
  grind [Keeps.refl, Keeps.trans, keeps_mk, Keeps.foldl, Keeps.foldlSnd, keeps_runCmd, keeps_aspaceBody, Ans.stateOr, Ans.ok, Ans.no]

theorem keeps_walkDone (a0 a1 a2 a3) (s) : Keeps s (walkDone a0 a1 a2 a3 s) := by
  unfold walkDone
  grind [Keeps.refl, Keeps.trans, keeps_mk, Keeps.foldl, Keeps.foldlSnd, keeps_translate]

theorem keeps_execAspace (a0) (s) : Keeps s (nextOr s (execAspace a0 s)) := by
  unfold execAspace
  grind [Keeps.refl, Keeps.trans, keeps_mk, Keeps.foldl, Keeps.foldlSnd, keeps_aspaceCmd, nextOr]

theorem keeps_execMap (a0) (s) : Keeps s (nextOr s (execMap a0 s)) := by
  unfold execMap
  grind [Keeps.refl, Keeps.trans, keeps_mk, Keeps.foldl, Keeps.foldlSnd, keeps_mapCmd, nextOr]

theorem keeps_execUnmap (a0) (s) : Keeps s (nextOr s (execUnmap a0 s)) := by
  unfold execUnmap
  grind [Keeps.refl, Keeps.trans, keeps_mk, Keeps.foldl, Keeps.foldlSnd, keeps_unmapCmd, nextOr]

theorem keeps_execProtect (a0) (s) : Keeps s (nextOr s (execProtect a0 s)) := by
  unfold execProtect
  grind [Keeps.refl, Keeps.trans, keeps_mk, Keeps.foldl, Keeps.foldlSnd, keeps_protectCmd, nextOr]

theorem keeps_execPageWalkComplete (a0 a1 a2 a3) (s) : Keeps s (nextOr s (execPageWalkComplete a0 a1 a2 a3 s)) := by
  unfold execPageWalkComplete
  grind [Keeps.refl, Keeps.trans, keeps_mk, Keeps.foldl, Keeps.foldlSnd, keeps_walkDone, nextOr]

end Sys2Proof.Machine
end

