-- ==== Sys2Proof/Laws/KeepsCommands.lean ====
section
/-! SUPPORT. Every operation of Sys2Proof/Machine/Commands.lean keeps what `Keeps` says. -/

namespace Sys2Proof.Machine

theorem keeps_identifyBody (a0 a1 a2) (s) : Keeps s ((identifyBody a0 a1 a2 s).stateOr s) := by
  unfold identifyBody
  grind [Keeps.refl, Keeps.trans, keeps_mk, Keeps.foldl, Keeps.foldlSnd, keeps_Ans_ok, Ans.stateOr, Ans.ok, Ans.no]

theorem keeps_identifyCmd (a0) (s) : Keeps s (identifyCmd a0 s) := by
  unfold identifyCmd
  grind [Keeps.refl, Keeps.trans, keeps_mk, Keeps.foldl, Keeps.foldlSnd, keeps_runCmd, keeps_identifyBody, Ans.stateOr, Ans.ok, Ans.no]

theorem keeps_tenantInfoBody (a0 a1) (s) : Keeps s ((tenantInfoBody a0 a1 s).stateOr s) := by
  unfold tenantInfoBody
  grind [Keeps.refl, Keeps.trans, keeps_mk, Keeps.foldl, Keeps.foldlSnd, keeps_Ans_ok, Ans.stateOr, Ans.ok, Ans.no]

theorem keeps_tenantInfoCmd (a0) (s) : Keeps s (tenantInfoCmd a0 s) := by
  unfold tenantInfoCmd
  grind [Keeps.refl, Keeps.trans, keeps_mk, Keeps.foldl, Keeps.foldlSnd, keeps_runCmd, keeps_tenantInfoBody, Ans.stateOr, Ans.ok, Ans.no]

theorem keeps_qpCreateBody (a0 a1 a2) (s) : Keeps s ((qpCreateBody a0 a1 a2 s).stateOr s) := by
  unfold qpCreateBody
  grind [Keeps.refl, Keeps.trans, keeps_mk, Keeps.foldl, Keeps.foldlSnd, keeps_Ans_no, keeps_Ans_ok, keeps_qpMake, Ans.stateOr, Ans.ok, Ans.no]

theorem keeps_qpCreateCmd (a0) (s) : Keeps s (qpCreateCmd a0 s) := by
  unfold qpCreateCmd
  grind [Keeps.refl, Keeps.trans, keeps_mk, Keeps.foldl, Keeps.foldlSnd, keeps_runCmd, keeps_qpCreateBody, Ans.stateOr, Ans.ok, Ans.no]

theorem keeps_qpDeleteBody (a0 a1 a2) (s) : Keeps s ((qpDeleteBody a0 a1 a2 s).stateOr s) := by
  unfold qpDeleteBody
  grind [Keeps.refl, Keeps.trans, keeps_mk, Keeps.foldl, Keeps.foldlSnd, keeps_Ans_no, keeps_Ans_ok, keeps_qpDrop, Ans.stateOr, Ans.ok, Ans.no]

theorem keeps_qpDeleteCmd (a0) (s) : Keeps s (qpDeleteCmd a0 s) := by
  unfold qpDeleteCmd
  grind [Keeps.refl, Keeps.trans, keeps_mk, Keeps.foldl, Keeps.foldlSnd, keeps_runCmd, keeps_qpDeleteBody, Ans.stateOr, Ans.ok, Ans.no]

theorem keeps_qpAssignBody (a0 a1) (s) : Keeps s ((qpAssignBody a0 a1 s).stateOr s) := by
  unfold qpAssignBody
  grind [Keeps.refl, Keeps.trans, keeps_mk, Keeps.foldl, Keeps.foldlSnd, keeps_Ans_no, keeps_Ans_ok, keeps_setQp, Ans.stateOr, Ans.ok, Ans.no]

theorem keeps_qpAssignCmd (a0) (s) : Keeps s (qpAssignCmd a0 s) := by
  unfold qpAssignCmd
  grind [Keeps.refl, Keeps.trans, keeps_mk, Keeps.foldl, Keeps.foldlSnd, keeps_runCmd, keeps_qpAssignBody, Ans.stateOr, Ans.ok, Ans.no]

theorem keeps_memReadBody (a0 a1) (s) : Keeps s ((memReadBody a0 a1 s).stateOr s) := by
  unfold memReadBody
  split
  · exact Keeps.refl s
  have h1 := keeps_vread .melhal a1 (leAt a0 0 8) (leAt a0 8 4) accRead s
  split
  · rename_i hx
    rw [hx] at h1
    exact h1
  · rename_i hx
    rw [hx] at h1
    exact Keeps.ans h1 (keeps_memFail ..)

theorem keeps_memReadCmd (a0) (s) : Keeps s (memReadCmd a0 s) := by
  unfold memReadCmd
  grind [Keeps.refl, Keeps.trans, keeps_mk, Keeps.foldl, Keeps.foldlSnd, keeps_runCmd, keeps_memReadBody, Ans.stateOr, Ans.ok, Ans.no]

theorem keeps_memWriteBody (a0 a1 a2) (s) : Keeps s ((memWriteBody a0 a1 a2 s).stateOr s) := by
  unfold memWriteBody
  split
  · exact Keeps.refl s
  have h1 := keeps_vwrite .melhal a2 (leAt a1 0 8) ((dataIn a0).take (leAt a1 8 4)) accWrite s
  split
  · rename_i hx
    rw [hx] at h1
    exact h1
  · rename_i hx
    rw [hx] at h1
    exact Keeps.ans h1 (keeps_memFail ..)

theorem keeps_memWriteCmd (a0) (s) : Keeps s (memWriteCmd a0 s) := by
  unfold memWriteCmd
  grind [Keeps.refl, Keeps.trans, keeps_mk, Keeps.foldl, Keeps.foldlSnd, keeps_runCmd, keeps_memWriteBody, Ans.stateOr, Ans.ok, Ans.no]

theorem keeps_granuleAttrBody (a0 a1 a2) (s) : Keeps s ((granuleAttrBody a0 a1 a2 s).stateOr s) := by
  unfold granuleAttrBody
  grind [Keeps.refl, Keeps.trans, keeps_mk, Keeps.foldl, Keeps.foldlSnd, keeps_Ans_no, keeps_Ans_ok, keeps_fset, keeps_dropBorrowed, Ans.stateOr, Ans.ok, Ans.no]

theorem keeps_granuleAttrCmd (a0) (s) : Keeps s (granuleAttrCmd a0 s) := by
  unfold granuleAttrCmd
  grind [Keeps.refl, Keeps.trans, keeps_mk, Keeps.foldl, Keeps.foldlSnd, keeps_runCmd, keeps_granuleAttrBody, Ans.stateOr, Ans.ok, Ans.no]

theorem keeps_rcWaysBody (a0 a1) (s) : Keeps s ((rcWaysBody a0 a1 s).stateOr s) := by
  unfold rcWaysBody
  grind [Keeps.refl, Keeps.trans, keeps_mk, Keeps.foldl, Keeps.foldlSnd, keeps_Ans_no, keeps_Ans_ok, keeps_fset, Ans.stateOr, Ans.ok, Ans.no]

theorem keeps_rcWaysCmd (a0) (s) : Keeps s (rcWaysCmd a0 s) := by
  unfold rcWaysCmd
  grind [Keeps.refl, Keeps.trans, keeps_mk, Keeps.foldl, Keeps.foldlSnd, keeps_runCmd, keeps_rcWaysBody, Ans.stateOr, Ans.ok, Ans.no]

theorem keeps_removeClean (a0 a1 a2) (s) : Keeps s (removeClean a0 a1 a2 s) := by
  unfold removeClean
  grind [Keeps.refl, Keeps.trans, keeps_mk, Keeps.foldl, Keeps.foldlSnd, keeps_dropBorrowed, keeps_dropLine]

theorem keeps_rcFlushBody (a0 a1) (s) : Keeps s ((rcFlushBody a0 a1 s).stateOr s) := by
  unfold rcFlushBody
  grind [Keeps.refl, Keeps.trans, keeps_mk, Keeps.foldl, Keeps.foldlSnd, keeps_Ans_no, keeps_flushRange, keeps_removeClean, keeps_dropBorrowed, keeps_Ans_ok, Ans.stateOr, Ans.ok, Ans.no]

theorem keeps_rcFlushCmd (a0) (s) : Keeps s (rcFlushCmd a0 s) := by
  unfold rcFlushCmd
  grind [Keeps.refl, Keeps.trans, keeps_mk, Keeps.foldl, Keeps.foldlSnd, keeps_runCmd, keeps_rcFlushBody, Ans.stateOr, Ans.ok, Ans.no]

theorem keeps_dmaLimitBody (a0 a1) (s) : Keeps s ((dmaLimitBody a0 a1 s).stateOr s) := by
  unfold dmaLimitBody
  grind [Keeps.refl, Keeps.trans, keeps_mk, Keeps.foldl, Keeps.foldlSnd, keeps_Ans_no, keeps_Ans_ok, keeps_fset, Ans.stateOr, Ans.ok, Ans.no]

theorem keeps_dmaLimitCmd (a0) (s) : Keeps s (dmaLimitCmd a0 s) := by
  unfold dmaLimitCmd
  grind [Keeps.refl, Keeps.trans, keeps_mk, Keeps.foldl, Keeps.foldlSnd, keeps_runCmd, keeps_dmaLimitBody, Ans.stateOr, Ans.ok, Ans.no]

theorem keeps_copyCodeword (a0) (s) : Keeps s (copyCodeword a0 s) := by
  unfold copyCodeword
  grind [Keeps.refl, Keeps.trans, keeps_mk, Keeps.foldl, Keeps.foldlSnd, keeps_readCw, keeps_uncorrFault]

theorem keeps_rowRepairBody (a0 a1) (s) : Keeps s ((rowRepairBody a0 a1 s).stateOr s) := by
  unfold rowRepairBody
  dsimp only
  repeat' split
  · exact Keeps.refl s
  · exact Keeps.refl s
  · exact Keeps.refl s
  simp only [Ans.ok, Ans.stateOr]
  refine Keeps.trans ?_ (keeps_fset ..)
  generalize hu : List.foldl _ s _ = u
  have h1 : Keeps s u := hu ▸ Keeps.foldl _ _ s (fun _ _ => keeps_copyCodeword ..)
  exact h1.trans ⟨rfl, List.suffix_refl _, le_refl _, rfl, fun _ h => h, fun _ _ => le_refl _, fun h => h⟩

theorem keeps_rowRepairCmd (a0) (s) : Keeps s (rowRepairCmd a0 s) := by
  unfold rowRepairCmd
  grind [Keeps.refl, Keeps.trans, keeps_mk, Keeps.foldl, Keeps.foldlSnd, keeps_runCmd, keeps_rowRepairBody, Ans.stateOr, Ans.ok, Ans.no]

theorem keeps_scrubProgress (a0) (s) : Keeps s (scrubProgress a0 s) := by
  unfold scrubProgress
  grind [Keeps.refl, Keeps.trans, keeps_mk, Keeps.foldl, Keeps.foldlSnd, keeps_fset]

theorem keeps_scrubRead (a0) (s) : Keeps s (scrubRead a0 s) := by
  unfold scrubRead
  grind [Keeps.refl, Keeps.trans, keeps_mk, Keeps.foldl, Keeps.foldlSnd, keeps_readCw, keeps_uncorrFault, keeps_scrubProgress]

theorem keeps_wakeStack (a0) (s) : Keeps s (wakeStack a0 s) := by
  unfold wakeStack
  grind [Keeps.refl, Keeps.trans, keeps_mk, Keeps.foldl, Keeps.foldlSnd, keeps_fset]

theorem keeps_moduleIdBody (a0 a1) (s) : Keeps s ((moduleIdBody a0 a1 s).stateOr s) := by
  unfold moduleIdBody
  grind [Keeps.refl, Keeps.trans, keeps_mk, Keeps.foldl, Keeps.foldlSnd, keeps_Ans_no, keeps_Ans_ok, keeps_fset, Ans.stateOr, Ans.ok, Ans.no]

theorem keeps_moduleIdCmd (a0) (s) : Keeps s (moduleIdCmd a0 s) := by
  unfold moduleIdCmd
  grind [Keeps.refl, Keeps.trans, keeps_mk, Keeps.foldl, Keeps.foldlSnd, keeps_runCmd, keeps_moduleIdBody, Ans.stateOr, Ans.ok, Ans.no]

theorem keeps_routeSetBody (a0 a1 a2) (s) : Keeps s ((routeSetBody a0 a1 a2 s).stateOr s) := by
  unfold routeSetBody
  grind [Keeps.refl, Keeps.trans, keeps_mk, Keeps.foldl, Keeps.foldlSnd, keeps_Ans_ok, keeps_regPut, Ans.stateOr, Ans.ok, Ans.no]

theorem keeps_routeSetCmd (a0) (s) : Keeps s (routeSetCmd a0 s) := by
  unfold routeSetCmd
  grind [Keeps.refl, Keeps.trans, keeps_mk, Keeps.foldl, Keeps.foldlSnd, keeps_runCmd, keeps_routeSetBody, Ans.stateOr, Ans.ok, Ans.no]

theorem keeps_acceptSetBody (a0 a1) (s) : Keeps s ((acceptSetBody a0 a1 s).stateOr s) := by
  unfold acceptSetBody
  grind [Keeps.refl, Keeps.trans, keeps_mk, Keeps.foldl, Keeps.foldlSnd, keeps_Ans_ok, keeps_regPut, Ans.stateOr, Ans.ok, Ans.no]

theorem keeps_acceptSetCmd (a0) (s) : Keeps s (acceptSetCmd a0 s) := by
  unfold acceptSetCmd
  grind [Keeps.refl, Keeps.trans, keeps_mk, Keeps.foldl, Keeps.foldlSnd, keeps_runCmd, keeps_acceptSetBody, Ans.stateOr, Ans.ok, Ans.no]

theorem keeps_endGroupRuns (a0) (s) : Keeps s (endGroupRuns a0 s) := by
  unfold endGroupRuns
  grind [Keeps.refl, Keeps.trans, keeps_mk, Keeps.foldl, Keeps.foldlSnd, keeps_collEnd]

theorem keeps_groupDefineBody (a0 a1 a2) (s) : Keeps s ((groupDefineBody a0 a1 a2 s).stateOr s) := by
  unfold groupDefineBody
  grind [Keeps.refl, Keeps.trans, keeps_mk, Keeps.foldl, Keeps.foldlSnd, keeps_Ans_no, keeps_endGroupRuns, keeps_Ans_ok, Ans.stateOr, Ans.ok, Ans.no]

theorem keeps_groupDefineCmd (a0) (s) : Keeps s (groupDefineCmd a0 s) := by
  unfold groupDefineCmd
  grind [Keeps.refl, Keeps.trans, keeps_mk, Keeps.foldl, Keeps.foldlSnd, keeps_runCmd, keeps_groupDefineBody, Ans.stateOr, Ans.ok, Ans.no]

theorem keeps_remoteBody (a0 a1 a2) (s) : Keeps s ((remoteBody a0 a1 a2 s).stateOr s) := by
  unfold remoteBody
  grind [Keeps.refl, Keeps.trans, keeps_mk, Keeps.foldl, Keeps.foldlSnd, keeps_Ans_no, keeps_takeTag, keeps_enqueuePkt, Ans.stateOr, Ans.ok, Ans.no]

theorem keeps_remoteCmd (a0) (s) : Keeps s (remoteCmd a0 s) := by
  unfold remoteCmd
  grind [Keeps.refl, Keeps.trans, keeps_mk, Keeps.foldl, Keeps.foldlSnd, keeps_runCmd, keeps_remoteBody, Ans.stateOr, Ans.ok, Ans.no]

theorem keeps_execIdentify (a0) (s) : Keeps s (nextOr s (execIdentify a0 s)) := by
  unfold execIdentify
  grind [Keeps.refl, Keeps.trans, keeps_mk, Keeps.foldl, Keeps.foldlSnd, keeps_identifyCmd, nextOr]

theorem keeps_execTenantInfo (a0) (s) : Keeps s (nextOr s (execTenantInfo a0 s)) := by
  unfold execTenantInfo
  grind [Keeps.refl, Keeps.trans, keeps_mk, Keeps.foldl, Keeps.foldlSnd, keeps_tenantInfoCmd, nextOr]

theorem keeps_execQpCreate (a0) (s) : Keeps s (nextOr s (execQpCreate a0 s)) := by
  unfold execQpCreate
  grind [Keeps.refl, Keeps.trans, keeps_mk, Keeps.foldl, Keeps.foldlSnd, keeps_qpCreateCmd, nextOr]

theorem keeps_execQpDelete (a0) (s) : Keeps s (nextOr s (execQpDelete a0 s)) := by
  unfold execQpDelete
  grind [Keeps.refl, Keeps.trans, keeps_mk, Keeps.foldl, Keeps.foldlSnd, keeps_qpDeleteCmd, nextOr]

theorem keeps_execQpAssign (a0) (s) : Keeps s (nextOr s (execQpAssign a0 s)) := by
  unfold execQpAssign
  grind [Keeps.refl, Keeps.trans, keeps_mk, Keeps.foldl, Keeps.foldlSnd, keeps_qpAssignCmd, nextOr]

theorem keeps_execMemRead (a0) (s) : Keeps s (nextOr s (execMemRead a0 s)) := by
  unfold execMemRead
  grind [Keeps.refl, Keeps.trans, keeps_mk, Keeps.foldl, Keeps.foldlSnd, keeps_memReadCmd, nextOr]

theorem keeps_execMemWrite (a0) (s) : Keeps s (nextOr s (execMemWrite a0 s)) := by
  unfold execMemWrite
  grind [Keeps.refl, Keeps.trans, keeps_mk, Keeps.foldl, Keeps.foldlSnd, keeps_memWriteCmd, nextOr]

theorem keeps_execGranuleAttr (a0) (s) : Keeps s (nextOr s (execGranuleAttr a0 s)) := by
  unfold execGranuleAttr
  grind [Keeps.refl, Keeps.trans, keeps_mk, Keeps.foldl, Keeps.foldlSnd, keeps_granuleAttrCmd, nextOr]

theorem keeps_execRcWays (a0) (s) : Keeps s (nextOr s (execRcWays a0 s)) := by
  unfold execRcWays
  grind [Keeps.refl, Keeps.trans, keeps_mk, Keeps.foldl, Keeps.foldlSnd, keeps_rcWaysCmd, nextOr]

theorem keeps_execRcFlush (a0) (s) : Keeps s (nextOr s (execRcFlush a0 s)) := by
  unfold execRcFlush
  grind [Keeps.refl, Keeps.trans, keeps_mk, Keeps.foldl, Keeps.foldlSnd, keeps_rcFlushCmd, nextOr]

theorem keeps_execDmaLimit (a0) (s) : Keeps s (nextOr s (execDmaLimit a0 s)) := by
  unfold execDmaLimit
  grind [Keeps.refl, Keeps.trans, keeps_mk, Keeps.foldl, Keeps.foldlSnd, keeps_dmaLimitCmd, nextOr]

theorem keeps_execRowRepair (a0) (s) : Keeps s (nextOr s (execRowRepair a0 s)) := by
  unfold execRowRepair
  grind [Keeps.refl, Keeps.trans, keeps_mk, Keeps.foldl, Keeps.foldlSnd, keeps_rowRepairCmd, nextOr]

theorem keeps_execPatrolScrubRead (a0) (s) : Keeps s (nextOr s (execPatrolScrubRead a0 s)) := by
  unfold execPatrolScrubRead
  grind [Keeps.refl, Keeps.trans, keeps_mk, Keeps.foldl, Keeps.foldlSnd, keeps_scrubRead, nextOr]

theorem keeps_execStackWake (a0) (s) : Keeps s (nextOr s (execStackWake a0 s)) := by
  unfold execStackWake
  grind [Keeps.refl, Keeps.trans, keeps_mk, Keeps.foldl, Keeps.foldlSnd, keeps_wakeStack, nextOr]

theorem keeps_execModuleId (a0) (s) : Keeps s (nextOr s (execModuleId a0 s)) := by
  unfold execModuleId
  grind [Keeps.refl, Keeps.trans, keeps_mk, Keeps.foldl, Keeps.foldlSnd, keeps_moduleIdCmd, nextOr]

theorem keeps_execRouteSet (a0) (s) : Keeps s (nextOr s (execRouteSet a0 s)) := by
  unfold execRouteSet
  grind [Keeps.refl, Keeps.trans, keeps_mk, Keeps.foldl, Keeps.foldlSnd, keeps_routeSetCmd, nextOr]

theorem keeps_execAcceptSet (a0) (s) : Keeps s (nextOr s (execAcceptSet a0 s)) := by
  unfold execAcceptSet
  grind [Keeps.refl, Keeps.trans, keeps_mk, Keeps.foldl, Keeps.foldlSnd, keeps_acceptSetCmd, nextOr]

theorem keeps_execGroupDefine (a0) (s) : Keeps s (nextOr s (execGroupDefine a0 s)) := by
  unfold execGroupDefine
  grind [Keeps.refl, Keeps.trans, keeps_mk, Keeps.foldl, Keeps.foldlSnd, keeps_flushWaits, keeps_groupDefineCmd, nextOr]

theorem keeps_execRemote (a0) (s) : Keeps s (nextOr s (execRemote a0 s)) := by
  unfold execRemote
  grind [Keeps.refl, Keeps.trans, keeps_mk, Keeps.foldl, Keeps.foldlSnd, keeps_remoteCmd, nextOr]

end Sys2Proof.Machine
end

