-- ==== Sys2Proof/Laws/KeepsCrest.lean ====
section
/-! SUPPORT. Every operation of Sys2Proof/Machine/Crest.lean keeps what `Keeps` says. -/

namespace Sys2Proof.Machine

theorem keeps_enterCrest (a0) (s) : Keeps s (enterCrest a0 s) := by
  unfold enterCrest
  grind [Keeps.refl, Keeps.trans, keeps_mk, Keeps.foldl, Keeps.foldlSnd, keeps_fset, keeps_trace, keeps_occurs]

theorem keeps_setParent (a0) (s) : Keeps s (setParent a0 s) := by
  unfold setParent
  grind [Keeps.refl, Keeps.trans, keeps_mk, Keeps.foldl, Keeps.foldlSnd, keeps_fset]

theorem keeps_chooseParent (s) : Keeps s (chooseParent s) := by
  unfold chooseParent
  grind [Keeps.refl, Keeps.trans, keeps_mk, Keeps.foldl, Keeps.foldlSnd, keeps_setParent, keeps_enterCrest]

theorem keeps_parentBody (a0 a1) (s) : Keeps s ((parentBody a0 a1 s).stateOr s) := by
  unfold parentBody
  grind [Keeps.refl, Keeps.trans, keeps_mk, Keeps.foldl, Keeps.foldlSnd, keeps_Ans_ok, keeps_chooseParent, keeps_regPut, Ans.stateOr, Ans.ok, Ans.no]

theorem keeps_parentCmd (a0) (s) : Keeps s (parentCmd a0 s) := by
  unfold parentCmd
  grind [Keeps.refl, Keeps.trans, keeps_mk, Keeps.foldl, Keeps.foldlSnd, keeps_runCmd, keeps_parentBody, Ans.stateOr, Ans.ok, Ans.no]

theorem keeps_parentLost (s) : Keeps s (parentLost s) := by
  unfold parentLost
  grind [Keeps.refl, Keeps.trans, keeps_mk, Keeps.foldl, Keeps.foldlSnd, keeps_chooseParent]

theorem keeps_servo (a0) (s) : Keeps s (servo a0 s) := by
  unfold servo
  grind [Keeps.refl, Keeps.trans, keeps_mk, Keeps.foldl, Keeps.foldlSnd, keeps_fset, keeps_enterCrest, keeps_nextFree]

theorem keeps_takeReport (a0 a1 a2) (s) : Keeps s (takeReport a0 a1 a2 s) := by
  unfold takeReport
  grind [Keeps.refl, Keeps.trans, keeps_mk, Keeps.foldl, Keeps.foldlSnd, keeps_chooseParent, keeps_servo]

theorem keeps_crestReportBody (a0 a1 a2) (s) : Keeps s ((crestReportBody a0 a1 a2 s).stateOr s) := by
  unfold crestReportBody
  grind [Keeps.refl, Keeps.trans, keeps_mk, Keeps.foldl, Keeps.foldlSnd, keeps_Ans_ok, keeps_takeReport, Ans.stateOr, Ans.ok, Ans.no]

theorem keeps_crestReportCmd (a0) (s) : Keeps s (crestReportCmd a0 s) := by
  unfold crestReportCmd
  grind [Keeps.refl, Keeps.trans, keeps_mk, Keeps.foldl, Keeps.foldlSnd, keeps_runCmd, keeps_crestReportBody, Ans.stateOr, Ans.ok, Ans.no]

theorem keeps_sendReport (a0) (s) : Keeps s (sendReport a0 s) := by
  unfold sendReport
  grind [Keeps.refl, Keeps.trans, keeps_mk, Keeps.foldl, Keeps.foldlSnd, keeps_chooseParent, keeps_takeTag, keeps_enqueuePkt]

theorem keeps_alignDie (a0) (s) : Keeps s (alignDie a0 s) := by
  unfold alignDie
  grind [Keeps.refl, Keeps.trans, keeps_mk, Keeps.foldl, Keeps.foldlSnd, keeps_occurs, keeps_fset]

theorem keeps_epochPulse (s) : Keeps s (epochPulse s) := by
  unfold epochPulse
  grind [Keeps.refl, Keeps.trans, keeps_mk, Keeps.foldl, Keeps.foldlSnd, keeps_alignDie]

theorem keeps_setCrest (a0) (s) : Keeps s (setCrest a0 s) := by
  unfold setCrest
  grind [Keeps.refl, Keeps.trans, keeps_mk, Keeps.foldl, Keeps.foldlSnd]

theorem keeps_timeSetBody (a0 a1) (s) : Keeps s ((timeSetBody a0 a1 s).stateOr s) := by
  unfold timeSetBody
  grind [Keeps.refl, Keeps.trans, keeps_mk, Keeps.foldl, Keeps.foldlSnd, keeps_Ans_ok, keeps_setCrest, Ans.stateOr, Ans.ok, Ans.no]

theorem keeps_timeSetCmd (a0) (s) : Keeps s (timeSetCmd a0 s) := by
  unfold timeSetCmd
  grind [Keeps.refl, Keeps.trans, keeps_mk, Keeps.foldl, Keeps.foldlSnd, keeps_runCmd, keeps_timeSetBody, Ans.stateOr, Ans.ok, Ans.no]

theorem keeps_timeStepBody (a0 a1) (s) : Keeps s ((timeStepBody a0 a1 s).stateOr s) := by
  unfold timeStepBody
  grind [Keeps.refl, Keeps.trans, keeps_mk, Keeps.foldl, Keeps.foldlSnd, keeps_Ans_no, keeps_setCrest, keeps_trace, keeps_Ans_ok, keeps_chooseParent, keeps_fset, Ans.stateOr, Ans.ok, Ans.no]

theorem keeps_timeStepCmd (a0) (s) : Keeps s (timeStepCmd a0 s) := by
  unfold timeStepCmd
  grind [Keeps.refl, Keeps.trans, keeps_mk, Keeps.foldl, Keeps.foldlSnd, keeps_runCmd, keeps_timeStepBody, Ans.stateOr, Ans.ok, Ans.no]

theorem keeps_traceRingBody (a0 a1) (s) : Keeps s ((traceRingBody a0 a1 s).stateOr s) := by
  unfold traceRingBody
  grind [Keeps.refl, Keeps.trans, keeps_mk, Keeps.foldl, Keeps.foldlSnd, keeps_Ans_no, keeps_Ans_ok, keeps_setRing, Ans.stateOr, Ans.ok, Ans.no]

theorem keeps_traceRingCmd (a0) (s) : Keeps s (traceRingCmd a0 s) := by
  unfold traceRingCmd
  grind [Keeps.refl, Keeps.trans, keeps_mk, Keeps.foldl, Keeps.foldlSnd, keeps_runCmd, keeps_traceRingBody, Ans.stateOr, Ans.ok, Ans.no]

theorem keeps_execTraceRing (a0) (s) : Keeps s (nextOr s (execTraceRing a0 s)) := by
  unfold execTraceRing
  grind [Keeps.refl, Keeps.trans, keeps_mk, Keeps.foldl, Keeps.foldlSnd, keeps_traceRingCmd, nextOr]

theorem keeps_execTimeSet (a0) (s) : Keeps s (nextOr s (execTimeSet a0 s)) := by
  unfold execTimeSet
  grind [Keeps.refl, Keeps.trans, keeps_mk, Keeps.foldl, Keeps.foldlSnd, keeps_timeSetCmd, nextOr]

theorem keeps_execTimeStep (a0) (s) : Keeps s (nextOr s (execTimeStep a0 s)) := by
  unfold execTimeStep
  grind [Keeps.refl, Keeps.trans, keeps_mk, Keeps.foldl, Keeps.foldlSnd, keeps_timeStepCmd, nextOr]

theorem keeps_execParentSet (a0) (s) : Keeps s (nextOr s (execParentSet a0 s)) := by
  unfold execParentSet
  grind [Keeps.refl, Keeps.trans, keeps_mk, Keeps.foldl, Keeps.foldlSnd, keeps_parentCmd, nextOr]

theorem keeps_execCrestReport (a0) (s) : Keeps s (nextOr s (execCrestReport a0 s)) := by
  unfold execCrestReport
  grind [Keeps.refl, Keeps.trans, keeps_mk, Keeps.foldl, Keeps.foldlSnd, keeps_crestReportCmd, nextOr]

theorem keeps_execCrestEpochPulse (s) : Keeps s (nextOr s (execCrestEpochPulse s)) := by
  unfold execCrestEpochPulse
  grind [Keeps.refl, Keeps.trans, keeps_mk, Keeps.foldl, Keeps.foldlSnd, keeps_epochPulse, nextOr]

theorem keeps_execCrestReportTimer (a0) (s) : Keeps s (nextOr s (execCrestReportTimer a0 s)) := by
  unfold execCrestReportTimer
  grind [Keeps.refl, Keeps.trans, keeps_mk, Keeps.foldl, Keeps.foldlSnd, keeps_sendReport, nextOr]

theorem keeps_execParentPortLost (s) : Keeps s (nextOr s (execParentPortLost s)) := by
  unfold execParentPortLost
  grind [Keeps.refl, Keeps.trans, keeps_mk, Keeps.foldl, Keeps.foldlSnd, keeps_parentLost, nextOr]

end Sys2Proof.Machine
end

