-- ==== Sys2Proof/Laws/KeepsScalar.lean ====
section
/-! SUPPORT. Every operation of Sys2Proof/Machine/Scalar.lean keeps what `Keeps` says. -/

namespace Sys2Proof.Machine

theorem keeps_execNop (a0 a1 a2) (s) : Keeps s (nextOr s (execNop a0 a1 a2 s)) := by
  simp only [execNop, nextOr]
  refine keeps_sqRun _ _ _ _ (fun pc t => ?_)
  grind [Keeps.refl, Keeps.trans, keeps_mk, Keeps.foldl, Keeps.foldlSnd, keeps_sqRun, ERes.state, nextOr]

theorem keeps_endShare (a0) (s) : Keeps s (endShare a0 s) := by
  unfold endShare
  grind [Keeps.refl, Keeps.trans, keeps_mk, Keeps.foldl, Keeps.foldlSnd, keeps_setCore, keeps_preemptDone, keeps_updTask]

theorem keeps_execEndTask (a0 a1 a2) (s) : Keeps s (nextOr s (execEndTask a0 a1 a2 s)) := by
  simp only [execEndTask, nextOr]
  refine keeps_sqRun _ _ _ _ (fun pc t => ?_)
  grind [Keeps.refl, Keeps.trans, keeps_mk, Keeps.foldl, Keeps.foldlSnd, keeps_sqRun, keeps_endShare, ERes.state, nextOr]

theorem keeps_execJmp (a0 a1 a2) (s) : Keeps s (nextOr s (execJmp a0 a1 a2 s)) := by
  unfold execJmp
  grind [Keeps.refl, Keeps.trans, keeps_mk, Keeps.foldl, Keeps.foldlSnd, keeps_sqRun, keeps_effJump, ERes.state, ERes.state, Keeps.foldlERes, nextOr]

theorem keeps_execJnz (a0 a1 a2) (s) : Keeps s (nextOr s (execJnz a0 a1 a2 s)) := by
  unfold execJnz
  grind [Keeps.refl, Keeps.trans, keeps_mk, Keeps.foldl, Keeps.foldlSnd, keeps_sqRun, keeps_effJump, ERes.state, ERes.state, Keeps.foldlERes, nextOr]

theorem keeps_execJz (a0 a1 a2) (s) : Keeps s (nextOr s (execJz a0 a1 a2 s)) := by
  unfold execJz
  grind [Keeps.refl, Keeps.trans, keeps_mk, Keeps.foldl, Keeps.foldlSnd, keeps_sqRun, keeps_effJump, ERes.state, ERes.state, Keeps.foldlERes, nextOr]

theorem keeps_effLoop (a0 a1 a2) (s) : Keeps s (effLoop a0 a1 a2 s).state := by
  unfold effLoop
  grind [Keeps.refl, Keeps.trans, keeps_mk, Keeps.foldl, Keeps.foldlSnd, keeps_effJump, keeps_updCore, ERes.state, Keeps.foldlERes]

theorem keeps_execLoop (a0 a1 a2) (s) : Keeps s (nextOr s (execLoop a0 a1 a2 s)) := by
  unfold execLoop
  grind [Keeps.refl, Keeps.trans, keeps_mk, Keeps.foldl, Keeps.foldlSnd, keeps_sqRun, keeps_effLoop, ERes.state, ERes.state, Keeps.foldlERes, nextOr]

theorem keeps_execCall (a0 a1 a2) (s) : Keeps s (nextOr s (execCall a0 a1 a2 s)) := by
  unfold execCall
  grind [Keeps.refl, Keeps.trans, keeps_mk, Keeps.foldl, Keeps.foldlSnd, keeps_sqRun, keeps_effJump, keeps_updCore, ERes.state, ERes.state, Keeps.foldlERes, nextOr]

theorem keeps_effRet (a0 a1 a2) (s) : Keeps s (effRet a0 a1 a2 s).state := by
  unfold effRet
  grind [Keeps.refl, Keeps.trans, keeps_mk, Keeps.foldl, Keeps.foldlSnd, keeps_setPc, ERes.state, Keeps.foldlERes]

theorem keeps_execRet (a0 a1 a2) (s) : Keeps s (nextOr s (execRet a0 a1 a2 s)) := by
  unfold execRet
  grind [Keeps.refl, Keeps.trans, keeps_mk, Keeps.foldl, Keeps.foldlSnd, keeps_sqRun, keeps_effRet, ERes.state, ERes.state, Keeps.foldlERes, nextOr]

theorem keeps_execYield (a0 a1 a2) (s) : Keeps s (nextOr s (execYield a0 a1 a2 s)) := by
  simp only [execYield, nextOr]
  refine keeps_sqRun _ _ _ _ (fun pc t => ?_)
  grind [Keeps.refl, Keeps.trans, keeps_mk, Keeps.foldl, Keeps.foldlSnd, keeps_sqRun, keeps_preemptCore, ERes.state, nextOr]

theorem keeps_effSxt (a0 a1 a2) (s) : Keeps s (effSxt a0 a1 a2 s).state := by
  unfold effSxt
  grind [Keeps.refl, Keeps.trans, keeps_mk, Keeps.foldl, Keeps.foldlSnd, keeps_updCore, ERes.state, Keeps.foldlERes]

theorem keeps_execSxt (a0 a1 a2) (s) : Keeps s (nextOr s (execSxt a0 a1 a2 s)) := by
  unfold execSxt
  grind [Keeps.refl, Keeps.trans, keeps_mk, Keeps.foldl, Keeps.foldlSnd, keeps_sqRun, keeps_effSxt, ERes.state, ERes.state, Keeps.foldlERes, nextOr]

theorem keeps_effTrap (a0 a1 a2) (s) : Keeps s (effTrap a0 a1 a2 s).state := by
  unfold effTrap
  grind [Keeps.refl, Keeps.trans, keeps_mk, Keeps.foldl, Keeps.foldlSnd, keeps_failTask, ERes.state, Keeps.foldlERes]

theorem keeps_execTrap (a0 a1 a2) (s) : Keeps s (nextOr s (execTrap a0 a1 a2 s)) := by
  unfold execTrap
  grind [Keeps.refl, Keeps.trans, keeps_mk, Keeps.foldl, Keeps.foldlSnd, keeps_sqRun, keeps_effTrap, ERes.state, ERes.state, Keeps.foldlERes, nextOr]

theorem keeps_execAdd (a0 a1 a2) (s) : Keeps s (nextOr s (execAdd a0 a1 a2 s)) := by
  unfold execAdd
  grind [Keeps.refl, Keeps.trans, keeps_mk, Keeps.foldl, Keeps.foldlSnd, keeps_sqRun, keeps_effAlu, ERes.state, ERes.state, Keeps.foldlERes, nextOr]

theorem keeps_execSub (a0 a1 a2) (s) : Keeps s (nextOr s (execSub a0 a1 a2 s)) := by
  unfold execSub
  grind [Keeps.refl, Keeps.trans, keeps_mk, Keeps.foldl, Keeps.foldlSnd, keeps_sqRun, keeps_effAlu, ERes.state, ERes.state, Keeps.foldlERes, nextOr]

theorem keeps_execMul (a0 a1 a2) (s) : Keeps s (nextOr s (execMul a0 a1 a2 s)) := by
  unfold execMul
  grind [Keeps.refl, Keeps.trans, keeps_mk, Keeps.foldl, Keeps.foldlSnd, keeps_sqRun, keeps_effAlu, ERes.state, ERes.state, Keeps.foldlERes, nextOr]

theorem keeps_execAndd (a0 a1 a2) (s) : Keeps s (nextOr s (execAndd a0 a1 a2 s)) := by
  unfold execAndd
  grind [Keeps.refl, Keeps.trans, keeps_mk, Keeps.foldl, Keeps.foldlSnd, keeps_sqRun, keeps_effAlu, ERes.state, ERes.state, Keeps.foldlERes, nextOr]

theorem keeps_execOrr (a0 a1 a2) (s) : Keeps s (nextOr s (execOrr a0 a1 a2 s)) := by
  unfold execOrr
  grind [Keeps.refl, Keeps.trans, keeps_mk, Keeps.foldl, Keeps.foldlSnd, keeps_sqRun, keeps_effAlu, ERes.state, ERes.state, Keeps.foldlERes, nextOr]

theorem keeps_execXorr (a0 a1 a2) (s) : Keeps s (nextOr s (execXorr a0 a1 a2 s)) := by
  unfold execXorr
  grind [Keeps.refl, Keeps.trans, keeps_mk, Keeps.foldl, Keeps.foldlSnd, keeps_sqRun, keeps_effAlu, ERes.state, ERes.state, Keeps.foldlERes, nextOr]

theorem keeps_execShl (a0 a1 a2) (s) : Keeps s (nextOr s (execShl a0 a1 a2 s)) := by
  unfold execShl
  grind [Keeps.refl, Keeps.trans, keeps_mk, Keeps.foldl, Keeps.foldlSnd, keeps_sqRun, keeps_effAlu, ERes.state, ERes.state, Keeps.foldlERes, nextOr]

theorem keeps_execShr (a0 a1 a2) (s) : Keeps s (nextOr s (execShr a0 a1 a2 s)) := by
  unfold execShr
  grind [Keeps.refl, Keeps.trans, keeps_mk, Keeps.foldl, Keeps.foldlSnd, keeps_sqRun, keeps_effAlu, ERes.state, ERes.state, Keeps.foldlERes, nextOr]

theorem keeps_execSar (a0 a1 a2) (s) : Keeps s (nextOr s (execSar a0 a1 a2 s)) := by
  unfold execSar
  grind [Keeps.refl, Keeps.trans, keeps_mk, Keeps.foldl, Keeps.foldlSnd, keeps_sqRun, keeps_effAlu, ERes.state, ERes.state, Keeps.foldlERes, nextOr]

theorem keeps_execMinn (a0 a1 a2) (s) : Keeps s (nextOr s (execMinn a0 a1 a2 s)) := by
  unfold execMinn
  grind [Keeps.refl, Keeps.trans, keeps_mk, Keeps.foldl, Keeps.foldlSnd, keeps_sqRun, keeps_effAlu, ERes.state, ERes.state, Keeps.foldlERes, nextOr]

theorem keeps_execMaxx (a0 a1 a2) (s) : Keeps s (nextOr s (execMaxx a0 a1 a2 s)) := by
  unfold execMaxx
  grind [Keeps.refl, Keeps.trans, keeps_mk, Keeps.foldl, Keeps.foldlSnd, keeps_sqRun, keeps_effAlu, ERes.state, ERes.state, Keeps.foldlERes, nextOr]

theorem keeps_execSlt (a0 a1 a2) (s) : Keeps s (nextOr s (execSlt a0 a1 a2 s)) := by
  unfold execSlt
  grind [Keeps.refl, Keeps.trans, keeps_mk, Keeps.foldl, Keeps.foldlSnd, keeps_sqRun, keeps_effAlu, ERes.state, ERes.state, Keeps.foldlERes, nextOr]

theorem keeps_execSltu (a0 a1 a2) (s) : Keeps s (nextOr s (execSltu a0 a1 a2 s)) := by
  unfold execSltu
  grind [Keeps.refl, Keeps.trans, keeps_mk, Keeps.foldl, Keeps.foldlSnd, keeps_sqRun, keeps_effAlu, ERes.state, ERes.state, Keeps.foldlERes, nextOr]

theorem keeps_execSeq (a0 a1 a2) (s) : Keeps s (nextOr s (execSeq a0 a1 a2 s)) := by
  unfold execSeq
  grind [Keeps.refl, Keeps.trans, keeps_mk, Keeps.foldl, Keeps.foldlSnd, keeps_sqRun, keeps_effAlu, ERes.state, ERes.state, Keeps.foldlERes, nextOr]

theorem keeps_execLi (a0 a1 a2) (s) : Keeps s (nextOr s (execLi a0 a1 a2 s)) := by
  simp only [execLi, nextOr]
  refine keeps_sqRun _ _ _ _ (fun pc t => ?_)
  grind [Keeps.refl, Keeps.trans, keeps_mk, Keeps.foldl, Keeps.foldlSnd, keeps_sqRun, keeps_updCore, ERes.state, nextOr]

theorem keeps_execCrst (a0 a1 a2) (s) : Keeps s (nextOr s (execCrst a0 a1 a2 s)) := by
  simp only [execCrst, nextOr]
  refine keeps_sqRun _ _ _ _ (fun pc t => ?_)
  grind [Keeps.refl, Keeps.trans, keeps_mk, Keeps.foldl, Keeps.foldlSnd, keeps_sqRun, keeps_updCore, ERes.state, nextOr]

theorem keeps_effSld (a0 a1 a2) (s) : Keeps s (effSld a0 a1 a2 s).state := by
  unfold effSld
  grind [Keeps.refl, Keeps.trans, keeps_mk, Keeps.foldl, Keeps.foldlSnd, keeps_sheafLoad, keeps_updCore, ERes.state, Keeps.foldlERes]

theorem keeps_execSld (a0 a1 a2) (s) : Keeps s (nextOr s (execSld a0 a1 a2 s)) := by
  unfold execSld
  grind [Keeps.refl, Keeps.trans, keeps_mk, Keeps.foldl, Keeps.foldlSnd, keeps_sqRun, keeps_effSld, ERes.state, ERes.state, Keeps.foldlERes, nextOr]

theorem keeps_effSst (a0 a1 a2) (s) : Keeps s (effSst a0 a1 a2 s).state := by
  unfold effSst
  grind [Keeps.refl, Keeps.trans, keeps_mk, Keeps.foldl, Keeps.foldlSnd, keeps_sheafStore, ERes.state, Keeps.foldlERes]

theorem keeps_execSst (a0 a1 a2) (s) : Keeps s (nextOr s (execSst a0 a1 a2 s)) := by
  unfold execSst
  grind [Keeps.refl, Keeps.trans, keeps_mk, Keeps.foldl, Keeps.foldlSnd, keeps_sqRun, keeps_effSst, ERes.state, ERes.state, Keeps.foldlERes, nextOr]

theorem keeps_effSldg (a0 a1 a2) (s) : Keeps s (effSldg a0 a1 a2 s).state := by
  unfold effSldg
  grind [Keeps.refl, Keeps.trans, keeps_mk, Keeps.foldl, Keeps.foldlSnd, keeps_vread, keeps_updCore, keeps_coreAccessFail, ERes.state, Keeps.foldlERes]

theorem keeps_execSldg (a0 a1 a2) (s) : Keeps s (nextOr s (execSldg a0 a1 a2 s)) := by
  unfold execSldg
  grind [Keeps.refl, Keeps.trans, keeps_mk, Keeps.foldl, Keeps.foldlSnd, keeps_sqRun, keeps_effSldg, ERes.state, ERes.state, Keeps.foldlERes, nextOr]

theorem keeps_effSstg (a0 a1 a2) (s) : Keeps s (effSstg a0 a1 a2 s).state := by
  unfold effSstg
  grind [Keeps.refl, Keeps.trans, keeps_mk, Keeps.foldl, Keeps.foldlSnd, keeps_vwrite, keeps_coreAccessFail, ERes.state, Keeps.foldlERes]

theorem keeps_execSstg (a0 a1 a2) (s) : Keeps s (nextOr s (execSstg a0 a1 a2 s)) := by
  unfold execSstg
  grind [Keeps.refl, Keeps.trans, keeps_mk, Keeps.foldl, Keeps.foldlSnd, keeps_sqRun, keeps_effSstg, ERes.state, ERes.state, Keeps.foldlERes, nextOr]

theorem keeps_execFence (a0 a1 a2) (s) : Keeps s (nextOr s (execFence a0 a1 a2 s)) := by
  simp only [execFence, nextOr]
  refine keeps_sqRun _ _ _ _ (fun pc t => ?_)
  grind [Keeps.refl, Keeps.trans, keeps_mk, Keeps.foldl, Keeps.foldlSnd, keeps_sqRun, ERes.state, nextOr]

theorem keeps_flushPieces (a0 a1) (s) : Keeps s (flushPieces a0 a1 s).2 := by
  unfold flushPieces
  exact Keeps.foldlSnd _ _ (_, s) (fun r x => keeps_flushRange ..)

theorem keeps_effRflush (a0 a1 a2) (s) : Keeps s (effRflush a0 a1 a2 s).state := by
  unfold effRflush
  grind [Keeps.refl, Keeps.trans, keeps_mk, Keeps.foldl, Keeps.foldlSnd, keeps_translateRange, keeps_coreAccessFail, keeps_flushPieces, ERes.state, Keeps.foldlERes]

theorem keeps_execRflush (a0 a1 a2) (s) : Keeps s (nextOr s (execRflush a0 a1 a2 s)) := by
  unfold execRflush
  grind [Keeps.refl, Keeps.trans, keeps_mk, Keeps.foldl, Keeps.foldlSnd, keeps_sqRun, keeps_effRflush, ERes.state, ERes.state, Keeps.foldlERes, nextOr]

theorem keeps_effRinv (a0 a1 a2) (s) : Keeps s (effRinv a0 a1 a2 s).state := by
  unfold effRinv
  grind [Keeps.refl, Keeps.trans, keeps_mk, Keeps.foldl, Keeps.foldlSnd, keeps_translateRange, keeps_coreAccessFail, keeps_dropBorrowed, ERes.state, Keeps.foldlERes]

theorem keeps_execRinv (a0 a1 a2) (s) : Keeps s (nextOr s (execRinv a0 a1 a2 s)) := by
  unfold execRinv
  grind [Keeps.refl, Keeps.trans, keeps_mk, Keeps.foldl, Keeps.foldlSnd, keeps_sqRun, keeps_effRinv, ERes.state, ERes.state, Keeps.foldlERes, nextOr]

theorem keeps_effEvsig (a0 a1 a2) (s) : Keeps s (effEvsig a0 a1 a2 s).state := by
  unfold effEvsig
  grind [Keeps.refl, Keeps.trans, keeps_mk, Keeps.foldl, Keeps.foldlSnd, keeps_coreFail, keeps_updCore, ERes.state, Keeps.foldlERes]

theorem keeps_execEvsig (a0 a1 a2) (s) : Keeps s (nextOr s (execEvsig a0 a1 a2 s)) := by
  unfold execEvsig
  grind [Keeps.refl, Keeps.trans, keeps_mk, Keeps.foldl, Keeps.foldlSnd, keeps_sqRun, keeps_effEvsig, ERes.state, ERes.state, Keeps.foldlERes, nextOr]

theorem keeps_effEvwait (a0 a1 a2) (s) : Keeps s (effEvwait a0 a1 a2 s).state := by
  unfold effEvwait
  grind [Keeps.refl, Keeps.trans, keeps_mk, Keeps.foldl, Keeps.foldlSnd, keeps_updCore, ERes.state, Keeps.foldlERes]

theorem keeps_execEvwait (a0 a1 a2) (s) : Keeps s (nextOr s (execEvwait a0 a1 a2 s)) := by
  unfold execEvwait
  grind [Keeps.refl, Keeps.trans, keeps_mk, Keeps.foldl, Keeps.foldlSnd, keeps_sqRun, keeps_effEvwait, ERes.state, ERes.state, Keeps.foldlERes, nextOr]

theorem keeps_execEvrd (a0 a1 a2) (s) : Keeps s (nextOr s (execEvrd a0 a1 a2 s)) := by
  simp only [execEvrd, nextOr]
  refine keeps_sqRun _ _ _ _ (fun pc t => ?_)
  grind [Keeps.refl, Keeps.trans, keeps_mk, Keeps.foldl, Keeps.foldlSnd, keeps_sqRun, keeps_updCore, ERes.state, nextOr]

theorem keeps_effSemacq (a0 a1 a2 a3) (s) : Keeps s (effSemacq a0 a1 a2 a3 s).state := by
  unfold effSemacq
  grind [Keeps.refl, Keeps.trans, keeps_mk, Keeps.foldl, Keeps.foldlSnd, keeps_semRead, keeps_coreAccessFail, keeps_semWrite, keeps_updCore, ERes.state, Keeps.foldlERes]

theorem keeps_execSemacq (a0 a1 a2) (s) : Keeps s (nextOr s (execSemacq a0 a1 a2 s)) := by
  unfold execSemacq
  grind [Keeps.refl, Keeps.trans, keeps_mk, Keeps.foldl, Keeps.foldlSnd, keeps_sqRun, keeps_effSemacq, ERes.state, ERes.state, Keeps.foldlERes, nextOr]

theorem keeps_execSemacqTimeout (a0) (s) : Keeps s (nextOr s (execSemacqTimeout a0 s)) := by
  unfold execSemacqTimeout
  grind [Keeps.refl, Keeps.trans, keeps_mk, Keeps.foldl, Keeps.foldlSnd, keeps_pump, keeps_signalEv, keeps_setCore, nextOr]

theorem keeps_effSemrel (a0 a1 a2) (s) : Keeps s (effSemrel a0 a1 a2 s).state := by
  unfold effSemrel
  grind [Keeps.refl, Keeps.trans, keeps_mk, Keeps.foldl, Keeps.foldlSnd, keeps_semRead, keeps_coreAccessFail, keeps_semWrite, ERes.state, Keeps.foldlERes]

theorem keeps_execSemrel (a0 a1 a2) (s) : Keeps s (nextOr s (execSemrel a0 a1 a2 s)) := by
  unfold execSemrel
  grind [Keeps.refl, Keeps.trans, keeps_mk, Keeps.foldl, Keeps.foldlSnd, keeps_sqRun, keeps_effSemrel, ERes.state, ERes.state, Keeps.foldlERes, nextOr]

theorem keeps_execInstructionCompletion (a0 a1) (s) : Keeps s (nextOr s (execInstructionCompletion a0 a1 s)) := by
  unfold execInstructionCompletion
  grind [Keeps.refl, Keeps.trans, keeps_mk, Keeps.foldl, Keeps.foldlSnd, keeps_complete, nextOr]

end Sys2Proof.Machine
end

