-- ==== Sys2Proof/Laws/KeepsSmbus.lean ====
section
/-! SUPPORT. Every operation of Sys2Proof/Machine/Smbus.lean keeps what `Keeps` says. -/

namespace Sys2Proof.Machine

theorem keeps_smbusRead (a0 a1) (s) : Keeps s (smbusRead a0 a1 s) := by
  unfold smbusRead
  grind [Keeps.refl, Keeps.trans, keeps_mk, Keeps.foldl, Keeps.foldlSnd, keeps_emit]

theorem keeps_smbusIdentify (a0) (s) : Keeps s (smbusIdentify a0 s) := by
  unfold smbusIdentify
  grind [Keeps.refl, Keeps.trans, keeps_mk, Keeps.foldl, Keeps.foldlSnd, keeps_smbusRead]

theorem keeps_smbusStatus (a0) (s) : Keeps s (smbusStatus a0 s) := by
  unfold smbusStatus
  grind [Keeps.refl, Keeps.trans, keeps_mk, Keeps.foldl, Keeps.foldlSnd, keeps_smbusRead]

theorem keeps_smbusTelemetry (a0) (s) : Keeps s (smbusTelemetry a0 s) := by
  unfold smbusTelemetry
  grind [Keeps.refl, Keeps.trans, keeps_mk, Keeps.foldl, Keeps.foldlSnd, keeps_smbusRead]

theorem keeps_smbusFaults (a0) (s) : Keeps s (smbusFaults a0 s) := by
  unfold smbusFaults
  grind [Keeps.refl, Keeps.trans, keeps_mk, Keeps.foldl, Keeps.foldlSnd, keeps_smbusRead]

theorem keeps_cairnSelect (a0 a1 a2) (s) : Keeps s (cairnSelect a0 a1 a2 s) := by
  unfold cairnSelect
  grind [Keeps.refl, Keeps.trans, keeps_mk, Keeps.foldl, Keeps.foldlSnd, keeps_emit]

theorem keeps_cairnRead (a0) (s) : Keeps s (cairnRead a0 s) := by
  unfold cairnRead
  grind [Keeps.refl, Keeps.trans, keeps_mk, Keeps.foldl, Keeps.foldlSnd, keeps_emit, keeps_smbusRead]

theorem keeps_cairnLast (a0) (s) : Keeps s (cairnLast a0 s) := by
  unfold cairnLast
  grind [Keeps.refl, Keeps.trans, keeps_mk, Keeps.foldl, Keeps.foldlSnd, keeps_smbusRead, keeps_nextFree]

theorem keeps_alertAnswer (a0) (s) : Keeps s (alertAnswer a0 s) := by
  unfold alertAnswer
  grind [Keeps.refl, Keeps.trans, keeps_mk, Keeps.foldl, Keeps.foldlSnd, keeps_smbusRead]

theorem keeps_execSmbusIdentify (a0) (s) : Keeps s (nextOr s (execSmbusIdentify a0 s)) := by
  unfold execSmbusIdentify
  grind [Keeps.refl, Keeps.trans, keeps_mk, Keeps.foldl, Keeps.foldlSnd, keeps_smbusIdentify, nextOr]

theorem keeps_execSmbusStatus (a0) (s) : Keeps s (nextOr s (execSmbusStatus a0 s)) := by
  unfold execSmbusStatus
  grind [Keeps.refl, Keeps.trans, keeps_mk, Keeps.foldl, Keeps.foldlSnd, keeps_smbusStatus, nextOr]

theorem keeps_execSmbusTelemetry (a0) (s) : Keeps s (nextOr s (execSmbusTelemetry a0 s)) := by
  unfold execSmbusTelemetry
  grind [Keeps.refl, Keeps.trans, keeps_mk, Keeps.foldl, Keeps.foldlSnd, keeps_smbusTelemetry, nextOr]

theorem keeps_execSmbusFaults (a0) (s) : Keeps s (nextOr s (execSmbusFaults a0 s)) := by
  unfold execSmbusFaults
  grind [Keeps.refl, Keeps.trans, keeps_mk, Keeps.foldl, Keeps.foldlSnd, keeps_smbusFaults, nextOr]

theorem keeps_execCairnSelect (a0 a1 a2) (s) : Keeps s (nextOr s (execCairnSelect a0 a1 a2 s)) := by
  unfold execCairnSelect
  grind [Keeps.refl, Keeps.trans, keeps_mk, Keeps.foldl, Keeps.foldlSnd, keeps_cairnSelect, nextOr]

theorem keeps_execCairnRead (a0) (s) : Keeps s (nextOr s (execCairnRead a0 s)) := by
  unfold execCairnRead
  grind [Keeps.refl, Keeps.trans, keeps_mk, Keeps.foldl, Keeps.foldlSnd, keeps_cairnRead, nextOr]

theorem keeps_execCairnLast (a0) (s) : Keeps s (nextOr s (execCairnLast a0 s)) := by
  unfold execCairnLast
  grind [Keeps.refl, Keeps.trans, keeps_mk, Keeps.foldl, Keeps.foldlSnd, keeps_cairnLast, nextOr]

theorem keeps_execSmbusAlertResponse (a0) (s) : Keeps s (nextOr s (execSmbusAlertResponse a0 s)) := by
  unfold execSmbusAlertResponse
  grind [Keeps.refl, Keeps.trans, keeps_mk, Keeps.foldl, Keeps.foldlSnd, keeps_alertAnswer, nextOr]

theorem keeps_execSmbusClockLowTimeout (s) : Keeps s (nextOr s (execSmbusClockLowTimeout s)) := by
  unfold execSmbusClockLowTimeout
  grind [Keeps.refl, Keeps.trans, keeps_mk, Keeps.foldl, Keeps.foldlSnd, nextOr]

end Sys2Proof.Machine
end

