-- ==== Sys2Proof/Laws/KeepsUnits.lean ====
section
/-! SUPPORT. Every operation of Sys2Proof/Machine/Units.lean keeps what `Keeps` says. -/

namespace Sys2Proof.Machine

theorem keeps_execVadd (a0 a1 a2) (s) : Keeps s (nextOr s (execVadd a0 a1 a2 s)) := by
  unfold execVadd
  grind [Keeps.refl, Keeps.trans, keeps_mk, Keeps.foldl, Keeps.foldlSnd, keeps_unitIssue, nextOr]

theorem keeps_execVsub (a0 a1 a2) (s) : Keeps s (nextOr s (execVsub a0 a1 a2 s)) := by
  unfold execVsub
  grind [Keeps.refl, Keeps.trans, keeps_mk, Keeps.foldl, Keeps.foldlSnd, keeps_unitIssue, nextOr]

theorem keeps_execVmul (a0 a1 a2) (s) : Keeps s (nextOr s (execVmul a0 a1 a2 s)) := by
  unfold execVmul
  grind [Keeps.refl, Keeps.trans, keeps_mk, Keeps.foldl, Keeps.foldlSnd, keeps_unitIssue, nextOr]

theorem keeps_execVfma (a0 a1 a2) (s) : Keeps s (nextOr s (execVfma a0 a1 a2 s)) := by
  unfold execVfma
  grind [Keeps.refl, Keeps.trans, keeps_mk, Keeps.foldl, Keeps.foldlSnd, keeps_unitIssue, nextOr]

theorem keeps_execVmin (a0 a1 a2) (s) : Keeps s (nextOr s (execVmin a0 a1 a2 s)) := by
  unfold execVmin
  grind [Keeps.refl, Keeps.trans, keeps_mk, Keeps.foldl, Keeps.foldlSnd, keeps_unitIssue, nextOr]

theorem keeps_execVmax (a0 a1 a2) (s) : Keeps s (nextOr s (execVmax a0 a1 a2 s)) := by
  unfold execVmax
  grind [Keeps.refl, Keeps.trans, keeps_mk, Keeps.foldl, Keeps.foldlSnd, keeps_unitIssue, nextOr]

theorem keeps_execVsqrt (a0 a1 a2) (s) : Keeps s (nextOr s (execVsqrt a0 a1 a2 s)) := by
  unfold execVsqrt
  grind [Keeps.refl, Keeps.trans, keeps_mk, Keeps.foldl, Keeps.foldlSnd, keeps_unitIssue, nextOr]

theorem keeps_execVrcp (a0 a1 a2) (s) : Keeps s (nextOr s (execVrcp a0 a1 a2 s)) := by
  unfold execVrcp
  grind [Keeps.refl, Keeps.trans, keeps_mk, Keeps.foldl, Keeps.foldlSnd, keeps_unitIssue, nextOr]

theorem keeps_execVrsqrt (a0 a1 a2) (s) : Keeps s (nextOr s (execVrsqrt a0 a1 a2 s)) := by
  unfold execVrsqrt
  grind [Keeps.refl, Keeps.trans, keeps_mk, Keeps.foldl, Keeps.foldlSnd, keeps_unitIssue, nextOr]

theorem keeps_execVexp2 (a0 a1 a2) (s) : Keeps s (nextOr s (execVexp2 a0 a1 a2 s)) := by
  unfold execVexp2
  grind [Keeps.refl, Keeps.trans, keeps_mk, Keeps.foldl, Keeps.foldlSnd, keeps_unitIssue, nextOr]

theorem keeps_execVlog2 (a0 a1 a2) (s) : Keeps s (nextOr s (execVlog2 a0 a1 a2 s)) := by
  unfold execVlog2
  grind [Keeps.refl, Keeps.trans, keeps_mk, Keeps.foldl, Keeps.foldlSnd, keeps_unitIssue, nextOr]

theorem keeps_execVabs (a0 a1 a2) (s) : Keeps s (nextOr s (execVabs a0 a1 a2 s)) := by
  unfold execVabs
  grind [Keeps.refl, Keeps.trans, keeps_mk, Keeps.foldl, Keeps.foldlSnd, keeps_unitIssue, nextOr]

theorem keeps_execVcmplt (a0 a1 a2) (s) : Keeps s (nextOr s (execVcmplt a0 a1 a2 s)) := by
  unfold execVcmplt
  grind [Keeps.refl, Keeps.trans, keeps_mk, Keeps.foldl, Keeps.foldlSnd, keeps_unitIssue, nextOr]

theorem keeps_execVcmpeq (a0 a1 a2) (s) : Keeps s (nextOr s (execVcmpeq a0 a1 a2 s)) := by
  unfold execVcmpeq
  grind [Keeps.refl, Keeps.trans, keeps_mk, Keeps.foldl, Keeps.foldlSnd, keeps_unitIssue, nextOr]

theorem keeps_execVsel (a0 a1 a2) (s) : Keeps s (nextOr s (execVsel a0 a1 a2 s)) := by
  unfold execVsel
  grind [Keeps.refl, Keeps.trans, keeps_mk, Keeps.foldl, Keeps.foldlSnd, keeps_unitIssue, nextOr]

theorem keeps_execVmov (a0 a1 a2) (s) : Keeps s (nextOr s (execVmov a0 a1 a2 s)) := by
  unfold execVmov
  grind [Keeps.refl, Keeps.trans, keeps_mk, Keeps.foldl, Keeps.foldlSnd, keeps_unitIssue, nextOr]

theorem keeps_execViadd (a0 a1 a2) (s) : Keeps s (nextOr s (execViadd a0 a1 a2 s)) := by
  unfold execViadd
  grind [Keeps.refl, Keeps.trans, keeps_mk, Keeps.foldl, Keeps.foldlSnd, keeps_unitIssue, nextOr]

theorem keeps_execVisub (a0 a1 a2) (s) : Keeps s (nextOr s (execVisub a0 a1 a2 s)) := by
  unfold execVisub
  grind [Keeps.refl, Keeps.trans, keeps_mk, Keeps.foldl, Keeps.foldlSnd, keeps_unitIssue, nextOr]

theorem keeps_execVimul (a0 a1 a2) (s) : Keeps s (nextOr s (execVimul a0 a1 a2 s)) := by
  unfold execVimul
  grind [Keeps.refl, Keeps.trans, keeps_mk, Keeps.foldl, Keeps.foldlSnd, keeps_unitIssue, nextOr]

theorem keeps_execVand (a0 a1 a2) (s) : Keeps s (nextOr s (execVand a0 a1 a2 s)) := by
  unfold execVand
  grind [Keeps.refl, Keeps.trans, keeps_mk, Keeps.foldl, Keeps.foldlSnd, keeps_unitIssue, nextOr]

theorem keeps_execVor (a0 a1 a2) (s) : Keeps s (nextOr s (execVor a0 a1 a2 s)) := by
  unfold execVor
  grind [Keeps.refl, Keeps.trans, keeps_mk, Keeps.foldl, Keeps.foldlSnd, keeps_unitIssue, nextOr]

theorem keeps_execVxor (a0 a1 a2) (s) : Keeps s (nextOr s (execVxor a0 a1 a2 s)) := by
  unfold execVxor
  grind [Keeps.refl, Keeps.trans, keeps_mk, Keeps.foldl, Keeps.foldlSnd, keeps_unitIssue, nextOr]

theorem keeps_execVshl (a0 a1 a2) (s) : Keeps s (nextOr s (execVshl a0 a1 a2 s)) := by
  unfold execVshl
  grind [Keeps.refl, Keeps.trans, keeps_mk, Keeps.foldl, Keeps.foldlSnd, keeps_unitIssue, nextOr]

theorem keeps_execVshr (a0 a1 a2) (s) : Keeps s (nextOr s (execVshr a0 a1 a2 s)) := by
  unfold execVshr
  grind [Keeps.refl, Keeps.trans, keeps_mk, Keeps.foldl, Keeps.foldlSnd, keeps_unitIssue, nextOr]

theorem keeps_execVsar (a0 a1 a2) (s) : Keeps s (nextOr s (execVsar a0 a1 a2 s)) := by
  unfold execVsar
  grind [Keeps.refl, Keeps.trans, keeps_mk, Keeps.foldl, Keeps.foldlSnd, keeps_unitIssue, nextOr]

theorem keeps_execViota (a0 a1 a2) (s) : Keeps s (nextOr s (execViota a0 a1 a2 s)) := by
  unfold execViota
  grind [Keeps.refl, Keeps.trans, keeps_mk, Keeps.foldl, Keeps.foldlSnd, keeps_unitIssue, nextOr]

theorem keeps_execVbcast (a0 a1 a2) (s) : Keeps s (nextOr s (execVbcast a0 a1 a2 s)) := by
  unfold execVbcast
  grind [Keeps.refl, Keeps.trans, keeps_mk, Keeps.foldl, Keeps.foldlSnd, keeps_unitIssue, nextOr]

theorem keeps_execVcvt (a0 a1 a2) (s) : Keeps s (nextOr s (execVcvt a0 a1 a2 s)) := by
  unfold execVcvt
  grind [Keeps.refl, Keeps.trans, keeps_mk, Keeps.foldl, Keeps.foldlSnd, keeps_unitIssue, nextOr]

theorem keeps_execVqb (a0 a1 a2) (s) : Keeps s (nextOr s (execVqb a0 a1 a2 s)) := by
  unfold execVqb
  grind [Keeps.refl, Keeps.trans, keeps_mk, Keeps.foldl, Keeps.foldlSnd, keeps_unitIssue, nextOr]

theorem keeps_execVdqb (a0 a1 a2) (s) : Keeps s (nextOr s (execVdqb a0 a1 a2 s)) := by
  unfold execVdqb
  grind [Keeps.refl, Keeps.trans, keeps_mk, Keeps.foldl, Keeps.foldlSnd, keeps_unitIssue, nextOr]

theorem keeps_execVrsum (a0 a1 a2) (s) : Keeps s (nextOr s (execVrsum a0 a1 a2 s)) := by
  unfold execVrsum
  grind [Keeps.refl, Keeps.trans, keeps_mk, Keeps.foldl, Keeps.foldlSnd, keeps_unitIssue, nextOr]

theorem keeps_execVrmax (a0 a1 a2) (s) : Keeps s (nextOr s (execVrmax a0 a1 a2 s)) := by
  unfold execVrmax
  grind [Keeps.refl, Keeps.trans, keeps_mk, Keeps.foldl, Keeps.foldlSnd, keeps_unitIssue, nextOr]

theorem keeps_execVrmin (a0 a1 a2) (s) : Keeps s (nextOr s (execVrmin a0 a1 a2 s)) := by
  unfold execVrmin
  grind [Keeps.refl, Keeps.trans, keeps_mk, Keeps.foldl, Keeps.foldlSnd, keeps_unitIssue, nextOr]

theorem keeps_execArsum (a0 a1 a2) (s) : Keeps s (nextOr s (execArsum a0 a1 a2 s)) := by
  unfold execArsum
  grind [Keeps.refl, Keeps.trans, keeps_mk, Keeps.foldl, Keeps.foldlSnd, keeps_unitIssue, nextOr]

theorem keeps_execArmax (a0 a1 a2) (s) : Keeps s (nextOr s (execArmax a0 a1 a2 s)) := by
  unfold execArmax
  grind [Keeps.refl, Keeps.trans, keeps_mk, Keeps.foldl, Keeps.foldlSnd, keeps_unitIssue, nextOr]

theorem keeps_execAsmx (a0 a1 a2) (s) : Keeps s (nextOr s (execAsmx a0 a1 a2 s)) := by
  unfold execAsmx
  grind [Keeps.refl, Keeps.trans, keeps_mk, Keeps.foldl, Keeps.foldlSnd, keeps_unitIssue, nextOr]

theorem keeps_execAresc (a0 a1 a2) (s) : Keeps s (nextOr s (execAresc a0 a1 a2 s)) := by
  unfold execAresc
  grind [Keeps.refl, Keeps.trans, keeps_mk, Keeps.foldl, Keeps.foldlSnd, keeps_unitIssue, nextOr]

theorem keeps_execAnorm (a0 a1 a2) (s) : Keeps s (nextOr s (execAnorm a0 a1 a2 s)) := by
  unfold execAnorm
  grind [Keeps.refl, Keeps.trans, keeps_mk, Keeps.foldl, Keeps.foldlSnd, keeps_unitIssue, nextOr]

theorem keeps_execVld (a0 a1 a2) (s) : Keeps s (nextOr s (execVld a0 a1 a2 s)) := by
  unfold execVld
  grind [Keeps.refl, Keeps.trans, keeps_mk, Keeps.foldl, Keeps.foldlSnd, keeps_unitIssue, nextOr]

theorem keeps_execVst (a0 a1 a2) (s) : Keeps s (nextOr s (execVst a0 a1 a2 s)) := by
  unfold execVst
  grind [Keeps.refl, Keeps.trans, keeps_mk, Keeps.foldl, Keeps.foldlSnd, keeps_unitIssue, nextOr]

theorem keeps_execVldg (a0 a1 a2) (s) : Keeps s (nextOr s (execVldg a0 a1 a2 s)) := by
  unfold execVldg
  grind [Keeps.refl, Keeps.trans, keeps_mk, Keeps.foldl, Keeps.foldlSnd, keeps_unitIssue, nextOr]

theorem keeps_execVstg (a0 a1 a2) (s) : Keeps s (nextOr s (execVstg a0 a1 a2 s)) := by
  unfold execVstg
  grind [Keeps.refl, Keeps.trans, keeps_mk, Keeps.foldl, Keeps.foldlSnd, keeps_unitIssue, nextOr]

theorem keeps_execVlds (a0 a1 a2) (s) : Keeps s (nextOr s (execVlds a0 a1 a2 s)) := by
  unfold execVlds
  grind [Keeps.refl, Keeps.trans, keeps_mk, Keeps.foldl, Keeps.foldlSnd, keeps_unitIssue, nextOr]

theorem keeps_execVsts (a0 a1 a2) (s) : Keeps s (nextOr s (execVsts a0 a1 a2 s)) := by
  unfold execVsts
  grind [Keeps.refl, Keeps.trans, keeps_mk, Keeps.foldl, Keeps.foldlSnd, keeps_unitIssue, nextOr]

theorem keeps_execTld (a0 a1 a2) (s) : Keeps s (nextOr s (execTld a0 a1 a2 s)) := by
  unfold execTld
  grind [Keeps.refl, Keeps.trans, keeps_mk, Keeps.foldl, Keeps.foldlSnd, keeps_unitIssue, nextOr]

theorem keeps_execTst (a0 a1 a2) (s) : Keeps s (nextOr s (execTst a0 a1 a2 s)) := by
  unfold execTst
  grind [Keeps.refl, Keeps.trans, keeps_mk, Keeps.foldl, Keeps.foldlSnd, keeps_unitIssue, nextOr]

theorem keeps_execTldt (a0 a1 a2) (s) : Keeps s (nextOr s (execTldt a0 a1 a2 s)) := by
  unfold execTldt
  grind [Keeps.refl, Keeps.trans, keeps_mk, Keeps.foldl, Keeps.foldlSnd, keeps_unitIssue, nextOr]

theorem keeps_execTzero (a0 a1 a2) (s) : Keeps s (nextOr s (execTzero a0 a1 a2 s)) := by
  unfold execTzero
  grind [Keeps.refl, Keeps.trans, keeps_mk, Keeps.foldl, Keeps.foldlSnd, keeps_unitIssue, nextOr]

theorem keeps_execTmm (a0 a1 a2) (s) : Keeps s (nextOr s (execTmm a0 a1 a2 s)) := by
  unfold execTmm
  grind [Keeps.refl, Keeps.trans, keeps_mk, Keeps.foldl, Keeps.foldlSnd, keeps_unitIssue, nextOr]

theorem keeps_execAzero (a0 a1 a2) (s) : Keeps s (nextOr s (execAzero a0 a1 a2 s)) := by
  unfold execAzero
  grind [Keeps.refl, Keeps.trans, keeps_mk, Keeps.foldl, Keeps.foldlSnd, keeps_unitIssue, nextOr]

theorem keeps_execAst (a0 a1 a2) (s) : Keeps s (nextOr s (execAst a0 a1 a2 s)) := by
  unfold execAst
  grind [Keeps.refl, Keeps.trans, keeps_mk, Keeps.foldl, Keeps.foldlSnd, keeps_unitIssue, nextOr]

theorem keeps_execAld (a0 a1 a2) (s) : Keeps s (nextOr s (execAld a0 a1 a2 s)) := by
  unfold execAld
  grind [Keeps.refl, Keeps.trans, keeps_mk, Keeps.foldl, Keeps.foldlSnd, keeps_unitIssue, nextOr]

theorem keeps_execArdv (a0 a1 a2) (s) : Keeps s (nextOr s (execArdv a0 a1 a2 s)) := by
  unfold execArdv
  grind [Keeps.refl, Keeps.trans, keeps_mk, Keeps.foldl, Keeps.foldlSnd, keeps_unitIssue, nextOr]

theorem keeps_execAwrv (a0 a1 a2) (s) : Keeps s (nextOr s (execAwrv a0 a1 a2 s)) := by
  unfold execAwrv
  grind [Keeps.refl, Keeps.trans, keeps_mk, Keeps.foldl, Keeps.foldlSnd, keeps_unitIssue, nextOr]

theorem keeps_execDmaq (a0 a1 a2) (s) : Keeps s (nextOr s (execDmaq a0 a1 a2 s)) := by
  unfold execDmaq
  grind [Keeps.refl, Keeps.trans, keeps_mk, Keeps.foldl, Keeps.foldlSnd, keeps_unitIssue, nextOr]

theorem keeps_execDmard (a0 a1 a2) (s) : Keeps s (nextOr s (execDmard a0 a1 a2 s)) := by
  unfold execDmard
  grind [Keeps.refl, Keeps.trans, keeps_mk, Keeps.foldl, Keeps.foldlSnd, keeps_unitIssue, nextOr]

theorem keeps_execRacsw (a0 a1 a2) (s) : Keeps s (nextOr s (execRacsw a0 a1 a2 s)) := by
  unfold execRacsw
  grind [Keeps.refl, Keeps.trans, keeps_mk, Keeps.foldl, Keeps.foldlSnd, keeps_unitIssue, nextOr]

theorem keeps_execWacsw (a0 a1 a2) (s) : Keeps s (nextOr s (execWacsw a0 a1 a2 s)) := by
  unfold execWacsw
  grind [Keeps.refl, Keeps.trans, keeps_mk, Keeps.foldl, Keeps.foldlSnd, keeps_unitIssue, nextOr]

theorem keeps_execSeed (a0 a1 a2) (s) : Keeps s (nextOr s (execSeed a0 a1 a2 s)) := by
  unfold execSeed
  grind [Keeps.refl, Keeps.trans, keeps_mk, Keeps.foldl, Keeps.foldlSnd, keeps_unitIssue, nextOr]

theorem keeps_execRseq (a0 a1 a2) (s) : Keeps s (nextOr s (execRseq a0 a1 a2 s)) := by
  unfold execRseq
  grind [Keeps.refl, Keeps.trans, keeps_mk, Keeps.foldl, Keeps.foldlSnd, keeps_unitIssue, nextOr]

end Sys2Proof.Machine
end

