-- ==== Sys2Proof/Laws/Plain.lean ====
section
/-! SUPPORT. Accesses of memory in the plain case: nothing cached, no codeword in error and none to be struck, the granule's policy
BYPASS or the tenant without ways, the stack at work and the requester in the owning ridge. Then a read gives the bytes of the stacks and
changes nothing, and a write changes memory alone. -/

namespace Sys2Proof.Machine

/-- What makes an access of a tenant to the sector of an address plain. -/
def Plain (s : State) (tenant pa : Nat) : Prop :=
  s.caches = [] ∧ s.inj = [] ∧ s.cwErr = [] ∧ ridgeServes s (paRidge pa) = true ∧ bypasses s tenant pa = true ∧
    uncleared s pa = false ∧ stackState s (paRidge pa) (stackOf s pa).1 ≠ 4 ∧ stackState s (paRidge pa) (stackOf s pa).1 ≠ 5

theorem Plain.mem {s : State} {tenant pa : Nat} (h : Plain s tenant pa) (m : List Host.Cell) : Plain { s with mem := m } tenant pa := h

theorem lineOf_of_caches {s : State} (h : s.caches = []) (n la : Nat) : lineOf s n la = none := by
  simp only [lineOf, cacheOf, h]; rfl

theorem checkLine_of_caches {s : State} (h : s.caches = []) (n la : Nat) : checkLine n la s = s := by
  simp only [checkLine, lineOf_of_caches h]

theorem readCw_plain {s : State} {tenant pa : Nat} (h : Plain s tenant pa) (src : Nat) : readCw pa src s = (.ok (storedCw s pa), s) := by
  obtain ⟨_, h2, h3, _, _, h6, h7, h8⟩ := h
  have hi : strikeCw (paRidge pa) (stackOf s pa).1 pa s = s := by simp [strikeCw, h2]
  have he : Mp.get [] s.cwErr (pa / 64) = [] := by rw [h3]; rfl
  simp only [readCw, h7, h8, h6, hi, he, or_self, if_false, if_true, Bool.false_eq_true]

theorem ownRead_plain {s : State} {tenant pa : Nat} (h : Plain s tenant pa) (lo k : Nat) :
    ownRead tenant pa lo k s = (.ok (storedCw s pa), s) := by
  simp only [ownRead, checkLine_of_caches h.1, lineOf_of_caches h.1, readCw_plain h, h.2.2.2.2.1, if_true]

theorem sectorRead_plain {s : State} {tenant pa : Nat} (h : Plain s tenant pa) (lo k : Nat) :
    sectorRead (paRidge pa) tenant pa lo k s = (.ok (storedCw s pa), s) := by
  have ha : awaitsRejoin s pa = false := by simp [awaitsRejoin, h.2.2.2.2.2.2.2]
  have hr : reaches s (paRidge pa) (paRidge pa) pa = true := by simp [reaches, h.2.2.2.1]
  simp only [sectorRead, true_or, if_true, farRead, hr, Bool.not_true, Bool.false_eq_true, if_false, ha, ownRead_plain h]

theorem foldl_keeps_ok {α : Type} (f : MRes × State → α → MRes × State) (l : List α) (s : State)
    (h : ∀ x ∈ l, ∀ acc, ∃ bs, f (.ok acc, s) x = (.ok bs, s)) (acc : List Byte) :
    ∃ bs, l.foldl f (.ok acc, s) = (.ok bs, s) := by
  induction l generalizing acc with
  | nil => exact ⟨acc, rfl⟩
  | cons x r ih =>
    obtain ⟨bs, e⟩ := h x (by simp) acc
    simp only [List.foldl_cons, e]
    exact ih (fun y hy => h y (by simp [hy])) bs

/-- A read whose sectors are all plain comes back whole and changes nothing. -/
theorem memRead_plain {s : State} {ridge tenant pa len : Nat}
    (h : ∀ x ∈ sectorsOf pa len, paRidge x.1 = ridge ∧ Plain s tenant x.1) : ∃ bs, memRead ridge tenant pa len s = (.ok bs, s) := by
  refine foldl_keeps_ok _ _ s (fun x hx acc => ?_) []
  obtain ⟨rfl, hp⟩ := h x hx
  exact ⟨acc ++ ((storedCw s x.1).drop x.2.1).take x.2.2, by simp only [sectorRead_plain hp]⟩

theorem writeCw_plain {s : State} {tenant pa : Nat} (h : Plain s tenant pa) (src : Nat) (bs : List Byte) (mask : List Bool) :
    ∃ m, writeCw pa src bs mask s = (.taken, { s with mem := m }) := by
  have hd (b : List Byte) : freshCw pa b s = { s with mem := Mp.blit 0#8 s.mem (pa / 64 * 64) b } := by
    have : Mp.del s.cwErr (pa / 64) = s.cwErr := by rw [h.2.2.1]; rfl
    simp only [freshCw, this]
  have hc : clearBlock pa s = s := by simp [clearBlock, h.2.2.2.2.2.1]
  simp only [writeCw, h.2.2.2.2.2.2.1, h.2.2.2.2.2.2.2, or_self, if_false, hc, readCw_plain h]
  split
  · exact ⟨_, by rw [hd]⟩
  · exact ⟨_, by rw [hd]⟩

theorem sectorWrite_plain {s : State} {tenant pa : Nat} (h : Plain s tenant pa) (bs : List Byte) (mask : List Bool) :
    ∃ m, sectorWrite (paRidge pa) tenant pa bs mask s = (true, { s with mem := m }) := by
  have ha : awaitsRejoin s pa = false := by simp [awaitsRejoin, h.2.2.2.2.2.2.2]
  have hr : reaches s (paRidge pa) (paRidge pa) pa = true := by simp [reaches, h.2.2.2.1]
  obtain ⟨m, hm⟩ := writeCw_plain h 2 bs mask
  refine ⟨m, ?_⟩
  simp only [sectorWrite, hr, ha, Bool.not_true, Bool.false_eq_true, or_self, if_false, ownWrite, checkLine_of_caches h.1,
    lineOf_of_caches h.1, h.2.2.2.2.1, if_true, cacheWrite, hm]
  simp

/-- A write whose sectors are all plain is taken and changes memory alone. -/
theorem memWrite_plain {s : State} {ridge tenant pa : Nat} (bytes : List Byte)
    (h : ∀ x ∈ sectorsOf pa bytes.length, paRidge x.1 = ridge ∧ Plain s tenant x.1) :
    ∃ bs m, memWrite ridge tenant pa bytes s = (.ok bs, { s with mem := m }) := by
  unfold memWrite
  generalize sectorsOf pa bytes.length = l at h
  suffices H : ∀ (acc : List Byte) (m : List Host.Cell), ∃ bs m', l.foldl _ (MRes.ok acc, { s with mem := m }) = (.ok bs, { s with mem := m' }) from
    H [] s.mem
  induction l with
  | nil => exact fun acc m => ⟨acc, m, rfl⟩
  | cons x r ih =>
    intro acc m
    obtain ⟨rfl, hp⟩ := h x (by simp)
    simp only [List.foldl_cons]
    obtain ⟨m', e⟩ := sectorWrite_plain (hp.mem m) (List.replicate x.2.1 0#8 ++ (bytes.drop acc.length).take x.2.2 ++
      List.replicate (64 - x.2.1 - x.2.2) 0#8) (List.replicate x.2.1 false ++ List.replicate x.2.2 true ++
      List.replicate (64 - x.2.1 - x.2.2) false)
    rw [e]
    exact ih (fun y hy => h y (by simp [hy])) _ m'

/-- The sectors of a range lie in it, counted from the first one's start. -/
theorem sectors_range (f pa len : Nat) : ∀ x ∈ sectors f pa len, pa / 64 * 64 ≤ x.1 ∧ x.1 < pa + len := by
  induction f generalizing pa len with
  | zero => simp [sectors]
  | succ f ih =>
    intro x hx
    unfold sectors at hx
    split at hx
    · simp at hx
    · rcases List.mem_cons.1 hx with rfl | hx
      · simp only; omega
      · have := ih _ _ x hx
        omega

/-- A range by virtual address is read whole where every sector of its pieces is plain. -/
theorem readPieces_plain {s : State} {ridge tenant va : Nat} (ps : List (Nat × Nat))
    (h : ∀ p ∈ ps, ∀ a, p.1 / 64 * 64 ≤ a → a < p.1 + p.2 → paRidge a = ridge ∧ Plain s tenant a) :
    ∃ bs, readPieces ridge tenant va ps s = (.ok bs, s) := by
  unfold readPieces
  suffices H : ∀ acc : List Byte, ∃ bs, ps.foldl _ (VRes.ok acc, s) = (.ok bs, s) from H []
  induction ps with
  | nil => exact fun acc => ⟨acc, rfl⟩
  | cons p r ih =>
    intro acc
    obtain ⟨b, e⟩ := memRead_plain (len := p.2) (pa := p.1) (fun x hx => h p (by simp) x.1 (sectors_range _ _ _ x hx).1 (sectors_range _ _ _ x hx).2)
    simp only [List.foldl_cons, e]
    exact ih (fun q hq => h q (by simp [hq])) _

/-- A range by virtual address is written whole where every sector of its pieces is plain, and memory alone changes. -/
theorem writePieces_plain {s : State} {ridge tenant va : Nat} (ps : List (Nat × Nat)) (bytes : List Byte)
    (h : ∀ p ∈ ps, ∀ a, p.1 / 64 * 64 ≤ a → a < p.1 + p.2 → paRidge a = ridge ∧ Plain s tenant a) :
    ∃ bs m, writePieces ridge tenant va ps bytes s = (.ok bs, { s with mem := m }) := by
  unfold writePieces
  suffices H : ∀ (acc : List Byte) (m : List Host.Cell), ∃ bs m', ps.foldl _ (VRes.ok acc, { s with mem := m }) = (.ok bs, { s with mem := m' }) from
    H [] s.mem
  induction ps with
  | nil => exact fun acc m => ⟨acc, m, rfl⟩
  | cons p r ih =>
    intro acc m
    obtain ⟨b, m', e⟩ := memWrite_plain (s := { s with mem := m }) (ridge := ridge) (tenant := tenant) (pa := p.1)
      ((bytes.drop acc.length).take p.2) (fun x hx => by
        have hr := sectors_range _ _ _ x hx
        have hl : ((bytes.drop acc.length).take p.2).length ≤ p.2 := by simp
        have := h p (by simp) x.1 hr.1 (by omega)
        exact ⟨this.1, this.2.mem m⟩)
    simp only [List.foldl_cons, e]
    exact ih (fun q hq => h q (by simp [hq])) _ m'

end Sys2Proof.Machine
end

