-- ==== Sys2Proof/Laws/Registers.lean ====
section
/-! SUPPORT. Registers: what a read gives after a write, by register and by field. -/

namespace Sys2Proof.Machine

@[simp] theorem regVal_regPut_same (a : Nat) (v : Word64) (s : State) : regVal (regPut a v s) a = v := by
  simp [regVal, regPut]

theorem regVal_regPut_ne (a b : Nat) (v : Word64) (s : State) (h : b ≠ a) : regVal (regPut a v s) b = regVal s b := by
  simp [regVal, regPut, Mp.find_ins_ne _ _ _ _ h]

theorem regVal_fset_ne (a b : Nat) (f : Fld) (v : Nat) (s : State) (h : b ≠ a) : regVal (fset a f v s) b = regVal s b :=
  regVal_regPut_ne a b _ s h

/-- The whole register after a field of it is written. -/
theorem regVal_fset_same (a : Nat) (f : Fld) (v : Nat) (s : State) (hf : f.lo + f.w ≤ 64) :
    (regVal (fset a f v s) a).toNat = withField (regVal s a).toNat f.lo f.w v := by
  simp only [fset, regVal_regPut_same, BitVec.toNat_ofNat]
  exact Nat.mod_eq_of_lt (withField_lt _ _ _ _ (regVal s a).isLt hf)

/-- A field just written reads back, cut to its width. -/
theorem fget_fset_same (a : Nat) (f : Fld) (v : Nat) (s : State) (hf : f.lo + f.w ≤ 64) :
    fget (fset a f v s) a f = v % 2 ^ f.w := by
  simp [fget, regVal_fset_same a f v s hf]

/-- A field of another register reads as before. -/
theorem fget_fset_reg (a b : Nat) (f g : Fld) (v : Nat) (s : State) (h : b ≠ a) :
    fget (fset a f v s) b g = fget s b g := by
  simp [fget, regVal_fset_ne a b f v s h]

/-- Another field of the same register reads as before. -/
theorem fget_fset_apart (a : Nat) (f g : Fld) (v : Nat) (s : State) (hf : f.lo + f.w ≤ 64)
    (h : g.lo + g.w ≤ f.lo ∨ f.lo + f.w ≤ g.lo) : fget (fset a f v s) a g = fget s a g := by
  simp [fget, regVal_fset_same a f v s hf, fieldOf_withField_apart _ _ _ _ _ _ h]

theorem fget_regPut_ne (a b : Nat) (g : Fld) (v : Word64) (s : State) (h : b ≠ a) :
    fget (regPut a v s) b g = fget s b g := by
  simp [fget, regVal_regPut_ne a b v s h]

theorem fget_regPut_same (a : Nat) (g : Fld) (v : Word64) (s : State) :
    fget (regPut a v s) a g = fieldOf v.toNat g.lo g.w := by
  simp [fget]

/-- A bit of a field just set. -/
theorem fbit_fset_same (a : Nat) (f : Fld) (v i : Nat) (s : State) (hf : f.lo + f.w ≤ 64) :
    fbit (fset a f v s) a f i = (decide (i < f.w) && v.testBit i) := by
  simp [fbit, bitOf, fget_fset_same a f v s hf, Nat.testBit_mod_two_pow]

/-- The bits of a field after one of them is set: that one, and the others as before. -/
theorem fbit_fsetBit (a : Nat) (f : Fld) (i j : Nat) (b : Bool) (s : State) (hf : f.lo + f.w ≤ 64) (hi : i < f.w) :
    fbit (fsetBit a f i b s) a f j = if j = i then b else fbit s a f j := by
  unfold fsetBit
  rw [fbit_fset_same _ _ _ _ _ hf, testBit_withField]
  by_cases h : j = i
  · subst h
    cases b <;> simp [b2n, hi]
  · have h' : ¬ (i ≤ j ∧ j < i + 1) := by omega
    rw [if_neg h', if_neg h]
    have e : fbit s a f j = (fget s a f).testBit j := rfl
    have e2 : (fget s a f).testBit j = (decide (j < f.w) && (regVal s a).toNat.testBit (f.lo + j)) := by
      unfold fget; exact testBit_fieldOf _ _ _ _
    rw [e, e2]
    cases decide (j < f.w) <;> simp

theorem fbit_fsetBit_reg (a c : Nat) (f g : Fld) (i j : Nat) (b : Bool) (s : State) (h : c ≠ a) :
    fbit (fsetBit a f i b s) c g j = fbit s c g j := by
  unfold fsetBit fbit
  rw [fget_fset_reg _ _ _ _ _ _ h]

/-- A counter after it counts: the sum, no more than its largest value. -/
theorem fget_fcount_same (a : Nat) (f : Fld) (n : Nat) (s : State) (hf : f.lo + f.w ≤ 64) :
    fget (fcount a f n s) a f = min (2 ^ f.w - 1) (fget s a f + n) := by
  unfold fcount
  rw [fget_fset_same _ _ _ _ hf]
  apply Nat.mod_eq_of_lt
  have := Nat.two_pow_pos f.w
  omega

end Sys2Proof.Machine
end

