-- ==== Sys2Proof/Laws/Scrambler.lean ====
section
/-! SUPPORT. The scrambler of a stream (R296): a receiver whose history agrees gets the bits back, and after 58 bits every
receiver's history agrees. -/

namespace Sys2Proof.Machine

/-- What a receiver with the transmitter's history reads is what was scrambled. -/
theorem descramble_scramble (h : Nat) (l : List Bool) : descramble h (scramble h l).1 = (l, (scramble h l).2) := by
  induction l generalizing h with
  | nil => rfl
  | cons x r ih => simp [scramble, descramble, ih, scramBit]

/-- A receiver's history after some bits, modulo 2^58, as a function of where it began. -/
theorem descramble_history (l : List Bool) : ∃ v, ∀ h, (descramble h l).2 % 2 ^ 58 = (2 ^ l.length * h + v) % 2 ^ 58 := by
  induction l with
  | nil => exact ⟨0, fun h => by simp [descramble]⟩
  | cons y r ih =>
    obtain ⟨v, hv⟩ := ih
    refine ⟨2 ^ r.length * b2n y + v, fun h => ?_⟩
    have e : (descramble h (y :: r)).2 = (descramble (scramPush h y) r).2 := rfl
    rw [e, hv, scramPush, List.length_cons, ← Nat.mod_add_mod, Nat.mul_mod_mod, Nat.mod_add_mod]
    congr 1
    ring

/-- The scrambler is self-synchronising: whatever history a receiver began with, after 58 bits it is the transmitter's. -/
theorem descramble_synchronises (l : List Bool) (hl : 58 ≤ l.length) (h k : Nat) :
    (descramble h l).2 % 2 ^ 58 = (descramble k l).2 % 2 ^ 58 := by
  obtain ⟨v, hv⟩ := descramble_history l
  obtain ⟨n, hn⟩ := Nat.exists_eq_add_of_le hl
  rw [hv, hv, hn, Nat.pow_add, Nat.mul_assoc, Nat.mul_assoc, Nat.mul_add_mod, Nat.mul_add_mod]

end Sys2Proof.Machine
end

