-- ==== Sys2Proof/Tests/Slice0.lean ====
section
/-! SUPPORT. Tests of the model: each check of well-formedness refuses an ill-formed command, words written out from the
layouts decode, and the hypotheses of the statements are met. -/

set_option Elab.async false

namespace Sys2Proof.Tests

open Sys2Proof Sys2Proof.Machine

/-! ## Well-formedness -/

def noPre : Pre := { rnd := 0, pn := false, ps := 0, wv := false, we := 0, sv := false, se := 0 }
def noA : FmtA := { sd := 0, sa := 0, sb := 0, sc := 0, eng := 0, ev := 0, ib := false, rsv := 0, imm := 0 }
def zeros (n : Nat) : List Byte := List.replicate n 0#8

/-- A command of 63 bytes, and one with 4,097 bytes of parameters. -/
def shortCmd : Cmd := ⟨.qp 0, zeros 63, [], [], none⟩
def longCmd : Cmd := ⟨.qp 0, zeros 64, zeros 4097, [], none⟩

theorem test_wf_core : (Instr.nop 191 noPre noA).wf = true ∧ (Instr.nop 192 noPre noA).wf = false := by decide
theorem test_wf_unit_number : (Instr.instructionCompletion 0 19).wf = true ∧ (Instr.instructionCompletion 0 20).wf = false := by decide
theorem test_wf_entry : (Instr.commandFetch 0 (zeros 63) true).wf = false ∧ (Instr.identify shortCmd).wf = false := by decide
theorem test_wf_params : (Instr.identify longCmd).wf = false := by decide +kernel
theorem test_wf_tenant : (Instr.functionLevelReset 63).wf = true ∧ (Instr.functionLevelReset 64).wf = false := by decide
theorem test_wf_ridge : (Instr.taskDispatch 3).wf = true ∧ (Instr.taskDispatch 4).wf = false := by decide
theorem test_wf_port : (Instr.fabricRetrainAttempt 127).wf = true ∧ (Instr.fabricRetrainAttempt 128).wf = false := by decide
theorem test_wf_site_port : (Instr.receiversAdapted 15 7).wf = true ∧ (Instr.receiversAdapted 15 8).wf = false := by decide
theorem test_wf_site : (Instr.unblank 15).wf = true ∧ (Instr.unblank 16).wf = false := by decide
theorem test_wf_die_port : (Instr.jxlClockLoss 3 5).wf = true ∧ (Instr.jxlClockLoss 3 6).wf = false := by decide
theorem test_wf_stack : (Instr.stackWake 23).wf = true ∧ (Instr.stackWake 24).wf = false := by decide
theorem test_wf_unit : (Instr.fenceComplete 95).wf = true ∧ (Instr.fenceComplete 12).wf = false ∧ (Instr.fenceComplete 20).wf = false := by decide
theorem test_wf_handle : (Instr.taskCommit 1023 0).wf = true ∧ (Instr.taskCommit 0 0).wf = false := by decide
theorem test_wf_word16 : (Instr.taskCommit 1 65535).wf = true ∧ (Instr.taskCommit 1 65536).wf = false := by decide
theorem test_wf_word32 : (Instr.regRd 0 0xFFFFFFFF false).wf = true ∧ (Instr.regRd 0 0x100000000 false).wf = false := by decide
theorem test_wf_address : (Instr.rcFieldRead ⟨true, 2⟩).wf = true ∧ (Instr.rcFieldRead ⟨true, 2 ^ 32 + 2 ^ 29⟩).wf = false := by decide
theorem test_wf_hook : (Instr.privateTestInstruction ⟨0, some (.phase (.uci 15 7 67) 32)⟩).wf = true ∧
    (Instr.privateTestInstruction ⟨0, some (.phase (.uci 15 7 67) 33)⟩).wf = false ∧
    (Instr.privateTestInstruction ⟨0, some (.generate (.jxl 3 5 144 64) 0)⟩).wf = false ∧
    (Instr.privateTestInstruction ⟨0, some (.send (.jxl 3 5 145 0) 1)⟩).wf = false := by decide
theorem test_wf_train_port : (Instr.jxlTrainStart 3 11 []).wf = true ∧ (Instr.jxlTrainStart 3 6 []).wf = false ∧
    (Instr.jxlTrainStart 3 12 []).wf = false := by decide
theorem test_wf_lane : (Instr.blockLock 0 15).wf = true ∧ (Instr.blockLock 0 16).wf = false := by decide
theorem test_wf_line : (Instr.adaptationFreeze 0 0 17).wf = true ∧ (Instr.adaptationFreeze 0 0 18).wf = false := by decide
theorem test_wf_granule : (Instr.granuleBindCommit 0 383).wf = true ∧ (Instr.granuleBindCommit 0 384).wf = false := by decide
theorem test_wf_pa : (Instr.memoryReadRequest .melhal 0 (2 ^ 64 - 1) 1).wf = true ∧ (Instr.memoryReadRequest .melhal 0 (2 ^ 64) 1).wf = false := by decide
theorem test_wf_requester : (Instr.memoryReadRequest (.core 192) 0 0 1).wf = false ∧ (Instr.memoryReadRequest (.near 4) 0 0 1).wf = false := by decide
theorem test_wf_transfer : (Instr.dmaChunkRetire (.core 0 3)).wf = true ∧ (Instr.dmaChunkRetire (.core 0 4)).wf = false ∧
    (Instr.dmaChunkRetire (.task 1024 0)).wf = false := by decide
theorem test_wf_tag_use : (Instr.tagAcquire 0 .melhal 0 (.request (2 ^ 64))).wf = false := by decide
theorem test_wf_interrupt : (Instr.msixModerationTimer (.completion 0 16)).wf = false ∧ (Instr.msixModerationTimer (.reply 64)).wf = false := by decide
theorem test_wf_message : (Instr.collectiveMessageReceive 0 ⟨0, 0, 65536, 0, 0, 0, 0, none, 0, []⟩).wf = false ∧
    (Instr.failureNoticeReceive 0 ⟨0, 0, 0, 65536, 0, 0, false⟩).wf = false := by decide
theorem test_wf_block : (Instr.clockGoodLoss (.compute 11)).wf = true ∧ (Instr.clockGoodLoss (.compute 12)).wf = false := by decide


/-! ## A core that runs a task

Each `test_hyp_…` theorem shows states and operands that meet the hypotheses of the statement it is named after. -/

/-- A graph of tenant 1 whose one task runs on core 0. -/
def oneTask : Task := { desc := leBytes 4 0x10000 ++ zeros 124, st := tsRunning, cores := [0] }
def oneGraph : Graph := ⟨1, 7, 0, false, false, 0, [oneTask], [], false, false⟩

/-- Core 0 as the task's only rank, with S1 = 64, S2 = 3, event 5 signalled once and event 7 full; graph 1 resident. -/
def core0 : Core :=
  { task := some (1, 0, 0), extent := 65536, pc := 0x100#64, sreg := [(1, 64#64), (2, 3#64)], ev := [(5, 1#16), (7, 65535#16)] }
def sCore : State := { State.reset with cores := [(0, core0)], graphs := [(1, oneGraph)] }
/-- The same with core 0 changed. -/
def sWith (k : Core) : State := { sCore with cores := [(0, k)] }

/-- What makes a core ready, as one check. -/
def readyB (s : State) (w : CWord) : Bool :=
  canIssue s 0 && ((coreOf s 0).queues.flatMap (·.2)).isEmpty && (coreOf s 0).sem.isNone && !(coreOf s 0).waited && legal w &&
    (!w.pre.wv || decide (1 ≤ evGet (coreOf s 0) w.pre.we.toNat))

theorem ready_of {s : State} {w : CWord} (h : readyB s w = true) : CoreReady s 0 w := by
  simp only [readyB, Bool.and_eq_true, Bool.or_eq_true, Bool.not_eq_true', decide_eq_true_eq, List.isEmpty_iff, Option.isNone_iff_eq_none] at h
  obtain ⟨⟨⟨⟨⟨h1, h2⟩, h3⟩, h4⟩, h5⟩, h6⟩ := h
  exact ⟨h1, h2, h3, h4, h5, fun e => h6.resolve_left (by simp [e])⟩

/-- Operands S1 and S2 into S3; a wait on event 5 and a signal of event 6; a predicate that is false. -/
def fA : FmtA := { noA with sd := 3, sa := 1, sb := 2 }
def pWS : Pre := { noPre with wv := true, we := 5, sv := true, se := 6 }
def pFalse : Pre := { noPre with ps := 2, pn := true }
def noV : FmtV := { ve := false, vd := 0, va := 0, vb := 0, vc := 0, ty := 0, bs := false, sa := 0, fmts := 0, fmtd := 0, rsv := 0, imm := 0 }
def noT : FmtT :=
  { ad := 0, clr := false, pfmt := 0, qfmt := 0, psrc := false, pt := 0, qsrc := false, qt := 0, td := 0, vs := 0, sa := 0, mask := 0,
    ofmt := 0, rsv := 0, imm := 0 }
def wV (o : Byte) (f : FmtV) : CWord := ⟨o, pWS, .v f⟩
def wT (o : Byte) (f : FmtT) : CWord := ⟨o, pWS, .t f⟩

theorem test_hyp_EmptyQueueTicksTheCrest : State.reset.pending = [] ∧ State.reset.crestRun = false ∧
    ({ State.reset with crestRun := true } : State).crestRun = true := ⟨rfl, rfl, rfl⟩

theorem test_hyp_ScalarArithmeticAndMoves : ∀ o ∈ ([0x10, 0x11, 0x12, 0x13, 0x14, 0x15, 0x16, 0x17, 0x18, 0x19, 0x1A, 0x1B, 0x1C, 0x1D,
    0x1E, 0x1F, 0xA2] : List Byte), readyB sCore (wordA o pWS fA) = true ∧ predOk (coreOf sCore 0) (wordA o pWS fA) = true ∧
      evGet (begun1 (wordA o pWS fA) (coreOf sCore 0)) 6 < 65535 := by decide +kernel

theorem test_hyp_ScalarControl : (∀ o ∈ ([0x00, 0x02, 0x03, 0x04, 0x05, 0x06, 0x07, 0x08, 0x09] : List Byte),
    readyB sCore (wordA o pWS fA) = true) ∧ (sget (begun1 (wordA 0x07#8 pWS fA) (coreOf sCore 0)) 1).toNat % 16 = 0 := by decide +kernel

theorem test_hyp_FalsePredicateSkips : ∀ o ∈ ([0x00, 0x01, 0x0A, 0x10, 0x20, 0x21, 0x22, 0x23, 0x24, 0x25, 0x26, 0xA0, 0xA3, 0xA4] : List Byte),
    readyB sCore (wordA o pFalse fA) = true ∧ predOk (coreOf sCore 0) (wordA o pFalse fA) = false := by decide +kernel

theorem test_hyp_EndAndTrap : (coreOf sCore 0).task = some (1, 0, 0) ∧ graphOf sCore 1 = some oneGraph ∧ oneGraph.tasks[0]? = some oneTask ∧
    readyB sCore (wordA 0x01#8 pWS fA) = true ∧ readyB sCore (wordA 0x0A#8 pWS fA) = true ∧ (coreOf sCore 0).xfers = [] ∧
    oneTask.st ≠ tsFinal ∧ oneTask.endStatus = none := by decide +kernel

/-- The last aligned word of the extent, the next one, and one off alignment. -/
theorem test_hyp_ScalarSheafMemory : let f := { fA with imm := 65464 }
    (sget (coreOf sCore 0) f.sa + f.imm).toNat = 65528 ∧ 65528 % 8 = 0 ∧ 65528 + 8 ≤ (coreOf sCore 0).extent ∧ sCore.inj = [] ∧
    (coreOf sCore 0).sheafErr = [] ∧ readyB sCore (wordA 0x20#8 pWS f) = true ∧ readyB sCore (wordA 0x21#8 pWS f) = true := by decide +kernel
theorem test_hyp_SheafTrapsAndEventOverflow : taskOf sCore 1 0 = some oneTask ∧
    (sget (coreOf sCore 0) 1 + 1#64).toNat % 8 ≠ 0 ∧ (sget (coreOf sCore 0) 1 + 65472#64).toNat % 8 = 0 ∧
    (coreOf sCore 0).extent < (sget (coreOf sCore 0) 1 + 65472#64).toNat + 8 ∧
    readyB sCore (wordA 0xA0#8 noPre { noA with ev := 7, imm := 1 }) = true ∧
    65535 < evGet (begun1 (wordA 0xA0#8 noPre { noA with ev := 7, imm := 1 }) (coreOf sCore 0)) 7 + 1 := by decide +kernel

theorem test_hyp_EventsAndSemaphores : let g : FmtA := { noA with ev := 7 }
    readyB sCore (wordA 0xA0#8 pWS g) = true ∧ evGet (begun1 (wordA 0xA0#8 pWS g) (coreOf sCore 0)) 7 + 0 ≤ 65535 ∧
    readyB sCore (wordA 0xA1#8 pWS { g with imm := 65535 }) = true ∧ 65535 ≤ evGet (begun1 (wordA 0xA1#8 pWS g) (coreOf sCore 0)) 7 ∧
    (let s := sWith { core0 with sem := some (wordA 0xA3#8 pWS fA, 9) }
     (coreOf s 0).sem = some (wordA 0xA3#8 pWS fA, 9) ∧ canIssue s 0 = true ∧ allEnts (coreOf s 0) = []) := by decide +kernel

theorem test_hyp_Vectors :
    (∀ o ∈ ([0x30, 0x31, 0x32, 0x33, 0x36] : List Byte), readyB sCore (wV o noV) = true) ∧
    (∀ o ∈ ([0x34, 0x35, 0x37, 0x38, 0x39, 0x3A, 0x3B, 0x3C, 0x3D, 0x3E, 0x3F] : List Byte), readyB sCore (wV o noV) = true) ∧
    (∀ o ∈ ([0x40, 0x41, 0x42, 0x43, 0x44, 0x45, 0x46, 0x47, 0x48, 0x49, 0x4A] : List Byte), readyB sCore (wV o { noV with ty := 3 }) = true) ∧
    (∀ o ∈ ([0x60, 0x61, 0x62] : List Byte), ∀ ty ∈ ([0, 1, 2, 3] : List (BitVec 3)), readyB sCore (wV o { noV with ty := ty }) = true) := by
  decide +kernel
theorem test_hyp_VectorConversions : readyB sCore (wV 0x50#8 { noV with fmts := 15, fmtd := 3 }) = true ∧
    readyB sCore (wV 0x51#8 { noV with fmts := 15, fmtd := 14 }) = true ∧ readyB sCore (wV 0x51#8 { noV with fmts := 15, fmtd := 8, sa := 1 }) = true ∧
    readyB sCore (wV 0x52#8 { noV with fmts := 8, fmtd := 15, sa := 1 }) = true := by decide +kernel
theorem test_hyp_VectorMemory : let f := { noV with sa := 1, imm := 64448 }
    vecAddr (coreOf sCore 0) f = 64512 ∧ 64512 % 64 = 0 ∧ 64512 + 1024 ≤ (coreOf sCore 0).extent ∧
    readyB sCore (wV 0x70#8 f) = true ∧ readyB sCore (wV 0x71#8 f) = true ∧
    (let g := { noV with sa := 1, imm := 256 }
     readyB sCore (wV 0x74#8 g) = true ∧ readyB sCore (wV 0x75#8 g) = true ∧
     ∀ n < 256, laneAddr (coreOf sCore 0) g n % 4 = 0 ∧ laneAddr (coreOf sCore 0) g n + 4 ≤ (coreOf sCore 0).extent) := by decide +kernel

theorem test_hyp_RowUnitAndOnlineSoftmax : (∀ o ∈ ([0x63, 0x64, 0x66, 0x67] : List Byte), readyB sCore (wT o noT) = true) ∧
    (∀ o ∈ ([0x94, 0x95] : List Byte), readyB sCore (wT o { noT with imm := 62 }) = true) ∧
    readyB sCore (wT 0x65#8 { noT with ofmt := 3 }) = true ∧ readyB sCore (wT 0x65#8 { noT with ofmt := 6, psrc := true, pt := 1 }) = true := by
  decide +kernel
theorem test_hyp_TileAndAccumulatorMoves : (∀ o ∈ ([0x83, 0x91, 0x93, 0x80, 0x81] : List Byte), readyB sCore (wT o { noT with sa := 1, imm := 64 }) = true) ∧
    readyB sCore (wT 0x82#8 { noT with sa := 1, ofmt := 6, imm := 0x200020 }) = true ∧
    (∀ o ∈ ([3, 4, 5, 6, 7, 15] : List (BitVec 4)), readyB sCore (wT 0x92#8 { noT with sa := 1, ofmt := o }) = true) ∧
    (sget (coreOf sCore 0) 1).toNat % 64 = 0 ∧ (sget (coreOf sCore 0) 1).toNat + 32768 ≤ (coreOf sCore 0).extent := by decide +kernel
theorem test_hyp_TileMultiply : readyB sCore (wT 0x90#8 { noT with pfmt := 3, qfmt := 3, qt := 2 }) = true ∧
    readyB sCore (wT 0x90#8 { noT with pfmt := 5, qfmt := 5, psrc := true, pt := 1 }) = true ∧
    (sget (coreOf sCore 0) 1).toNat + opBytes 5 64 (tmmK 5 5) ≤ (coreOf sCore 0).extent := by decide +kernel
theorem test_hyp_Int8TileMultiply : (zeros 8192).length = 64 * 128 ∧ (zeros 16384).length = 128 * 128 ∧ (List.replicate 8192 0#32).length = 8192 :=
  ⟨List.length_replicate, List.length_replicate, List.length_replicate⟩

/-- A COPY of 64 bytes of the sheaf memory at 0x1000 to 0x2000, as a descriptor at sheaf address 64. -/
def copyDesc : List Byte := leFields [(1, 0), (1, 0x18), (6, 0), (8, 0x1000), (8, 0x2000), (8, 64), (32, 0)]
def sDesc : State := sWith (sheafPut 64 copyDesc core0)
theorem test_hyp_EngineControlAndDma :
    (∀ o ∈ ([0xB1, 0xC0, 0xC1, 0xC2, 0xC3] : List Byte), readyB sCore (wordA o pWS { fA with eng := 9 }) = true) ∧
    (let d := Mp.slice 0#8 (coreOf sDesc 0).sheaf 64 64
     readyB sDesc (wordA 0xB0#8 pWS fA) = true ∧ (sget (coreOf sDesc 0) 1).toNat = 64 ∧ dBlamed (nRidges sDesc) (some 65536) d = [] ∧
     dTotal d = 64) := by decide +kernel

/-- An ADD into S1 in hand at the DMA unit's queue, and a row-unit instruction in hand at TE0's. -/
def entD : QEnt := ⟨wordA 0xB1#8 pWS { noA with sd := 1 }, 0#64, true, 0, true, false⟩
def entR : QEnt := ⟨wT 0x63#8 noT, 0#64, true, 0, true, false⟩
theorem test_hyp_InstructionCompletes :
    (let k : Core := { core0 with queues := [(11, [entD])] }
     allEnts k = [entD] ∧ Mp.get [] k.queues 11 = [entD] ∧ entD.started = true) ∧
    (let k : Core := { core0 with queues := [(0, [entR])] }
     allEnts k = [entR] ∧ Mp.get [] k.queues 0 = [entR] ∧ isRow entR.w.op.toNat = true) := by decide +kernel
theorem test_hyp_CoresHoldAndStop :
    (let s := sWith { core0 with queues := [(11, [entD])] }
     canIssue s 0 = true ∧ legal (wordA 0x10#8 noPre fA) = true ∧ predOk (coreOf s 0) (wordA 0x10#8 noPre fA) = true ∧
     entD ∈ allEnts (coreOf s 0) ∧ setsConflict (entSet entD) (rwSet (wordA 0x10#8 noPre fA)) = true) ∧
    (evGet (coreOf sCore 0) 9 = 0 ∧ (coreOf sCore 0).waited = false) ∧ canIssue State.reset 0 = false ∧
    (taskOf sCore 1 0 = some oneTask ∧ canIssue sCore 0 = true ∧ ({ noA with rsv := 1 } : FmtA).rsv ≠ 0#6) := by decide +kernel

/-! ## Commands of the management interface -/

/-- A module that is ready, with its four ridges up. -/
def sUp : State := fset (rJXL_PORT_STATUS 0 5) fJXL_PORT_STATUS_STATE 3 (fset rMGT_TOPOLOGY fMGT_TOPOLOGY_RIDGE_UP 15 { State.reset with
  ready := true, boot := { State.reset.boot with up := true, stable := [.base 0, .base 1, .base 2, .base 3, .porger 0, .porger 15] } })

/-- A command of queue pair 0 for tenant 0 with inline parameters, and one with `n` bytes of data in. -/
def cmd (op : Nat) (ps : List (Nat × Nat)) : Cmd :=
  ⟨.qp 0, leFields [(2, op), (2, 0), (4, 5), (1, 0), (1, 0), (2, (leFields ps).length), (4, 0), (16, 0)] ++ fit 32 (leFields ps), [], [], none⟩
def cmdData (op : Nat) (ps : List (Nat × Nat)) (n : Nat) : Cmd :=
  ⟨.qp 0, leFields [(2, op), (2, 0), (4, 5), (1, 0), (1, 0), (2, (leFields ps).length), (4, n), (8, 0), (8, 0x1000)] ++ fit 32 (leFields ps),
    [], zeros n, none⟩

/-- A state in which a command has been accepted and its turn has come. -/
def accepted (s : State) (h : Cmd) : State := { s with inflight := [⟨h.path, h.entry, 1, false⟩] }

/-- Whether the one accepted command is this one, and sound. -/
def okC (s : State) (op : Nat) (h : Cmd) (t0 : Bool) (fields : List (Nat × Nat)) (bad : List Byte → Nat → List (Nat × Bool)) : Bool :=
  let v := accepted s h
  (match v.inflight with
    | i :: _ => startable v h.path h.entry [] v.inflight == some i && decide (eOp i.entry % 4096 = op) && v.ready &&
        cmdCheck h op t0 fields bad (taken i v) == none
    | [] => false)

theorem cmd_ready_of {s : State} {op : Nat} {h : Cmd} {t0 : Bool} {fields : List (Nat × Nat)} {bad : List Byte → Nat → List (Nat × Bool)}
    (e : okC s op h t0 fields bad = true) : CmdReady h op t0 fields bad (accepted s h) ⟨h.path, h.entry, 1, false⟩ := by
  simp only [okC, accepted, Bool.and_eq_true, beq_iff_eq, decide_eq_true_eq] at e
  obtain ⟨⟨⟨h1, h2⟩, h3⟩, h4⟩ := e
  exact ⟨⟨h1, h2, h3⟩, h4⟩

theorem test_hyp_ReportingAndRegisterCommands :
    okC sUp 0x100 (cmd 0x100 []) false identifyFields identifyBad = true ∧ okC sUp 0x101 (cmd 0x101 []) false tenantInfoFields tenantInfoBad = true ∧
    okC sUp 0xA00 (cmd 0xA00 [(8, 1)]) false cairnRecordFields cairnRecordBad = true ∧
    Mp.find ({ sUp with crn := { sUp.crn with store := [(1, [7#8])] } } : State).crn.store 1 = some [7#8] ∧
    okC sUp 0xA01 (cmd 0xA01 []) false cairnStatusFields cairnStatusBad = true ∧
    okC sUp 0xA02 (cmd 0xA02 [(8, 1), (4, 1)]) false apportionFields apportionBad = true ∧
    okC sUp 0x701 (cmd 0x701 [(1, 8)]) false calStatusFields (calStatusBad sUp) = true ∧
    okC sUp 0x603 (cmd 0x603 []) false powerReadFields powerReadBad = true ∧ okC sUp 0x804 (cmd 0x804 []) false rollbackFields rollbackBad = true ∧
    okC sUp 0x801 (cmd 0x801 [(1, 4)]) false certFields certBad = true ∧ okC sUp 0x800 (cmd 0x800 [(32, 9)]) false attestFields attestBad = true ∧
    okC sUp 0xF03 (cmd 0xF03 [(4, 0)]) true logFields logBad = true ∧
    okC sUp 0x102 (cmd 0x102 [(4, 4), (4, 1024)]) true regReadFields regReadBad = true ∧
    okC sUp 0x103 (cmd 0x103 [(4, 4), (4, 1), (4, 7)]) true regWriteFields (regWriteBad (cmd 0x103 [(4, 4), (4, 1), (4, 7)])) = true := by
  decide +kernel

/-- Queue pair 1 is created in the second state. -/
def sQp : State := { sUp with qps := [(1, { created := true })] }
theorem test_hyp_QueuePairAndFabricTableCommands :
    (let h := cmd 0x110 [(1, 1), (1, 12), (1, 31), (1, 1), (4, 0), (8, 0x1000), (8, 0x2000)]
     okC sUp 0x110 h false qpCreateFields (qpCreateBad h sUp) = true) ∧ qpLocal sUp 0 1 = some 1 ∧ (qpOf sUp 1).created = false ∧
    (let h := cmd 0x111 [(1, 1)]
     okC sQp 0x111 h false qpDeleteFields (qpDeleteBad h sQp) = true) ∧ (qpOf sQp 1).created = true ∧
    okC sUp 0x112 (cmd 0x112 [(1, 63), (1, 0), (1, 63)]) true qpAssignFields qpAssignBad = true ∧ (qpOf sUp 63).created = false ∧
    okC sUp 0x500 (cmd 0x500 [(2, 16383)]) true moduleIdFields moduleIdBad = true ∧ fget sUp rFLK_MODULE_ID fFLK_MODULE_ID_VALID = 0 ∧
    (let h := cmdData 0x501 [(2, 16383), (2, 1)] 4
     okC sUp 0x501 h true routeSetFields (routeSetBad h) = true) ∧
    okC sUp 0x502 (cmd 0x502 [(1, 1), (1, 0), (2, 0), (2, 16383)]) true acceptSetFields acceptSetBad = true ∧
    (let h := cmdData 0x503 [(1, 3), (1, 0), (2, 0), (4, 1), (8, 0), (1, 0)] 2
     okC sUp 0x503 h false groupDefineFields (groupDefineBad h) = true ∧ issuerOf (accepted sUp h) h.path = 0) := by decide +kernel

theorem test_hyp_BindingCommands :
    okC sUp 0x200 (cmd 0x200 [(1, 5), (1, 2), (6, 0), (24, 1)]) true bindCoresFields (bindCoresBad sUp) = true ∧
    coreFenced sUp [0] = none ∧ [0].any (heldDie sUp) = false ∧ bindRoom sUp 1 = true ∧ factoryBars sUp 5 = false ∧
    okC sUp 0x201 (cmd 0x201 [(1, 5), (1, 0), (1, 0), (1, 0), (2, 383), (2, 1)]) true bindMemoryFields (bindMemoryBad sUp) = true ∧
    dieOk sUp 16 = true ∧ granTarget sUp 0 383 = none ∧
    okC sUp 0x202 (cmd 0x202 [(1, 5), (7, 0), (16, 1)]) true bindPortsFields (bindPortsBad sUp) = true ∧
    okC sUp 0x203 (cmd 0x203 [(1, 5), (3, 0), (4, 16384), (4, 65536), (2, 1023), (1, 16)]) true setShareFields setShareBad = true ∧
    otherShares sUp 5 rTSC_SHARE_A fTSC_SHARE_A_TASK_SHARE = 0 ∧
    okC sUp 0x204 (cmd 0x204 [(1, 63), (1, 1), (2, 2047)]) true schedPolicyFields schedPolicyBad = true := by decide +kernel

/-- Tasks of graph 1 of tenant 0 that run, are held, wait on a gate and wait on a fault. -/
def taskIn (kind st : Nat) : Task := { desc := leBytes 1 kind ++ zeros 127, st := st }
def gAll : Graph := ⟨0, 7, 0, true, true, 0, [taskIn 0 tsRunning, taskIn 0 tsHeld, taskIn 5 tsReady, taskIn 0 tsFaultWait], [], true, false⟩
def sGraph : State := { sUp with graphs := [(1, gAll)] }
theorem test_hyp_GraphCommands :
    okC sGraph 0x301 (cmd 0x301 [(2, 1)]) false graphStartFields graphStartBad = true ∧ graphFor sGraph 0 1 = some gAll ∧ gAll.startHeld = true ∧
    okC sGraph 0x302 (cmd 0x302 [(2, 1)]) false graphReleaseFields graphReleaseBad = true ∧ gAll.retired = true ∧
    okC sGraph 0x303 (cmd 0x303 [(1, 0), (1, 0), (2, 1), (2, 3)]) false abortFields abortBad = true ∧ 3 < gAll.tasks.length ∧
    openTasks 1 gAll ≠ [] ∧
    okC sGraph 0x304 (cmd 0x304 [(2, 0), (2, 1), (2, 0)]) false preemptFields preemptBad = true ∧
    okC sGraph 0x305 (cmd 0x305 [(2, 0), (2, 1), (2, 1)]) false taskRestartFields taskRestartBad = true ∧
    okC sGraph 0x306 (cmd 0x306 [(2, 0), (2, 1), (2, 2)]) false gateReleaseFields gateReleaseBad = true ∧
    okC sGraph 0x901 (cmd 0x901 [(2, 0), (2, 1), (2, 3)]) false faultResumeFields faultResumeBad = true ∧
    okC sGraph 0x902 (cmd 0x902 [(2, 0), (2, 1), (2, 3)]) false faultEndFields faultEndBad = true ∧
    gAll.tasks.map (·.st) = [tsRunning, tsHeld, tsReady, tsFaultWait] ∧ gAll.tasks.map (·.kind) = [0, 0, 5, 0] := by decide +kernel

def ringPs (r : Nat) : List (Nat × Nat) := [(1, r), (1, 31), (1, 1), (1, 0), (4, 65536), (8, 0x1000), (8, 0x40)]
def sShare : State := fset (rTSC_SHARE_B 0) fTSC_SHARE_B_RINGS 16 sUp
def someRing : Ring := ⟨0, 0x1000, 64, 0x40, 0, 1, 0, 0, 0, 0, [], 0⟩
theorem test_hyp_RingCommands :
    okC sShare 0x307 (cmd 0x307 (ringPs 15)) false ringCreateFields ringCreateBad = true ∧ Mp.find sShare.cRings 15 = none ∧
    (sShare.cRings.filter (fun p => p.1 / 16 == 0)).length < fget sShare (rTSC_SHARE_B 0) fTSC_SHARE_B_RINGS ∧
    okC sUp 0x900 (cmd 0x900 (ringPs 0)) false faultRingFields faultRingBad = true ∧ Mp.find sUp.fRings 0 = none ∧
    okC sUp 0xB00 (cmd 0xB00 (ringPs 3 ++ [(4, 0x3FE)])) true traceRingFields traceRingBad = true ∧ Mp.find sUp.tRings 3 = none ∧
    (let s := { sUp with cRings := [(15, someRing)] }
     okC s 0x308 (cmd 0x308 [(1, 15)]) false ringDeleteFields ringDeleteBad = true ∧ (Mp.find s.cRings 15).isSome = true ∧ s.graphs = [] ∧
     okC s 0x309 (cmd 0x309 [(1, 0), (1, 15), (2, 0), (4, 4096)]) false ringPopFields ringPopBad = true) := by decide +kernel

/-- Granule 0 of ridge 0 bound to a tenant, its stack up, and its first 64 KiB at virtual address 0 in the TLBs used. -/
def mapped (t : Nat) (s : State) : State :=
  let s := fset (rMEM_GATTR 0 0) fMEM_GATTR_BOUND 1 (fset (rMEM_GATTR 0 0) fMEM_GATTR_TENANT t s)
  let s := fset (rMEM_STACK_STATUS 0 0) fMEM_STACK_STATUS_STATE 2 { s with boot := { s.boot with up := true, stable := [.base 0, .base 3] } }
  let s := fset (rJXL_PORT_STATUS 0 5) fJXL_PORT_STATUS_STATE 3 s
  { s with tlbs := [(0, [⟨t, 0, 65536, 0x3F⟩]), (192, [⟨t, 0, 65536, 0x3F⟩])] }

/-- An access that answers bytes and leaves the cores as they were. -/
def okV (r : VRes × State) (v : State) : Bool :=
  (match r.1 with
    | .ok _ => true
    | _ => false) && r.2.cores == v.cores
def sMap : State := mapped 1 sCore
def vOf (o : Byte) : State := began 0 (wordA o pWS fA) sMap
theorem test_hyp_ScalarGlobalAccess :
    (∀ o ∈ ([0x22, 0x23, 0x24, 0x25, 0x26] : List Byte), readyB sMap (wordA o pWS fA) = true) ∧ coreTaskTenant (vOf 0x22#8) 0 = 1 ∧
    okV (vread (.core 0) 1 64 8 accRead (vOf 0x22#8)) (vOf 0x22#8) = true ∧
    okV (vwrite (.core 0) 1 64 (leBytes 8 3) accWrite (vOf 0x23#8)) (vOf 0x23#8) = true ∧
    (match translateRange (.core 0) 1 64 3 accFlush (vOf 0x25#8) with
      | (.inl ps, u) => (flushPieces 0 ps u).1.isNone && (flushPieces 0 ps u).2.cores == (vOf 0x25#8).cores && u.cores == (vOf 0x26#8).cores
      | _ => false) = true := by decide +kernel
theorem test_hyp_Semaphores :
    (match semRead 0 64 (vOf 0xA3#8) with
      | (.inl (pa, x), u) => (semWrite 0 64 pa x u).1.isNone && u.cores == (vOf 0xA3#8).cores && decide (x < 3)
      | _ => false) = true ∧
    (match semRead 0 64 (vOf 0xA4#8) with
      | (.inl (pa, x), u) => (semWrite 0 64 pa (x + 3) u).1.isNone && (semWrite 0 64 pa (x + 3) u).2.cores == (vOf 0xA4#8).cores
      | _ => false) = true := by decide +kernel
theorem test_hyp_VectorGlobalMemory : let f := { noV with sa := 1 }
    let v := setCore 0 (waiting (veOf f) (wV 0x72#8 f) (coreOf sMap 0)) sMap
    readyB sMap (wV 0x72#8 f) = true ∧ vecAddr (coreOf sMap 0) f = 64 ∧ okV (vread (.core 0) (coreTaskTenant sMap 0) 64 1024 accRead v) v = true := by
  decide +kernel

def sMap0 : State := mapped 0 sUp
theorem test_hyp_AddressSpaceAndRidgeCommands :
    okC sMap0 0x400 (cmdData 0x400 [(8, 64), (4, 64)] 64) false memReadFields memReadBad = true ∧ dieOk sMap0 16 = true ∧
    okV (vread .melhal 0 64 64 accRead sMap0) sMap0 = true ∧
    (let h := cmdData 0x401 [(8, 64), (4, 8)] 8
     okC sMap0 0x401 h false memWriteFields (memWriteBad h) = true ∧ okV (vwrite .melhal 0 64 (zeros 8) accWrite sMap0) sMap0 = true) ∧
    okC sMap0 0x402 (cmd 0x402 [(1, 0)]) true aspaceFields (aspaceBad sMap0) = true ∧
    okC sMap0 0x404 (cmd 0x404 [(8, 0), (8, 0), (1, 0), (3, 0), (4, 1)]) false unmapFields unmapBad = true ∧
    okC sMap0 0x406 (cmd 0x406 [(1, 3), (1, 2), (1, 1), (1, 0), (2, 0), (2, 384)]) false granuleAttrFields (granuleAttrBad sMap0) = true ∧
    okC sMap0 0x407 (cmd 0x407 [(1, 15), (1, 0), (2, 3)]) true rcWaysFields (rcWaysBad sMap0) = true ∧
    okC sMap0 0x408 (cmd 0x408 [(1, 3), (1, 0), (1, 1)]) true rcFlushFields (rcFlushBad sMap0) = true ∧
    okC sMap0 0x409 (cmd 0x409 [(1, 3), (3, 0), (2, 15360)]) true dmaLimitFields (dmaLimitBad sMap0) = true ∧
    okC sMap0 0x40A (cmd 0x40A [(8, 0)]) true rowRepairFields (rowRepairBad sMap0) = true ∧ stackState sMap0 0 0 = 2 ∧
    (let s := fset (rMEM_STACK_STATUS 3 5) fMEM_STACK_STATUS_STATE 5 sMap0
     okC s 0x40B (cmd 0x40B [(1, 23)]) true stackRejoinFields (stackRejoinBad s) = true ∧ stackState s 3 5 = 5 ∧ s.caches = []) := by decide +kernel

/-- Port 6 UP at both of its registers, its site with parameters and its laser's spare standing by. -/
def sPort : State := setPortState 6 3 (fset (rUCI_SITE_STATUS 0 0) fUCI_SITE_STATUS_STATE 3 (setSpareState 0 3 sUp))
theorem test_hyp_PortCommands :
    okC sPort 0x504 (cmd 0x504 [(1, 127), (1, 1), (1, 2), (1, 3), (1, 4), (1, 5), (1, 6), (1, 7)]) true vcWeightFields (vcWeightBad sPort) = true ∧
    okC sPort 0x505 (cmd 0x505 [(1, 6)]) true portDownFields (portDownBad sPort) = true ∧ dieOk sPort 16 = true ∧ dieOk sPort 80 = true ∧
    okC sPort 0x506 (cmd 0x506 [(1, 6)]) true portFlushFields (portFlushBad sPort) = true ∧
    okC sPort 0x507 (cmd 0x507 [(1, 6), (1, 1)]) true portModeFields (portModeBad sPort) = true ∧
    okC sPort 0x508 (cmd 0x508 [(1, 6), (1, 1)]) true portTestFields (portTestBad sPort) = true ∧ portState sPort 6 = 3 ∧ portTenant sPort 6 = none ∧
    okC sPort 0x509 (cmd 0x509 [(1, 0)]) true laserSwitchFields (laserSwitchBad sPort) = true ∧ siteState sPort 0 = 3 ∧ spareState sPort 0 < 4 ∧
    okC sPort 0x50A (cmd 0x50A [(1, 6), (1, 15), (1, 17)]) true wlSubstFields (wlSubstBad sPort) = true ∧ streamSpare sPort 6 15 = none ∧
    okC sPort 0x50B (cmd 0x50B [(1, 6), (1, 15)]) true wlRestoreFields (wlRestoreBad sPort) = true := by decide +kernel

theorem test_hyp_ModuleCommands :
    okC sUp 0x600 (cmd 0x600 [(1, 2)]) true profileFields profileBad = true ∧
    okC sUp 0x601 (cmd 0x601 [(1, 1), (1, 0), (2, 0), (4, 5400)]) true overrideFields (overrideBad sUp) = true ∧
    okC sUp 0x602 (cmd 0x602 [(1, 1)]) true thermalFields thermalBad = true ∧
    okC sUp 0xB01 (cmd 0xB01 [(8, 9)]) true timeSetFields (timeSetBad sUp) = true ∧ Mp.get 0 sUp.skew 64 = 0 ∧
    okC sUp 0xB02 (cmd 0xB02 [(8, 0)]) true timeStepFields (timeStepBad sUp) = true ∧ anyResident sUp = false ∧ tenantHolds sUp = false ∧
    okC sUp 0xB03 (cmd 0xB03 [(1, 255), (1, 128)]) true parentFields (parentBad sUp) = true ∧
    okC sUp 0x905 (cmd 0x905 [(4, 5), (1, 3)]) true severityFields (severityBad sUp) = true ∧
    okC sUp 0x906 (cmd 0x906 [(1, 1)]) true faultPinFields faultPinBad = true ∧
    okC sUp 0x903 (cmd 0x903 [(1, 11)]) true dieFenceFields (dieFenceBad sUp) = true ∧ (dieOf sUp 11).st ≠ 2 ∧
    (let s := setDie 11 { st := 2 } sUp
     okC s 0x904 (cmd 0x904 [(1, 11)]) true dieRejoinFields (dieRejoinBad s) = true ∧ Mp.get 0 s.pwr.temps 11 ≤ 95) ∧
    okC sUp 0x700 (cmd 0x700 [(1, 0), (1, 1), (2, 0)]) true calRunFields (calRunBad sUp) = true ∧ calReady sUp 0 1 0 = true ∧
    (let h := cmdData 0x802 [(1, 3), (3, 0), (4, 0)] 16
     okC sUp 0x802 h true stageFields (stageBad h) = true) ∧ okC sUp 0x803 (cmd 0x803 [(1, 3)]) true activateFields activateBad = true ∧
    okC sUp 0xF00 (cmd 0xF00 []) true factoryEnterFields factoryEnterBad = true ∧ okC sUp 0xF01 (cmd 0xF01 []) true factoryExitFields factoryExitBad = true ∧
    (let s := fset rSEC_FACTORY fSEC_FACTORY_ACTIVE 1 (fset rSEC_FACTORY fSEC_FACTORY_PERMS 15 sUp)
     okC s 0xF02 (cmd 0xF02 [(4, 5), (4, 65536)]) true injectFields (injectBad s) = true ∧ factoryPerm s 1 = true) := by decide +kernel

/-! ## Commands that fail, and commands accepted -/

/-- A check that fails on each of its grounds: the opcode, the issuer, the header, the host's memory, a parameter. -/
theorem test_hyp_ChecksAreAnsweredInOrder :
    cmdCheck (cmd 0x123 []) 0x123 false identifyFields identifyBad sUp = some (rsBadOpcode, 0) ∧
    (let h : Cmd := { cmd 0x601 [] with path := .qp 1, entry := leFields [(2, 0x601), (2, 0), (4, 5), (1, 0), (1, 0), (54, 0)] }
     cmdCheck h 0x601 true overrideFields (overrideBad sQp) { sQp with qps := [(1, { created := true, owner := 3 })] } = some (rsNotPermitted, 0)) ∧
    (let h := cmd 0x100 []
     let e := h.entry.set 9 1#8
     cmdCheck { h with entry := e } 0x100 false identifyFields identifyBad sUp = some (rsBadParam, 0x8009)) ∧
    cmdCheck { cmdData 0x401 [(8, 64), (4, 8)] 8 with hostFail := some 0 } 0x401 false memWriteFields
      (memWriteBad (cmdData 0x401 [(8, 64), (4, 8)] 8)) sUp = some (rsHostAccess, 0) ∧
    cmdCheck (cmd 0x600 [(1, 3)]) 0x600 true profileFields profileBad sUp = some (rsBadParam, 0) := by decide +kernel
def mgtPkt : Pkt := ⟨8, 7, 0, 3, 0, 1, 5, 9, 64, 0, 0, 77, [], leBytes 2 0x100 ++ zeros 62⟩
theorem test_hyp_CommandsAreAccepted :
    (let s := { sUp with qps := [(0, { created := true, tail := 1 })] }
     s.ready = true ∧ qpTurn s = some 0) ∧
    (let s := updLane 6 3 (fun x => { x with queue := [mgtPkt] }) sUp
     mgtLane s 6 9 77 = some 3 ∧ (laneOf s 6 3).queue = [mgtPkt] ∧ (laneOf s 6 3).busy = false) := by decide +kernel

/-! ## The host interface and registers -/

def someTrace : Ring := ⟨0, 0x1000, 64, 0x40, 0, 1, 0, 0, 0, 0, [], 3⟩
theorem test_hyp_HostFunctionEvents :
    bellQp { sUp with qps := [(0, { created := true, unsig := 1 })] } 0 0 = some 0 ∧ fnEnabled sUp 0 = true ∧ qpLocal sUp 0 0 = some 0 ∧
    (qpOf sUp 0).created = false ∧ (getRing { sUp with tRings := [(3, someTrace)] } (.trace 3)).map (·.unsig) = some 3 ∧
    State.reset.ready = false ∧ sUp.ready = true ∧ cfgFixed sUp 0 0 = some 0x0A121FC7 := by decide +kernel
def sReg : State := { sUp with boot := { sUp.boot with stable := [.base 0, .base 3, .compute 0] } }
theorem test_hyp_RegisterAccess :
    unitAssigned sReg 0xFFFFFFFC = false ∧ (1 : Nat) % 4 ≠ 0 ∧
    (∀ a ∈ [rTHM_CTRL, rRST_CTRL, rRST_CTRL + 0, rJXL_PORT_ERR 3 5, rTSC_SHARE_A 63, rMEM_GATTR 3 383], a < 2 ^ 32 ∧ a % 4 = 0 ∧
      unitAssigned sReg a = true ∧ unitAnswers sReg (a / 0x4000000) = true ∧ sramWord a = none ∧ cairnHeld a = false ∧
      (findReg (a / 0x4000000) (a % 0x4000000)).isSome = true) := by decide +kernel
def regShape (a : Nat) : Option (Bool × Bool) := (findReg (a / 0x4000000) (a % 0x4000000)).map (fun x => (x.1.wide, x.2))
theorem test_hyp_RegisterAccessForms :
    (unitAssigned State.reset rTHM_CTRL = true ∧ rTHM_CTRL % 4 = 0 ∧ unitAssigned State.reset (rJXL_PORT_ERR 3 5) = true ∧
      unitAnswers State.reset (rJXL_PORT_ERR 3 5 / 0x4000000) = false) ∧
    regShape (rRST_TIME + 4) = some (true, true) ∧ regShape rRST_TIME = some (true, false) ∧ cairnHeld rRST_TIME = false ∧
    regShape rTHM_CTRL = some (false, false) := by decide +kernel
def sOn : State := { sReg with boot := { sReg.boot with rails := 2 } }
theorem test_hyp_ActingRegisters :
    fieldOf (0x0000A503#32 : Word32).toNat 8 8 = 0xA5 ∧ (0x0000A503#32 : Word32).toNat.testBit 1 = true ∧ fieldOf (0#32 : Word32).toNat 8 8 ≠ 0xA5 ∧
    (0x0000A501#32 : Word32).toNat.testBit 1 = false ∧ 15 < nSites State.reset ∧ spareState sPort 0 = 3 ∧
    (let l := fun j => fieldOf (0x3F3E3D3C#32 : Word32).toNat (8 * j) 6
     l 0 < l 1 ∧ l 1 < l 2 ∧ l 2 < l 3) ∧ sUp.boot.up = true ∧ sUp.crn.supply = true ∧
    fbit (fsetBit rRST_HOLD_CD fRST_HOLD_CD_HOLD 11 true sUp) rRST_HOLD_CD fRST_HOLD_CD_HOLD 11 = true ∧
    (nDies sReg ≤ 11 ∨ Block.compute 11 ∈ sReg.boot.stable) = False := by decide +kernel

/-! ## Resets and bring-up -/

/-- An option image of no records: it passes the checks. -/
def img0 : List Byte := leFields [(2, 0x574E), (2, 1), (2, 0), (2, 0)] ++ leBytes 4 (crcOf 32 0x1EDC6F41 0xFFFFFFFF true true []) ++ zeros 4
def sLoad : State := { State.reset with boot := { State.reset.boot with up := true, loading := true } }
theorem test_hyp_Resets :
    pinsFrozen State.reset = false ∧ State.reset.boot.rails = 0 ∧ sUp.boot.up = true ∧ State.reset.boot.up = false ∧
    ({ sUp with boot := { sUp.boot with fw := true } } : State).boot.fw = true ∧
    (let s := fset rFLT_CTRL fFLT_CTRL_AUTO_RESET 1 (fset rFLT_CTRL fFLT_CTRL_SAFE 1 sUp)
     isSafe s = true ∧ fget s rFLT_CTRL fFLT_CTRL_AUTO_RESET = 1) ∧ fget State.reset rWNW_OPTIONS fWNW_OPTIONS_PERST_SCOPE = 0 ∧
    (let s := fset rPWR_STATUS fPWR_STATUS_PHASES 26 sUp
     1 ≤ fget s rPWR_STATUS fPWR_STATUS_PHASES ∧ (occurs 0 0 3 s).fuses.a12 = s.fuses.a12) := by decide +kernel
theorem test_hyp_BringUpAndHostLink :
    (let s : State := { State.reset with boot := { rails := 2 }, crn := { State.reset.crn with supply := false } }
     s.boot.up = false ∧ s.boot.safeNow = false ∧ s.crn.supply = false) ∧
    fget State.reset rWNW_STATUS fWNW_STATUS_DONE = 0 ∧ sReg.boot.stable.contains (.base (2 / 3)) = true ∧ 2 < nDies sReg ∧
    fbit (fsetBit rRST_HOLD_CD fRST_HOLD_CD_DEFER 2 true sReg) rRST_HOLD_CD fRST_HOLD_CD_DEFER 2 = true ∧ 15 < nCores sReg ∧
    coreState sReg 15 < 2 ∧ sReg.boot.stable.contains (.base (15 / 4)) = true ∧
    (match checkImage img0 sLoad, checkImage [] sLoad with
      | .inr _, .inl 2 => true
      | _, _ => false) = true ∧ fget sLoad rWNW_STATUS fWNW_STATUS_ATTEMPTS = 0 ∧ sUp.boot.loading = false ∧ sUp.boot.chosen = false ∧
    fget sUp rSEC_BOOT_STATUS fSEC_BOOT_STATUS_RECOVERY = 0 ∧ fget sUp rHST_LINK_STATUS fHST_LINK_STATUS_LTSSM ≠ 3 ∧
    (let s := fset rHST_LINK_STATUS fHST_LINK_STATUS_LTSSM 3 (fset rHST_LINK_STATUS fHST_LINK_STATUS_RATE 5 sUp)
     s.boot.perst = false ∧ fget s (rHST_TXEQ 7) fHST_TXEQ_OVR = 0 ∧ fget s rHST_LINK_STATUS fHST_LINK_STATUS_LTSSM = 3 ∧
     fget s rHST_LINK_STATUS fHST_LINK_STATUS_RATE = 5) ∧
    fget (fset rHST_LINK_STATUS fHST_LINK_STATUS_LTSSM 6 sUp) rHST_LINK_STATUS fHST_LINK_STATUS_LTSSM = 6 := by decide +kernel

/-! ## Tasks, granules and records -/

def coreTask (st : Nat) : Task := { desc := leFields [(1, 0), (1, 1), (2, 1), (4, 0)] ++ zeros 120, st := st }
def gOne (k : Task) : Graph := ⟨0, 7, 0, false, false, 0, [k], [], false, false⟩
def abortWait : Wait := ⟨.qp 0, 0x303, 5, 1, 0, 0, 0, [taskKey 1 0], 0, 0, 1, 0, false⟩
def sBound : State := fset (bindReg 0) fTSC_CORE_BIND_STATE 2 sUp
def ringRoomy : Ring := ⟨0, 0x1000, 1024, 0x40, 0, 1, 0, 0, 0, 0, [], 0⟩
def sPick : State := { sBound with graphs := [(1, gOne (coreTask tsReady))], cRings := [(0, ringRoomy)] }
def sHeldUp : State := { sUp with graphs := [(1, gOne (coreTask tsReady))] }
def wOne : Waiting := ⟨1, [0], 0, 1, 0, 0⟩
theorem waits_one (s : State) (h : s.graphs = [(1, gOne (coreTask tsReady))]) : waitList s 0 = [wOne] := by
  have e : waitingOf 1 0 (gOne (coreTask tsReady)) = some wOne := by
    simp only [waitingOf, gangMembers, show gangOf (gOne (coreTask tsReady)) 0 = [0] by decide +kernel, List.mergeSort_singleton]
    decide +kernel
  have a : allTasks s = [(1, 0, gOne (coreTask tsReady), coreTask tsReady)] := by simp only [allTasks, h]; decide +kernel
  simp only [waitList, a, List.filterMap, e, show (coreTask tsReady).home = 0 from rfl, if_true, List.mergeSort_singleton]
theorem test_hyp_TaskAndCoreEvents :
    pickFrom sPick (waitList sPick 0) [] = some (wOne, [(0, [0])]) ∧
    (match (readGang 1 [(0, [0])] (reserveSlots 1 1 true sPick)).1 with | .inl _ => true | .inr _ => false) = true ∧ headTask sPick wOne = some (coreTask tsReady) ∧
    (waitList sHeldUp 0).find? (fun w => w.tenant == 0 && ((headTask sHeldUp w).map (fun k => k.kind == 0)).getD false) = some wOne ∧
    placement sHeldUp wOne = none ∧ isSafe sHeldUp = false ∧
    (let k := { coreTask tsRunning with endStatus := some (0, 0) }
     let s := { sUp with graphs := [(1, gOne k)], waits := [abortWait] }
     taskOf s 1 0 = some k ∧ commitReady s 1 0 k = true ∧ s.waits.find? (fun w => w.op == 0x303 && w.keys.contains (taskKey 1 0)) = some abortWait ∧
     abortWait.a = 0) ∧
    (let k := coreTask tsPreempting
     let s := { sUp with graphs := [(1, gOne k)], cores := [(0, { task := some (1, 0, 0), stop := true })] }
     (coreOf s 0).task = some (1, 0, 0) ∧ taskOf s 1 0 = some k ∧ (coreOf s 0).ended = false ∧ (coreOf s 0).saved = false ∧
     allEnts (coreOf s 0) = [] ∧ (coreOf s 0).xfers = []) ∧
    (let s := fset (bindReg 0) fTSC_CORE_BIND_SLEEP 0 <| fset (bindReg 0) fTSC_CORE_BIND_STATE 1 { sUp with cores := [(0, { bindTo := some (some 5) })] }
     coreState s 0 = 1 ∧ fget s (bindReg 0) fTSC_CORE_BIND_SLEEP = 0 ∧ (coreOf s 0).bindTo = some (some 5)) := by
  rw [waits_one sPick (by decide +kernel), waits_one sHeldUp (by decide +kernel)]; decide +kernel

def bindWait : Wait := ⟨.qp 0, 0x201, 5, 1, 0, 0, 0, [granKey 3 383], 0, 0, 1, 0, false⟩
def frec0 : FRec := ⟨zeros 64, 3, false, true⟩
def trec0 : TRec := ⟨1, 3, zeros 64, false⟩
def ringBig : Ring := ⟨0, 0x1000, 1024, 0x40, 0, 1, 0, 0, 0, 0, [⟨zeros 64, 0, none, false⟩], 0⟩
theorem test_hyp_GranulesAndRecords :
    (let s := { sUp with grans := [(granKey 3 383, { pend := [⟨some 5, false⟩] })], waits := [bindWait] }
     (granOf s (granKey 3 383)).pend = [⟨some 5, false⟩] ∧ granBusy s (granKey 3 383) = false ∧
     s.waits.find? (fun w => w.op == 0x201 && w.keys.contains (granKey 3 383)) = some bindWait) ∧
    fget (fset (rMEM_GATTR 3 383) fMEM_GATTR_CLEARING 1 sUp) (rMEM_GATTR 3 383) fMEM_GATTR_CLEARING = 1 ∧
    (let s := { sUp with cRings := [(63 * 16 + 15, ringBig)], fRings := [(3, ringBig)], tRings := [(3, ringBig)], frecs := [frec0], trecs := [trec0] }
     ringDefers (.completion (63 * 16 + 15)) (zeros 64) s = false ∧ ringDefers (.fault 3) (zeros 64) s = false ∧
     ringDefers (.trace 3) (zeros 64) s = false ∧ colAttach s = true ∧
     getRing s (.completion (63 * 16 + 15)) = some ringBig ∧ ringRoom ringBig 1 = true ∧ isSafe s = false ∧
     getRing s (ringNamed 1 3 0) = some ringBig ∧ s.frecs.find? (fun f => f.wants 3) = some frec0 ∧
     s.trecs.find? (fun t => t.ring == 3) = some trec0 ∧ lossToReport s = none ∧
     lossToReport { s with trcLost := [(1, 2)] } = some (1, 2)) := by decide +kernel

/-! ## Memory, transfers and collectives -/

/-- A ridge's first granule, past the caches; with the scrubber on; and with tables of one leaf of 1 GiB. -/
def sPlain : State := fset (rMEM_GATTR 0 0) fMEM_GATTR_POLICY 2 sMap0
def sScrub : State := fset (rMEM_SCRUB_CTRL 0) fMEM_SCRUB_CTRL_EN 1 sMap0
def sWalk : State := fset (rMMU_ROOT 0) fMMU_ROOT_EN 1 (fset (rMMU_ROOT 0) fMMU_ROOT_ROOT 1
  { sMap0 with tlbs := [], mem := [(0x1000, 1#8), (0x1001, 0x20#8), (0x2000, 0x3F#8)] })
def badWord : Mp (Mp Byte) := [(1, [(0, 1#8), (8, 2#8), (16, 3#8), (24, 4#8), (33, 5#8)])]
theorem test_hyp_MemoryEvents :
    (let b := (2 ^ 30 - 64) / 64 * 64
     sPlain.caches = [] ∧ sPlain.inj = [] ∧ sPlain.cwErr = [] ∧ paValid sPlain (2 ^ 30 - 64) = true ∧ rqRidge (.core 0) = paRidge b ∧
     policyOf sPlain b = 2 ∧ uncleared sPlain b = false ∧ stackState sPlain (paRidge b) (stackOf sPlain b).1 ≠ 4 ∧
     stackState sPlain (paRidge b) (stackOf sPlain b).1 ≠ 5) ∧
    paValid sMap0 64 = true ∧ paValid sMap0 (2 ^ 41) = false ∧
    (match memRead (rqRidge (.core 0)) 0 64 64 sMap0, memWriteM (rqRidge (.core 0)) 0 64 (zeros 8) (List.replicate 8 true) sMap0 with
      | (.ok _, _), (.ok _, _) => true
      | _, _ => false) = true ∧
    (match memRead (rqRidge (.core 0)) 0 64 64 { sMap0 with cwErr := badWord } with
      | (.uncorr _, _) => true
      | _ => false) = true ∧
    0 / 6 < nRidges sScrub ∧ scrubs sScrub (0 / 6) (0 % 6) = true ∧ Mp.get 0 sScrub.scrub 0 ≠ stackCodewords ∧ sScrub.inj = [] ∧
    sScrub.cwErr = [] ∧
    (match readCw (paOfStack sScrub 0 0 0) 1 sScrub, readCw (paOfStack sScrub 0 0 64) 1 { sScrub with cwErr := badWord } with
      | (.ok _, _), (.uncorr _, _) => true
      | _, _ => false) = true ∧
    (let s := fset (rMEM_STACK_STATUS 3 5) fMEM_STACK_STATUS_STATE 3 sUp
     23 / 6 < nRidges s ∧ stackState s (23 / 6) (23 % 6) = 3 ∧ dieOk s (16 + 23 / 6) = true) ∧
    rqRidge (.core 0) < nRidges sUp ∧ dieOk sUp (16 + rqRidge (.core 0)) = true ∧ (tlbFind sMap0 (rqTlb (.core 0)) 0 65535).isSome = true ∧
    tlbFind sWalk (rqTlb (.core 0)) 0 64 = none ∧ tlbFind sWalk (192 + rqRidge (.core 0)) 0 64 = none ∧
    (match walk (.core 0) 0 64 sWalk with
      | (.leaf l e, _) => l == 1 && e == 0x3F
      | _ => false) = true := by decide +kernel

/-- A NEAR task of tenant 0 that sums one source of 16 elements, its descriptor at address 0. -/
def nearTask : Task := { desc := leFields [(1, 2), (1, 1)] ++ zeros 126, st := tsRunning }
def nearDesc : List Byte := leFields [(3, 0), (1, 1), (4, 0), (8, 0x1000), (8, 0x2000), (8, 0), (8, 16), (24, 0)]
def nearMem : List Host.Cell := [(3, 1#8), (9, 0x10#8), (0x11, 0x20#8), (0x20, 16#8)]
def sNear (l : List Task) : State := { sMap0 with mem := nearMem, graphs := [(1, { gOne nearTask with tasks := nearTask :: l })] }
def nearBusy (turn : Nat) : Task := { nearTask with near := some ⟨nearDesc, 0, 0, turn⟩ }
/-- What a task at the descriptor meets: begun there, or turned away for now. -/
def nearMeets (s : State) : Bool × Bool :=
  match vread (.near 0) 0 nearTask.target 64 accRead s with
  | (.ok d, v) => match lowestOff (nearBlamed d), translate (.near 0) 0 (nDst d) accWrite v with
    | none, (.ok pa, w) =>
      let x := updTask 1 0 (fun k => { k with unit := paRidge pa }) w
      (decide (nearRunning x (paRidge pa) + nearAhead x (paRidge pa) 1 0 < 8) && ridgeServes x (paRidge pa) && nChunks d != 0 && !nAuto d,
       decide (8 ≤ nearRunning x (paRidge pa) + nearAhead x (paRidge pa) 1 0))
    | _, _ => (false, false)
  | _ => (false, false)
def tag0 (u : TagUse) : TagEnt := ⟨9, 0, .melhal, 0, u, 0, 0, false, 0, [], none, none, false⟩
def pieceDone : Piece := ⟨0, 64, none, none, 4, zeros 64⟩
def xfer0 : Xfer := ⟨0, zeros 64, 0, 0, 1, 0, 0, 0, 0, 0, 0, 0, [⟨0, [pieceDone]⟩], none⟩
/-- Tenant 1 may hold no tags of ridge 0. -/
def sNoTags : State := fset (rDMA_TENANT_TAGS 0 1) fDMA_TENANT_TAGS_LIMIT 0 sUp
theorem test_hyp_NearTasksAndTransfers :
    taskOf (sNear []) 1 0 = some nearTask ∧ nearTask.kind = 2 ∧ nearTask.endStatus = none ∧ isSafe (sNear []) = false ∧
    nearMeets (sNear []) = (true, false) ∧ nearMeets (sNear (List.replicate 8 (nearBusy 0))) = (false, true) ∧
    ({ nearTask with desc := nearTask.desc.set 16 1#8 } : Task).target % 64 ≠ 0 ∧
    (match vread (.near 0) 0 nearTask.target 64 accRead { sNear [] with mem := [] } with
      | (.ok d, _) => (lowestOff (nearBlamed d)).isSome
      | _ => false) = true ∧
    (let s := { sMap0 with graphs := [(1, { gOne nearTask with tasks := [nearBusy 3, nearBusy 3] })] }
     taskOf s 1 0 = some (nearBusy 3) ∧ 0 < nChunks nearDesc ∧ nearTurns s 0 1 0 = [3] ∧ (tagPass 0 (.near 0) 0 s).isSome = true) ∧
    tagPass 0 (.near 0) 1 sNoTags = none ∧
    tagFree sUp 0 .melhal 0 = true ∧ rqRidge .melhal = 0 ∧ tagFree sNoTags 0 .melhal 1 = false ∧
    xferRq sUp (.core 0 0) = .coreDma 0 ∧
    (let s := { sUp with tags := [(0, [tag0 (.request 64)])] }
     (tagsOf s 0).find? (fun e => e.tag == 9) = some (tag0 (.request 64)) ∧ (tag0 (.request 64)).abandoned = false ∧
     outOfOrder s 0 (tag0 (.request 64)) = false ∧ s.deferred = [] ∧ ∀ e ∈ tagsOf s 0, e.tag ≠ 10) ∧
    (let e := { tag0 (.request 64) with tag := 10 }
     outOfOrder { sUp with tags := [(0, [tag0 (.request 64), e])] } 0 e = true) ∧
    (let s := { sUp with cores := [(0, { xfers := [xfer0] })] }
     getXfer s (.core 0 0) = some xfer0 ∧ xfer0.issued = [⟨0, [pieceDone]⟩] ∧ xfer0.st < 2 ∧ xfer0.chunk = 0 ∧ ∀ p ∈ [pieceDone], p.st = 4) := by
  decide +kernel

/-- A run of the group of GROUP_ID 9, of the participants of ridges 0 and 3 of this module. -/
def collRun0 : CollRun :=
  { desc := zeros 64, aux := [], gid := 9, members := [0, 3], rank := 0, started := true, sent := true, owed := [], unacked := [], got := [],
    hello := [], chunk := 0, stage := [], freeIdx := 0, staged := 0, ended := false, blocksIn := 0, tFirst := 0, tLast := 0, fail := none,
    fwd := [], unit := [] }
def collTask (r : Option CollRun) : Task := { desc := leFields [(1, 3), (1, 1)] ++ zeros 126, st := tsRunning, coll := r }
def group9 (ms : List Nat) : Group := ⟨9, 0, ms, ms.map (fun _ => 0), [], []⟩
def sColl (ms : List Nat) (m : List Host.Cell) (r : Option CollRun) : State :=
  { sMap0 with mem := m, graphs := [(1, gOne (collTask r))], groups := [(0, group9 ms)] }
/-- The bridge between BD3 and BD0 is up at both ends. -/
def bridged (s : State) : State := jxlSet 3 3 3 (jxlSet 0 4 3 s)
def collStarts (s : State) : Bool × Bool :=
  match vread (.coll 0) 0 0 64 accRead s with
  | (.ok d, v) => match Mp.find v.groups (cGroup d) with
    | none => (false, false)
    | some g =>
      let w := collPick 1 0 0 d g (cRidge d) v
      (decide (lowestOff (collBlamed d (nRidges v) g.members.length) = none) && decide (cRidge d ≠ 0xFF) && (keptNotice w 1 0).isNone,
       (lowestOff (collBlamed d (nRidges v) g.members.length)).isSome && decide (nRidges v ≤ cRidge d))
  | _ => (false, false)
/-- An ALL_GATHER of 16 bytes in a group of one, whole; and a message and a notice from another module. -/
def gather1 : CollRun :=
  { collRun0 with desc := leFields [(1, 2), (15, 0), (8, 0x2000), (8, 0x1000), (8, 16), (24, 0)], members := [0], got := [(0, 0, zeros 16)] }
def farMsg : CollMsg := ⟨9, 0, 4, 0, 0, 0, 0, none, 0, []⟩
def farNotice : FailNotice := ⟨9, 0, 4, 0, 0, 0, false⟩
theorem test_hyp_CollectiveEvents :
    taskOf (sColl [0] [] none) 1 0 = some (collTask none) ∧ (collTask none).kind = 3 ∧ isSafe (sColl [0] [] none) = false ∧
    collStarts (sColl [0] [] none) = (true, false) ∧ collStarts (sColl [0] [(0xC, 4#8)] none) = (false, true) ∧
    (let r := { collRun0 with started := false }
     let s := sColl [0, 3] [] (some r)
     s.notices = [] ∧ collDue s 0 r = true ∧ collRunning s 0 + collAhead s 0 1 0 < 32 ∧ cOp r.desc ≠ 6 ∧ cOp r.desc ≠ 7) ∧
    (let r := { collRun0 with owed := [(1, helloChunk, 0)] }
     let s := bridged (sColl [0, 3] [] (some r))
     r.members[1]? = some 3 ∧ 3 / 4 = moduleId s ∧ ringPath s 0 3 (helloChunk * 65536) = true) ∧
    (let s := sColl [0] [] (some gather1)
     gather1.chunk < gather1.chunks ∧ chunkReady gather1 0 = true ∧
     (match vwrite (.coll 0) 0 ((cDst gather1.desc) % 2 ^ 64) (chunkBytes gather1 0).1 accWrite s with
      | (.ok _, _) => true
      | _ => false) = true) ∧
    collDone { collRun0 with members := [0] } = true := by decide +kernel
theorem test_hyp_CollectiveEventsOfPeers :
    (let r := { collRun0 with desc := leFields [(1, 7), (63, 0)], stage := [(0, 0, 0, [])] }
     let s := sColl [0, 3] [] (some r)
     stageNext r = some (0, 0, 0, []) ∧ (takeFree 1 0 (aConsumers r.aux + 1) s).1 = true ∧
     collOf (takeFree 1 0 (aConsumers r.aux + 1) s).2 1 0 = some r) ∧
    (let m : CollMsg := ⟨9, 0, 0, 0, 0, 0, 0, none, 0, []⟩
     let s := { sColl [0, 3] [] none with collNet := [m] }
     m.sender / 4 = moduleId s ∧ m.receiver = partId s 0 ∧ ringPath s (m.sender % 4) 0 (msgAddr m) = true ∧
     s.collNet.find? (fun x => x.sender == m.sender && x.receiver == m.receiver && x.group == m.group && x.seq == m.seq) = some m) ∧
    (let r := { collRun0 with members := [0, 4] }
     let s := sColl [0, 4] [] (some r)
     farMsg.sender / 4 ≠ moduleId s ∧ groupByGid s farMsg.group = some (0, group9 [0, 4]) ∧ partId s 0 = 0 ∧
     collFind s 0 farMsg.group farMsg.seq = some (1, 0, collTask (some r), r) ∧ farMsg.off = gotLen r 1 farMsg.chunk ∧
     farNotice.sender / 4 ≠ moduleId s ∧ collFind s 0 farNotice.group farNotice.seq = some (1, 0, collTask (some r), r)) ∧
    (let n : FailNotice := ⟨9, 0, 0, 0, 0, 0, false⟩
     let s := { sColl [0, 3] [] none with notices := [n] }
     n.sender / 4 = moduleId s ∧ n.receiver = partId s 0 ∧ ringPath s (n.sender % 4) 0 0 = true) := by decide +kernel

/-! ## Links, sites and lasers -/

def sStable : State := { sUp with boot := { sUp.boot with stable := [.base 0, .base 1, .base 2, .base 3, .compute 0, .compute 9, .porger 15] } }
def sJxl : State := jxlSet 0 0 3 (updJ 0 0 (fun j => { j with retry := [[mkFlit [] 0 5 0 0 0 false false]], heard := 1, replays := 8 }) sStable)
theorem test_hyp_DieLinks :
    jxlState sJxl 0 0 = 3 ∧ (jPort sJxl 0 0).retry ≠ [] ∧ (jPort sJxl 0 0).heard ≠ 0 ∧ retrainCause sJxl 0 0 .replays = true ∧
    (let s := fset (rJXL_PORT_STATUS 0 0) fJXL_PORT_STATUS_WIDTH 1 sJxl
     let l := mkFlit [] 0 0 0 0 0 false false
     flitOk l = true ∧ [l].length = fget s (rJXL_PORT_STATUS 0 0) fJXL_PORT_STATUS_WIDTH ∧ fTrail l 0 8 = (jPort s 0 0).expect ∧
     fTrail (mkFlit [] 0 192 0 0 0 false false) 0 8 = 192 ∧ ((jPort s 0 0).expect + 256 - 192) % 256 = 64) ∧
    flitOk (zeros 3) = false ∧
    (let s := jxlSet 3 4 4 (updJ 3 4 (fun j => { j with att := 3 }) sUp)
     jPopulated s 3 4 = true ∧ jxlState s 3 4 = 4 ∧ (jPort s 3 4).att = 3) ∧
    (jPopulated sStable 3 0 = true ∧ jxlState sStable 3 0 < 5 ∧ jxlState sStable 3 0 ≠ 3 ∧ jClocks sStable 3 0 = true ∧ (jPort sStable 3 0).att < 3) ∧
    (jPopulated sStable 3 4 = true ∧ jClocks sStable 3 4 = true ∧ jPlan sStable 3 4 = jPlan sStable (jPartner 3 4).1 (jPartner 3 4).2) ∧
    jClocks sStable 3 1 = false ∧ sJxl.test.loops.contains (8 * 0 + 0) = false ∧
    ({ sJxl with test := { sJxl.test with loops := [0] } } : State).test.loops.contains (8 * 0 + 0) = true ∧ jPopulated sUp 3 5 = false ∧
    (let m := fun kind => mkMarker 1 kind 0xFF 3 1 20 0 0 [1, 1, 1, 1]
     let r := mkMarker 0 1 0xFF 4 1 20 0 0 [1, 1, 1, 1]
     (∀ k ∈ [0, 1, 2], flitOk (m k) = true ∧ fTrail (m k) 12 4 = 2 ∧ leAt (m k) 0 2 = 0x4A58 ∧ leAt (m k) 3 1 = k ∧ leAt (m k) 2 1 = 1 ∧
      leAt (m k) 0x1C 20 = 0) ∧ flitOk r = true ∧ leAt r 3 1 = 1 ∧ leAt r 2 1 = 0) ∧
    (let s := jxlSet 3 4 2 (updJ 3 4 (fun j => { j with att := 1 }) sUp)
     jxlState s 3 4 = 2 ∧ (jPort s 3 4).att ≠ 0) := by decide +kernel
theorem test_hyp_IdentitiesAndFences :
    dieOk sUp (16 + 3) = true ∧ (jPort sUp 3 3).conflict = false ∧ (jPort sUp 3 4).conflict = false ∧ fget (fset (rJXL_IDENT 3) fJXL_IDENT_SOURCE 4 sUp) (rJXL_IDENT 3) fJXL_IDENT_SOURCE = 4 ∧
    fget (fset (rJXL_IDENT 3) fJXL_IDENT_SOURCE 2 sUp) (rJXL_IDENT 3) fJXL_IDENT_ID = (3 + 1) % 4 ∧
    (let s := fset (rJXL_IDENT 3) fJXL_IDENT_SOURCE 2 (fset (rJXL_IDENT 3) fJXL_IDENT_ID 1 (fset (rJXL_IDENT 3) fJXL_IDENT_STRAP_OK 0 sUp))
     fget s (rJXL_IDENT 3) fJXL_IDENT_SOURCE ≠ 0 ∧ fget s (rJXL_IDENT 3) fJXL_IDENT_SOURCE ≠ 4 ∧
     fget s (rJXL_IDENT 3) fJXL_IDENT_ID ≠ (3 + 1) % 4 ∧ fget s (rJXL_IDENT 3) fJXL_IDENT_STRAP_OK = 0) ∧ identified sUp 3 = false ∧
    fget (fset (rJXL_IDENT 3) fJXL_IDENT_STRAP_OK 1 sUp) (rJXL_IDENT 3) fJXL_IDENT_STRAP_OK = 1 ∧
    fget (fset (rJXL_IDENT 3) fJXL_IDENT_STRAP_OK 0 sUp) (rJXL_IDENT 3) fJXL_IDENT_STRAP_OK = 0 ∧
    identified (fset (rJXL_IDENT 3) fJXL_IDENT_SOURCE 1 sUp) 3 = true ∧ isUnitCode sUp 95 = true ∧ isUnitCode sUp 96 = false ∧
    (dieOf (setDie 95 { st := 1 } sUp) 95).st = 1 ∧ (dieOf sUp 95).st ≠ 1 := by decide +kernel
def sSite (st : Nat) : State := fset (rUCI_SITE_STATUS 3 3) fUCI_SITE_STATUS_STATE st sStable
def prg (f : Porger → Porger) : State := updPorger 15 f (sSite 3)
theorem test_hyp_SitesAndLasers :
    (3 : Nat) < nRidges sUp ∧ (sSite 3).boot.stable.contains (.porger 15) = true ∧ siteState (sSite 0) 15 = 0 ∧
    (let s := fset (rPRG_FF_CTRL 15) fPRG_FF_CTRL_TAU 0 (prg (fun x => { x with ffOn := true, base := [(0, 5)] }))
     (porgerOf s 15).ffOn = true ∧ fget s (rPRG_FF_CTRL 15) fPRG_FF_CTRL_TAU = 0 ∧ siteState s 15 = 3) ∧
    (porgerOf (prg (fun x => { x with lag := 7 })) 15).lag = 7 ∧ (porgerOf (sSite 3) 15).ffOn = false ∧
    (porgerOf (sSite 3) 15).blanked = false ∧ (porgerOf (sSite 3) 15).gap = false ∧
    (porgerOf (prg (fun x => { x with sbDown := 3 })) 15).sbDown % 4 = 3 ∧ siteState (sSite 1) 15 = 1 ∧ siteState (sSite 2) 15 = 2 ∧ siteState (sSite 3) 15 = 3 ∧ siteState (sSite 5) 15 = 5 ∧
    (leFields [(1, 0x80)] ++ zeros 31).length = 32 ∧ paramsPermitted ⟨true, 8, 255, 3, 25, true, false⟩ = true ∧
    paramsPermitted ⟨true, 16, 255, 3, 26, true, false⟩ = false ∧ (dieOf sUp (80 + 15)).st = 0 ∧
    (porgerOf (prg (fun x => { x with blanked := true })) 15).blanked = true ∧ 15 < nSites sUp ∧
    (let s := setSpareState 15 3 (prg (fun x => { x with low := 9 }))
     spareState s 15 = 3 ∧ (porgerOf s 15).low + 1 = 10) ∧
    4 ≤ spareState (setSpareState 15 5 sUp) 15 ∧
    (let s := prg (fun x => { x with samples := [0] })
     (porgerOf s 15).samples ≠ [] ∧ -60 < meanOf (porgerOf s 15).samples) ∧
    (let s := prg (fun x => { x with samples := [-149, -149] })
     meanOf (porgerOf s 15).samples ≤ -80 ∧ -150 < meanOf (porgerOf s 15).samples ∧ (porgerOf s 15).warn = false) ∧
    spareState (setSpareState 15 1 sUp) 15 = 1 ∧ spareState (setSpareState 15 2 sUp) 15 = 2 ∧ -250 < fadeOf sUp 15 ∧
    (let s := setSpareState 15 3 (prg (fun x => { x with go := true }))
     (porgerOf s 15).go = true ∧ spareState s 15 = 3 ∧ (porgerOf s 15).blanked = false ∧ substPending s 15 = false) ∧
    (porgerOf (prg (fun x => { x with gap := true })) 15).gap = true := by decide +kernel
/-- Port 127 with its line on and UP, one stream active. -/
def sLine : State := setPortState 127 3 (setLine 15 7 3 (sSite 3))
theorem test_hyp_RingsAndReceivers :
    lineRuns sLine 15 7 = true ∧ bitOf (losBits sLine 15 7) 17 = false ∧
    (let s := fset (rPRG_WL_RING 15 7 17) (lockFld true) 2 sLine
     fget s (rPRG_WL_RING 15 7 17) (lockFld true) = 2) ∧
    (let s := fset (rPRG_WL_RING 15 7 17) (lockFld false) 1 sLine
     fget s (rPRG_WL_RING 15 7 17) (lockFld false) = 1 ∧ (porgerOf s 15).gap = false) ∧ spareStream sLine 127 17 = none ∧
    (let s := updPorger 15 (fun x => { x with los := [(7, 1)] }) sLine
     bitOf (losBits s 15 7) 0 = true ∧ portState s 127 = 3 ∧ bitOf (portOf s 127).active 0 = true ∧
     ∀ y < 16, y ≠ 0 → bitOf (portOf s 127).active y = false) ∧
    (let s := fset (rPRG_WL_RING 15 7 0) fPRG_WL_RING_TX_LOCK 2 (setLine 15 7 2 sLine)
     siteState s 15 = 3 ∧ lineState s 15 7 = 2 ∧ fget s (rPRG_WL_RING 15 7 0) fPRG_WL_RING_TX_LOCK = 2 ∧ 2 ≤ portState s 127) := by decide +kernel

/-! ## Fabric -/

def sCarry : State := fset rFLK_MODULE_ID fFLK_MODULE_ID_VALID 1 sPort
def pkt0 : Pkt := ⟨6, 7, 0, 3, 0, 1, 5, 9, 0, 0, 0, 77, [], []⟩
theorem test_hyp_FabricPackets :
    portCarries sCarry 6 = true ∧ portCarries (thaw 6 sCarry) 6 = true ∧
    (let s := updLane 6 15 (fun x => { x with wait := [pkt0], replay := [pkt0] }) sCarry
     portLit s 6 = true ∧ (arbitrate (portOf s 6) 15).isSome = true ∧ (Mp.get {} (portOf s 6).lanes 15).wait = [pkt0] ∧
     (laneOf s 6 15).replay = [pkt0] ∧ seqLater pkt0.seq (laneOf s 6 15).seen = true) ∧
    parsePkt pkt0.sop pkt0.bytes = some pkt0 ∧ pkt0.seq = ((laneOf (thaw 6 sCarry) 6 pkt0.lane).accepted + 1) % 2 ^ 24 ∧
    parsePkt pkt0.sop (zeros 8) = none := by decide +kernel
theorem test_hyp_FabricLinkExchanges :
    isPort sPort 127 = true ∧ portState (setPortState 127 2 sPort) 127 = 2 ∧ ownPam4 sPort 127 = false ∧
    (let s := updPort 127 (fun x => { x with helloA := some (5, 6, false, false), partner := some (5, 6, 7, 8) }) (setPortState 127 2 sPort)
     (portOf s 127).helloA = some (5, 6, false, false) ∧ (portOf s 127).partner = some (5, 6, 7, 8)) ∧
    portState (setPortState 127 3 sPort) 127 = 3 ∧ hasAsked sPort 127 4 9 = false ∧ spareFree sPort 127 17 = true ∧
    bitOf (portOf sPort 127).active 0 = true ∧
    (let s := updPort 127 (fun x => { x with asked := [⟨7, 1, 0, 0⟩], lock := 1 }) (setPortState 127 5 sPort)
     (portOf s 127).asked.any (fun c => c.sub == 7) = true ∧ portState s 127 = 5 ∧ (portOf s 127).lock ≠ 0 ∧ isSafe s = false) ∧
    (portOf sPort 127).lock &&& (portOf sPort 127).active = 0 ∧ portState (setPortState 127 1 sPort) 127 = 1 := by decide +kernel

/-! ## Power, temperature, time, faults, metrology, calibration -/

def sPwr (f : Pwr → Pwr) : State := updPwr f sUp
theorem test_hyp_PowerAndClocks :
    sUp.pwr.sag = false ∧ sUp.pwr.overI = false ∧ (38000 : Nat) ≤ 48500 ∧ fget sUp rPWR_SAG_INFO fPWR_SAG_INFO_CAUSE = 0 ∧
    (let s := sPwr (fun p => { p with sag := true, vin := 39001 })
     s.pwr.sag = true ∧ 39000 < s.pwr.vin) ∧ (let s := sPwr (fun p => { p with sag := true, vin := 39000 })
     s.pwr.vin ≤ 39000) ∧
    (let s := sPwr (fun p => { p with overI := true, iin := 134999 })
     s.pwr.iin < (if s.fuses.a12 then 135000 else 68000)) ∧
    (∃ d ∈ boundDies sBound, 8 < fget sBound (rTHM_CD_STATUS d) fTHM_CD_STATUS_POWER_LIMIT) ∧
    (let s := fset (rTHM_CD_STATUS 0) fTHM_CD_STATUS_POWER_LIMIT 8 sBound
     boundDies s ≠ [] ∧ ∀ d ∈ boundDies s, fget s (rTHM_CD_STATUS d) fTHM_CD_STATUS_POWER_LIMIT ≤ 8) ∧
    coreState sBound 0 = 2 ∧ (coreOf sBound 0).task = none ∧
    (let s := fset (bindReg 0) fTSC_CORE_BIND_STATE 1 sUp
     droopRun s 0 = false ∧ coreState s 0 = 1 ∧ fget s (bindReg 0) fTSC_CORE_BIND_SLEEP = 1) ∧ (coreOf sUp 0).stretch = none ∧
    (coreOf (updCore 0 (fun k => { k with stretch := some false }) sUp) 0).stretch = some false := by decide +kernel
theorem test_hyp_Temperatures :
    hasSensor sUp 65 = false ∧ tempOf sUp 11 < (fieldOf sUp.pwr.thm 16 8 : Nat) ∧ dieOk sUp 11 = true ∧
    (let s := sPwr (fun p => { p with temps := [(11, 127)], hot := [11] })
     ((fieldOf s.pwr.thm 16 8 : Nat) : Int) ≤ tempOf s 11 ∧ s.pwr.hot.contains 11 = true ∧
     ((fieldOf (regVal s rTHM_CTRL).toNat 24 8 : Nat) : Int) < tempOf s 11) ∧
    (let s := sPwr (fun p => { p with hot := [11] })
     tempOf s 11 < ((fieldOf s.pwr.thm 16 8 : Nat) : Int) - 5 ∧ s.pwr.hot.contains 11 = true ∧ s.pwr.hot.contains (16 + 11 / 3) = false) ∧
    fget sUp rPWR_STATUS fPWR_STATUS_STACKED = 0 ∧ sUp.pwr.stacked = false ∧
    (let s := fset rPWR_STATUS fPWR_STATUS_STACKED 1 (sPwr (fun p => { p with band := [(11, 2)] }))
     fget s rPWR_STATUS fPWR_STATUS_STACKED = 1 ∧ Mp.get 0 s.pwr.band 11 = 2 ∧ bandOf 95 = 3 ∧ bandOf 80 ≤ 2 ∧ relaxTo 2 80 < 2) := by
  decide +kernel
theorem test_hyp_CrestSteering :
    State.reset.crestRun = false ∧ (∀ u ∈ crestDies sUp, Mp.get 0 sUp.skew u = 0) ∧ 95 ∈ crestDies sUp ∧
    (let s : State := { sUp with crestRun := true, skew := [(95, -5)] }
     dieOk s 95 = true ∧ Mp.get 0 s.skew 95 < -4 ∧ ∀ x ∈ crestDies s, x ≠ 95 → Mp.get 0 s.skew x = 0) ∧
    (let s : State := { sUp with skew := [(95, 5)] }
     4 < Mp.get 0 s.skew 95) ∧ parentOf sUp = none ∧
    (let s := setPortState 6 3 (setParent (some 5) (fset rCST_PARENTS fCST_PARENTS_CAND0 (128 + 6) sUp))
     parentOf s = some 5 ∧ portState s 5 ≠ 3 ∧ (parentCandidates s).find? (fun x => portState s x == 3) = some 6) ∧
    (let s := updPort 6 (fun x => { x with partner := some (3, 6, 1, 1), timeArr := 1 }) (setPortState 6 3 sUp)
     (portOf (chooseParent s) 6).partner = some (3, 6, 1, 1) ∧ isPort (chooseParent s) 6 = true ∧ portState (chooseParent s) 6 = 3 ∧
     (portOf (chooseParent s) 6).timeArr ≠ 0 ∧ isSafe (chooseParent s) = false ∧ tagFree (chooseParent s) (pN 6) .melhal 0 = true) := by
  decide +kernel
def injWait (code n : Nat) : Wait := ⟨.qp 0, 0xF02, 5, 1, 0, 0, 0, [code], n, 0, 0, 0, false⟩
theorem test_hyp_FaultSources :
    isSource sUp 5 = true ∧ isSource sUp 0xFFFFFF = false ∧ isSource sUp (4 * 65536 + 256 + 24) = true ∧ isSource sUp (32 * 65536) = true ∧
    (let s := { sUp with waits := [injWait 5 2] }
     s.waits.find? (fun w => w.op == 0xF02 && w.keys == [5]) = some (injWait 5 2) ∧ 1 < (injWait 5 2).a ∧ (injWait 5 1).a ≤ 1) ∧
    ({ sUp with pulse := true } : State).pulse = true ∧ sUp.test.tap ≠ 3 ∧ (dieOf sUp (16 + 3)).localSafe = false ∧ (dieOf sUp (16 + 3)).st = 0 ∧
    (dieOf (setDie 19 { localSafe := true } sUp) (16 + 3)).localSafe = true := by decide +kernel
theorem test_hyp_CairnMetrology :
    sUp.crn.supply = true ∧ sUp.crn.want = none ∧ sUp.crn.recno < storeSize ∧ sUp.crn.lost = false ∧
    (let s := { sUp with crn := { sUp.crn with supply := false } }
     s.crn.supply = false ∧ s.crn.covers = 0) ∧
    (let s := { sUp with crestRun := true }
     s.boot.up = true ∧ s.crestRun = true ∧ fget s rFLK_INCARNATION fFLK_INCARNATION_INCARNATION = s.crn.incarnation ∧
     stampAt s 64 ≤ s.crn.crest + 4000 * (0 - s.crn.dur) + 4000) ∧
    (let s := { sUp with crestRun := true, crest := 4000001 }
     s.crn.crest + 4000 * (0 - s.crn.dur) + 4000 < stampAt s 64 ∧ s.crn.crest + 4000 * (1 - s.crn.dur) + 4000 < stampAt s 64) ∧
    (let s := { sUp with crestRun := true, crn := { sUp.crn with incarnation := 1 } }
     fget s rFLK_INCARNATION fFLK_INCARNATION_INCARNATION ≠ s.crn.incarnation) := by decide +kernel
theorem test_hyp_CalibrationTestPortAndSmbus :
    (let w : Wait := ⟨.qp 0, 0x700, 5, 1, 0, 0, 0, [8], 0x30, 15, 0, 0, false⟩
     let s := { sUp with waits := [w] }
     s.waits.find? (fun w => w.op == 0x700 && w.keys == [8] && w.a == 0x30 && w.b == 15) = some w ∧ calReady s 8 0x30 15 = true) ∧
    calReady sUp 1 0x11 0 = false ∧ sUp.test.tap ≠ 3 ∧ factoryPerm sUp 3 = false ∧
    (let s := fset rSEC_FACTORY fSEC_FACTORY_ACTIVE 1 (fset rSEC_FACTORY fSEC_FACTORY_PERMS 8 sUp)
     factoryPerm s 3 = true ∧ isUnitCode s (tapDie 15) = true ∧ (dieOf s (tapDie 15)).st = 0) ∧ smbusAnswers sUp = false ∧
    (let s := { sUp with boot := { sUp.boot with fw := true }, crn := { sUp.crn with store := [(1, zeros 2596)] }, test := { sUp.test with recno := 1 } }
     smbusAnswers s = true ∧ (Mp.find s.crn.store s.test.recno).isSome = true ∧ s.test.offset < 2596) ∧
    alertLow sUp = false ∧ alertLow (fsetBit (rFLT_STATUS 0 0) fFLT_STATUS_STICKY 5 true (fset rFLT_CTRL fFLT_CTRL_ALERT_LEVEL 1 sUp)) = true := by
  decide +kernel

/-! ## Words of the core instructions -/

/-- A word of each format whose opcode is listed, with every field at its greatest value or none. -/
theorem test_hyp_CoreWordsRoundTrip :
    opFormat 0x10#8 = some 0 ∧ opFormat 0x30#8 = some 1 ∧ opFormat 0x90#8 = some 2 ∧ opFormat 0x0B#8 = none := by decide +kernel

/-! ## The image of a core, whole -/

/-- A core whose task is being pre-empted (or has been, and waits to be resumed on it), its context slot at VA 0 in a granule past the
caches; all of the granule is in the TLB. -/
def sSlot (st : Nat) (k : Core) : State := fset (rDMA_TAGS 0) fDMA_TAGS_PEAK 1
  { sPlain with tlbs := [(0, [⟨0, 0, 2 ^ 30, 0x3F⟩])], graphs := [(1, gOne (coreTask st))], cores := [(0, k)], cRings := [(0, ringRoomy)] }
def kSave : Core := { task := some (1, 0, 0), stop := true }
def sSave : State := sSlot tsPreempting kSave

theorem slot_plain {s : State} (h : s.caches = [] ∧ s.inj = [] ∧ s.cwErr = [] ∧ ridgeServes s 0 = true ∧
      fget s (rMEM_GATTR 0 0) fMEM_GATTR_POLICY = 2 ∧ (granOf s 0).uncl = [] ∧ linear s 0 = false)
    (hk : ∀ k < 6, stackState s 0 k ≠ 4 ∧ stackState s 0 k ≠ 5) (a : Nat) (ha : a < 2 ^ 30) : paRidge a = 0 ∧ Plain s 0 a := by
  have hr : paRidge a = 0 := by unfold paRidge; omega
  have hg : paGranule a = 0 := by unfold paGranule paOffset; omega
  have hs : (stackOf s a).1 < 6 := by
    unfold stackOf; rw [hr, h.2.2.2.2.2.2]; simp only [Bool.false_eq_true, if_false]; omega
  refine ⟨hr, h.1, h.2.1, h.2.2.1, hr ▸ h.2.2.2.1, ?_, ?_, hr ▸ (hk _ hs).1, hr ▸ (hk _ hs).2⟩
  · simp only [bypasses, policyOf, hr, hg, h.2.2.2.2.1]; rfl
  · simp only [uncleared, paKey, hr, hg]
    rw [show granKey 0 0 = 0 from rfl, h.2.2.2.2.2.1]; rfl

theorem plain_free {s : State} {tenant pa : Nat} (h : Plain s tenant pa) (m : List Host.Cell) (f : Nat) :
    Plain { s with freeCtr := f, mem := m } tenant pa := h
theorem save_plain (m : List Host.Cell) (f a : Nat) (ha : a < 2 ^ 30) : paRidge a = 0 ∧ Plain { sSave with freeCtr := f, mem := m } 0 a := by
  have h := slot_plain (s := sSave) (by decide +kernel) (by decide +kernel) a ha
  exact ⟨h.1, plain_free h.2 m f⟩

def slotHit : TlbEnt := ⟨0, 0, 2 ^ 30, 0x3F⟩
theorem slot_hit {s : State} (h : tlbOf s 0 = [slotHit]) (va : Nat) (hv : va < 2 ^ 30) : tlbFind s 0 0 va = some slotHit := by
  have : va < 1073741824 := hv
  simp only [tlbFind, h]
  simp [slotHit, this]

/-- A translation of a page of the slot is its own address, and changes nothing. -/
theorem slot_translate {s : State} {rq : Requester} {a : Access} (hu : rqTlb rq = 0) (h : tlbOf s 0 = [slotHit])
    (hl : leafAllows 0x3F a = true) (hv : ridgeServes s 0 = true) (hp : (granOf s 0).pend = []) (hb : granBound s 0 0 0 = true)
    (va : Nat) (ha : va < 2 ^ 30) : Machine.translate rq 0 va a s = (.ok va, s) := by
  have hr : paRidge va = 0 := by unfold paRidge; omega
  have hg : paGranule va = 0 := by unfold paGranule paOffset; omega
  have e : entryPa slotHit.leaf + va % slotHit.size = va := by
    have : entryPa slotHit.leaf = 0 := by decide
    have h2 : va % slotHit.size = va := Nat.mod_eq_of_lt ha
    omega
  have hq : paValid s va = true := by
    have : va < 2 ^ 41 ∧ paOffset va < 0x6000000000 := by unfold paOffset; omega
    simp only [paValid, hr, hv, this.1, this.2, decide_true, Bool.and_self]
  have hk : paKey va = 0 := by simp only [paKey, hr, hg]; rfl
  simp only [Machine.translate, hu, slot_hit h va ha, checkLeaf, e, hq, hk, hp, hr, hg, hb, show leafAllows slotHit.leaf a = true from hl]
  simp

theorem slot_range {s : State} {rq : Requester} {a : Access} (ps : List (Nat × Nat))
    (h : ∀ p ∈ ps, Machine.translate rq 0 p.1 a s = (.ok p.1, s)) (va len : Nat) (hp : piecesOf va len = ps) :
    translateRange rq 0 va len a s = (.inl ps, s) := by
  unfold translateRange
  rw [hp]
  suffices H : ∀ acc, ps.foldl _ ((Sum.inl acc : List (Nat × Nat) ⊕ (Nat × TRes)), s) = (.inl (acc ++ ps), s) by simpa using H []
  clear hp
  induction ps with
  | nil => simp
  | cons p r ih =>
    intro acc
    simp only [List.foldl_cons, h p (by simp)]
    rw [ih (fun q hq => h q (by simp [hq])) (acc ++ [(p.1, p.2)])]
    simp

/-- A write of the slot by the requester that saves it is taken, and memory alone changes. -/
theorem save_write (m : List Host.Cell) (f va n : Nat) (ps : List (Nat × Nat)) (hp : piecesOf va n = ps)
    (hr : ∀ p ∈ ps, p.1 < 2 ^ 30 ∧ p.1 + p.2 ≤ 2 ^ 30) (bytes : List Byte) (hb : bytes.length = n) :
    ∃ b m', vwrite (.save 0) 0 va bytes accWrite { sSave with freeCtr := f, mem := m } =
      (.ok b, { sSave with freeCtr := f, mem := m' }) := by
  have ht : tagPass 0 (.save 0) 0 { sSave with freeCtr := f, mem := m } = some { sSave with freeCtr := f, mem := m } := by
    have h1 : tagFree sSave 0 (.save 0) 0 = true := by decide +kernel
    have h2 : ¬ fget sSave (rDMA_TAGS 0) fDMA_TAGS_PEAK < (tagsOf sSave 0).length + 1 := by decide +kernel
    generalize sSave = S at *
    have h1' : tagFree { S with freeCtr := f, mem := m } 0 (.save 0) 0 = true := h1
    have h2' : ¬ fget { S with freeCtr := f, mem := m } (rDMA_TAGS 0) fDMA_TAGS_PEAK < (tagsOf { S with freeCtr := f, mem := m } 0).length + 1 := h2
    simp only [tagPass, h1', h2', if_true, if_false]
  have hx : translateRange (.save 0) 0 va n accWrite { sSave with freeCtr := f, mem := m } =
      (.inl ps, { sSave with freeCtr := f, mem := m }) := by
    have h1 : tlbOf sSave 0 = [slotHit] ∧ ridgeServes sSave 0 = true ∧ (granOf sSave 0).pend = [] ∧ granBound sSave 0 0 0 = true := by
      decide +kernel
    generalize sSave = S at *
    exact slot_range (s := { S with freeCtr := f, mem := m }) ps (fun p h => slot_translate (s := { S with freeCtr := f, mem := m }) (rq := .save 0) (a := accWrite) rfl h1.1 (by decide) h1.2.1 h1.2.2.1 h1.2.2.2 p.1 (hr p h).1) va n hp
  obtain ⟨b, m', e⟩ := writePieces_plain (s := { sSave with freeCtr := f, mem := m }) (ridge := 0) (tenant := 0) (va := va) ps bytes
    (fun p h a _ hl => save_plain m f a (by have := (hr p h).2; omega))
  refine ⟨b, m', ?_⟩
  have hc : colCut (.save 0) { sSave with freeCtr := f, mem := m } = false := rfl
  unfold vwrite
  rw [hc, hb]
  simp only [Bool.false_eq_true, if_false, show rqRidge (.save 0) = 0 from rfl, ht, hx, e]

theorem test_hyp_TaskAndCoreEvents_save :
    let s := sSave
    let k := coreOf s 0
    k.task = some (1, 0, 0) ∧ taskOf s 1 0 = some (coreTask tsPreempting) ∧ (coreTask tsPreempting).st = tsPreempting ∧
    k.stop = true ∧ k.saved = false ∧ k.ended = false ∧ (∀ e ∈ allEnts k, e.started = false) ∧ (∀ y ∈ k.xfers, 2 ≤ y.st) ∧
    ∃ sh s1 b2 s2 b3 s3, sheafRead 0 0 k.extent (nextFree s) = (some sh, s1) ∧ tenantOfGraph s1 1 = tenantOfGraph s 1 ∧
      vwrite (.save 0) (tenantOfGraph s 1) (slotAddr (coreTask tsPreempting) 0) (imageHead k (freeVal 10 s) (freeVal 11 s) ++ sh) accWrite s1
        = (.ok b2, s2) ∧ tenantOfGraph s2 1 = tenantOfGraph s 1 ∧
      vwrite (.save 0) (tenantOfGraph s 1) (parkAddr (coreTask tsPreempting) 0) (parkArea k) accWrite s2 = (.ok b3, s3) := by
  have hk : coreOf sSave 0 = kSave := by decide +kernel
  have ht : tenantOfGraph sSave 1 = 0 := by decide +kernel
  have h0 : taskOf sSave 1 0 = some (coreTask tsPreempting) := by decide +kernel
  simp only [hk, ht, h0]
  obtain ⟨b2, m2, e2⟩ := save_write sSave.mem (sSave.freeCtr + 1) 0 0xD1000
    ((List.range 13).map (fun i => (i * 65536, 65536)) ++ [(13 * 65536, 4096)]) (by decide +kernel) (by decide)
    (imageHead kSave (freeVal 10 sSave) (freeVal 11 sSave) ++ []) (by rw [List.append_nil, imageHead_length])
  obtain ⟨b3, m3, e3⟩ := save_write m2 (sSave.freeCtr + 1) (13 * 65536 + 65536 - 1024) 1024 [(13 * 65536 + 65536 - 1024, 1024)]
    (by decide +kernel) (by decide) (parkArea kSave) (parkArea_length _)
  have ht' (f : Nat) (m : List Host.Cell) : tenantOfGraph { sSave with freeCtr := f, mem := m } 1 = 0 := by
    have := ht
    generalize sSave = S at *
    exact this
  have hs : slotAddr (coreTask tsPreempting) 0 = 0 := by decide +kernel
  have hq : parkAddr (coreTask tsPreempting) 0 = 13 * 65536 + 65536 - 1024 := by decide +kernel
  rw [hs, hq]
  refine ⟨rfl, trivial, rfl, rfl, rfl, rfl, by decide, by decide, [], { sSave with freeCtr := sSave.freeCtr + 1, mem := sSave.mem }, b2, _, b3, _,
    ?_, ht' _ _, e2, ht' _ _, e3⟩
  have (S : State) : sheafRead 0 0 0 (nextFree S) = (some [], { S with freeCtr := S.freeCtr + 1, mem := S.mem }) := rfl
  exact this sSave

theorem slot_read {s : State} (h : s.caches = [] ∧ s.inj = [] ∧ s.cwErr = [] ∧ ridgeServes s 0 = true ∧
      fget s (rMEM_GATTR 0 0) fMEM_GATTR_POLICY = 2 ∧ (granOf s 0).uncl = [] ∧ linear s 0 = false)
    (hk : ∀ k < 6, stackState s 0 k ≠ 4 ∧ stackState s 0 k ≠ 5)
    (ht : tlbOf s 0 = [slotHit] ∧ (granOf s 0).pend = [] ∧ granBound s 0 0 0 = true ∧ tagFree s 0 (.restore 0) 0 = true ∧
      ¬ fget s (rDMA_TAGS 0) fDMA_TAGS_PEAK < (tagsOf s 0).length + 1)
    (va n : Nat) (ps : List (Nat × Nat)) (hp : piecesOf va n = ps) (hr : ∀ p ∈ ps, p.1 < 2 ^ 30 ∧ p.1 + p.2 ≤ 2 ^ 30) :
    ∃ b, vread (.restore 0) 0 va n accRead s = (.ok b, s) := by
  have hx : translateRange (.restore 0) 0 va n accRead s = (.inl ps, s) :=
    slot_range ps (fun p q => slot_translate (rq := .restore 0) (a := accRead) rfl ht.1 (by decide) h.2.2.2.1 ht.2.1 ht.2.2.1 p.1 (hr p q).1)
      va n hp
  obtain ⟨b, e⟩ := readPieces_plain (s := s) (ridge := 0) (tenant := 0) (va := va) ps
    (fun p q a _ hl => slot_plain h hk a (by have := (hr p q).2; omega))
  refine ⟨b, ?_⟩
  have hc : colCut (.restore 0) s = false := rfl
  have hg : tagPass 0 (.restore 0) 0 s = some s := by simp only [tagPass, ht.2.2.2.1, ht.2.2.2.2, if_true, if_false]
  unfold vread
  rw [hc]
  simp only [Bool.false_eq_true, if_false, show rqRidge (.restore 0) = 0 from rfl, hg, hx, e]

/-- A gang of one whose image and park area are read back whole. -/
theorem slot_gang {s : State} {k : Task} (h : ∀ (va n : Nat) (ps : List (Nat × Nat)), piecesOf va n = ps → (∀ p ∈ ps, p.1 < 2 ^ 30 ∧ p.1 + p.2 ≤ 2 ^ 30) →
      ∃ b, vread (.restore 0) 0 va n accRead s = (.ok b, s)) (hk : taskOf s 1 0 = some k) (ht : tenantOfGraph s 1 = 0) (hs : slotAddr k 0 = 0)
    (hq : parkAddr k 0 = 916480) (hu : k.extentUnits = 0) (hst : k.st = tsPreempted) :
    ∃ l u, readGang 1 [(0, [0])] s = (.inl l, u) := by
  obtain ⟨b1, e1⟩ := h 0 0x20 [(0, 32)] (by decide +kernel) (by decide)
  obtain ⟨b2, e2⟩ := h 0 0xD1000 ((List.range 13).map (fun i => (i * 65536, 65536)) ++ [(13 * 65536, 4096)]) (by decide +kernel) (by decide)
  obtain ⟨b3, e3⟩ := h 916480 1024 [(916480, 1024)] (by decide +kernel) (by decide)
  have r : restoreRank 1 0 0 0 s = (.ok (b2 ++ b3), s) := by
    simp only [restoreRank, hk, ht, hs, hq, hu, e1, Nat.mul_zero, Nat.min_zero, Nat.add_zero, e2, e3]
  simp only [readGang, readImages, hk, Option.map_some, hst, List.zipIdx, List.foldl_cons, List.foldl_nil, r]
  simp

def sResume : State := fset (bindReg 0) fTSC_CORE_BIND_STATE 2 (sSlot tsPreempted {})
theorem resume_waits : waitList sResume 0 = [wOne] := by
  have e : waitingOf 1 0 (gOne (coreTask tsPreempted)) = some wOne := by
    simp only [waitingOf, gangMembers, show gangOf (gOne (coreTask tsPreempted)) 0 = [0] by decide +kernel, List.mergeSort_singleton]
    decide +kernel
  have a : allTasks sResume = [(1, 0, gOne (coreTask tsPreempted), coreTask tsPreempted)] := by decide +kernel
  simp only [waitList, a, List.filterMap, e, show (coreTask tsPreempted).home = 0 from rfl, if_true, List.mergeSort_singleton]
theorem resume_gang : ∃ l u, readGang 1 [(0, [0])] (reserveSlots 1 1 true sResume) = (.inl l, u) :=
  slot_gang (k := coreTask tsPreempted) (slot_read (by decide +kernel) (by decide +kernel) (by decide +kernel)) (by decide +kernel)
    (by decide +kernel) (by decide +kernel) (by decide +kernel) (by decide +kernel) rfl
theorem test_hyp_TaskAndCoreEvents_resume :
    pickFrom sResume (waitList sResume 0) [] = some (wOne, [(0, [0])]) ∧ headTask sResume wOne = some (coreTask tsPreempted) ∧
    ∃ l u, readGang wOne.handle [(0, [0])] (reserveSlots wOne.handle wOne.members.length true sResume) = (.inl l, u) := by
  rw [resume_waits]
  exact ⟨by decide +kernel, by decide +kernel, resume_gang⟩

end Sys2Proof.Tests
end

section
/-! The host's access to the device control space (R9, R10, R13, R15): one rule for each thing an address can name. -/

namespace Sys2Proof.Machine

/-! ## The sideband message leaves the shadows alone -/

@[simp] theorem sideMsg_rdShadow (write : Bool) (a v : Nat) (s : State) : (sideMsg write a v s).rdShadow = s.rdShadow := by
  simp only [sideMsg]
  split <;> rfl

@[simp] theorem sideMsg_wrShadow (write : Bool) (a v : Nat) (s : State) : (sideMsg write a v s).wrShadow = s.wrShadow := by
  simp only [sideMsg]
  split <;> rfl

/-! ## Reading and writing one register, by its form -/

/-- The state after a read of a register: its RC fields cleared, and a free value drawn by the count of corrected errors. -/
def afterRead (r : RegDesc) (a : Nat) (s : State) : State :=
  if r.off = 0x200008 ∧ r.kind = .bd then nextFree (clearRead r a s) else clearRead r a s

theorem readReg_high (r : RegDesc) (a : Nat) (s : State) :
    readReg r true a s = ((Mp.get 0#32 s.rdShadow (a - 4)).toNat, s) := by
  simp [readReg]

theorem readReg_low_wide {r : RegDesc} {a : Nat} (s : State) (hc : cairnHeld a = false) (hw : r.wide = true) :
    readReg r false a s = (viewReg r a s % 2 ^ 32, { afterRead r a s with
      rdShadow := Mp.put 0#32 (afterRead r a s).rdShadow a (BitVec.ofNat 32 (viewReg r a s / 2 ^ 32)) }) := by
  simp [readReg, afterRead, hc, hw]

theorem readReg_low_narrow {r : RegDesc} {a : Nat} (s : State) (hc : cairnHeld a = false) (hw : r.wide = false) :
    readReg r false a s = (viewReg r a s % 2 ^ 32, afterRead r a s) := by
  simp [readReg, afterRead, hc, hw]

theorem writeReg_high (r : RegDesc) (a : Nat) (v : Word32) (s : State) :
    writeReg r true a v s = { s with wrShadow := Mp.put 0#32 s.wrShadow (a - 4) v } := rfl

theorem writeReg_low_wide {r : RegDesc} (a : Nat) (v : Word32) (s : State) (hw : r.wide = true) :
    writeReg r false a v s = commitReg r a (v.toNat + (Mp.get 0#32 s.wrShadow a).toNat * 2 ^ 32) s := by
  simp [writeReg, hw]

theorem writeReg_low_narrow {r : RegDesc} (a : Nat) (v : Word32) (s : State) (hw : r.wide = false) :
    writeReg r false a v s = commitReg r a v.toNat s := by
  simp [writeReg, hw]

/-! ## What an address reaches -/

/-- An access is bad if it is not one whole aligned word or names no populated unit (R9). -/
theorem wholeRead_bad {whole : Bool} {a : Nat} {s : State} (h : whole = false ∨ a % 4 ≠ 0 ∨ unitAssigned s a = false) :
    wholeRead whole a s = (allOnes, addrFault s) := by
  cases whole with
  | false => rfl
  | true =>
    have hb : a % 4 ≠ 0 ∨ (!unitAssigned s a) = true := by simpa using h
    simp only [wholeRead, devRead, if_true, if_pos hb]

theorem wholeWrite_bad {whole : Bool} {a : Nat} {s : State} (v : Word32)
    (h : whole = false ∨ a % 4 ≠ 0 ∨ unitAssigned s a = false) : wholeWrite whole a v s = addrFault s := by
  cases whole with
  | false => rfl
  | true =>
    have hb : a % 4 ≠ 0 ∨ (!unitAssigned s a) = true := by simpa using h
    simp only [wholeWrite, devWrite, if_true, if_pos hb]

section
variable {s : State} {a : Nat} (hal : a % 4 = 0) (hu : unitAssigned s a = true)
include hal hu

theorem devRead_silent (hq : unitAnswers s (a / 0x4000000) = false) : devRead a s = (allOnes, s) := by
  simp [devRead, hal, hu, hq]

theorem devWrite_silent (v : Word32) (hq : unitAnswers s (a / 0x4000000) = false) : devWrite a v s = s := by
  simp [devWrite, hal, hu, hq]

variable {r : RegDesc} {high : Bool} (hq : unitAnswers s (a / 0x4000000) = true) (hm : sramWord a = none)
  (hf : findReg (a / 0x4000000) (a % 0x4000000) = some (r, high))
include hq hm hf

theorem devRead_register : devRead a s = readReg r high a (sideMsg false a 0 s) := by
  simp [devRead, hal, hu, hq, hm, hf]

theorem devWrite_register (v : Word32) : devWrite a v s = writeReg r high a v (sideMsg true a v.toNat s) := by
  simp [devWrite, hal, hu, hq, hm, hf]

end

/-! ## The host's access below 2^32 -/

theorem hostRead_device {a : Nat} (ha : a < 2 ^ 32) (whole : Bool) (s : State) :
    hostRead whole a s = emit (.reg a (wholeRead whole a s).1) (wholeRead whole a s).2 := by
  simp only [hostRead, if_pos ha]

theorem hostWrite_device {a : Nat} (ha : a < 2 ^ 32) (whole : Bool) (v : Word32) (s : State) :
    hostWrite whole a v s = wholeWrite whole a v s := if_pos ha

theorem hostRead_bad {whole : Bool} {a : Nat} {s : State} (ha : a < 2 ^ 32)
    (h : whole = false ∨ a % 4 ≠ 0 ∨ unitAssigned s a = false) :
    hostRead whole a s = emit (.reg a 0xFFFFFFFF) (addrFault s) := by
  rw [hostRead_device ha, wholeRead_bad h, allOnes]

theorem hostWrite_bad {whole : Bool} {a : Nat} {s : State} (ha : a < 2 ^ 32) (v : Word32)
    (h : whole = false ∨ a % 4 ≠ 0 ∨ unitAssigned s a = false) : hostWrite whole a v s = addrFault s := by
  rw [hostWrite_device ha, wholeWrite_bad v h]

/-- A whole word that the device control space gives, as the host gets it. -/
theorem hostRead_of_devRead {a n : Nat} {s t : State} (ha : a < 2 ^ 32) (h : devRead a s = (n, t)) :
    hostRead true a s = emit (.reg a n) t := by
  simp only [hostRead_device ha, wholeRead, if_true, h]

theorem hostWrite_of_devWrite {a : Nat} {v : Word32} {s t : State} (ha : a < 2 ^ 32) (h : devWrite a v s = t) :
    hostWrite true a v s = t := by
  simp only [hostWrite_device ha, wholeWrite, if_true, h]

/-! ## The four forms of the access are the host's read and write -/

theorem exec_registerWrite (addr : RegAddr) (v : Word32) (s : State) :
    exec (.registerWrite addr v) s = .next (hostWrite addr.whole addr.addr v s) := rfl
theorem exec_reg64LowWordWrite (addr : RegAddr) (v : Word32) (s : State) :
    exec (.reg64LowWordWrite addr v) s = .next (hostWrite addr.whole addr.addr v s) := rfl
theorem exec_reg64LowWordRead (addr : RegAddr) (s : State) :
    exec (.reg64LowWordRead addr) s = .next (hostRead addr.whole addr.addr s) := rfl
theorem exec_rcFieldRead (addr : RegAddr) (s : State) :
    exec (.rcFieldRead addr) s = .next (hostRead addr.whole addr.addr s) := rfl

/-- Settles O35: each clause is the rule of what its address reaches: no unit (R9), a unit that does not answer (R9, log entry 14),
the high or the low word of a register (R10, R13, R15). -/
theorem registerAccess : Obligations.RegisterAccess := by
  unfold Obligations.RegisterAccess
  intro s whole a v ha y z
  simp only [exec_registerWrite, exec_reg64LowWordWrite, exec_reg64LowWordRead, exec_rcFieldRead]
  refine ⟨fun hbad => ?bad, fun hal hu hq => ?silent, fun r high hal hu hq hm hf => ⟨?high, ?lowWideWrite, ?lowWrite, ?lowRead⟩⟩
  case bad =>
    rw [hostWrite_bad ha v hbad, hostRead_bad ha hbad]
    exact ⟨rfl, rfl, rfl, rfl⟩
  case silent =>
    rw [hostWrite_of_devWrite ha (devWrite_silent hal hu v hq), hostRead_of_devRead ha (devRead_silent hal hu hq)]
    exact ⟨rfl, rfl⟩
  all_goals
    have hread := devRead_register hal hu hq hm hf
    have hwrite := devWrite_register hal hu hq hm hf v
  case high =>
    rintro rfl
    rw [readReg_high, sideMsg_rdShadow] at hread
    rw [writeReg_high, sideMsg_wrShadow] at hwrite
    exact ⟨by rw [hostWrite_of_devWrite ha hwrite], by rw [hostRead_of_devRead ha hread]⟩
  case lowWideWrite =>
    rintro rfl hw
    rw [writeReg_low_wide _ _ _ hw, sideMsg_wrShadow] at hwrite
    rw [hostWrite_of_devWrite ha hwrite]
  case lowWrite =>
    rintro rfl hw
    rw [writeReg_low_narrow _ _ _ hw] at hwrite
    rw [hostWrite_of_devWrite ha hwrite]
  case lowRead =>
    rintro rfl hc
    refine ⟨fun hw => ?_, fun hw => ?_⟩
    · rw [readReg_low_wide _ hc hw] at hread
      rw [hostRead_of_devRead ha hread]
      rfl
    · rw [readReg_low_narrow _ hc hw] at hread
      rw [hostRead_of_devRead ha hread]
      rfl

end Sys2Proof.Machine
end

section
/-! What power-on reset leaves (R14), chapter by chapter: nothing is written yet, so each register is the Reset column of its own
table, found by its address; the fuses are those of an OXV-A12 (log entry 11). -/

namespace Sys2Proof.Machine

/-! ## The thermal thresholds, the profile and the cap (spec/13_power_clocks_thermal.md) -/

theorem reset_thermalThresholds : regVal State.reset rTHM_CTRL = 0x5F695A64#64 ∧
    fget State.reset rTHM_BD_CTRL fTHM_BD_CTRL_BD_TARGET = 95 := by decide +kernel

theorem reset_profile : fget State.reset rPWR_PROFILE fPWR_PROFILE_PROFILE = 1 ∧
    fget State.reset rPWR_PROFILE fPWR_PROFILE_CLK_CEIL = 32 ∧ fget State.reset rPWR_PROFILE fPWR_PROFILE_CAP_W = 4300 := by decide +kernel

/-- The clock ceilings and the core voltage of every compute die. -/
theorem reset_dieCeilings : ∀ d < 12,
    fget State.reset (rTHM_CD_STATUS d) fTHM_CD_STATUS_THERMAL_CEIL = 40 ∧
    fget State.reset (rTHM_CD_STATUS d) fTHM_CD_STATUS_LOCAL_CEIL = 40 ∧
    fget State.reset (rTHM_CD_STATUS d) fTHM_CD_STATUS_POWER_LIMIT = 40 ∧
    fget State.reset (rTHM_CD_STATUS d) fTHM_CD_STATUS_VCORE = 1 := by decide +kernel

/-! ## Faults (spec/16_faults_and_redundancy.md) -/

theorem reset_faultControl : fget State.reset rFLT_CTRL fFLT_CTRL_SAFE = 0 ∧
    fget State.reset rFLT_CTRL fFLT_CTRL_ALERT_LEVEL = 2 ∧ fget State.reset rFLT_CTRL fFLT_CTRL_AUTO_DELAY = 100 := by decide +kernel

/-! ## The ridge caches (spec/05_memory_stacks_and_ridge_cache.md) -/

theorem reset_ridgeControl : ∀ n < 4, regVal State.reset (rMEM_RC_CTRL n) = 0x40000#64 := by decide +kernel

/-- Every tenant may fill all 16 ways of every ridge cache. -/
theorem reset_ridgeWays : ∀ n < 4, ∀ t < 64, regVal State.reset (rMEM_RC_WAYS n t) = 0xFFFF#64 := by decide +kernel

/-! ## The Cairn's weights (spec/17_cairn_metrology.md) -/

theorem reset_cairnWeights : fget State.reset (rCRN_APW 0) fCRN_APW_WEIGHT = 15000 ∧
    fget State.reset (rCRN_APW 1) fCRN_APW_WEIGHT = 600 ∧ fget State.reset (rCRN_APW 2) fCRN_APW_WEIGHT = 1600 := by decide +kernel

/-- Settles O59: the registers chapter by chapter, and the state's own fields as it starts with them. -/
theorem resetState : Obligations.ResetState := by
  obtain ⟨hthresholds, hbase⟩ := reset_thermalThresholds
  obtain ⟨hprofile, hceil, hcap⟩ := reset_profile
  obtain ⟨hsafe, halert, hdelay⟩ := reset_faultControl
  obtain ⟨hw0, hw1, hw2⟩ := reset_cairnWeights
  exact ⟨⟨hthresholds, hbase, hprofile, hceil, fun _ => hcap, reset_dieCeilings, hsafe, halert, hdelay, reset_ridgeControl, reset_ridgeWays,
    hw0, hw1, hw2, rfl, rfl, rfl, rfl⟩, rfl, rfl, rfl, fun _ => rfl⟩

end Sys2Proof.Machine
end

section
/-! The INT8 tile multiply (R51, R52, R54, R58): the chunks of a row's products add up, modulo 2^32, to the whole dot product. -/

namespace Sys2Proof.Machine

/-! ## Bytes and patterns as integers -/

/-- Digit `n` to base 256 of a little-endian number is its byte `n` (R12). -/
theorem leNat_byte (bs : List Byte) (n : Nat) : leNat bs / 2 ^ (8 * n) % 256 = (bs[n]?.getD 0#8).toNat := by
  induction bs generalizing n with
  | nil => simp [leNat]
  | cons b bs ih =>
    have hb := b.isLt
    cases n with
    | zero => simp [leNat]; omega
    | succ n =>
      have hsplit : (2 : Nat) ^ (8 * (n + 1)) = 256 * 2 ^ (8 * n) := by rw [Nat.mul_succ, Nat.pow_add]; omega
      rw [hsplit, ← Nat.div_div_eq_div_mul, List.getElem?_cons_succ, ← ih n]
      congr 2
      simp only [leNat]
      omega

/-- A word's pattern, read as a signed number, is the word's integer. -/
theorem sext_toNat {w : Nat} (x : BitVec w) : sext w x.toNat = x.toInt := by
  simp [sext, BitVec.toInt, Nat.mod_eq_of_lt x.isLt]

theorem ofNat_wrap (w : Nat) (x : Int) : BitVec.ofNat w (wrap w x) = BitVec.ofInt w x := by
  have h : wrap w x = (BitVec.ofInt w x).toNat := (BitVec.toNat_ofInt ..).symm
  rw [h, BitVec.ofNat_toNat, BitVec.setWidth_eq]

theorem ofInt_sext (w x : Nat) : BitVec.ofInt w (sext w x) = BitVec.ofNat w x := by
  rw [← BitVec.ofInt_toInt (x := BitVec.ofNat w x), ← sext_toNat]
  simp [sext]

/-! ## The sum over chunks -/

/-- The sum of a chunk is added to the accumulator modulo 2^32 (R58). -/
theorem ofNat_intResult_add (a : Nat) (x : Int) :
    BitVec.ofNat 32 (intResult (sext 32 a + x)).1 = BitVec.ofNat 32 a + BitVec.ofInt 32 x := by
  rw [intResult, ofNat_wrap, BitVec.ofInt_add, ofInt_sext]

/-- The dot product of two rows. -/
def dotInt (ps qs : List Int) : Int := (List.zipWith (· * ·) ps qs).sum

/-- The dot product of chunk `t` of two rows (R54). -/
def chunkDot (ps qs : List Int) (t : Nat) : Int := dotInt ((ps.drop (32 * t)).take 32) ((qs.drop (32 * t)).take 32)

/-- The dot products of the first `n` chunks sum to that of the first `32 * n` elements. -/
theorem sum_chunkDot (ps qs : List Int) (h : ps.length = qs.length) (n : Nat) :
    ((List.range n).map (chunkDot ps qs)).sum = dotInt (ps.take (32 * n)) (qs.take (32 * n)) := by
  induction n with
  | zero => simp [dotInt]
  | succ n ih =>
    rw [List.range_succ, List.map_append, List.sum_append, ih]
    simp only [dotInt, chunkDot, Nat.mul_succ, List.take_add, List.map_cons, List.map_nil, List.sum_cons, List.sum_nil, Int.add_zero]
    rw [List.zipWith_append (by simp [h]), List.sum_append]

/-- A fold each of whose steps adds an integer modulo 2^32 adds their sum. -/
theorem ofNat_foldl_add (step : Nat × Flags → Nat → Nat × Flags) (x : Nat → Int)
    (hstep : ∀ a t, BitVec.ofNat 32 (step a t).1 = BitVec.ofNat 32 a.1 + BitVec.ofInt 32 (x t)) (l : List Nat) (a : Nat × Flags) :
    BitVec.ofNat 32 (l.foldl step a).1 = BitVec.ofNat 32 a.1 + BitVec.ofInt 32 (l.map x).sum := by
  induction l generalizing a with
  | nil => simp
  | cons t l ih => rw [List.foldl_cons, ih, hstep, List.map_cons, List.sum_cons, BitVec.ofInt_add, BitVec.add_assoc]

/-- Summed in chunks of 32, an element gains the dot product of its rows modulo 2^32. -/
theorem ofNat_tmmInt (ps qs : List Int) (c0 : Nat) (h : ps.length = qs.length) (h32 : 32 ∣ ps.length) :
    BitVec.ofNat 32 (tmmInt ps qs c0).1 = BitVec.ofNat 32 c0 + BitVec.ofInt 32 (dotInt ps qs) := by
  have hsum := sum_chunkDot ps qs h (ps.length / 32)
  rw [Nat.mul_div_cancel' h32, List.take_length, h, List.take_length, ← h] at hsum
  rw [← hsum, tmmInt]
  refine ofNat_foldl_add _ (chunkDot ps qs) (fun a t => ?_) _ _
  rw [chunkDot, dotInt, List.sum_eq_foldl]
  exact ofNat_intResult_add a.1 _

/-! ## The rows of the operands -/

/-- Row `r` of an INT8 operand of 128 elements a row, as `tmmCompute` cuts it from the operand's bytes (R52). -/
theorem int8_row (bs : List Byte) (r : Nat) : (List.range 128).map (fun k => sext 8 (leNat bs / 2 ^ (8 * (r * 128 + k)) % 256)) =
    (List.range 128).map (fun k => (bs[r * 128 + k]?.getD 0#8).toInt) := by
  simp only [leNat_byte, sext_toNat]

/-- Settles O20: element (i, j) is `tmmInt` of row i of P and row j of Q, whose chunks sum to the dot product (R58). -/
theorem int8TileMultiplyIsTheMatrixProduct : Obligations.Int8TileMultiplyIsTheMatrixProduct := by
  unfold Obligations.Int8TileMultiplyIsTheMatrixProduct
  intro g m pb qb c0 _ _ _ i hi j hj dot
  have hk : tmmK 5 5 = 128 := rfl
  have he : i * 128 + j < 8192 := by omega
  have hrow : (i * 128 + j) / 128 = i := by omega
  have hcol : (i * 128 + j) % 128 = j := by omega
  have hlane : BitVec.ofNat 32 (lane c0 (i * 128 + j)) = (c0[i * 128 + j]?).getD 0#32 := BitVec.ofNat_toNat ..
  simp only [tmmCompute, if_true, hk, List.getElem?_map, List.getElem?_range he, Option.map_some, hrow, hcol,
    List.getElem?_range hi, List.getElem?_range hj, Option.getD_some, int8_row]
  rw [ofNat_tmmInt _ _ _ (by simp) (by simp), hlane, dotInt, List.zipWith_map, List.zipWith_self]

end Sys2Proof.Machine
end

section
/-! What an instruction of a unit does to a core that is ready for it (R68, R85, R88), where its operation is one update of that core. -/

namespace Sys2Proof.Machine

/-- The wait of a word changes the event counts alone. -/
theorem takeWait_eq (p : Pre) (k : Core) : takeWait p k = { k with ev := (takeWait p k).ev } := by
  unfold takeWait
  split <;> rfl

section
variable (u : Nat) (w : CWord) (k : Core)

@[simp] theorem waiting_sreg : (waiting u w k).sreg = k.sreg := by rw [waiting, takeWait_eq]
@[simp] theorem waiting_treg : (waiting u w k).treg = k.treg := by rw [waiting, takeWait_eq]
@[simp] theorem waiting_areg : (waiting u w k).areg = k.areg := by rw [waiting, takeWait_eq]
@[simp] theorem waiting_eng : (waiting u w k).eng = k.eng := by rw [waiting, takeWait_eq]
@[simp] theorem waiting_sheaf : (waiting u w k).sheaf = k.sheaf := by rw [waiting, takeWait_eq]
@[simp] theorem waiting_sheafErr : (waiting u w k).sheafErr = k.sheafErr := by rw [waiting, takeWait_eq]
@[simp] theorem waiting_extent : (waiting u w k).extent = k.extent := by rw [waiting, takeWait_eq]
@[simp] theorem waiting_xfers : (waiting u w k).xfers = k.xfers := by rw [waiting, takeWait_eq]

@[simp] theorem sget_waiting (r : BitVec 5) : sget (waiting u w k) r = sget k r := by simp only [sget, waiting_sreg]
@[simp] theorem tget_waiting (r n : Nat) : tget (waiting u w k) r n = tget k r n := by simp only [tget, waiting_treg]
@[simp] theorem aget_waiting (r : BitVec 4) : aget (waiting u w k) r = aget k r := by simp only [aget, waiting_areg]
@[simp] theorem engOf_waiting (e : Nat) : engOf (waiting u w k) e = engOf k e := by simp only [engOf, waiting_eng]

end

/-- The entry of a word that takes effect, as it enters its unit's queue. -/
def unitEntry (w : CWord) (k : Core) : QEnt := ⟨w, k.pc, true, k.place, false, false⟩

@[simp] theorem unitEntry_w (w : CWord) (k : Core) : (unitEntry w k).w = w := rfl
@[simp] theorem unitEntry_pred (w : CWord) (k : Core) : (unitEntry w k).pred = true := rfl

/-- An update of a core neither reads nor writes its queues. -/
def IgnoresQueues (F : Core → Core) : Prop := ∀ k q, F { k with queues := q } = { F k with queues := q }

theorem IgnoresQueues.comp {F G : Core → Core} (hF : IgnoresQueues F) (hG : IgnoresQueues G) : IgnoresQueues (F ∘ G) := fun k q =>
  (congrArg F (hG k q)).trans (hF (G k) q)

theorem ignoresQueues_sset (r : BitVec 5) (v : Word64) : IgnoresQueues (sset r v) := fun k q => by
  unfold sset
  split <;> rfl

theorem ignoresQueues_aset (r : BitVec 4) (v : List Word32) : IgnoresQueues (aset r v) := fun _ _ => rfl

theorem ignoresQueues_setEng (e : Nat) (g : Eng) : IgnoresQueues (setEng e g) := fun _ _ => rfl

theorem ignoresQueues_raiseFlags (e : Nat) (f : Flags) : IgnoresQueues (raiseFlags e f) := fun _ _ => rfl

theorem ignoresQueues_advanceSeq (e : Nat) (m : Mode) (steps : Nat) : IgnoresQueues (advanceSeq e m steps) := fun k q => by
  unfold advanceSeq
  split <;> rfl

/-- A unit's instruction whose operation is one update of its core, the queues apart: the update happens as the instruction starts,
at once (R68, R88, log entry 307). -/
theorem unitIssue_update {c u : Nat} {w : CWord} {s : State} {F : Core → Core} (h : CoreReady s c w) (hp : predOk (coreOf s c) w = true)
    (hu : unitOf w = some u) (h12 : u < 12) (hop : w.op ≠ 0xB0#8) (hx : u = 11 → (coreOf s c).xfers.length < 16)
    (hF : IgnoresQueues F)
    (he : ∀ v, CoreOnly c (waiting u w (coreOf s c)) s v →
      unitEffect c (coreOf s c).pc.toNat (unitEntry w (coreOf s c)) v = .done (updCore c F v)) :
    CoreOnly c (F (issued u w (coreOf s c))) s (unitIssue c w s) := by
  have hq (q) : F { issued u w (coreOf s c) with queues := q } = { F (issued u w (coreOf s c)) with queues := q } := hF _ q
  refine unitIssue_ready h hp hu h12 hop hx (fun v hv => ⟨_, he v hv, ?_⟩) ?_ rfl
  · exact (hv.upd F).eq (hq _)
  · have hsame := congrArg Core.queues (hq (issued u w (coreOf s c)).queues)
    exact hsame

/-! ## Clean reads of the sheaf memory (R91, R94, R95) -/

theorem sheafScan_clean {c : Nat} {s : State} (off len : Nat) (hi : s.inj = []) (he : (coreOf s c).sheafErr = []) :
    sheafScan c off len s = (true, s) := by
  have hs : strikeSheaf c (off / 8) s = s := by simp [strikeSheaf, hi, Mp.get]
  unfold sheafScan
  split
  · rfl
  · simp only [hs, he, List.filter_nil, List.foldl_nil]

/-- A read of words without error gives their bytes and changes nothing. -/
theorem sheafRead_clean {c : Nat} {s : State} (off len : Nat) (hi : s.inj = []) (he : (coreOf s c).sheafErr = []) :
    sheafRead c off len s = (some (Mp.slice 0#8 (coreOf s c).sheaf off len), s) := by
  simp only [sheafRead, sheafScan_clean off len hi he, if_true]

theorem sheafCheck_none {k : Core} {off len align : Nat} (ha : off % align = 0) (hb : off + len ≤ k.extent) :
    sheafCheck k off len align = none := by
  simp [sheafCheck, ha, hb]

/-- A load of words without error, aligned and in bounds, hands on their bytes and changes nothing. -/
theorem sheafLoad_clean {c off len align : Nat} {s : State} (go : List Byte → State → ERes) (hi : s.inj = [])
    (he : (coreOf s c).sheafErr = []) (ha : off % align = 0) (hb : off + len ≤ (coreOf s c).extent) :
    sheafLoad c off len align s go = go (Mp.slice 0#8 (coreOf s c).sheaf off len) s := by
  simp only [sheafLoad, sheafCheck_none ha hb, sheafRead_clean off len hi he]

end Sys2Proof.Machine
end

section
/-! TMM (R51, R78): its operands as they are read, and the accumulator register it writes whole. -/

namespace Sys2Proof.Machine

/-- The bytes of an operand of TMM: of the sheaf memory, or of a tile register (R78). -/
def operandBytes (k : Core) (mem : Bool) (r : BitVec 5) (n : Nat) : List Byte :=
  if mem then Mp.slice 0#8 k.sheaf (sget k r).toNat n else tget k (r.toNat % 8) n

/-- An operand of TMM can be read: in the sheaf memory only aligned, in bounds and without error (R91, R94). -/
def OperandReadable (s : State) (k : Core) (mem : Bool) (r : BitVec 5) (n : Nat) : Prop :=
  mem = true → s.inj = [] ∧ k.sheafErr = [] ∧ (sget k r).toNat % 64 = 0 ∧ (sget k r).toNat + n ≤ k.extent

theorem tmmOperand_readable {c : Nat} {mem : Bool} {r : BitVec 5} {n : Nat} {s : State} (go : List Byte → State → ERes)
    (h : OperandReadable s (coreOf s c) mem r n) : tmmOperand c mem r n s go = go (operandBytes (coreOf s c) mem r n) s := by
  cases mem with
  | false => rfl
  | true =>
    obtain ⟨hi, he, ha, hb⟩ := h rfl
    exact sheafLoad_clean go hi he ha hb

/-- What TMM does to its core, its operands and the old accumulator taken from the core `k0`. -/
def tmmUpdate (p : Pre) (f : FmtT) (k0 : Core) : Core → Core :=
  let pf := f.pfmt.toNat
  let qf := f.qfmt.toNat
  let kk := tmmK pf qf
  let g := engOf k0 (teOf f)
  let m := if pf = 5 then .rne else effMode g p.rnd
  let c0 := if f.clr then List.replicate 8192 0#32 else aget k0 f.ad
  let rs := tmmCompute g m pf qf (operandBytes k0 f.psrc f.pt (opBytes pf 64 kk)) (operandBytes k0 f.qsrc f.qt (opBytes qf 128 kk)) c0
  fun k => advanceSeq (teOf f) m (if pf = 6 ∨ pf = 7 then kk / 8 else kk / 32)
    (raiseFlags (teOf f) (orFlags (rs.map (·.2))) (aset f.ad (rs.map (fun q => BitVec.ofNat 32 q.1)) k))

theorem effTmm_readable {c : Nat} {f : FmtT} {s : State} (p : Pre)
    (hP : OperandReadable s (coreOf s c) f.psrc f.pt (opBytes f.pfmt.toNat 64 (tmmK f.pfmt.toNat f.qfmt.toNat)))
    (hQ : OperandReadable s (coreOf s c) f.qsrc f.qt (opBytes f.qfmt.toNat 128 (tmmK f.pfmt.toNat f.qfmt.toNat))) :
    effTmm c p f s = .done (updCore c (tmmUpdate p f (coreOf s c)) s) := by
  rw [effTmm, tmmOperand_readable _ hP, tmmOperand_readable _ hQ]
  rfl

theorem ignoresQueues_tmmUpdate (p : Pre) (f : FmtT) (k0 : Core) : IgnoresQueues (tmmUpdate p f k0) :=
  (ignoresQueues_advanceSeq _ _ _).comp ((ignoresQueues_raiseFlags _ _).comp (ignoresQueues_aset _ _))

/-- The entering of its queue changes nothing that TMM reads. -/
theorem tmmUpdate_waiting (p : Pre) (f : FmtT) (u : Nat) (w : CWord) (k : Core) : tmmUpdate p f (waiting u w k) = tmmUpdate p f k := by
  simp only [tmmUpdate, operandBytes, engOf_waiting, aget_waiting, tget_waiting, sget_waiting, waiting_sheaf]

theorem OperandReadable.waiting {s v : State} {k : Core} {mem : Bool} {r : BitVec 5} {n : Nat} (h : OperandReadable s k mem r n)
    (u : Nat) (w : CWord) (hv : v.inj = s.inj) : OperandReadable v (waiting u w k) mem r n := by
  simpa only [OperandReadable, hv, sget_waiting, waiting_sheafErr, waiting_extent] using h

theorem unitOf_tmm (p : Pre) (f : FmtT) : unitOf ⟨0x90#8, p, .t f⟩ = some (teOf f) := by simp [unitOf, teOf]

theorem exec_tmm (c : Nat) (p : Pre) (f : FmtT) (s : State) : exec (.tmm c p f) s = .next (unitIssue c ⟨0x90#8, p, .t f⟩ s) := rfl

/-- Settles O19: TMM starts as it is issued and reads its operands where they lie; its one update writes the accumulator register,
the flags and the sequence (R51, R78). -/
theorem tileMultiply : Obligations.TileMultiply := by
  unfold Obligations.TileMultiply
  intro c p f s w u k g pf qf kk m c0 operand inside rs hr hp hP hQ
  have hu : u < 8 := by have := f.ad.isLt; simp only [u, teOf]; omega
  have hrun : CoreOnly c (tmmUpdate p f (coreOf s c) (issued u w (coreOf s c))) s (unitIssue c w s) := by
    refine unitIssue_update hr hp (unitOf_tmm p f) (by omega) (by simp [w]) (by omega) (ignoresQueues_tmmUpdate p f _) (fun v hv => ?_)
    have hcore : coreOf v c = waiting u w (coreOf s c) := hv.1
    have hinj : v.inj = s.inj := by rw [hv.2.2]
    have heff := effTmm_readable (c := c) (s := v) (f := f) p (hcore ▸ OperandReadable.waiting hP u w hinj)
      (hcore ▸ OperandReadable.waiting hQ u w hinj)
    rw [hcore, tmmUpdate_waiting] at heff
    exact heff
  exact ⟨_, exec_tmm c p f s, hrun⟩

end Sys2Proof.Machine
end

section
/-! The DMA unit and the engine control words (R48, R61, R77, R181, R185). -/

namespace Sys2Proof.Machine

/-! ## DMARD and group 0xC: one value read, one register written -/

/-- A unit's instruction that updates its core by what it reads there as it starts: no read sees the entering of the queue. -/
theorem unitIssue_reads {c u : Nat} {w : CWord} {s : State} (F : Core → Core → Core) (h : CoreReady s c w)
    (hp : predOk (coreOf s c) w = true) (hu : unitOf w = some u) (h12 : u < 12) (hop : w.op ≠ 0xB0#8)
    (hx : u = 11 → (coreOf s c).xfers.length < 16) (hF : ∀ k, IgnoresQueues (F k))
    (hreads : F (waiting u w (coreOf s c)) = F (coreOf s c))
    (he : ∀ v, unitEffect c (coreOf s c).pc.toNat (unitEntry w (coreOf s c)) v = .done (updCore c (F (coreOf v c)) v)) :
    CoreOnly c (F (coreOf s c) (issued u w (coreOf s c))) s (unitIssue c w s) :=
  unitIssue_update h hp hu h12 hop hx (hF _) fun v hv => by rw [he v, hv.1, hreads]

/-- A legal word of group 0xC names an engine of the core (R74). -/
theorem eng_le_of_legal {o : Byte} {p : Pre} {f : FmtA} (h : legal ⟨o, p, .a f⟩ = true) (ho : 0xC0 ≤ o.toNat) : f.eng.toNat ≤ 9 := by
  simp only [legal, Bool.and_eq_true, Bool.or_eq_true, decide_eq_true_eq] at h
  omega

/-- A word of group 0xC goes to the engine it names (R68). -/
theorem unitOf_engineControl {o : Byte} (p : Pre) (f : FmtA) (ho : o.toNat / 16 = 0xC) : unitOf ⟨o, p, .a f⟩ = some f.eng.toNat := by
  simp [unitOf, ho]

/-- A word of group 0xC on a core ready for it updates the core by what it reads there. -/
theorem unitIssue_engineControl {c : Nat} {o : Byte} {p : Pre} {f : FmtA} {s : State} (F : Core → Core → Core) (ho : o.toNat / 16 = 0xC)
    (h : CoreReady s c ⟨o, p, .a f⟩) (hp : predOk (coreOf s c) ⟨o, p, .a f⟩ = true) (hF : ∀ k, IgnoresQueues (F k))
    (hreads : ∀ w k, F (waiting f.eng.toNat w k) = F k)
    (he : ∀ v, unitEffect c (coreOf s c).pc.toNat (unitEntry ⟨o, p, .a f⟩ (coreOf s c)) v = .done (updCore c (F (coreOf v c)) v)) :
    CoreOnly c (F (coreOf s c) (issued f.eng.toNat ⟨o, p, .a f⟩ (coreOf s c))) s (unitIssue c ⟨o, p, .a f⟩ s) := by
  have heng := eng_le_of_legal h.legal (by omega)
  have hop : o ≠ 0xB0#8 := fun e => by subst e; exact absurd ho (by decide)
  exact unitIssue_reads F h hp (unitOf_engineControl p f ho) (by omega) hop (by omega) hF (hreads _ _) he

theorem unitOf_dmard (p : Pre) (f : FmtA) : unitOf ⟨0xB1#8, p, .a f⟩ = some 11 := by simp [unitOf]

theorem exec_dmard (c : Nat) (p : Pre) (f : FmtA) (s : State) : exec (.dmard c p f) s = .next (unitIssue c ⟨0xB1#8, p, .a f⟩ s) := rfl
theorem exec_racsw (c : Nat) (p : Pre) (f : FmtA) (s : State) : exec (.racsw c p f) s = .next (unitIssue c ⟨0xC0#8, p, .a f⟩ s) := rfl
theorem exec_wacsw (c : Nat) (p : Pre) (f : FmtA) (s : State) : exec (.wacsw c p f) s = .next (unitIssue c ⟨0xC1#8, p, .a f⟩ s) := rfl
theorem exec_seed (c : Nat) (p : Pre) (f : FmtA) (s : State) : exec (.seed c p f) s = .next (unitIssue c ⟨0xC2#8, p, .a f⟩ s) := rfl
theorem exec_rseq (c : Nat) (p : Pre) (f : FmtA) (s : State) : exec (.rseq c p f) s = .next (unitIssue c ⟨0xC3#8, p, .a f⟩ s) := rfl

/-! ## An instruction alone in the queues of its core -/

theorem mem_put_queue {m : Mp (List QEnt)} {u : Nat} {q : List QEnt} {x : Nat × List QEnt} (h : x ∈ Mp.put [] m u q) :
    x = (u, q) ∨ x ∈ m := by
  unfold Mp.put at h
  split at h
  · exact .inr (List.mem_filter.1 h).1
  · exact Mp.mem_ins _ _ _ _ h

/-- Where nothing was queued, all that is queued stands in the one queue written. -/
theorem mem_of_put_idle {m : Mp (List QEnt)} {u : Nat} {q : List QEnt} {x : QEnt} (h : m.flatMap (·.2) = [])
    (hx : x ∈ (Mp.put [] m u q).flatMap (·.2)) : x ∈ q := by
  obtain ⟨y, hy, hxy⟩ := List.mem_flatMap.1 hx
  rcases mem_put_queue hy with rfl | hy
  · exact hxy
  · rw [List.flatMap_eq_nil_iff.1 h y hy] at hxy
    exact absurd hxy List.not_mem_nil

theorem get_entered (u : Nat) (w : CWord) (k : Core) : Mp.get [] (entered u w k).queues u = [unitEntry w k] := by
  simp only [entered, unitEntry, Mp.get_put_same]

theorem get_entered_ne {u v : Nat} (w : CWord) {k : Core} (h : k.queues.flatMap (·.2) = []) (hv : v ≠ u) :
    Mp.get [] (entered u w k).queues v = [] := by
  simp only [entered]
  rw [Mp.get_put_ne _ _ _ _ _ hv, queue_nil h v]

/-- The only instruction queued, and its event signalled, may start (R68, R85, R88); a DMAQ needs a transfer slot besides (R185). -/
theorem mayStart_entered {u : Nat} {w : CWord} {k : Core} (h : k.queues.flatMap (·.2) = [])
    (hw : w.pre.wv = true → 1 ≤ evGet k w.pre.we.toNat) (hx : k.xfers.length < 4) :
    mayStart (entered u w k) u [unitEntry w k] (unitEntry w k) = true := by
  have hwait : (!w.pre.wv || decide (1 ≤ evGet k w.pre.we.toNat)) = true := by
    cases hv : w.pre.wv with
    | false => rfl
    | true => exact decide_eq_true (hw hv)
  have hplace : ∀ x ∈ allEnts (entered u w k), ¬ x.place < k.place := by
    intro x hx
    rw [List.mem_singleton.1 (mem_of_put_idle h (List.mem_filter.1 hx).1)]
    exact Nat.lt_irrefl _
  have hearlier : (allEnts (entered u w k)).any (fun x => decide (x.place < k.place) && setsConflict (entSet x) (entSet (unitEntry w k))) =
      false := List.any_eq_false.2 fun x hx => by simp [hplace x hx]
  have hslot : decide ((entered u w k).xfers.length < 4) = true := decide_eq_true hx
  unfold mayStart
  simp only [hslot, Bool.or_true, Bool.and_true, Bool.and_eq_true]
  refine ⟨⟨⟨?_, ?_⟩, ?_⟩, hwait⟩
  · simp
  · simp
  · exact congrArg not hearlier

/-! ## A word that enters its unit's queue -/

theorem queueFull_idle {k : Core} (h : k.queues.flatMap (·.2) = []) (u : Nat) (hx : k.xfers.length < 16) : queueFull k u = false := by
  unfold queueFull unitDepth
  rw [queue_nil h]
  split
  · simpa using hx
  · repeat' split
    all_goals simp

/-- A word a core is ready for enters its unit's empty queue; what may start then starts (R68). -/
theorem unitIssue_enters {c u : Nat} {w : CWord} {s : State} (h : CoreReady s c w) (hp : predOk (coreOf s c) w = true)
    (hu : unitOf w = some u) (hx : (coreOf s c).xfers.length < 16) :
    ∃ v, CoreOnly c (entered u w (coreOf s c)) s v ∧ unitIssue c w s = pump c v := by
  have ho : otherInHand (coreOf s c) w = false := by simp [otherInHand, h.sem]
  refine ⟨setCore c (entered u w (coreOf s c)) s, (CoreOnly.refl c s).set _, ?_⟩
  unfold unitIssue
  simp only [h.issues, ho, h.legal, hu, blocked_nil h.idle, hp, queueFull_idle h.idle u hx, Bool.not_true, Bool.or_self,
    Bool.false_eq_true, if_false]
  simp only [updQueue, Mp.upd, queue_nil h.idle, List.nil_append, entered, ← h.fresh]

/-! ## DMAQ -/

/-- The transfer of a DMAQ as it is listed, waiting to run: its descriptor `d` lies at `off` (R181, R185). -/
def queuedXfer (d : List Byte) (off : Nat) (e : QEnt) : Xfer :=
  ⟨0, d, off, e.pc.toNat, 0, 0, 0, 0, if dCvu d then dInit d else 0, 0, 0, 0, [], some e⟩

/-- A listed transfer that is not refused and moves at least one byte waits to run (R183, R184). -/
theorem xferBegin_waits {r : XferRef} {extent : Option Nat} {s : State} {x : Xfer} (hx : getXfer s r = some x)
    (hb : dBlamed (nRidges s) extent x.desc = []) (ht : 0 < dTotal x.desc) : xferBegin r extent s = s := by
  have h0 : dTotal x.desc ≠ 0 := by omega
  simp only [xferBegin, hx, hb, lowestOff, List.foldl_nil, h0, if_false]

/-- The descriptor of a DMAQ, in the sheaf memory of its core (R181). -/
def dmaqDesc (f : FmtA) (k : Core) : List Byte := Mp.slice 0#8 k.sheaf (sget k f.sa).toNat 64

/-- A DMAQ, on a core that runs no transfer, whose descriptor can be read, is not refused and moves at least one byte (R181, R183). -/
structure DmaqAcceptable (f : FmtA) (s : State) (k : Core) : Prop where
  noInjection : s.inj = []
  noError : k.sheafErr = []
  noTransfer : k.xfers = []
  aligned : (sget k f.sa).toNat % 64 = 0
  inBounds : (sget k f.sa).toNat + 128 ≤ k.extent
  notRefused : dBlamed (nRidges s) (some k.extent) (dmaqDesc f k) = []
  moves : 0 < dTotal (dmaqDesc f k)

/-- A core with the transfer of a DMAQ listed as its only one, the descriptor taken from the core `k0`. -/
def listXfer (f : FmtA) (e : QEnt) (k0 k : Core) : Core := { k with xfers := [queuedXfer (dmaqDesc f k0) (sget k0 f.sa).toNat e] }

/-- An acceptable DMAQ lists its transfer and does no more at its start. -/
theorem dmaStart_lists {c : Nat} {e : QEnt} {f : FmtA} {s : State} (hf : e.w.fmt = .a f) (h : DmaqAcceptable f s (coreOf s c)) :
    dmaStart c e s = .done (updCore c (listXfer f e (coreOf s c)) s) := by
  obtain ⟨hi, he, hx, ha, hin, hb, ht⟩ := h
  have hread := sheafRead_clean (sget (coreOf s c) f.sa).toNat 64 hi he
  rw [← dmaqDesc] at hread
  generalize hd : dmaqDesc f (coreOf s c) = d at hb ht hread
  generalize hoff : (sget (coreOf s c) f.sa).toNat = off at ha hin hread
  have hlist : updCore c (fun k => { k with xfers := k.xfers ++ [queuedXfer d off e] }) s = updCore c (listXfer f e (coreOf s c)) s := by
    simp only [updCore, listXfer, hx, hd, hoff, List.nil_append]
  have hget : getXfer (updCore c (listXfer f e (coreOf s c)) s) (.core c 0) = some (queuedXfer d off e) := by
    simp [getXfer, listXfer, queuedXfer, hd, hoff]
  have hbegin := xferBegin_waits (extent := some (coreOf s c).extent) hget hb ht
  simp only [dmaStart, hf, hoff, sheafCheck_none ha hin, hread, hx]
  exact congrArg ERes.done ((congrArg (xferBegin (.core c 0) _) hlist).trans hbegin)

/-- A DMAQ leaves its queue as it starts (R68, log entry 301). -/
theorem markStarted_dmaq {u : Nat} {e : QEnt} (k : Core) (hop : e.w.op = 0xB0#8) (hp : e.pred = true) :
    markStarted u e k = updQueue u (List.filter (fun x => x.place != e.place)) k := by
  simp [markStarted, hop, hp]

/-- The core as a DMAQ starts: its wait is taken, and it has left the queue. -/
def dmaqStarted (w : CWord) (k : Core) : Core := markStarted 11 (unitEntry w k) (waiting 11 w k)

/-- The queues of a core where a DMAQ, all that was queued, has left the DMA unit's. -/
def dmaqLeft (w : CWord) (k : Core) : Mp (List QEnt) := (dmaqStarted w k).queues

theorem dmaqLeft_eq {w : CWord} (k : Core) (hop : w.op = 0xB0#8) : dmaqLeft w k = Mp.del (Mp.put [] k.queues 11 [unitEntry w k]) 11 := by
  have hgone : List.filter (fun x => x.place != (unitEntry w k).place) [unitEntry w k] = [] := by simp
  rw [dmaqLeft, dmaqStarted, markStarted_dmaq _ hop rfl]
  simp only [updQueue, Mp.upd, waiting]
  rw [Mp.get_put_same]
  exact (congrArg (Mp.put [] _ 11) hgone).trans (if_pos rfl)

theorem dmaqLeft_idle {w : CWord} {k : Core} (hop : w.op = 0xB0#8) (h : k.queues.flatMap (·.2) = []) :
    (dmaqLeft w k).flatMap (·.2) = [] := by
  rw [dmaqLeft_eq k hop, List.flatMap_eq_nil_iff]
  intro y hy
  obtain ⟨hy, hne⟩ := List.mem_filter.1 hy
  rcases mem_put_queue hy with rfl | hy
  · simp at hne
  · exact List.flatMap_eq_nil_iff.1 h y hy

/-- The state once the wait of a word is taken, from the one its entry stands in the queue in. -/
theorem coreOnly_waiting {c u : Nat} {w : CWord} {k : Core} {s v : State} (h : CoreOnly c (entered u w k) s v) :
    CoreOnly c (waiting u w k) s
      (if w.pre.wv then updCore c (evSet w.pre.we.toNat (evGet (entered u w k) w.pre.we.toNat - 1)) v else v) := by
  unfold waiting takeWait
  split
  · exact (h.upd _).eq rfl
  · exact h.eq rfl

section
variable (w : CWord) (k : Core)

theorem dmaqStarted_sget (r : BitVec 5) : sget (dmaqStarted w k) r = sget k r := sget_waiting 11 w k r
theorem dmaqStarted_sheaf : (dmaqStarted w k).sheaf = k.sheaf := waiting_sheaf 11 w k
theorem dmaqStarted_sheafErr : (dmaqStarted w k).sheafErr = k.sheafErr := waiting_sheafErr 11 w k
theorem dmaqStarted_extent : (dmaqStarted w k).extent = k.extent := waiting_extent 11 w k
theorem dmaqStarted_xfers : (dmaqStarted w k).xfers = k.xfers := waiting_xfers 11 w k

end

theorem dmaqDesc_started (f : FmtA) (w : CWord) (k : Core) : dmaqDesc f (dmaqStarted w k) = dmaqDesc f k := by
  simp only [dmaqDesc, dmaqStarted_sget, dmaqStarted_sheaf]

/-- The DMAQ's entering and leaving its queue changes nothing that its start reads. -/
theorem DmaqAcceptable.started {f : FmtA} {w : CWord} {k : Core} {s t : State} (h : DmaqAcceptable f s k) (hi : t.inj = s.inj)
    (hr : nRidges t = nRidges s) : DmaqAcceptable f t (dmaqStarted w k) where
  noInjection := hi.trans h.noInjection
  noError := (dmaqStarted_sheafErr w k).trans h.noError
  noTransfer := (dmaqStarted_xfers w k).trans h.noTransfer
  aligned := by rw [dmaqStarted_sget]; exact h.aligned
  inBounds := by rw [dmaqStarted_sget, dmaqStarted_extent]; exact h.inBounds
  notRefused := by rw [hr, dmaqStarted_extent, dmaqDesc_started]; exact h.notRefused
  moves := by rw [dmaqDesc_started]; exact h.moves

theorem listXfer_started (f : FmtA) (e : QEnt) (w : CWord) (k : Core) : listXfer f e (dmaqStarted w k) = listXfer f e k := by
  unfold listXfer
  rw [dmaqDesc_started, dmaqStarted_sget]

theorem unitEffect_dmaq {c pc : Nat} {w : CWord} {k : Core} {s : State} {f : FmtA} (hop : w.op = 0xB0#8) (hf : w.fmt = .a f) :
    unitEffect c pc (unitEntry w k) s = dmaStart c (unitEntry w k) s := by
  simp [unitEffect, unitEntry, hop, hf]

/-- A DMAQ that the DMA unit holds alone starts, leaves the queue, and does what `dmaStart` says (R68). -/
theorem startNext_dmaq {c : Nat} {w : CWord} {s v : State} {f : FmtA} {F : Core → Core} (h : CoreReady s c w) (hop : w.op = 0xB0#8)
    (hf : w.fmt = .a f) (hx : (coreOf s c).xfers.length < 4) (hv : CoreOnly c (entered 11 w (coreOf s c)) s v)
    (hstart : ∀ x, CoreOnly c (dmaqStarted w (coreOf s c)) s x → dmaStart c (unitEntry w (coreOf s c)) x = .done (updCore c F x)) :
    ∃ t, startNext c 11 v = (t, true) ∧ CoreOnly c (F (dmaqStarted w (coreOf s c))) s t := by
  have hissue := h.issues
  simp only [canIssue, Bool.and_eq_true, Bool.not_eq_true', decide_eq_true_eq] at hissue
  obtain ⟨⟨⟨⟨-, hended⟩, hstop⟩, -⟩, -⟩ := hissue
  have hmarked := (coreOnly_waiting hv).upd (markStarted 11 (unitEntry w (coreOf s c)))
  have heffect := hstart _ hmarked
  refine ⟨_, ?_, hmarked.upd F⟩
  have hrun : ((entered 11 w (coreOf s c)).ended || (entered 11 w (coreOf s c)).stop ||
      !mayStart (entered 11 w (coreOf s c)) 11 [unitEntry w (coreOf s c)] (unitEntry w (coreOf s c))) = false := by
    rw [mayStart_entered h.idle h.wait hx]
    simp [entered, hended, hstop]
  have hfind : [unitEntry w (coreOf s c)].find? (fun x => !x.started) = some (unitEntry w (coreOf s c)) := rfl
  unfold startNext
  simp only [hv.1, get_entered, hfind, hrun, Bool.false_eq_true, if_false, unitEntry_w, unitEntry_pred, hop, if_true,
    unitEffect_dmaq hop hf, heffect]

theorem exec_dmaq (c : Nat) (p : Pre) (f : FmtA) (s : State) : exec (.dmaq c p f) s = .next (unitIssue c ⟨0xB0#8, p, .a f⟩ s) := rfl

/-- An acceptable DMAQ on a core ready for it: its transfer is listed, and nothing is queued. -/
theorem unitIssue_dmaq {c : Nat} {w : CWord} {f : FmtA} {s : State} (h : CoreReady s c w) (hp : predOk (coreOf s c) w = true)
    (hop : w.op = 0xB0#8) (hf : w.fmt = .a f) (hok : DmaqAcceptable f s (coreOf s c)) :
    CoreOnly c (listXfer f (unitEntry w (coreOf s c)) (coreOf s c) (dmaqStarted w (coreOf s c))) s (unitIssue c w s) := by
  have hunit : unitOf w = some 11 := by simp [unitOf, hop, hf]
  have hfew : (coreOf s c).xfers.length < 4 := by simp [hok.noTransfer]
  obtain ⟨v, hv, hissue⟩ := unitIssue_enters h hp hunit (by omega)
  obtain ⟨t, hstart, hcore⟩ := startNext_dmaq (F := listXfer f (unitEntry w (coreOf s c)) (coreOf s c)) h hop hf hfew hv fun x hx => by
    have hstarted : DmaqAcceptable f x (coreOf x c) := hx.1 ▸ hok.started (by rw [hx.2.2]) (by rw [hx.2.2]; rfl)
    rw [dmaStart_lists (e := unitEntry w (coreOf s c)) hf hstarted, hx.1, listXfer_started]
  have hidle : AllStarted (coreOf t c) := by
    rw [hcore.1]
    exact allStarted_nil (dmaqLeft_idle hop h.idle)
  have hothers : ∀ u, u ≠ 11 → startNext c u v = (v, false) := fun u hu =>
    startNext_none (by rw [hv.1, get_entered_ne _ h.idle hu]; rfl)
  rw [hissue, pump_one hstart hothers hidle (by omega)]
  exact hcore

/-- Settles O21: each engine control word is one read and one write at its start (R48, R61); a DMAQ is the listing of its
transfer (R181, R185). -/
theorem engineControlAndDma : Obligations.EngineControlAndDma := by
  unfold Obligations.EngineControlAndDma
  refine ⟨?control, ?dmaq⟩
  case control =>
    intro c p f s n g va vb x hx w h hp hfew
    simp only [List.mem_cons, List.not_mem_nil, or_false] at hx
    rcases hx with rfl | rfl | rfl | rfl | rfl
    · refine ⟨_, exec_dmard c p f s, ?_⟩
      exact unitIssue_reads (u := 11) (w := ⟨0xB1#8, p, .a f⟩) (fun k => sset f.sd (BitVec.ofNat 64 k.xfers.length)) h hp
        (unitOf_dmard p f) (by omega) (by simp) (fun _ => hfew rfl) (fun _ => ignoresQueues_sset _ _)
        (by simp only [waiting_xfers]) fun _ => rfl
    · refine ⟨_, exec_racsw c p f s, ?_⟩
      exact unitIssue_engineControl (o := 0xC0#8) (fun k => sset f.sd ((engOf k n).acsw.setWidth 64)) (by decide) h hp
        (fun _ => ignoresQueues_sset _ _) (fun _ _ => by simp only [n, engOf_waiting]) fun _ => rfl
    · refine ⟨_, exec_wacsw c p f s, ?_⟩
      exact unitIssue_engineControl (o := 0xC1#8)
        (fun k => setEng n { engOf k n with acsw := writeAcsw (engOf k n).acsw ((sget k f.sa).setWidth 32) }) (by decide) h hp
        (fun _ => ignoresQueues_setEng _ _) (fun _ _ => by simp only [n, engOf_waiting, sget_waiting]) fun _ => rfl
    · refine ⟨_, exec_seed c p f s, ?_⟩
      exact unitIssue_engineControl (o := 0xC2#8)
        (fun k => setEng n { engOf k n with seed := sget k f.sa, eseq := (sget k f.sb).setWidth 51 }) (by decide) h hp
        (fun _ => ignoresQueues_setEng _ _) (fun _ _ => by simp only [n, engOf_waiting, sget_waiting]) fun _ => rfl
    · refine ⟨_, exec_rseq c p f s, ?_⟩
      exact unitIssue_engineControl (o := 0xC3#8) (fun k => sset f.sd ((engOf k n).eseq.setWidth 64)) (by decide) h hp
        (fun _ => ignoresQueues_sset _ _) (fun _ _ => by simp only [n, engOf_waiting]) fun _ => rfl
  case dmaq =>
    intro c p f s hi he hx w a d h hp ha hin hb ht
    have hok : DmaqAcceptable f s (coreOf s c) := ⟨hi, he, hx, ha, hin, hb, ht⟩
    exact ⟨_, dmaqLeft w (coreOf s c), exec_dmaq c p f s, unitIssue_dmaq h hp rfl rfl hok, dmaqLeft_idle rfl h.idle⟩

end Sys2Proof.Machine
end

section
/-! The words of the core instructions (R72, R75, R77): encoding joins the fields of a word, decoding cuts it at the same places, and
joining and cutting are inverse. -/

namespace Sys2Proof.Machine

/-! ## Joining and cutting fields -/

/-- A number cut into fields of the given widths, highest first. -/
def cutFields (x : Nat) : List Nat → List (Nat × Nat)
  | [] => []
  | w :: ws => (w, x / 2 ^ ws.sum % 2 ^ w) :: cutFields x ws

theorem cutFields_widths (x : Nat) (ws : List Nat) : (cutFields x ws).map (·.1) = ws := by
  induction ws with
  | nil => rfl
  | cons w ws ih => rw [cutFields, List.map_cons, ih]

theorem joinFields_cons (w v : Nat) (r : List (Nat × Nat)) :
    joinFields ((w, v) :: r) = v % 2 ^ w * 2 ^ (r.map (·.1)).sum + joinFields r := by
  rw [joinFields, List.sum_eq_foldl]

/-- Joining what was cut gives the number back, as far as the fields reach. -/
theorem joinFields_cutFields (x : Nat) (ws : List Nat) : joinFields (cutFields x ws) = x % 2 ^ ws.sum := by
  induction ws with
  | nil => simp [cutFields, joinFields, Nat.mod_one]
  | cons w ws ih =>
    rw [cutFields, joinFields_cons, cutFields_widths, ih, Nat.mod_mod, List.sum_cons, Nat.add_comm w, Nat.pow_add, Nat.mod_mul,
      Nat.mul_comm, Nat.add_comm]

theorem joinFields_lt (fs : List (Nat × Nat)) : joinFields fs < 2 ^ (fs.map (·.1)).sum := by
  induction fs with
  | nil => simp [joinFields]
  | cons p r ih =>
    obtain ⟨w, v⟩ := p
    have hv : v % 2 ^ w < 2 ^ w := Nat.mod_lt _ (Nat.two_pow_pos w)
    rw [joinFields_cons, List.map_cons, List.sum_cons, Nat.pow_add]
    calc v % 2 ^ w * 2 ^ (r.map (·.1)).sum + joinFields r
        < v % 2 ^ w * 2 ^ (r.map (·.1)).sum + 2 ^ (r.map (·.1)).sum := by omega
      _ = (v % 2 ^ w + 1) * 2 ^ (r.map (·.1)).sum := by rw [Nat.add_mul, Nat.one_mul]
      _ ≤ 2 ^ w * 2 ^ (r.map (·.1)).sum := Nat.mul_le_mul_right _ hv

/-- Cutting sees only the bits that its fields reach. -/
theorem cutFields_add_high (v x n : Nat) (ws : List Nat) (h : ws.sum ≤ n) : cutFields (v * 2 ^ n + x) ws = cutFields x ws := by
  induction ws with
  | nil => rfl
  | cons w ws ih =>
    rw [List.sum_cons] at h
    have hsplit : v * 2 ^ n + x = x + 2 ^ ws.sum * (2 ^ w * (2 ^ (n - ws.sum - w) * v)) := by
      rw [← Nat.mul_assoc, ← Nat.mul_assoc, ← Nat.pow_add, ← Nat.pow_add, Nat.add_comm, Nat.mul_comm v]
      congr 3
      omega
    rw [cutFields, cutFields, ih (by omega), hsplit, Nat.add_mul_div_left _ _ (Nat.two_pow_pos _), Nat.add_mul_mod_self_left]

/-- Cutting what was joined gives the fields back, where each fits its width. -/
theorem cutFields_joinFields (fs : List (Nat × Nat)) (h : ∀ p ∈ fs, p.2 < 2 ^ p.1) : cutFields (joinFields fs) (fs.map (·.1)) = fs := by
  induction fs with
  | nil => rfl
  | cons p r ih =>
    obtain ⟨w, v⟩ := p
    have hv : v < 2 ^ w := h (w, v) List.mem_cons_self
    have hr := ih fun q hq => h q (List.mem_cons_of_mem _ hq)
    rw [joinFields_cons, List.map_cons, cutFields, cutFields_add_high _ _ _ _ (Nat.le_refl _), hr, Nat.mul_comm,
      Nat.mul_add_div (Nat.two_pow_pos _), Nat.div_eq_of_lt (joinFields_lt r), Nat.add_zero, Nat.mod_mod, Nat.mod_eq_of_lt hv]

/-! ## The fields of a word -/

/-- All the fields of a word, highest first (R72, R75). -/
def wordFields (w : CWord) : List (Nat × Nat) := preFields w.op w.pre ++ fmtFields w.fmt

/-- The number of a format as `opFormat` gives it. -/
def formatNo : Fmt → Nat
  | .a _ => 0
  | .v _ => 1
  | .t _ => 2

/-- The widths of the fields of a format's words, highest first (R72, R75). -/
def layout (n : Nat) : List Nat :=
  [8, 2, 1, 5, 1, 5, 1, 5] ++
    (match n with
    | 0 => [5, 5, 5, 5, 4, 5, 1, 6, 64]
    | 1 => [1, 6, 6, 6, 6, 3, 1, 5, 4, 4, 10, 48]
    | _ => [4, 1, 4, 4, 1, 5, 1, 5, 3, 6, 5, 3, 4, 22, 32])

theorem layout_sum (n : Nat) : (layout n).sum = 128 := by
  match n with
  | 0 | 1 | _ + 2 => rfl

theorem wordFields_widths (w : CWord) : (wordFields w).map (·.1) = layout (formatNo w.fmt) := by
  obtain ⟨op, p, a | v | t⟩ := w <;> rfl

/-- Each field of a word fits its width. -/
theorem wordFields_fit (w : CWord) : ∀ p ∈ wordFields w, p.2 < 2 ^ p.1 := by
  have hbit (b : Bool) : b.toNat < 2 := b.toNat_lt
  obtain ⟨op, p, a | v | t⟩ := w <;>
    simp only [wordFields, preFields, fmtFields, List.cons_append, List.nil_append, List.forall_mem_cons, BitVec.isLt, Nat.pow_one,
      hbit, List.not_mem_nil, false_implies, implies_true, and_self]

theorem boolToNat_inj (a b : Bool) : a.toNat = b.toNat ↔ a = b := by cases a <;> cases b <;> decide

theorem preFields_inj {o o' : Byte} {p p' : Pre} (h : preFields o p = preFields o' p') : o = o' ∧ p = p' := by
  obtain ⟨_, _, _, _, _, _, _⟩ := p
  obtain ⟨_, _, _, _, _, _, _⟩ := p'
  simpa [preFields, BitVec.toNat_inj, boolToNat_inj] using h

theorem fmtFields_inj {f f' : Fmt} (hn : formatNo f = formatNo f') (h : fmtFields f = fmtFields f') : f = f' := by
  match f, f' with
  | .a ⟨_, _, _, _, _, _, _, _, _⟩, .a ⟨_, _, _, _, _, _, _, _, _⟩ => simpa [fmtFields, BitVec.toNat_inj, boolToNat_inj] using h
  | .v ⟨_, _, _, _, _, _, _, _, _, _, _, _⟩, .v ⟨_, _, _, _, _, _, _, _, _, _, _, _⟩ =>
    simpa [fmtFields, BitVec.toNat_inj, boolToNat_inj] using h
  | .t ⟨_, _, _, _, _, _, _, _, _, _, _, _, _, _, _⟩, .t ⟨_, _, _, _, _, _, _, _, _, _, _, _, _, _, _⟩ =>
    simpa [fmtFields, BitVec.toNat_inj, boolToNat_inj] using h
  | .a _, .v _ | .a _, .t _ | .v _, .a _ | .v _, .t _ | .t _, .a _ | .t _, .v _ => simp [formatNo] at hn

/-- Words of one format with the same fields are the same word. -/
theorem wordFields_inj {w w' : CWord} (hn : formatNo w.fmt = formatNo w'.fmt) (h : wordFields w = wordFields w') : w = w' := by
  obtain ⟨hpre, hfmt⟩ := List.append_inj h rfl
  obtain ⟨hop, hp⟩ := preFields_inj hpre
  obtain ⟨op, p, f⟩ := w
  obtain ⟨op', p', f'⟩ := w'
  simp only at hop hp hn hfmt
  rw [hop, hp, fmtFields_inj hn hfmt]

/-! ## Encoding joins the fields, decoding cuts them -/

theorem toNat_encodeCore (w : CWord) : (encodeCore w).toNat = joinFields (wordFields w) := by
  have hlt := joinFields_lt (wordFields w)
  rw [wordFields_widths, layout_sum] at hlt
  rw [encodeCore, BitVec.toNat_ofNat]
  exact Nat.mod_eq_of_lt hlt

/-- The opcode of a word, its top byte (R72). -/
def wordOp (x : Word128) : Byte := BitVec.ofNat 8 (wordField x 120 8)

/-- The common fields of a word (R72). -/
def wordPre (x : Word128) : Pre :=
  ⟨BitVec.ofNat 2 (wordField x 118 2), wordField x 117 1 == 1, BitVec.ofNat 5 (wordField x 112 5), wordField x 111 1 == 1,
    BitVec.ofNat 5 (wordField x 106 5), wordField x 105 1 == 1, BitVec.ofNat 5 (wordField x 100 5)⟩

/-- A word read in a format (R75). -/
def wordAs (n : Nat) (x : Word128) : CWord :=
  ⟨wordOp x, wordPre x,
    match n with
    | 0 => .a (decodeA x)
    | 1 => .v (decodeV x)
    | _ => .t (decodeT x)⟩

/-- A word decodes in the format of its opcode, if that is listed. -/
theorem decodeCore_eq (x : Word128) : decodeCore x = (opFormat (wordOp x)).map (fun n => wordAs n x) := by
  have hop : BitVec.ofNat 8 (wordField x 120 8) = wordOp x := rfl
  simp only [decodeCore, hop]
  generalize opFormat (wordOp x) = o
  rcases o with _ | (_ | _ | n) <;> rfl

theorem toNat_wordField (x : Word128) (lo w : Nat) : (BitVec.ofNat w (wordField x lo w)).toNat = x.toNat / 2 ^ lo % 2 ^ w := by
  rw [BitVec.toNat_ofNat, wordField, Nat.mod_mod]

theorem toNat_wordBit (x : Word128) (lo : Nat) : (wordField x lo 1 == 1).toNat = x.toNat / 2 ^ lo % 2 ^ 1 := by
  rw [wordField]
  rcases Nat.mod_two_eq_zero_or_one (x.toNat / 2 ^ lo) with h | h <;> rw [Nat.pow_one, h] <;> rfl

/-- The fields of a word read in a format are the word cut by that format's layout. -/
theorem wordFields_wordAs (n : Nat) (x : Word128) : wordFields (wordAs n x) = cutFields x.toNat (layout n) := by
  match n with
  | 0 | 1 | _ + 2 =>
    simp only [wordFields, wordAs, wordPre, wordOp, preFields, fmtFields, decodeA, decodeV, decodeT, toNat_wordField, toNat_wordBit]
    rfl

theorem formatNo_wordAs (f : Fmt) (x : Word128) : formatNo (wordAs (formatNo f) x).fmt = formatNo f := by
  cases f <;> rfl

/-- A word read in the format it was encoded in is the word. -/
theorem wordAs_encodeCore (w : CWord) : wordAs (formatNo w.fmt) (encodeCore w) = w := by
  refine wordFields_inj (formatNo_wordAs _ _) ?_
  rw [wordFields_wordAs, toNat_encodeCore, ← wordFields_widths, cutFields_joinFields _ (wordFields_fit w)]

/-- What is read from a word in any format encodes to the word: no bit is dropped. -/
theorem encodeCore_wordAs (n : Nat) (x : Word128) : encodeCore (wordAs n x) = x := by
  have hx : x.toNat % 2 ^ 128 = x.toNat := Nat.mod_eq_of_lt x.isLt
  apply BitVec.eq_of_toNat_eq
  rw [toNat_encodeCore, wordFields_wordAs, joinFields_cutFields, layout_sum, hx]

theorem wordOp_encodeCore (w : CWord) : wordOp (encodeCore w) = w.op := congrArg CWord.op (wordAs_encodeCore w)

theorem wordOp_eq_top (x : Word128) : wordOp x = BitVec.ofNat 8 (x.toNat / 2 ^ 120) := by
  apply BitVec.eq_of_toNat_eq
  rw [wordOp, toNat_wordField, BitVec.toNat_ofNat]

/-- Settles O56: a word is read in the format of its opcode, and there encoding and decoding are inverse. -/
theorem coreWordsRoundTrip : Obligations.CoreWordsRoundTrip := by
  unfold Obligations.CoreWordsRoundTrip
  refine ⟨fun w hfmt => ?decode_encode, fun x w hx => ?encode_decode, fun x => ?unlisted⟩
  case decode_encode =>
    have hlisted : opFormat w.op = some (formatNo w.fmt) := by
      rw [hfmt]
      cases w.fmt <;> rfl
    rw [decodeCore_eq, wordOp_encodeCore, hlisted, Option.map_some, wordAs_encodeCore]
  case encode_decode =>
    rw [decodeCore_eq, Option.map_eq_some_iff] at hx
    obtain ⟨n, -, rfl⟩ := hx
    exact encodeCore_wordAs n x
  case unlisted => rw [decodeCore_eq, Option.map_eq_none_iff, wordOp_eq_top]

/-- Settles O57: each word evaluated by the layouts (R72, R75, R76). -/
theorem coreWordsRead : Obligations.CoreWordsRead := by
  unfold Obligations.CoreWordsRead
  decide

end Sys2Proof.Machine
end

section
/-! What the sequencer does with a word a core is ready for (R73, R85, R88): one rule from the outcome of its operation, and the
updates of a core that the issue of a word does not meet. -/

namespace Sys2Proof.Machine

/-! ## The state in which an operation begins -/

/-- The core when the operation of a word begins: its wait is taken and marked, its PC at the next word. -/
def opening (w : CWord) (k : Core) : Core := { begun1 w k with waited := w.pre.wv }

theorem coreOnly_began (c : Nat) (w : CWord) (s : State) : CoreOnly c (opening w (coreOf s c)) s (began c w s) :=
  (CoreOnly.refl c s).set _

@[simp] theorem coreOf_began (c : Nat) (w : CWord) (s : State) : coreOf (began c w s) c = opening w (coreOf s c) := coreOf_setCore ..

section
variable (w : CWord) (k : Core)

theorem begun1_eq : begun1 w k = { k with ev := (takeWait w.pre k).ev, pc := k.pc + 16#64 } := by rw [begun1, takeWait_eq]

@[simp] theorem begun1_queues : (begun1 w k).queues = k.queues := by rw [begun1_eq]
@[simp] theorem begun1_waited : (begun1 w k).waited = k.waited := by rw [begun1_eq]
@[simp] theorem begun1_sem : (begun1 w k).sem = k.sem := by rw [begun1_eq]
@[simp] theorem begun1_xfers : (begun1 w k).xfers = k.xfers := by rw [begun1_eq]
@[simp] theorem begun1_sheaf : (begun1 w k).sheaf = k.sheaf := by rw [begun1_eq]
@[simp] theorem begun1_sheafErr : (begun1 w k).sheafErr = k.sheafErr := by rw [begun1_eq]
@[simp] theorem sget_begun1 (r : BitVec 5) : sget (begun1 w k) r = sget k r := by rw [begun1_eq]; rfl

@[simp] theorem opening_task : (opening w k).task = k.task := by rw [opening, begun1_eq]
@[simp] theorem opening_ended : (opening w k).ended = k.ended := by rw [opening, begun1_eq]
@[simp] theorem opening_queues : (opening w k).queues = k.queues := by rw [opening, begun1_eq]
@[simp] theorem opening_sem : (opening w k).sem = k.sem := by rw [opening, begun1_eq]
@[simp] theorem opening_xfers : (opening w k).xfers = k.xfers := by rw [opening, begun1_eq]
@[simp] theorem opening_sheaf : (opening w k).sheaf = k.sheaf := by rw [opening, begun1_eq]
@[simp] theorem opening_sheafErr : (opening w k).sheafErr = k.sheafErr := by rw [opening, begun1_eq]
@[simp] theorem opening_extent : (opening w k).extent = k.extent := by rw [opening, begun1_eq]
@[simp] theorem sget_opening (r : BitVec 5) : sget (opening w k) r = sget k r := by rw [opening, begun1_eq]; rfl

end

/-! ## What a core that may issue is -/

theorem canIssue_running {s : State} {c : Nat} (h : canIssue s c = true) :
    (coreOf s c).task.isSome = true ∧ (coreOf s c).ended = false ∧ (coreOf s c).stop = false := by
  simp only [canIssue, Bool.and_eq_true, Bool.not_eq_true'] at h
  obtain ⟨⟨⟨⟨⟨-, htask⟩, hended⟩, hstop⟩, -⟩, -⟩ := h
  exact ⟨htask, hended, hstop⟩

/-! ## From the outcome of an operation to the state after the word -/

/-- What the sequencer makes of an operation's outcome (R88): the signal and what may start, the end of the task, or the word kept. -/
def sqOutcome (c : Nat) (w : CWord) (pc : Word64) : ERes → State
  | .done t => pump c (signalEv c pc.toNat w.pre (updCore c (fun k => { k with waited := false }) t))
  | .fail st t => coreFail c st pc.toNat t
  | .ended t => t
  | .held t => updCore c (fun k => { k with pc := pc }) t

/-- A word a core is ready for, its predicate true: its operation begins in `began`, with the address of the word. -/
theorem sqRun_outcome {c : Nat} {w : CWord} {s : State} (eff : Nat → State → ERes) (h : CoreReady s c w)
    (hp : predOk (coreOf s c) w = true) :
    sqRun c w eff s = sqOutcome c w (coreOf s c).pc (eff (coreOf s c).pc.toNat (began c w s)) := by
  have hwait : (w.pre.wv && evGet (coreOf s c) w.pre.we.toNat == 0) = false := by
    cases hv : w.pre.wv
    · rfl
    · have := h.wait hv
      simp; omega
  have hhand : otherInHand (coreOf s c) w = false := by simp [otherInHand, h.sem]
  have hbegan : began c w s = setCore c { (if w.pre.wv = true then evSet w.pre.we.toNat (evGet (coreOf s c) w.pre.we.toNat - 1)
      { coreOf s c with waited := true } else coreOf s c) with pc := (coreOf s c).pc + 16#64 } s := by
    have hfresh := h.fresh
    rw [began, begun1, takeWait]
    congr 1
    cases hv : w.pre.wv
    · simp only [Bool.false_eq_true, if_false, Core.mk.injEq, true_and, and_true]
      exact hfresh.symm
    · rfl
  rw [hbegan]
  unfold sqRun
  simp only [h.issues, hhand, h.legal, blocked_nil h.idle, hp, h.fresh, Bool.not_true, Bool.or_self, Bool.false_eq_true, if_false,
    Bool.and_false, Bool.not_false, Bool.and_true, if_true, hwait]
  generalize eff (coreOf s c).pc.toNat _ = r
  cases r <;> rfl

/-- A core with other queues, and the mark of a wait taken set or not: what the issue of a word touches besides the counters. -/
def withIssue (q : Mp (List QEnt)) (b : Bool) (k : Core) : Core := { k with queues := q, waited := b }

@[simp] theorem sget_withIssue (q : Mp (List QEnt)) (b : Bool) (k : Core) (r : BitVec 5) : sget (withIssue q b k) r = sget k r := rfl

/-- An update of a core neither reads nor writes its queues and the mark of a wait taken. -/
def IgnoresIssue (F : Core → Core) : Prop := ∀ k q b, F (withIssue q b k) = withIssue q b (F k)

theorem IgnoresIssue.queues {F : Core → Core} (h : IgnoresIssue F) (k : Core) : (F k).queues = k.queues := by
  have hk : F k = withIssue k.queues k.waited (F k) := h k k.queues k.waited
  rw [hk, withIssue]

theorem IgnoresIssue.waited {F : Core → Core} (h : IgnoresIssue F) (k : Core) : (F k).waited = k.waited := by
  have hk : F k = withIssue k.queues k.waited (F k) := h k k.queues k.waited
  rw [hk, withIssue]

/-- Whether the wait is marked while the operation runs does not show once the mark is taken back. -/
theorem IgnoresIssue.unmark {F : Core → Core} (h : IgnoresIssue F) {k : Core} (hk : k.waited = false) (b : Bool) :
    { F { k with waited := b } with waited := false } = F k := by
  have hb : F { k with waited := b } = withIssue k.queues b (F k) := h k k.queues b
  rw [hb, withIssue, ← h.queues k, ← hk, ← h.waited k]

theorem ignoresIssue_id : IgnoresIssue id := fun _ _ _ => rfl

theorem IgnoresIssue.comp {F G : Core → Core} (hF : IgnoresIssue F) (hG : IgnoresIssue G) : IgnoresIssue (F ∘ G) := fun k q b =>
  (congrArg F (hG k q b)).trans (hF (G k) q b)

theorem IgnoresIssue.ite {P : Core → Prop} [DecidablePred P] {F G : Core → Core} (hP : ∀ k q b, P (withIssue q b k) = P k)
    (hF : IgnoresIssue F) (hG : IgnoresIssue G) : IgnoresIssue (fun k => if P k then F k else G k) := fun k q b => by
  simp only [hP]
  split
  · exact hF k q b
  · exact hG k q b

/-- A core at another instruction. -/
def jumpTo (v : Word64) (k : Core) : Core := { k with pc := v }

theorem ignoresIssue_jumpTo (v : Word64) : IgnoresIssue (jumpTo v) := fun _ _ _ => rfl

theorem ignoresIssue_sset (r : BitVec 5) {v : Core → Word64} (hv : ∀ k q b, v (withIssue q b k) = v k) :
    IgnoresIssue (fun k => sset r (v k) k) := fun k q b => by
  simp only [hv, sset]
  split <;> rfl

theorem giveSignal_queues (p : Pre) (k : Core) : (giveSignal p k).queues = k.queues := by
  unfold giveSignal
  split <;> rfl

/-- A word whose operation completes, changing beyond `u` only its core, and that as `F` says: its signal follows. -/
theorem sqRun_completes {c : Nat} {w : CWord} {s u t : State} {F : Core → Core} {eff : Nat → State → ERes} (hF : IgnoresIssue F)
    (h : CoreReady s c w) (hp : predOk (coreOf s c) w = true) (hf : SignalFits w.pre (F (begun1 w (coreOf s c))))
    (he : eff (coreOf s c).pc.toNat (began c w s) = .done t)
    (ht : CoreOnly c (F (opening w (coreOf s c))) u t) :
    CoreOnly c (giveSignal w.pre (F (begun1 w (coreOf s c)))) u (sqRun c w eff s) := by
  have hdone : CoreOnly c (F (begun1 w (coreOf s c))) u (updCore c (fun k => { k with waited := false }) t) :=
    (ht.upd _).eq (hF.unmark ((begun1_waited w _).trans h.fresh) _)
  have hsignal := signalEv_core (pc := (coreOf s c).pc.toNat) hdone hf
  have hidle : (giveSignal w.pre (F (begun1 w (coreOf s c)))).queues.flatMap (·.2) = [] := by
    rw [giveSignal_queues, hF.queues, begun1_queues]
    exact h.idle
  rw [sqRun_outcome eff h hp, he, sqOutcome, pump_idle (hsignal.1 ▸ allStarted_nil hidle)]
  exact hsignal

/-- A word whose operation is one update of its core. -/
theorem sqRun_update {c : Nat} {w : CWord} {s : State} {F : Core → Core} {eff : Nat → State → ERes} (hF : IgnoresIssue F)
    (h : CoreReady s c w) (hp : predOk (coreOf s c) w = true) (hf : SignalFits w.pre (F (begun1 w (coreOf s c))))
    (he : eff (coreOf s c).pc.toNat (began c w s) = .done (updCore c F (began c w s))) :
    CoreOnly c (giveSignal w.pre (F (begun1 w (coreOf s c)))) s (sqRun c w eff s) :=
  sqRun_completes hF h hp hf he ((coreOnly_began c w s).upd F)

end Sys2Proof.Machine
end

section
/-! Scalar arithmetic, moves and control (R77, R100), and the word whose predicate is false (R73). -/

namespace Sys2Proof.Machine

/-! ## Arithmetic and moves -/

/-- The signal of a word that wrote a scalar register finds the event counts as they were. -/
theorem signalFits_sset {p : Pre} {r : BitVec 5} {v : Word64} {k : Core} (h : SignalFits p k) : SignalFits p (sset r v k) := by
  have hev : (sset r v k).ev = k.ev := by unfold sset; split <;> rfl
  simpa only [SignalFits, evGet, hev] using h

/-- A word that writes one scalar register with a value read from its core. -/
theorem sqRun_sset {c : Nat} {w : CWord} {s : State} {r : BitVec 5} (v : Core → Word64) {eff : Nat → State → ERes} (h : CoreReady s c w)
    (hp : predOk (coreOf s c) w = true) (hf : SignalFits w.pre (begun1 w (coreOf s c)))
    (hv : ∀ k q b, v (withIssue q b k) = v k)
    (he : eff (coreOf s c).pc.toNat (began c w s) = .done (updCore c (fun k => sset r (v k) k) (began c w s))) :
    CoreOnly c (giveSignal w.pre (sset r (v (begun1 w (coreOf s c))) (begun1 w (coreOf s c)))) s (sqRun c w eff s) :=
  sqRun_update (F := fun k => sset r (v k) k) (ignoresIssue_sset r hv) h hp (signalFits_sset hf) he

/-! The comparisons of the model are those of the operands as signed and as unsigned integers. -/

section
variable (c : Nat) (p : Pre) (f : FmtA) (s : State)

theorem exec_minn : exec (.minn c p f) s =
    .next (sqRun c (wordA 0x19#8 p f) (effAlu (fun a b => if a.toInt < b.toInt then a else b) c f) s) := by
  simp only [← BitVec.slt_iff_toInt_lt]
  rfl

theorem exec_maxx : exec (.maxx c p f) s =
    .next (sqRun c (wordA 0x1A#8 p f) (effAlu (fun a b => if a.toInt < b.toInt then b else a) c f) s) := by
  simp only [← BitVec.slt_iff_toInt_lt]
  rfl

theorem exec_slt : exec (.slt c p f) s =
    .next (sqRun c (wordA 0x1B#8 p f) (effAlu (fun a b => if a.toInt < b.toInt then 1#64 else 0#64) c f) s) := by
  simp only [← BitVec.slt_iff_toInt_lt]
  rfl

theorem exec_sltu : exec (.sltu c p f) s =
    .next (sqRun c (wordA 0x1C#8 p f) (effAlu (fun a b => if a.toNat < b.toNat then 1#64 else 0#64) c f) s) := by
  simp only [← BitVec.ult_iff_toNat_lt]
  rfl

end

/-- Settles O3: each instruction writes one register with a value read as its operation begins. -/
theorem scalarArithmeticAndMoves : Obligations.ScalarArithmeticAndMoves := by
  unfold Obligations.ScalarArithmeticAndMoves
  refine ⟨fun c p f s x hx => ?alu, fun c p f s x hx => ?move⟩
  case alu =>
    intro w k h hp hf
    have hexec : exec x.1 s = .next (sqRun c w (effAlu x.2.2 c f) s) := by
      simp only [List.mem_cons, List.not_mem_nil, or_false] at hx
      rcases hx with rfl | rfl | rfl | rfl | rfl | rfl | rfl | rfl | rfl | rfl | rfl | rfl | rfl | rfl
      exacts [rfl, rfl, rfl, rfl, rfl, rfl, rfl, rfl, rfl, exec_minn c p f s, exec_maxx c p f s, exec_slt c p f s, exec_sltu c p f s, rfl]
    exact ⟨_, hexec, sqRun_sset (fun k => x.2.2 (sget k f.sa) (aluB k f)) h hp hf (fun _ _ _ => rfl) rfl⟩
  case move =>
    intro w k h hp hf
    simp only [List.mem_cons, List.not_mem_nil, or_false] at hx
    rcases hx with rfl | rfl | rfl
    · exact ⟨_, rfl, sqRun_sset (fun _ => f.imm) h hp hf (fun _ _ _ => rfl) rfl⟩
    · exact ⟨_, rfl, sqRun_sset (fun _ => BitVec.ofNat 64 (stampAt s (c / 16))) h hp hf (fun _ _ _ => rfl) rfl⟩
    · exact ⟨_, rfl, sqRun_sset (fun k => BitVec.ofNat 64 (evGet k f.ev.toNat)) h hp hf (fun _ _ _ => rfl) rfl⟩

/-! ## Control -/

theorem branchTo_toNat (a : Word64) (f : FmtA) : branchTo a.toNat f = a + 16#64 * f.imm := by
  rw [branchTo, BitVec.ofNat_toNat, BitVec.setWidth_eq]

/-- A word that updates its core as `G` says and then jumps if `P` held of the core before. -/
theorem sqRun_jump {c : Nat} {w : CWord} {s u : State} {f : FmtA} {P : Core → Prop} [DecidablePred P] {G : Core → Core}
    {eff : Nat → State → ERes} {cond : Bool} (hG : IgnoresIssue G) (hP : ∀ k q b, P (withIssue q b k) = P k)
    (h : CoreReady s c w) (hp : predOk (coreOf s c) w = true) (hf : SignalFits w.pre (G (begun1 w (coreOf s c))))
    (he : eff (coreOf s c).pc.toNat (began c w s) = effJump c cond f (coreOf s c).pc.toNat u)
    (hcond : cond = true ↔ P (begun1 w (coreOf s c))) (hu : CoreOnly c (G (opening w (coreOf s c))) s u) :
    CoreOnly c (giveSignal w.pre (if P (begun1 w (coreOf s c)) then
        jumpTo ((coreOf s c).pc + 16#64 * f.imm) (G (begun1 w (coreOf s c))) else G (begun1 w (coreOf s c)))) s (sqRun c w eff s) := by
  have hF : IgnoresIssue (fun k => if P k then jumpTo ((coreOf s c).pc + 16#64 * f.imm) (G k) else G k) :=
    IgnoresIssue.ite hP ((ignoresIssue_jumpTo _).comp hG) hG
  have hP' : P (opening w (coreOf s c)) = P (begun1 w (coreOf s c)) := hP _ (begun1 w (coreOf s c)).queues _
  refine sqRun_completes hF h hp ?fits he ?core
  case fits => split <;> exact hf
  case core =>
    simp only [hP', ← hcond]
    split
    · rw [← branchTo_toNat]
      exact hu.upd (jumpTo _)
    · exact hu

/-- A core whose task is not being pre-empted has nothing to take at a YIELD (R100). -/
theorem preemptCore_none {c : Nat} {s : State}
    (h : ∀ g t rank, (coreOf s c).task = some (g, t, rank) → (taskOf s g t).map (·.st) ≠ some tsPreempting) : preemptCore c s = s := by
  unfold preemptCore
  dsimp only
  split
  · rfl
  · rename_i g t rank htask
    exact if_neg fun hst => h g t rank htask hst.1

/-- A pending pre-emption stops a core that runs no transfer and does no more (R98, R100). -/
theorem preemptCore_stops {c g t rank : Nat} {s : State} {x : Task} (htask : (coreOf s c).task = some (g, t, rank))
    (hx : taskOf s g t = some x) (hst : x.st = tsPreempting) (hended : (coreOf s c).ended = false) (hxfers : (coreOf s c).xfers = []) :
    preemptCore c s = updCore c (fun k => { k with stop := true, sem := none }) s := by
  have hpending : (taskOf s g t).map (·.st) = some tsPreempting ∧ (!(coreOf s c).ended) = true := by simp [hx, hst, hended]
  unfold preemptCore
  simp only [htask]
  rw [if_pos hpending]
  simp only [hxfers, List.foldl_nil, updCore, htask]

section
variable {c : Nat} {p : Pre} {f : FmtA} {s : State}

theorem jmp_runs (h : CoreReady s c (wordA 0x02#8 p f)) (hp : predOk (coreOf s c) (wordA 0x02#8 p f) = true)
    (hf : SignalFits p (begun1 (wordA 0x02#8 p f) (coreOf s c))) :
    CoreOnly c (giveSignal p (jumpTo ((coreOf s c).pc + 16#64 * f.imm) (begun1 (wordA 0x02#8 p f) (coreOf s c)))) s
      (sqRun c (wordA 0x02#8 p f) (effJump c true f) s) :=
  sqRun_jump (P := fun _ => True) ignoresIssue_id (fun _ _ _ => rfl) h hp hf rfl (by simp) (coreOnly_began ..)

theorem jnz_runs (h : CoreReady s c (wordA 0x03#8 p f)) (hp : predOk (coreOf s c) (wordA 0x03#8 p f) = true)
    (hf : SignalFits p (begun1 (wordA 0x03#8 p f) (coreOf s c))) :
    CoreOnly c (giveSignal p (if sget (begun1 (wordA 0x03#8 p f) (coreOf s c)) f.sa = 0#64 then begun1 (wordA 0x03#8 p f) (coreOf s c)
        else jumpTo ((coreOf s c).pc + 16#64 * f.imm) (begun1 (wordA 0x03#8 p f) (coreOf s c)))) s
      (sqRun c (wordA 0x03#8 p f) (fun pc s => effJump c (sget (coreOf s c) f.sa != 0#64) f pc s) s) := by
  have hrun := sqRun_jump (eff := fun pc s => effJump c (sget (coreOf s c) f.sa != 0#64) f pc s) (P := fun k => sget k f.sa ≠ 0#64)
    ignoresIssue_id (fun _ _ _ => rfl) h hp hf rfl (by simp) (coreOnly_began ..)
  rwa [ite_not] at hrun

theorem jz_runs (h : CoreReady s c (wordA 0x04#8 p f)) (hp : predOk (coreOf s c) (wordA 0x04#8 p f) = true)
    (hf : SignalFits p (begun1 (wordA 0x04#8 p f) (coreOf s c))) :
    CoreOnly c (giveSignal p (if sget (begun1 (wordA 0x04#8 p f) (coreOf s c)) f.sa = 0#64 then
        jumpTo ((coreOf s c).pc + 16#64 * f.imm) (begun1 (wordA 0x04#8 p f) (coreOf s c)) else begun1 (wordA 0x04#8 p f) (coreOf s c))) s
      (sqRun c (wordA 0x04#8 p f) (fun pc s => effJump c (sget (coreOf s c) f.sa == 0#64) f pc s) s) :=
  sqRun_jump (P := fun k => sget k f.sa = 0#64) ignoresIssue_id (fun _ _ _ => rfl) h hp hf rfl (by simp) (coreOnly_began ..)

/-- LOOP counts S[SA] down, and jumps while it is not zero. -/
theorem loop_runs (h : CoreReady s c (wordA 0x05#8 p f)) (hp : predOk (coreOf s c) (wordA 0x05#8 p f) = true)
    (hf : SignalFits p (begun1 (wordA 0x05#8 p f) (coreOf s c))) :
    let k := begun1 (wordA 0x05#8 p f) (coreOf s c)
    let v := sget k f.sa - 1#64
    CoreOnly c (giveSignal p (if v = 0#64 then sset f.sa v k else jumpTo ((coreOf s c).pc + 16#64 * f.imm) (sset f.sa v k))) s
      (sqRun c (wordA 0x05#8 p f) (effLoop c f) s) := by
  intro k v
  have hcount : CoreOnly c (sset f.sa (sget (opening (wordA 0x05#8 p f) (coreOf s c)) f.sa - 1#64) (opening (wordA 0x05#8 p f) (coreOf s c))) s
      (updCore c (sset f.sa (sget (coreOf (began c (wordA 0x05#8 p f) s) c) f.sa - 1#64)) (began c (wordA 0x05#8 p f) s)) :=
    ((coreOnly_began ..).upd _).eq (by rw [coreOf_began])
  have hrun := sqRun_jump (eff := effLoop c f) (G := fun k => sset f.sa (sget k f.sa - 1#64) k) (P := fun k => sget k f.sa - 1#64 ≠ 0#64)
    (ignoresIssue_sset _ fun _ _ _ => rfl) (fun _ _ _ => rfl) h hp (signalFits_sset hf) rfl (by simp) hcount
  rwa [ite_not] at hrun

/-- CALL gives S[SD] the address of the next word and jumps. -/
theorem call_runs (h : CoreReady s c (wordA 0x06#8 p f)) (hp : predOk (coreOf s c) (wordA 0x06#8 p f) = true)
    (hf : SignalFits p (begun1 (wordA 0x06#8 p f) (coreOf s c))) :
    CoreOnly c (giveSignal p (jumpTo ((coreOf s c).pc + 16#64 * f.imm)
        (sset f.sd ((coreOf s c).pc + 16#64) (begun1 (wordA 0x06#8 p f) (coreOf s c))))) s
      (sqRun c (wordA 0x06#8 p f) (fun pc s => effJump c true f pc (updCore c (sset f.sd (BitVec.ofNat 64 pc + 16#64)) s)) s) := by
  have hnext : BitVec.ofNat 64 (coreOf s c).pc.toNat = (coreOf s c).pc := by rw [BitVec.ofNat_toNat, BitVec.setWidth_eq]
  exact sqRun_jump (G := sset f.sd ((coreOf s c).pc + 16#64)) (P := fun _ => True) (ignoresIssue_sset _ fun _ _ _ => rfl)
    (fun _ _ _ => rfl) h hp (signalFits_sset hf) (by rw [hnext]) (by simp) ((coreOnly_began ..).upd _)

/-- RET to an aligned address. -/
theorem ret_runs (h : CoreReady s c (wordA 0x07#8 p f)) (hp : predOk (coreOf s c) (wordA 0x07#8 p f) = true)
    (hf : SignalFits p (begun1 (wordA 0x07#8 p f) (coreOf s c))) (ha : (sget (coreOf s c) f.sa).toNat % 16 = 0) :
    CoreOnly c (giveSignal p (jumpTo (sget (coreOf s c) f.sa) (begun1 (wordA 0x07#8 p f) (coreOf s c)))) s
      (sqRun c (wordA 0x07#8 p f) (effRet c f) s) :=
  sqRun_update (ignoresIssue_jumpTo (sget (coreOf s c) f.sa)) h hp hf (by simp only [effRet, coreOf_began, sget_opening, ha]; rfl)

/-- A YIELD with nothing to take. -/
theorem yield_runs (h : CoreReady s c (wordA 0x08#8 p f)) (hp : predOk (coreOf s c) (wordA 0x08#8 p f) = true)
    (hf : SignalFits p (begun1 (wordA 0x08#8 p f) (coreOf s c)))
    (hn : ∀ g t rank, (coreOf s c).task = some (g, t, rank) → (taskOf s g t).map (·.st) ≠ some tsPreempting) :
    CoreOnly c (giveSignal p (begun1 (wordA 0x08#8 p f) (coreOf s c))) s
      (sqRun c (wordA 0x08#8 p f) (fun _ s => .done (preemptCore c s)) s) := by
  have hnone : preemptCore c (began c (wordA 0x08#8 p f) s) = began c (wordA 0x08#8 p f) s :=
    preemptCore_none fun g t rank htask => hn g t rank (by simpa using htask)
  exact sqRun_completes ignoresIssue_id h hp hf (congrArg ERes.done hnone) (coreOnly_began ..)

/-- A YIELD that takes a pending pre-emption, on a core with no transfer of its own. -/
theorem yield_stops {g t rank : Nat} {x : Task} (h : CoreReady s c (wordA 0x08#8 p f)) (hp : predOk (coreOf s c) (wordA 0x08#8 p f) = true)
    (hf : SignalFits p (begun1 (wordA 0x08#8 p f) (coreOf s c))) (hxfers : (coreOf s c).xfers = [])
    (htask : (coreOf s c).task = some (g, t, rank)) (hx : taskOf s g t = some x) (hst : x.st = tsPreempting) :
    CoreOnly c (giveSignal p { begun1 (wordA 0x08#8 p f) (coreOf s c) with stop := true }) s
      (sqRun c (wordA 0x08#8 p f) (fun _ s => .done (preemptCore c s)) s) := by
  obtain ⟨-, hended, -⟩ := canIssue_running h.issues
  have hstops : preemptCore c (began c (wordA 0x08#8 p f) s) =
      updCore c (fun k => { k with stop := true, sem := none }) (began c (wordA 0x08#8 p f) s) :=
    preemptCore_stops (by simpa using htask) hx hst (by simpa using hended) (by simpa using hxfers)
  have hsem : none = (begun1 (wordA 0x08#8 p f) (coreOf s c)).sem := by rw [begun1_sem, h.sem]
  refine (sqRun_update (F := fun k => { k with stop := true, sem := none }) (fun _ _ _ => rfl) h hp hf
    (congrArg ERes.done hstops)).eq ?_
  rw [hsem]
  rfl

theorem sxt_runs (h : CoreReady s c (wordA 0x09#8 p f)) (hp : predOk (coreOf s c) (wordA 0x09#8 p f) = true)
    (hf : SignalFits p (begun1 (wordA 0x09#8 p f) (coreOf s c))) :
    let k := begun1 (wordA 0x09#8 p f) (coreOf s c)
    CoreOnly c (giveSignal p { k with extent := min k.extent (alignUp (sget k f.sa).toNat 65536) }) s
      (sqRun c (wordA 0x09#8 p f) (effSxt c f) s) :=
  sqRun_update (F := fun k => { k with extent := min k.extent (alignUp (sget k f.sa).toNat 65536) }) (fun _ _ _ => rfl) h hp hf rfl

end

/-- Settles O4: each control instruction is one update of its core, YIELD's the pre-emption it takes or none. -/
theorem scalarControl : Obligations.ScalarControl := by
  unfold Obligations.ScalarControl
  refine ⟨?control, ?preempted⟩
  case control =>
    intro c p f s target x hx w k h hp hf hret hyield
    simp only [List.mem_cons, List.not_mem_nil, or_false] at hx
    rcases hx with rfl | rfl | rfl | rfl | rfl | rfl | rfl | rfl | rfl
    · exact ⟨_, rfl, sqRun_completes ignoresIssue_id h hp hf rfl (coreOnly_began ..)⟩
    · exact ⟨_, rfl, jmp_runs h hp hf⟩
    · exact ⟨_, rfl, jnz_runs h hp hf⟩
    · exact ⟨_, rfl, jz_runs h hp hf⟩
    · exact ⟨_, rfl, loop_runs h hp hf⟩
    · exact ⟨_, rfl, call_runs h hp hf⟩
    · have hrun := ret_runs h hp hf ((congrArg (·.toNat % 16) (sget_begun1 ..)).symm.trans (hret rfl))
      exact ⟨_, rfl, hrun.eq (by rw [← sget_begun1 w]; rfl)⟩
    · exact ⟨_, rfl, yield_runs h hp hf (hyield rfl)⟩
    · exact ⟨_, rfl, sxt_runs h hp hf⟩
  case preempted =>
    intro c g t rank p f s x w k h hp hf hxfers htask hx hst
    exact ⟨_, rfl, yield_stops h hp hf hxfers htask hx hst⟩

/-! ## A false predicate -/

/-- Settles O5: whatever its operation, a word whose predicate is false leaves its wait and its signal (R73). -/
theorem falsePredicateSkips : Obligations.FalsePredicateSkips := by
  unfold Obligations.FalsePredicateSkips
  intro c p f s x hx w k h hp hf
  have hexec : ∃ eff, exec x.1 s = .next (sqRun c w eff s) := by
    simp only [List.mem_cons, List.not_mem_nil, or_false] at hx
    rcases hx with rfl | rfl | rfl | rfl | rfl | rfl | rfl | rfl | rfl | rfl | rfl | rfl | rfl | rfl | rfl | rfl | rfl | rfl | rfl | rfl |
      rfl | rfl | rfl | rfl | rfl | rfl | rfl | rfl | rfl | rfl | rfl | rfl | rfl | rfl | rfl | rfl | rfl | rfl | rfl
    all_goals exact ⟨_, rfl⟩
  obtain ⟨eff, hexec⟩ := hexec
  exact ⟨_, hexec, sqRun_skipped h hp hf rfl⟩

end Sys2Proof.Machine
end

section
/-! The ends of a core's share and of a task (R120, R123, R130): END, TRAP, the traps of sheaf accesses and event overflow. -/

namespace Sys2Proof.Machine

/-! ## Tasks of resident graphs -/

theorem graphOf_updTask {h t : Nat} {f : Task → Task} {s : State} {g : Graph} (hg : graphOf s h = some g) :
    graphOf (updTask h t f s) h = some { g with tasks := modAt g.tasks t f } := by
  simp only [updTask, hg]
  exact Mp.find_ins_same ..

theorem getElem?_modAt {α : Type} (l : List α) (i : Nat) (f : α → α) : (modAt l i f)[i]? = l[i]?.map f := by
  unfold modAt
  cases hi : l[i]? with
  | none => exact hi
  | some v =>
    have hlt : i < l.length := (List.getElem?_eq_some_iff.1 hi).1
    simp [hlt]

@[simp] theorem taskOf_updTask (h t : Nat) (f : Task → Task) (s : State) : taskOf (updTask h t f s) h t = (taskOf s h t).map f := by
  cases hg : graphOf s h with
  | none =>
    have hsame : updTask h t f s = s := by simp only [updTask, hg]
    simp only [hsame, taskOf, hg, Option.bind_none, Option.map_none]
  | some g => simp only [taskOf, graphOf_updTask hg, hg, Option.bind_some, getElem?_modAt]

/-- An update of a task changes the graphs alone. -/
theorem updTask_eq (h t : Nat) (f : Task → Task) (s : State) :
    updTask h t f s = { s with graphs := (updTask h t f s).graphs } := by
  unfold updTask
  split <;> rfl

@[simp] theorem coreOf_updTask (h t : Nat) (f : Task → Task) (s : State) (d : Nat) : coreOf (updTask h t f s) d = coreOf s d := by
  rw [updTask_eq]; rfl

/-! ## Cores stopped as a task ends abnormally (R123) -/

/-- A core stopped as in an abort. -/
structure Stopped (k : Core) : Prop where
  ended : k.ended = true
  stop : k.stop = true
  queues : k.queues = []
  xfers : k.xfers = []

/-- The cores of a list stop, and nothing else changes but the tags of their requests; no event count changes. -/
structure StopsCores (l : List Nat) (s t : State) : Prop where
  stopped : ∀ d ∈ l, Stopped (coreOf t d)
  others : ∀ d, d ∉ l → coreOf t d = coreOf s d
  events : ∀ d, (coreOf t d).ev = (coreOf s d).ev
  frame : t = { s with cores := t.cores, tags := t.tags }

/-- The completion records of cancelled transfers go to the sheaf memory. -/
theorem endXferRecs_ev (l : List Xfer) (status t : Nat) (k : Core) :
    (l.foldl (fun k x => if x.st < 5 then endXferRec 7 status t x k else k) k).ev = k.ev := by
  induction l generalizing k with
  | nil => rfl
  | cons x l ih =>
    rw [List.foldl_cons, ih]
    split <;> rfl

theorem cancelTags_frame (c : Nat) (l : List Nat) (s : State) :
    l.foldl (fun s i => cancelTags (.core c i) s) s = { s with tags := (l.foldl (fun s i => cancelTags (.core c i) s) s).tags } := by
  induction l generalizing s with
  | nil => rfl
  | cons i l ih => rw [List.foldl_cons, ih (cancelTags (.core c i) s)]; rfl

theorem stopCore_stops (c status : Nat) (s : State) : StopsCores [c] s (stopCore c status s) := by
  unfold stopCore
  dsimp only
  rw [cancelTags_frame]
  refine ⟨fun d hd => ?stopped, fun d hd => ?others, fun d => ?events, rfl⟩
  case stopped =>
    rw [List.mem_singleton.1 hd, coreOf_setCore]
    exact ⟨rfl, rfl, rfl, rfl⟩
  case others => exact coreOf_setCore_ne _ _ _ _ (by simpa using hd)
  case events =>
    by_cases hd : d = c
    · subst hd
      rw [coreOf_setCore]
      exact endXferRecs_ev ..
    · rw [coreOf_setCore_ne _ _ _ _ hd]; rfl

/-- Stopping the cores of a list one after another. -/
theorem stopCores_stops (l : List Nat) (s : State) : StopsCores l s (l.foldl (fun s c => stopCore c stAborted s) s) := by
  induction l generalizing s with
  | nil => exact ⟨fun _ hd => absurd hd List.not_mem_nil, fun _ _ => rfl, fun _ => rfl, rfl⟩
  | cons c l ih =>
    rw [List.foldl_cons]
    have hfirst := stopCore_stops c stAborted s
    have hrest := ih (stopCore c stAborted s)
    refine ⟨fun d hd => ?_, fun d hd => ?_, fun d => (hrest.events d).trans (hfirst.events d), ?_⟩
    · by_cases hl : d ∈ l
      · exact hrest.stopped d hl
      · rw [hrest.others d hl]
        exact hfirst.stopped d (List.mem_singleton.2 ((List.mem_cons.1 hd).resolve_right hl))
    · rw [List.mem_cons, not_or] at hd
      exact (hrest.others d hd.2).trans (hfirst.others d (by simpa using hd.1))
    · rw [hrest.frame, hfirst.frame]

/-! ## The abnormal end of a task (R120, R130) -/

/-- A task that had not ended has ended abnormally: its status and detail stand, its cores stop, and nothing else changes. -/
structure TaskFailed (h t : Nat) (x : Task) (status detail : Nat) (s u : State) : Prop where
  task : taskOf u h t = some { x with endStatus := some (status, detail) }
  stopped : ∀ d ∈ x.held, Stopped (coreOf u d)
  others : ∀ d, d ∉ x.held → coreOf u d = coreOf s d
  events : ∀ d, (coreOf u d).ev = (coreOf s d).ev
  frame : u = { s with cores := u.cores, graphs := u.graphs, tags := u.tags }

theorem failTask_fails {h t : Nat} {x : Task} {s : State} (status detail : Nat) (hx : taskOf s h t = some x) (hst : x.st ≠ tsFinal)
    (he : x.endStatus = none) : TaskFailed h t x status detail s (failTask h t status detail s) := by
  have hopen : ¬ (x.st = tsFinal ∨ x.endStatus.isSome = true) := by simp [hst, he]
  have hstops := stopCores_stops x.held (updTask h t (fun k => { k with endStatus := some (status, detail) }) s)
  simp only [failTask, hx, if_neg hopen]
  refine ⟨?_, hstops.stopped, fun d hd => ?_, fun d => ?_, ?_⟩
  · rw [hstops.frame]
    exact (taskOf_updTask ..).trans (by rw [hx]; rfl)
  · rw [hstops.others d hd, coreOf_updTask]
  · rw [hstops.events d, coreOf_updTask]
  · rw [hstops.frame, updTask_eq]

theorem coreFail_eq {c h t rank : Nat} {s : State} (status pc : Nat) (htask : (coreOf s c).task = some (h, t, rank)) :
    coreFail c status pc s = failTask h t status (rankPc rank pc) s := by
  simp only [coreFail, htask]

/-- A word whose operation fails ends the task, in the state in which the operation began. -/
theorem sqRun_fails {c h t rank status : Nat} {w : CWord} {s : State} {x : Task} {eff : Nat → State → ERes} (hr : CoreReady s c w)
    (hp : predOk (coreOf s c) w = true) (htask : (coreOf s c).task = some (h, t, rank)) (hx : taskOf s h t = some x)
    (hst : x.st ≠ tsFinal) (hend : x.endStatus = none)
    (he : eff (coreOf s c).pc.toNat (began c w s) = .fail status (began c w s) ∨
      eff (coreOf s c).pc.toNat (began c w s) = .ended (coreFail c status (coreOf s c).pc.toNat (began c w s))) :
    TaskFailed h t x status (rankPc rank (coreOf s c).pc.toNat) (began c w s) (sqRun c w eff s) := by
  have hfail : coreFail c status (coreOf s c).pc.toNat (began c w s) =
      failTask h t status (rankPc rank (coreOf s c).pc.toNat) (began c w s) := coreFail_eq _ _ (by simpa using htask)
  have hrun : sqRun c w eff s = coreFail c status (coreOf s c).pc.toNat (began c w s) := by
    rw [sqRun_outcome eff hr hp]
    rcases he with he | he <;> rw [he, sqOutcome]
  rw [hrun, hfail]
  exact failTask_fails _ _ hx hst hend

/-! ## END and TRAP -/

/-- What a task counts as a core gives its share up (R120): its rank and flags, and status OK as the last one. -/
def countEnd (rank : Nat) (k : Core) (x : Task) : Task :=
  { x with
    endedRanks := x.endedRanks ++ [rank], flags := x.flags ||| coreFlags k
    endStatus := if x.endedRanks.length + 1 = x.nCores ∧ x.endStatus = none then some (0, 0) else x.endStatus }

theorem preemptDone_none {h t : Nat} {s : State} {x : Task} (hx : taskOf s h t = some x) (hst : x.st ≠ tsPreempting) :
    preemptDone h t s = s := by
  simp only [preemptDone, hx]
  rw [if_pos (.inl hst)]

/-- A core gives up its share of a task that is not being pre-empted. -/
theorem endShare_counts {c h t rank : Nat} {s : State} {x : Task} (htask : (coreOf s c).task = some (h, t, rank))
    (hx : taskOf s h t = some x) (hst : x.st ≠ tsPreempting) :
    endShare c s = updTask h t (countEnd rank (coreOf s c)) (updCore c (fun k => { k with ended := true }) s) := by
  have hcount : (fun x : Task =>
      let x := { x with endedRanks := x.endedRanks ++ [rank], flags := x.flags ||| coreFlags (coreOf s c) }
      if x.endedRanks.length = x.nCores ∧ x.endStatus.isNone then { x with endStatus := some (0, 0) } else x) =
      countEnd rank (coreOf s c) := by
    funext x
    have hn : ({ x with endedRanks := x.endedRanks ++ [rank], flags := x.flags ||| coreFlags (coreOf s c) } : Task).nCores = x.nCores := rfl
    simp only [countEnd, List.length_append, List.length_cons, List.length_nil, Option.isNone_iff_eq_none, hn]
    split <;> rfl
  simp only [endShare, htask]
  rw [hcount]
  have hkept (k : Core) : taskOf (setCore c k s) h t = some x := hx
  refine (preemptDone_none (x := countEnd rank (coreOf s c) x) ((taskOf_updTask ..).trans (congrArg _ (hkept _))) hst).trans ?_
  simp only [updCore, htask]

/-- A task updated beside the change of one core. -/
theorem CoreOnly.updTask {c : Nat} {k : Core} {s u : State} (hu : CoreOnly c k s u) (h t : Nat) (f : Task → Task) :
    CoreOnly c k (updTask h t f s) (updTask h t f u) := by
  obtain ⟨hc, hd, hrest⟩ := hu
  refine ⟨by rw [coreOf_updTask, hc], fun d hne => by rw [coreOf_updTask, coreOf_updTask, hd d hne], ?_⟩
  rw [hrest]
  unfold Machine.updTask
  have hg : graphOf { s with cores := u.cores } h = graphOf s h := rfl
  rw [hg]
  cases graphOf s h <;> rfl

theorem allDone_idle {k : Core} (hq : k.queues.flatMap (·.2) = []) (hx : k.xfers = []) : allDone k = true := by
  simp [allDone, allEnts_nil hq, hx]

theorem giveSignal_ended (p : Pre) (k : Core) : (giveSignal p k).ended = k.ended := by
  unfold giveSignal
  split <;> rfl

/-- END, on a core with nothing outstanding: the task counts its rank, and beyond the task only the core changes. -/
theorem endTask_runs {c h t rank : Nat} {p : Pre} {f : FmtA} {s : State} {x : Task} (hr : CoreReady s c (wordA 0x01#8 p f))
    (hp : predOk (coreOf s c) (wordA 0x01#8 p f) = true) (htask : (coreOf s c).task = some (h, t, rank)) (hx : taskOf s h t = some x)
    (hxfers : (coreOf s c).xfers = []) (hst : x.st ≠ tsPreempting) (hf : SignalFits p (begun1 (wordA 0x01#8 p f) (coreOf s c))) :
    let k := begun1 (wordA 0x01#8 p f) (coreOf s c)
    CoreOnly c (giveSignal p { k with ended := true }) (updTask h t (countEnd rank k) s)
      (sqRun c (wordA 0x01#8 p f) (fun _ s => if allDone (coreOf s c) then .done (endShare c s) else .held s) s) := by
  intro k
  have hdone : allDone (coreOf (began c (wordA 0x01#8 p f) s) c) = true := by
    rw [coreOf_began]
    exact allDone_idle (by simpa using hr.idle) (by simpa using hxfers)
  have hshare := endShare_counts (c := c) (s := began c (wordA 0x01#8 p f) s) (rank := rank) (by simpa using htask) hx hst
  have hcore := ((coreOnly_began c (wordA 0x01#8 p f) s).upd (fun k => { k with ended := true })).updTask h t (countEnd rank k)
  refine sqRun_completes (F := fun k => { k with ended := true }) (fun _ _ _ => rfl) hr hp hf ?_ hcore
  rw [if_pos hdone, hshare, coreOf_began]
  rfl

/-- TRAP ends the task with its own status. -/
theorem trap_fails {c h t rank : Nat} {p : Pre} {f : FmtA} {s : State} {x : Task} (hr : CoreReady s c (wordA 0x0A#8 p f))
    (hp : predOk (coreOf s c) (wordA 0x0A#8 p f) = true) (htask : (coreOf s c).task = some (h, t, rank)) (hx : taskOf s h t = some x)
    (hst : x.st ≠ tsFinal) (hend : x.endStatus = none) :
    TaskFailed h t x stUserTrap (rankPc (f.imm.toNat % 65536) (coreOf s c).pc.toNat) (began c (wordA 0x0A#8 p f) s)
      (sqRun c (wordA 0x0A#8 p f) (effTrap c f) s) := by
  have hdetail : rankPc (f.imm.toNat % 65536) (coreOf s c).pc.toNat = rankPc f.imm.toNat (coreOf s c).pc.toNat := by
    simp only [rankPc]
    omega
  have htask' : (coreOf (began c (wordA 0x0A#8 p f) s) c).task = some (h, t, rank) := by simpa using htask
  rw [sqRun_outcome _ hr hp, effTrap, htask', hdetail]
  exact failTask_fails _ _ hx hst hend

/-- Settles O6: END is counted by the task beside its core's change; TRAP fails the task from the state in which it began. -/
theorem endAndTrap : Obligations.EndAndTrap := by
  unfold Obligations.EndAndTrap
  intro c p f s h t rank g x htask hg hx
  have hx : taskOf s h t = some x := by rw [taskOf, hg, Option.bind_some, hx]
  refine ⟨?endTask, ?trap⟩
  case endTask =>
    intro w hr hp hxfers hst hf
    obtain ⟨hcore, hothers, hrest⟩ := endTask_runs hr hp htask hx hxfers hst hf
    refine ⟨_, rfl, ?_, fun d hd => ?_, ?_, ?_⟩
    · rw [hcore, giveSignal_ended]
    · rw [hothers d hd, coreOf_updTask]
    · rw [hrest]
      exact (taskOf_updTask ..).trans (by rw [hx]; rfl)
    · rw [hrest, updTask_eq]
  case trap =>
    intro w hr hp hst hend
    obtain ⟨htaskOf, hstopped, hothers, -, hframe⟩ := trap_fails hr hp htask hx hst hend
    obtain ⟨-, hbegan, hrest⟩ := coreOnly_began c w s
    refine ⟨_, _, rfl, htaskOf, rfl, fun d hd => ?_, fun d hd hne => ?_, ?_⟩
    · obtain ⟨he, hs, hq, hxf⟩ := hstopped d hd
      exact ⟨he, hs, hq, hxf⟩
    · rw [hothers d hd, hbegan d hne]
    · rw [hframe, hrest]

/-! ## Traps of sheaf accesses (R87, R91; log entry 904) and event overflow (R88) -/

theorem scalarAddr_began (c : Nat) (w : CWord) (f : FmtA) (s : State) :
    scalarAddr (coreOf (began c w s) c) f = (sget (coreOf s c) f.sa + f.imm).toNat := by
  rw [scalarAddr, coreOf_began, sget_opening]

theorem sheafLoad_fails {c off len align status : Nat} {s : State} (go : List Byte → State → ERes)
    (h : sheafCheck (coreOf s c) off len align = some status) : sheafLoad c off len align s go = .fail status s := by
  simp only [sheafLoad, h]

theorem sheafStore_fails {c off align status : Nat} {bs : List Byte} {s : State}
    (h : sheafCheck (coreOf s c) off bs.length align = some status) : sheafStore c off align bs s = .fail status s := by
  simp only [sheafStore, h]

/-- SLD and SST of eight bytes that the check of their address turns away. -/
theorem sheafAccess_fails {c status : Nat} {w : CWord} {f : FmtA} {s : State}
    (h : sheafCheck (coreOf s c) (sget (coreOf s c) f.sa + f.imm).toNat 8 8 = some status) :
    effSld c f (coreOf s c).pc.toNat (began c w s) = .fail status (began c w s) ∧
      effSst c f (coreOf s c).pc.toNat (began c w s) = .fail status (began c w s) := by
  have hcheck : sheafCheck (coreOf (began c w s) c) (scalarAddr (coreOf (began c w s) c) f) 8 8 = some status := by
    rw [scalarAddr_began, ← h]
    simp only [sheafCheck, coreOf_began, opening_extent]
  exact ⟨sheafLoad_fails _ hcheck, sheafStore_fails (by simpa [leBytes] using hcheck)⟩

theorem sheafCheck_misaligned {k : Core} {off len align : Nat} (h : off % align ≠ 0) : sheafCheck k off len align = some stMisaligned :=
  if_pos h

theorem sheafCheck_beyond {k : Core} {off len align : Nat} (ha : off % align = 0) (h : k.extent < off + len) :
    sheafCheck k off len align = some stSheafBound := by
  rw [sheafCheck, if_neg (not_not.2 ha), if_pos h]

/-- An EVSIG past 65,535 ends the task instead of counting. -/
theorem effEvsig_overflows {c pc : Nat} {f : FmtA} {s : State} (h : 65535 < evGet (coreOf s c) f.ev.toNat + f.imm.toNat % 65536) :
    effEvsig c f pc s = .ended (coreFail c stEventOverflow pc s) := if_pos h

/-- Settles O8: a sheaf access fails by the check of its address, alignment first (log entry 904), and EVSIG by its sum. -/
theorem sheafTrapsAndEventOverflow : Obligations.SheafTrapsAndEventOverflow := by
  unfold Obligations.SheafTrapsAndEventOverflow
  refine ⟨?sheaf, ?overflow⟩
  case sheaf =>
    intro c h t rank p f s x htask hx hst hend a y hy hr hp
    have hfails (status : Nat) (hcheck : sheafCheck (coreOf s c) a 8 8 = some status) : ∃ u z, exec y.1 s = .next u ∧
        taskOf u h t = some z ∧ z.endStatus = some (status, rankPc rank (coreOf s c).pc.toNat) := by
      obtain ⟨hload, hstore⟩ := sheafAccess_fails (w := wordA y.2 p f) hcheck
      simp only [List.mem_cons, List.not_mem_nil, or_false] at hy
      rcases hy with rfl | rfl
      · exact ⟨_, _, rfl, (sqRun_fails hr hp htask hx hst hend (.inl hload)).task, rfl⟩
      · exact ⟨_, _, rfl, (sqRun_fails hr hp htask hx hst hend (.inl hstore)).task, rfl⟩
    exact ⟨fun ha => hfails _ (sheafCheck_misaligned ha), fun ha hb => hfails _ (sheafCheck_beyond ha hb)⟩
  case overflow =>
    intro c h t rank p f s x htask hx hst hend w hr hp hover
    have hfailed := sqRun_fails (eff := effEvsig c f) hr hp htask hx hst hend (.inr (effEvsig_overflows (by rw [coreOf_began]; exact hover)))
    refine ⟨_, _, rfl, hfailed.task, rfl, ?_⟩
    rw [hfailed.events, coreOf_began]
    rfl

end Sys2Proof.Machine
end

section
/-! Scalar accesses to the sheaf memory and to global memory, and cache control (R77, R87, R90, R91, R94, R160, R161). -/

namespace Sys2Proof.Machine

/-! ## Clean writes of the sheaf memory (R91, R92, R94) -/

/-- A write where no word is in error takes effect, whichever of its end words it must read first. -/
theorem sheafWrite_clean {c : Nat} {s : State} (off : Nat) {bs : List Byte} (hi : s.inj = []) (he : (coreOf s c).sheafErr = [])
    (hb : bs ≠ []) : sheafWrite c off bs s = (true, updCore c (sheafPut off bs) s) := by
  have hends (b : Prop) [Decidable b] (o : Nat) : (if b then (true, s) else sheafScan c o 1 s) = (true, s) := by
    rw [sheafScan_clean o 1 hi he, ite_self]
  have hne : bs.isEmpty = false := List.isEmpty_eq_false_iff.2 hb
  simp only [sheafWrite, hne, hends, Bool.false_eq_true, if_false, Bool.and_self, if_true]

/-- A store, aligned and in bounds, where no word is in error. -/
theorem sheafStore_clean {c off align : Nat} {bs : List Byte} {s : State} (hi : s.inj = []) (he : (coreOf s c).sheafErr = [])
    (hb : bs ≠ []) (ha : off % align = 0) (hin : off + bs.length ≤ (coreOf s c).extent) :
    sheafStore c off align bs s = .done (updCore c (sheafPut off bs) s) := by
  simp only [sheafStore, sheafCheck_none ha hin, sheafWrite_clean off hi he hb]

/-- Where no word is in error a write leaves the error marks alone. -/
theorem sheafPut_clean {k : Core} (off : Nat) (bs : List Byte) (h : k.sheafErr = []) :
    sheafPut off bs k = { k with sheaf := Mp.blit 0#8 k.sheaf off bs } := by
  rw [sheafPut, h, List.filter_nil, ← h]

theorem signalFits_of_ev {p : Pre} {k k' : Core} (h : SignalFits p k) (he : k'.ev = k.ev) : SignalFits p k' := by
  simpa only [SignalFits, evGet, he] using h

section
variable {c : Nat} {p : Pre} {f : FmtA} {s : State} (hi : s.inj = []) (he : (coreOf s c).sheafErr = [])
  (ha : (sget (coreOf s c) f.sa + f.imm).toNat % 8 = 0) (hin : (sget (coreOf s c) f.sa + f.imm).toNat + 8 ≤ (coreOf s c).extent)
include hi he ha hin

theorem sld_runs (h : CoreReady s c (wordA 0x20#8 p f)) (hp : predOk (coreOf s c) (wordA 0x20#8 p f) = true)
    (hf : SignalFits p (begun1 (wordA 0x20#8 p f) (coreOf s c))) :
    let k := begun1 (wordA 0x20#8 p f) (coreOf s c)
    CoreOnly c (giveSignal p (sset f.sd (BitVec.ofNat 64 (leNat (Mp.slice 0#8 k.sheaf (sget (coreOf s c) f.sa + f.imm).toNat 8))) k)) s
      (sqRun c (wordA 0x20#8 p f) (effSld c f) s) := by
  intro k
  have hload := sheafLoad_clean (c := c) (s := began c (wordA 0x20#8 p f) s)
    (fun bs s => .done (updCore c (sset f.sd (BitVec.ofNat 64 (leNat bs))) s)) hi (by simpa using he) ha (by simpa using hin)
  refine sqRun_sset (fun k => BitVec.ofNat 64 (leNat (Mp.slice 0#8 k.sheaf (sget (coreOf s c) f.sa + f.imm).toNat 8))) h hp hf
    (fun _ _ _ => rfl) ?_
  rw [effSld, scalarAddr_began, hload]
  simp only [updCore]

theorem sst_runs (h : CoreReady s c (wordA 0x21#8 p f)) (hp : predOk (coreOf s c) (wordA 0x21#8 p f) = true)
    (hf : SignalFits p (begun1 (wordA 0x21#8 p f) (coreOf s c))) :
    let k := begun1 (wordA 0x21#8 p f) (coreOf s c)
    CoreOnly c (giveSignal p { k with
        sheaf := Mp.blit 0#8 k.sheaf (sget (coreOf s c) f.sa + f.imm).toNat (leBytes 8 (sget k f.sb).toNat) }) s
      (sqRun c (wordA 0x21#8 p f) (effSst c f) s) := by
  intro k
  have hstore := sheafStore_clean (c := c) (align := 8) (s := began c (wordA 0x21#8 p f) s) (bs := leBytes 8 (sget (coreOf s c) f.sb).toNat)
    hi (by simpa using he) (by simp [leBytes]) ha (by rw [leBytes_length]; simpa using hin)
  have hrun := sqRun_update (F := fun k => sheafPut (sget (coreOf s c) f.sa + f.imm).toNat (leBytes 8 (sget (coreOf s c) f.sb).toNat) k)
    (eff := effSst c f) (fun _ _ _ => rfl) h hp (signalFits_of_ev hf rfl) (by
      rw [effSst, scalarAddr_began, ← hstore, coreOf_began, sget_opening])
  rw [sheafPut_clean _ _ (by simpa using he), ← sget_begun1 (wordA 0x21#8 p f) _ f.sb] at hrun
  exact hrun

end

/-- Settles O7: a load reads and a store writes the eight bytes at its address, and no others (R91). -/
theorem scalarSheafMemory : Obligations.ScalarSheafMemory := by
  unfold Obligations.ScalarSheafMemory
  intro c p f s hi he a ha hin
  refine ⟨fun h hp hf => ⟨_, rfl, sld_runs hi he ha hin h hp hf⟩, fun h hp hf => ⟨_, _, rfl, sst_runs hi he ha hin h hp hf, ?_, ?_⟩⟩
  · have hsame := Mp.slice_blit_same 0#8 (begun1 (wordA 0x21#8 p f) (coreOf s c)).sheaf a
      (leBytes 8 (sget (begun1 (wordA 0x21#8 p f) (coreOf s c)) f.sb).toNat)
    rwa [leBytes_length] at hsame
  · intro b hb
    exact Mp.get_blit_out _ _ _ _ _ (by rwa [leBytes_length])

/-! ## Accesses to global memory (R87, R160, R161) -/

theorem coreOf_of_cores {s t : State} (h : t.cores = s.cores) (d : Nat) : coreOf t d = coreOf s d := by rw [coreOf, h, coreOf]

/-- A word whose operation leaves the state `u`, in which the cores stand as it began, and then updates its core. -/
theorem sqRun_access {c : Nat} {w : CWord} {s u : State} {F : Core → Core} {eff : Nat → State → ERes} (hF : IgnoresIssue F)
    (h : CoreReady s c w) (hp : predOk (coreOf s c) w = true) (hf : SignalFits w.pre (F (begun1 w (coreOf s c))))
    (hu : u.cores = (began c w s).cores) (he : eff (coreOf s c).pc.toNat (began c w s) = .done (updCore c F u)) :
    CoreOnly c (giveSignal w.pre (F (begun1 w (coreOf s c)))) u (sqRun c w eff s) := by
  refine sqRun_completes hF h hp hf he ?_
  rw [← coreOf_began, ← coreOf_of_cores hu]
  exact (CoreOnly.refl c u).upd F

/-- A word whose operation leaves the state `u`, in which the cores stand as it began. -/
theorem sqRun_access_only {c : Nat} {w : CWord} {s u : State} {eff : Nat → State → ERes} (h : CoreReady s c w)
    (hp : predOk (coreOf s c) w = true) (hf : SignalFits w.pre (begun1 w (coreOf s c))) (hu : u.cores = (began c w s).cores)
    (he : eff (coreOf s c).pc.toNat (began c w s) = .done u) :
    CoreOnly c (giveSignal w.pre (begun1 w (coreOf s c))) u (sqRun c w eff s) := by
  refine sqRun_completes ignoresIssue_id h hp hf he ?_
  rw [← coreOf_began, ← coreOf_of_cores hu]
  exact CoreOnly.refl c u

/-- RINV drops copies in the caches alone (R161). -/
theorem dropPieces_cores (ridge : Option Nat) (ps : List (Nat × Nat)) (s : State) :
    (ps.foldl (fun s p => if p.2 = 0 then s else dropBorrowed ridge p.1 p.2 s) s).cores = s.cores := by
  induction ps generalizing s with
  | nil => rfl
  | cons p ps ih =>
    rw [List.foldl_cons, ih]
    split <;> rfl

section
variable {c : Nat} {p : Pre} {f : FmtA} {s u u1 : State}

/-- An access that begins at an aligned address and succeeds. -/
theorem effSldg_ok {w : CWord} {bs : List Byte} (pc : Nat) (ha : (sget (coreOf s c) f.sa + f.imm).toNat % 8 = 0)
    (hread : vread (.core c) (coreTaskTenant (began c w s) c) (sget (coreOf s c) f.sa + f.imm).toNat 8 accRead (began c w s) = (.ok bs, u)) :
    effSldg c f pc (began c w s) = .done (updCore c (sset f.sd (BitVec.ofNat 64 (leNat bs))) u) := by
  simp only [effSldg, scalarAddr_began, ha, hread, ne_eq, not_true_eq_false, if_false]

theorem effSstg_ok {w : CWord} {bs : List Byte} (pc : Nat) (ha : (sget (coreOf s c) f.sa + f.imm).toNat % 8 = 0)
    (hwrite : vwrite (.core c) (coreTaskTenant (began c w s) c) (sget (coreOf s c) f.sa + f.imm).toNat
      (leBytes 8 (sget (coreOf s c) f.sb).toNat) accWrite (began c w s) = (.ok bs, u)) :
    effSstg c f pc (began c w s) = .done u := by
  have hb : sget (coreOf (began c w s) c) f.sb = sget (coreOf s c) f.sb := by rw [coreOf_began, sget_opening]
  simp only [effSstg, scalarAddr_began, hb, ha, hwrite, ne_eq, not_true_eq_false, if_false]

theorem effRflush_ok {w : CWord} {ps : List (Nat × Nat)} (pc : Nat)
    (hrange : translateRange (.core c) (coreTaskTenant (began c w s) c) (sget (coreOf s c) f.sa).toNat (sget (coreOf s c) f.sb).toNat
      accFlush (began c w s) = (.inl ps, u1)) (hflush : flushPieces (c / 48) ps u1 = (none, u)) :
    effRflush c f pc (began c w s) = .done u := by
  have hreg (r : BitVec 5) : sget (coreOf (began c w s) c) r = sget (coreOf s c) r := by rw [coreOf_began, sget_opening]
  simp only [effRflush, hreg, hrange, hflush]

theorem effRinv_ok {w : CWord} {ps : List (Nat × Nat)} (pc : Nat)
    (hrange : translateRange (.core c) (coreTaskTenant (began c w s) c) (sget (coreOf s c) f.sa).toNat (sget (coreOf s c) f.sb).toNat
      accFlush (began c w s) = (.inl ps, u)) :
    effRinv c f pc (began c w s) = .done (ps.foldl (fun s p => if p.2 = 0 then s else dropBorrowed (some (c / 48)) p.1 p.2 s) u) := by
  have hreg (r : BitVec 5) : sget (coreOf (began c w s) c) r = sget (coreOf s c) r := by rw [coreOf_began, sget_opening]
  simp only [effRinv, hreg, hrange]

end

theorem fence_runs {c : Nat} {p : Pre} {f : FmtA} {s : State} (h : CoreReady s c (wordA 0x24#8 p f))
    (hp : predOk (coreOf s c) (wordA 0x24#8 p f) = true) (hf : SignalFits p (begun1 (wordA 0x24#8 p f) (coreOf s c)))
    (hx : (coreOf s c).xfers = []) :
    CoreOnly c (giveSignal p (begun1 (wordA 0x24#8 p f) (coreOf s c))) s
      (sqRun c (wordA 0x24#8 p f) (fun _ s => if allDone (coreOf s c) then .done s else .held s) s) := by
  have hdone : allDone (coreOf (began c (wordA 0x24#8 p f) s) c) = true := by
    rw [coreOf_began]
    exact allDone_idle (by simpa using h.idle) (by simpa using hx)
  exact sqRun_completes ignoresIssue_id h hp hf (if_pos hdone) (coreOnly_began ..)

/-- Settles O9: each access leaves the state `u`, and the word then completes on its core. -/
theorem scalarGlobalAccess : Obligations.ScalarGlobalAccess := by
  unfold Obligations.ScalarGlobalAccess
  intro c p f s a r n k v ready
  refine ⟨?sldg, ?sstg, ?fence, ?rflush, ?rinv⟩
  case sldg =>
    rintro bs u ⟨h, hp, hf⟩ ha hread hu
    exact ⟨_, rfl, sqRun_access (F := sset f.sd (BitVec.ofNat 64 (leNat bs))) (ignoresIssue_sset _ fun _ _ _ => rfl) h hp
      (signalFits_sset hf) hu (effSldg_ok _ ha hread)⟩
  case sstg =>
    rintro bs u ⟨h, hp, hf⟩ ha hwrite hu
    exact ⟨_, rfl, sqRun_access_only h hp hf hu (effSstg_ok _ ha hwrite)⟩
  case fence =>
    rintro ⟨h, hp, hf⟩ hx
    exact ⟨_, rfl, fence_runs h hp hf hx⟩
  case rflush =>
    rintro ps u1 u ⟨h, hp, hf⟩ hrange hflush hu
    exact ⟨_, rfl, sqRun_access_only h hp hf hu (effRflush_ok _ hrange hflush)⟩
  case rinv =>
    rintro ps u ⟨h, hp, hf⟩ hrange hu
    exact ⟨_, rfl, sqRun_access_only h hp hf ((dropPieces_cores ..).trans hu) (effRinv_ok _ hrange)⟩

end Sys2Proof.Machine
end

section
/-! Event counters and semaphores (R77, R88, R89). -/

namespace Sys2Proof.Machine

/-! ## Event counters -/

/-- An EVSIG that leaves the counter at 65,535 or less. -/
theorem effEvsig_counts {c pc : Nat} {f : FmtA} {s : State} (h : evGet (coreOf s c) f.ev.toNat + f.imm.toNat % 65536 ≤ 65535) :
    effEvsig c f pc s = .done (updCore c (fun k => evSet f.ev.toNat (evGet k f.ev.toNat + f.imm.toNat % 65536) k) s) :=
  if_neg (Nat.not_lt.2 h)

/-- An EVWAIT of a counter that holds its amount. -/
theorem effEvwait_takes {c pc : Nat} {f : FmtA} {s : State} (h : f.imm.toNat % 65536 ≤ evGet (coreOf s c) f.ev.toNat) :
    effEvwait c f pc s = .done (updCore c (fun k => evSet f.ev.toNat (evGet k f.ev.toNat - f.imm.toNat % 65536) k) s) :=
  if_pos h

/-! ## Semaphores -/

section
variable {c va pa x : Nat} {p : Pre} {f : FmtA} {s u u1 : State} {w : CWord}

theorem sget_of_began (hu : u.cores = (began c w s).cores) (r : BitVec 5) : sget (coreOf u c) r = sget (coreOf s c) r := by
  rw [coreOf_of_cores hu, coreOf_began, sget_opening]

/-- A SEMACQ of a word that holds enough takes its amount. -/
theorem effSemacq_takes (pc : Nat) (ha : (sget (coreOf s c) f.sa).toNat % 8 = 0)
    (hread : semRead c (sget (coreOf s c) f.sa).toNat (began c w s) = (.inl (pa, x), u1)) (hx : (sget (coreOf s c) f.sb).toNat ≤ x)
    (hwrite : semWrite c (sget (coreOf s c) f.sa).toNat pa (x - (sget (coreOf s c) f.sb).toNat) u1 = (none, u)) :
    effSemacq c w f pc (began c w s) = .done (updCore c (fun k => sset f.sd 1#64 { k with sem := none }) u) := by
  have hreg (r : BitVec 5) : sget (coreOf (began c w s) c) r = sget (coreOf s c) r := sget_of_began rfl r
  simp only [effSemacq, hreg, ha, hread, hx, hwrite, ne_eq, not_true_eq_false, if_false, if_true]

/-- A SEMACQ of a word that does not hold enough waits with its limit (log entry 309). -/
theorem effSemacq_waits (pc : Nat) (ha : (sget (coreOf s c) f.sa).toNat % 8 = 0)
    (hread : semRead c (sget (coreOf s c) f.sa).toNat (began c w s) = (.inl (pa, x), u1)) (hx : x < (sget (coreOf s c) f.sb).toNat)
    (hu1 : u1.cores = (began c w s).cores) (hsem : (coreOf s c).sem = none) :
    effSemacq c w f pc (began c w s) = .held (setCore c { opening w (coreOf s c) with
      sem := some (w, if sget (coreOf s c) f.sc = 0#64 then 0 else stampAt u1 (c / 16) + (sget (coreOf s c) f.sc).toNat) } u1) := by
  have hreg (r : BitVec 5) : sget (coreOf (began c w s) c) r = sget (coreOf s c) r := sget_of_began rfl r
  have hcore : coreOf u1 c = opening w (coreOf s c) := (coreOf_of_cores hu1 c).trans (coreOf_began ..)
  simp only [effSemacq, hreg, ha, hread, Nat.not_le.2 hx, ne_eq, not_true_eq_false, if_false, updCore, hcore, opening_sem, hsem, sget_opening]

theorem storesDone_idle {k : Core} (hq : k.queues.flatMap (·.2) = []) (hx : k.xfers = []) : storesDone k = true := by
  simp [storesDone, allEnts_nil hq, hx]

theorem effSemrel_adds (pc : Nat) (hs : storesDone (coreOf (began c w s) c) = true) (ha : (sget (coreOf s c) f.sa).toNat % 8 = 0)
    (hread : semRead c (sget (coreOf s c) f.sa).toNat (began c w s) = (.inl (pa, x), u1))
    (hwrite : semWrite c (sget (coreOf s c) f.sa).toNat pa ((x + (sget (coreOf s c) f.sb).toNat) % 2 ^ 64) u1 = (none, u)) :
    effSemrel c f pc (began c w s) = .done u := by
  have hreg (r : BitVec 5) : sget (coreOf (began c w s) c) r = sget (coreOf s c) r := sget_of_began rfl r
  simp only [effSemrel, hreg, hs, ha, hread, hwrite, ne_eq, not_true_eq_false, if_false, Bool.not_true, Bool.false_eq_true]

end

section
variable {c va pa x : Nat} {p : Pre} {f : FmtA} {s u u1 : State}

theorem semacq_takes (h : CoreReady s c (wordA 0xA3#8 p f)) (hp : predOk (coreOf s c) (wordA 0xA3#8 p f) = true)
    (hf : SignalFits p (begun1 (wordA 0xA3#8 p f) (coreOf s c))) (hu : u.cores = (began c (wordA 0xA3#8 p f) s).cores)
    (he : effSemacq c (wordA 0xA3#8 p f) f (coreOf s c).pc.toNat (began c (wordA 0xA3#8 p f) s) =
      .done (updCore c (fun k => sset f.sd 1#64 { k with sem := none }) u)) :
    CoreOnly c (giveSignal p (sset f.sd 1#64 (begun1 (wordA 0xA3#8 p f) (coreOf s c)))) u
      (sqRun c (wordA 0xA3#8 p f) (effSemacq c (wordA 0xA3#8 p f) f) s) := by
  have hsem : ({ begun1 (wordA 0xA3#8 p f) (coreOf s c) with sem := none } : Core) = begun1 (wordA 0xA3#8 p f) (coreOf s c) := by
    have hn : none = (begun1 (wordA 0xA3#8 p f) (coreOf s c)).sem := by rw [begun1_sem, h.sem]
    rw [hn]
  have hclear : IgnoresIssue (fun k => { k with sem := none }) := fun _ _ _ => rfl
  have hrun := sqRun_access (F := sset f.sd 1#64 ∘ fun k => { k with sem := none })
    ((ignoresIssue_sset _ fun _ _ _ => rfl).comp hclear) h hp (signalFits_sset hf) hu he
  rw [Function.comp_apply, hsem] at hrun
  exact hrun

theorem semacq_waits {limit : Nat} (h : CoreReady s c (wordA 0xA3#8 p f)) (hp : predOk (coreOf s c) (wordA 0xA3#8 p f) = true)
    (he : effSemacq c (wordA 0xA3#8 p f) f (coreOf s c).pc.toNat (began c (wordA 0xA3#8 p f) s) =
      .held (setCore c { opening (wordA 0xA3#8 p f) (coreOf s c) with sem := some (wordA 0xA3#8 p f, limit) } u1)) :
    CoreOnly c { begun1 (wordA 0xA3#8 p f) (coreOf s c) with
        waited := p.wv, pc := (coreOf s c).pc, sem := some (wordA 0xA3#8 p f, limit) } u1
      (sqRun c (wordA 0xA3#8 p f) (effSemacq c (wordA 0xA3#8 p f) f) s) := by
  rw [sqRun_outcome _ h hp, he, sqOutcome]
  exact ((CoreOnly.refl c u1).set _).upd _

end

/-- The limit of a waiting SEMACQ passes (R89): S[SD] is 0, and the core moves on. -/
theorem semacqTimeout_passes {c limit : Nat} {p : Pre} {f : FmtA} {s : State} (hsem : (coreOf s c).sem = some (wordA 0xA3#8 p f, limit))
    (hl : limit ≠ 0) (hpassed : limit ≤ stampAt s (c / 16)) (hissue : canIssue s c = true) (hidle : (coreOf s c).queues.flatMap (·.2) = [])
    (hf : SignalFits p (coreOf s c)) :
    ∃ t, exec (.semacqTimeout c) s = .next t ∧ CoreOnly c (giveSignal p (sset f.sd 0#64
      { coreOf s c with sem := none, waited := false, pc := (coreOf s c).pc + 16#64 })) s t := by
  have hopen : (decide (limit = 0) || decide (stampAt s (c / 16) < limit) || !canIssue s c) = false := by simp [hl, hpassed, hissue]
  have hexec : exec (.semacqTimeout c) s = .next (pump c (signalEv c (coreOf s c).pc.toNat p
      (setCore c (sset f.sd 0#64 { coreOf s c with sem := none, waited := false, pc := (coreOf s c).pc + 16#64 }) s))) := by
    have harm : exec (.semacqTimeout c) s = execSemacqTimeout c s := rfl
    rw [harm, execSemacqTimeout]
    simp only [hsem, hopen, Bool.false_eq_true, if_false, wordA]
  have hset := (CoreOnly.refl c s).set (sset f.sd 0#64 { coreOf s c with sem := none, waited := false, pc := (coreOf s c).pc + 16#64 })
  have hsignal := signalEv_core (pc := (coreOf s c).pc.toNat) hset (signalFits_sset (signalFits_of_ev hf rfl))
  have hqueues : (sset f.sd 0#64 { coreOf s c with sem := none, waited := false, pc := (coreOf s c).pc + 16#64 }).queues =
      (coreOf s c).queues := by
    unfold sset
    split <;> rfl
  refine ⟨_, hexec, ?_⟩
  rw [pump_idle (hsignal.1 ▸ allStarted_nil (by rw [giveSignal_queues, hqueues]; exact hidle))]
  exact hsignal

/-- Settles O10: the counters by their sums; a semaphore by the access that reads its word and the one that writes it; the limit by
what is in hand. -/
theorem eventsAndSemaphores : Obligations.EventsAndSemaphores := by
  unfold Obligations.EventsAndSemaphores
  refine ⟨fun c p f s => ⟨fun h hp hn hf => ?evsig, fun h hp hn hf => ?evwait⟩, fun c p f s => ⟨?semacq, ?semrel, ?timeout⟩⟩
  case evsig =>
    exact ⟨_, rfl, sqRun_update (F := fun k => evSet f.ev.toNat (evGet k f.ev.toNat + f.imm.toNat % 65536) k) (fun _ _ _ => rfl) h hp hf
      (effEvsig_counts (by rw [coreOf_began]; exact hn))⟩
  case evwait =>
    exact ⟨_, rfl, sqRun_update (F := fun k => evSet f.ev.toNat (evGet k f.ev.toNat - f.imm.toNat % 65536) k) (fun _ _ _ => rfl) h hp hf
      (effEvwait_takes (by rw [coreOf_began]; exact hn))⟩
  case semacq =>
    rintro pa x u1 u ⟨h, hp, hf⟩ ha hread hu1
    exact ⟨fun hn hwrite hu => ⟨_, rfl, semacq_takes h hp hf (hu.trans hu1) (effSemacq_takes _ ha hread hn hwrite)⟩, fun hn =>
      ⟨_, rfl, semacq_waits h hp (effSemacq_waits _ ha hread hn hu1 h.sem)⟩⟩
  case semrel =>
    rintro pa x u1 u ⟨h, hp, hf⟩ ha hx hread hwrite hu
    have hstores : storesDone (coreOf (began c (wordA 0xA4#8 p f) s) c) = true := by
      rw [coreOf_began]
      exact storesDone_idle (by simpa using h.idle) (by simpa using hx)
    exact ⟨_, rfl, sqRun_access_only h hp hf hu (effSemrel_adds _ hstores ha hread hwrite)⟩
  case timeout =>
    intro limit hsem hl hpassed hissue hidle hf
    exact semacqTimeout_passes hsem hl hpassed hissue hidle hf

end Sys2Proof.Machine
end

section
/-! The completion of a unit's instruction (R68, R88). -/

namespace Sys2Proof.Machine

/-- Where one instruction is queued in all, nothing is left once its queue is emptied. -/
theorem queues_del_nil {m : Mp (List QEnt)} {n : Nat} {e : QEnt} (h : m.flatMap (·.2) = [e]) (hn : Mp.get [] m n = [e]) :
    (Mp.del m n).flatMap (·.2) = [] := by
  induction m with
  | nil => rfl
  | cons y r ih =>
    obtain ⟨k, q⟩ := y
    rw [List.flatMap_cons] at h
    by_cases hk : k = n
    · -- the queue asked for is the first, so nothing is queued behind it
      subst hk
      have hq : q = [e] := by simpa [Mp.get] using hn
      have hrest : r.flatMap (·.2) = [] := by simpa [hq] using h
      rw [Mp.del, List.filter_cons_of_neg (by simp), List.flatMap_eq_nil_iff]
      exact fun y hy => List.flatMap_eq_nil_iff.1 hrest y (List.mem_of_mem_filter hy)
    · -- it stands behind, so the first queue is empty
      have hr : Mp.get [] r n = [e] := by simpa [Mp.get, hk] using hn
      have hmem : (n, [e]) ∈ r := hr ▸ (Mp.get_mem [] r n).resolve_left (by simp [hr])
      have hein : e ∈ r.flatMap (·.2) := List.mem_flatMap.2 ⟨_, hmem, List.mem_singleton.2 rfl⟩
      have hq : q = [] := by
        rcases List.append_eq_singleton_iff.1 h with ⟨hq, -⟩ | ⟨-, hr0⟩
        · exact hq
        · simp [hr0] at hein
      rw [hq, List.nil_append] at h
      rw [Mp.del, List.filter_cons_of_pos (by simpa using hk), List.flatMap_cons, hq, List.nil_append]
      exact ih h hr

/-- Which instruction of a queue a completion at unit `u` is of (R68): of a tensor engine's queue its array's or, from 12 on, its
row unit's. -/
def completes (u : Nat) (e : QEnt) : Bool :=
  e.started && !e.done && (if u < 8 then !isRow e.w.op.toNat else if 12 ≤ u then isRow e.w.op.toNat else true)

/-- A queue once one of its instructions is done: it and those done behind it leave in order (R68). -/
def withDone (e : QEnt) (q : List QEnt) : List QEnt :=
  (q.map (fun x => if x.place = e.place then { x with done := true } else x)).dropWhile (·.done)

/-- The instruction picked completes. -/
theorem complete_some {c u : Nat} {e : QEnt} {s : State} (hu : u < 20)
    (hfind : (Mp.get [] (coreOf s c).queues (if 12 ≤ u then u - 12 else u)).find? (completes u) = some e) :
    complete c u s = pump c (signalEv c e.pc.toNat e.w.pre
      (setCore c (updQueue (if 12 ≤ u then u - 12 else u) (withDone e) (coreOf s c)) s)) := by
  unfold completes at hfind
  unfold complete withDone
  simp only [if_neg (Nat.not_le.2 hu), hfind]

/-- The only instruction in hand completes: its queue empties and its signal is given. -/
theorem complete_only {c u : Nat} {e : QEnt} {s : State} (hu : u < 20) (hq : (coreOf s c).queues.flatMap (·.2) = [e])
    (hn : Mp.get [] (coreOf s c).queues (if 12 ≤ u then u - 12 else u) = [e]) (hpick : completes u e = true)
    (hf : SignalFits e.w.pre (coreOf s c)) :
    CoreOnly c (giveSignal e.w.pre { coreOf s c with queues := Mp.del (coreOf s c).queues (if 12 ≤ u then u - 12 else u) }) s
      (complete c u s) := by
  have hempty : updQueue (if 12 ≤ u then u - 12 else u) (withDone e) (coreOf s c) =
      { coreOf s c with queues := Mp.del (coreOf s c).queues (if 12 ≤ u then u - 12 else u) } := by
    rw [updQueue, Mp.upd, hn]
    simp [Mp.put, withDone]
  have hfind : (Mp.get [] (coreOf s c).queues (if 12 ≤ u then u - 12 else u)).find? (completes u) = some e := by
    rw [hn, List.find?_cons_of_pos hpick]
  have hsignal := signalEv_core (pc := e.pc.toNat) ((CoreOnly.refl c s).set { coreOf s c with
    queues := Mp.del (coreOf s c).queues (if 12 ≤ u then u - 12 else u) }) (signalFits_of_ev hf rfl)
  rw [complete_some hu hfind, hempty, pump_idle (hsignal.1 ▸ allStarted_nil (by rw [giveSignal_queues]; exact queues_del_nil hq hn))]
  exact hsignal

/-- Settles O22: the instruction in hand is the one its unit completes, and its queue empties. -/
theorem instructionCompletes : Obligations.InstructionCompletes := by
  unfold Obligations.InstructionCompletes
  intro c u e s n hu hq hn hstarted hdone hlow hhigh hf
  have hpick : completes u e = true := by
    by_cases h8 : u < 8
    · simp [completes, hstarted, hdone, h8, hlow h8]
    · by_cases h12 : 12 ≤ u
      · simp [completes, hstarted, hdone, h8, h12, hhigh h12]
      · simp [completes, hstarted, hdone, h8, h12]
  exact ⟨_, _, rfl, complete_only hu hq hn hpick hf, queues_del_nil hq hn⟩

end Sys2Proof.Machine
end

section
/-! What an instruction of an engine or of the tile unit does on a core that is ready for it (R68, R85, R88): it enters its unit's empty
queue, takes its wait and starts there; the rule names the state in which its operation begins. -/

namespace Sys2Proof.Machine

/-- A core whose queues hold something is not the core at rest, so writing it lists it; what is written after replaces it. -/
theorem setCore_setCore {c : Nat} {a b : Core} (ha : a.queues ≠ []) (hb : b.queues ≠ []) (s : State) :
    setCore c b (setCore c a s) = setCore c b s := by
  have hne (k : Core) (hk : k.queues ≠ []) : k ≠ {} := fun h => hk (by rw [h])
  simp only [setCore, Mp.put, if_neg (hne a ha), if_neg (hne b hb), Mp.ins_ins]

theorem put_queue_ne_nil {m : Mp (List QEnt)} {u : Nat} {e : QEnt} : Mp.put [] m u [e] ≠ [] := by
  intro h
  have hget := Mp.get_put_same [] m u [e]
  rw [h] at hget
  exact absurd hget (by simp [Mp.get])

section
variable {c u : Nat} {w : CWord} {k : Core} {s : State}

/-- A queue other than the DMA unit's has room when it is empty (R68). -/
theorem queueFull_unit (h : k.queues.flatMap (·.2) = []) (hu : u < 11) : queueFull k u = false := by
  rw [queueFull, queue_nil h, if_neg (by omega), unitDepth]
  repeat' split
  all_goals rfl

/-- A word a core is ready for enters its unit's empty queue; what may start then starts (R68). -/
theorem unitIssue_entered (h : CoreReady s c w) (hp : predOk (coreOf s c) w = true) (hw : unitOf w = some u) (hu : u < 11) :
    unitIssue c w s = pump c (setCore c (entered u w (coreOf s c)) s) := by
  have hhand : otherInHand (coreOf s c) w = false := by simp [otherInHand, h.sem]
  unfold unitIssue
  simp only [h.issues, hhand, h.legal, hw, blocked_nil h.idle, hp, queueFull_unit h.idle hu, Bool.not_true, Bool.or_self,
    Bool.false_eq_true, if_false]
  simp only [updQueue, Mp.upd, queue_nil h.idle, List.nil_append, entered, ← h.fresh]

/-- The wait of a word that stands alone in its queue. -/
theorem takeWait_entered : setCore c (waiting u w (coreOf s c)) s =
    if w.pre.wv then updCore c (evSet w.pre.we.toNat (evGet (entered u w (coreOf s c)) w.pre.we.toNat - 1))
      (setCore c (entered u w (coreOf s c)) s) else setCore c (entered u w (coreOf s c)) s := by
  unfold waiting takeWait
  split
  · rw [updCore, coreOf_setCore, setCore_setCore put_queue_ne_nil put_queue_ne_nil]
    rfl
  · rfl

/-- The only instruction queued, its event signalled, may start if it is no DMAQ (R68, R85, R88). -/
theorem mayStart_unit (h : k.queues.flatMap (·.2) = []) (hw : w.pre.wv = true → 1 ≤ evGet k w.pre.we.toNat) (hop : w.op ≠ 0xB0#8) :
    mayStart (entered u w k) u [unitEntry w k] (unitEntry w k) = true := by
  have hwait : (!w.pre.wv || decide (1 ≤ evGet (entered u w k) w.pre.we.toNat)) = true := by
    cases hv : w.pre.wv with
    | false => rfl
    | true => exact decide_eq_true (hw hv)
  have hearlier : (allEnts (entered u w k)).any (fun x => decide (x.place < k.place) && setsConflict (entSet x) (entSet (unitEntry w k))) =
      false := List.any_eq_false.2 fun x hx => by
    rw [List.mem_singleton.1 (mem_of_put_idle h (List.mem_filter.1 hx).1)]
    simp
  have hslot : (u != 11 || w.op != 0xB0#8 || !true || decide ((entered u w k).xfers.length < 4)) = true := by simp [hop]
  unfold mayStart
  simp only [unitEntry_w, unitEntry_pred, hslot, Bool.and_true, Bool.and_eq_true]
  exact ⟨⟨⟨by simp, by simp⟩, congrArg not hearlier⟩, hwait⟩

/-- Every instruction of a core has started where the only one queued has. -/
theorem allStarted_issued (h : k.queues.flatMap (·.2) = []) : AllStarted (issued u w k) := by
  intro v e he
  simp only [issued] at he
  by_cases hv : v = u
  · subst hv
    rw [Mp.get_put_same, List.mem_singleton] at he
    rw [he]
  · rw [Mp.get_put_ne _ _ _ _ _ hv, queue_nil h] at he
    exact absurd he List.not_mem_nil

theorem IgnoresQueues.queues {F : Core → Core} (hF : IgnoresQueues F) (k : Core) : (F k).queues = k.queues := by
  have hk : F k = { F k with queues := k.queues } := hF k k.queues
  rw [hk]

/-- Marking the instruction started turns the core it waited in into the core it is issued in. -/
theorem markStarted_waiting {F : Core → Core} (hF : IgnoresQueues F) (hop : w.op ≠ 0xB0#8) :
    markStarted u (unitEntry w k) (F (waiting u w k)) = F (issued u w k) := by
  have hmark : Mp.upd [] (waiting u w k).queues u (List.map (fun x => if x.place = k.place then { x with started := true } else x)) =
      (issued u w k).queues := by
    simp only [waiting, issued, Mp.upd, Mp.get_put_same, List.map_cons, List.map_nil, if_true]
    simp [Mp.put, Mp.ins_ins]
  have hissued : F (issued u w k) = { F (waiting u w k) with queues := (issued u w k).queues } := hF (waiting u w k) _
  simp only [markStarted, updQueue, unitEntry_w, hop, false_and, if_false, hF.queues]
  rw [hissued, ← hmark]
  rfl

/-- An instruction of a unit starts as it is issued: its operation begins with its wait taken, and what it leaves beyond its core is
the state `x` (R68, R85, R88, log entry 307). -/
theorem unitIssue_starts {x t : State} {F : Core → Core} (h : CoreReady s c w) (hp : predOk (coreOf s c) w = true)
    (hw : unitOf w = some u) (hu : u < 11) (hop : w.op ≠ 0xB0#8) (hF : IgnoresQueues F)
    (he : unitEffect c (coreOf s c).pc.toNat (unitEntry w (coreOf s c)) (setCore c (waiting u w (coreOf s c)) s) = .done t)
    (ht : CoreOnly c (F (waiting u w (coreOf s c))) x t) : CoreOnly c (F (issued u w (coreOf s c))) x (unitIssue c w s) := by
  obtain ⟨-, hended, hstop⟩ := canIssue_running h.issues
  have hentered : coreOf (setCore c (entered u w (coreOf s c)) s) c = entered u w (coreOf s c) := coreOf_setCore ..
  have hrun : ((entered u w (coreOf s c)).ended || (entered u w (coreOf s c)).stop ||
      !mayStart (entered u w (coreOf s c)) u [unitEntry w (coreOf s c)] (unitEntry w (coreOf s c))) = false := by
    rw [mayStart_unit h.idle h.wait hop]
    simp [entered, hended, hstop]
  have hfind : [unitEntry w (coreOf s c)].find? (fun x => !x.started) = some (unitEntry w (coreOf s c)) := rfl
  have hdone : CoreOnly c (F (issued u w (coreOf s c))) x (updCore c (markStarted u (unitEntry w (coreOf s c))) t) :=
    (ht.upd _).eq (markStarted_waiting hF hop)
  have hstart : startNext c u (setCore c (entered u w (coreOf s c)) s) =
      (updCore c (markStarted u (unitEntry w (coreOf s c))) t, true) := by
    rw [takeWait_entered] at he
    have hpc : (unitEntry w (coreOf s c)).pc = (coreOf s c).pc := rfl
    unfold startNext
    simp only [hentered, get_entered, hfind, hrun, unitEntry_w, unitEntry_pred, hop, hpc, he, Bool.false_eq_true, if_false, if_true]
  have hothers : ∀ v, v ≠ u → startNext c v (setCore c (entered u w (coreOf s c)) s) = (setCore c (entered u w (coreOf s c)) s, false) :=
    fun v hv => startNext_none (by rw [hentered, get_entered_ne _ h.idle hv]; rfl)
  have hstarted : AllStarted (F (issued u w (coreOf s c))) := by
    intro v
    rw [hF.queues]
    exact allStarted_issued h.idle v
  rw [unitIssue_entered h hp hw hu, pump_one hstart hothers (hdone.1 ▸ hstarted) (by omega)]
  exact hdone

end

/-! ## Registers of a core whose instruction waits or is issued -/

section
variable (u : Nat) (w : CWord) (k : Core)

@[simp] theorem waiting_vreg : (waiting u w k).vreg = k.vreg := by rw [waiting, takeWait_eq]
@[simp] theorem waiting_task : (waiting u w k).task = k.task := by rw [waiting, takeWait_eq]
@[simp] theorem issued_sreg : (issued u w k).sreg = k.sreg := by rw [issued, takeWait_eq]
@[simp] theorem issued_vreg : (issued u w k).vreg = k.vreg := by rw [issued, takeWait_eq]
@[simp] theorem issued_eng : (issued u w k).eng = k.eng := by rw [issued, takeWait_eq]

@[simp] theorem vget_waiting (r : BitVec 6) : vget (waiting u w k) r = vget k r := by simp only [vget, waiting_vreg]
@[simp] theorem srcB_waiting (f : FmtV) : srcB (waiting u w k) f = srcB k f := by simp only [srcB, sget_waiting, vget_waiting]
@[simp] theorem sget_issued (r : BitVec 5) : sget (issued u w k) r = sget k r := by simp only [sget, issued_sreg]
@[simp] theorem vget_issued (r : BitVec 6) : vget (issued u w k) r = vget k r := by simp only [vget, issued_vreg]
@[simp] theorem engOf_issued (e : Nat) : engOf (issued u w k) e = engOf k e := by simp only [engOf, issued_eng]
@[simp] theorem srcB_issued (f : FmtV) : srcB (issued u w k) f = srcB k f := by simp only [srcB, sget_issued, vget_issued]

end

end Sys2Proof.Machine
end

section
/-! Vector instructions that compute (R64, R65, R77, R82 to R84): each writes one vector register and raises the flags of its lanes. -/

namespace Sys2Proof.Machine

/-! ## One rule for the format-V words -/

/-- A legal format-V word is no DMAQ (R77). -/
theorem legal_v_ne_dmaq {o : Byte} {p : Pre} {f : FmtV} (h : legal ⟨o, p, .v f⟩ = true) : o ≠ 0xB0#8 := by
  rintro rfl
  simp [legal, opFormat] at h

theorem veOf_lt (f : FmtV) : veOf f < 11 := by
  unfold veOf b2n
  split <;> omega

section
variable {c : Nat} {o : Byte} {p : Pre} {f : FmtV} {s : State}

/-- A format-V word starts on its engine as it is issued (R68). -/
theorem unitIssue_vector {x t : State} {F : Core → Core} (h : CoreReady s c ⟨o, p, .v f⟩) (hp : predOk (coreOf s c) ⟨o, p, .v f⟩ = true)
    (hF : IgnoresQueues F)
    (he : unitEffect c (coreOf s c).pc.toNat (unitEntry ⟨o, p, .v f⟩ (coreOf s c))
      (setCore c (waiting (veOf f) ⟨o, p, .v f⟩ (coreOf s c)) s) = .done t)
    (ht : CoreOnly c (F (waiting (veOf f) ⟨o, p, .v f⟩ (coreOf s c))) x t) :
    CoreOnly c (F (issued (veOf f) ⟨o, p, .v f⟩ (coreOf s c))) x (unitIssue c ⟨o, p, .v f⟩ s) :=
  unitIssue_starts h hp rfl (veOf_lt f) (legal_v_ne_dmaq h.legal) hF he ht

theorem ignoresQueues_vset (r : BitVec 6) (v : List Word32) : IgnoresQueues (vset r v) := fun _ _ => rfl

/-- What a vector instruction that computes does to its core: its result, its flags, and its steps of a stochastic rounding. -/
def vecResult (f : FmtV) (r : List Word32 × Flags) (m : Mode) (n : Nat) (k : Core) : Core :=
  advanceSeq (veOf f) m n (raiseFlags (veOf f) r.2 (vset f.vd r.1 k))

theorem ignoresQueues_vecResult (f : FmtV) (r : List Word32 × Flags) (m : Mode) (n : Nat) : IgnoresQueues (vecResult f r m n) :=
  (ignoresQueues_advanceSeq _ _ _).comp ((ignoresQueues_raiseFlags _ _).comp (ignoresQueues_vset _ _))

/-- Only stochastic rounding takes steps of an engine's sequence (R47). -/
theorem advanceSeq_rne (e n : Nat) (k : Core) : advanceSeq e .rne n k = k := rfl

theorem vecResult_rne (f : FmtV) (r : List Word32 × Flags) (n : Nat) (k : Core) :
    vecResult f r .rne n k = raiseFlags (veOf f) r.2 (vset f.vd r.1 k) := rfl

/-- A format-V word whose effect is one result, found in any state in which its core waits with it. -/
theorem unitIssue_vecDone {r : List Word32 × Flags} {m : Mode} {n : Nat} (h : CoreReady s c ⟨o, p, .v f⟩)
    (hp : predOk (coreOf s c) ⟨o, p, .v f⟩ = true)
    (he : ∀ v, coreOf v c = waiting (veOf f) ⟨o, p, .v f⟩ (coreOf s c) →
      unitEffect c (coreOf s c).pc.toNat (unitEntry ⟨o, p, .v f⟩ (coreOf s c)) v = vecDone c f r m n v) :
    CoreOnly c (vecResult f r m n (issued (veOf f) ⟨o, p, .v f⟩ (coreOf s c))) s (unitIssue c ⟨o, p, .v f⟩ s) :=
  unitIssue_vector h hp (ignoresQueues_vecResult f r m n) (he _ (coreOf_setCore ..)) (((CoreOnly.refl c s).set _).upd _)

end

/-! ## Element by element (R64, R65, R82) -/

section
variable {c u : Nat} {w : CWord} {k : Core} {v : State} (hv : coreOf v c = waiting u w k)
include hv

/-- What an element-wise instruction that rounds gives, from the core in which it waits. -/
theorem vecRound_waiting (op : FFmt → Rnd → Bool → Nat → Nat → Nat → Nat × Flags) (p : Pre) (f : FmtV) :
    vecRound op c p f v = vecDone c f (lanewise f.ty.toNat (fun e x y z => op (tyFmt f.ty.toNat)
      (rndFor (engOf k (veOf f)) (effMode (engOf k (veOf f)) p.rnd) 0 e) (f.ty.toNat == 0 && ftzOf (engOf k (veOf f))) x y z)
      (vget k f.va) (srcB k f) (vget k f.vc)) (effMode (engOf k (veOf f)) p.rnd) 1 v := by
  simp only [vecRound, hv, engOf_waiting, vget_waiting, srcB_waiting]

/-- What an element-wise instruction that does not round gives, from the core in which it waits. -/
theorem vecPlain_waiting (op : FFmt → Nat → Nat → Nat → Nat × Flags) (f : FmtV) :
    vecPlain op c f v = vecDone c f (lanewise f.ty.toNat (fun _ x y z => op (tyFmt f.ty.toNat) x y z)
      (vget k f.va) (srcB k f) (vget k f.vc)) .rne 0 v := by
  simp only [vecPlain, hv, vget_waiting, srcB_waiting]

/-- An approximated function takes FTZ of its engine as it stands at the start. -/
theorem vecApprox_waiting (op : Bool → Nat → Nat × Flags) (f : FmtV) :
    vecApprox op c f v = vecPlain (fun _ x _ _ => op (ftzOf (engOf k (veOf f))) x) c f v := by
  simp only [vecApprox, hv, engOf_waiting]

end

/-- Settles O11: each instruction is the rounding operation of its row on every element (R64, log entries 301 and 307). -/
theorem vectorRoundingArithmetic : Obligations.VectorRoundingArithmetic := by
  unfold Obligations.VectorRoundingArithmetic
  intro c p f s x hx w u k g m ty r h hp
  have hexec : exec x.1 s = .next (unitIssue c w s) ∧
      ∀ v, unitEffect c (coreOf s c).pc.toNat (unitEntry w (coreOf s c)) v = vecRound x.2.2 c p f v := by
    simp only [List.mem_cons, List.not_mem_nil, or_false] at hx
    rcases hx with rfl | rfl | rfl | rfl | rfl <;> exact ⟨rfl, fun _ => rfl⟩
  have hrun := unitIssue_vecDone h hp fun v hv => (hexec.2 v).trans (vecRound_waiting hv x.2.2 p f)
  refine ⟨_, hexec.1, hrun.eq ?_⟩
  simp only [vecResult, r, m, g, ty, u, k, w, engOf_issued, vget_issued, srcB_issued]

/-- Settles O12: each instruction is the operation of its row on every element, and rounds under no mode (R65, R77, log entries 4, 21,
301 and 307). -/
theorem vectorElementwise : Obligations.VectorElementwise := by
  unfold Obligations.VectorElementwise
  intro c p f s z x hx w u k r h hp
  have hexec : exec x.1 s = .next (unitIssue c w s) ∧ ∀ v, coreOf v c = waiting u w (coreOf s c) →
      unitEffect c (coreOf s c).pc.toNat (unitEntry w (coreOf s c)) v = vecPlain x.2.2 c f v := by
    simp only [List.mem_cons, List.not_mem_nil, or_false] at hx
    rcases hx with rfl | rfl | rfl | rfl | rfl | rfl | rfl | rfl | rfl | rfl | rfl
    · exact ⟨rfl, fun _ _ => rfl⟩
    · exact ⟨rfl, fun _ _ => rfl⟩
    · exact ⟨rfl, fun _ hv => vecApprox_waiting hv fpRcp f⟩
    · exact ⟨rfl, fun _ hv => vecApprox_waiting hv fpRsqrt f⟩
    · exact ⟨rfl, fun _ hv => vecApprox_waiting hv fpExp2 f⟩
    · exact ⟨rfl, fun _ hv => vecApprox_waiting hv fpLog2 f⟩
    · exact ⟨rfl, fun _ _ => rfl⟩
    · exact ⟨rfl, fun _ _ => rfl⟩
    · exact ⟨rfl, fun _ _ => rfl⟩
    · exact ⟨rfl, fun _ _ => rfl⟩
    · exact ⟨rfl, fun _ _ => rfl⟩
  have hrun := unitIssue_vecDone h hp fun v hv => (hexec.2 v hv).trans (vecPlain_waiting hv x.2.2 f)
  refine ⟨_, hexec.1, hrun.eq ?_⟩
  simp only [vecResult_rne, r, u, k, w, vget_issued, srcB_issued]

end Sys2Proof.Machine
end

section
/-! The INT32 lane instructions (R61, R64, R77, R82): one 32-bit operation for each lane, and IOV for the exact results that do not fit. -/

namespace Sys2Proof.Machine

/-! ## The flags of a list of lanes -/

theorem foldl_or_flIf {α : Type} (q : α → Bool) (fl a : Flags) (l : List α) :
    (l.map fun n => flIf (q n) fl).foldl (fun b x => b ||| x) a = a ||| flIf (l.any q) fl := by
  induction l generalizing a with
  | nil => simp [flIf]
  | cons n l ih =>
    rw [List.map_cons, List.foldl_cons, ih, List.any_cons]
    cases q n with
    | false => simp [flIf]
    | true => cases l.any q <;> simp [flIf, BitVec.or_assoc]

/-- One flag raised by some lanes is raised if any lane raises it (R61). -/
theorem orFlags_flIf {α : Type} (q : α → Bool) (fl : Flags) (l : List α) : orFlags (l.map fun n => flIf (q n) fl) = flIf (l.any q) fl := by
  rw [orFlags, foldl_or_flIf, BitVec.zero_or]

/-- The flags of a list of results, folded as the model folds them. -/
theorem foldl_flags {α : Type} (g : α → Flags) (l : List α) : l.foldl (fun a p => a ||| g p) 0#32 = orFlags (l.map g) := by
  rw [orFlags, List.foldl_map]

/-! ## INT32 operations on words -/

/-- A 32-bit operation: on words it is `g`, and it raises IOV where `q` holds. -/
def LaneOp (op : Nat → Nat → Nat × Flags) (g : Word32 → Word32 → Word32) (q : Word32 → Word32 → Bool) : Prop :=
  ∀ x y : Word32, BitVec.ofNat 32 (op x.toNat y.toNat).1 = g x y ∧ (op x.toNat y.toNat).2 = flIf (q x y) flIOV

/-- An exact result that INT32 does not hold. -/
def overflows (z : Int) : Bool := decide (z < -2147483648) || decide (2147483648 ≤ z)

/-- The INT32 result of an exact integer (R64). -/
theorem intResult_eq (z : Int) : intResult z = (wrap 32 z, flIf (overflows z) flIOV) := rfl

/-- An operation that takes the exact result of its signed operands modulo 2^32. -/
theorem laneOp_exact {e : Int → Int → Int} {g : Word32 → Word32 → Word32}
    (h : ∀ x y : Word32, BitVec.ofInt 32 (e x.toInt y.toInt) = g x y) :
    LaneOp (fun x y => intResult (e (sext 32 x) (sext 32 y))) g (fun x y => overflows (e x.toInt y.toInt)) := fun x y => by
  simp only [intResult_eq, sext_toNat, ofNat_wrap, h, and_self]

/-- An operation on patterns, which raises nothing. -/
theorem laneOp_pattern {op : Nat → Nat → Nat} {g : Word32 → Word32 → Word32}
    (h : ∀ x y : Word32, BitVec.ofNat 32 (op x.toNat y.toNat) = g x y) :
    LaneOp (fun x y => (op x y, 0#32)) g (fun _ _ => false) := fun x y => ⟨h x y, rfl⟩

theorem laneOp_add : LaneOp (fun x y => intResult (sext 32 x + sext 32 y)) (· + ·) (fun x y => overflows (x.toInt + y.toInt)) :=
  laneOp_exact fun x y => by rw [BitVec.ofInt_add, BitVec.ofInt_toInt, BitVec.ofInt_toInt]

theorem laneOp_sub : LaneOp (fun x y => intResult (sext 32 x - sext 32 y)) (· - ·) (fun x y => overflows (x.toInt - y.toInt)) :=
  laneOp_exact fun x y => by
    rw [Int.sub_eq_add_neg, BitVec.ofInt_add, BitVec.ofInt_neg, BitVec.ofInt_toInt, BitVec.ofInt_toInt, BitVec.sub_eq_add_neg]

theorem laneOp_mul : LaneOp (fun x y => intResult (sext 32 x * sext 32 y)) (· * ·) (fun x y => overflows (x.toInt * y.toInt)) :=
  laneOp_exact fun x y => by rw [BitVec.ofInt_mul, BitVec.ofInt_toInt, BitVec.ofInt_toInt]

theorem laneOp_and : LaneOp (fun x y => (x &&& y, 0#32)) (· &&& ·) (fun _ _ => false) :=
  laneOp_pattern fun x y => by rw [BitVec.ofNat_and, BitVec.ofNat_toNat, BitVec.ofNat_toNat, BitVec.setWidth_eq, BitVec.setWidth_eq]

theorem laneOp_or : LaneOp (fun x y => (x ||| y, 0#32)) (· ||| ·) (fun _ _ => false) :=
  laneOp_pattern fun x y => by rw [BitVec.ofNat_or, BitVec.ofNat_toNat, BitVec.ofNat_toNat, BitVec.setWidth_eq, BitVec.setWidth_eq]

theorem laneOp_xor : LaneOp (fun x y => (x ^^^ y, 0#32)) (· ^^^ ·) (fun _ _ => false) :=
  laneOp_pattern fun x y => by rw [BitVec.ofNat_xor, BitVec.ofNat_toNat, BitVec.ofNat_toNat, BitVec.setWidth_eq, BitVec.setWidth_eq]

theorem laneOp_shl : LaneOp (fun x y => (x * 2 ^ (y % 32) % 2 ^ 32, 0#32)) (fun x y => x <<< (y.toNat % 32)) (fun _ _ => false) :=
  laneOp_pattern fun x y => BitVec.eq_of_toNat_eq (by rw [BitVec.toNat_ofNat, BitVec.toNat_shiftLeft, Nat.shiftLeft_eq, Nat.mod_mod])

theorem laneOp_shr : LaneOp (fun x y => (x / 2 ^ (y % 32), 0#32)) (fun x y => x >>> (y.toNat % 32)) (fun _ _ => false) :=
  laneOp_pattern fun x y => BitVec.eq_of_toNat_eq (by
    rw [BitVec.toNat_ofNat, BitVec.toNat_ushiftRight, Nat.shiftRight_eq_div_pow, Nat.mod_eq_of_lt]
    exact (Nat.div_le_self ..).trans_lt x.isLt)

theorem laneOp_sar : LaneOp (fun x y => (wrap 32 (sext 32 x / ((2 ^ (y % 32) : Nat) : Int)), 0#32)) (fun x y => x.sshiftRight (y.toNat % 32))
    (fun _ _ => false) :=
  laneOp_pattern fun x y => by rw [ofNat_wrap, sext_toNat, BitVec.sshiftRight, Int.shiftRight_eq_div_pow]

/-! ## Lane by lane -/

theorem vget_length (k : Core) (r : BitVec 6) : (vget k r).length = 256 := Mp.slice_length ..

theorem srcB_length (k : Core) (f : FmtV) : (srcB k f).length = 256 := by
  unfold srcB vget
  split
  · exact List.length_replicate
  · exact Mp.slice_length ..

/-- The operation of one lane on the lane's words of the sources. -/
theorem lanewise_int {op : Nat → Nat → Nat × Flags} {g : Word32 → Word32 → Word32} {q : Word32 → Word32 → Bool} (hop : LaneOp op g q)
    {ty n : Nat} (hty : ty = 3) {a b d : List Word32} (ha : a.length = n) (hb : b.length = n) (hd : d.length = n) :
    lanewise ty (fun _ x y _ => op x y) a b d = ((List.range n).map (fun i => g ((a[i]?).getD 0#32) ((b[i]?).getD 0#32)),
      flIf ((List.range n).any (fun i => q ((a[i]?).getD 0#32) ((b[i]?).getD 0#32))) flIOV) := by
  have hlanes : (a.zip (b.zip d)).mapIdx (fun _ p => (BitVec.ofNat 32 (op p.1.toNat p.2.1.toNat).1, (op p.1.toNat p.2.1.toNat).2)) =
      (List.range n).map (fun i => (g ((a[i]?).getD 0#32) ((b[i]?).getD 0#32), flIf (q ((a[i]?).getD 0#32) ((b[i]?).getD 0#32)) flIOV)) := by
    refine List.ext_getElem (by simp [ha, hb, hd]) fun i hi _ => ?_
    have hi : i < n := by simpa [ha, hb, hd] using hi
    have hai : i < a.length := ha.symm ▸ hi
    have hbi : i < b.length := hb.symm ▸ hi
    simp only [List.getElem_mapIdx, List.getElem_zip, List.getElem_map, List.getElem_range, List.getElem?_eq_getElem, hai, hbi,
      Option.getD_some, (hop _ _).1, (hop _ _).2]
  have hwide : ¬ (ty = 1 ∨ ty = 2) := by omega
  simp only [lanewise, hwide, if_false, hlanes, foldl_flags, List.map_map]
  exact Prod.ext rfl (orFlags_flIf ..)

section
variable {c : Nat} {o : Byte} {p : Pre} {f : FmtV} {s : State}

/-- A format-V word whose effect is one result that no stochastic rounding made. -/
theorem unitIssue_vecRne {ls : List Word32} {fl : Flags} (h : CoreReady s c ⟨o, p, .v f⟩) (hp : predOk (coreOf s c) ⟨o, p, .v f⟩ = true)
    (he : ∀ v, coreOf v c = waiting (veOf f) ⟨o, p, .v f⟩ (coreOf s c) →
      unitEffect c (coreOf s c).pc.toNat (unitEntry ⟨o, p, .v f⟩ (coreOf s c)) v = vecDone c f (ls, fl) .rne 0 v) :
    CoreOnly c (raiseFlags (veOf f) fl (vset f.vd ls (issued (veOf f) ⟨o, p, .v f⟩ (coreOf s c)))) s (unitIssue c ⟨o, p, .v f⟩ s) :=
  unitIssue_vecDone h hp he

/-- The lane type of an INT32 instruction is 3 (R77). -/
theorem ty_of_int (h : CoreReady s c ⟨o, p, .v f⟩) (ho : 0x40 ≤ o.toNat ∧ o.toNat < 0x50) : f.ty.toNat = 3 := by
  have hlegal := h.legal
  simp only [legal, Bool.and_eq_true] at hlegal
  have hv := hlegal.2.2
  unfold legalV at hv
  rw [if_neg (by omega), if_neg (by omega), if_neg (by omega), if_pos (by omega)] at hv
  simpa using hv

theorem no_lane {α : Type} (l : List α) : (l.any fun _ => false) = false := List.any_eq_false.2 fun _ _ => Bool.false_ne_true

/-- An INT32 instruction of two sources: lane by lane `g`, and IOV if `q` holds of some lane. -/
theorem unitIssue_lanes {op : Nat → Nat → Nat × Flags} {g : Word32 → Word32 → Word32} {q : Word32 → Word32 → Bool} {iov : Bool}
    {val : Nat → Word32} (hop : LaneOp op g q) (ho : 0x40 ≤ o.toNat ∧ o.toNat < 0x50)
    (he : ∀ v, unitEffect c (coreOf s c).pc.toNat (unitEntry ⟨o, p, .v f⟩ (coreOf s c)) v = vecPlain (fun _ x y _ => op x y) c f v)
    (hval : ∀ n, g (((vget (coreOf s c) f.va)[n]?).getD 0#32) (((srcB (coreOf s c) f)[n]?).getD 0#32) = val n)
    (hiov : ((List.range 256).any fun n => q (((vget (coreOf s c) f.va)[n]?).getD 0#32) (((srcB (coreOf s c) f)[n]?).getD 0#32)) = iov)
    (h : CoreReady s c ⟨o, p, .v f⟩) (hp : predOk (coreOf s c) ⟨o, p, .v f⟩ = true) :
    CoreOnly c (raiseFlags (veOf f) (if iov then flIOV else 0#32)
      (vset f.vd ((List.range 256).map val) (issued (veOf f) ⟨o, p, .v f⟩ (coreOf s c)))) s (unitIssue c ⟨o, p, .v f⟩ s) := by
  have hlanes := lanewise_int hop (ty_of_int h ho) (vget_length (coreOf s c) f.va) (srcB_length (coreOf s c) f) (vget_length (coreOf s c) f.vc)
  rw [hiov, flIf] at hlanes
  simp only [hval] at hlanes
  exact unitIssue_vecRne h hp fun v hv => by rw [he v, vecPlain_waiting hv, ← hlanes]

/-- Lane n of VIOTA is n past the low half of S[SA] (R77). -/
theorem effViota_eq {v : State} :
    effViota c f v = vecDone c f ((List.range 256).map fun n => (sget (coreOf v c) f.sa).setWidth 32 + BitVec.ofNat 32 n,
      flIf ((List.range 256).any fun n => overflows (((sget (coreOf v c) f.sa).setWidth 32 : Word32).toInt + n)) flIOV) .rne 0 v := by
  have hbase : sext 32 (sget (coreOf v c) f.sa).toNat = ((sget (coreOf v c) f.sa).setWidth 32 : Word32).toInt := by
    rw [← sext_toNat]
    simp [sext]
  have hlane (n : Nat) : BitVec.ofInt 32 (((sget (coreOf v c) f.sa).setWidth 32 : Word32).toInt + n) =
      (sget (coreOf v c) f.sa).setWidth 32 + BitVec.ofNat 32 n := by
    rw [BitVec.ofInt_add, BitVec.ofInt_toInt, BitVec.ofInt_natCast]
  simp only [effViota, hbase, foldl_flags, List.map_map, Function.comp_def, intResult_eq, ofNat_wrap, hlane]
  rw [orFlags_flIf]

theorem viota_runs (h : CoreReady s c ⟨0x49#8, p, .v f⟩) (hp : predOk (coreOf s c) ⟨0x49#8, p, .v f⟩ = true) :
    CoreOnly c (raiseFlags (veOf f) (flIf ((List.range 256).any fun n =>
        overflows (((sget (coreOf s c) f.sa).setWidth 32 : Word32).toInt + n)) flIOV)
      (vset f.vd ((List.range 256).map fun n => (sget (coreOf s c) f.sa).setWidth 32 + BitVec.ofNat 32 n)
        (issued (veOf f) ⟨0x49#8, p, .v f⟩ (coreOf s c)))) s (unitIssue c ⟨0x49#8, p, .v f⟩ s) :=
  unitIssue_vecRne h hp fun v hv => by
    have he : unitEffect c (coreOf s c).pc.toNat (unitEntry ⟨0x49#8, p, .v f⟩ (coreOf s c)) v = effViota c f v := rfl
    rw [he, effViota_eq, hv, sget_waiting]

theorem vbcast_runs (h : CoreReady s c ⟨0x4A#8, p, .v f⟩) (hp : predOk (coreOf s c) ⟨0x4A#8, p, .v f⟩ = true) :
    CoreOnly c (raiseFlags (veOf f) 0#32 (vset f.vd ((List.range 256).map fun _ => (sget (coreOf s c) f.sa).setWidth 32)
        (issued (veOf f) ⟨0x4A#8, p, .v f⟩ (coreOf s c)))) s (unitIssue c ⟨0x4A#8, p, .v f⟩ s) :=
  unitIssue_vecRne h hp fun v hv => by
    have he : unitEffect c (coreOf s c).pc.toNat (unitEntry ⟨0x4A#8, p, .v f⟩ (coreOf s c)) v = effVbcast c f v := rfl
    rw [he, effVbcast, hv, sget_waiting, List.map_const', List.length_range]

end

/-- Settles O13: each row is a 32-bit operation of every lane, and IOV is raised where an exact result overflows (log entries 301 and 307). -/
theorem vectorIntegerLanes : Obligations.VectorIntegerLanes := by
  unfold Obligations.VectorIntegerLanes
  intro c p f s xs ys sa ovf x hx w u h hp
  have hrun : exec x.1 s = .next (unitIssue c w s) ∧
      CoreOnly c (raiseFlags u (if x.2.2.2 then flIOV else 0#32) (vset f.vd ((List.range 256).map x.2.2.1) (issued u w (coreOf s c)))) s
        (unitIssue c w s) := by
    simp only [List.mem_cons, List.not_mem_nil, or_false] at hx
    rcases hx with rfl | rfl | rfl | rfl | rfl | rfl | rfl | rfl | rfl | rfl | rfl
    · exact ⟨rfl, unitIssue_lanes (o := 0x40#8) laneOp_add (by decide) (fun _ => rfl) (fun _ => rfl) rfl h hp⟩
    · exact ⟨rfl, unitIssue_lanes (o := 0x41#8) laneOp_sub (by decide) (fun _ => rfl) (fun _ => rfl) rfl h hp⟩
    · exact ⟨rfl, unitIssue_lanes (o := 0x42#8) laneOp_mul (by decide) (fun _ => rfl) (fun _ => rfl) rfl h hp⟩
    · exact ⟨rfl, unitIssue_lanes (o := 0x43#8) laneOp_and (by decide) (fun _ => rfl) (fun _ => rfl) (no_lane _) h hp⟩
    · exact ⟨rfl, unitIssue_lanes (o := 0x44#8) laneOp_or (by decide) (fun _ => rfl) (fun _ => rfl) (no_lane _) h hp⟩
    · exact ⟨rfl, unitIssue_lanes (o := 0x45#8) laneOp_xor (by decide) (fun _ => rfl) (fun _ => rfl) (no_lane _) h hp⟩
    · exact ⟨rfl, unitIssue_lanes (o := 0x46#8) laneOp_shl (by decide) (fun _ => rfl) (fun _ => rfl) (no_lane _) h hp⟩
    · exact ⟨rfl, unitIssue_lanes (o := 0x47#8) laneOp_shr (by decide) (fun _ => rfl) (fun _ => rfl) (no_lane _) h hp⟩
    · exact ⟨rfl, unitIssue_lanes (o := 0x48#8) laneOp_sar (by decide) (fun _ => rfl) (fun _ => rfl) (no_lane _) h hp⟩
    · exact ⟨rfl, viota_runs h hp⟩
    · exact ⟨rfl, vbcast_runs h hp⟩
  exact ⟨_, _, hrun.1, hrun.2, by simp, fun n hn => by simp [hn]⟩

end Sys2Proof.Machine
end

section
/-! Conversions and reductions of vectors (R38 to R43, R49, R83, R84): each is one result of the register it reads. -/

namespace Sys2Proof.Machine

section
variable {c : Nat} {o : Byte} {p : Pre} {f : FmtV} {s : State}

/-- A format-V word whose effect is one result, lanes and flags. -/
theorem unitIssue_vecOut {ls : List Word32} {fl : Flags} {m : Mode} {n : Nat} (h : CoreReady s c ⟨o, p, .v f⟩)
    (hp : predOk (coreOf s c) ⟨o, p, .v f⟩ = true)
    (he : ∀ v, coreOf v c = waiting (veOf f) ⟨o, p, .v f⟩ (coreOf s c) →
      unitEffect c (coreOf s c).pc.toNat (unitEntry ⟨o, p, .v f⟩ (coreOf s c)) v = vecDone c f (ls, fl) m n v) :
    CoreOnly c (advanceSeq (veOf f) m n (raiseFlags (veOf f) fl (vset f.vd ls (issued (veOf f) ⟨o, p, .v f⟩ (coreOf s c))))) s
      (unitIssue c ⟨o, p, .v f⟩ s) :=
  unitIssue_vecDone (r := (ls, fl)) h hp he

end

/-! ## Conversions (R83) -/

section
variable {c u : Nat} {w : CWord} {k : Core} {v : State} {f : FmtV}

theorem effVcvt_waiting (p : Pre) (hv : coreOf v c = waiting u w k) :
    let g := engOf k (veOf f)
    let src := cvtElem f.fmts.toNat f.ty.toNat
    let dst := cvtElem f.fmtd.toNat f.ty.toNat
    let m := if mayRound ⟨0x50#8, p, .v f⟩ then effMode g p.rnd else .rne
    let rs := (unpackBits src.width (cvtCount src dst) (lanesNat (vget k f.va))).mapIdx
      (fun i x => cvtElemVal src dst (rndFor g m 0 i) (satOf g) x)
    effVcvt c p f v = vecDone c f (natLanes (packBits dst.width (rs.map (·.1))), orFlags (rs.map (·.2))) m 1 v := by
  simp only [effVcvt, hv, engOf_waiting, vget_waiting, foldl_flags]

theorem effVqb_emmer (p : Pre) (hf : f.fmtd = 14#4) (hv : coreOf v c = waiting u w k) :
    let g := engOf k (veOf f)
    let m := effMode g p.rnd
    let va := vget k f.va
    let bs := (List.range 8).map (fun b => quantEmmer (fun i => rndFor g m 0 (32 * b + i)) (satOf g) (blockLanes va b)
      ((blockLanes va b).map (fun x => fmtFP32.decode x.toNat)))
    effVqb c p f v = vecDone c f (natLanes (packBits 144 (bs.map (·.1))), orFlags (bs.map (·.2))) m 1 v := by
  simp only [effVqb, hf, if_true, hv, engOf_waiting, vget_waiting, foldl_flags]

theorem effVqb_mx (p : Pre) (hf : f.fmtd ≠ 14#4) (hv : coreOf v c = waiting u w k) :
    let g := engOf k (veOf f)
    let m := effMode g p.rnd
    let el := codeElem f.fmtd.toNat
    let bs := (List.range 8).map (fun b => quantMx el (fun i => rndFor g m 0 (32 * b + i)) (satOf g)
      ((blockLanes (vget k f.va) b).map (fun x => fmtFP32.decode x.toNat)))
    effVqb c p f v = vecDone c f (natLanes (packBits el.width (bs.flatMap (·.2.1))), orFlags (bs.map (·.2.2))) m 1
      (updCore c (sset f.sa (BitVec.ofNat 64 (packBits 8 (bs.map (·.1))))) v) := by
  simp only [effVqb, hf, if_false, hv, engOf_waiting, vget_waiting, foldl_flags]

theorem effVdqb_waiting (hv : coreOf v c = waiting u w k) :
    let x := lanesNat (vget k f.va)
    let el := codeElem f.fmts.toNat
    let rs := (List.range 256).map (fun n => widen32
      (if f.fmts = 14#4 then emmerValue (x / 2 ^ (144 * (n / 32)) % 2 ^ 144) (n % 32)
        else mxValue el ((sget k f.sa).toNat / 2 ^ (8 * (n / 32)) % 256) (x / 2 ^ (el.width * n) % 2 ^ el.width)))
    effVdqb c f v = vecDone c f (rs.map (fun q => BitVec.ofNat 32 q.1), orFlags (rs.map (·.2))) .rne 0 v := by
  simp only [effVdqb, hv, sget_waiting, vget_waiting, foldl_flags]

end

/-- A quantization into MX blocks writes its scales, then its result (R42, R83). -/
theorem vqb_mx_runs {c : Nat} {p : Pre} {f : FmtV} {s : State} {ls : List Word32} {fl : Flags} {m : Mode} {x : Word64}
    (h : CoreReady s c ⟨0x51#8, p, .v f⟩) (hp : predOk (coreOf s c) ⟨0x51#8, p, .v f⟩ = true)
    (he : ∀ v, coreOf v c = waiting (veOf f) ⟨0x51#8, p, .v f⟩ (coreOf s c) →
      effVqb c p f v = vecDone c f (ls, fl) m 1 (updCore c (sset f.sa x) v)) :
    CoreOnly c (advanceSeq (veOf f) m 1 (raiseFlags (veOf f) fl (vset f.vd ls (sset f.sa x
      (issued (veOf f) ⟨0x51#8, p, .v f⟩ (coreOf s c)))))) s (unitIssue c ⟨0x51#8, p, .v f⟩ s) :=
  unitIssue_vector h hp ((ignoresQueues_vecResult f (ls, fl) m 1).comp (ignoresQueues_sset f.sa x)) (he _ (coreOf_setCore ..))
    ((((CoreOnly.refl c s).set _).upd _).upd _)

/-- Settles O14: the elements of V[VA] converted in order, with the scales of MX blocks in S[SA] (R83, log entries 5 and 307). -/
theorem vectorConversions : Obligations.VectorConversions := by
  unfold Obligations.VectorConversions
  intro c p f s u ready k g va
  refine ⟨?vcvt, ?vqb, ?vdqb⟩
  case vcvt =>
    intro ⟨h, hp⟩ src dst m rs
    exact ⟨_, rfl, unitIssue_vecOut h hp fun v hv => effVcvt_waiting p hv⟩
  case vqb =>
    intro ⟨h, hp⟩ m nums rnd em mx
    exact ⟨_, rfl, fun hf => unitIssue_vecOut h hp fun v hv => effVqb_emmer p hf hv,
      fun hf => vqb_mx_runs h hp fun v hv => effVqb_mx p hf hv⟩
  case vdqb =>
    intro ⟨h, hp⟩ el val rs
    exact ⟨_, rfl, unitIssue_vecRne h hp fun v hv => effVdqb_waiting hv⟩

/-! ## Reductions (R84) -/

theorem intMinMax_max : intMinMax true = fun a b => (if sext 32 a < sext 32 b then b else a, 0#32) := by
  funext a b
  simp [intMinMax]

theorem intMinMax_min : intMinMax false = fun a b => (if sext 32 a < sext 32 b then a else b, 0#32) := by
  funext a b
  by_cases h : sext 32 a < sext 32 b <;> simp [intMinMax, h]

/-- What a reduction gives, from the core in which it waits. -/
theorem vecReduce_waiting {c u : Nat} {w : CWord} {k : Core} {v : State} (op : FFmt → Nat → Nat → Nat × Flags)
    (iop : Nat → Nat → Nat × Flags) (f : FmtV) (hv : coreOf v c = waiting u w k) :
    let ty := f.ty.toNat
    let x := (vget k f.va).map BitVec.toNat
    let lo := treeReduce (op (tyFmt ty)) (x.map (· % 65536))
    let hi := treeReduce (op (tyFmt ty)) (x.map (· / 65536))
    let r := if ty = 1 ∨ ty = 2 then (lo.1 + 65536 * hi.1, lo.2 ||| hi.2) else treeReduce (if ty = 3 then iop else op (tyFmt ty)) x
    vecReduce op iop c f v = vecDone c f (BitVec.ofNat 32 r.1 :: List.replicate 255 0#32, r.2) .rne 0 v := by
  simp only [vecReduce, hv, vget_waiting]

/-- VRSUM takes FTZ of its engine as it stands at the start. -/
theorem effVrsum_waiting {c u : Nat} {w : CWord} {k : Core} {v : State} (f : FmtV) (hv : coreOf v c = waiting u w k) :
    effVrsum c f v = vecReduce (fun ff a b => fpAdd ff rndNear (ff == fmtFP32 && ftzOf (engOf k (veOf f))) a b)
      (fun a b => intResult (sext 32 a + sext 32 b)) c f v := by
  simp only [effVrsum, hv, engOf_waiting]

/-- Settles O15: a reduction is its tree over the lanes it reads, in lane 0 (R84, log entry 307). -/
theorem vectorReductions : Obligations.VectorReductions := by
  unfold Obligations.VectorReductions
  intro c p f s u z x hx w ty v one lo hi r h hp
  have hexec : exec x.1 s = .next (unitIssue c w s) ∧ ∀ v, coreOf v c = waiting u w (coreOf s c) →
      unitEffect c (coreOf s c).pc.toNat (unitEntry w (coreOf s c)) v = vecReduce x.2.2.1 x.2.2.2 c f v := by
    simp only [List.mem_cons, List.not_mem_nil, or_false] at hx
    rcases hx with rfl | rfl | rfl
    · exact ⟨rfl, fun _ hv => effVrsum_waiting f hv⟩
    · exact ⟨rfl, fun _ _ => by rw [← intMinMax_max]; rfl⟩
    · exact ⟨rfl, fun _ _ => by rw [← intMinMax_min]; rfl⟩
  exact ⟨_, hexec.1, unitIssue_vecRne h hp fun v hv => (hexec.2 v hv).trans (vecReduce_waiting _ _ f hv)⟩

end Sys2Proof.Machine
end

section
/-! Vector accesses to the sheaf memory and to global memory (R77, R87, R91, R94). -/

namespace Sys2Proof.Machine

/-! ## The rule for an update of the core -/

theorem CoreOnly.inj_nil {c : Nat} {k : Core} {s t : State} (h : CoreOnly c k s t) (hi : s.inj = []) : t.inj = [] := by
  rw [h.2.2]
  exact hi

section
variable {c : Nat} {o : Byte} {p : Pre} {f : FmtV} {s : State}

/-- A format-V word whose operation is one update of its core. -/
theorem unitIssue_vecUpdate {F : Core → Core} (h : CoreReady s c ⟨o, p, .v f⟩) (hp : predOk (coreOf s c) ⟨o, p, .v f⟩ = true)
    (hF : IgnoresQueues F)
    (he : ∀ v, CoreOnly c (waiting (veOf f) ⟨o, p, .v f⟩ (coreOf s c)) s v →
      unitEffect c (coreOf s c).pc.toNat (unitEntry ⟨o, p, .v f⟩ (coreOf s c)) v = .done (updCore c F v)) :
    CoreOnly c (F (issued (veOf f) ⟨o, p, .v f⟩ (coreOf s c))) s (unitIssue c ⟨o, p, .v f⟩ s) :=
  have hu : veOf f < 11 := veOf_lt f
  unitIssue_update h hp rfl (by omega) (legal_v_ne_dmaq h.legal) (by omega) hF he

@[simp] theorem vecAddr_waiting (u : Nat) (w : CWord) (k : Core) : vecAddr (waiting u w k) f = vecAddr k f := by
  simp only [vecAddr, sget_waiting]

@[simp] theorem laneAddr_waiting (u : Nat) (w : CWord) (k : Core) : laneAddr (waiting u w k) f = laneAddr k f := by
  funext n
  simp only [laneAddr, sget_waiting]

end

theorem ignoresQueues_sheafPut (off : Nat) (bs : List Byte) : IgnoresQueues (sheafPut off bs) := fun _ _ => rfl

theorem ne_nil_of_length {α : Type} {l : List α} {n : Nat} (h : l.length = n) (hn : 0 < n) : l ≠ [] := by
  rintro rfl
  simp at h
  omega

/-! ## The sheaf memory from a core in which an instruction waits (R91, R94) -/

/-- A range of a core's sheaf memory, aligned, in bounds and with no latent error anywhere. -/
def SheafOpen (s : State) (c off len align : Nat) : Prop :=
  s.inj = [] ∧ (coreOf s c).sheafErr = [] ∧ off % align = 0 ∧ off + len ≤ (coreOf s c).extent

section
variable {c u off align : Nat} {w : CWord} {s v : State} (hv : CoreOnly c (waiting u w (coreOf s c)) s v)
include hv

theorem sheafLoad_waiting {len : Nat} (h : SheafOpen s c off len align) (go : List Byte → State → ERes) :
    sheafLoad c off len align v go = go (Mp.slice 0#8 (coreOf s c).sheaf off len) v := by
  obtain ⟨hi, he, ha, hin⟩ := h
  rw [sheafLoad_clean go (hv.inj_nil hi) (by simpa [hv.1] using he) ha (by simpa [hv.1] using hin), hv.1, waiting_sheaf]

theorem sheafStore_waiting {bs : List Byte} (h : SheafOpen s c off bs.length align) (hb : bs ≠ []) :
    sheafStore c off align bs v = .done (updCore c (sheafPut off bs) v) := by
  obtain ⟨hi, he, ha, hin⟩ := h
  exact sheafStore_clean (hv.inj_nil hi) (by simpa [hv.1] using he) hb ha (by simpa [hv.1] using hin)

end

/-! ## 1,024 bytes of the sheaf memory -/

section
variable {c : Nat} {p : Pre} {f : FmtV} {s : State} (ho : SheafOpen s c (vecAddr (coreOf s c) f) 1024 64)
include ho

theorem vld_runs (h : CoreReady s c ⟨0x70#8, p, .v f⟩) (hp : predOk (coreOf s c) ⟨0x70#8, p, .v f⟩ = true) :
    CoreOnly c (vset f.vd (bytesWords (Mp.slice 0#8 (coreOf s c).sheaf (vecAddr (coreOf s c) f) 1024))
      (issued (veOf f) ⟨0x70#8, p, .v f⟩ (coreOf s c))) s (unitIssue c ⟨0x70#8, p, .v f⟩ s) := by
  refine unitIssue_vecUpdate h hp (ignoresQueues_vset _ _) fun v hv => ?_
  have heff : unitEffect c (coreOf s c).pc.toNat (unitEntry ⟨0x70#8, p, .v f⟩ (coreOf s c)) v = effVld c f v := rfl
  rw [heff, effVld, hv.1, vecAddr_waiting, sheafLoad_waiting hv ho]

theorem vst_runs (h : CoreReady s c ⟨0x71#8, p, .v f⟩) (hp : predOk (coreOf s c) ⟨0x71#8, p, .v f⟩ = true) :
    CoreOnly c (sheafPut (vecAddr (coreOf s c) f) (wordsBytes (vget (coreOf s c) f.va))
      (issued (veOf f) ⟨0x71#8, p, .v f⟩ (coreOf s c))) s (unitIssue c ⟨0x71#8, p, .v f⟩ s) := by
  have hlen : (wordsBytes (vget (coreOf s c) f.va)).length = 1024 := by rw [wordsBytes_length, vget_length]
  refine unitIssue_vecUpdate h hp (ignoresQueues_sheafPut _ _) fun v hv => ?_
  have heff : unitEffect c (coreOf s c).pc.toNat (unitEntry ⟨0x71#8, p, .v f⟩ (coreOf s c)) v = effVst c f v := rfl
  rw [heff, effVst, hv.1, vecAddr_waiting, vget_waiting, sheafStore_waiting hv (hlen ▸ ho) (ne_nil_of_length hlen (by omega))]

end

/-! ## Strided lanes (R91) -/

/-- A lane of VLDS: read where the lanes before it were, and taken to their front. -/
def loadLane (c : Nat) (addr : Nat → Nat) (r : List Word32 × ERes) (n : Nat) : List Word32 × ERes :=
  match r.2 with
  | .done s => match sheafLoad c (addr n) 4 4 s (fun _ s => .done s) with
    | .done s' => (BitVec.ofNat 32 (leNat (Mp.slice 0#8 (coreOf s' c).sheaf (addr n) 4)) :: r.1, .done s')
    | e => (r.1, e)
  | e => (r.1, e)

/-- A lane of VSTS: stored where the lanes before it were. -/
def storeLane (c : Nat) (addr : Nat → Nat) (val : Nat → List Byte) (r : ERes) (n : Nat) : ERes :=
  match r with
  | .done s => sheafStore c (addr n) 4 (val n) s
  | e => e

/-- The core after the lanes of VSTS, in order. -/
def lanesPut (addr : Nat → Nat) (val : Nat → List Byte) (l : List Nat) (k : Core) : Core :=
  l.foldl (fun q n => sheafPut (addr n) (val n) q) k

/-- What VLDS makes of the lanes it read. -/
def lanesLoaded (c : Nat) (r : BitVec 6) (q : List Word32 × ERes) : ERes :=
  match q.2 with
  | .done s => .done (updCore c (vset r q.1.reverse) s)
  | e => e

theorem effVlds_eq (c : Nat) (f : FmtV) (s : State) :
    effVlds c f s = lanesLoaded c f.vd ((List.range 256).foldl (loadLane c (laneAddr (coreOf s c) f)) ([], .done s)) := by
  unfold effVlds
  generalize List.range 256 = l
  rfl

theorem zipIdx_eq_map_range {α : Type} (d : α) {l : List α} {n : Nat} (h : l.length = n) :
    l.zipIdx = (List.range n).map fun i => ((l[i]?).getD d, i) := by
  refine List.ext_getElem (by simp [h]) fun i hi _ => ?_
  have hi : i < l.length := by simpa using hi
  simp [hi]

theorem effVsts_eq (c : Nat) (f : FmtV) (s : State) :
    effVsts c f s = (List.range 256).foldl (storeLane c (laneAddr (coreOf s c) f)
      (fun n => leBytes 4 (((vget (coreOf s c) f.va)[n]?).getD 0#32).toNat)) (.done s) := by
  simp only [effVsts, zipIdx_eq_map_range 0#32 (vget_length _ _), List.foldl_map]
  generalize List.range 256 = l
  rfl

section
variable {c : Nat} {addr : Nat → Nat} {l : List Nat}

/-- Lanes aligned, in bounds and without error are read one after another. -/
theorem foldl_loadLane {s : State} (hi : s.inj = []) (he : (coreOf s c).sheafErr = [])
    (ha : ∀ n ∈ l, addr n % 4 = 0 ∧ addr n + 4 ≤ (coreOf s c).extent) (acc : List Word32) :
    l.foldl (loadLane c addr) (acc, .done s) =
      ((l.map fun n => BitVec.ofNat 32 (leNat (Mp.slice 0#8 (coreOf s c).sheaf (addr n) 4))).reverse ++ acc, .done s) := by
  induction l generalizing acc with
  | nil => rfl
  | cons n l ih =>
    obtain ⟨halign, hin⟩ := ha n (List.mem_cons_self ..)
    have hlane : loadLane c addr (acc, .done s) n =
        (BitVec.ofNat 32 (leNat (Mp.slice 0#8 (coreOf s c).sheaf (addr n) 4)) :: acc, .done s) := by
      simp only [loadLane, sheafLoad_clean _ hi he halign hin]
    rw [List.foldl_cons, hlane, ih fun m hm => ha m (List.mem_cons_of_mem _ hm)]
    simp

/-- Lanes aligned, in bounds and without error are stored one after another, on the core alone. -/
theorem foldl_storeLane {val : Nat → List Byte} {k : Core} {s t : State} (hk : CoreOnly c k s t) (hi : s.inj = []) (he : k.sheafErr = [])
    (hval : ∀ n, (val n).length = 4) (ha : ∀ n ∈ l, addr n % 4 = 0 ∧ addr n + 4 ≤ k.extent) :
    ∃ t', l.foldl (storeLane c addr val) (.done t) = .done t' ∧ CoreOnly c (lanesPut addr val l k) s t' := by
  induction l generalizing k t with
  | nil => exact ⟨t, rfl, hk⟩
  | cons n l ih =>
    obtain ⟨halign, hin⟩ := ha n (List.mem_cons_self ..)
    have hstore : storeLane c addr val (.done t) n = .done (updCore c (sheafPut (addr n) (val n)) t) :=
      sheafStore_clean (hk.inj_nil hi) (hk.1 ▸ he) (ne_nil_of_length (hval n) (by omega)) halign (by rw [hval, hk.1]; exact hin)
    have herr : (sheafPut (addr n) (val n) k).sheafErr = [] := by rw [sheafPut_clean _ _ he]; exact he
    rw [List.foldl_cons, hstore]
    exact ih (hk.upd _) herr fun m hm => ha m (List.mem_cons_of_mem _ hm)

theorem ignoresQueues_lanesPut (val : Nat → List Byte) : IgnoresQueues (lanesPut addr val l) := by
  induction l with
  | nil => exact fun _ _ => rfl
  | cons n l ih => exact ih.comp (ignoresQueues_sheafPut (addr n) (val n))

end

section
variable {c : Nat} {p : Pre} {f : FmtV} {s : State} (hi : s.inj = []) (he : (coreOf s c).sheafErr = [])
  (ha : ∀ n < 256, laneAddr (coreOf s c) f n % 4 = 0 ∧ laneAddr (coreOf s c) f n + 4 ≤ (coreOf s c).extent)
include hi he ha

theorem vlds_runs (h : CoreReady s c ⟨0x74#8, p, .v f⟩) (hp : predOk (coreOf s c) ⟨0x74#8, p, .v f⟩ = true) :
    CoreOnly c (vset f.vd ((List.range 256).map fun n =>
        BitVec.ofNat 32 (leNat (Mp.slice 0#8 (coreOf s c).sheaf (laneAddr (coreOf s c) f n) 4)))
      (issued (veOf f) ⟨0x74#8, p, .v f⟩ (coreOf s c))) s (unitIssue c ⟨0x74#8, p, .v f⟩ s) := by
  refine unitIssue_vecUpdate h hp (ignoresQueues_vset _ _) fun v hv => ?_
  have heff : unitEffect c (coreOf s c).pc.toNat (unitEntry ⟨0x74#8, p, .v f⟩ (coreOf s c)) v = effVlds c f v := by
    simp [unitEffect, unitEntry]
  have hload := foldl_loadLane (c := c) (addr := laneAddr (coreOf v c) f) (l := List.range 256) (hv.inj_nil hi) (by simpa [hv.1] using he)
    (fun n hn => by simpa [hv.1] using ha n (List.mem_range.1 hn)) []
  rw [heff, effVlds_eq, hload, lanesLoaded, List.append_nil, List.reverse_reverse]
  simp only [hv.1, laneAddr_waiting, waiting_sheaf]

theorem vsts_runs (h : CoreReady s c ⟨0x75#8, p, .v f⟩) (hp : predOk (coreOf s c) ⟨0x75#8, p, .v f⟩ = true) :
    CoreOnly c (lanesPut (laneAddr (coreOf s c) f) (fun n => leBytes 4 (((vget (coreOf s c) f.va)[n]?).getD 0#32).toNat) (List.range 256)
        (issued (veOf f) ⟨0x75#8, p, .v f⟩ (coreOf s c))) s
      (unitIssue c ⟨0x75#8, p, .v f⟩ s) := by
  have hbegin : CoreOnly c (waiting (veOf f) ⟨0x75#8, p, .v f⟩ (coreOf s c)) s
      (setCore c (waiting (veOf f) ⟨0x75#8, p, .v f⟩ (coreOf s c)) s) := (CoreOnly.refl c s).set _
  obtain ⟨t, hrun, ht⟩ := foldl_storeLane (l := List.range 256) (addr := laneAddr (coreOf s c) f)
    (val := fun n => leBytes 4 (((vget (coreOf s c) f.va)[n]?).getD 0#32).toNat) hbegin hi (by simpa using he)
    (fun _ => leBytes_length ..) (fun n hn => by simpa using ha n (List.mem_range.1 hn))
  refine unitIssue_vector (t := t) h hp (ignoresQueues_lanesPut _) ?_ ht
  have heff (v : State) : unitEffect c (coreOf s c).pc.toNat (unitEntry ⟨0x75#8, p, .v f⟩ (coreOf s c)) v = effVsts c f v := by
    simp [unitEffect, unitEntry]
  rw [heff, effVsts_eq, hbegin.1]
  simpa only [laneAddr_waiting, vget_waiting] using hrun

end

/-! ## Global memory (R87) -/

section
variable {c : Nat} {o : Byte} {p : Pre} {f : FmtV} {s x : State}

/-- The tenant a waiting instruction accesses memory for is that of the core's task. -/
theorem coreTaskTenant_waiting (u : Nat) (w : CWord) : coreTaskTenant (setCore c (waiting u w (coreOf s c)) s) c = coreTaskTenant s c := by
  unfold coreTaskTenant
  rw [coreOf_setCore, waiting_task]
  rfl

/-- A format-V word whose access leaves the state `x`, in which the cores stand as it began, and that then updates its core. -/
theorem unitIssue_vecAccess {F : Core → Core} (h : CoreReady s c ⟨o, p, .v f⟩) (hp : predOk (coreOf s c) ⟨o, p, .v f⟩ = true)
    (hF : IgnoresQueues F) (hx : x.cores = (setCore c (waiting (veOf f) ⟨o, p, .v f⟩ (coreOf s c)) s).cores)
    (he : unitEffect c (coreOf s c).pc.toNat (unitEntry ⟨o, p, .v f⟩ (coreOf s c))
      (setCore c (waiting (veOf f) ⟨o, p, .v f⟩ (coreOf s c)) s) = .done (updCore c F x)) :
    CoreOnly c (F (issued (veOf f) ⟨o, p, .v f⟩ (coreOf s c))) x (unitIssue c ⟨o, p, .v f⟩ s) := by
  have hcore : coreOf x c = waiting (veOf f) ⟨o, p, .v f⟩ (coreOf s c) := (coreOf_of_cores hx c).trans (coreOf_setCore ..)
  exact unitIssue_vector h hp hF he (hcore ▸ (CoreOnly.refl c x).upd F)

theorem vldg_runs {bs : List Byte} (h : CoreReady s c ⟨0x72#8, p, .v f⟩) (hp : predOk (coreOf s c) ⟨0x72#8, p, .v f⟩ = true)
    (ha : vecAddr (coreOf s c) f % 64 = 0)
    (hread : vread (.core c) (coreTaskTenant s c) (vecAddr (coreOf s c) f) 1024 accRead
      (setCore c (waiting (veOf f) ⟨0x72#8, p, .v f⟩ (coreOf s c)) s) = (.ok bs, x))
    (hx : x.cores = (setCore c (waiting (veOf f) ⟨0x72#8, p, .v f⟩ (coreOf s c)) s).cores) :
    CoreOnly c (vset f.vd (bytesWords bs) (issued (veOf f) ⟨0x72#8, p, .v f⟩ (coreOf s c))) x (unitIssue c ⟨0x72#8, p, .v f⟩ s) := by
  refine unitIssue_vecAccess h hp (ignoresQueues_vset _ _) hx ?_
  have heff (v : State) : unitEffect c (coreOf s c).pc.toNat (unitEntry ⟨0x72#8, p, .v f⟩ (coreOf s c)) v =
    effVldg c (coreOf s c).pc.toNat f v := rfl
  rw [heff, effVldg, coreOf_setCore, vecAddr_waiting, coreTaskTenant_waiting, if_neg (by simpa using ha), hread]

theorem vstg_runs {bs : List Byte} (h : CoreReady s c ⟨0x73#8, p, .v f⟩) (hp : predOk (coreOf s c) ⟨0x73#8, p, .v f⟩ = true)
    (ha : vecAddr (coreOf s c) f % 64 = 0)
    (hwrite : vwrite (.core c) (coreTaskTenant s c) (vecAddr (coreOf s c) f) (wordsBytes (vget (coreOf s c) f.va)) accWrite
      (setCore c (waiting (veOf f) ⟨0x73#8, p, .v f⟩ (coreOf s c)) s) = (.ok bs, x))
    (hx : x.cores = (setCore c (waiting (veOf f) ⟨0x73#8, p, .v f⟩ (coreOf s c)) s).cores) :
    CoreOnly c (issued (veOf f) ⟨0x73#8, p, .v f⟩ (coreOf s c)) x (unitIssue c ⟨0x73#8, p, .v f⟩ s) := by
  have hcore : coreOf x c = waiting (veOf f) ⟨0x73#8, p, .v f⟩ (coreOf s c) := (coreOf_of_cores hx c).trans (coreOf_setCore ..)
  refine unitIssue_vector (F := id) (t := x) h hp (fun _ _ => rfl) ?_ (hcore ▸ CoreOnly.refl c x)
  have heff (v : State) : unitEffect c (coreOf s c).pc.toNat (unitEntry ⟨0x73#8, p, .v f⟩ (coreOf s c)) v =
    effVstg c (coreOf s c).pc.toNat f v := rfl
  rw [heff, effVstg, coreOf_setCore, vecAddr_waiting, vget_waiting, coreTaskTenant_waiting, if_neg (by simpa using ha), hwrite]

end

/-- Settles O16: whole vectors and strided lanes of the sheaf memory, and whole vectors of global memory (R87, R91, log entry 307). -/
theorem vectorMemory : Obligations.VectorMemory := by
  unfold Obligations.VectorMemory
  refine ⟨?sheaf, ?global⟩
  case sheaf =>
    intro c p f s hi he u ready k a lanes
    exact ⟨fun ⟨h, hp⟩ ha hin => ⟨_, rfl, vld_runs ⟨hi, he, ha, hin⟩ h hp⟩,
      fun ⟨h, hp⟩ ha hin => ⟨_, rfl, vst_runs ⟨hi, he, ha, hin⟩ h hp⟩,
      fun ⟨h, hp⟩ ha => ⟨_, rfl, vlds_runs hi he ha h hp⟩, fun ⟨h, hp⟩ ha => ⟨_, rfl, vsts_runs hi he ha h hp⟩⟩
  case global =>
    intro c p f s u ready k v a
    exact ⟨fun bs x ⟨h, hp⟩ ha hread hx => ⟨_, rfl, vldg_runs h hp ha hread hx⟩,
      fun bs x ⟨h, hp⟩ ha hwrite hx => ⟨_, rfl, vstg_runs h hp ha hwrite hx⟩⟩

end Sys2Proof.Machine
end

section
/-! The tile unit and the moves of the accumulators (R74, R77, R81, R91): each writes one register or stores one to the sheaf memory. -/

namespace Sys2Proof.Machine

/-! ## One rule for the format-T words -/

/-- A legal format-T word is no DMAQ (R77). -/
theorem legal_t_ne_dmaq {o : Byte} {p : Pre} {f : FmtT} (h : legal ⟨o, p, .t f⟩ = true) : o ≠ 0xB0#8 := by
  rintro rfl
  simp [legal, opFormat] at h

/-- Opcodes of group 8 run on the tile unit (R68). -/
theorem unitOf_tile {o : Byte} (p : Pre) (f : FmtT) (ho : o.toNat / 16 = 8) : unitOf ⟨o, p, .t f⟩ = some 10 := if_pos ho

/-- The other format-T opcodes run on the tensor engine of their accumulator (R68). -/
theorem unitOf_tensor {o : Byte} (p : Pre) (f : FmtT) (ho : o.toNat / 16 ≠ 8) : unitOf ⟨o, p, .t f⟩ = some (teOf f) := if_neg ho

section
variable {c u : Nat} {o : Byte} {p : Pre} {f : FmtT} {s : State}

/-- A format-T word starts on its unit as it is issued, and its operation leaves all but its core alone. -/
theorem unitIssue_tileStarts {F : Core → Core} (hu : unitOf ⟨o, p, .t f⟩ = some u) (hF : IgnoresQueues F)
    (h : CoreReady s c ⟨o, p, .t f⟩) (hp : predOk (coreOf s c) ⟨o, p, .t f⟩ = true)
    (he : ∀ v, CoreOnly c (waiting u ⟨o, p, .t f⟩ (coreOf s c)) s v →
      ∃ t, unitEffect c (coreOf s c).pc.toNat (unitEntry ⟨o, p, .t f⟩ (coreOf s c)) v = .done t ∧
        CoreOnly c (F (waiting u ⟨o, p, .t f⟩ (coreOf s c))) s t) :
    CoreOnly c (F (issued u ⟨o, p, .t f⟩ (coreOf s c))) s (unitIssue c ⟨o, p, .t f⟩ s) := by
  have hlt : u < 11 := by
    have had := f.ad.isLt
    simp only [unitOf] at hu
    split at hu <;> simp only [Option.some.injEq] at hu <;> omega
  obtain ⟨t, hdone, ht⟩ := he _ ((CoreOnly.refl c s).set _)
  exact unitIssue_starts h hp hu hlt (legal_t_ne_dmaq h.legal) hF hdone ht

/-- A format-T word whose operation is one update of its core. -/
theorem unitIssue_tileUpdate {F : Core → Core} (hu : unitOf ⟨o, p, .t f⟩ = some u) (hF : IgnoresQueues F)
    (h : CoreReady s c ⟨o, p, .t f⟩) (hp : predOk (coreOf s c) ⟨o, p, .t f⟩ = true)
    (he : ∀ v, CoreOnly c (waiting u ⟨o, p, .t f⟩ (coreOf s c)) s v →
      unitEffect c (coreOf s c).pc.toNat (unitEntry ⟨o, p, .t f⟩ (coreOf s c)) v = .done (updCore c F v)) :
    CoreOnly c (F (issued u ⟨o, p, .t f⟩ (coreOf s c))) s (unitIssue c ⟨o, p, .t f⟩ s) :=
  unitIssue_tileStarts hu hF h hp fun v hv => ⟨_, he v hv, hv.upd F⟩

end

theorem ignoresQueues_tset (r off : Nat) (bs : List Byte) : IgnoresQueues (tset r off bs) := fun _ _ => rfl

theorem aget_length (k : Core) (r : BitVec 4) : (aget k r).length = 8192 := Mp.slice_length ..
theorem tget_length (k : Core) (r n : Nat) : (tget k r n).length = n := Mp.slice_length ..

/-! ## Clears and loads -/

section
variable {c : Nat} {p : Pre} {f : FmtT} {s : State}

theorem tzero_runs (h : CoreReady s c ⟨0x83#8, p, .t f⟩) (hp : predOk (coreOf s c) ⟨0x83#8, p, .t f⟩ = true) :
    CoreOnly c (tset f.td.toNat 0 (List.replicate 32768 0#8) (issued 10 ⟨0x83#8, p, .t f⟩ (coreOf s c))) s
      (unitIssue c ⟨0x83#8, p, .t f⟩ s) :=
  unitIssue_tileUpdate (unitOf_tile p f (by decide)) (ignoresQueues_tset _ _ _) h hp fun _ _ => rfl

theorem azero_runs (h : CoreReady s c ⟨0x91#8, p, .t f⟩) (hp : predOk (coreOf s c) ⟨0x91#8, p, .t f⟩ = true) :
    CoreOnly c (aset f.ad (List.replicate 8192 0#32) (issued (teOf f) ⟨0x91#8, p, .t f⟩ (coreOf s c))) s
      (unitIssue c ⟨0x91#8, p, .t f⟩ s) :=
  unitIssue_tileUpdate (unitOf_tensor p f (by decide)) (ignoresQueues_aset _ _) h hp fun _ _ => rfl

theorem tld_runs (ho : SheafOpen s c (sget (coreOf s c) f.sa).toNat f.imm.toNat 64)
    (h : CoreReady s c ⟨0x80#8, p, .t f⟩) (hp : predOk (coreOf s c) ⟨0x80#8, p, .t f⟩ = true) :
    CoreOnly c (tset f.td.toNat 0 (Mp.slice 0#8 (coreOf s c).sheaf (sget (coreOf s c) f.sa).toNat f.imm.toNat)
      (issued 10 ⟨0x80#8, p, .t f⟩ (coreOf s c))) s (unitIssue c ⟨0x80#8, p, .t f⟩ s) := by
  refine unitIssue_tileUpdate (unitOf_tile p f (by decide)) (ignoresQueues_tset _ _ _) h hp fun v hv => ?_
  have heff : unitEffect c (coreOf s c).pc.toNat (unitEntry ⟨0x80#8, p, .t f⟩ (coreOf s c)) v = effTld c f v := rfl
  rw [heff, effTld, hv.1, sget_waiting, sheafLoad_waiting hv ho]

theorem tldt_runs (ho : SheafOpen s c (sget (coreOf s c) f.sa).toNat
      (f.imm.toNat % 65536 * (f.imm.toNat / 65536) * tldtSize f.ofmt.toNat) 64)
    (h : CoreReady s c ⟨0x82#8, p, .t f⟩) (hp : predOk (coreOf s c) ⟨0x82#8, p, .t f⟩ = true) :
    CoreOnly c (tset f.td.toNat 0 (transposeBytes (f.imm.toNat % 65536) (f.imm.toNat / 65536) (tldtSize f.ofmt.toNat)
        (Mp.slice 0#8 (coreOf s c).sheaf (sget (coreOf s c) f.sa).toNat
          (f.imm.toNat % 65536 * (f.imm.toNat / 65536) * tldtSize f.ofmt.toNat)))
      (issued 10 ⟨0x82#8, p, .t f⟩ (coreOf s c))) s (unitIssue c ⟨0x82#8, p, .t f⟩ s) := by
  refine unitIssue_tileUpdate (unitOf_tile p f (by decide)) (ignoresQueues_tset _ _ _) h hp fun v hv => ?_
  have heff : unitEffect c (coreOf s c).pc.toNat (unitEntry ⟨0x82#8, p, .t f⟩ (coreOf s c)) v = effTldt c f v := rfl
  simp only [heff, effTldt, hv.1, sget_waiting, sheafLoad_waiting hv ho]

theorem ald_runs (ho : SheafOpen s c (sget (coreOf s c) f.sa).toNat 32768 64)
    (h : CoreReady s c ⟨0x93#8, p, .t f⟩) (hp : predOk (coreOf s c) ⟨0x93#8, p, .t f⟩ = true) :
    CoreOnly c (aset f.ad (bytesWords (Mp.slice 0#8 (coreOf s c).sheaf (sget (coreOf s c) f.sa).toNat 32768))
      (issued (teOf f) ⟨0x93#8, p, .t f⟩ (coreOf s c))) s (unitIssue c ⟨0x93#8, p, .t f⟩ s) := by
  refine unitIssue_tileUpdate (unitOf_tensor p f (by decide)) (ignoresQueues_aset _ _) h hp fun v hv => ?_
  have heff : unitEffect c (coreOf s c).pc.toNat (unitEntry ⟨0x93#8, p, .t f⟩ (coreOf s c)) v = effAld c f v := rfl
  rw [heff, effAld, hv.1, sget_waiting, sheafLoad_waiting hv ho]

end

/-! ## Stores -/

/-- A store, and what follows on its core where it succeeds. -/
def storedThen (c : Nat) (F : Core → Core) (r : ERes) : ERes :=
  match r with
  | .done s => .done (updCore c F s)
  | e => e

/-- A store of no bytes does nothing. -/
theorem sheafStore_nil {c off align : Nat} {v : State} (ha : off % align = 0) (hin : off ≤ (coreOf v c).extent) :
    sheafStore c off align [] v = .done v := by
  simp only [sheafStore, sheafCheck_none ha (show off + [].length ≤ _ from hin), sheafWrite, List.isEmpty_nil, if_true]

theorem flatMap_leBytes_length (n : Nat) (rs : List (Nat × Flags)) : (rs.flatMap fun q => leBytes n q.1).length = rs.length * n := by
  simp [List.length_flatMap, leBytes_length]

/-- The formats AST narrows to hold whole bytes (R74, R81). -/
theorem codeElem_bytes {o : Nat} (hlo : 3 ≤ o) (hhi : o ≤ 7) : 0 < (codeElem o).width / 8 := by
  interval_cases o <;> decide

section
variable {c : Nat} {p : Pre} {f : FmtT} {s : State}

theorem tst_runs (ho : SheafOpen s c (sget (coreOf s c) f.sa).toNat f.imm.toNat 64)
    (h : CoreReady s c ⟨0x81#8, p, .t f⟩) (hp : predOk (coreOf s c) ⟨0x81#8, p, .t f⟩ = true) :
    CoreOnly c (if f.imm.toNat = 0 then issued 10 ⟨0x81#8, p, .t f⟩ (coreOf s c)
      else sheafPut (sget (coreOf s c) f.sa).toNat (tget (coreOf s c) f.td.toNat f.imm.toNat) (issued 10 ⟨0x81#8, p, .t f⟩ (coreOf s c))) s
      (unitIssue c ⟨0x81#8, p, .t f⟩ s) := by
  have heff (v : State) : unitEffect c (coreOf s c).pc.toNat (unitEntry ⟨0x81#8, p, .t f⟩ (coreOf s c)) v = effTst c f v := rfl
  have hlen := tget_length (coreOf s c) f.td.toNat f.imm.toNat
  by_cases hn : f.imm.toNat = 0
  · rw [if_pos hn]
    refine unitIssue_tileStarts (F := id) (unitOf_tile p f (by decide)) (fun _ _ => rfl) h hp fun v hv => ⟨v, ?_, hv⟩
    obtain ⟨-, -, ha, hin⟩ := ho
    rw [hn] at hlen
    rw [heff, effTst, hv.1, sget_waiting, tget_waiting, hn, List.eq_nil_of_length_eq_zero hlen]
    exact sheafStore_nil ha (by simpa [hv.1] using le_of_add_le_left hin)
  · rw [if_neg hn]
    refine unitIssue_tileUpdate (unitOf_tile p f (by decide)) (ignoresQueues_sheafPut _ _) h hp fun v hv => ?_
    rw [heff, effTst, hv.1, sget_waiting, tget_waiting]
    exact sheafStore_waiting hv (hlen.symm ▸ ho) (ne_nil_of_length hlen (Nat.pos_of_ne_zero hn))

/-- AST of whole accumulators, in FP32 and INT32 alike (R81). -/
theorem ast_whole_runs (hf : f.ofmt = 15#4) (ho : SheafOpen s c (sget (coreOf s c) f.sa).toNat 32768 64)
    (h : CoreReady s c ⟨0x92#8, p, .t f⟩) (hp : predOk (coreOf s c) ⟨0x92#8, p, .t f⟩ = true) :
    CoreOnly c (sheafPut (sget (coreOf s c) f.sa).toNat (wordsBytes (aget (coreOf s c) f.ad))
      (issued (teOf f) ⟨0x92#8, p, .t f⟩ (coreOf s c))) s (unitIssue c ⟨0x92#8, p, .t f⟩ s) := by
  have hlen : (wordsBytes (aget (coreOf s c) f.ad)).length = 32768 := by rw [wordsBytes_length, aget_length]
  have hcode : f.ofmt.toNat = 15 := by rw [hf]; rfl
  refine unitIssue_tileUpdate (unitOf_tensor p f (by decide)) (ignoresQueues_sheafPut _ _) h hp fun v hv => ?_
  have heff : unitEffect c (coreOf s c).pc.toNat (unitEntry ⟨0x92#8, p, .t f⟩ (coreOf s c)) v = effAst c p f v := rfl
  simp only [heff, effAst, hcode, if_true, hv.1, sget_waiting, aget_waiting]
  exact sheafStore_waiting hv (hlen.symm ▸ ho) (ne_nil_of_length hlen (by omega))

/-- The elements AST narrows an accumulator to, with their flags (R81). -/
def astElems (f : FmtT) (m : Mode) (g : Eng) (a : List Word32) : List (Nat × Flags) :=
  a.mapIdx fun e x =>
    if f.ofmt = 5#4 then intNarrow 8 rndNear (numOfInt (sext 32 x.toNat))
    else (codeElem f.ofmt.toNat).narrow (rndFor g m 0 e) (satOf g) (fmtFP32.decode x.toNat)

theorem astElems_length (f : FmtT) (m : Mode) (g : Eng) (a : List Word32) : (astElems f m g a).length = a.length := List.length_mapIdx

/-- The rounding mode of AST: none in INT8 (R81). -/
def astMode (p : Pre) (f : FmtT) (g : Eng) : Mode := if f.ofmt = 5#4 then .rne else effMode g p.rnd

/-- AST in a narrower format stores its elements, then raises their flags. -/
theorem effAst_narrow {v : State} (hf : f.ofmt ≠ 15#4) :
    effAst c p f v =
      let g := engOf (coreOf v c) (teOf f)
      let m := astMode p f g
      let rs := astElems f m g (aget (coreOf v c) f.ad)
      storedThen c (advanceSeq (teOf f) m 1 ∘ raiseFlags (teOf f) (orFlags (rs.map (·.2))))
        (sheafStore c (sget (coreOf v c) f.sa).toNat 64 (rs.flatMap fun q => leBytes ((codeElem f.ofmt.toNat).width / 8) q.1) v) := by
  have hcode : f.ofmt.toNat ≠ 15 := fun h => hf (BitVec.eq_of_toNat_eq h)
  have hint : f.ofmt.toNat = 5 ↔ f.ofmt = 5#4 := ⟨fun h => BitVec.eq_of_toNat_eq h, fun h => by rw [h]; rfl⟩
  simp only [effAst, hcode, if_false, hint, astElems, astMode]
  rfl

/-- A legal AST names a narrower format by its code, 3 to 7 (R74). -/
theorem ofmt_of_ast (h : legal ⟨0x92#8, p, .t f⟩ = true) (hf : f.ofmt ≠ 15#4) : 3 ≤ f.ofmt.toNat ∧ f.ofmt.toNat ≤ 7 := by
  simp only [legal, Bool.and_eq_true] at h
  simpa [legalT, hf] using h.2.2

theorem ast_narrow_runs (hf : f.ofmt ≠ 15#4)
    (ho : SheafOpen s c (sget (coreOf s c) f.sa).toNat (8192 * ((codeElem f.ofmt.toNat).width / 8)) 64)
    (h : CoreReady s c ⟨0x92#8, p, .t f⟩) (hp : predOk (coreOf s c) ⟨0x92#8, p, .t f⟩ = true) :
    let g := engOf (coreOf s c) (teOf f)
    let m := astMode p f g
    let rs := astElems f m g (aget (coreOf s c) f.ad)
    CoreOnly c (advanceSeq (teOf f) m 1 (raiseFlags (teOf f) (orFlags (rs.map (·.2)))
      (sheafPut (sget (coreOf s c) f.sa).toNat (rs.flatMap fun q => leBytes ((codeElem f.ofmt.toNat).width / 8) q.1)
        (issued (teOf f) ⟨0x92#8, p, .t f⟩ (coreOf s c))))) s (unitIssue c ⟨0x92#8, p, .t f⟩ s) := by
  intro g m rs
  obtain ⟨hlo, hhi⟩ := ofmt_of_ast h.legal hf
  have hwidth := codeElem_bytes hlo hhi
  have hlen : (rs.flatMap fun q => leBytes ((codeElem f.ofmt.toNat).width / 8) q.1).length =
      8192 * ((codeElem f.ofmt.toNat).width / 8) := by
    rw [flatMap_leBytes_length, astElems_length, aget_length]
  have hflags := (ignoresQueues_advanceSeq (teOf f) m 1).comp (ignoresQueues_raiseFlags (teOf f) (orFlags (rs.map (·.2))))
  have hstore := ignoresQueues_sheafPut (sget (coreOf s c) f.sa).toNat (rs.flatMap fun q => leBytes ((codeElem f.ofmt.toNat).width / 8) q.1)
  refine unitIssue_tileStarts (unitOf_tensor p f (by decide)) (hflags.comp hstore) h hp fun v hv =>
    ⟨_, ?_, (hv.upd (sheafPut _ _)).upd (advanceSeq (teOf f) m 1 ∘ raiseFlags (teOf f) _)⟩
  have heff : unitEffect c (coreOf s c).pc.toNat (unitEntry ⟨0x92#8, p, .t f⟩ (coreOf s c)) v = effAst c p f v := rfl
  simp only [heff, effAst_narrow hf, hv.1, engOf_waiting, sget_waiting, aget_waiting]
  rw [sheafStore_waiting hv (hlen.symm ▸ ho) (ne_nil_of_length hlen (by omega))]
  rfl

end

/-- Settles O18: the clears, the loads and the stores of tiles and of accumulators (R77, R81, R91, log entry 307). -/
theorem tileAndAccumulatorMoves : Obligations.TileAndAccumulatorMoves := by
  unfold Obligations.TileAndAccumulatorMoves
  intro c p f s ready k a n bytes rows cols inside
  exact ⟨fun ⟨h, hp⟩ => ⟨_, rfl, tzero_runs h hp⟩, fun ⟨h, hp⟩ => ⟨_, rfl, azero_runs h hp⟩,
    fun ⟨h, hp⟩ ho => ⟨_, rfl, tld_runs ho h hp⟩, fun ⟨h, hp⟩ ho => ⟨_, rfl, tst_runs ho h hp⟩,
    fun ⟨h, hp⟩ ho => ⟨_, rfl, tldt_runs ho h hp⟩, fun ⟨h, hp⟩ ho => ⟨_, rfl, ald_runs ho h hp⟩,
    fun ⟨h, hp⟩ hf ho => ⟨_, rfl, ast_whole_runs hf ho h hp⟩, fun ⟨h, hp⟩ hf ho => ⟨_, rfl, ast_narrow_runs hf ho h hp⟩⟩

end Sys2Proof.Machine
end

section
/-! The row units of the tensor engines (R79 to R81): sums, maxima and scalings of the rows of an accumulator, and the online-softmax
step. -/

namespace Sys2Proof.Machine

/-! ## Row by row -/

/-- A vector result of a tensor engine: its lanes and its flags. -/
def rowsOut (f : FmtT) (v : List Word32) (fl : Flags) (k : Core) : Core := raiseFlags (teOf f) fl (vset f.vs v k)

/-- A rewritten accumulator of a tensor engine: its elements and its flags. -/
def rowsBack (f : FmtT) (a : List Word32) (fl : Flags) (k : Core) : Core := raiseFlags (teOf f) fl (aset f.ad a k)

theorem ignoresQueues_rowsOut (f : FmtT) (v : List Word32) (fl : Flags) : IgnoresQueues (rowsOut f v fl) :=
  (ignoresQueues_raiseFlags _ _).comp (ignoresQueues_vset _ _)

theorem ignoresQueues_rowsBack (f : FmtT) (a : List Word32) (fl : Flags) : IgnoresQueues (rowsBack f a fl) :=
  (ignoresQueues_raiseFlags _ _).comp (ignoresQueues_aset _ _)

section
variable {c : Nat} {o : Byte} {p : Pre} {f : FmtT} {s : State}

/-- A row-unit word that gives one value for each row (R77). -/
theorem unitIssue_rowsToVec {op : Bool → List Nat → Nat × Flags} (ho : o.toNat / 16 ≠ 8)
    (he : ∀ v, unitEffect c (coreOf s c).pc.toNat (unitEntry ⟨o, p, .t f⟩ (coreOf s c)) v = rowsToVec c f op v)
    (h : CoreReady s c ⟨o, p, .t f⟩) (hp : predOk (coreOf s c) ⟨o, p, .t f⟩ = true) :
    let rs := (List.range 64).map fun i => op (ftzOf (engOf (coreOf s c) (teOf f))) (rowOf (aget (coreOf s c) f.ad) i)
    CoreOnly c (rowsOut f (rs.map (fun q => BitVec.ofNat 32 q.1) ++ (vget (coreOf s c) f.vs).drop 64) (orFlags (rs.map (·.2)))
      (issued (teOf f) ⟨o, p, .t f⟩ (coreOf s c))) s (unitIssue c ⟨o, p, .t f⟩ s) :=
  unitIssue_tileUpdate (unitOf_tensor p f ho) (ignoresQueues_rowsOut _ _ _) h hp fun v hv => by
    simp only [he v, rowsToVec, hv.1, aget_waiting, engOf_waiting, vget_waiting]
    rfl

/-- A row-unit word that rewrites every row of its accumulator. -/
theorem unitIssue_rowScale {op : Bool → List Word32 → Nat → List Nat → List (Nat × Flags)} (ho : o.toNat / 16 ≠ 8)
    (he : ∀ v, unitEffect c (coreOf s c).pc.toNat (unitEntry ⟨o, p, .t f⟩ (coreOf s c)) v = rowScale c f op v)
    (h : CoreReady s c ⟨o, p, .t f⟩) (hp : predOk (coreOf s c) ⟨o, p, .t f⟩ = true) :
    let rs := (List.range 64).flatMap fun i =>
      op (ftzOf (engOf (coreOf s c) (teOf f))) (vget (coreOf s c) f.vs) i (rowOf (aget (coreOf s c) f.ad) i)
    CoreOnly c (rowsBack f (rs.map fun q => BitVec.ofNat 32 q.1) (orFlags (rs.map (·.2)))
      (issued (teOf f) ⟨o, p, .t f⟩ (coreOf s c))) s (unitIssue c ⟨o, p, .t f⟩ s) :=
  unitIssue_tileUpdate (unitOf_tensor p f ho) (ignoresQueues_rowsBack _ _ _) h hp fun v hv => by
    simp only [he v, rowScale, hv.1, aget_waiting, engOf_waiting, vget_waiting]
    rfl

/-- A row scaled by the reciprocal of its sum, or cleared where the sum is +0 (R80). -/
def normRow (z : Bool) (v : List Word32) (i : Nat) (row : List Nat) : List (Nat × Flags) :=
  row.map fun x =>
    if lane v (64 + i) = 0 then (0, 0#32)
    else ((fpMul fmtFP32 rndNear z x (fpRcp z (lane v (64 + i))).1).1,
      (fpMul fmtFP32 rndNear z x (fpRcp z (lane v (64 + i))).1).2 ||| (fpRcp z (lane v (64 + i))).2)

theorem effAnorm_eq (c : Nat) (f : FmtT) : effAnorm c f = rowScale c f normRow := by
  unfold effAnorm
  congr 1
  funext z v i row
  by_cases hl : lane v (64 + i) = 0 <;> simp only [normRow, hl, if_true, if_false]

theorem ardv_runs (h : CoreReady s c ⟨0x94#8, p, .t f⟩) (hp : predOk (coreOf s c) ⟨0x94#8, p, .t f⟩ = true) :
    CoreOnly c (vset f.vs (((aget (coreOf s c) f.ad).drop (128 * f.imm.toNat)).take 256)
      (issued (teOf f) ⟨0x94#8, p, .t f⟩ (coreOf s c))) s (unitIssue c ⟨0x94#8, p, .t f⟩ s) := by
  refine unitIssue_tileUpdate (unitOf_tensor p f (by decide)) (ignoresQueues_vset _ _) h hp fun v hv => ?_
  have heff : unitEffect c (coreOf s c).pc.toNat (unitEntry ⟨0x94#8, p, .t f⟩ (coreOf s c)) v = effArdv c f v := rfl
  rw [heff, effArdv, hv.1, aget_waiting]

theorem awrv_runs (h : CoreReady s c ⟨0x95#8, p, .t f⟩) (hp : predOk (coreOf s c) ⟨0x95#8, p, .t f⟩ = true) :
    CoreOnly c (aset f.ad ((aget (coreOf s c) f.ad).take (128 * f.imm.toNat) ++ vget (coreOf s c) f.vs ++
        (aget (coreOf s c) f.ad).drop (128 * f.imm.toNat + 256))
      (issued (teOf f) ⟨0x95#8, p, .t f⟩ (coreOf s c))) s (unitIssue c ⟨0x95#8, p, .t f⟩ s) := by
  refine unitIssue_tileUpdate (unitOf_tensor p f (by decide)) (ignoresQueues_aset _ _) h hp fun v hv => ?_
  have heff : unitEffect c (coreOf s c).pc.toNat (unitEntry ⟨0x95#8, p, .t f⟩ (coreOf s c)) v = effAwrv c f v := rfl
  rw [heff, effAwrv, hv.1, aget_waiting, vget_waiting]

end

/-! ## The online-softmax step (R79) -/

/-- The 64 rows of ASMX. -/
def asmxRows (f : FmtT) (k : Core) : List SmxRow :=
  let g := engOf k (teOf f)
  let v := vget k f.vs
  let pos := (sget k f.sa).toNat
  (List.range 64).map fun i =>
    smxRow (ftzOf g) (satOf g) (if f.ofmt = 6#4 then fmtBF16 else fmtE4M3) f.imm.toNat
      (fun j => f.mask == 1#3 && decide (pos % 2 ^ 32 + i < pos / 2 ^ 32 + j)) (rowOf (aget k f.ad) i)
      (if f.clr then negInf32 else lane v i) (if f.clr then 0 else lane v (64 + i))

/-- The lanes ASMX writes: the maxima, the sums and the scales of its rows, and the rest as they were. -/
def asmxLanes (f : FmtT) (k : Core) : List Word32 :=
  (asmxRows f k).map (fun r => BitVec.ofNat 32 r.m) ++ (asmxRows f k).map (fun r => BitVec.ofNat 32 r.l)
    ++ (asmxRows f k).map (fun r => BitVec.ofNat 32 r.alpha) ++ (vget k f.vs).drop 192

/-- The probabilities of ASMX, as the tiles they are written as. -/
def asmxTiles (f : FmtT) (k : Core) : List (List Byte) := smxTiles (f.ofmt == 6#4) ((asmxRows f k).map (·.p))

/-- ASMX's lanes and flags, found in the core `k0`. -/
def asmxOut (f : FmtT) (k0 : Core) : Core → Core := rowsOut f (asmxLanes f k0) (orFlags ((asmxRows f k0).map (·.fl)))

/-- The tiles written to the tile registers from P on. -/
def tilesPut (f : FmtT) (tiles : List (List Byte)) (k : Core) : Core :=
  tiles.zipIdx.foldl (fun k q => tset (f.pt.toNat % 8 + q.2) 0 q.1 k) k

theorem effAsmx_eq (c : Nat) (f : FmtT) (s : State) :
    effAsmx c f s = if f.psrc then
        storedThen c (asmxOut f (coreOf s c)) (sheafStore c (sget (coreOf s c) f.pt).toNat 64 (asmxTiles f (coreOf s c)).flatten s)
      else .done (updCore c (asmxOut f (coreOf s c)) (updCore c (tilesPut f (asmxTiles f (coreOf s c))) s)) := by
  simp only [effAsmx, asmxOut, asmxLanes, asmxTiles, asmxRows, beq_iff_eq]
  rfl

section
variable (u : Nat) (w : CWord) (k : Core) (f : FmtT)

@[simp] theorem asmxRows_waiting : asmxRows f (waiting u w k) = asmxRows f k := by
  simp only [asmxRows, engOf_waiting, vget_waiting, sget_waiting, aget_waiting]

@[simp] theorem asmxTiles_waiting : asmxTiles f (waiting u w k) = asmxTiles f k := by simp only [asmxTiles, asmxRows_waiting]

@[simp] theorem asmxOut_waiting : asmxOut f (waiting u w k) = asmxOut f k := by
  simp only [asmxOut, asmxLanes, asmxRows_waiting, vget_waiting]

end

theorem ignoresQueues_tilesPut (f : FmtT) (tiles : List (List Byte)) : IgnoresQueues (tilesPut f tiles) := by
  unfold tilesPut
  induction tiles.zipIdx with
  | nil => exact fun _ _ => rfl
  | cons q l ih => exact ih.comp (ignoresQueues_tset (f.pt.toNat % 8 + q.2) 0 q.1)

theorem smxRow_length (ftz sat : Bool) (out : FFmt) (cst : Nat) (masked : Nat → Bool) (row : List Nat) (m l : Nat) :
    (smxRow ftz sat out cst masked row m l).p.length = row.length := by
  unfold smxRow
  dsimp only
  split
  · simp
  · split <;> simp

theorem rowOf_length {a : List Word32} {i : Nat} (h : 128 * i + 128 ≤ a.length) : (rowOf a i).length = 128 := by
  simp only [rowOf, List.length_map, List.length_take, List.length_drop]
  omega

/-- Rows that hold something are written as tiles that hold something. -/
theorem smxTiles_ne_nil {bf : Bool} {rows : List (List Nat)} {r : List Nat} (hr : r ∈ rows) (hne : r ≠ []) :
    (smxTiles bf rows).flatten ≠ [] := by
  intro h
  have htile := List.flatten_eq_nil_iff.1 h
  cases bf with
  | false => exact hne (List.map_eq_nil_iff.1 (List.flatMap_eq_nil_iff.1 (htile _ (List.mem_singleton.2 rfl)) r hr))
  | true =>
    have hhalf := List.flatMap_eq_nil_iff.1 (htile _ (List.mem_cons_self ..)) r hr
    cases r with
    | nil => exact hne rfl
    | cons x r => exact absurd (List.flatMap_eq_nil_iff.1 hhalf x (by simp)) (ne_nil_of_length (leBytes_length 2 x) (by omega))

theorem asmxTiles_ne_nil (f : FmtT) (k : Core) : (asmxTiles f k).flatten ≠ [] := by
  have hrow : (rowOf (aget k f.ad) 0).length = 128 := rowOf_length (by rw [aget_length]; omega)
  refine smxTiles_ne_nil (List.mem_map_of_mem (List.mem_map_of_mem (List.mem_range.2 (show 0 < 64 by omega)))) ?_
  exact ne_nil_of_length ((smxRow_length ..).trans hrow) (by omega)

/-- The core after ASMX, its rows found in the core `k0` and its probabilities put where PSRC says. -/
def asmxUpdate (f : FmtT) (k0 k : Core) : Core :=
  asmxOut f k0 (if f.psrc then sheafPut (sget k0 f.pt).toNat (asmxTiles f k0).flatten k else tilesPut f (asmxTiles f k0) k)

theorem asmx_runs {c : Nat} {p : Pre} {f : FmtT} {s : State} (h : CoreReady s c ⟨0x65#8, p, .t f⟩)
    (hp : predOk (coreOf s c) ⟨0x65#8, p, .t f⟩ = true)
    (ho : f.psrc = true → SheafOpen s c (sget (coreOf s c) f.pt).toNat (asmxTiles f (coreOf s c)).flatten.length 64) :
    CoreOnly c (asmxUpdate f (coreOf s c) (issued (teOf f) ⟨0x65#8, p, .t f⟩ (coreOf s c))) s (unitIssue c ⟨0x65#8, p, .t f⟩ s) := by
  have heff (v : State) : unitEffect c (coreOf s c).pc.toNat (unitEntry ⟨0x65#8, p, .t f⟩ (coreOf s c)) v = effAsmx c f v := rfl
  have hout : IgnoresQueues (asmxOut f (coreOf s c)) := ignoresQueues_rowsOut _ _ _
  unfold asmxUpdate
  split
  case isTrue hm =>
    refine unitIssue_tileStarts (unitOf_tensor p f (by decide)) (hout.comp (ignoresQueues_sheafPut _ _)) h hp fun v hv =>
      ⟨_, ?_, (hv.upd (sheafPut _ _)).upd (asmxOut f (coreOf s c))⟩
    simp only [heff, effAsmx_eq, hm, if_true, hv.1, sget_waiting, asmxTiles_waiting, asmxOut_waiting]
    rw [sheafStore_waiting hv (ho hm) (asmxTiles_ne_nil f _), storedThen]
  case isFalse hr =>
    refine unitIssue_tileStarts (unitOf_tensor p f (by decide)) (hout.comp (ignoresQueues_tilesPut _ _)) h hp fun v hv =>
      ⟨_, ?_, (hv.upd (tilesPut f _)).upd (asmxOut f (coreOf s c))⟩
    rw [heff, effAsmx_eq, if_neg hr, hv.1, asmxTiles_waiting, asmxOut_waiting]

/-- Settles O17: the row-unit words row by row, and ASMX with its probabilities in tiles or in the sheaf memory (R79 to R81, log entry
307). -/
theorem rowUnitAndOnlineSoftmax : Obligations.RowUnitAndOnlineSoftmax := by
  unfold Obligations.RowUnitAndOnlineSoftmax
  refine ⟨?rows, ?asmx⟩
  case rows =>
    intro c p f s u ready k a v z sums maxs scaled normed row
    refine ⟨fun ⟨h, hp⟩ => ⟨_, rfl, ?arsum⟩, fun ⟨h, hp⟩ => ⟨_, rfl, ?armax⟩, fun ⟨h, hp⟩ => ⟨_, rfl, ?aresc⟩,
      fun ⟨h, hp⟩ => ⟨_, rfl, ?anorm⟩, fun ⟨h, hp⟩ => ⟨_, rfl, ardv_runs h hp⟩, fun ⟨h, hp⟩ => ⟨_, rfl, awrv_runs h hp⟩⟩
    case arsum => exact unitIssue_rowsToVec (op := sumRne) (by decide) (fun _ => rfl) h hp
    case armax => exact unitIssue_rowsToVec (op := fun _ l => maxFold l) (by decide) (fun _ => rfl) h hp
    case aresc =>
      exact unitIssue_rowScale (op := fun z v i row => row.map fun x => fpMul fmtFP32 rndNear z x (lane v (128 + i))) (by decide)
        (fun _ => rfl) h hp
    case anorm =>
      have heff (t : State) : unitEffect c (coreOf s c).pc.toNat (unitEntry ⟨0x67#8, p, .t f⟩ (coreOf s c)) t = effAnorm c f t := rfl
      exact unitIssue_rowScale (op := normRow) (by decide) (fun t => (heff t).trans (congrFun (effAnorm_eq c f) t)) h hp
  case asmx =>
    intro c p f s w u k g v pos rows lanes tiles a k' h hp ho
    have hrows : asmxRows f (coreOf s c) = rows := rfl
    have htiles : asmxTiles f (coreOf s c) = tiles := congrArg (smxTiles (f.ofmt == 6#4)) (congrArg (List.map (·.p)) hrows)
    have hlanes : asmxLanes f (coreOf s c) = lanes := by simp only [asmxLanes, hrows, lanes, v]
    have hrun := asmx_runs h hp (htiles ▸ ho)
    simp only [asmxUpdate, asmxOut, rowsOut, hrows, htiles, hlanes] at hrun
    exact ⟨_, rfl, hrun⟩

end Sys2Proof.Machine
end

section
/-! The events of tasks and cores (R98, R113 to R120, R124, R134): what each does once what it waits for has come. Each lemma takes one
of the model's events on the branch where it takes effect. -/

namespace Sys2Proof.Machine

/-! ## Placing what waits (R114, R115, R117) -/

/-- One member of a placed gang goes to its unit, back to its cores or to new ones (R98, R115). -/
def startMember (h : Nat) (s : State) (q : Nat × List Nat × List (Nat × Core)) : State :=
  match taskOf s h q.1 with
  | none => s
  | some x => if x.kind ≠ 0 then startUnit h q.1 s
      else if x.st = tsPreempted then resumeTask h q.1 q.2.1 q.2.2 s else startCores h q.1 q.2.1 s

/-- TASK_DISPATCH (`fresh`) passes over work that was pre-empted, and TASK_RESUME over work that was not. -/
theorem dispatch_picked {s u : State} {ridge : Nat} {w : Waiting} {p : List (Nat × List Nat)} {k : Task}
    {l : List (Nat × List Nat × List (Nat × Core))} (hpick : pickFrom s (waitList s ridge) [] = some (w, p))
    (hhead : headTask s w = some k)
    (hread : readGang w.handle p (reserveSlots w.handle w.members.length true s) = (.inl l, u)) (fresh : Bool) :
    dispatch ridge fresh s = if (k.st = tsPreempted) = fresh then s else l.foldl (startMember w.handle) u := by
  simp only [dispatch, hpick, hhead, hread]
  rfl

/-- Backfill past a waiting gang is over (R116). -/
def stopBackfill (w : Waiting) (s : State) : State :=
  w.members.foldl (fun v m => updTask w.handle m (fun k => { k with bfStop := true }) v) s

theorem backfillExpire_blocked {s : State} {ridge tenant : Nat} {w : Waiting}
    (hfind : (waitList s ridge).find? (fun w => w.tenant == tenant && ((headTask s w).map (fun k => k.kind == 0)).getD false) = some w)
    (hplace : placement s w = none) (hsafe : isSafe s = false) :
    backfillExpire ridge tenant s =
      if fget (stopBackfill w s) (rTSC_SHARE_B tenant) fTSC_SHARE_B_PRIO_PREEMPT = 1 then
        preemptFor w (victims (stopBackfill w s) tenant w.prio) (leaving (stopBackfill w s) tenant) (stopBackfill w s)
      else stopBackfill w s := by
  have hblocked : ¬((placement s w).isSome || isSafe s) = true := by simp [hplace, hsafe]
  simp only [backfillExpire, hfind, if_neg hblocked]
  rfl

/-! ## Commit, abort and admission (R113, R120, R124) -/

theorem commitTask_ready {s : State} {h t st d : Nat} {k : Task} (hk : taskOf s h t = some k) (he : k.endStatus = some (st, d))
    (hr : commitReady s h t k = true) (hsafe : isSafe s = false) :
    commitTask h t s = settle (makeFinal h t st d (homeStamp s h t) s) := by
  have hgo : commitReady s h t k = true ∧ (!isSafe s) = true := ⟨hr, by rw [hsafe]; rfl⟩
  simp only [commitTask, hk, he, if_pos hgo]

/-- An abort of one task that is live ends it and is answered. -/
theorem abortArrive_live {s : State} {h t : Nat} {k : Task} {w : Wait} (hk : taskOf s h t = some k) (hlive : k.st ≠ tsFinal)
    (hw : s.waits.find? (fun w => w.op == 0x303 && w.keys.contains (taskKey h t)) = some w) (hkeys : w.keys = [taskKey h t])
    (ha : w.a = 0) :
    abortArrive h t s = forgetGraph h (answerWait w 0 w.result (max w.tDone (homeStamp s h t)) [] (abortTask h t s)) := by
  have hnone : [taskKey h t].filter (· != taskKey h t) = [] := List.filter_singleton.trans (by simp)
  have hcount : w.result + b2n (decide (k.st ≠ tsFinal) && w.a != 0) = w.result := by simp [ha, b2n]
  have hanswer : ¬(w.a = 0 ∧ (!decide (k.st ≠ tsFinal)) = true) := by simp [hlive]
  simp only [abortArrive, hw, hk, hkeys, hnone, if_true, if_pos hlive, if_neg hanswer, hcount]

theorem graphAdmission_admitted {s v : State} {tenant n : Nat} {w : Wait} {q : List Wait} (hq : admissionQueue s tenant = w :: q)
    (hadm : admitGraph tenant (ofKeys w.keys) s = .admitted n v) :
    graphAdmission tenant s = answerWait w 0 n (colNow v) [] v := by
  simp only [graphAdmission, hq, hadm]

theorem graphAdmission_room {s : State} {tenant : Nat} {w : Wait} {q : List Wait} (hq : admissionQueue s tenant = w :: q)
    (hadm : admitGraph tenant (ofKeys w.keys) s = .room) : graphAdmission tenant s = s := by
  simp only [graphAdmission, hq, hadm]

/-! ## Pre-emption and clearing of a core (R98, R134) -/

section
variable {s : State} {c h t rank : Nat} {x : Task}

/-- A core that a pre-emption reaches stops, gives up its semaphore, and its transfers park. -/
theorem preemptCore_running (hcore : (coreOf s c).task = some (h, t, rank)) (hx : taskOf s h t = some x) (hst : x.st = tsPreempting)
    (hended : (coreOf s c).ended = false) :
    preemptCore c s = (coreOf s c).xfers.foldl (fun v y => if y.st < 2 then parkXfer (.core c y.slot) 3 0 v else v)
      (setCore c { coreOf s c with stop := true, sem := none } s) := by
  have hreaches : ((taskOf s h t).map (·.st)) = some tsPreempting ∧ (!(coreOf s c).ended) = true := by simp [hx, hst, hended]
  simp only [preemptCore, hcore, if_pos hreaches]

/-- A core stopped for its task's pre-emption has no instruction under way and no transfer running, and its image is not yet saved. -/
def SaveDue (x : Task) (k : Core) : Prop :=
  x.st = tsPreempting ∧ k.stop = true ∧ k.saved = false ∧ k.ended = false ∧ (∀ e ∈ allEnts k, e.started = false) ∧
    ∀ y ∈ k.xfers, 2 ≤ y.st

theorem SaveDue.not_held_back {k : Core} (hd : SaveDue x k) :
    ¬(x.st ≠ tsPreempting || !k.stop || k.saved || k.ended || (allEnts k).any (·.started) || k.xfers.any (fun y => decide (y.st < 2)))
      = true := by
  obtain ⟨hst, hstop, hsaved, hended, hents, hxfers⟩ := hd
  have he : (allEnts k).any (·.started) = false := List.any_eq_false.2 fun e h => by simp [hents e h]
  have hy : k.xfers.any (fun y => decide (y.st < 2)) = false :=
    List.any_eq_false.2 fun y h => mt of_decide_eq_true (Nat.not_lt.2 (hxfers y h))
  simp only [hst, hstop, hsaved, hended, he, hy]
  decide

/-- The image of a rank is saved: its core is marked, and its task notes the rank and whether it waited (R98). -/
def noteSaved (c h t rank : Nat) (waited : Bool) (s : State) : State :=
  updTask h t (fun y => { y with
    savedRanks := y.savedRanks ++ [rank]
    waitedRanks := if waited then y.waitedRanks ++ [rank] else y.waitedRanks }) (updCore c (fun k => { k with saved := true }) s)

/-- The image and the park area are written, each at its own place of the context slot; the image's version and SQ status are free
values (log entry 907). -/
theorem saveCore_written {sh b2 b3 : List Byte} {s1 s2 s3 : State} (hcore : (coreOf s c).task = some (h, t, rank))
    (hx : taskOf s h t = some x) (hdue : SaveDue x (coreOf s c))
    (hread : sheafRead c 0 (coreOf s c).extent (nextFree s) = (some sh, s1))
    (himage : vwrite (.save c) (tenantOfGraph s1 h) (slotAddr x rank) (imageHead (coreOf s c) (freeVal 10 s) (freeVal 11 s) ++ sh)
      accWrite s1 = (.ok b2, s2))
    (hpark : vwrite (.save c) (tenantOfGraph s2 h) (parkAddr x rank) (parkArea (coreOf s c)) accWrite s2 = (.ok b3, s3)) :
    saveCore c s = preemptDone h t (noteSaved c h t rank (coreOf s c).waited s3) := by
  simp only [saveCore, hcore, hx, if_neg hdue.not_held_back, hread, himage, hpark]
  rfl

end

theorem sheafCleared_binding {s : State} {c u : Nat} (hstate : coreState s c = 1)
    (hsleep : fget s (bindReg c) fTSC_CORE_BIND_SLEEP = 0) (hto : (coreOf s c).bindTo = some (some u)) :
    sheafCleared c s = bindDone c (some u) (setCore c { coreOf s c with sheaf := [], sheafErr := [] } s) := by
  simp only [sheafCleared, if_pos (And.intro hstate hsleep), hto]

/-- Settles O39: each event of tasks and cores on the branch where it takes effect (R98, R113 to R120, R124, R134). -/
theorem taskAndCoreEvents : Obligations.TaskAndCoreEvents := by
  unfold Obligations.TaskAndCoreEvents
  refine ⟨fun s ridge h t => ⟨?place, ?backfill, ?commit, ?abort, ?admission⟩, fun s c h t rank x => ⟨?request, ?save, ?clear⟩⟩
  case place =>
    intro w p k l u hpick hhead hread
    have hd := dispatch_picked hpick hhead hread
    refine ⟨fun hk => ⟨congrArg Host.Outcome.next ?_, congrArg Host.Outcome.next ?_⟩,
      fun hk => ⟨congrArg Host.Outcome.next ?_, congrArg Host.Outcome.next ?_⟩⟩
    · exact (hd true).trans (if_neg (by simp [hk]))
    · exact (hd false).trans (if_pos (by simp [hk]))
    · exact (hd true).trans (if_pos (by simp [hk]))
    · exact (hd false).trans (if_neg (by simp [hk]))
  case backfill =>
    intro tenant w hfind hplace hsafe
    exact congrArg Host.Outcome.next (backfillExpire_blocked hfind hplace hsafe)
  case commit =>
    intro k st d hk he hr hsafe
    exact congrArg (fun v => Host.Outcome.next (flushWaits v)) (commitTask_ready hk he hr hsafe)
  case abort =>
    intro k w hk hlive hw hkeys ha
    exact congrArg (fun v => Host.Outcome.next (flushWaits v)) (abortArrive_live hk hlive hw hkeys ha)
  case admission =>
    intro tenant w q n v hq
    exact ⟨fun ha => congrArg Host.Outcome.next (graphAdmission_admitted hq ha),
      fun ha => congrArg Host.Outcome.next (graphAdmission_room hq ha)⟩
  case request =>
    intro ⟨hcore, hx, hst⟩ hended
    exact congrArg Host.Outcome.next (preemptCore_running hcore hx hst hended)
  case save =>
    intro ⟨hcore, hx, hst⟩ hstop hsaved hended hents hxfers sh s1 b2 s2 b3 s3 tn hread ht1 himage ht2 hpark
    have hdue : SaveDue x (coreOf s c) := ⟨hst, hstop, hsaved, hended, hents, hxfers⟩
    exact congrArg (fun v => Host.Outcome.next (flushWaits v))
      (saveCore_written hcore hx hdue hread (ht1.symm ▸ himage) (ht2.symm ▸ hpark))
  case clear =>
    intro u hstate hsleep hto
    exact congrArg (fun v => Host.Outcome.next (flushWaits v)) (sheafCleared_binding hstate hsleep hto)

end Sys2Proof.Machine
end

section
/-! Changes of a granule's binding (R135, R136, R139, R200) and the records that go to their rings (R126, R127, R192, R338, R497): each
event on the branch where it takes effect. -/

namespace Sys2Proof.Machine

/-! ## Granules -/

/-- The holder of a granule as MEM_GATTR shows it (R135). -/
def granHolder (s : State) (n g : Nat) : Option Nat :=
  if fget s (rMEM_GATTR n g) fMEM_GATTR_BOUND = 1 then some (fget s (rMEM_GATTR n g) fMEM_GATTR_TENANT) else none

/-- The granule record after a change: its last holder, T_bind, what still waits, the count of changes and the blocks
to clear; an unbinding leaves the last holder as it was (log entry 922). -/
def granAfter (c : Change) (rest : List Change) (tb : Nat) (y : Gran) : Gran :=
  { y with
    last := c.tgt.or y.last, tBind := tb, pend := rest, changes := y.changes + 1
    uncl := if c.tgt.isSome && !c.keep then List.range 512 else y.uncl }

/-- The state once a granule has taken its first pending change, before any command that waited for it is answered. -/
def granTaken (n g : Nat) (c : Change) (rest : List Change) (s : State) : State :=
  bindRecord 1 (granKey n g) (granHolder s n g) c.tgt (((granOf s (granKey n g)).changes + 1) % 65536) (if c.keep then 3 else 0)
    (stampAt s (16 + n))
    (setGran (granKey n g) (granAfter c rest (stampAt s (16 + n)) (granOf (granTake n g c (dropTlbs (granKey n g) s)) (granKey n g)))
      (granTake n g c (dropTlbs (granKey n g) s)))

section
variable {s : State} {n g : Nat} {c : Change} {rest : List Change}

/-- A change that nothing is waiting for. -/
theorem granCommit_unasked (hpend : (granOf s (granKey n g)).pend = c :: rest) (hidle : granBusy s (granKey n g) = false)
    (hw : (granTaken n g c rest s).waits.find? (fun w => w.op == 0x201 && w.keys.contains (granKey n g)) = none) :
    granCommit n g s = granTaken n g c rest s := by
  simp only [granTaken, granAfter, granHolder] at hw ⊢
  simp only [granCommit, hpend, hidle, Bool.false_eq_true, if_false, hw]

/-- A change that is the last its BIND_MEMORY waits for answers the command, with one more granule counted. -/
theorem granCommit_answers {q : Wait} (hpend : (granOf s (granKey n g)).pend = c :: rest) (hidle : granBusy s (granKey n g) = false)
    (hw : (granTaken n g c rest s).waits.find? (fun w => w.op == 0x201 && w.keys.contains (granKey n g)) = some q)
    (hkeys : q.keys = [granKey n g]) :
    granCommit n g s = answerWait q 0 (q.result + 1) (max q.tDone (stampAt s (16 + n))) [] (granTaken n g c rest s) := by
  have hnone : [granKey n g].filter (· != granKey n g) = [] := List.filter_singleton.trans (by simp)
  simp only [granTaken, granAfter, granHolder] at hw ⊢
  simp only [granCommit, hpend, hidle, Bool.false_eq_true, if_false, hw, hkeys, hnone, if_true]

theorem granCleared_clearing (hclear : fget s (rMEM_GATTR n g) fMEM_GATTR_CLEARING = 1) :
    let v := (granOf s (granKey n g)).uncl.foldl (fun v b => zeroRange (n * 2 ^ 39 + g * 2 ^ 30 + b * 2 ^ 21) (2 ^ 21) v) s
    granCleared n g s =
      fset (rMEM_GATTR n g) fMEM_GATTR_CLEARING 0 (setGran (granKey n g) { granOf v (granKey n g) with uncl := [] } v) := by
  have hset : ¬fget s (rMEM_GATTR n g) fMEM_GATTR_CLEARING = 0 := by omega
  simp only [granCleared, if_neg hset]

end

/-! ## Completion rings (R126, R127, R497) -/

/-- The first waiting record of a completion ring is written into it. -/
def waitingWritten (r : RingRef) (x : Ring) (w : RecW) (rest : List RecW) (s : State) : State :=
  ringWrite r w.bytes (setRing r { x with waiting := rest, reserved := x.reserved - b2n w.held } s)

/-- A waiting record needs its own slot or room for one more, and a task's record is then counted as written. -/
theorem ringDrain_writes {s : State} {tenant ring : Nat} {x : Ring} {w : RecW} {rest : List RecW}
    (hring : getRing s (.completion (tenant * 16 + ring)) = some x) (hwait : x.waiting = w :: rest)
    (hroom : w.held = true ∨ ringRoom x 1 = true) (hsafe : isSafe s = false)
    (hgo : ringDefers (.completion (tenant * 16 + ring)) w.bytes s = false) :
    let v := waitingWritten (.completion (tenant * 16 + ring)) x w rest s
    ringDrain tenant ring s = match w.task with
      | none => v
      | some (h, t) => forgetGraph h (updTask h t (fun k => { k with recWaiting := k.recWaiting - 1 }) v) := by
  have hfree : ¬((!w.held && !ringRoom x 1) || isSafe s || ringDefers (.completion (tenant * 16 + ring)) w.bytes s) = true := by
    rw [hsafe, hgo]
    rcases hroom with h | h <;> simp [h]
  simp only [ringDrain, hring, hwait, if_neg hfree]
  rfl

theorem ringLacks_present {s : State} {r : RingRef} {x : Ring} (hring : getRing s r = some x) :
    ringLacks r s = if ringRoom x (ringNeed r s) then s else ringReread r s := by
  simp only [ringLacks, hring]

/-! ## Fault and trace rings (R192, R338) -/

/-- A fault record is written into a tenant's ring, and leaves the store once no ring wants it any more (R192). -/
def faultWritten (tenant : Nat) (f : FRec) (s : State) : State :=
  ringWrite (.fault tenant) f.bytes { s with
    frecs := (s.frecs.map (fun g => if g = f then f.give tenant else g)).filter (fun g => g.toModule || g.toTenant) }

theorem faultDrain_writes {s : State} {tenant : Nat} {x : Ring} {f : FRec} (hring : getRing s (.fault tenant) = some x)
    (hrec : s.frecs.find? (fun f => f.wants tenant) = some f) (hroom : ringRoom x 1 = true) (hcol : colAttach s = true)
    (hgo : ringDefers (.fault tenant) f.bytes s = false) :
    let v := faultWritten tenant f s
    faultDrain tenant s = if v.recLost = true ∧ v.frecs.length < 1024 then occurs 0 1 2 { v with recLost := false } else v := by
  have hfree : ¬(!ringRoom x 1 || !colAttach s || ringDefers (.fault tenant) f.bytes s) = true := by simp [hroom, hcol, hgo]
  simp only [faultDrain, hring, hrec, if_neg hfree]
  rfl

/-- The oldest trace record of a ring is written into it and leaves its store (R338). -/
def traceWritten (ring : Nat) (r : TRec) (s : State) : State := ringWrite (.trace ring) r.bytes { s with trecs := s.trecs.erase r }

/-- A source whose die's store has space again writes how many records it lost; TRACE_LOST occurs with it (R338; log entry 903). -/
def lossTold (s : State) : State :=
  match lossToReport s with
  | none => s
  | some (src, n) =>
    let d := traceStoreDie src
    let w := { s with trcLost := Mp.del s.trcLost src }
    occurs 0 1 11 (trace src d 9 0xFF (stampAt w d) (leFields [(4, n), (1, d)]) w)

theorem lossTold_none {s : State} (h : lossToReport s = none) : lossTold s = s := by simp only [lossTold, h]

theorem lossTold_some {s : State} {src n : Nat} (h : lossToReport s = some (src, n)) :
    let d := traceStoreDie src
    let w := { s with trcLost := Mp.del s.trcLost src }
    lossTold s = occurs 0 1 11 (trace src d 9 0xFF (stampAt w d) (leFields [(4, n), (1, d)]) w) := by simp only [lossTold, h]

theorem traceDrain_writes {s : State} {ring : Nat} {x : Ring} {r : TRec} (hring : getRing s (.trace ring) = some x)
    (hrec : s.trecs.find? (fun t => t.ring == ring) = some r) (hroom : ringRoom x 1 = true)
    (hcol : traceStoreDie r.source ≠ 64 ∨ colAttach s = true) (hgo : ringDefers (.trace ring) r.bytes s = false) :
    traceDrain ring s = lossTold (traceWritten ring r s) := by
  have hfree : ¬(!ringRoom x 1 || (traceStoreDie r.source == 64 && !colAttach s) || ringDefers (.trace ring) r.bytes s) = true := by
    rw [hroom, hgo]
    rcases hcol with h | h <;> simp [h]
  simp only [traceDrain, hring, hrec, if_neg hfree]
  rfl

/-- Settles O40: a granule's change and its clear, and the waiting records of the completion, fault and trace rings (R126, R127, R135,
R136, R139, R192, R338, R497). -/
theorem granulesAndRecords : Obligations.GranulesAndRecords := by
  unfold Obligations.GranulesAndRecords
  refine ⟨fun s n g => ⟨?change, ?clear⟩, fun s tenant ring => ⟨?completion, ?reread, ?fault, ?trace⟩⟩
  case change =>
    intro c rest hpend hidle
    exact ⟨fun hw => congrArg (fun v => Host.Outcome.next (flushDeferred v)) (granCommit_unasked hpend hidle hw),
      fun q hw hkeys => congrArg (fun v => Host.Outcome.next (flushDeferred v)) (granCommit_answers hpend hidle hw hkeys)⟩
  case clear =>
    intro hclear
    exact congrArg Host.Outcome.next (granCleared_clearing hclear)
  case completion =>
    intro x w rest hring hwait hroom hsafe r hgo v
    have hd := ringDrain_writes hring hwait hroom hsafe hgo
    refine ⟨fun ht => congrArg Host.Outcome.next (hd.trans ?_), fun h t ht => congrArg Host.Outcome.next (hd.trans ?_)⟩
    · rw [ht]; rfl
    · rw [ht]; rfl
  case reread =>
    intro kind x hring
    exact congrArg Host.Outcome.next (ringLacks_present hring)
  case fault =>
    intro x f hring hrec hroom hcol hgo
    exact congrArg Host.Outcome.next (faultDrain_writes hring hrec hroom hcol hgo)
  case trace =>
    intro x r hring hrec hroom hcol hgo v
    have hd := traceDrain_writes hring hrec hroom hcol hgo
    exact ⟨fun hl => congrArg Host.Outcome.next (hd.trans (lossTold_none hl)),
      fun src n hl => congrArg Host.Outcome.next (hd.trans (lossTold_some hl))⟩

end Sys2Proof.Machine
end

section
/-! Requests at the ridge caches (R140, R142, R148, R151), the patrol scrubber (R153), stacks that wake (R377) and walks that complete
(R174 to R177). -/

namespace Sys2Proof.Machine

/-! ## A range within one codeword -/

section
variable {s : State} {tenant pa len : Nat}

/-- A range that stays in its codeword touches that sector alone. -/
theorem sectorsOf_within (hpos : len ≠ 0) (hin : pa % 64 + len ≤ 64) : sectorsOf pa len = [(pa / 64 * 64, pa % 64, len)] := by
  have hk : min len (64 - pa % 64) = len := by omega
  simp only [sectorsOf, sectors, if_neg hpos, hk, Nat.sub_self, if_true]

/-- Part of a slice is the slice of that part. -/
theorem Mp.take_drop_slice {α : Type} (d : α) (m : Mp α) (b : Nat) {n i k : Nat} (h : i + k ≤ n) :
    ((Mp.slice d m b n).drop i).take k = Mp.slice d m (b + i) k := by
  apply List.ext_getElem
  · simp only [List.length_take, List.length_drop, Mp.slice_length]; omega
  · intro j _ _
    simp only [List.getElem_take, List.getElem_drop, Mp.getElem_slice, Nat.add_assoc]

theorem paRidge_sector (pa : Nat) : paRidge (pa / 64 * 64) = paRidge pa := by
  simp only [paRidge]; omega

/-- What makes an access plain, said of a granule whose policy is BYPASS and an address that R142 lets reach its stack. -/
theorem plain_of_bypass (hcaches : s.caches = []) (hinj : s.inj = []) (herr : s.cwErr = []) (hvalid : paValid s pa = true)
    (hpolicy : policyOf s (pa / 64 * 64) = 2) (hclear : uncleared s (pa / 64 * 64) = false)
    (h4 : stackState s (paRidge (pa / 64 * 64)) (stackOf s (pa / 64 * 64)).1 ≠ 4)
    (h5 : stackState s (paRidge (pa / 64 * 64)) (stackOf s (pa / 64 * 64)).1 ≠ 5) (tenant : Nat) : Plain s tenant (pa / 64 * 64) := by
  have hserves : ridgeServes s (paRidge (pa / 64 * 64)) = true := by
    rw [paRidge_sector]; exact (Bool.and_eq_true_iff.1 hvalid).2
  exact ⟨hcaches, hinj, herr, hserves, by simp only [bypasses, hpolicy, beq_self_eq_true, Bool.true_or], hclear, h4, h5⟩

/-- A plain read within one codeword gives the bytes of the stacks and changes nothing. -/
theorem memRead_within (h : Plain s tenant (pa / 64 * 64)) (hin : pa % 64 + len ≤ 64) :
    memRead (paRidge (pa / 64 * 64)) tenant pa len s = (.ok (Mp.slice 0#8 s.mem pa len), s) := by
  rcases eq_or_ne len 0 with rfl | hpos
  · rfl
  · have hbytes : ((storedCw s (pa / 64 * 64)).drop (pa % 64)).take len = Mp.slice 0#8 s.mem pa len := by
      rw [storedCw, Mp.take_drop_slice 0#8 s.mem _ hin]
      congr 1; omega
    simp only [memRead, sectorsOf_within hpos hin, List.foldl_cons, List.foldl_nil, sectorRead_plain h, List.nil_append, hbytes]

/-- A whole codeword is written without reading the old one (R148). -/
theorem sectorWrite_whole (h : Plain s tenant pa) (bs : List Byte) {mask : List Bool} (hmask : mask.all id = true) :
    sectorWrite (paRidge pa) tenant pa bs mask s = (true, { s with mem := Mp.blit 0#8 s.mem (pa / 64 * 64) bs }) := by
  obtain ⟨hcaches, -, herr, hserves, hbypass, hclear, h4, h5⟩ := h
  have hcleared : clearBlock pa s = s := by simp only [clearBlock, hclear, Bool.false_eq_true, if_false]
  have hfresh : freshCw pa bs s = { s with mem := Mp.blit 0#8 s.mem (pa / 64 * 64) bs } := by
    simp only [freshCw, herr, Mp.del, List.filter_nil]
  have hstack : writeCw pa 2 bs mask s = (.taken, { s with mem := Mp.blit 0#8 s.mem (pa / 64 * 64) bs }) := by
    simp only [writeCw, h4, h5, or_self, if_false, hcleared, hmask, if_true, hfresh]
  have howner : ownWrite tenant pa bs mask s = (true, { s with mem := Mp.blit 0#8 s.mem (pa / 64 * 64) bs }) := by
    simp only [ownWrite, checkLine_of_caches hcaches, lineOf_of_caches hcaches, hbypass, if_true, cacheWrite, hstack]
    rfl
  have hserved : ¬(!reaches s (paRidge pa) (paRidge pa) pa ∨ awaitsRejoin s pa) := by
    simp [reaches, hserves, awaitsRejoin, h5]
  simp only [sectorWrite, if_neg hserved, howner, ne_eq, not_true_eq_false, false_and, if_false]

/-- A plain write of a whole codeword puts its bytes there and changes memory alone. -/
theorem memWriteM_whole (h : Plain s tenant pa) {bytes : List Byte} (hlen : bytes.length = 64) (halign : pa % 64 = 0) :
    memWriteM (paRidge pa) tenant pa bytes (List.replicate 64 true) s = (.ok bytes, { s with mem := Mp.blit 0#8 s.mem pa bytes }) := by
  have hbase : pa / 64 * 64 = pa := by omega
  have hone : sectorsOf pa bytes.length = [(pa, 0, 64)] := by
    rw [hlen, sectorsOf_within (by decide) (by omega), hbase, halign]
  have htake : bytes.take 64 = bytes := List.take_of_length_le hlen.le
  have hany : (List.replicate 64 true).any id = true := rfl
  have hall : (List.replicate 64 true).all id = true := rfl
  have hmlen : (List.replicate 64 true).length = 64 := List.length_replicate
  generalize List.replicate 64 true = mask at hany hall hmlen ⊢
  have hmtake : mask.take 64 = mask := List.take_of_length_le hmlen.le
  have hsector := hbase ▸ sectorWrite_whole h bytes hall
  simp only [memWriteM, hone, List.foldl_cons, List.foldl_nil, List.length_nil, List.drop_zero, htake, hmtake, hmlen, hany, hsector,
    Nat.sub_zero, Nat.sub_self, List.replicate_zero, List.nil_append, List.append_nil, Bool.not_true, Bool.false_eq_true, if_false]

end

/-! ## Requests at the ridge cache that owns their address -/

section
variable {s v : State} {rq : Requester} {tenant pa len : Nat}

theorem memoryRead_ok {bs : List Byte} (hvalid : paValid s pa = true) (hread : memRead (rqRidge rq) tenant pa len s = (.ok bs, v)) :
    memoryRead rq tenant pa len s = emit (.mem pa bs) v := by
  simp only [memoryRead, hvalid, hread, Bool.not_true, Bool.false_eq_true, if_false]

theorem memoryRead_uncorr {p : Nat} (hvalid : paValid s pa = true) (hread : memRead (rqRidge rq) tenant pa len s = (.uncorr p, v)) :
    memoryRead rq tenant pa len s = emit (.memError pa 0x10) (uncorrFault p (rqSource rq) tenant 0 1 0 0xFFFF (rqCore rq) 0 v) := by
  simp only [memoryRead, hvalid, hread, Bool.not_true, Bool.false_eq_true, if_false]
  rfl

theorem memoryRead_bad (hvalid : paValid s pa = false) (len : Nat) :
    memoryRead rq tenant pa len s = badAddress rq tenant pa accRead s := by
  simp only [memoryRead, hvalid, Bool.not_false, if_true]

theorem memoryWrite_ok {bytes c : List Byte} {mask : List Bool} (hvalid : paValid s pa = true)
    (hwrite : memWriteM (rqRidge rq) tenant pa bytes (mask ++ List.replicate (bytes.length - mask.length) true) s = (.ok c, v)) :
    memoryWrite rq tenant pa bytes mask s = v := by
  simp only [memoryWrite, hvalid, hwrite, Bool.not_true, Bool.false_eq_true, if_false]

end

/-! ## The scrubber, and stacks that wake -/

/-- What the scrubber leaves of a codeword it has read: one that cannot be corrected is recorded (R151). -/
def scrubAnswer (pa : Nat) : MRes × State → State
  | (.uncorr _, s) => uncorrFault pa 11 0 0 1 0 0xFFFF 0xFFFF 0 s
  | (.ok _, s) => s
  | (.lost _ _, s) => s

/-- Without a symbol in error, and none to be struck, the scrubber's read changes nothing. -/
theorem scrubAnswer_clean {s : State} (hinj : s.inj = []) (herr : s.cwErr = []) (pa src : Nat) : scrubAnswer pa (readCw pa src s) = s := by
  have hstrike (n k : Nat) : strikeCw n k pa s = s := by simp only [strikeCw, hinj, List.find?_nil]
  have hsound : Mp.get [] s.cwErr (pa / 64) = [] := by rw [herr]; rfl
  simp only [readCw, hstrike, hsound, if_true]
  split_ifs <;> rfl

/-- The scrubber reads the next codeword of a stack it works on, and counts it. -/
theorem scrubRead_due {s : State} {u : Nat} (hridge : u / 6 < nRidges s) (hwork : scrubs s (u / 6) (u % 6) = true)
    (hleft : Mp.get 0 s.scrub u ≠ stackCodewords) :
    let q := paOfStack s (u / 6) (u % 6) (Mp.get 0 s.scrub u * 64)
    let w := scrubAnswer q (readCw q 1 s)
    scrubRead u s = scrubProgress (u / 6) { w with scrub := Mp.put 0 w.scrub u (Mp.get 0 s.scrub u + 1) } := by
  have hdue : ¬(nRidges s ≤ u / 6 ∨ (!scrubs s (u / 6) (u % 6)) = true ∨ Mp.get 0 s.scrub u = stackCodewords) := by
    simp [hridge, hwork, hleft]
  simp only [scrubRead, if_neg hdue]
  rcases readCw (paOfStack s (u / 6) (u % 6) (Mp.get 0 s.scrub u * 64)) 1 s with ⟨_ | _ | _, v⟩ <;> rfl

theorem wakeStack_asleep {s : State} {u : Nat} (hridge : u / 6 < nRidges s) (hsleep : stackState s (u / 6) (u % 6) = 3)
    (hdie : dieOk s (16 + u / 6) = true) :
    wakeStack u s = fset (rMEM_STACK_STATUS (u / 6) (u % 6)) fMEM_STACK_STATUS_STATE 2 s := by
  have hwakes : ¬(nRidges s ≤ u / 6 ∨ stackState s (u / 6) (u % 6) ≠ 3 ∨ (!dieOk s (16 + u / 6)) = true) := by
    simp [hridge, hsleep, hdie]
  simp only [wakeStack, if_neg hwakes]

/-! ## Walks that complete -/

section
variable {s v : State} {rq : Requester} {tenant va : Nat}

/-- A translation that the requester's TLB holds leaves everything as it is. -/
theorem translate_hit_state {e : TlbEnt} (hhit : tlbFind s (rqTlb rq) tenant va = some e) (a : Access) :
    (translate rq tenant va a s).2 = s := by
  simp only [translate, hhit]

/-- A translation that a walk finds is listed in the base die's TLB, and in the requester's where that is another (R177). -/
theorem translate_walk_state {l e : Nat} (hown : tlbFind s (rqTlb rq) tenant va = none)
    (hshared : tlbFind s (192 + rqRidge rq) tenant va = none) (hwalk : walk rq tenant va s = (.leaf l e, v)) (a : Access) :
    let x : TlbEnt := ⟨tenant, va / levelSize l * levelSize l, levelSize l, e⟩
    let w := tlbAdd (192 + rqRidge rq) x v
    (translate rq tenant va a s).2 = if rqTlb rq = 192 + rqRidge rq then w else tlbAdd (rqTlb rq) x w := by
  simp only [translate, hown, hshared, hwalk]

theorem walkDone_translates (hridge : rqRidge rq < nRidges s) (hdie : dieOk s (16 + rqRidge rq) = true) (a : Access) :
    walkDone rq tenant va a s = (translate rq tenant va a s).2 := if_pos ⟨hridge, hdie⟩

end

/-- Settles O41: each event on the branch where it takes effect; the record of an address past the end is kind ADDRESS (log entry 1003),
and a byte that memory does not list reads as zero (log entry 2). -/
theorem memoryEvents : Obligations.MemoryEvents := by
  unfold Obligations.MemoryEvents
  intro s rq tenant pa b plain
  have hplain (h : plain) : paValid s pa = true ∧ rqRidge rq = paRidge b ∧ Plain s tenant b := by
    obtain ⟨hcaches, hinj, herr, hvalid, hridge, hpolicy, hclear, h4, h5⟩ := h
    exact ⟨hvalid, hridge, plain_of_bypass hcaches hinj herr hvalid hpolicy hclear h4 h5 tenant⟩
  refine ⟨?readPlain, ?writeWhole, ?read, ?uncorr, ?bad, ?write, ?scrub, ?wake, ?walk⟩
  case readPlain =>
    intro len h hin
    obtain ⟨hvalid, hridge, hp⟩ := hplain h
    exact congrArg Host.Outcome.next (memoryRead_ok hvalid (hridge ▸ memRead_within hp hin))
  case writeWhole =>
    intro bytes h hlen halign
    obtain ⟨hvalid, hridge, hp⟩ := hplain h
    have hb : b = pa := by simp only [b]; omega
    rw [hb] at hp hridge
    have hwrite : memoryWrite rq tenant pa bytes [] s = { s with mem := Mp.blit 0#8 s.mem pa bytes } :=
      memoryWrite_ok hvalid (by rw [hridge, hlen]; exact memWriteM_whole hp hlen halign)
    refine ⟨_, congrArg Host.Outcome.next hwrite, rfl, ?_, fun a ha => ?_⟩
    · exact hlen ▸ Mp.slice_blit_same 0#8 s.mem pa bytes
    · exact Mp.get_blit_out 0#8 s.mem pa bytes a (by omega)
  case read => exact fun len bs v hvalid hread => congrArg Host.Outcome.next (memoryRead_ok hvalid hread)
  case uncorr => exact fun len p v hvalid hread => congrArg Host.Outcome.next (memoryRead_uncorr hvalid hread)
  case bad => exact fun len hvalid => congrArg Host.Outcome.next (memoryRead_bad hvalid len)
  case write => exact fun bytes mask c v hvalid hwrite => congrArg Host.Outcome.next (memoryWrite_ok hvalid hwrite)
  case scrub =>
    intro u hridge hwork hleft q next
    have hdue := scrubRead_due hridge hwork hleft
    refine ⟨fun hinj herr => ?_, fun bs v hread => ?_, fun p v hread => ?_⟩
    · exact congrArg Host.Outcome.next (by rw [hdue, scrubAnswer_clean hinj herr])
    · exact congrArg Host.Outcome.next (by rw [hdue, hread]; rfl)
    · exact congrArg Host.Outcome.next (by rw [hdue, hread]; rfl)
  case wake => exact fun u hridge hsleep hdie => congrArg Host.Outcome.next (wakeStack_asleep hridge hsleep hdie)
  case walk =>
    intro va acc hridge hdie
    have hdone := walkDone_translates (tenant := tenant) (va := va.toNat) hridge hdie acc
    exact ⟨fun e hhit => congrArg Host.Outcome.next (hdone.trans (translate_hit_state hhit acc)),
      fun l e v hown hshared hwalk => congrArg Host.Outcome.next (hdone.trans (translate_walk_state hown hshared hwalk acc))⟩

end Sys2Proof.Machine
end

section
/-! NEAR tasks at their units (R164 to R170), and tags, responses and the retirement of chunks (R24, R179, R180, R184 to R187): each event
on the branch where it takes effect. -/

namespace Sys2Proof.Machine

/-! ## A NEAR task begins (R164, R170) -/

/-- A NEAR task begun with its descriptor: it has had as many turns as the least of the others of its unit (R170). -/
def nearBegun (h t : Nat) (d : List Byte) (s : State) : State :=
  updTask h t (fun k => { k with
    near := some ⟨d, 0, 0, (nearTurns s k.unit h t).foldl min ((nearTurns s k.unit h t).headD 0)⟩ }) s

/-- A NEAR task placed at the unit of a ridge. -/
def nearPlaced (h t n : Nat) (s : State) : State := updTask h t (fun k => { k with unit := n }) s

/-- A NEAR task that its unit may take: it runs, and has neither ended nor begun, and the module is not in the safe state. -/
def NearDue (s : State) (k : Task) : Prop :=
  k.kind = 2 ∧ k.st = tsRunning ∧ k.endStatus = none ∧ k.near = none ∧ isSafe s = false

theorem NearDue.not_held_back {s : State} {k : Task} (hdue : NearDue s k) :
    ¬(k.kind ≠ 2 ∨ k.st ≠ tsRunning ∨ k.endStatus.isSome ∨ k.near.isSome ∨ isSafe s) := by
  obtain ⟨hkind, hst, hend, hnear, hsafe⟩ := hdue
  simp [hkind, hst, hend, hnear, hsafe]

section
variable {s v w : State} {h t : Nat} {k : Task} {d : List Byte} {pa : Nat}

theorem nearStart_misaligned (hk : taskOf s h t = some k) (hdue : NearDue s k) (ha : k.target % 64 ≠ 0) :
    nearStart h t s = nearRefuse h t 0 s := by
  simp only [nearStart, hk, if_neg hdue.not_held_back, if_pos ha]

/-- A bad field of the descriptor refuses the task, which has begun by then. -/
theorem nearStart_blamed {off : Nat} (hk : taskOf s h t = some k) (hdue : NearDue s k) (ha : k.target % 64 = 0)
    (hread : vread (.near k.unit) (tenantOfGraph s h) k.target 64 accRead s = (.ok d, v)) (hbad : lowestOff (nearBlamed d) = some off) :
    nearStart h t s = nearRefuse h t off (nearBegun h t d v) := by
  simp only [nearStart, hk, if_neg hdue.not_held_back, if_neg (not_not.2 ha), hread, hbad]
  rfl

/-- A unit with eight tasks running or waiting before this one takes it later (R170). -/
theorem nearStart_full (hk : taskOf s h t = some k) (hdue : NearDue s k) (ha : k.target % 64 = 0)
    (hread : vread (.near k.unit) (tenantOfGraph s h) k.target 64 accRead s = (.ok d, v)) (hsound : lowestOff (nearBlamed d) = none)
    (hdst : translate (.near k.unit) (tenantOfGraph s h) (nDst d) accWrite v = (.ok pa, w))
    (hfull : 8 ≤ nearRunning (nearPlaced h t (paRidge pa) w) (paRidge pa) + nearAhead (nearPlaced h t (paRidge pa) w) (paRidge pa) h t) :
    nearStart h t s = nearPlaced h t (paRidge pa) w := by
  simp only [nearStart, hk, if_neg hdue.not_held_back, if_neg (not_not.2 ha), hread, hsound, hdst]
  exact if_pos hfull

/-- A task with chunks to do and no operands to flush is begun at the ridge that owns its destination. -/
theorem nearStart_begins (hk : taskOf s h t = some k) (hdue : NearDue s k) (ha : k.target % 64 = 0)
    (hread : vread (.near k.unit) (tenantOfGraph s h) k.target 64 accRead s = (.ok d, v)) (hsound : lowestOff (nearBlamed d) = none)
    (hdst : translate (.near k.unit) (tenantOfGraph s h) (nDst d) accWrite v = (.ok pa, w))
    (hroom : nearRunning (nearPlaced h t (paRidge pa) w) (paRidge pa) + nearAhead (nearPlaced h t (paRidge pa) w) (paRidge pa) h t < 8)
    (hserves : ridgeServes (nearPlaced h t (paRidge pa) w) (paRidge pa) = true) (hchunks : nChunks d ≠ 0) (hauto : nAuto d = false) :
    nearStart h t s = nearBegun h t d (nearPlaced h t (paRidge pa) w) := by
  have hgoes : ¬(!ridgeServes (nearPlaced h t (paRidge pa) w) (paRidge pa)) = true := by simp [hserves]
  simp only [nearStart, hk, if_neg hdue.not_held_back, if_neg (not_not.2 ha), hread, hsound, hdst, if_neg hchunks, hauto,
    Bool.false_eq_true, if_false]
  exact (if_neg (Nat.not_le.2 hroom)).trans (if_neg hgoes)

end

/-! ## A NEAR task's chunks (R169, R170) -/

/-- The turn that a task takes: later than those that the other tasks of its unit have had. -/
def nearTurnTaken (ts : List Nat) (r : NearRun) : NearRun := { r with turn := max r.turn (ts.foldl min (ts.headD 0)) + 1 }

/-- A NEAR task of a unit takes its turn. -/
def nearTakesTurn (h t unit : Nat) (r : NearRun) (s : State) : State :=
  updTask h t (fun k => { k with near := some (nearTurnTaken (nearTurns s unit h t) r) }) s

/-- A NEAR task that runs with chunks left, and no other task of its unit has had fewer turns. -/
def NearTurn (s : State) (h t : Nat) (k : Task) (r : NearRun) : Prop :=
  k.st = tsRunning ∧ k.endStatus = none ∧ isSafe s = false ∧ r.chunk < nChunks r.desc ∧ ∀ x ∈ nearTurns s k.unit h t, r.turn ≤ x

theorem NearTurn.not_held_back {s : State} {h t : Nat} {k : Task} {r : NearRun} (hturn : NearTurn s h t k r) :
    ¬(k.st ≠ tsRunning ∨ k.endStatus.isSome ∨ isSafe s ∨ nChunks r.desc ≤ r.chunk
      ∨ (nearTurns s k.unit h t).any (fun x => decide (x < r.turn))) := by
  obtain ⟨hst, hend, hsafe, hleft, hleast⟩ := hturn
  have hany : (nearTurns s k.unit h t).any (fun x => decide (x < r.turn)) = false :=
    List.any_eq_false.2 fun x hx => by simp [hleast x hx]
  simp [hst, hend, hsafe, hleft, hany]

section
variable {s w : State} {h t : Nat} {k : Task} {r : NearRun}

theorem nearChunk_no_tag (hk : taskOf s h t = some k) (hnear : k.near = some r) (hturn : NearTurn s h t k r)
    (htag : tagPass k.unit (.near k.unit) (tenantOfGraph s h) (nearTakesTurn h t k.unit r s) = none) :
    nearChunk h t s = nearTakesTurn h t k.unit r s := by
  simp only [nearTakesTurn, nearTurnTaken] at htag
  simp only [nearChunk, hk, hnear, if_neg hturn.not_held_back, htag]
  rfl

theorem nearChunk_done (hk : taskOf s h t = some k) (hnear : k.near = some r) (hturn : NearTurn s h t k r)
    (htag : tagPass k.unit (.near k.unit) (tenantOfGraph s h) (nearTakesTurn h t k.unit r s) = some w) :
    let r' := nearTurnTaken (nearTurns s k.unit h t) r
    nearChunk h t s = if nOp r.desc = 1 then nearScatter h t k.unit r' w else nearMove h t k.unit r' w := by
  simp only [nearTakesTurn, nearTurnTaken] at htag
  simp only [nearChunk, hk, hnear, if_neg hturn.not_held_back, htag]
  rfl

end

/-! ## Tags (R179, R180) -/

section
variable {s : State} {ridge tenant : Nat} {rq : Requester}

theorem tagAcquire_no_tag (hfree : tagFree s ridge rq tenant = false) (use : TagUse) : tagAcquire ridge rq tenant use s = s := by
  simp only [tagAcquire, hfree, Bool.not_false, Bool.or_true, if_true]

theorem tagAcquire_request (hridge : rqRidge rq = ridge) (hfree : tagFree s ridge rq tenant = true) (pa : Nat) :
    tagAcquire ridge rq tenant (.request pa) s =
      (takeTag ridge ⟨0, 0, rq, tenant, .request pa, 0, 0, false, pa, [], none, none, false⟩ s).2 := by
  simp [tagAcquire, hridge, hfree]

theorem tagAcquire_chunk {r : XferRef} (hridge : rqRidge rq = ridge) (hfree : tagFree s ridge rq tenant = true)
    (hrq : xferRq s r = rq) (htenant : xferTenant s r = tenant) : tagAcquire ridge rq tenant (.chunk r) s = acquireChunk r s := by
  simp [tagAcquire, hridge, hfree, hrq, htenant]

@[simp] theorem tagRegs_deferred (n tenant : Nat) (s : State) : (tagRegs n tenant s).deferred = s.deferred := by
  simp only [tagRegs, fset_deferred]
  split_ifs <;> simp only [fset_deferred]

@[simp] theorem freeTag_deferred (n tag : Nat) (s : State) : (freeTag n tag s).deferred = s.deferred := by
  unfold freeTag
  split
  · rfl
  · rw [tagRegs_deferred]

/-! ## Responses (R24, R180, R188) -/

/-- Where no record waits for a tag, none is written as one comes free. -/
theorem flushDeferred_none (hnone : s.deferred = []) : flushDeferred s = s := by
  simp only [flushDeferred, hnone, List.foldl_nil]
  rw [← hnone]

variable {tag status kind server fseq : Nat} {data : List Byte} {e : TagEnt}

theorem transactionResponse_unknown (hnone : ∀ e ∈ tagsOf s ridge, e.tag ≠ tag) :
    transactionResponse ridge tag status kind server fseq data s = s := by
  have hfind : (tagsOf s ridge).find? (fun e => e.tag == tag) = none :=
    List.find?_eq_none.2 fun e he => by simp [hnone e he]
  simp only [transactionResponse, hfind]

theorem transactionResponse_outOfOrder (hfind : (tagsOf s ridge).find? (fun e => e.tag == tag) = some e)
    (horder : outOfOrder s ridge e = true) : transactionResponse ridge tag status kind server fseq data s = s := by
  simp only [transactionResponse, hfind, horder, if_true]

/-- The answer to a request of a requester's own frees its tag, and the records that waited for one are written. -/
theorem transactionResponse_request {pa : Nat} (hfind : (tagsOf s ridge).find? (fun e => e.tag == tag) = some e)
    (horder : outOfOrder s ridge e = false) (hkept : e.abandoned = false) (huse : e.use = .request pa) :
    transactionResponse ridge tag status kind server fseq data s = flushDeferred (freeTag ridge tag s) := by
  simp only [transactionResponse, hfind, horder, hkept, huse, Bool.false_eq_true, if_false]

theorem transactionResponse_chunk {r : XferRef} (hfind : (tagsOf s ridge).find? (fun e => e.tag == tag) = some e)
    (horder : outOfOrder s ridge e = false) (hkept : e.abandoned = false) (huse : e.use = .chunk r) :
    transactionResponse ridge tag status kind server fseq data s =
      flushDeferred (chunkResponse r e status kind server fseq data (freeTag ridge tag s)) := by
  simp only [transactionResponse, hfind, horder, hkept, huse, Bool.false_eq_true, if_false]

end

/-! ## Retirement (R184) -/

/-- A transfer after its oldest chunk: the check value runs on over the chunk's data, and its bytes are counted. -/
def xferRetired (x : Xfer) (ch : Chunk) (rest : List Chunk) : Xfer :=
  let data := ch.pieces.flatMap (·.data)
  { x with
    reg := if dCvu x.desc then cvuStream x.desc (65536 * ch.no) data x.reg else x.reg
    chunk := x.chunk + 1, bytesDone := x.bytesDone + data.length, issued := rest }

/-- A core goes on once a chunk of its transfer has retired; a task's unit has nothing to go on with. -/
def coreResumed : XferRef → State → State
  | .core c _, s => pump c s
  | .task _ _, s => s

theorem chunkRetire_complete {s : State} {r : XferRef} {x : Xfer} {ch : Chunk} {rest : List Chunk} (hx : getXfer s r = some x)
    (hissued : x.issued = ch :: rest) (hruns : x.st < 2) (holdest : ch.no = x.chunk) (hdone : ∀ p ∈ ch.pieces, p.st = 4) :
    let y := xferRetired x ch rest
    chunkRetire r s = coreResumed r (if y.bytesDone = dTotal x.desc then xferDone r (setXfer r y s) else setXfer r y s) := by
  have hretires : ¬(2 ≤ x.st ∨ ch.no ≠ x.chunk ∨ (!ch.pieces.all (fun p => p.st == 4)) = true) := by
    have hall : ch.pieces.all (fun p => p.st == 4) = true := List.all_eq_true.2 fun p hp => by simp [hdone p hp]
    simp [hruns, holdest, hall]
  simp only [chunkRetire, hx, hissued, if_neg hretires]
  cases r <;> rfl

/-- Settles O42: NEAR tasks as they begin and as they take their turns (R164, R165, R169, R170), and tags, responses and retiring chunks
(R179, R180, R184, R185, R187). -/
theorem nearTasksAndTransfers : Obligations.NearTasksAndTransfers := by
  unfold Obligations.NearTasksAndTransfers
  refine ⟨fun s h t k hk hst hend hsafe => ⟨?misaligned, ?start, ?chunk⟩,
    fun s ridge tenant rq => ⟨?acquire, ?noTag, ?response, ?unknown, ?retire⟩⟩
  case misaligned =>
    exact fun hkind hnear ha => congrArg Host.Outcome.next (nearStart_misaligned hk ⟨hkind, hst, hend, hnear, hsafe⟩ ha)
  case start =>
    intro d v hkind hnear ha hread begun
    have hdue : NearDue s k := ⟨hkind, hst, hend, hnear, hsafe⟩
    refine ⟨fun off hbad => congrArg Host.Outcome.next (nearStart_blamed hk hdue ha hread hbad), fun hsound pa w hdst => ?_⟩
    exact ⟨fun hfull => congrArg Host.Outcome.next (nearStart_full hk hdue ha hread hsound hdst hfull),
      fun hroom hserves hchunks hauto =>
        congrArg Host.Outcome.next (nearStart_begins hk hdue ha hread hsound hdst hroom hserves hchunks hauto)⟩
  case chunk =>
    intro r hnear hleft hleast
    have hturn : NearTurn s h t k r := ⟨hst, hend, hsafe, hleft, hleast⟩
    exact ⟨fun htag => congrArg Host.Outcome.next (nearChunk_no_tag hk hnear hturn htag),
      fun w htag => congrArg Host.Outcome.next (nearChunk_done hk hnear hturn htag)⟩
  case acquire =>
    exact fun hridge hfree => ⟨fun pa => congrArg Host.Outcome.next (tagAcquire_request hridge hfree pa),
      fun r hrq htenant => congrArg Host.Outcome.next (tagAcquire_chunk hridge hfree hrq htenant)⟩
  case noTag => exact fun hfree use => congrArg Host.Outcome.next (tagAcquire_no_tag hfree use)
  case response =>
    intro tag e status kind server fseq data hfind
    refine ⟨fun horder => congrArg Host.Outcome.next (transactionResponse_outOfOrder hfind horder), fun horder hkept => ⟨?_, ?_⟩⟩
    · intro pa huse hnone
      have hflush := flushDeferred_none ((freeTag_deferred ridge tag s).trans hnone)
      exact congrArg Host.Outcome.next ((transactionResponse_request hfind horder hkept huse).trans hflush)
    · exact fun r huse => congrArg Host.Outcome.next (transactionResponse_chunk hfind horder hkept huse)
  case unknown =>
    exact fun tag status kind server fseq data hnone => congrArg Host.Outcome.next (transactionResponse_unknown hnone)
  case retire =>
    intro r x ch rest hx hissued hruns holdest hdone
    have hretired := chunkRetire_complete hx hissued hruns holdest hdone
    cases r <;> exact congrArg Host.Outcome.next hretired

end Sys2Proof.Machine
end

section
/-! The collective engines (R205 to R224): each event of a COLLECTIVE task on the branch where it takes effect. -/

namespace Sys2Proof.Machine

/-! ## The run of a task -/

theorem collOf_task {s : State} {h t : Nat} {k : Task} {r : CollRun} (hk : taskOf s h t = some k) (hr : k.coll = some r) :
    collOf s h t = some r := by
  rw [collOf, hk, Option.bind_some, hr]

@[simp] theorem taskOf_setColl (h t : Nat) (r : CollRun) (s : State) :
    taskOf (setColl h t r s) h t = (taskOf s h t).map (fun k => { k with coll := some r }) := taskOf_updTask ..

/-- A change of a run changes the graphs alone. -/
theorem setColl_eq (h t : Nat) (r : CollRun) (s : State) : setColl h t r s = { s with graphs := (setColl h t r s).graphs } :=
  updTask_eq ..

@[simp] theorem setColl_notices (h t : Nat) (r : CollRun) (s : State) : (setColl h t r s).notices = s.notices := by rw [setColl_eq]

@[simp] theorem moduleId_setColl (h t : Nat) (r : CollRun) (s : State) : moduleId (setColl h t r s) = moduleId s := by
  rw [setColl_eq]; rfl

theorem keptNotice_nil {s : State} (hnone : s.notices = []) (h t : Nat) : keptNotice s h t = none := by
  unfold keptNotice
  split
  · rw [hnone, List.find?_nil]
  · rfl

/-- A task that its engine may serve: it runs and has not ended, and the module is not in the safe state. -/
def CollLive (s : State) (k : Task) : Prop := k.st = tsRunning ∧ k.endStatus = none ∧ isSafe s = false

/-! ## Start (R205, R206, R208, R212, R214) -/

section
variable {s v : State} {h t : Nat} {k : Task} {r : CollRun} {d : List Byte} {g : Group}

theorem CollLive.not_held_back (hlive : CollLive s k) (hkind : k.kind = 3) :
    ¬(k.kind ≠ 3 ∨ k.st ≠ tsRunning ∨ k.endStatus.isSome ∨ isSafe s) := by
  obtain ⟨hst, hend, hsafe⟩ := hlive
  simp [hkind, hst, hend, hsafe]

/-- A task without a run is taken in; no notice kept for it ends it. -/
theorem collStart_new {w : State} (hk : taskOf s h t = some k) (hlive : CollLive s k) (hkind : k.kind = 3) (hnew : k.coll = none)
    (hreg : collRegister h t s = w) (hkept : keptNotice w h t = none) : collStart h t s = w := by
  simp only [collStart, hk, if_neg (hlive.not_held_back hkind), hnew, hreg, hkept]

/-- A task with a run goes on with it; no notice kept for it ends it. -/
theorem collStart_listed {w : State} (hk : taskOf s h t = some k) (hlive : CollLive s k) (hkind : k.kind = 3) (hr : k.coll = some r)
    (hgo : collGo h t s = w) (hkept : keptNotice w h t = none) : collStart h t s = w := by
  simp only [collStart, hk, if_neg (hlive.not_held_back hkind), hr, hgo, hkept]

/-- A descriptor that is not aligned is refused with DETAIL 0 (log entry 705). -/
theorem collRegister_misaligned (hk : taskOf s h t = some k) (ha : k.target % 64 ≠ 0) : collRegister h t s = collRefuse h t 0 s := by
  simp only [collRegister, hk, if_pos ha]

/-- A bad field refuses the task; where RIDGE names no ridge either, its participant is not known and no run is listed. -/
theorem collRegister_blamed {o : Nat} (hk : taskOf s h t = some k) (ha : k.target % 64 = 0)
    (hread : vread (.coll k.unit) (tenantOfGraph s h) k.target 64 accRead s = (.ok d, v)) (hg : Mp.find v.groups (cGroup d) = some g)
    (hbad : lowestOff (collBlamed d (nRidges v) g.members.length) = some o) (hridge : nRidges v ≤ cRidge d) :
    collRegister h t s = collRefuse h t o v := by
  simp only [collRegister, collRead, hk, if_neg (not_not.2 ha), hread, hg, hbad, if_neg (Nat.not_lt.2 hridge)]

/-- A sound descriptor that names a ridge goes to that ridge's engine. -/
theorem collRegister_picked (hk : taskOf s h t = some k) (ha : k.target % 64 = 0)
    (hread : vread (.coll k.unit) (tenantOfGraph s h) k.target 64 accRead s = (.ok d, v)) (hg : Mp.find v.groups (cGroup d) = some g)
    (hsound : lowestOff (collBlamed d (nRidges v) g.members.length) = none) (hridge : cRidge d ≠ 0xFF) :
    collRegister h t s = collPick h t (tenantOfGraph v h) d g (cRidge d) v := by
  simp only [collRegister, collRead, hk, if_neg (not_not.2 ha), hread, hg, hsound, if_pos hridge]

/-- A run that is due has the count its group stands at, so the count has not passed it (R212). -/
theorem collDue_not_passed {n : Nat} (hdue : collDue s n r = true) :
    ((groupByGid s r.gid).map (fun p => decide (cSeq r.desc < seqCount p.2 r.rank))).getD false = false := by
  unfold collDue at hdue
  split at hdue
  next => exact absurd hdue Bool.false_ne_true
  next p g hg =>
    simp only [Bool.and_eq_true, beq_iff_eq] at hdue
    obtain ⟨⟨hcount, -⟩, -⟩ := hdue
    simp [hg, hcount]

/-- A run of an operation that moves or adds bytes begins owing its first messages and its contributions (R208, R213). -/
theorem collBegin_plain (hop : cOp r.desc ≠ 7) :
    collBegin h t r s = setColl h t { r with started := true, owed := r.owes, stage := [] } s := by
  have hstage : ({ r with started := true } : CollRun).ownStage = [] := if_neg fun hown => hop hown.1
  simp only [collBegin, hstage]
  rfl

theorem collGo_begins (hk : taskOf s h t = some k) (hr : k.coll = some r) (hnew : r.started = false)
    (hdue : collDue s k.unit r = true) (hroom : collRunning s k.unit + collAhead s k.unit h t < 32) (hreshard : cOp r.desc ≠ 6)
    (hattn : cOp r.desc ≠ 7) :
    collGo h t s = setColl h t { r with started := true, owed := r.owes, stage := [] } s := by
  have hstarts : (collDue s k.unit r && decide (collRunning s k.unit + collAhead s k.unit h t < 32)) = true := by
    rw [hdue, decide_eq_true hroom, Bool.and_self]
  simp only [collGo, hk, collOf_task hk hr, hnew, collDue_not_passed hdue, hstarts, Bool.false_eq_true, if_false, if_true, collAux,
    if_neg hreshard, if_neg hattn, collBegin_plain hattn]

end

/-! ## Sending (R208, R213) -/

section
variable {s v : State} {h t : Nat} {k : Task} {r : CollRun}

theorem collFirstSend_started (hk : taskOf s h t = some k) (hr : k.coll = some r) (hstarted : r.started = true)
    (hsafe : isSafe s = false) :
    collFirstSend h t s = sendFwd h t (r.fwd.length + 1) (sendOwed h t (r.owed.length + 1) s) := by
  have hgo : r.started = true ∧ (!isSafe s) = true := ⟨hstarted, by rw [hsafe]; rfl⟩
  simp only [collFirstSend, collOf_task hk hr, if_pos hgo]

/-- The first message to a peer: it carries the digest and no data (R208). -/
def firstMsg (s : State) (unit : Nat) (r : CollRun) (m : Nat) : CollMsg :=
  ⟨r.gid, cSeq r.desc, partId s unit, m, 0, helloChunk, 0,
    some (r.digest (((groupByGid s r.gid).map (fun p => p.2.tenants)).getD [])), stampAt s (16 + unit), []⟩

/-- A run after its last first message: it owes nothing, and waits for the peer of rank `d` to accept it. -/
def firstSent (now d : Nat) (r : CollRun) : CollRun :=
  { r with owed := [], unacked := r.unacked ++ [(d, helloChunk, 0)], sent := true, tFirst := if r.sent then r.tFirst else now }

theorem sendOwed_done {f : Nat} (hk : taskOf s h t = some k) (hr : k.coll = some r) (hnone : r.owed = []) :
    sendOwed h t (f + 1) s = s := by
  simp only [sendOwed, hk, hr, hnone]

theorem sendFwd_done {f : Nat} (hk : taskOf s h t = some k) (hr : k.coll = some r) (hnone : r.fwd = []) :
    sendFwd h t (f + 1) s = s := by
  simp only [sendFwd, hk, collOf_task hk hr, hnone]

/-- A message to a ridge of this module stands in the list of those under way between its ridges (log entry 707). -/
theorem sendColl_within {ridge tenant vc : Nat} {use : TagUse} {m : CollMsg} (hmod : m.receiver / 4 = moduleId s)
    (hpath : ringPath s ridge (m.receiver % 4) (msgAddr m) = true) :
    sendColl ridge tenant vc use m s = .ok { s with collNet := s.collNet ++ [m] } := by
  simp only [sendColl, if_pos hmod, if_pos hpath]

/-- A first message is sent once T_NOT_BEFORE has come, if nothing was sent before it. -/
theorem sendOwed_first {f d m : Nat} (hk : taskOf s h t = some k) (hlive : CollLive s k) (hr : k.coll = some r) (hattn : cOp r.desc ≠ 7)
    (howed : r.owed = [(d, helloChunk, 0)]) (hpeer : d ≠ r.rank) (hm : r.members[d]? = some m) (hmod : m / 4 = moduleId s)
    (htime : r.sent = true ∨ leAt r.desc 0x38 8 ≤ stampAt s (16 + k.unit))
    (hpath : ringPath s k.unit (m % 4) (msgAddr (firstMsg s k.unit r m)) = true) :
    sendOwed h t (f + 1) s = sendOwed h t f (setColl h t (firstSent (stampAt s (16 + k.unit)) d r)
      { s with collNet := s.collNet ++ [firstMsg s k.unit r m] }) := by
  obtain ⟨hst, hend, -⟩ := hlive
  have hgo : ¬(k.st ≠ tsRunning ∨ k.endStatus.isSome ∨ ((!r.sent) = true ∧ stampAt s (16 + k.unit) < leAt r.desc 0x38 8)) := by
    rcases htime with hsent | htime
    · simp [hst, hend, hsent]
    · simp [hst, hend, Nat.not_lt.2 htime]
  have hdata : owedData s h k.unit r d helloChunk 0 = (.ok [], s) := by simp only [owedData, if_true, if_neg hattn]
  have hsend := sendColl_within (tenant := tenantOfGraph s h) (vc := cVc r.desc) (use := .coll h t d helloChunk 0)
    (m := firstMsg s k.unit r m) hmod hpath
  rw [firstMsg] at hsend
  simp only [sendOwed, hk, hr, howed, if_neg hgo, hdata, if_neg hpeer, if_neg hattn, if_true, hm, Option.getD_some, hsend]
  rfl

/-- A participant that owes one first message, to a peer in this module, sends it and nothing else. -/
theorem collFirstSend_first {d m : Nat} (hk : taskOf s h t = some k) (hlive : CollLive s k) (hr : k.coll = some r)
    (hstarted : r.started = true) (hattn : cOp r.desc ≠ 7) (hfwd : r.fwd = []) (howed : r.owed = [(d, helloChunk, 0)])
    (hpeer : d ≠ r.rank) (hm : r.members[d]? = some m) (hmod : m / 4 = moduleId s)
    (htime : r.sent = true ∨ leAt r.desc 0x38 8 ≤ stampAt s (16 + k.unit))
    (hpath : ringPath s k.unit (m % 4) (msgAddr (firstMsg s k.unit r m)) = true) :
    collFirstSend h t s = setColl h t (firstSent (stampAt s (16 + k.unit)) d r)
      { s with collNet := s.collNet ++ [firstMsg s k.unit r m] } := by
  have hafter : taskOf (setColl h t (firstSent (stampAt s (16 + k.unit)) d r)
      { s with collNet := s.collNet ++ [firstMsg s k.unit r m] }) h t =
        some { k with coll := some (firstSent (stampAt s (16 + k.unit)) d r) } :=
    (taskOf_setColl ..).trans (congrArg (Option.map _) hk)
  have ⟨_, _, hsafe⟩ := hlive
  rw [collFirstSend_started hk hr hstarted hsafe, sendOwed_first hk hlive hr hattn howed hpeer hm hmod htime hpath, howed,
    List.length_singleton, sendOwed_done hafter rfl rfl, sendFwd_done hafter rfl hfwd]

end

/-! ## Retirement, commit and staging (R211, R212, R214, R224) -/

section
variable {s v : State} {h t : Nat} {k : Task} {r : CollRun}

/-- A run after a chunk has retired: what arrived for it is dropped, but SMERGE merges whole sources. -/
def chunkRetired (r : CollRun) : CollRun :=
  { r with chunk := r.chunk + 1, got := if cOp r.desc = 8 then r.got else r.got.filter (fun p => p.2.1 != r.chunk) }

theorem collChunkRetire_ready {b : List Byte} (hk : taskOf s h t = some k) (hlive : CollLive s k) (hr : k.coll = some r)
    (hstarted : r.started = true) (hattn : cOp r.desc ≠ 7) (hleft : r.chunk < r.chunks) (hready : chunkReady r r.chunk = true)
    (hwrite : vwrite (.coll k.unit) (tenantOfGraph s h) ((cDst r.desc + 65536 * r.chunk) % 2 ^ 64) (chunkBytes r r.chunk).1 accWrite s
      = (.ok b, v)) :
    collChunkRetire h t s = updTask h t (fun k => { k with
      flags := k.flags ||| (chunkBytes r r.chunk).2.toNat / 65536 % 64, coll := some (chunkRetired r) }) v := by
  obtain ⟨hst, hend, hsafe⟩ := hlive
  have hgo : ¬(!r.started || k.st != tsRunning || k.endStatus.isSome || isSafe s || cOp r.desc == 7 || decide (r.chunks ≤ r.chunk)
      || !chunkReady r r.chunk) = true := by
    simp [hstarted, hst, hend, hsafe, hattn, hleft, hready]
  simp only [collChunkRetire, hk, hr, if_neg hgo, hwrite]
  rfl

/-- The sequence count of a run's participant moves past its COLL_SEQ (R212). -/
def countAdvanced (r : CollRun) (s : State) : State :=
  match groupByGid s r.gid with
  | some (n, g) => { s with groups := Mp.ins s.groups n { g with counts := Mp.put 0 g.counts r.rank (cSeq r.desc + 1) } }
  | none => s

theorem collCommit_done (hk : taskOf s h t = some k) (hlive : CollLive s k) (hr : k.coll = some r) (hdone : collDone r = true) :
    let w := countAdvanced r (putCollRecord h t 5 0 0 s)
    collCommit h t s = settle (makeFinal h t 0 0 (homeStamp w h t) w) := by
  obtain ⟨hst, hend, hsafe⟩ := hlive
  have hgo : ¬(k.st ≠ tsRunning ∨ k.endStatus.isSome ∨ (!collDone r) = true ∨ isSafe s) := by simp [hst, hend, hdone, hsafe]
  simp only [collCommit, hk, hr, if_neg hgo]
  rfl

/-- The next block is staged once a FREE credit of every consumer is taken (R224). -/
theorem attnStage_credited {r' : CollRun} {q step j : Nat} {data : List Byte} (hk : taskOf s h t = some k) (hlive : CollLive s k)
    (hr : k.coll = some r) (hstarted : r.started = true) (hattn : cOp r.desc = 7) (hnext : stageNext r = some (q, step, j, data))
    (hfree : takeFree h t (aConsumers r.aux + 1) s = (true, v)) (hr' : collOf v h t = some r') :
    attnStage h t s = attnPut h t (tenantOfGraph s h) k r' q step j data v := by
  obtain ⟨hst, hend, hsafe⟩ := hlive
  have hgo : ¬(!r.started || cOp r.desc != 7 || k.st != tsRunning || k.endStatus.isSome || isSafe s) = true := by
    simp [hstarted, hattn, hst, hend, hsafe]
  simp only [attnStage, hk, collOf_task hk hr, if_neg hgo, hnext, hfree, hr', Bool.not_true, Bool.false_eq_true, if_false]

end

/-! ## Messages and notices (R203, R208, R213, R215) -/

section
variable {s : State} {h t ridge : Nat} {k : Task} {r : CollRun}

/-- The oldest message of its pair and collective that is under way in this module arrives at the engine of its receiver (R23). -/
theorem collMessage_within {m : CollMsg} (hsafe : isSafe s = false) (hmod : m.sender / 4 = moduleId s)
    (hto : m.receiver = partId s ridge) (hpath : ringPath s (m.sender % 4) ridge (msgAddr m) = true)
    (hold : s.collNet.find? (fun x => x.sender == m.sender && x.receiver == m.receiver && x.group == m.group && x.seq == m.seq)
      = some m) :
    collMessage ridge m s = (collReceive ridge m { s with collNet := s.collNet.erase m }).getD s := by
  simp only [collMessage, hsafe, Bool.false_eq_true, if_false, if_pos hmod, if_pos (And.intro hold (And.intro hto hpath))]
  cases collReceive ridge m { s with collNet := s.collNet.erase m } <;> rfl

theorem collMessage_far {m : CollMsg} (hsafe : isSafe s = false) (hmod : m.sender / 4 ≠ moduleId s) :
    collMessage ridge m s = (collReceive ridge m s).getD s := by
  simp only [collMessage, hsafe, Bool.false_eq_true, if_false, if_neg hmod]

/-- A sender in another module is not told that its message was accepted. -/
theorem collAck_far {m : CollMsg} (hmod : m.sender / 4 ≠ moduleId s) (rank : Nat) : collAck m rank s = s := by
  simp only [collAck, if_pos hmod]

/-- A message of data for a started run: it is accepted if it comes next of its contribution (R213). -/
theorem collReceive_data {m : CollMsg} {n : Nat} {g : Group} (hg : groupByGid s m.group = some (n, g))
    (hfrom : g.members.contains m.sender = true) (hto : g.members.contains (partId s ridge) = true)
    (hfind : collFind s ridge m.group m.seq = some (h, t, k, r)) (hlive : CollLive s k) (hstarted : r.started = true)
    (hdata : m.digest = none) (hattn : cOp r.desc ≠ 7) :
    let q := (r.members.idxOf? m.sender).getD 0
    collReceive ridge m s = if m.off ≠ gotLen r q m.chunk then none
      else some (collAck m r.rank (setColl h t { r with got := addGot q m.chunk m.data r.got, tLast := m.stamp } s)) := by
  obtain ⟨hst, hend, -⟩ := hlive
  have hshared : ¬(!g.members.contains m.sender || !g.members.contains (partId s ridge)) = true := by rw [hfrom, hto]; decide
  have htakes : ¬(!r.started || k.st != tsRunning || k.endStatus.isSome) = true := by simp [hstarted, hst, hend]
  simp only [collReceive, hg, if_neg hshared, hfind, if_neg htakes, hdata, if_neg hattn]

/-- A notice from a ridge of this module is taken from those under way. -/
theorem noticeReceive_within {n : FailNotice} (hmod : n.sender / 4 = moduleId s) (hmem : n ∈ s.notices)
    (hto : n.receiver = partId s ridge) (hpath : ringPath s (n.sender % 4) ridge 0 = true) :
    noticeReceive ridge n s = takeNotice ridge n { s with notices := s.notices.erase n } := by
  have harrives : s.notices.contains n = true ∧ n.receiver = partId s ridge ∧ ringPath s (n.sender % 4) ridge 0 = true :=
    ⟨List.contains_iff_mem.2 hmem, hto, hpath⟩
  simp only [noticeReceive, if_pos hmod, if_pos harrives]

theorem noticeReceive_far {n : FailNotice} (hmod : n.sender / 4 ≠ moduleId s)
    (hfind : collFind s ridge n.group n.seq = some (h, t, k, r)) : noticeReceive ridge n s = applyNotice h t n s := by
  simp only [noticeReceive, if_neg hmod, takeNotice, hfind]

/-- The record of a task ended by a peer's failure: its detail names the peer's module, and the kind and number of its fault (R209,
R215). -/
def peerFault (s : State) (h t : Nat) (k : Task) (n : FailNotice) : State :=
  faultRec { kind := 0x13, t := stampAt s (16 + k.unit), source := 4, tenant := tenantOfGraph s h, unit := 16 + k.unit, handle := h
             task := t, detail := n.sender / 4 + n.kind % 65536 * 2 ^ 16 + n.fseq % 2 ^ 32 * 2 ^ 32, origin := k.target } s

theorem applyNotice_ends {n : FailNotice} (hk : taskOf s h t = some k) (hend : k.endStatus = none) (hn : n.undefinedGroup = false) :
    applyNotice h t n s = collEnd h t stDmaError 0x13 (nextFseq s) (peerFault s h t k n) := by
  simp only [applyNotice, hk, hend, hn, Option.isSome_none, Bool.false_eq_true, if_false]
  rfl

end

/-- Settles O43: COLLECTIVE tasks as they start (R206, R208, R212, R214), what they send, receive and retire (R210, R213, R223), their
commit and their end by a notice (R216), and attention blocks (R224). A misaligned descriptor has DETAIL 0 (log entry 705), and messages
within the module stand in a list (log entry 707). -/
theorem collectiveEvents : Obligations.CollectiveEvents := by
  unfold Obligations.CollectiveEvents
  intro s h t k hk hst hend hsafe
  have hlive : CollLive s k := ⟨hst, hend, hsafe⟩
  refine ⟨?misaligned, ?register, ?begin, fun r hr => ⟨?send, ?first, ?retire, ?commit, ?stage⟩, ?within, ?far, ?notice, ?farNotice⟩
  case misaligned =>
    exact fun hkind hnew ha hkept =>
      congrArg Host.Outcome.next (collStart_new hk hlive hkind hnew (collRegister_misaligned hk ha) hkept)
  case register =>
    intro d v g hkind hnew ha hread hg
    exact ⟨fun o hbad hridge hkept => congrArg Host.Outcome.next
        (collStart_new hk hlive hkind hnew (collRegister_blamed hk ha hread hg hbad hridge) hkept),
      fun hsound hridge hkept => congrArg Host.Outcome.next
        (collStart_new hk hlive hkind hnew (collRegister_picked hk ha hread hg hsound hridge) hkept)⟩
  case begin =>
    intro r hkind hr hnew hnone hdue hroom hreshard hattn
    have hkept := keptNotice_nil ((setColl_notices h t { r with started := true, owed := r.owes, stage := [] } s).trans hnone) h t
    exact congrArg Host.Outcome.next (collStart_listed hk hlive hkind hr (collGo_begins hk hr hnew hdue hroom hreshard hattn) hkept)
  case send => exact fun hstarted => congrArg Host.Outcome.next (collFirstSend_started hk hr hstarted hsafe)
  case first =>
    intro d m hstarted hattn hfwd howed hpeer hm hmod htime now msg hpath
    exact congrArg Host.Outcome.next (collFirstSend_first hk hlive hr hstarted hattn hfwd howed hpeer hm hmod htime hpath)
  case retire =>
    exact fun b v hstarted hattn hleft hready hwrite =>
      congrArg Host.Outcome.next (collChunkRetire_ready hk hlive hr hstarted hattn hleft hready hwrite)
  case commit => exact fun hdone => congrArg Host.Outcome.next (collCommit_done hk hlive hr hdone)
  case stage =>
    exact fun q step j data r2 hstarted hattn hnext hfree hr2 => congrArg Host.Outcome.next
      (attnStage_credited hk hlive hr hstarted hattn hnext (Prod.ext hfree rfl) hr2)
  case within => exact fun ridge m hmod hto hpath hold => congrArg Host.Outcome.next (collMessage_within hsafe hmod hto hpath hold)
  case far =>
    intro ridge m n g r hmod hg hfrom hto hfind hstarted hdata hattn q
    have hdone := (collMessage_far hsafe hmod).trans
      (congrArg (·.getD s) (collReceive_data hg hfrom hto hfind hlive hstarted hdata hattn))
    refine ⟨fun hoff => congrArg Host.Outcome.next (hdone.trans ?late), fun hoff => congrArg Host.Outcome.next (hdone.trans ?next)⟩
    case late => rw [if_pos hoff]; rfl
    case next =>
      rw [if_neg (not_not.2 hoff), Option.getD_some]
      exact collAck_far ((moduleId_setColl ..).symm ▸ hmod) r.rank
  case notice =>
    exact fun ridge n hmod hmem hto hpath => congrArg Host.Outcome.next (noticeReceive_within hmod hmem hto hpath)
  case farNotice =>
    exact fun ridge n r hmod hfind hgroup =>
      congrArg Host.Outcome.next ((noticeReceive_far hmod hfind).trans (applyNotice_ends hk hend hgroup))

end Sys2Proof.Machine
end

section
/-! A base die's identity (R249 to R251) and the fences of units (R254, R255): no occurrence of a fault source and no fence writes
JXL_IDENT, so the straps read after an identity conflict as they did before it. -/

namespace Sys2Proof.Machine

/-! ## Registers that fault paths and fences leave alone -/

/-- A value of the state that no step of a fold changes is the same after the fold. -/
theorem foldl_same {σ α β : Type} (f : σ → α → σ) (g : σ → β) (h : ∀ s x, g (f s x) = g s) (l : List α) (s : σ) :
    g (l.foldl f s) = g s := by
  induction l generalizing s with
  | nil => rfl
  | cons x r ih => rw [List.foldl_cons, ih, h]

/-- A register outside the Col die's window, outside the fault blocks of its unit, and none of those in which a fence shows: the state
of a stack, of a die-link port and its event, of a UCIe site, and of a compute die. -/
def FaultFree (a : Nat) : Prop :=
  0x4000000 ≤ a ∧ a % 0x4000000 < 0x3F00000 ∧ a % 0x4000000 ≠ 0x50000 ∧
    (a % 0x4000000 < 0x200100 ∨ 0x200160 ≤ a % 0x4000000) ∧ (a % 0x4000000 < 0x400100 ∨ 0x400160 ≤ a % 0x4000000) ∧
    (a % 0x4000000 < 0x500000 ∨ 0x500040 ≤ a % 0x4000000)

theorem faultFree_ident (q : Nat) : FaultFree (rJXL_IDENT q) := by
  have hoff : rJXL_IDENT q % 0x4000000 = 0x400000 := by simp [rJXL_IDENT, bdA, unitA]
  have hlo : 0x4000000 ≤ rJXL_IDENT q := by simp only [rJXL_IDENT, bdA, unitA]; omega
  unfold FaultFree
  omega

section
variable {a : Nat} (ha : FaultFree a)
include ha

theorem FaultFree.ne_col {off : Nat} (h : off < 0x4000000) : a ≠ colA off := by
  obtain ⟨hlo, -⟩ := ha
  unfold colA
  omega

/-- It lies in no fault block. -/
theorem FaultFree.ne_block {u off : Nat} (hlo : 0x3F00000 ≤ off) (hhi : off < 0x4000000) : a ≠ unitA u off := by
  obtain ⟨-, hflt, -⟩ := ha
  unfold unitA
  omega

theorem FaultFree.regVal_trace (src unit type tenant t : Nat) (payload : List Byte) (s : State) :
    regVal (trace src unit type tenant t payload s) a = regVal s a := by
  unfold trace
  refine (foldl_same _ (regVal · a) (fun s p => ?_) _ _).trans rfl
  dsimp only
  split
  · split
    · rfl
    · exact regVal_fset_ne _ _ _ _ _ (ha.ne_col (by decide))
  · rfl

theorem FaultFree.regVal_faultRec (f : FaultInfo) (s : State) : regVal (faultRec f s) a = regVal s a := by
  unfold faultRec
  rw [ha.regVal_trace]
  split
  · rfl
  · exact regVal_fset_ne _ _ _ _ _ (ha.ne_col (by decide))

theorem FaultFree.regVal_report (u t core detail : Nat) (s : State) : regVal (report u t core detail s) a = regVal s a := by
  unfold report blockEvent
  split
  · exact ha.regVal_faultRec _ _
  · split
    · exact ha.regVal_faultRec _ _
    · rfl

theorem FaultFree.regVal_fenceOne (cause : Nat) (s : State) (u : Nat) : regVal (fenceOne cause s u) a = regVal s a := by
  obtain ⟨-, -, hcd, hstack, hport, hsite⟩ := ha
  have hp : u % 3 < 3 := Nat.mod_lt _ (by decide)
  have hevt : a ≠ rJXL_PORT_EVT (u / 3) (u % 3) := by unfold rJXL_PORT_EVT bdA unitA; omega
  have hstatus : a ≠ rJXL_PORT_STATUS (u / 3) (u % 3) := by unfold rJXL_PORT_STATUS bdA unitA; omega
  have hdie : a ≠ rJXL_CD_STATUS u := by unfold rJXL_CD_STATUS cdA unitA; omega
  have hst : a ≠ rMEM_STACK_STATUS ((u - 32) / 6) ((u - 32) % 6) := by unfold rMEM_STACK_STATUS bdA unitA; omega
  have huci : a ≠ rUCI_SITE_STATUS ((u - 80) / 4) ((u - 80) % 4) := by unfold rUCI_SITE_STATUS bdA unitA; omega
  unfold fenceOne
  split
  · dsimp only
    split
    · rw [regVal_fset_ne _ _ _ _ _ hevt, regVal_fset_ne _ _ _ _ _ hevt, regVal_fset_ne _ _ _ _ _ hstatus,
        regVal_fset_ne _ _ _ _ _ hdie]
      rfl
    · split
      · exact regVal_fset_ne _ _ _ _ _ hst
      · split
        · exact regVal_fset_ne _ _ _ _ _ huci
        · rfl
  · rfl

theorem FaultFree.regVal_fenceStart (u cause : Nat) (s : State) : regVal (fenceStart u cause s) a = regVal s a := by
  unfold fenceStart
  split
  · rw [foldl_same _ (regVal · a) (ha.regVal_fenceOne cause), ha.regVal_fenceOne]
  · exact ha.regVal_fenceOne cause s u

theorem FaultFree.regVal_enterSafe (source : Nat) (s : State) : regVal (enterSafe source s) a = regVal s a := by
  have hcause : regVal (if fget s rFLT_SAFE_INFO fFLT_SAFE_INFO_VALID = 0 then
      regPut rFLT_SAFE_T (BitVec.ofNat 64 s.crest)
        (fset rFLT_SAFE_INFO fFLT_SAFE_INFO_VALID 1 (fset rFLT_SAFE_INFO fFLT_SAFE_INFO_SOURCE source s))
      else s) a = regVal s a := by
    have hinfo : a ≠ rFLT_SAFE_INFO := ha.ne_col (by decide)
    have htime : a ≠ rFLT_SAFE_T := ha.ne_col (by decide)
    split
    · rw [regVal_regPut_ne _ _ _ _ htime, regVal_fset_ne _ _ _ _ _ hinfo, regVal_fset_ne _ _ _ _ _ hinfo]
    · rfl
  have hblank (t : State) : regVal (if isSafe t then t else
      (List.range (nSites t)).foldl (fun s k => emit (.sideband k 6 []) s) t) a = regVal t a := by
    split
    · rfl
    · exact foldl_same (fun s k => emit (.sideband k 6 []) s) (regVal · a) (fun _ _ => rfl) _ _
  have hshow (t : State) : regVal (showFault t) a = regVal t a := by unfold showFault; split <;> rfl
  exact (hshow _).trans ((regVal_fset_ne _ _ _ _ _ (ha.ne_col (by decide))).trans ((hblank _).trans hcause))

/-- What a fault source writes in its own block, and what its occurrence causes (R428 to R431), lies elsewhere. -/
theorem FaultFree.regVal_occur {b : Nat} (hb : b < 6) (u src core : Nat) (inj : Bool) (s : State) :
    regVal (occur u b src core inj s) a = regVal s a := by
  have hstatus : a ≠ rFLT_STATUS u b := ha.ne_block (by omega) (by omega)
  have hcount : a ≠ rFLT_COUNT u b := ha.ne_block (by omega) (by omega)
  have hfirst : a ≠ rFLT_FIRST u b := ha.ne_block (by omega) (by omega)
  have htime : a ≠ rFLT_FIRST_T u b := ha.ne_block (by omega) (by omega)
  have hsticky : regVal (fcount (rFLT_COUNT u b) fFLT_COUNT_COUNT 1 (fsetBit (rFLT_STATUS u b) fFLT_STATUS_STICKY src true s)) a
      = regVal s a := (regVal_fset_ne _ _ _ _ _ hcount).trans (regVal_fset_ne _ _ _ _ _ hstatus)
  have hnoted (now : Nat) (c : Bool) (t : State) : regVal (if c then
      regPut (rFLT_FIRST_T u b) (BitVec.ofNat 64 now)
        (fset (rFLT_FIRST u b) fFLT_FIRST_VALID 1 (fset (rFLT_FIRST u b) fFLT_FIRST_SRC src t)) else t) a = regVal t a := by
    split
    · rw [regVal_regPut_ne _ _ _ _ htime, regVal_fset_ne _ _ _ _ _ hfirst, regVal_fset_ne _ _ _ _ _ hfirst]
    · rfl
  have hreported (c : Bool) (now detail : Nat) (t : State) :
      regVal (if c then t else report u now core detail t) a = regVal t a := by
    split
    · rfl
    · exact ha.regVal_report ..
  unfold occur
  split
  · rfl
  · dsimp only
    split
    · split
      · exact (ha.regVal_enterSafe ..).trans ((hreported ..).trans ((hnoted ..).trans hsticky))
      · exact (ha.regVal_fenceStart ..).trans ((hreported ..).trans ((hnoted ..).trans hsticky))
    · split
      · exact (ha.regVal_enterSafe ..).trans ((hreported ..).trans ((hnoted ..).trans hsticky))
      · exact (hreported ..).trans ((hnoted ..).trans hsticky)

/-- A field of such a register reads after an occurrence as before it. -/
theorem FaultFree.fget_occurs {b : Nat} (hb : b < 6) (u src : Nat) (f : Fld) (s : State) :
    fget (occurs u b src s) a f = fget s a f := by
  unfold fget occurs
  rw [ha.regVal_occur hb]

end

/-! ## Where an identity comes from (R249 to R251) -/

section
variable {s : State} {q : Nat}

/-- A base die in use takes an identity from the die beside it if it has none, or only its straps'. -/
theorem identReceive_takes {e : Bool} {m : Nat} (hq : q < nRidges s) (hok : dieOk s (16 + q) = true)
    (hfree : (jPort s q (if e then 3 else 4)).conflict = false)
    (hsrc : fget s (rJXL_IDENT q) fJXL_IDENT_SOURCE = 0 ∨ fget s (rJXL_IDENT q) fJXL_IDENT_SOURCE = 4) :
    identReceive q e m s = takeIdentity q (if e then (m + 3) % 4 else (m + 1) % 4) (if e then 3 else 2) s := by
  simp [identReceive, Nat.not_le.2 hq, hok, hfree, hsrc]

/-- An identity that agrees with the one it has changes nothing. -/
theorem identReceive_agrees {e : Bool} {m : Nat} (hfirst : fget s (rJXL_IDENT q) fJXL_IDENT_SOURCE ≠ 0)
    (hstrap : fget s (rJXL_IDENT q) fJXL_IDENT_SOURCE ≠ 4)
    (hid : fget s (rJXL_IDENT q) fJXL_IDENT_ID = if e then (m + 3) % 4 else (m + 1) % 4) : identReceive q e m s = s := by
  simp [identReceive, hfirst, hstrap, hid]

/-- One that disagrees is a conflict; with no straps to decide, both bridges go down. -/
theorem identReceive_conflict {e : Bool} {m : Nat} (hq : q < nRidges s) (hok : dieOk s (16 + q) = true)
    (hfree : (jPort s q (if e then 3 else 4)).conflict = false) (hfirst : fget s (rJXL_IDENT q) fJXL_IDENT_SOURCE ≠ 0)
    (hstrap : fget s (rJXL_IDENT q) fJXL_IDENT_SOURCE ≠ 4)
    (hid : fget s (rJXL_IDENT q) fJXL_IDENT_ID ≠ if e then (m + 3) % 4 else (m + 1) % 4)
    (hnone : fget s (rJXL_IDENT q) fJXL_IDENT_STRAP_OK = 0) :
    identReceive q e m s = linksSettle (conflictDown q (occurs (1 + q) 0 18 (fset (rJXL_IDENT q) fJXL_IDENT_CONFLICT 1 s))) := by
  have hafter : fget (occurs (1 + q) 0 18 (fset (rJXL_IDENT q) fJXL_IDENT_CONFLICT 1 s)) (rJXL_IDENT q) fJXL_IDENT_STRAP_OK = 0 := by
    rw [(faultFree_ident q).fget_occurs (by decide), fget_fset_apart _ _ _ _ _ (by decide) (by decide), hnone]
  simp [identReceive, Nat.not_le.2 hq, hok, hfree, hfirst, hstrap, hid, hafter]

/-- Without an identity from the links, straps of odd parity give one (R250). -/
theorem strapTimeout_straps (hq : q < nRidges s) (hnone : identified s q = false)
    (hok : fget s (rJXL_IDENT q) fJXL_IDENT_STRAP_OK = 1) :
    strapTimeout q s = takeIdentity q (fget s (rJXL_IDENT q) fJXL_IDENT_STRAP_ROT) 4 s := by
  simp [strapTimeout, Nat.not_le.2 hq, hnone, hok]

/-- With no straps either, the die stays in reset (R250). -/
theorem strapTimeout_fails (hq : q < nRidges s) (hnone : identified s q = false)
    (hbad : fget s (rJXL_IDENT q) fJXL_IDENT_STRAP_OK = 0) :
    strapTimeout q s = occurs (1 + q) 0 20 (fset (rJXL_IDENT q) fJXL_IDENT_FAILED 1 { s with
      boot := { s.boot with stable := s.boot.stable.filter (fun b => !unitBlocks (16 + q) b) } }) := by
  simp [strapTimeout, Nat.not_le.2 hq, hnone, hbad]

/-- The identity reported is the quadrant's own, or the die is fenced (R251). -/
theorem stolonReport_identified (hq : q < nRidges s) (hid : identified s q = true) :
    let v := topoSet fMGT_TOPOLOGY_STOLON_UP q true s
    stolonReport q s = if fget v (rJXL_IDENT q) fJXL_IDENT_ID = q then v
      else fenceStart (16 + q) 6 (occurs (1 + q) 0 18 (fset (rJXL_IDENT q) fJXL_IDENT_CONFLICT 1 v)) := by
  simp [stolonReport, Nat.not_le.2 hq, hid]

end

/-! ## Fences (R254, R255) -/

theorem exec_fenceTrigger (u : Nat) (cause : FenceCause) (s : State) :
    exec (.fenceTrigger u cause) s = .next (if isUnitCode s u then fenceStart u (causeCode cause) s else s) := rfl

theorem fenceDone_idle {s : State} {u : Nat} (h : (dieOf s u).st ≠ 1) : fenceDone u s = s := if_pos h

/-- Settles O45: identities that base dies take from the links and their straps, and those that conflict (R249 to R251); fences as they
begin and complete (R254 to R256), whose topology bits change when the fence is complete (log entry 931). -/
theorem identitiesAndFences : Obligations.IdentitiesAndFences := by
  unfold Obligations.IdentitiesAndFences
  refine ⟨fun s q m e hq => ⟨fun hok hfree => ⟨?take, ?agree, ?conflict⟩, ?strap, ?strapless, ?stolon⟩,
    fun s u => ⟨?trigger, ?noUnit, ?idle, ?complete⟩⟩
  case take => exact fun hsrc => congrArg Host.Outcome.next (identReceive_takes hq hok hfree hsrc)
  case agree => exact fun hfirst hstrap hid => congrArg Host.Outcome.next (identReceive_agrees hfirst hstrap hid)
  case conflict =>
    exact fun hfirst hstrap hid hnone => congrArg Host.Outcome.next (identReceive_conflict hq hok hfree hfirst hstrap hid hnone)
  case strap => exact fun hnone hok => congrArg Host.Outcome.next (strapTimeout_straps hq hnone hok)
  case strapless => exact fun hnone hbad => congrArg Host.Outcome.next (strapTimeout_fails hq hnone hbad)
  case stolon => exact fun hid => congrArg Host.Outcome.next (stolonReport_identified hq hid)
  case trigger => exact fun cause hunit => by rw [exec_fenceTrigger, if_pos hunit]
  case noUnit => exact fun cause hunit => by rw [exec_fenceTrigger, hunit, if_neg Bool.false_ne_true]
  case idle => exact fun hst => congrArg Host.Outcome.next (fenceDone_idle hst)
  case complete => exact fun hst => congrArg Host.Outcome.next (if_neg (not_not.2 hst))

end Sys2Proof.Machine
end

section
/-! Beats of die links (R235, R239): what a beat in order does besides being accepted. -/

namespace Sys2Proof.Machine

/-- The state after a beat that is whole and in order: its parity errors are counted, and its credits, acknowledgement and data taken
(R232, R235, R239). -/
def beatAccepted (n p : Nat) (flits : List (List Byte)) (s : State) : State :=
  let j := jPort s n p
  let u := flits.zipIdx.foldl (fun s f => noteParity n p ((j.map[f.2]?).getD f.2) (parityErrors f.1) s) s
  beatData n p flits (beatAcks n p flits (beatCredits n p flits
    (updJ n p (fun j => { j with expect := (j.expect + 1) % 256, naked := false, heard := j.heard + 1 }) u)))

/-- Parity errors are counted beside the registers (log entry 808). -/
theorem fget_noteParity (n p g k a : Nat) (f : Fld) (s : State) : fget (noteParity n p g k s) a f = fget s a f := by
  unfold noteParity
  split <;> rfl

/-- Once the beat is accepted, the port serves the management requests that stand first in its receive buffer. -/
theorem jxlBeatReceive_inOrder {s : State} {n p : Nat} {flits : List (List Byte)} (hup : jxlState s n p = 3)
    (hloop : s.test.loops.contains (8 * n + p) = false) (hwhole : ∀ l ∈ flits, flitOk l = true)
    (hwidth : flits.length = fget s (rJXL_PORT_STATUS n p) fJXL_PORT_STATUS_WIDTH)
    (hseq : ∀ l ∈ flits, fTrail l 0 8 = (jPort s n p).expect) :
    exec (.jxlBeatReceive n p flits) s = .next (portServe n p (beatAccepted n p flits s)) := by
  have hbad : flits.filter (fun l => !flitOk l) = [] := List.filter_eq_nil_iff.2 fun l hl => by simp [hwhole l hl]
  have hgroups : fget (flits.zipIdx.foldl (fun s' f => noteParity n p (((jPort s n p).map[f.2]?).getD f.2) (parityErrors f.1) s') s)
      (rJXL_PORT_STATUS n p) fJXL_PORT_STATUS_WIDTH = flits.length := by
    rw [foldl_same _ (fget · (rJXL_PORT_STATUS n p) fJXL_PORT_STATUS_WIDTH) (fun _ _ => fget_noteParity ..), hwidth]
  have hall : flits.all (fun l => fTrail l 0 8 == (jPort s n p).expect) = true :=
    List.all_eq_true.2 fun l hl => beq_iff_eq.2 (hseq l hl)
  refine congrArg (fun t => Host.Outcome.next (portServe n p t)) ?_
  have hnoLoop : 8 * n + p ∉ s.test.loops := by simpa using hloop
  simp [beatReceive, beatAccepted, hup, hnoLoop, hbad, hgroups, hall]

/-- BD0's E port, UP with one logical group, nothing sent or received yet. -/
def freshPort : State := fset (rJXL_PORT_STATUS 0 3) fJXL_PORT_STATUS_WIDTH 1 (jxlSet 0 3 3 State.reset)

/-- The first flit of BD1: a management request that reads the register at address 0, for a unit (code 20) that is no die of the module,
which BD0 takes as its own. -/
def requestFlit : List Byte := mkFlit (jPacket 8 0 0 0 0 5 17 20 0 []) 1 0 0 0 0 false false

theorem requestFlit_inOrder : jxlState freshPort 0 3 = 3 ∧ freshPort.test.loops.contains (8 * 0 + 3) = false ∧ flitOk requestFlit = true ∧
    fget freshPort (rJXL_PORT_STATUS 0 3) fJXL_PORT_STATUS_WIDTH = 1 ∧ fTrail requestFlit 0 8 = (jPort freshPort 0 3).expect := by
  decide +kernel

/-- Accepted, the request stands in the receive buffer. -/
theorem request_accepted : (jPort (beatAccepted 0 3 [requestFlit] freshPort) 0 3).rxq.length = 1 := by decide +kernel

/-- Served, it has left it. -/
theorem request_served : (jPort (portServe 0 3 (beatAccepted 0 3 [requestFlit] freshPort)) 0 3).rxq.length = 0 := by decide +kernel

/-- Refutes O44: a beat in order leaves more than the state of its acceptance where it brings a management request for the base die's
own units, since the port serves the request at once. BD0's E port takes in such a request in its first beat. -/
theorem not_dieLinks : ¬ Obligations.DieLinks := by
  unfold Obligations.DieLinks
  rintro ⟨hbeats, -⟩
  obtain ⟨hup, hloop, hwhole, hwidth, hseq⟩ := requestFlit_inOrder
  obtain ⟨-, hreceive, -⟩ := hbeats freshPort 0 3 hup
  obtain ⟨haccept, -⟩ := hreceive [requestFlit] hloop
  obtain ⟨hinOrder, -⟩ := haccept (List.forall_mem_singleton.2 hwhole) hwidth.symm
  have hsame : portServe 0 3 (beatAccepted 0 3 [requestFlit] freshPort) = beatAccepted 0 3 [requestFlit] freshPort :=
    Host.Outcome.next.inj ((jxlBeatReceive_inOrder hup hloop (List.forall_mem_singleton.2 hwhole) hwidth.symm
      (List.forall_mem_singleton.2 hseq)).symm.trans (hinOrder (List.forall_mem_singleton.2 hseq)))
  have hlength := congrArg (fun t => (jPort t 0 3).rxq.length) hsame
  rw [request_served, request_accepted] at hlength
  exact absurd hlength (by decide)

end Sys2Proof.Machine
end

section
/-! Lines of a site that come out of blanking (R289, R290). -/

namespace Sys2Proof.Machine

/-- Site 0, blanked, with line 0 blanked from code 8, a code that R293 reserves. -/
def blankedReserved : State :=
  updPorger 0 (fun x => { x with blanked := true, prev := [8] }) (setLine 0 0 7 State.reset)

theorem blankedReserved_lit : (porgerOf blankedReserved 0).blanked = true ∧ lineState blankedReserved 0 0 = 7 ∧
    (porgerOf blankedReserved 0).prev = [8] := by decide +kernel

/-- The line returns to the code it had, whole. -/
theorem unblank_reserved : lineState (unblankSite 0 blankedReserved) 0 0 = 8 := by decide +kernel

/-- Refutes O46: STATE of PRG_PORT_STATUS has four bits, and UNBLANK returns a line to the whole of the code it had, while the statement
cuts that code to three bits; from the reserved code 8 the line returns to 8, not to 0. -/
theorem not_sitesAndLasers : ¬ Obligations.SitesAndLasers := by
  unfold Obligations.SitesAndLasers
  rintro ⟨hsites, -⟩
  obtain ⟨hblanked, hline, hprev⟩ := blankedReserved_lit
  obtain ⟨-, -, -, -, -, -, -, hunblank, -⟩ := hsites blankedReserved 0 0 (by decide) (by decide)
  obtain ⟨t, hexec, -, -, hlines⟩ := hunblank hblanked
  obtain rfl : unblankSite 0 blankedReserved = t := Host.Outcome.next.inj hexec
  have hcut := hlines 0 (by decide)
  rw [unblank_reserved, if_pos hline, hprev] at hcut
  exact absurd hcut (by decide)

end Sys2Proof.Machine
end

section
/-! Rings, wavelengths and receivers of a port (R274 to R278, R282 to R284, R291): each event on the branch where it takes effect, and the
steps of acquisition, which run over the wavelength indices of a port and over the ports of a site. -/

namespace Sys2Proof.Machine

/-! ## Folds -/

/-- A fold that comes to an element while `Q` holds, and establishes `P` there, ends in `P` if every later step keeps it. -/
theorem foldl_reaches {σ α : Type} {f : σ → α → σ} {Q P : σ → Prop} {l : List α} {x : α} {s : σ} (hx : x ∈ l) (h0 : Q s)
    (hbefore : ∀ t, Q t → ∀ y ∈ l, Q (f t y)) (hset : ∀ t, Q t → P (f t x)) (hafter : ∀ t y, P t → P (f t y)) : P (l.foldl f s) := by
  obtain ⟨before, after, rfl⟩ := List.append_of_mem hx
  have hQ : Q (before.foldl f s) :=
    List.foldlRecOn before f h0 (fun t ht y hy => hbefore t ht y (List.mem_append_left _ hy))
  rw [List.foldl_append, List.foldl_cons]
  exact List.foldlRecOn after f (hset _ hQ) (fun t ht y _ => hafter t y ht)

/-! ## What the optics write -/

/-- Only registers, the Porgers' own states and the count of free values may differ. -/
def OpticsOnly (s t : State) : Prop := t = { s with regs := t.regs, porgers := t.porgers, freeCtr := t.freeCtr }

namespace OpticsOnly

theorem refl (s : State) : OpticsOnly s s := rfl

theorem trans {s t u : State} (h : OpticsOnly s t) (h' : OpticsOnly t u) : OpticsOnly s u := by
  unfold OpticsOnly at h h' ⊢
  rw [h] at h'
  exact h'

theorem fset {s t : State} (h : OpticsOnly s t) (a : Nat) (f : Fld) (v : Nat) : OpticsOnly s (fset a f v t) := h.trans rfl
theorem nextFree {s t : State} (h : OpticsOnly s t) : OpticsOnly s (nextFree t) := h.trans rfl
theorem updPorger {s t : State} (h : OpticsOnly s t) (k : Nat) (f : Porger → Porger) : OpticsOnly s (updPorger k f t) := h.trans rfl

theorem acquired {s t : State} (h : OpticsOnly s t) (k p x : Nat) (rx : Bool) : OpticsOnly s (acquired k p x rx t) := h.updPorger k _

theorem nSites {s t : State} (h : OpticsOnly s t) : nSites t = nSites s := by
  unfold OpticsOnly at h
  rw [h]
  rfl

theorem portTenant {s t : State} (h : OpticsOnly s t) (p : Nat) : portTenant t p = portTenant s p := by
  unfold OpticsOnly at h
  rw [h]
  rfl

theorem foldl {α : Type} {f : State → α → State} (h : ∀ t x, OpticsOnly t (f t x)) (l : List α) (s : State) :
    OpticsOnly s (l.foldl f s) :=
  List.foldlRecOn l f (refl s) (fun t ht x _ => ht.trans (h t x))

/-- Where the Porgers' states are as they were, registers and the count of free values alone differ. -/
theorem of_porgers {s t : State} (h : OpticsOnly s t) (hp : t.porgers = s.porgers) :
    t = { s with regs := t.regs, freeCtr := t.freeCtr } := by
  unfold OpticsOnly at h
  rw [hp] at h
  exact h

end OpticsOnly

theorem lockFld_fits (rx : Bool) : (lockFld rx).lo + (lockFld rx).w ≤ 64 := by cases rx <;> decide

/-- A ring's lock and its heater code lie apart in PRG_WL_RING (R293). -/
theorem lockFld_heatFld (rx : Bool) : (heatFld rx).lo + (heatFld rx).w ≤ (lockFld rx).lo := by cases rx <;> decide

theorem heatFld_fits (rx : Bool) : (heatFld rx).lo + (heatFld rx).w ≤ 64 := by cases rx <;> decide

/-! ## Slips, relocks and failures of rings; spare wavelengths (R276 to R278) -/

section
variable {s : State} {k p x : Nat} {rx : Bool}

theorem slip_locked (hruns : lineRuns s k p = true) (hx : x < 18) (hlock : fget s (rPRG_WL_RING k p x) (lockFld rx) = 2) :
    slip k p x rx s = occurs (32 + k) 1 (4 * p + 1) (fcount (rPRG_PORT_EVT k p) fPRG_PORT_EVT_SLIPS 1
      (prgEvt k p fPRG_PORT_EVT_SLIP (fset (rPRG_WL_RING k p x) (lockFld rx) 1 s))) := by
  simp [slip, hruns, hx, hlock]

theorem relock_slipped (hx : x < 18) (hlock : fget s (rPRG_WL_RING k p x) (lockFld rx) = 1) (hgap : (porgerOf s k).gap = false)
    (heat : Nat) :
    relock k p x rx heat s = fset (rPRG_WL_RING k p x) (heatFld rx) heat (fset (rPRG_WL_RING k p x) (lockFld rx) 2 s) :=
  if_pos ⟨hx, hlock, by rw [hgap]; rfl⟩

theorem ringFailed_slipped (hx : x < 18) (hlock : fget s (rPRG_WL_RING k p x) (lockFld rx) = 1) (hgap : (porgerOf s k).gap = false) :
    ringFailed k p x rx s =
      (startSubst (8 * k + p) x (occurs (32 + k) 1 (4 * p + 2) (prgEvt k p fPRG_PORT_EVT_RING_FAIL
        (fset (rPRG_WL_RING k p x) (lockFld rx) 3 s)))).getD
      (occurs (32 + k) 1 (4 * p + 2) (prgEvt k p fPRG_PORT_EVT_RING_FAIL (fset (rPRG_WL_RING k p x) (lockFld rx) 3 s))) :=
  if_pos ⟨hx, hlock, by rw [hgap]; rfl⟩

theorem wlBad_spare {ws : Nat} (hws : ws < 2) (hruns : lineRuns s k p = true) (hspare : spareStream s (8 * k + p) (16 + ws) = none) :
    wlBad k p ws s = occurs (32 + k) 0 8 (prgEvt k p fPRG_PORT_EVT_SPARE_WL_BAD
      (fset (rPRG_WL_SUB k p) (if ws = 0 then fPRG_WL_SUB_WS0_BAD else fPRG_WL_SUB_WS1_BAD) 1 s)) := by
  simp [wlBad, hruns, hws, hspare]

/-! ## Light that goes and returns (R278, R282, R309); freezes and eye scans (R283, R284) -/

theorem losStart_lit (hruns : lineRuns s k p = true) (hx : x < 18) (hlit : bitOf (losBits s k p) x = false) :
    losStart k p x s = occurs (32 + k) 1 (4 * p) (prgEvt k p fPRG_PORT_EVT_LOS (fset (rPRG_WL_MON k p x) fPRG_WL_MON_RX_PWR 0x8000
      (updPorger k (fun y => { y with los := Mp.put 0 y.los p (losBits s k p ||| 2 ^ x) }) s))) := by
  simp [losStart, hruns, hx, hlit]

theorem freeze_runs (hruns : lineRuns s k p = true) (hx : x < 18) :
    freeze k p x s = fset (rPRG_WL_RING k p x) fPRG_WL_RING_FROZEN 1 s := by simp [freeze, hruns, hx]

theorem eyePass_lit (hruns : lineRuns s k p = true) (hx : x < 18) (hlit : bitOf (losBits s k p) x = false) (m : Word32) :
    eyePass k p x m s = regPut (rPRG_EYE k p x) (BitVec.ofNat 64 m.toNat) s := by simp [eyePass, hruns, hx, hlit]

/-- 1 ms without light on one active wavelength, every other lit: a spare takes its stream, or the port goes down. -/
theorem los1ms_alone (hruns : lineRuns s k p = true) (hx : x < 16) (hup : portState s (8 * k + p) = 3)
    (hactive : bitOf (portOf s (8 * k + p)).active x = true) (hdark : bitOf (losBits s k p) x = true)
    (hothers : ∀ y < 16, y ≠ x → bitOf (portOf s (8 * k + p)).active y = true → bitOf (losBits s k p) y = false) :
    los1ms k p x s = (startSubst (8 * k + p) x s).getD (portDrop (8 * k + p) s) := by
  have hlit : (List.range 16).all (fun y => y == x || !bitOf (portOf s (8 * k + p)).active y || !bitOf (losBits s k p) y) = true := by
    simp only [List.all_eq_true, List.mem_range, Bool.or_eq_true, beq_iff_eq, Bool.not_eq_true']
    intro y hy
    by_cases hyx : y = x
    · exact .inl (.inl hyx)
    · cases hact : bitOf (portOf s (8 * k + p)).active y with
      | false => exact .inl (.inr rfl)
      | true => exact .inr (hothers y hy hyx hact)
  simp only [los1ms, hruns, hx, hup, hactive, hdark, hlit, decide_true, beq_self_eq_true, Bool.and_true, if_true]
  cases startSubst (8 * k + p) x s <;> rfl

/-- The state once light is back: what the lines without light are, and what the line receives. -/
def lightBack (k p x : Nat) (s : State) : State :=
  let v := updPorger k (fun y => { y with los := Mp.put 0 y.los p (withField (losBits s k p) x 1 0) }) s
  nextFree (fset (rPRG_WL_MON k p x) fPRG_WL_MON_RX_PWR (freeVal 41 v) v)

/-- The ring of a line that was dark for more than 1 ms is locked anew. -/
def ringReacquired (k p x : Nat) (s : State) : State :=
  nextFree (acquired k p x true
    (fset (rPRG_WL_RING k p x) fPRG_WL_RING_RX_HEAT (freeVal 42 s) (fset (rPRG_WL_RING k p x) fPRG_WL_RING_RX_LOCK 2 s)))

theorem losEnd_dark (hk : k < nSites s) (hp : p < 8) (hdark : bitOf (losBits s k p) x = true) (ns : Nat) :
    losEnd k p x ns s = if ns ≤ 1000000 then lightBack k p x s else ringReacquired k p x (lightBack k p x s) :=
  if_pos ⟨hk, hp, hdark⟩

theorem opticsOnly_lightBack : OpticsOnly s (lightBack k p x s) := (((OpticsOnly.refl s).updPorger ..).fset ..).nextFree
theorem opticsOnly_ringReacquired : OpticsOnly s (ringReacquired k p x s) :=
  ((((OpticsOnly.refl s).fset ..).fset ..).acquired ..).nextFree

theorem losBits_updPorger (f : Porger → Porger) (q : Nat) : losBits (updPorger k f s) k q = Mp.get 0 (f (porgerOf s k)).los q :=
  congrArg (fun y : Porger => Mp.get 0 y.los q) (Mp.get_put_same ..)

theorem losBits_acquired (q : Nat) : losBits (acquired k p x rx s) k q = losBits s k q := losBits_updPorger ..

theorem losBits_fset (a : Nat) (f : Fld) (v q : Nat) : losBits (fset a f v s) k q = losBits s k q := rfl
theorem losBits_nextFree (q : Nat) : losBits (nextFree s) k q = losBits s k q := rfl

theorem losBits_lightBack : losBits (lightBack k p x s) k p = withField (losBits s k p) x 1 0 := by
  rw [lightBack, losBits_nextFree, losBits_fset, losBits_updPorger, Mp.get_put_same]

theorem bitOf_losBits_lightBack : bitOf (losBits (lightBack k p x s) k p) x = false := by
  rw [losBits_lightBack, bitOf, testBit_withField, if_pos ⟨le_rfl, x.lt_succ_self⟩, Nat.zero_testBit]

theorem losBits_ringReacquired : losBits (ringReacquired k p x s) k p = losBits s k p := by
  rw [ringReacquired, losBits_nextFree, losBits_acquired, losBits_fset, losBits_fset]

theorem fget_ringReacquired : fget (ringReacquired k p x s) (rPRG_WL_RING k p x) fPRG_WL_RING_RX_LOCK = 2 :=
  (fget_fset_apart _ fPRG_WL_RING_RX_HEAT fPRG_WL_RING_RX_LOCK _ _ (by decide) (by decide)).trans
    (fget_fset_same _ _ _ _ (by decide))

/-- Light that returns ends the line's loss, and a ring that was dark for more than 1 ms is locked. -/
theorem losEnd_returns (hk : k < nSites s) (hp : p < 8) (hdark : bitOf (losBits s k p) x = true) (ns : Nat) :
    bitOf (losBits (losEnd k p x ns s) k p) x = false ∧ OpticsOnly s (losEnd k p x ns s) ∧
      (1000000 < ns → fget (losEnd k p x ns s) (rPRG_WL_RING k p x) fPRG_WL_RING_RX_LOCK = 2) := by
  rw [losEnd_dark hk hp hdark]
  split
  next hshort => exact ⟨bitOf_losBits_lightBack, opticsOnly_lightBack, fun hlong => absurd hshort (Nat.not_le.2 hlong)⟩
  next hlong =>
    refine ⟨?_, opticsOnly_lightBack.trans opticsOnly_ringReacquired, fun _ => fget_ringReacquired⟩
    rw [losBits_ringReacquired]
    exact bitOf_losBits_lightBack

end

/-! ## The laser locks (R291 step 2) -/

/-- Twelve bits of two's complement hold a fade between their ends. -/
theorem sext_wrap {z : Int} (hlo : -2048 ≤ z) (hhi : z ≤ 2047) : sext 12 (wrap 12 z % 2 ^ 12) = z := by
  simp only [sext, wrap, Nat.reducePow, Nat.cast_ofNat, Nat.mod_mod]
  split <;> omega

/-- The power on the bus of an acquiring port is monitored. -/
def busRead (k p : Nat) (s : State) : State :=
  if lineState s k p = 2 then nextFree (fset (rPRG_BUS_MON k p) fPRG_BUS_MON_BUS_PWR (freeVal 43 s) s) else s

theorem opticsOnly_busRead (k p : Nat) (s : State) : OpticsOnly s (busRead k p s) := by
  unfold busRead
  split <;> rfl

theorem busRead_porgers (k p : Nat) (s : State) : (busRead k p s).porgers = s.porgers := by
  unfold busRead
  split <;> rfl

theorem fadeOf_busRead (k p : Nat) (s : State) : fadeOf (busRead k p s) k = fadeOf s k := by
  have hne : rPRG_LASER_STATUS k ≠ rPRG_BUS_MON k p := by
    unfold rPRG_LASER_STATUS rPRG_BUS_MON oeA unitA
    omega
  unfold busRead
  split
  · exact congrArg (sext 12) (fget_fset_reg _ _ fPRG_BUS_MON_BUS_PWR fPRG_LASER_STATUS_FADE _ s hne)
  · rfl

/-- FADE of the active laser as it is computed: held to the ends of its twelve bits. -/
def fadeSet (k : Nat) (fade : Int) (s : State) : State :=
  fset (rPRG_LASER_STATUS k) fPRG_LASER_STATUS_FADE (wrap 12 (max (-2048) (min 2047 fade))) s

theorem fadeOf_fadeSet (k : Nat) (fade : Int) (s : State) : fadeOf (fadeSet k fade s) k = max (-2048) (min 2047 fade) := by
  have hcut : fget (fadeSet k fade s) (rPRG_LASER_STATUS k) fPRG_LASER_STATUS_FADE =
      wrap 12 (max (-2048) (min 2047 fade)) % 2 ^ 12 := fget_fset_same _ _ _ _ (by decide)
  unfold fadeOf
  rw [hcut]
  exact sext_wrap (by omega) (by omega)

theorem acquireLaser_eq {s : State} {k : Nat} (hk : k < nSites s) (hst : siteState s k = 3) (fade : Int) :
    acquireLaser k fade s = onPorts (busRead k) (fadeSet k fade s) := if_pos ⟨hk, hst⟩

/-! ## Rings lock and receivers adapt (R291 steps 3 and 4) -/

def powerFld (rx : Bool) : Fld := if rx then fPRG_WL_MON_RX_PWR else fPRG_WL_MON_TX_PWR

/-- A ring of a port is locked, at a heater code and a power that no rule states. -/
def ringAcquired (k p : Nat) (rx : Bool) (s : State) (x : Nat) : State :=
  let v := nextFree (acquired k p x rx (fset (rPRG_WL_RING k p x) (heatFld rx) (freeVal 42 s) (fset (rPRG_WL_RING k p x) (lockFld rx) 2 s)))
  nextFree (fset (rPRG_WL_MON k p x) (powerFld rx) (freeVal 41 v) v)

/-- Every ring of one side of a port. -/
def ringsAcquired (k p : Nat) (rx : Bool) (s : State) : State := (List.range 18).foldl (ringAcquired k p rx) s

/-- The transmit rings of a port that acquires. -/
def transmitUp (k p : Nat) (s : State) : State := if k < nSites s ∧ lineState s k p = 2 then ringsAcquired k p false s else s

theorem acquireRings_eq (k : Nat) (s : State) : acquireRings k s = onPorts (transmitUp k) s := rfl

theorem opticsOnly_ringAcquired (k p : Nat) (rx : Bool) (s : State) (x : Nat) : OpticsOnly s (ringAcquired k p rx s x) :=
  (((((OpticsOnly.refl s).fset ..).fset ..).acquired ..).nextFree.fset ..).nextFree

theorem opticsOnly_ringsAcquired (k p : Nat) (rx : Bool) (s : State) : OpticsOnly s (ringsAcquired k p rx s) :=
  OpticsOnly.foldl (opticsOnly_ringAcquired k p rx) _ s

theorem opticsOnly_transmitUp (k p : Nat) (s : State) : OpticsOnly s (transmitUp k p s) := by
  unfold transmitUp
  split
  · exact opticsOnly_ringsAcquired k p false s
  · rfl

theorem regVal_ringAcquired {a k p x : Nat} {rx : Bool} (hring : a ≠ rPRG_WL_RING k p x) (hmon : a ≠ rPRG_WL_MON k p x) (s : State) :
    regVal (ringAcquired k p rx s x) a = regVal s a :=
  (regVal_fset_ne _ _ _ _ _ hmon).trans ((regVal_fset_ne _ _ _ _ _ hring).trans (regVal_fset_ne _ _ _ _ _ hring))

/-- A register that belongs to none of the port's wavelengths. -/
def NoWavelength (k p a : Nat) : Prop := ∀ x < 18, a ≠ rPRG_WL_RING k p x ∧ a ≠ rPRG_WL_MON k p x

theorem regVal_ringsAcquired {k p a : Nat} (h : NoWavelength k p a) (rx : Bool) (s : State) :
    regVal (ringsAcquired k p rx s) a = regVal s a :=
  List.foldlRecOn (motive := fun t => regVal t a = regVal s a) (List.range 18) (ringAcquired k p rx) rfl
    (fun t ht x hx => by
      obtain ⟨hring, hmon⟩ := h x (List.mem_range.1 hx)
      rw [regVal_ringAcquired hring hmon, ht])

theorem noWavelength_lineReg (k p q : Nat) : NoWavelength k p (lineReg k q) := by
  intro x hx
  unfold lineReg rPRG_PORT_STATUS rPRG_WL_RING rPRG_WL_MON oeA unitA
  omega

/-- A base die's registers are not an engine's (R8). -/
theorem bdA_ne_oeA {n k off off' : Nat} (hn : n ≤ k) (hoff : off < 0x4000000) (hoff' : off' < 0x4000000) : bdA n off ≠ oeA k off' := by
  unfold bdA oeA unitA
  omega

theorem noWavelength_portStatus {k p : Nat} (hp : p < 8) :
    NoWavelength k p (rFLK_PORT_STATUS ((8 * k + p) / 32) ((8 * k + p) % 32)) := fun x hx =>
  ⟨bdA_ne_oeA (by omega) (by omega) (by omega), bdA_ne_oeA (by omega) (by omega) (by omega)⟩

theorem lineState_ringsAcquired (k p q : Nat) (rx : Bool) (s : State) : lineState (ringsAcquired k p rx s) k q = lineState s k q := by
  unfold lineState fget
  rw [regVal_ringsAcquired (noWavelength_lineReg k p q)]

theorem lineState_transmitUp (k p q : Nat) (s : State) : lineState (transmitUp k p s) k q = lineState s k q := by
  unfold transmitUp
  split
  · exact lineState_ringsAcquired k p q false s
  · rfl

theorem portState_ringsAcquired {k p : Nat} (hp : p < 8) (rx : Bool) (s : State) :
    portState (ringsAcquired k p rx s) (8 * k + p) = portState s (8 * k + p) := by
  unfold portState fget
  rw [regVal_ringsAcquired (noWavelength_portStatus hp)]

section
variable {s : State} {k p x : Nat} {rx : Bool}

/-- No power monitor is a ring's register, whatever its port and wavelength. -/
theorem ring_ne_mon (q y : Nat) : rPRG_WL_RING k p x ≠ rPRG_WL_MON k q y := by
  unfold rPRG_WL_RING rPRG_WL_MON oeA unitA
  omega

/-- The ring is locked. -/
theorem fget_ringAcquired_self : fget (ringAcquired k p rx s x) (rPRG_WL_RING k p x) (lockFld rx) = 2 := by
  have hmon : fget (ringAcquired k p rx s x) (rPRG_WL_RING k p x) (lockFld rx) =
      fget (fset (rPRG_WL_RING k p x) (heatFld rx) (freeVal 42 s) (fset (rPRG_WL_RING k p x) (lockFld rx) 2 s))
        (rPRG_WL_RING k p x) (lockFld rx) := fget_fset_reg _ _ _ _ _ _ (ring_ne_mon p x)
  rw [hmon, fget_fset_apart _ _ _ _ _ (heatFld_fits rx) (.inr (lockFld_heatFld rx)), fget_fset_same _ _ _ _ (lockFld_fits rx)]
  cases rx <;> rfl

/-- A locked ring stays locked as any ring of its side locks. -/
theorem fget_ringAcquired_locked {q y : Nat} (h : fget s (rPRG_WL_RING k p x) (lockFld rx) = 2) :
    fget (ringAcquired k q rx s y) (rPRG_WL_RING k p x) (lockFld rx) = 2 := by
  by_cases hsame : rPRG_WL_RING k p x = rPRG_WL_RING k q y
  · rw [hsame]
    exact fget_ringAcquired_self
  · unfold fget at h ⊢
    rwa [regVal_ringAcquired hsame (ring_ne_mon q y)]

theorem fget_ringsAcquired_self (hx : x < 18) : fget (ringsAcquired k p rx s) (rPRG_WL_RING k p x) (lockFld rx) = 2 :=
  foldl_reaches (Q := fun _ => True) (P := fun t => fget t (rPRG_WL_RING k p x) (lockFld rx) = 2) (List.mem_range.2 hx) trivial
    (fun _ _ _ _ => trivial) (fun _ _ => fget_ringAcquired_self) (fun _ _ => fget_ringAcquired_locked)

theorem fget_transmitUp_locked {q : Nat} (h : fget s (rPRG_WL_RING k p x) (lockFld false) = 2) :
    fget (transmitUp k q s) (rPRG_WL_RING k p x) (lockFld false) = 2 := by
  unfold transmitUp
  split
  · exact List.foldlRecOn (motive := fun t => fget t (rPRG_WL_RING k p x) (lockFld false) = 2) _ _ h
      (fun _ ht _ _ => fget_ringAcquired_locked ht)
  · exact h

/-- Every transmit ring of an acquiring port is locked. -/
theorem fget_acquireRings (hk : k < nSites s) (hp : p < 8) (hx : x < 18) (hst : lineState s k p = 2) :
    fget (acquireRings k s) (rPRG_WL_RING k p x) fPRG_WL_RING_TX_LOCK = 2 := by
  rw [acquireRings_eq]
  refine foldl_reaches (Q := fun t => k < nSites t ∧ lineState t k p = 2)
    (P := fun t => fget t (rPRG_WL_RING k p x) (lockFld false) = 2) (List.mem_range.2 hp) ⟨hk, hst⟩ ?before ?set ?after
  case before =>
    rintro t ⟨hkt, hstt⟩ q -
    exact ⟨(opticsOnly_transmitUp k q t).nSites.symm ▸ hkt, (lineState_transmitUp k q p t).trans hstt⟩
  case set =>
    intro t ht
    rw [transmitUp, if_pos ht]
    exact fget_ringsAcquired_self hx
  case after => exact fun t q => fget_transmitUp_locked

/-- The readings of a port whose receivers have adapted are its references, all its lines have light, and its line's state is `v`. -/
def lineUp (k p v : Nat) (s : State) : State :=
  setLine k p v (updPorger k (fun y => { y with los := Mp.del y.los p }) (keepRefs k p s))

theorem fget_updPorger (f : Porger → Porger) (a : Nat) (g : Fld) : fget (updPorger k f s) a g = fget s a g := rfl

theorem opticsOnly_lineUp (v : Nat) : OpticsOnly s (lineUp k p v s) :=
  (((OpticsOnly.refl s).updPorger ..).updPorger ..).fset ..

theorem lineState_lineUp {v : Nat} (hv : v < 16) : lineState (lineUp k p v s) k p = v :=
  (fget_fset_same _ _ _ _ (by decide)).trans (Nat.mod_eq_of_lt hv)

theorem portState_lineUp (hp : p < 8) (v : Nat) : portState (lineUp k p v s) (8 * k + p) = portState s (8 * k + p) := by
  have hne : rFLK_PORT_STATUS ((8 * k + p) / 32) ((8 * k + p) % 32) ≠ lineReg k p :=
    bdA_ne_oeA (by omega) (by omega) (by omega)
  unfold portState lineUp setLine keepRefs
  rw [fget_fset_reg _ _ _ _ _ _ hne, fget_updPorger, fget_updPorger]

/-- Receivers that adapt on a port whose link trains or runs light its line, or leave it asleep if the port is unbound. -/
theorem adapted_lit (hk : k < nSites s) (hp : p < 8) (hst : lineState s k p = 2)
    (hlock : fget s (rPRG_WL_RING k p 0) fPRG_WL_RING_TX_LOCK = 2) (hlink : 2 ≤ portState s (8 * k + p)) :
    adapted k p s = lineUp k p (if (portTenant s (8 * k + p)).isSome then 3 else 4) (ringsAcquired k p true s) := by
  have hbind : portTenant (keepRefs k p (ringsAcquired k p true s)) (8 * k + p) = portTenant s (8 * k + p) :=
    ((opticsOnly_ringsAcquired k p true s).updPorger ..).portTenant _
  have hacquired : adapted k p s =
      let v := keepRefs k p (ringsAcquired k p true s)
      let t := lineUp k p (if (portTenant v (8 * k + p)).isSome then 3 else 4) (ringsAcquired k p true s)
      if portState t (8 * k + p) ≤ 1 ∧ !isSafe t then portTrain (8 * k + p) t else t := if_pos ⟨hk, hp, hst, hlock⟩
  rw [hacquired]
  dsimp only
  rw [hbind]
  refine if_neg fun ⟨hdown, _⟩ => ?_
  rw [portState_lineUp hp, portState_ringsAcquired hp] at hdown
  omega

end

/-- Settles O47: rings, wavelengths and receivers as R274 to R278, R282 to R284 and R291 give them; block 1 of a Porger's fault sources
numbers those of port p from 4p (log entry 936), and FADE is held to its twelve bits (log entry 933). -/
theorem ringsAndReceivers : Obligations.RingsAndReceivers := by
  unfold Obligations.RingsAndReceivers
  refine fun s k p x rx hk hp => ⟨?slip, fun hx hlock hgap => ⟨?relock, ?fail⟩, ?spare, ?los, ?light, ?dark, ?freeze, ?eye, ?laser, ?rings,
    ?receivers⟩
  case slip => exact fun ⟨hruns, hx⟩ hlock => congrArg Host.Outcome.next (slip_locked hruns hx hlock)
  case relock => exact fun heat => congrArg Host.Outcome.next (relock_slipped hx hlock hgap heat)
  case fail => exact congrArg Host.Outcome.next (ringFailed_slipped hx hlock hgap)
  case spare => exact fun ws hws hruns hspare => congrArg Host.Outcome.next (wlBad_spare hws hruns hspare)
  case los => exact fun ⟨hruns, hx⟩ hlit => congrArg Host.Outcome.next (losStart_lit hruns hx hlit)
  case light => exact fun ns hdark => ⟨_, rfl, losEnd_returns hk hp hdark ns⟩
  case dark =>
    exact fun ⟨hruns, _⟩ hx hup hactive hdark hothers =>
      congrArg Host.Outcome.next (los1ms_alone hruns hx hup hactive hdark hothers)
  case freeze => exact fun ⟨hruns, hx⟩ => congrArg Host.Outcome.next (freeze_runs hruns hx)
  case eye => exact fun m ⟨hruns, hx⟩ hlit => congrArg Host.Outcome.next (eyePass_lit hruns hx hlit m)
  case laser =>
    intro fade hst
    refine ⟨onPorts (busRead k) (fadeSet k fade s), congrArg Host.Outcome.next (acquireLaser_eq hk hst fade), ?_, ?_⟩
    · refine OpticsOnly.of_porgers (OpticsOnly.foldl (fun t q => opticsOnly_busRead k q t) _ _) ?_
      exact foldl_same _ State.porgers (fun t q => busRead_porgers k q t) _ _
    · exact (foldl_same _ (fadeOf · k) (fun t q => fadeOf_busRead k q t) _ _).trans (fadeOf_fadeSet k fade s)
  case rings =>
    exact fun hx hst => ⟨acquireRings k s, rfl, OpticsOnly.foldl (fun t q => opticsOnly_transmitUp k q t) _ s,
      fget_acquireRings hk hp hx hst⟩
  case receivers =>
    refine fun hst hlock hlink => ⟨_, congrArg Host.Outcome.next (adapted_lit hk hp hst hlock hlink),
      (opticsOnly_ringsAcquired k p true s).trans (opticsOnly_lineUp _), ?_⟩
    exact lineState_lineUp (by split <;> decide)

end Sys2Proof.Machine
end

section
/-! Packets of a fabric port (R300 to R308): each event on the branch where it takes effect. -/

namespace Sys2Proof.Machine

theorem portCarries_iff {s : State} {p : Nat} :
    portCarries s p = true ↔ isPort s p = true ∧ portState s p = 3 ∧ moduleIdSet s = true ∧ isSafe s = false := by
  simp [portCarries, and_assoc]

theorem portCarries_not_still {s : State} {p : Nat} (h : portCarries s p = true) : ¬(!portCarries s p) = true := by simp [h]

/-! ## Sending (R303, R305, R308) -/

/-- A packet with the sequence number that its lane gives next (R303). -/
def numbered (ln : Lane) (pk : Pkt) : Pkt := { pk with seq := ln.next % 2 ^ 24 }

/-- A lane that has started a packet, which stands in the replay buffer until it is acknowledged (R305). -/
def laneStarted (ln : Lane) (pk : Pkt) : Lane :=
  { ln with
    next := ln.next + 1, wait := ln.wait.erase pk, replay := ln.replay ++ [numbered ln pk], sent := ln.sent + (numbered ln pk).units }

section
variable {s : State} {p l : Nat}

theorem packetSend_starts {turns : Mp Nat} {pk : Pkt} {rest : List Pkt} (hcarries : portCarries s p = true) (hlit : portLit s p = true)
    (hturns : arbitrate (portView s p) l = some turns) (hwait : (Mp.get {} (portView s p).lanes l).wait = pk :: rest) :
    let ln := laneOf s p l
    let o := strikeData p (numbered ln pk).bytes s
    packetSend p l s = heldReg p (sendOnLane p l (numbered ln pk).sop o.1
      (setPort p { portOf s p with
        lanes := Mp.put {} (portOf s p).lanes l (laneStarted ln pk), turns := Mp.upd 0 turns l (· + 1) } o.2)) := by
  have hgoes : ¬(!portCarries s p || !portLit s p) = true := by simp [hcarries, hlit]
  simp only [packetSend, if_neg hgoes, hturns, hwait]
  rfl

/-! ## Reports from the far end (R304, R305, R307) -/

theorem ackReceive_carried (hcarries : portCarries s p = true) (consumed limit : Nat) :
    ackReceive p l consumed limit s = heldReg p (updLane p l (fun x => { x with
      replay := x.replay.filter (fun k => seqLater k.seq consumed)
      limit := if seqLater limit x.limit then limit % 2 ^ 24 else x.limit }) s) :=
  if_neg (portCarries_not_still hcarries)

/-- The latest number that RXSTAT has reported on a lane. -/
def reportSeen (p l accepted : Nat) (s : State) : State :=
  updLane p l (fun x => { x with seen := if seqLater accepted x.seen then accepted % 2 ^ 24 else x.seen }) s

theorem rxstatReceive_carried (hcarries : portCarries s p = true) (accepted : Nat) (nak : Bool) :
    rxstatReceive p l accepted nak s =
      if nak then replay p l (fun k => seqLater k.seq accepted) (reportSeen p l accepted s) else reportSeen p l accepted s :=
  if_neg (portCarries_not_still hcarries)

/-- 20 µs without a report on the oldest packet not retired resend the lane. -/
theorem replayTimeout_unreported {k : Pkt} {rest : List Pkt} (hcarries : portCarries s p = true)
    (hreplay : (laneOf s p l).replay = k :: rest) (hunseen : seqLater k.seq (laneOf s p l).seen = true) :
    replayTimeout p l s = replay p l (fun _ => true) s := by
  simp only [replayTimeout, hreplay]
  exact if_pos ⟨hcarries, hunseen⟩

/-! ## Reception (R301, R303, R304) -/

section
variable {sop body : List Byte}

theorem packetReceive_inOrder {k : Pkt} (hcarries : portCarries (thaw p s) p = true) (hparse : parsePkt sop body = some k)
    (hseq : k.seq = ((laneOf (thaw p s) p k.lane).accepted + 1) % 2 ^ 24) :
    packetReceive p sop body s = laneDrain p k.lane ((laneOf (thaw p s) p k.lane).queue.length + 1)
      (updLane p k.lane (fun x => { x with
        accepted := k.seq, discard := false, queue := x.queue ++ [k], lastRx := portNow (thaw p s) p }) (thaw p s)) := by
  simp only [packetReceive, if_neg (portCarries_not_still hcarries), hparse]
  exact if_pos hseq

theorem packetReceive_badCheck (hcarries : portCarries (thaw p s) p = true) (hparse : parsePkt sop body = none) :
    packetReceive p sop body s =
      rejectPkt p (leAt sop 3 1 % 16) (fcount (rFLK_PORT_ERR (pN p) (pQ p)) fFLK_PORT_ERR_CRC_ERRS 1 (thaw p s)) := by
  simp only [packetReceive, if_neg (portCarries_not_still hcarries), hparse]

end

/-- The receiver's timer serves what waits in the lane, then sends the reports due if the port still carries packets. -/
theorem ackTimer_awake (hport : isPort s p = true) (hsafe : isSafe s = false) :
    let v := laneDrain p l (laneOf s p l).queue.length s
    ackTimer p l s = if portCarries v p then laneReports p l v else v :=
  if_neg (by simp [hport, hsafe])

end

/-- Settles O48: a lane's packets as they leave (R300, R303, R308), are acknowledged and sent again (R304, R305, R307), and arrive (R301,
R303, R304). -/
theorem fabricPackets : Obligations.FabricPackets := by
  unfold Obligations.FabricPackets
  refine fun s p l hcarries => ⟨?send, ?ack, ?rxstat, ?timeout, ?inOrder, ?badCheck, ?timer⟩
  case send => exact fun turns pk rest hlit hturns hwait => congrArg Host.Outcome.next (packetSend_starts hcarries hlit hturns hwait)
  case ack => exact fun consumed limit => congrArg Host.Outcome.next (ackReceive_carried hcarries consumed limit)
  case rxstat =>
    exact fun accepted => ⟨congrArg Host.Outcome.next (rxstatReceive_carried hcarries accepted false),
      congrArg Host.Outcome.next (rxstatReceive_carried hcarries accepted true)⟩
  case timeout =>
    exact fun k rest hreplay hunseen => congrArg Host.Outcome.next (replayTimeout_unreported hcarries hreplay hunseen)
  case inOrder =>
    exact fun sop body k hthawed hparse hseq => congrArg Host.Outcome.next (packetReceive_inOrder hthawed hparse hseq)
  case badCheck => exact fun sop body hthawed hparse => congrArg Host.Outcome.next (packetReceive_badCheck hthawed hparse)
  case timer =>
    obtain ⟨hport, -, -, hsafe⟩ := portCarries_iff.1 hcarries
    exact congrArg Host.Outcome.next (ackTimer_awake hport hsafe)

end Sys2Proof.Machine
end

section
/-! LINK exchanges of a fabric port (R309, R312, R314 to R319) and block lock (R298): each exchange in the state
of the port that takes it. -/

namespace Sys2Proof.Machine

section
variable {s : State} {p : Nat}

/-- The guard of an exchange that one state of a port takes. -/
theorem not_other_state {n : Nat} (hport : isPort s p = true) (hst : portState s p = n) :
    ¬((!isPort s p) = true ∨ portState s p ≠ n) := by simp [hport, hst]

theorem isPort_not_absent (hport : isPort s p = true) : ¬(!isPort s p) = true := by simp [hport]

/-! ## Training (R312, R315) -/

section
variable {id pp : Nat} {half pam4 : Bool}

theorem helloAReceive_mismatch (hport : isPort s p = true) (hst : portState s p = 2) (hmode : pam4 ≠ ownPam4 s p) (idSet : Bool) :
    helloAReceive p idSet id pp half pam4 s = modMismatch p s :=
  (if_neg (not_other_state hport hst)).trans (if_pos (bne_iff_ne.2 hmode))

theorem helloAReceive_answered (hport : isPort s p = true) (hst : portState s p = 2) (hmode : pam4 = ownPam4 s p) (idSet : Bool) :
    let v := fset (rFLK_PORT_STATUS (pN p) (pQ p)) fFLK_PORT_STATUS_PAM4 (b2n pam4) s
    helloAReceive p idSet id pp half pam4 s = sendHelloB p (sendHelloA p
      (updPort p (fun x => { x with helloA := some (if idSet then id else 16384, pp, half, pam4) })
        (setHalf p (half || wantHalf v p) v))) :=
  (if_neg (not_other_state hport hst)).trans (if_neg (by simp [hmode]))

variable {inc ses : Nat}

theorem helloBReceive_recorded (hport : isPort s p = true) (hst : portState s p = 2)
    (hhello : (portOf s p).helloA = some (id, pp, half, pam4)) (hpartner : (portOf s p).partner = some (id, pp, inc, ses)) :
    helloBReceive p inc ses s = portUp p s := by
  simp only [helloBReceive, if_neg (not_other_state hport hst), hhello, hpartner, if_true]

/-- Another partner than the one recorded leaves the port STALE. -/
theorem helloBReceive_changed {old : Nat × Nat × Nat × Nat} (hport : isPort s p = true) (hst : portState s p = 2)
    (hhello : (portOf s p).helloA = some (id, pp, half, pam4)) (hpartner : (portOf s p).partner = some old)
    (hother : old ≠ (id, pp, inc, ses)) :
    helloBReceive p inc ses s =
      traceLink p 2 (occurs (1 + pN p) 4 0 (portEvt p fFLK_PORT_EVT_PARTNER_CHANGED (setPortState p 4 s))) := by
  simp only [helloBReceive, if_neg (not_other_state hport hst), hhello, hpartner, if_neg hother]

/-- A partner not recorded here holds a record itself if a free bit says so (log entry 913); otherwise it is recorded. -/
theorem helloBReceive_new (hport : isPort s p = true) (hst : portState s p = 2)
    (hhello : (portOf s p).helloA = some (id, pp, half, pam4)) (hpartner : (portOf s p).partner = none) :
    let f := rFLK_PORT_STATUS (pN p) (pQ p)
    helloBReceive p inc ses s = if freeVal 30 s % 2 = 1 then nextFree s else
      portUp p (updPort p (fun x => { x with partner := some (id, pp, inc, ses) })
        (fset f fFLK_PORT_STATUS_PARTNER_V 1 (fset f fFLK_PORT_STATUS_PARTNER (id % 16384) (nextFree s)))) := by
  simp only [helloBReceive, if_neg (not_other_state hport hst), hhello, hpartner]

end

theorem retrainAttempt_down (hport : isPort s p = true) (hst : portState s p = 1) (hlock : (portOf s p).lock ≠ 0)
    (hsafe : isSafe s = false) : retrainAttempt p s = portTrain p s :=
  if_pos ⟨hport, hst, hlock, by simp [hsafe]⟩

/-! ## Changes at a marker (R299, R314 to R317) -/

theorem modeReceive_up (hport : isPort s p = true) (hst : portState s p = 3) (half : Bool) (m : Nat) :
    let c : LinkChange := ⟨3, b2n (half || wantHalf s p), 0, m % 2 ^ 32⟩
    modeReceive p half m s = if hasAsked s p 3 c.m then agree p c s else agree p c (sendLink p 3 (linkFields c) s) :=
  if_neg (not_other_state hport hst)

/-- A SUBST that this end has not asked for is agreed to if its spare is free, and refused otherwise. -/
theorem substReceive_request {m : Nat} (hport : isPort s p = true) (hst : portState s p = 3)
    (hnew : hasAsked s p 4 (m % 2 ^ 32) = false) (w sp : Nat) :
    let c : LinkChange := ⟨4, w, sp, m % 2 ^ 32⟩
    substReceive p w sp m s = if sp = 0xFF ∨ ((sp = 16 ∨ sp = 17) ∧ spareFree s p sp = true ∧ w < 16) then
      agree p c (sendLink p 4 (linkFields c) s) else sendLink p 4 (linkFields { c with b := 0xFE }) s :=
  (if_neg (not_other_state hport hst)).trans (if_neg (Bool.eq_false_iff.1 hnew))

theorem stripeReceive_up (hport : isPort s p = true) (hst : portState s p = 3) (set m : Nat) :
    let c : LinkChange := ⟨5, set % 65536, 0, m % 2 ^ 32⟩
    stripeReceive p set m s = if hasAsked s p 5 c.m then agree p c s
      else if portNeed s p ||| c.a = c.a then agree p c (sendLink p 5 (linkFields c) s)
      else askChange p 5 (portNeed s p ||| c.a) 0 s :=
  if_neg (not_other_state hport hst)

theorem alignReceive_active {w : Nat} (hport : isPort s p = true) (hst : portState s p = 3)
    (hactive : bitOf (portOf s p).active w = true) (count : Nat) :
    let due := (portOf s p).changes.filter (fun c => c.m == count % 2 ^ 32)
    alignReceive p w count s = due.foldl (fun v c => makeChange p c v) (updPort p (fun x => { x with
      marker := count % 2 ^ 32, changes := x.changes.filter (fun c => c.m != count % 2 ^ 32) }) s) :=
  if_neg (by simp [hport, hst, hactive])

/-! ## TEST, TIME and repetition (R314, R318, R319) -/

/-- TEST is answered if this end has not asked for it; what it asked is answered by it. -/
def testAnswered (p : Nat) (enter : Bool) (s : State) : State :=
  let v := updPort p (fun x => { x with asked := x.asked.filter (fun c => c.sub != 7) }) s
  if (portOf s p).asked.any (fun c => c.sub == 7) then v else sendLink p 7 [(1, b2n enter)] v

theorem testReceive_enters (hport : isPort s p = true) (hst : portState s p = 3) :
    testReceive p true s = fset (rPRG_PORT_STATUS (pK p) (pP p)) fPRG_PORT_STATUS_STATE 5 (setPortState p 5 (testAnswered p true s)) :=
  (if_neg (isPort_not_absent hport)).trans ((if_pos rfl).trans (if_pos hst))

theorem testReceive_leaves (hport : isPort s p = true) (hst : portState s p = 5) :
    testReceive p false s = portTrain p (fset (rPRG_PORT_STATUS (pK p) (pP p)) fPRG_PORT_STATUS_STATE 3 (testAnswered p false s)) :=
  (if_neg (isPort_not_absent hport)).trans ((if_neg Bool.false_ne_true).trans (if_pos hst))

theorem linkRepeat_training (hport : isPort s p = true) (hst : portState s p = 2) : linkRepeat p s = sendHelloB p (sendHelloA p s) :=
  (if_neg (isPort_not_absent hport)).trans (if_pos hst)

theorem timeReceive_locked (hport : isPort s p = true) (hlock : (portOf s p).lock ≠ 0) (t : Nat) :
    timeReceive p t s = updPort p (fun x => { x with timeIn := t % 2 ^ 56, timeArr := portNow s p - rxLatency s p }) s :=
  if_pos ⟨hport, hlock⟩

theorem timeSend_locked (hport : isPort s p = true) (hlock : (portOf s p).lock ≠ 0) (hsafe : isSafe s = false)
    (hst : portState s p ≠ 5) :
    let t := (portNow s p + txLatency s p) % 2 ^ 56
    timeSend p s = sendLowest p (ctlBytes [(1, 0x78), (7, t)]) (updPort p (fun x => { x with timeOut := t }) s) :=
  if_pos ⟨hport, hlock, by simp [hsafe], hst⟩

/-! ## Streams and drops (R298, R309, R316) -/

theorem blockLock_stream {w : Nat} (hport : isPort s p = true) (hw : w < 16) (on : Bool) :
    blockLock p w on s = updPort p (fun x => { x with lock := withField x.lock w 1 (b2n on) }) s :=
  if_pos ⟨hport, hw⟩

theorem ratioExceeded_active {w : Nat} (hport : isPort s p = true) (hst : portState s p = 3)
    (hactive : bitOf (portOf s p).active w = true) : ratioExceeded p w s = (startSubst p w s).getD s :=
  if_pos ⟨hport, hst, hactive⟩

theorem linkDown_drops (hport : isPort s p = true) {cause : DownCause} (hcause : cause ∈ [DownCause.replays, .laserLost, .siteLost]) :
    linkDown p cause s = portDrop p s := by
  simp only [List.mem_cons, List.not_mem_nil, or_false] at hcause
  obtain rfl | rfl | rfl := hcause <;> exact if_neg (isPort_not_absent hport)

theorem linkDown_modulation (hport : isPort s p = true) : linkDown p .modulation s = modMismatch p s :=
  if_neg (isPort_not_absent hport)

theorem linkDown_allLock (hport : isPort s p = true) (hout : (portOf s p).lock &&& (portOf s p).active = 0) :
    linkDown p .allLock s = portDrop p s :=
  (if_neg (isPort_not_absent hport)).trans (if_pos hout)

/-- A stream out of lock takes the port down where no spare can carry it. -/
theorem linkDown_oneLock {w : Nat} (hport : isPort s p = true) (hactive : bitOf (portOf s p).active w = true)
    (hout : bitOf (portOf s p).lock w = false) (hnew : (portOf s p).asked.any (fun c => c.sub == 4 && c.a == w) = false) :
    linkDown p (.oneLock w) s = (startSubst p w s).getD (portDrop p s) :=
  (if_neg (isPort_not_absent hport)).trans (if_pos (by rw [hactive, hout, hnew]; rfl))

end

/-- Settles O49: each LINK exchange in the state of the port that takes it (R312, R314 to R319), where the bit of a partner not recorded
is log entry 913, and the marker and STRIPE's answer are log entry 914; drops, retraining and block lock (R298, R309, R316). -/
theorem fabricLinkExchanges : Obligations.FabricLinkExchanges := by
  unfold Obligations.FabricLinkExchanges
  refine fun s p hport => ⟨fun idSet id pp half pam4 hst => ⟨?mismatch, ?helloA⟩,
    fun inc ses id pp half pam4 hst hhello => ⟨?recorded, ?changed, ?new⟩, ?mode, ?subst, ?stripe, ?align, ?mon,
    fun enter => ⟨?testEnter, ?testLeave⟩, ?again, ?time, ?timeSend, ?ratio, ?lock, ?drop, ?modulation, ?allLock, ?oneLock, ?retrain⟩
  case mismatch => exact fun hmode => congrArg Host.Outcome.next (helloAReceive_mismatch hport hst hmode idSet)
  case helloA => exact fun hmode => congrArg Host.Outcome.next (helloAReceive_answered hport hst hmode idSet)
  case recorded => exact fun hpartner => congrArg Host.Outcome.next (helloBReceive_recorded hport hst hhello hpartner)
  case changed =>
    exact fun old hpartner hother => congrArg Host.Outcome.next (helloBReceive_changed hport hst hhello hpartner hother)
  case new => exact fun hpartner => congrArg Host.Outcome.next (helloBReceive_new hport hst hhello hpartner)
  case mode => exact fun half m hst => congrArg Host.Outcome.next (modeReceive_up hport hst half m)
  case subst => exact fun w sp m hst hnew => congrArg Host.Outcome.next (substReceive_request hport hst hnew w sp)
  case stripe => exact fun set m hst => congrArg Host.Outcome.next (stripeReceive_up hport hst set m)
  case align => exact fun w _ count hst hactive => congrArg Host.Outcome.next (alignReceive_active hport hst hactive count)
  case mon => exact fun y pwr => congrArg Host.Outcome.next (if_pos hport)
  case testEnter => rintro hst rfl; exact congrArg Host.Outcome.next (testReceive_enters hport hst)
  case testLeave => rintro hst rfl; exact congrArg Host.Outcome.next (testReceive_leaves hport hst)
  case again => exact fun hst => congrArg Host.Outcome.next (linkRepeat_training hport hst)
  case time => exact fun t hlock => congrArg Host.Outcome.next (timeReceive_locked hport hlock t)
  case timeSend => exact fun hlock hsafe hst => congrArg Host.Outcome.next (timeSend_locked hport hlock hsafe hst)
  case ratio => exact fun w hst hactive => congrArg Host.Outcome.next (ratioExceeded_active hport hst hactive)
  case lock =>
    exact fun w hw => ⟨congrArg Host.Outcome.next (blockLock_stream hport hw false),
      congrArg Host.Outcome.next (blockLock_stream hport hw true)⟩
  case drop => exact fun cause hcause => congrArg Host.Outcome.next (linkDown_drops hport hcause)
  case modulation => exact congrArg Host.Outcome.next (linkDown_modulation hport)
  case allLock => exact fun hout => congrArg Host.Outcome.next (linkDown_allLock hport hout)
  case oneLock => exact fun w hactive hout hnew => congrArg Host.Outcome.next (linkDown_oneLock hport hactive hout hnew)
  case retrain => exact fun hst hlock hsafe => congrArg Host.Outcome.next (retrainAttempt_down hport hst hlock hsafe)

end Sys2Proof.Machine
end

