-- ==== Sys2Proof/Proofs/CrestTimebase.lean ====
section
/-! The Crest time base (R325 to R334, R369): the step with no command waiting, the epoch pulse, the report timer and the loss of a
parent. No occurrence of a fault source moves a die's Crest count, so an epoch pulse that raises one for a die realigns that die alone. -/

namespace Sys2Proof.Machine

/-! ## A step with no command waiting (R325, R326) -/

theorem step_empty {s : State} (h : s.pending = []) : step s = .next (idle s) := by
  unfold step
  rw [h]

/-- Settles O2: a step with an empty queue is `idle`, one Crest tick where the Crest runs (the model's choice, log entry 40). -/
theorem emptyQueueTicksTheCrest : Obligations.EmptyQueueTicksTheCrest := by
  unfold Obligations.EmptyQueueTicksTheCrest
  refine fun s hempty => ⟨fun hrun => ?_, fun hstill => ?_⟩
  · rw [step_empty hempty, idle, if_pos hrun]
  · rw [step_empty hempty, idle, hstill, if_neg Bool.false_ne_true]

/-! ## Occurrences of fault sources leave every die's Crest count (R428 to R433) -/

@[simp] theorem trace_skew (src unit type tenant t : Nat) (payload : List Byte) (s : State) :
    (trace src unit type tenant t payload s).skew = s.skew := by
  unfold trace
  refine (foldl_same _ State.skew (fun s p => ?_) _ _).trans rfl
  dsimp only
  split
  · split <;> rfl
  · rfl

@[simp] theorem faultRec_skew (f : FaultInfo) (s : State) : (faultRec f s).skew = s.skew := by
  unfold faultRec
  rw [trace_skew]
  split <;> rfl

@[simp] theorem report_skew (u t core detail : Nat) (s : State) : (report u t core detail s).skew = s.skew := by
  unfold report blockEvent
  split
  · exact faultRec_skew _ _
  · split
    · exact faultRec_skew _ _
    · rfl

@[simp] theorem jStop_skew (n p : Nat) (s : State) : (jStop n p s).skew = s.skew := rfl

@[simp] theorem fenceOne_skew (cause : Nat) (s : State) (u : Nat) : (fenceOne cause s u).skew = s.skew := by
  unfold fenceOne
  simp only [apply_ite State.skew, fset_skew, jStop_skew, setDie_skew, ite_self]

@[simp] theorem fenceStart_skew (u cause : Nat) (s : State) : (fenceStart u cause s).skew = s.skew := by
  unfold fenceStart
  split
  · rw [foldl_same _ State.skew (fenceOne_skew cause), fenceOne_skew]
  · exact fenceOne_skew cause s u

@[simp] theorem showFault_skew (s : State) : (showFault s).skew = s.skew := by unfold showFault; split <;> rfl

@[simp] theorem enterSafe_skew (source : Nat) (s : State) : (enterSafe source s).skew = s.skew := by
  have hblank (t : State) : (if isSafe t then t else
      (List.range (nSites t)).foldl (fun s k => emit (.sideband k 6 []) s) t).skew = t.skew := by
    split
    · rfl
    · exact foldl_same (fun s k => emit (.sideband k 6 []) s) State.skew (fun _ _ => rfl) _ _
  refine (showFault_skew _).trans ((hblank _).trans ?_)
  split <;> rfl

@[simp] theorem occur_skew (u b src core : Nat) (inj : Bool) (s : State) : (occur u b src core inj s).skew = s.skew := by
  unfold occur
  split
  · rfl
  · simp only [apply_ite State.skew, enterSafe_skew, fenceStart_skew, report_skew, regPut_skew, fset_skew, fcount_skew, fsetBit_skew,
      ite_self]

@[simp] theorem occurs_skew (u b src : Nat) (s : State) : (occurs u b src s).skew = s.skew := occur_skew ..

/-! ## One die at the epoch pulse (R329) -/

/-- The die's count lies within 4 counts of the master's. -/
abbrev Aligned (s : State) (u : Nat) : Prop := -4 ≤ Mp.get 0 s.skew u ∧ Mp.get 0 s.skew u ≤ 4

/-- The state in which a die found out of alignment is realigned: CST_STATUS.ALIGN is set and source 6 of the Col die's block 1 has
occurred. -/
def alignNoted (s : State) : State := occurs 0 1 6 (fset rCST_STATUS fCST_STATUS_ALIGN 1 s)

@[simp] theorem alignNoted_skew (s : State) : (alignNoted s).skew = s.skew := by simp [alignNoted]

section
variable {s : State} {u : Nat}

theorem alignDie_aligned (h : Aligned s u) : alignDie u s = s := if_pos h

theorem alignDie_behind (h : Mp.get 0 s.skew u < -4) :
    alignDie u s = { alignNoted s with skew := Mp.put 0 (alignNoted s).skew u 0 } := by
  have hout : ¬ Aligned s u := by omega
  exact (if_neg hout).trans (if_pos (by omega))

theorem alignDie_ahead (h : 4 < Mp.get 0 s.skew u) :
    alignDie u s = { alignNoted s with
      skew := Mp.put 0 (alignNoted s).skew u 4, aligning := u :: (alignNoted s).aligning.filter (· != u) } := by
  have hout : ¬ Aligned s u := by omega
  exact (if_neg hout).trans (if_neg (by omega))

theorem alignDie_cases (s : State) (u : Nat) : Aligned s u ∨ Mp.get 0 s.skew u < -4 ∨ 4 < Mp.get 0 s.skew u := by omega

/-- A die is within 4 counts once it has been realigned. -/
theorem aligned_alignDie_self (s : State) (u : Nat) : Aligned (alignDie u s) u := by
  obtain h | h | h := alignDie_cases s u
  · rwa [alignDie_aligned h]
  · simp [alignDie_behind h, Aligned]
  · simp [alignDie_ahead h, Aligned]

/-- Another die's count stays as it was. -/
theorem get_skew_alignDie_ne {x : Nat} (hx : x ≠ u) : Mp.get 0 (alignDie u s).skew x = Mp.get 0 s.skew x := by
  obtain h | h | h := alignDie_cases s u
  · rw [alignDie_aligned h]
  · simp [alignDie_behind h, Mp.get_put_ne _ _ _ _ _ hx]
  · simp [alignDie_ahead h, Mp.get_put_ne _ _ _ _ _ hx]

/-! ## The epoch pulse (R327, R329) -/

/-- A fold whose every step leaves its first state ends in it. -/
theorem foldl_unchanged {σ α : Type} {f : σ → α → σ} {l : List α} {s : σ} (h : ∀ x ∈ l, f s x = s) : l.foldl f s = s :=
  List.foldlRecOn (motive := (· = s)) l f rfl (by rintro _ rfl x hx; exact h x hx)

theorem epochPulse_stopped (h : s.crestRun = false) : epochPulse s = s := by
  rw [epochPulse, h, if_neg Bool.false_ne_true]

theorem epochPulse_running (h : s.crestRun = true) :
    epochPulse s = ((crestDies s).filter (dieOk s)).foldl (fun s u => alignDie u s) s := if_pos h

theorem epochPulse_aligned (h : ∀ u ∈ crestDies s, dieOk s u = true → Aligned s u) : epochPulse s = s := by
  cases hrun : s.crestRun with
  | false => exact epochPulse_stopped hrun
  | true =>
    rw [epochPulse_running hrun]
    refine foldl_unchanged fun u hu => ?_
    obtain ⟨hmem, hok⟩ := List.mem_filter.1 hu
    exact alignDie_aligned (h u hmem hok)

/-- With every other die within 4 counts, the pulse realigns this one: the dies before it find nothing to do, nor do those after it,
itself among them where two kinds of die share its code. -/
theorem epochPulse_alone (hrun : s.crestRun = true) (hu : u ∈ crestDies s) (hok : dieOk s u = true)
    (hothers : ∀ x ∈ crestDies s, x ≠ u → dieOk s x = true → Aligned s x) : epochPulse s = alignDie u s := by
  have hother : ∀ x ∈ (crestDies s).filter (dieOk s), x ≠ u → Aligned s x := fun x hx hne =>
    let ⟨hmem, hokx⟩ := List.mem_filter.1 hx
    hothers x hmem hne hokx
  rw [epochPulse_running hrun]
  obtain ⟨before, after, hsplit, hfirst⟩ := List.eq_append_cons_of_mem (List.mem_filter.2 ⟨hu, hok⟩)
  rw [hsplit] at hother ⊢
  have hbefore : before.foldl (fun s u => alignDie u s) s = s := foldl_unchanged fun x hx =>
    alignDie_aligned (hother x (List.mem_append_left _ hx) (by rintro rfl; exact hfirst hx))
  rw [List.foldl_append, hbefore, List.foldl_cons]
  refine foldl_unchanged fun x hx => alignDie_aligned ?_
  by_cases hxu : x = u
  · rw [hxu]
    exact aligned_alignDie_self s u
  · rw [Aligned, get_skew_alignDie_ne hxu]
    exact hother x (List.mem_append_right _ (List.mem_cons_of_mem _ hx)) hxu

/-! ## The report timer (R330, R331, R369) -/

theorem sendReport_no_partner {port : Nat} (h : (portOf (chooseParent s) port).partner = none) : sendReport port s = chooseParent s := by
  simp only [sendReport, h]

/-- The report of a port that is UP and has heard TIME goes to the partner's module under a tag of its own. -/
theorem sendReport_partner {port m : Nat} {rest : Nat × Nat × Nat}
    (hpartner : (portOf (chooseParent s) port).partner = some (m, rest)) (hport : isPort (chooseParent s) port = true)
    (hup : portState (chooseParent s) port = 3) (hheard : (portOf (chooseParent s) port).timeArr ≠ 0)
    (hsafe : isSafe (chooseParent s) = false) (htag : tagFree (chooseParent s) (pN port) .melhal 0 = true) :
    let v := chooseParent s
    let x := portOf v port
    let te := takeTag (pN port) ⟨0, 0, .melhal, 0, .request 0, 0, 0, false, 0, [], some m, some port, false⟩ v
    sendReport port s = enqueuePkt port ⟨8, 7, 0, 0, 0, 0, m, moduleId v, 64, te.1.tag, 0, te.1.reqId, [],
      reportEntry port (nearestStamp x.timeIn x.timeArr) x.timeArr⟩ te.2 := by
  simp [sendReport, hpartner, hport, hup, hheard, hsafe, htag]

/-! ## A parent port that goes down (R330, R334) -/

@[simp] theorem crestState_streak (n : Nat) (s : State) : crestState { s with streak := n } = crestState s := rfl

/-- PARENT and PARENT_V lie apart from STATE in CST_STATUS. -/
@[simp] theorem crestState_setParent (p : Option Nat) (s : State) : crestState (setParent p s) = crestState s := by
  have hstate (f : Fld) (v : Nat) (t : State) (hf : f.lo + f.w ≤ 29) : crestState (fset rCST_STATUS f v t) = crestState t :=
    fget_fset_apart _ _ _ _ _ (hf.trans (by decide)) (.inr hf)
  cases p with
  | none => exact hstate _ _ _ (by decide)
  | some q => exact (hstate _ _ _ (by decide)).trans (hstate _ _ _ (by decide))

theorem chooseParent_none (h : ∀ x ∈ parentCandidates s, portState s x ≠ 3) :
    chooseParent s = if crestState s = 4 then setParent none s
      else enterCrest (if parentCandidates s = [] then 0 else 3) (setParent none s) := by
  have hfind : (parentCandidates s).find? (fun x => portState s x == 3) = none := by simpa using h
  simp [chooseParent, hfind]

/-- A candidate that is UP and is not the parent yet becomes the parent, to be acquired. -/
theorem chooseParent_new {q : Nat} (hfind : (parentCandidates s).find? (fun x => portState s x == 3) = some q)
    (hnew : parentOf s ≠ some q) :
    let v := { setParent (some q) s with streak := 0 }
    chooseParent s = if crestState s = 4 then v else enterCrest 1 v := by
  simp [chooseParent, hfind, hnew]

theorem parentLost_no_parent (h : parentOf s = none) : parentLost s = s := by simp only [parentLost, h]

theorem parentLost_up {p : Nat} (h : parentOf s = some p) (hup : portState s p = 3) : parentLost s = s := by
  simp only [parentLost, h, if_pos hup]

theorem parentLost_down {p : Nat} (h : parentOf s = some p) (hdown : portState s p ≠ 3) : parentLost s = chooseParent s := by
  simp only [parentLost, h, if_neg hdown]

/-- A port that is down is not the candidate found UP. -/
theorem parentOf_ne_found {p q : Nat} (h : parentOf s = some p) (hdown : portState s p ≠ 3)
    (hfind : (parentCandidates s).find? (fun x => portState s x == 3) = some q) : parentOf s ≠ some q := by
  have hup : portState s q = 3 := by simpa using List.find?_some hfind
  rw [h]
  rintro ⟨⟩
  exact hdown hup

end

/-- Settles O52: the epoch pulse on dies within 4 counts, behind and ahead, which are held (R327, R329, log entry 967); the Crest
report on any UP port that heard TIME (R330, R331, R369, log entry 968); a lost parent, whose place the first candidate that is UP
takes (R334, log entry 967). -/
theorem crestSteering : Obligations.CrestSteering := by
  unfold Obligations.CrestSteering
  refine fun s => ⟨?stopped, ?aligned, fun u hu hrun hok hothers => ⟨?behind, ?ahead⟩, fun port => ⟨?silent, ?report⟩,
    ?noParent, ?up, ?next, ?noneUp⟩
  case stopped => exact fun hstop => congrArg Host.Outcome.next (epochPulse_stopped hstop)
  case aligned => exact fun hall => congrArg Host.Outcome.next (epochPulse_aligned hall)
  case behind =>
    exact fun hlow => congrArg Host.Outcome.next ((epochPulse_alone hrun hu hok hothers).trans (alignDie_behind hlow))
  case ahead =>
    exact fun hhigh => congrArg Host.Outcome.next ((epochPulse_alone hrun hu hok hothers).trans (alignDie_ahead hhigh))
  case silent => exact fun hnone => congrArg Host.Outcome.next (sendReport_no_partner hnone)
  case report =>
    exact fun m rest hpartner hport hup hheard hsafe htag =>
      congrArg Host.Outcome.next (sendReport_partner hpartner hport hup hheard hsafe htag)
  case noParent => exact fun hnone => congrArg Host.Outcome.next (parentLost_no_parent hnone)
  case up => exact fun p hp hup => congrArg Host.Outcome.next (parentLost_up hp hup)
  case next =>
    exact fun p q hp hdown hfind => congrArg Host.Outcome.next
      ((parentLost_down hp hdown).trans (chooseParent_new hfind (parentOf_ne_found hp hdown hfind)))
  case noneUp =>
    exact fun p hp hdown hall => congrArg Host.Outcome.next ((parentLost_down hp hdown).trans (chooseParent_none hall))

end Sys2Proof.Machine
end

section
/-! Commands of the management interface (R357 to R364): what becomes of an accepted command whose turn it is, by what its body answers. -/

namespace Sys2Proof.Machine

section
variable {h : Cmd} {op : Nat} {s v : State} {i : Inflight} {t0 : Bool} {fields : List (Nat × Nat)}
  {bad : List Byte → Nat → List (Nat × Bool)} {body : List Byte → Nat → State → Ans} {r : Nat} {d : List Byte}

/-! ## What an accepted command comes to (R360, R363) -/

/-- What the answer of a command that passed its checks makes of the state: the reply goes out, the command waits, or it has not
started. -/
def answerTo (h : Cmd) (i : Inflight) (op : Nat) (s : State) : Ans → State
  | .done st r d t v => replied i op st r d (t.getD (colNow v)) v
  | .wait ks a b r t v =>
    { v with waits := v.waits ++
      [⟨i.path, op, eTag i.entry, i.tAccept, actingOf v h.path i.entry, eDataAddr i.entry, eDataLen i.entry, ks, a, b, r, t, i.discard⟩] }
  | .stay => s

theorem runCmd_refused {st : Nat} (t : CmdTurn h op s i) (hc : cmdCheck h op t0 fields bad (taken i s) = some (st, r)) :
    runCmd h op t0 fields bad body s = replied i op st r [] (colNow (taken i s)) (taken i s) := by
  obtain ⟨hturn, hop, hready⟩ := t
  have hgo : ¬(eOp i.entry % 4096 ≠ op ∨ (!s.ready) = true) := by simp [hop, hready]
  have hc' : cmdCheck h op t0 fields bad { s with inflight := s.inflight.erase i } = some (st, r) := hc
  unfold runCmd
  rw [hturn]
  dsimp only
  rw [if_neg hgo, hc']
  rfl

theorem runCmd_passed (c : CmdReady h op t0 fields bad s i) :
    runCmd h op t0 fields bad body s = answerTo h i op s (body (paramBytes h i) (actingFor h i s) (taken i s)) := by
  obtain ⟨⟨hturn, hop, hready⟩, hc⟩ := c
  have hgo : ¬(eOp i.entry % 4096 ≠ op ∨ (!s.ready) = true) := by simp [hop, hready]
  have hc' : cmdCheck h op t0 fields bad { s with inflight := s.inflight.erase i } = none := hc
  unfold runCmd
  rw [hturn]
  dsimp only
  rw [if_neg hgo, hc']
  dsimp only
  split <;> rename_i e <;> exact (congrArg (answerTo h i op s) e).symm

theorem runCmd_answers (c : CmdReady h op t0 fields bad s i)
    (hb : body (paramBytes h i) (actingFor h i s) (taken i s) = .ok r d v) :
    runCmd h op t0 fields bad body s = answered i op r d v := by
  rw [runCmd_passed c, hb]
  rfl

/-- The tenant of a path is the state's only through the owners of its queue pairs. -/
theorem actingOf_qps {path : CmdPath} {e : List Byte} (hq : v.qps = s.qps) : actingOf v path e = actingOf s path e := by
  cases path with
  | qp q => simp only [actingOf, issuerOf, qpOwner, qpOf, hq]
  | fabric port src reqId t => rfl

theorem runCmd_waits {ks : List Nat} {a b t : Nat} (c : CmdReady h op t0 fields bad s i)
    (hb : body (paramBytes h i) (actingFor h i s) (taken i s) = .wait ks a b 0 t v) (hq : v.qps = s.qps) :
    runCmd h op t0 fields bad body s = keptWaiting h i op ks a b t s v := by
  have htenant : actingOf v h.path i.entry = actingFor h i s := actingOf_qps (s := taken i s) hq
  rw [runCmd_passed c, hb, keptWaiting, ← htenant]
  rfl

/-! ## What the checks it passed say of its parameters (R357, R360) -/

/-- The command taken up is the one the row names. -/
theorem startable_entry {path : CmdPath} {e : List Byte} {before l : List Inflight}
    (hst : startable s path e before l = some i) : i.path = path ∧ i.entry = bytesAt e 0 64 := by
  induction l generalizing before with
  | nil => cases hst
  | cons j r ih =>
    unfold startable at hst
    split at hst
    · exact ih hst
    · split at hst
      · next hj =>
        cases hst
        exact ⟨hj.1, hj.2.1⟩
      · cases hst

/-! ## The checks (R360) -/

theorem lowestOff_cons (x : Nat) (l : List Nat) : ∃ o, lowestOff (x :: l) = some o := by
  induction l generalizing x with
  | nil => exact ⟨x, rfl⟩
  | cons y l ih => exact ih (min y x)

theorem lowestOff_eq_none {l : List Nat} (hl : lowestOff l = none) : l = [] := by
  cases l with
  | nil => rfl
  | cons x l =>
    obtain ⟨o, ho⟩ := lowestOff_cons x l
    rw [ho] at hl
    cases hl

/-- The offsets of the parameters at fault: fields out of range, and the first byte set that no field uses. -/
def badOffsets (h : Cmd) (fields : List (Nat × Nat)) (bad : List Byte → Nat → List (Nat × Bool)) (s : State) : List Nat :=
  let ps := paramsOf { h with entry := bytesAt h.entry 0 64 }
  ((bad ps (actingOf s h.path (bytesAt h.entry 0 64))).filter (·.2)).map (·.1) ++ (unusedBad ps fields).toList

/-- Whom a command may act for: tenant 0 for any tenant, another for itself, by a command that is open to it. -/
def Permitted (h : Cmd) (t0 : Bool) (s : State) : Prop :=
  issuerOf s h.path = 0 ∨ t0 = false ∧ (eTenant (bytesAt h.entry 0 64) = 0xFF ∨ eTenant (bytesAt h.entry 0 64) = issuerOf s h.path)

theorem cmdCheck_unavailable (hop : opAvailable s h.path op = false) : cmdCheck h op t0 fields bad s = some (rsBadOpcode, 0) := by
  simp only [cmdCheck, hop, Bool.not_false, if_true]

theorem cmdCheck_forbidden (hop : opAvailable s h.path op = true) (hp : ¬Permitted h t0 s) :
    cmdCheck h op t0 fields bad s = some (rsNotPermitted, 0) := by
  have hno : issuerOf s h.path ≠ 0 ∧
      (t0 = true ∨ eTenant (bytesAt h.entry 0 64) ≠ 0xFF ∧ eTenant (bytesAt h.entry 0 64) ≠ issuerOf s h.path) := by
    cases t0 <;> simpa [Permitted] using hp
  unfold cmdCheck
  rw [if_neg (by simp [hop]), if_pos hno]

theorem cmdCheck_permitted (hop : opAvailable s h.path op = true) (hp : Permitted h t0 s) :
    cmdCheck h op t0 fields bad s = match headerBad h.path (bytesAt h.entry 0 64) with
      | some o => some (rsBadParam, o)
      | none => match h.hostFail with
        | some o => some (rsHostAccess, o)
        | none => match lowestOff (badOffsets h fields bad s) with
          | some o => some (rsBadParam, o)
          | none => none := by
  have hno : ¬(issuerOf s h.path ≠ 0 ∧
      (t0 = true ∨ eTenant (bytesAt h.entry 0 64) ≠ 0xFF ∧ eTenant (bytesAt h.entry 0 64) ≠ issuerOf s h.path)) := by
    rintro ⟨hiss, rfl | ⟨hff, hne⟩⟩
    · simp [Permitted, hiss] at hp
    · simp [Permitted, hiss, hff, hne] at hp
  unfold cmdCheck
  rw [if_neg (by simp [hop]), if_neg hno]
  rfl

theorem badOffsets_of_sound (hc : cmdCheck h op t0 fields bad s = none) : badOffsets h fields bad s = [] := by
  cases hop : opAvailable s h.path op with
  | false => rw [cmdCheck_unavailable hop] at hc; cases hc
  | true =>
    by_cases hp : Permitted h t0 s
    · rw [cmdCheck_permitted hop hp] at hc
      split at hc
      · cases hc
      split at hc
      · cases hc
      split at hc
      · cases hc
      · next hlow => exact lowestOff_eq_none hlow
    · rw [cmdCheck_forbidden hop hp] at hc; cases hc

/-- No field of a command that passed its checks is out of range. -/
theorem CmdReady.in_range (c : CmdReady h op t0 fields bad s i) {o : Nat} {b : Bool}
    (hp : (o, b) ∈ bad (paramBytes h i) (actingFor h i s)) : b = false := by
  have hoffs := badOffsets_of_sound c.sound
  rw [paramBytes, actingFor, (startable_entry c.turn).2] at hp
  rw [badOffsets, List.append_eq_nil_iff, List.map_eq_nil_iff, List.filter_eq_nil_iff] at hoffs
  simpa using hoffs.1 _ hp
end

end Sys2Proof.Machine
end

section
/-! Commands that report, and runs of words of the device control space (R366, R392, R421, R422, R453, R457, R463). -/

namespace Sys2Proof.Machine

/-! ## Runs of words -/

theorem length_readWords (n a : Nat) (s : State) : (readWords n a s).1.length = n := by
  induction n generalizing a s with
  | zero => rfl
  | succ n ih => simp [readWords, ih]

theorem headD_readWords {n : Nat} (hn : n ≠ 0) (a : Nat) (s : State) : (readWords n a s).1.headD 0 = (devRead a s).1 := by
  cases n with
  | zero => exact absurd rfl hn
  | succ n => rfl

/-- Words written upward from an address, as a loop over their places. -/
theorem writeWords_eq_foldl (f : Nat → Nat) (n a : Nat) (s : State) :
    writeWords a ((List.range n).map f) s = (List.range n).foldl (fun v j => devWrite (a + 4 * j) (BitVec.ofNat 32 (f j)) v) s := by
  induction n generalizing a f s with
  | zero => rfl
  | succ n ih =>
    rw [List.range_succ_eq_map, List.map_cons, List.map_map, writeWords, ih, List.foldl_cons, List.foldl_map]
    simp only [Function.comp_apply, Nat.mul_succ, Nat.add_assoc, Nat.add_comm 4, Nat.mul_zero, Nat.add_zero]

section
variable {h : Cmd} {s : State} {i : Inflight}

/-! ## Bodies whose answer hangs on the state or the parameters -/

theorem cairnRecordBody_found {ps r : List Byte} {tn : Nat} (hr : Mp.find s.crn.store (leAt ps 0 8) = some r) :
    cairnRecordBody ps tn s = .ok 0 r s := by
  simp only [cairnRecordBody, hr]

/-- REG_READ reads one word at least. -/
theorem regRead_length_ne_zero (c : CmdReady h 0x102 true regReadFields regReadBad s i) : leAt (paramBytes h i) 4 4 ≠ 0 := by
  have hlen := c.in_range (List.mem_cons_of_mem _ (List.mem_singleton.2 rfl))
  simp only [Bool.or_eq_false_iff, beq_eq_false_iff_ne] at hlen
  exact hlen.1

theorem regWriteBody_eq (ps : List Byte) (tn : Nat) (u : State) :
    regWriteBody h ps tn u = .ok (leAt ps 4 4) [] ((List.range (leAt ps 4 4)).foldl (fun v j => devWrite (leAt ps 0 4 + 4 * j)
      (BitVec.ofNat 32 (leAt (if 8 < eParamLen h.entry then ps.drop 8 else dataIn h) (4 * j) 4)) v) u) := by
  simp only [regWriteBody, regsInline, decide_eq_true_eq, writeWords_eq_foldl]

end

/-- Settles O24: each command that reports answers with its data from the state it finds (R366; the layout of CAIRN_STATUS is log
entry 953, the free values of IDENTIFY and of the log 981), and REG_READ and REG_WRITE work their words in rising order (log entry
958). -/
theorem reportingAndRegisterCommands : Obligations.ReportingAndRegisterCommands := by
  unfold Obligations.ReportingAndRegisterCommands
  refine ⟨fun h s i => ⟨?identify, ?tenantInfo, ?cairnRecord, ?cairnStatus, ?apportion, ?calStatus, ?powerRead, ?rollback, ?cert,
    ?attest, ?log⟩, fun h s i => ⟨?regRead, ?regWrite⟩⟩
  case identify => exact fun c => congrArg Host.Outcome.next (runCmd_answers c rfl)
  case tenantInfo => exact fun c => congrArg Host.Outcome.next (runCmd_answers c rfl)
  case cairnRecord => exact fun r c hr => congrArg Host.Outcome.next (runCmd_answers c (cairnRecordBody_found hr))
  case cairnStatus => exact fun c => congrArg Host.Outcome.next (runCmd_answers c rfl)
  case apportion => exact fun c => congrArg Host.Outcome.next (runCmd_answers c rfl)
  case calStatus => exact fun c => congrArg Host.Outcome.next (runCmd_answers c rfl)
  case powerRead => exact fun c => congrArg Host.Outcome.next (runCmd_answers c rfl)
  case rollback => exact fun c => congrArg Host.Outcome.next (runCmd_answers c rfl)
  case cert => exact fun c => congrArg Host.Outcome.next (runCmd_answers c rfl)
  case attest => exact fun c => congrArg Host.Outcome.next (runCmd_answers c rfl)
  case log => exact fun c => congrArg Host.Outcome.next (runCmd_answers c rfl)
  case regRead =>
    exact fun c => ⟨congrArg Host.Outcome.next (runCmd_answers c rfl), length_readWords .., headD_readWords (regRead_length_ne_zero c) ..⟩
  case regWrite => exact fun c => congrArg Host.Outcome.next (runCmd_answers c (regWriteBody_eq ..))

end Sys2Proof.Machine
end

section
/-! The queue pairs (R350): only the interface itself changes them. The operations here leave them as they were, so that a command
that waits keeps the tenant it was accepted for. -/

namespace Sys2Proof.Machine

/-! ## Records, fences and occurrences of fault sources -/

@[simp] theorem trace_qps (src unit type tenant t : Nat) (payload : List Byte) (s : State) :
    (trace src unit type tenant t payload s).qps = s.qps := by
  unfold trace
  refine (foldl_same _ State.qps (fun s p => ?_) _ _).trans rfl
  dsimp only
  split
  · split <;> rfl
  · rfl

@[simp] theorem faultRec_qps (f : FaultInfo) (s : State) : (faultRec f s).qps = s.qps := by
  unfold faultRec
  rw [trace_qps]
  split <;> rfl

@[simp] theorem blockEvent_qps (u t core detail : Nat) (s : State) : (blockEvent u t core detail s).qps = s.qps := faultRec_qps ..

@[simp] theorem report_qps (u t core detail : Nat) (s : State) : (report u t core detail s).qps = s.qps := by
  unfold report
  split
  · exact blockEvent_qps ..
  · split
    · exact blockEvent_qps ..
    · rfl

@[simp] theorem jStop_qps (n p : Nat) (s : State) : (jStop n p s).qps = s.qps := rfl

@[simp] theorem fenceOne_qps (cause : Nat) (s : State) (u : Nat) : (fenceOne cause s u).qps = s.qps := by
  unfold fenceOne
  simp only [apply_ite State.qps, fset_qps, jStop_qps, setDie_qps, ite_self]

@[simp] theorem fenceStart_qps (u cause : Nat) (s : State) : (fenceStart u cause s).qps = s.qps := by
  unfold fenceStart
  split
  · rw [foldl_same _ State.qps (fenceOne_qps cause), fenceOne_qps]
  · exact fenceOne_qps cause s u

@[simp] theorem showFault_qps (s : State) : (showFault s).qps = s.qps := by unfold showFault; split <;> rfl

@[simp] theorem enterSafe_qps (source : Nat) (s : State) : (enterSafe source s).qps = s.qps := by
  have hblank (t : State) : (if isSafe t then t else
      (List.range (nSites t)).foldl (fun s k => emit (.sideband k 6 []) s) t).qps = t.qps := by
    split
    · rfl
    · exact foldl_same (fun s k => emit (.sideband k 6 []) s) State.qps (fun _ _ => rfl) _ _
  refine (showFault_qps _).trans ((hblank _).trans ?_)
  split <;> rfl

@[simp] theorem occur_qps (u b src core : Nat) (inj : Bool) (s : State) : (occur u b src core inj s).qps = s.qps := by
  unfold occur
  split
  · rfl
  · simp only [apply_ite State.qps, enterSafe_qps, fenceStart_qps, report_qps, regPut_qps, fset_qps, fcount_qps, fsetBit_qps, ite_self]

@[simp] theorem occurs_qps (u b src : Nat) (s : State) : (occurs u b src s).qps = s.qps := occur_qps ..

/-! ## Tags and lanes -/

@[simp] theorem tagRegs_qps (n tenant : Nat) (s : State) : (tagRegs n tenant s).qps = s.qps := by
  unfold tagRegs
  simp only [apply_ite State.qps, fset_qps, ite_self]

@[simp] theorem takeTag_qps (n : Nat) (e : TagEnt) (s : State) : (takeTag n e s).2.qps = s.qps := tagRegs_qps ..

@[simp] theorem enqueuePkt_qps (port : Nat) (p : Pkt) (s : State) : (enqueuePkt port p s).qps = s.qps := rfl

theorem tagPass_qps {n tenant : Nat} {rq : Requester} {s t : State} (ht : tagPass n rq tenant s = some t) : t.qps = s.qps := by
  unfold tagPass at ht
  split at ht
  · cases ht
    split <;> rfl
  · cases ht

/-! ## Graphs, lasers and clocks -/

@[simp] theorem updTask_qps (h t : Nat) (f : Task → Task) (s : State) : (updTask h t f s).qps = s.qps := by
  unfold updTask
  split <;> rfl

@[simp] theorem preemptTask_qps (h t cause : Nat) (s : State) : (preemptTask h t cause s).qps = s.qps := by
  unfold preemptTask
  split
  · rfl
  · exact foldl_same _ State.qps (fun s m => updTask_qps ..) _ _

@[simp] theorem setGran_qps (k : Nat) (g : Gran) (s : State) : (setGran k g s).qps = s.qps := rfl

@[simp] theorem askSwitch_qps (k : Nat) (s : State) : (askSwitch k s).qps = s.qps := rfl

@[simp] theorem startSpare_qps (k : Nat) (s : State) : (startSpare k s).qps = s.qps := by unfold startSpare; split <;> rfl

@[simp] theorem coreClock_qps (d c : Nat) (s : State) : (coreClock d c s).qps = s.qps := by unfold coreClock; dsimp only; split <;> rfl

@[simp] theorem dieClocks_qps (d : Nat) (s : State) : (dieClocks d s).qps = s.qps :=
  (fset_qps ..).trans (foldl_same (fun s c => coreClock d c s) State.qps (fun _ _ => coreClock_qps ..) _ _)

/-! ## Die links, topology and dies that rejoin -/

@[simp] theorem jxlSet_qps (n p v : Nat) (s : State) : (jxlSet n p v s).qps = s.qps := by unfold jxlSet; split <;> rfl

@[simp] theorem topoSet_qps (f : Fld) (i : Nat) (b : Bool) (s : State) : (topoSet f i b s).qps = s.qps := by
  unfold topoSet
  split
  · rfl
  · exact occurs_qps ..

@[simp] theorem readUnseen_qps (n : Nat) (s : State) : (readUnseen n s).qps = s.qps :=
  (foldl_same _ State.qps (fun _ _ => blockEvent_qps ..) _ _).trans rfl

@[simp] theorem raiseRbc_qps (s : State) : (raiseRbc s).qps = s.qps := by unfold raiseRbc; dsimp only; split <;> rfl

@[simp] theorem topoNow_qps (s : State) : (topoNow s).qps = s.qps := by
  unfold topoNow
  rw [raiseRbc_qps, foldl_same _ State.qps (fun s d => topoSet_qps ..), foldl_same _ State.qps, foldl_same _ State.qps (fun s i => topoSet_qps ..)]
  intro s n
  simp only [apply_ite State.qps, readUnseen_qps, topoSet_qps, ite_self]

@[simp] theorem retrain_qps (n p : Nat) (s : State) : (retrain n p s).qps = s.qps := by
  unfold retrain
  split
  · rfl
  · refine (topoNow_qps _).trans ?_
    show State.qps (ite ..) = _
    simp only [apply_ite State.qps, fset_qps, occurs_qps, jxlSet_qps, ite_self]

@[simp] theorem portFresh_qps (n p : Nat) (s : State) : (portFresh n p s).qps = s.qps := by
  unfold portFresh
  split
  · rfl
  · exact jxlSet_qps ..

@[simp] theorem unitReset_qps (u : Nat) (s : State) : (unitReset u s).qps = s.qps := rfl

@[simp] theorem bindRecord_qps (res id : Nat) (old new : Option Nat) (epoch mode tb : Nat) (s : State) :
    (bindRecord res id old new epoch mode tb s).qps = s.qps := trace_qps ..

@[simp] theorem bindDone_qps (c : Nat) (new : Option Nat) (s : State) : (bindDone c new s).qps = s.qps := by
  unfold bindDone
  refine (bindRecord_qps ..).trans ?_
  cases new <;> simp only [setCore_qps, regPut_qps, fset_qps]

@[simp] theorem coreBack_qps (c : Nat) (s : State) : (coreBack c s).qps = s.qps := by
  unfold coreBack
  dsimp only
  split
  · rfl
  · exact bindDone_qps ..

@[simp] theorem rejoinOne_qps (u : Nat) (s : State) : (rejoinOne u s).qps = s.qps := by
  unfold rejoinOne
  dsimp only
  split
  · rw [portFresh_qps]
    dsimp only
    rw [foldl_same _ State.qps (fun _ _ => coreBack_qps ..), unitReset_qps, setDie_qps]
  split
  · simp only [fset_qps, fsetBit_qps, setDie_qps]
  split
  · rw [regPut_qps, foldl_same _ State.qps (fun s p => ?_), unitReset_qps, setDie_qps]
    split
    · exact bindRecord_qps ..
    · rfl
  · rw [portFresh_qps, portFresh_qps, apply_ite State.qps, jxlSet_qps, ite_self]
    rw [foldl_same _ State.qps (fun _ _ => portFresh_qps ..)]
    dsimp only
    rw [unitReset_qps, setDie_qps]

end Sys2Proof.Machine
end

section
/-! Accesses of memory by virtual address (R140 to R163, R173 to R178) leave the queue pairs (R350) as they were. -/

namespace Sys2Proof.Machine

/-! ## Codewords -/

@[simp] theorem errAddr_qps (n k pa src sym : Nat) (ue : Bool) (s : State) : (errAddr n k pa src sym ue s).qps = s.qps := rfl
@[simp] theorem freshCw_qps (pa : Nat) (bs : List Byte) (s : State) : (freshCw pa bs s).qps = s.qps := rfl
@[simp] theorem clearBlock_qps (pa : Nat) (s : State) : (clearBlock pa s).qps = s.qps := by unfold clearBlock; split <;> rfl
@[simp] theorem strikeCw_qps (n k pa : Nat) (s : State) : (strikeCw n k pa s).qps = s.qps := by
  unfold strikeCw; dsimp only; split <;> rfl
@[simp] theorem uncorrFault_qps (pa source tenant va access handle task core origin : Nat) (s : State) :
    (uncorrFault pa source tenant va access handle task core origin s).qps = s.qps := faultRec_qps ..

@[simp] theorem readCw_qps (pa src : Nat) (s : State) : (readCw pa src s).2.qps = s.qps := by
  unfold readCw
  grind [strikeCw_qps, freshCw_qps, fcount_qps, errAddr_qps, occurs_qps, fset_qps]

@[simp] theorem writeCw_qps (pa src : Nat) (bs : List Byte) (mask : List Bool) (s : State) : (writeCw pa src bs mask s).2.qps = s.qps := by
  unfold writeCw
  grind [clearBlock_qps, freshCw_qps, readCw_qps]

@[simp] theorem cacheWrite_qps (pa tenant : Nat) (bs : List Byte) (mask : List Bool) (s : State) :
    (cacheWrite pa tenant bs mask s).2.qps = s.qps := by
  unfold cacheWrite
  grind [writeCw_qps, uncorrFault_qps]

/-! ## Lines of a ridge cache -/

@[simp] theorem setCache_qps (n : Nat) (r : RCache) (s : State) : (setCache n r s).qps = s.qps := rfl
@[simp] theorem touchLine_qps (n la way : Nat) (away : Bool) (s : State) : (touchLine n la way away s).qps = s.qps := rfl
@[simp] theorem putLine_qps (n la : Nat) (l : Line) (s : State) : (putLine n la l s).qps = s.qps := rfl
@[simp] theorem dropLine_qps (n la : Nat) (s : State) : (dropLine n la s).qps = s.qps := rfl
@[simp] theorem lineLost_qps (n la : Nat) (l : Line) (s : State) : (lineLost n la l s).qps = s.qps := by
  simp only [lineLost, occurs_qps, faultRec_qps, fset_qps]

@[simp] theorem writeBack_qps (la : Nat) (l : Line) (s : State) : (writeBack la l s).2.2.qps = s.qps := by
  unfold writeBack
  grind [cacheWrite_qps]

@[simp] theorem evict_qps (n la : Nat) (s : State) : (evict n la s).qps = s.qps := by
  unfold evict
  grind [writeBack_qps, dropLine_qps, lineLost_qps]

@[simp] theorem checkLine_qps (n la : Nat) (s : State) : (checkLine n la s).qps = s.qps := by
  unfold checkLine
  grind [dropLine_qps, lineLost_qps]

theorem allocLine_qps {n la tenant : Nat} {borrowed stream : Bool} {s t : State} (ht : allocLine n la tenant borrowed stream s = some t) :
    t.qps = s.qps := by
  unfold allocLine at ht
  grind [evict_qps, touchLine_qps, putLine_qps]

/-! ## Sectors and ranges -/

@[simp] theorem ownRead_qps (tenant pa lo k : Nat) (s : State) : (ownRead tenant pa lo k s).2.qps = s.qps := by
  unfold ownRead
  grind [checkLine_qps, touchLine_qps, readCw_qps, putLine_qps, → allocLine_qps]

@[simp] theorem farRead_qps (ridge tenant pa lo k : Nat) (s : State) : (farRead ridge tenant pa lo k s).2.qps = s.qps := by
  unfold farRead
  grind [ownRead_qps]

@[simp] theorem sectorRead_qps (ridge tenant pa lo k : Nat) (s : State) : (sectorRead ridge tenant pa lo k s).2.qps = s.qps := by
  unfold sectorRead
  grind [farRead_qps, touchLine_qps, → allocLine_qps, putLine_qps]

@[simp] theorem memRead_qps (ridge tenant pa len : Nat) (s : State) : (memRead ridge tenant pa len s).2.qps = s.qps := by
  unfold memRead
  refine foldl_same _ (fun r : MRes × State => r.2.qps) (fun r p => ?_) _ _
  grind [sectorRead_qps]

@[simp] theorem ownerRead_qps (ridge tenant pa len : Nat) (s : State) : (ownerRead ridge tenant pa len s).2.qps = s.qps := by
  unfold ownerRead
  refine foldl_same _ (fun r : MRes × State => r.2.qps) (fun r p => ?_) _ _
  grind [farRead_qps]

@[simp] theorem readPieces_qps (ridge tenant va : Nat) (ps : List (Nat × Nat)) (s : State) :
    (readPieces ridge tenant va ps s).2.qps = s.qps := by
  unfold readPieces
  refine foldl_same _ (fun r : VRes × State => r.2.qps) (fun r p => ?_) _ _
  grind [memRead_qps]

/-! ## Translation -/

@[simp] theorem readEntry_qps (rq : Requester) (pa : Nat) (s : State) : (readEntry rq pa s).2.qps = s.qps := by
  unfold readEntry
  grind [ownerRead_qps, uncorrFault_qps]

@[simp] theorem walkFrom_qps (rq : Requester) (va f level table : Nat) (s : State) : (walkFrom rq va f level table s).2.qps = s.qps := by
  fun_induction walkFrom rq va f level table s <;> grind [readEntry_qps]

@[simp] theorem walk_qps (rq : Requester) (tenant va : Nat) (s : State) : (walk rq tenant va s).2.qps = s.qps := by
  unfold walk
  grind [walkFrom_qps]

@[simp] theorem tlbAdd_qps (u : Nat) (e : TlbEnt) (s : State) : (tlbAdd u e s).qps = s.qps := by
  simp only [tlbAdd, apply_ite State.qps, nextFree_qps, ite_self]

@[simp] theorem translate_qps (rq : Requester) (tenant va : Nat) (a : Access) (s : State) : (translate rq tenant va a s).2.qps = s.qps := by
  unfold translate
  grind [tlbAdd_qps, walk_qps]

@[simp] theorem translateRange_qps (rq : Requester) (tenant va len : Nat) (a : Access) (s : State) :
    (translateRange rq tenant va len a s).2.qps = s.qps := by
  unfold translateRange
  refine foldl_same _ (fun r : (List (Nat × Nat) ⊕ (Nat × TRes)) × State => r.2.qps) (fun r p => ?_) _ _
  grind [translate_qps]

@[simp] theorem vread_qps (rq : Requester) (tenant va len : Nat) (a : Access) (s : State) : (vread rq tenant va len a s).2.qps = s.qps := by
  unfold vread
  grind [→ tagPass_qps, translateRange_qps, readPieces_qps]

end Sys2Proof.Machine
end

section
/-! Queue pair commands (R350, R351, R355) and commands on the fabric's tables (R204, R205, R320, R321, R367). -/

namespace Sys2Proof.Machine

section
variable {h : Cmd} {s : State} {q tn : Nat} {ps : List Byte}

/-! ## Queue pairs -/

theorem namedQp_local {path : CmdPath} {x : Nat} (hq : qpLocal s (issuerOf s path) x = some q) : namedQp s path x = .inr q := by
  simp only [namedQp, hq]

theorem qpCreateBody_new (hq : qpLocal s (issuerOf s h.path) (leAt ps 0 1) = some q) (hnew : (qpOf s q).created = false) :
    qpCreateBody h ps tn s = .ok 0 [] (qpMake q (leAt ps 8 8) (leAt ps 16 8) (leAt ps 1 1) (leAt ps 2 1) (leAt ps 3 1) s) := by
  simp only [qpCreateBody, namedQp_local hq, hnew, Bool.false_eq_true, if_false]

theorem qpDeleteBody_created (hq : qpLocal s (issuerOf s h.path) (leAt ps 0 1) = some q) (hcreated : (qpOf s q).created = true) :
    qpDeleteBody h ps tn s = .ok 0 [] (qpDrop q s) := by
  simp only [qpDeleteBody, namedQp_local hq, hcreated, if_true]

theorem qpAssignBody_free (hnew : (qpOf s (leAt ps 0 1)).created = false)
    (hown : leAt ps 1 1 ≠ 0 → ∀ p, qpLocal s (leAt ps 1 1) (leAt ps 2 1) = some p → p = leAt ps 0 1) :
    qpAssignBody ps tn s = .ok 0 [] (setQp (leAt ps 0 1) { qpOf s (leAt ps 0 1) with
      owner := leAt ps 1 1, idx := if leAt ps 1 1 = 0 then 0 else leAt ps 2 1 } s) := by
  have hfree : (leAt ps 1 1 != 0 && (match qpLocal s (leAt ps 1 1) (leAt ps 2 1) with
      | some p => p != leAt ps 0 1
      | none => false)) = false := by
    cases hl : qpLocal s (leAt ps 1 1) (leAt ps 2 1) with
    | none => exact Bool.and_false _
    | some p =>
      by_cases hpf : leAt ps 1 1 = 0
      · simp [hpf]
      · simp [hown hpf p hl]
  unfold qpAssignBody
  dsimp only
  exact if_neg (by simp only [hnew, Bool.false_or]; exact ne_true_of_eq_false hfree)

theorem qpOf_qpDrop_same (q : Nat) (s : State) : (qpOf (qpDrop q s) q).created = false :=
  congrArg QP.created (Mp.get_put_same ..)

theorem qpOf_qpDrop_ne {p : Nat} (hp : p ≠ q) : qpOf (qpDrop q s) p = qpOf s p := Mp.get_put_ne _ _ _ _ _ hp

/-! ## Tables of the fabric -/

theorem moduleIdBody_unset (hv : fget s rFLK_MODULE_ID fFLK_MODULE_ID_VALID = 0) : moduleIdBody ps tn s = .ok 0 []
    (fset rFLK_MODULE_ID fFLK_MODULE_ID_VALID 1 (fset rFLK_MODULE_ID fFLK_MODULE_ID_ID (leAt ps 0 2) s)) := by
  rw [moduleIdBody, if_neg (by rw [hv]; decide)]

/-- A group is its owner's to define, by member identifiers alone, or tenant 0's. -/
theorem groupDefineBody_permitted (hown : issuerOf s h.path ≠ 0 → issuerOf s h.path = leAt ps 16 1 ∧ leAt ps 1 1 ≠ 1 ∧
      ∀ g, Mp.find s.groups (leAt ps 0 1) = some g → g.owner = issuerOf s h.path) :
    groupDefineBody h ps tn s = .ok 0 [] (let ml := memberList (leAt ps 1 1) (leAt ps 4 4) (dataIn h)
      let v := endGroupRuns (leAt ps 0 1) s
      { v with groups := Mp.ins v.groups (leAt ps 0 1) ⟨leAt ps 8 8, leAt ps 16 1, ml.1, ml.2, [], []⟩ }) := by
  unfold groupDefineBody
  dsimp only
  refine if_neg ?_
  rintro ⟨hiss, hbad⟩
  obtain ⟨howner, hform, hgroup⟩ := hown hiss
  rcases hbad with hne | hform' | hother
  · exact hne howner
  · exact hform hform'
  · cases hg : Mp.find s.groups (leAt ps 0 1) with
    | none => simp [hg] at hother
    | some g => simp [hg, hgroup g hg] at hother

/-- The packet that carries the command embedded in REMOTE (R367). -/
def embeddedPkt (h : Cmd) (ps : List Byte) (tn : Nat) (s : State) : Pkt :=
  let e := (ps.drop 8).take 64
  let d := e ++ fit (eDataLen e) h.dataIn
  ⟨8, if tn = 0 then 7 else 6, 0, tn, 0, 0, leAt ps 0 2, moduleId s, d.length, 0, 0, 0, [], d⟩

theorem remoteBody_routed (hdie : dieOk s 16 = true) (hcol : colAttach s = true) (htag : tagFree s 0 .melhal tn = true)
    (hroute : routeOf s 0 (embeddedPkt h ps tn s) = .port q) :
    let te := takeTag 0 ⟨0, 0, .melhal, tn, .request 0, 0, 0, false, 0, [], some (leAt ps 0 2), some q, false⟩ s
    remoteBody h ps tn s = .wait [te.1.tag, te.1.reqId] 0 0 0 0
      (enqueuePkt q { embeddedPkt h ps tn s with tag := te.1.tag, reqId := te.1.reqId } te.2) := by
  have hroute' := hroute
  unfold embeddedPkt at hroute'
  unfold remoteBody
  simp only [hdie, hcol, htag, hroute', Bool.not_true, Bool.false_eq_true, or_self, if_false]
  rfl

end

/-- Settles O25: QP_CREATE, QP_DELETE and QP_ASSIGN on the queue pair they name (R350, R351, R355; the physical function's index is
log entry 927), the fabric's tables on the base dies that answer (R320, R321; log entry 965), GROUP_DEFINE, which ends every run on
the old definition (R204, R205; log entry 966), and REMOTE, which waits for its MGT_RSP (R367). -/
theorem queuePairAndFabricTableCommands : Obligations.QueuePairAndFabricTableCommands := by
  unfold Obligations.QueuePairAndFabricTableCommands
  refine ⟨fun h s i => ⟨?create, ?delete, ?assign⟩, fun h s i => ⟨?moduleId, ?route, ?accept, ?group, ?remote⟩⟩
  case create => exact fun q c hq hnew => congrArg Host.Outcome.next (runCmd_answers c (qpCreateBody_new hq hnew))
  case delete =>
    exact fun q c hq hcreated => ⟨congrArg Host.Outcome.next (runCmd_answers c (qpDeleteBody_created hq hcreated)),
      qpOf_qpDrop_same .., fun p hp => qpOf_qpDrop_ne hp⟩
  case assign => exact fun c hnew hown => congrArg Host.Outcome.next (runCmd_answers c (qpAssignBody_free hnew hown))
  case moduleId => exact fun c hv => congrArg Host.Outcome.next (runCmd_answers c (moduleIdBody_unset hv))
  case route => exact fun c => congrArg Host.Outcome.next (runCmd_answers c rfl)
  case accept => exact fun c => congrArg Host.Outcome.next (runCmd_answers c rfl)
  case group =>
    exact fun c hown => congrArg (fun v => Host.Outcome.next (flushWaits v)) (runCmd_answers c (groupDefineBody_permitted hown))
  case remote =>
    exact fun q c hdie hcol htag hroute => congrArg Host.Outcome.next (runCmd_waits c (remoteBody_routed hdie hcol htag hroute)
      ((enqueuePkt_qps ..).trans (takeTag_qps ..)))

end Sys2Proof.Machine
end

section
/-! Commands on a tenant's memory and address space (R173 to R178, R366, R496) and on a ridge's granules, cache and stacks (R154 to R162,
R257). -/

namespace Sys2Proof.Machine

section
variable {s v : State} {tn : Nat} {ps : List Byte}

/-! ## A tenant's memory -/

theorem memReadBody_read {bs : List Byte} (hdie : dieOk s 16 = true)
    (hread : vread .melhal tn (leAt ps 0 8) (leAt ps 8 4) accRead s = (.ok bs, v)) : memReadBody ps tn s = .ok 0 bs v := by
  simp only [memReadBody, hdie, hread, Bool.not_true, Bool.false_eq_true, if_false]

theorem memWriteBody_written {h : Cmd} {bs : List Byte} (hdie : dieOk s 16 = true)
    (hwrite : vwrite .melhal tn (leAt ps 0 8) ((dataIn h).take (leAt ps 8 4)) accWrite s = (.ok bs, v)) :
    memWriteBody h ps tn s = .ok 0 [] v := by
  simp only [memWriteBody, hdie, hwrite, Bool.not_true, Bool.false_eq_true, if_false]

/-! ## Mappings -/

theorem changePages_made {va size n : Nat} {op : Nat → PageOp} {olds : List Nat}
    (hm : fget s (rMMU_ROOT tn) fMMU_ROOT_EN = 1 ∧ colAttach s = true ∧ (pagesOp tn size op n va [] s).1 = .ok olds v ∧
      pagesBusy s tn size olds = false) :
    changePages tn va size n op s = .ok 0 [] (dropVa tn va (n * size) v) := by
  obtain ⟨hen, hcol, hpages, hbusy⟩ := hm
  have hpair : pagesOp tn size op n va [] s = (.ok olds v, (pagesOp tn size op n va [] s).2) := Prod.ext hpages rfl
  unfold changePages
  rw [if_neg (by simp [hcol]), if_neg (by rw [hen]; decide), hpair]
  simp only [hbusy, Bool.false_eq_true, if_false]

theorem mapBody_made {olds : List Nat}
    (hgr : granulesAll (leAt ps 8 8) (leAt ps 20 4 * pageSize (leAt ps 16 1)) (fun g => paBound s tn g && !holdsTables s g) = true)
    (hm : fget s (rMMU_ROOT tn) fMMU_ROOT_EN = 1 ∧ colAttach s = true ∧
      (pagesOp tn (pageSize (leAt ps 16 1)) (fun w => .map (leAt ps 8 8 + (w - leAt ps 0 8) + leAt ps 17 1 * 4 + 3)) (leAt ps 20 4)
        (leAt ps 0 8) [] s).1 = .ok olds v ∧ pagesBusy s tn (pageSize (leAt ps 16 1)) olds = false) :
    mapBody ps tn s = .ok 0 [] (dropVa tn (leAt ps 0 8) (leAt ps 20 4 * pageSize (leAt ps 16 1)) v) := by
  unfold mapBody
  dsimp only
  rw [if_neg (by rw [hgr]; decide)]
  exact changePages_made hm

/-! ## Address spaces -/

theorem aspaceBody_disabled (hoff : leAt ps 0 1 % 2 = 0) :
    aspaceBody ps tn s = .ok 0 [] (dropVa tn 0 (2 ^ 64) (setArea tn {} (fset (rMMU_ROOT tn) fMMU_ROOT_EN 0 s))) := if_pos hoff

theorem aspaceBody_enabled (hon : leAt ps 0 1 % 2 = 1) (hcol : bitOf (leAt ps 0 1) 1 = true → colAttach s = true)
    (hclear : (if bitOf (leAt ps 0 1) 1 then writeTable (leAt ps 8 8) (List.replicate 4096 0#8) s else (none, s)) = (none, v)) :
    aspaceBody ps tn s = .ok 0 [] (dropVa tn 0 (2 ^ 64) (setArea tn ⟨leAt ps 16 8, leAt ps 24 4,
        (tablesBelow v 4 0 (leAt ps 8 8)).filter (fun x => decide (leAt ps 16 8 ≤ x.1 ∧ x.1 + x.2 ≤ leAt ps 16 8 + leAt ps 24 4 * 65536))⟩
      (fset (rMMU_ROOT tn) fMMU_ROOT_EN 1 (fset (rMMU_ROOT tn) fMMU_ROOT_ROOT (leAt ps 8 8 / 4096) v)))) := by
  have hcleared : (if bitOf (leAt ps 0 1) 1 then
      (if colAttach s then writeTable (leAt ps 8 8) (List.replicate 4096 0#8) s else (some 16, s)) else (none, s)) = (none, v) := by
    rw [← hclear]
    split
    · next hb => rw [if_pos (hcol hb)]
    · rfl
  unfold aspaceBody
  dsimp only
  rw [if_neg (by omega), hcleared]

/-! ## Granules and ridge caches -/

theorem granuleAttrBody_up {h : Cmd} (hdie : dieOk s (16 + leAt ps 0 1) = true)
    (hown : issuerOf s h.path ≠ 0 → ∀ j < leAt ps 6 2, granBound s (leAt ps 0 1) (j + leAt ps 4 2) (issuerOf s h.path) = true) :
    granuleAttrBody h ps tn s = .ok 0 [] (((List.range (leAt ps 6 2)).map (· + leAt ps 4 2)).foldl (fun v g =>
      let v := fset (rMEM_GATTR (leAt ps 0 1) g) fMEM_GATTR_POLICY (leAt ps 1 1)
        (fset (rMEM_GATTR (leAt ps 0 1) g) fMEM_GATTR_BORROW (leAt ps 2 1) v)
      if leAt ps 2 1 = 0 then dropBorrowed none (leAt ps 0 1 * 2 ^ 39 + g * 2 ^ 30) (2 ^ 30) v else v) s) := by
  have hall : ¬(issuerOf s h.path ≠ 0 ∧ (!((List.range (leAt ps 6 2)).map (· + leAt ps 4 2)).all
      (fun g => granBound s (leAt ps 0 1) g (issuerOf s h.path))) = true) := by
    rintro ⟨hiss, hno⟩
    have hyes := hown hiss
    simp only [Bool.not_eq_true', List.all_eq_false, List.mem_map, List.mem_range] at hno
    obtain ⟨_, ⟨j, hj, rfl⟩, hb⟩ := hno
    exact hb (hyes j hj)
  unfold granuleAttrBody
  dsimp only
  rw [if_neg hall, if_neg (by rw [hdie]; decide)]

theorem rcWaysBody_up (hdies : ∀ r ∈ (List.range 4).filter (bitOf (leAt ps 0 1)), dieOk s (16 + r) = true) :
    rcWaysBody ps tn s = .ok 0 [] (((List.range 4).filter (bitOf (leAt ps 0 1))).foldl
      (fun v r => fset (rMEM_RC_WAYS r tn) fMEM_RC_WAYS_WAYMASK (leAt ps 2 2) v) s) := by
  have hnone : ((List.range 4).filter (bitOf (leAt ps 0 1))).find? (fun n => !dieOk s (16 + n)) = none :=
    List.find?_eq_none.2 fun r hr => by simp [hdies r hr]
  unfold rcWaysBody
  dsimp only
  rw [hnone]

theorem rcFlushBody_flushed (hdie : dieOk s (16 + leAt ps 0 1) = true)
    (hflush : flushRange (leAt ps 0 1) (if leAt ps 2 1 = 1 then leAt ps 0 1 * 2 ^ 39 else leAt ps 8 8)
      (if leAt ps 2 1 = 1 then 0x6000000000 else leAt ps 16 8) s = (none, v)) :
    rcFlushBody ps tn s = .ok 0 [] (
      let n := leAt ps 0 1
      let pa := if leAt ps 2 1 = 1 then n * 2 ^ 39 else leAt ps 8 8
      let len := if leAt ps 2 1 = 1 then 0x6000000000 else leAt ps 16 8
      let w := if leAt ps 1 1 = 1 ∧ len ≠ 0 then removeClean n pa len v else v
      if leAt ps 1 1 = 1 ∧ leAt ps 2 1 = 1 then dropBorrowed (some n) 0 (2 ^ 41) w else w) := by
  unfold rcFlushBody
  simp only [beq_iff_eq]
  rw [hflush, if_neg (by rw [hdie]; decide)]

theorem dmaLimitBody_up (hdie : dieOk s (16 + leAt ps 0 1) = true) :
    dmaLimitBody ps tn s = .ok 0 [] (fset (rDMA_TENANT_TAGS (leAt ps 0 1) tn) fDMA_TENANT_TAGS_LIMIT (leAt ps 4 2) s) :=
  if_neg (by rw [hdie]; decide)

/-! ## Stacks -/

theorem rowRepairBody_spare {pa r k : Nat} (hpa : pa = leAt ps 0 8) (hr : r = paRidge pa) (hk : k = (stackOf s pa).1)
    (hdie : dieOk s (16 + r) = true) (hfenced : stackState s r k ≠ 4) (hlost : stackState s r k ≠ 5)
    (hleft : fget s (rMEM_STACK_STATUS r k) fMEM_STACK_STATUS_SPARE_LEFT ≠ 0) :
    let left := fget s (rMEM_STACK_STATUS r k) fMEM_STACK_STATUS_SPARE_LEFT
    let v := (rowCodewords s pa).foldl (fun v q => copyCodeword q v) s
    rowRepairBody ps tn s = .ok (left - 1) [] (fset (rMEM_STACK_STATUS r k) fMEM_STACK_STATUS_SPARE_LEFT (left - 1)
      { v with fuses := { v.fuses with repaired := Mp.upd [] v.fuses.repaired (6 * r + k) (pa / 64 :: ·) } }) := by
  subst hpa hr hk
  unfold rowRepairBody
  dsimp only
  rw [if_neg (by rw [hdie]; decide), if_neg (not_or.2 ⟨hfenced, hlost⟩), if_neg hleft]

/-- With nothing cached, a stack that comes back drops no dirty line. -/
theorem stackRejoinBody_uncached (hdie : dieOk s (16 + leAt ps 0 1 / 6) = true)
    (hst : stackState s (leAt ps 0 1 / 6) (leAt ps 0 1 % 6) = 5) (hcaches : s.caches = []) :
    stackRejoinBody ps tn s = .ok 0 [] (fset (rMEM_STACK_STATUS (leAt ps 0 1 / 6) (leAt ps 0 1 % 6)) fMEM_STACK_STATUS_STATE 2
      (fsetBit (rMEM_RIDGE_CFG (leAt ps 0 1 / 6)) fMEM_RIDGE_CFG_STACK_UP (leAt ps 0 1 % 6) true
        { s with mem := s.mem.filter (fun p => stackUnit s p.1 != 32 + leAt ps 0 1)
                 cwErr := s.cwErr.filter (fun p => stackUnit s (64 * p.1) != 32 + leAt ps 0 1) })) := by
  have hlines : (cacheOf s (leAt ps 0 1 / 6)).lines = [] := by
    unfold cacheOf
    rw [hcaches]
    rfl
  unfold stackRejoinBody
  dsimp only
  rw [if_neg (by rw [hdie]; decide), if_neg (not_not.2 hst), hlines, List.filter_nil, List.foldl_nil, hcaches, List.map_nil]

end

/-- Settles O26: MEM_READ and MEM_WRITE through the acting tenant's address space, changes of mappings (R176, R178, R496; the reply's
time is log entry 962), ASPACE (R176), and the commands on a ridge that is not fenced: GRANULE_ATTR, RC_WAYS, RC_FLUSH (its borrowed
copies are log entry 964), DMA_LIMIT, ROW_REPAIR (its rows are log entry 961) and STACK_REJOIN. -/
theorem addressSpaceAndRidgeCommands : Obligations.AddressSpaceAndRidgeCommands := by
  unfold Obligations.AddressSpaceAndRidgeCommands
  refine ⟨fun h s i => ⟨?read, ?write, ?map, ?unmap, ?protect, ?disable, ?enable⟩,
    fun h s i => ⟨?attr, ?ways, ?flush, ?limit, ?repair, ?rejoin⟩⟩
  case read => exact fun bs v c hdie hread => congrArg Host.Outcome.next (runCmd_answers c (memReadBody_read hdie hread))
  case write => exact fun bs v c hdie hwrite => congrArg Host.Outcome.next (runCmd_answers c (memWriteBody_written hdie hwrite))
  case map => exact fun olds v c hgr hm => congrArg Host.Outcome.next (runCmd_answers c (mapBody_made hgr hm))
  case unmap => exact fun olds v c hm => congrArg Host.Outcome.next (runCmd_answers c (changePages_made hm))
  case protect => exact fun olds v c hm => congrArg Host.Outcome.next (runCmd_answers c (changePages_made hm))
  case disable => exact fun c hoff => congrArg Host.Outcome.next (runCmd_answers c (aspaceBody_disabled hoff))
  case enable =>
    exact fun v c hon hcol hclear => congrArg Host.Outcome.next (runCmd_answers c (aspaceBody_enabled hon hcol hclear))
  case attr => exact fun c hdie hown => congrArg Host.Outcome.next (runCmd_answers c (granuleAttrBody_up hdie hown))
  case ways => exact fun c hdies => congrArg Host.Outcome.next (runCmd_answers c (rcWaysBody_up hdies))
  case flush => exact fun c hdie v hflush => congrArg Host.Outcome.next (runCmd_answers c (rcFlushBody_flushed hdie hflush))
  case limit => exact fun c hdie => congrArg Host.Outcome.next (runCmd_answers c (dmaLimitBody_up hdie))
  case repair =>
    exact fun c hdie hfenced hlost hleft =>
      congrArg Host.Outcome.next (runCmd_answers c (rowRepairBody_spare rfl rfl rfl hdie hfenced hlost hleft))
  case rejoin =>
    exact fun c hdie hst hcaches => congrArg Host.Outcome.next (runCmd_answers c (stackRejoinBody_uncached hdie hst hcaches))

end Sys2Proof.Machine
end

section
/-! Commands that bind cores, granules and ports, and set shares and policies (R112, R114, R132 to R138). -/

namespace Sys2Proof.Machine

section
variable {h : Cmd} {op : Nat} {s v : State} {i : Inflight} {t0 : Bool} {fields : List (Nat × Nat)}
  {bad : List Byte → Nat → List (Nat × Bool)} {body : List Byte → Nat → State → Ans} {tn r t : Nat} {d ps : List Byte}

/-- A command that is done at a stamp of its own replies with that stamp. -/
theorem runCmd_answersAt (c : CmdReady h op t0 fields bad s i)
    (hb : body (paramBytes h i) (actingFor h i s) (taken i s) = .done 0 r d (some t) v) :
    runCmd h op t0 fields bad body s = replied i op 0 r d t v := by
  rw [runCmd_passed c, hb]
  rfl

theorem bindCoresBody_room (hfenced : coreFenced s (bitsOf ((ps.drop 8).take 24) 192) = none)
    (hfree : factoryBars s (leAt ps 0 1) = false) (hheld : (bitsOf ((ps.drop 8).take 24) 192).any (heldDie s) = false)
    (hroom : bindRoom s (bitsOf ((ps.drop 8).take 24) 192).length = true) (hsome : bitsOf ((ps.drop 8).take 24) 192 ≠ []) :
    bindCoresBody ps tn s = .wait (bitsOf ((ps.drop 8).take 24) 192) (leAt ps 0 1) (leAt ps 1 1) 0 0 s := by
  simp only [bindCoresBody, hfenced, hfree, hheld, hroom, hsome, Bool.or_self, Bool.not_true, Bool.false_eq_true, if_false]

theorem bindMemoryBody_room {n : Nat} {tgt : Option Nat} {gs ch : List Nat} (hn : n = leAt ps 3 1) (htgt : tgt = bindTarget (leAt ps 0 1))
    (hgs : gs = (List.range (leAt ps 6 2)).map (· + leAt ps 4 2)) (hch : ch = gs.filter (fun g => granTarget s n g != tgt))
    (hdie : dieOk s (16 + n) = true) (hfree : factoryBars s (leAt ps 0 1) = false)
    (hkept : leAt ps 2 1 = 1 → tgt.isSome = true ∧ ∀ g ∈ gs, granLast s n g = tgt) (hroom : bindRoom s ch.length = true) (hsome : ch ≠ []) :
    bindMemoryBody ps tn s = .wait (ch.map (granKey n)) 0 0 0 0
      (ch.foldl (fun v g => setGran (granKey n g)
        { granOf v (granKey n g) with pend := (granOf v (granKey n g)).pend ++ [⟨tgt, leAt ps 2 1 = 1⟩] } v) s) := by
  have hlast : ¬(leAt ps 2 1 = 1 ∧ gs.any (fun g => granLast s n g != tgt || tgt.isNone) = true) := by
    rintro ⟨hk, hany⟩
    obtain ⟨htenant, hheld⟩ := hkept hk
    obtain ⟨g, hg, hbad⟩ := List.any_eq_true.1 hany
    rw [hheld g hg, ← Option.not_isSome, htenant] at hbad
    simp at hbad
  subst hn htgt hgs hch
  unfold bindMemoryBody
  dsimp only
  rw [if_neg (by simp [hdie]), if_neg (by simp [hfree]), if_neg hlast, if_neg (by simp [hroom]), if_neg hsome]

theorem bindPortsBody_room {tgt : Option Nat} {all ch : List Nat} (htgt : tgt = bindTarget (leAt ps 0 1))
    (hall : all = bitsOf ((ps.drop 8).take 16) 128) (hch : ch = all.filter (fun p => portTenant s p != tgt))
    (hdies : ∀ p ∈ all, dieOk s (16 + pN p) = true) (hfree : factoryBars s (leAt ps 0 1) = false) (hroom : bindRoom s ch.length = true)
    (hv : v = ch.foldl (fun v p => bindPort p tgt v) s) :
    bindPortsBody ps tn s = .done 0 ch.length [] (some ((ch.map (fun p => (Mp.get {} v.portBind p).tBind)).foldl max (colNow v))) v := by
  have hup : all.find? (fun p => !dieOk s (16 + pN p)) = none := List.find?_eq_none.2 fun p hp => by simp [hdies p hp]
  subst htgt hall hch hv
  unfold bindPortsBody
  simp only [hup, hfree, hroom, Bool.not_true, Bool.false_eq_true, if_false]

theorem setShareBody_within {ts : Nat} (hts : ts = if s.fuses.a12 then 16384 else 8192)
    (htasks : otherShares s (leAt ps 0 1) rTSC_SHARE_A fTSC_SHARE_A_TASK_SHARE + leAt ps 4 4 ≤ ts)
    (hedges : otherShares s (leAt ps 0 1) rTSC_SHARE_A fTSC_SHARE_A_EDGE_SHARE + leAt ps 8 4 ≤ 4 * ts)
    (hhandles : otherShares s (leAt ps 0 1) rTSC_SHARE_B fTSC_SHARE_B_HANDLES + leAt ps 12 2 ≤ 1023) :
    setShareBody ps tn s = .ok 0 []
      (fset (rTSC_SHARE_B (leAt ps 0 1)) fTSC_SHARE_B_HANDLES (leAt ps 12 2) (fset (rTSC_SHARE_B (leAt ps 0 1)) fTSC_SHARE_B_RINGS (leAt ps 14 1)
        (fset (rTSC_SHARE_A (leAt ps 0 1)) fTSC_SHARE_A_TASK_SHARE (leAt ps 4 4)
          (fset (rTSC_SHARE_A (leAt ps 0 1)) fTSC_SHARE_A_EDGE_SHARE (leAt ps 8 4) s)))) := by
  subst hts
  unfold setShareBody
  dsimp only
  exact if_neg (by simp only [Bool.or_eq_true, decide_eq_true_eq, not_or, not_lt]; exact ⟨⟨htasks, hedges⟩, hhandles⟩)
end

/-- Settles O27: BIND_CORES and BIND_MEMORY ask and wait (R132 to R136; the resources counted and the last holder are log entries 921
and 922), BIND_PORTS takes effect at once, port by port, and SET_SHARE and SCHED_POLICY write their tenant's shares (R112, R114). -/
theorem bindingCommands : Obligations.BindingCommands := by
  unfold Obligations.BindingCommands
  refine fun h s i => ⟨?cores, ?memory, ?ports, ?share, ?policy⟩
  case cores =>
    exact fun c hfenced hfree hheld hroom hsome => congrArg (fun v => Host.Outcome.next (flushWaits (flushBinds v)))
      (runCmd_waits c (bindCoresBody_room hfenced hfree hheld hroom hsome) rfl)
  case memory =>
    exact fun c hdie hfree hkept hroom hsome => congrArg Host.Outcome.next
      (runCmd_waits c (bindMemoryBody_room rfl rfl rfl rfl hdie hfree hkept hroom hsome) (foldl_same _ State.qps (fun _ _ => setGran_qps ..) _ _))
  case ports =>
    exact fun c hdies hfree hroom => congrArg Host.Outcome.next
      (runCmd_answersAt c (bindPortsBody_room rfl rfl rfl hdies hfree hroom rfl))
  case share =>
    exact fun c htasks hedges hhandles => congrArg Host.Outcome.next (runCmd_answers c (setShareBody_within rfl htasks hedges hhandles))
  case policy => exact fun c => congrArg Host.Outcome.next (runCmd_answers c rfl)

end Sys2Proof.Machine
end

section
/-! Commands on graphs and tasks (R102, R108 to R128, R193 to R196). -/

namespace Sys2Proof.Machine

section
variable {h : Cmd} {s v w : State} {tn n : Nat} {ps hd : List Byte} {g : Graph} {k : Task} {go : Nat → Nat → Task → Ans}

/-! ## Graphs -/

/-- A graph without room waits, or is refused where its header asks not to wait (R113). -/
def waitOrFull (hd : List Byte) (v : State) : Admit → Admit
  | .room => if bitOf (leAt hd 4 4) 0 then .full else .queue hd v
  | a => a

/-- What GRAPH_SUBMIT answers to the outcome of an attempt at admission. -/
def submitAnswer (s : State) : Admit → Ans
  | .admitted n w => .ok n [] w
  | .path u => .no rsPathLost u s
  | .refused r w => .no rsGraphRefused r w
  | .queue hd w => .wait (toKeys hd) 0 0 0 0 w
  | .full => .no rsCapacity 0 s
  | .room => .no rsCapacity 0 s
  | .later => .stay

section
variable (hroute : onRoute s 0 = true) (hread : vread .admission tn (leAt ps 0 8) 64 accRead s = (.ok hd, v))
  (hheader : headerRefused v tn hd = false) (htasks : ghCount hd ≤ fget v (rTSC_SHARE_A tn) fTSC_SHARE_A_TASK_SHARE)
  (hedges : ghEdges hd ≤ fget v (rTSC_SHARE_A tn) fTSC_SHARE_A_EDGE_SHARE)
  (hhandles : fget v (rTSC_SHARE_B tn) fTSC_SHARE_B_HANDLES ≠ 0) (hqueue : admissionQueue v tn = [])
include hroute hread hheader htasks hedges hhandles hqueue

/-- A header that its tenant's shares could hold reaches the test for room, where no graph waits before it (R113). -/
theorem graphSubmitBody_first : graphSubmitBody ps tn s = submitAnswer s (waitOrFull hd v (admitGraph tn hd v)) := by
  have hfits : ¬(fget v (rTSC_SHARE_A tn) fTSC_SHARE_A_TASK_SHARE < ghCount hd ∨ fget v (rTSC_SHARE_A tn) fTSC_SHARE_A_EDGE_SHARE < ghEdges hd
      ∨ fget v (rTSC_SHARE_B tn) fTSC_SHARE_B_HANDLES = 0) := by omega
  unfold graphSubmitBody readImage
  rw [if_neg (by simp [hroute]), hread]
  dsimp only
  rw [if_neg (by simp [hheader]), if_neg hfits, hqueue, if_pos List.isEmpty_nil]
  generalize admitGraph tn hd v = a
  cases a <;> rfl

theorem graphSubmitBody_admitted (hadmit : admitGraph tn hd v = .admitted n w) : graphSubmitBody ps tn s = .ok n [] w := by
  rw [graphSubmitBody_first hroute hread hheader htasks hedges hhandles hqueue, hadmit]
  rfl

theorem graphSubmitBody_queued (hadmit : admitGraph tn hd v = .room) (hpatient : bitOf (leAt hd 4 4) 0 = false) :
    graphSubmitBody ps tn s = .wait (toKeys hd) 0 0 0 0 v := by
  rw [graphSubmitBody_first hroute hread hheader htasks hedges hhandles hqueue, hadmit, waitOrFull, hpatient, if_neg Bool.false_ne_true]
  rfl
end

theorem graphStartBody_held (hg : graphFor s tn (leAt ps 0 2) = some g) (hheld : g.startHeld = true) :
    graphStartBody ps tn s = .ok 0 [] (settle (setGraph (leAt ps 0 2) { g with startHeld := false } s)) := by
  rw [graphStartBody, hg]
  exact if_pos hheld

theorem graphReleaseBody_retired (hg : graphFor s tn (leAt ps 0 2) = some g) (hretired : g.retired = true) :
    graphReleaseBody ps tn s = .ok 0 [] (forgetGraph (leAt ps 0 2) (setGraph (leAt ps 0 2) { g with held := false } s)) := by
  rw [graphReleaseBody, hg]
  exact if_pos hretired

/-! ## Tasks -/

/-- A command that names a task of a graph of its tenant is about that task. -/
theorem withTask_found (hg : graphFor s tn (leAt ps 2 2) = some g) (hk : g.tasks[leAt ps 4 2]? = some k) :
    withTask ps tn s go = go (leAt ps 2 2) (leAt ps 4 2) k := by
  simp only [withTask, hg, hk]

theorem abortBody_tenant (hkind : leAt ps 0 1 = 2)
    (hopen : (s.graphs.filter (fun p => p.2.tenant == tn)).flatMap (fun p => openTasks p.1 p.2) ≠ []) :
    abortBody ps tn s = .wait ((s.graphs.filter (fun p => p.2.tenant == tn)).flatMap (fun p => openTasks p.1 p.2)) 2 0 0 0 s := by
  unfold abortBody
  dsimp only
  rw [if_neg (by omega), if_neg (by omega), if_neg hopen, hkind]

theorem abortBody_task (hkind : leAt ps 0 1 = 0) (hg : graphFor s tn (leAt ps 2 2) = some g) (ht : leAt ps 4 2 < g.tasks.length) :
    abortBody ps tn s = .wait [taskKey (leAt ps 2 2) (leAt ps 4 2)] 0 0 0 0 s := by
  unfold abortBody
  dsimp only
  rw [if_pos hkind, withTask_found hg (List.getElem?_eq_getElem ht)]

theorem abortBody_graph (hkind : leAt ps 0 1 = 1) (hg : graphFor s tn (leAt ps 2 2) = some g) (hopen : openTasks (leAt ps 2 2) g ≠ []) :
    abortBody ps tn s = .wait (openTasks (leAt ps 2 2) g) 1 0 0 0 s := by
  unfold abortBody
  dsimp only
  rw [if_neg (by omega), if_pos hkind, hg]
  dsimp only
  rw [if_neg hopen, hkind]

section
variable (hg : graphFor s tn (leAt ps 2 2) = some g) (hk : g.tasks[leAt ps 4 2]? = some k)
include hg hk

theorem preemptBody_running (hkind : k.kind = 0) (hst : k.st = tsRunning ∨ k.st = tsPreempting) :
    preemptBody ps tn s = .wait [leAt ps 2 2, leAt ps 4 2] 0 0 0 (homeStamp s (leAt ps 2 2) (leAt ps 4 2))
      (preemptTask (leAt ps 2 2) (leAt ps 4 2) 0 s) := by
  have hlive : k.st ≠ tsFinal := by rcases hst with e | e <;> rw [e] <;> decide
  unfold preemptBody
  rw [withTask_found hg hk, if_neg hlive, if_pos ⟨hkind, hst⟩]

theorem taskRestartBody_held (hst : k.st = tsHeld) :
    taskRestartBody ps tn s = .ok 0 [] (settle (updTask (leAt ps 2 2) (leAt ps 4 2) (fun k => { k with
      st := tsPending, status := 0, detail := 0, tReady := 0, tStart := 0, causes := 0, cores := [], endedRanks := []
      endStatus := none, faults := [], savedRanks := [], waitedRanks := [], imaged := false, bfStop := false, xfer := none
      near := none, coll := none, flags := 0 }) s)) := by
  rw [taskRestartBody, withTask_found hg hk, if_pos hst]

theorem gateReleaseBody_live (hkind : k.kind = 5) (hst : k.st ≠ tsFinal) :
    gateReleaseBody ps tn s = .ok 0 [] (settle (updTask (leAt ps 2 2) (leAt ps 4 2) (fun k => { k with gate := true }) s)) := by
  rw [gateReleaseBody, withTask_found hg hk, if_pos ⟨hkind, hst⟩]

theorem faultResumeBody_waiting (hst : k.st = tsFaultWait) :
    faultResumeBody ps tn s = .ok 0 [] (updTask (leAt ps 2 2) (leAt ps 4 2) (fun k => { k with
      st := if k.kind = 0 then tsPreempted else tsReady, faults := [] }) s) := by
  rw [faultResumeBody, withTask_found hg hk, if_pos hst]

theorem faultEndBody_waiting (hst : k.st = tsFaultWait) :
    faultEndBody ps tn s = .ok 0 [] (forgetGraph (leAt ps 2 2) (settle (makeFinal (leAt ps 2 2) (leAt ps 4 2) stMemoryFault
      (earliestFault k.faults) (homeStamp s (leAt ps 2 2) (leAt ps 4 2)) (endUnit (leAt ps 2 2) (leAt ps 4 2) stMemoryFault s)))) := by
  rw [faultEndBody, withTask_found hg hk, if_pos hst]
end
end

/-- Settles O28: GRAPH_SUBMIT of a graph its tenant's shares could hold is admitted or waits for room (R102, R110 to R113); GRAPH_START,
GRAPH_RELEASE, ABORT, PREEMPT and TASK_RESTART (R108, R119, R122 to R124, R128); GATE_RELEASE, kept before its gate is ready (log entry
926); FAULT_RESUME and FAULT_END, with the earliest fault's number (R193 to R196; log entry 949). -/
theorem graphCommands : Obligations.GraphCommands := by
  unfold Obligations.GraphCommands
  refine fun h s i => ⟨?submit, ?start, ?release, ?abort, ?task⟩
  case submit =>
    intro c hd v hread hheader htasks hedges hhandles hqueue hroute
    have hqps : v.qps = s.qps := congrArg (fun x => x.2.qps) hread.symm |>.trans (vread_qps ..)
    exact ⟨fun n w hadmit => congrArg Host.Outcome.next
        (runCmd_answers c (graphSubmitBody_admitted hroute hread hheader htasks hedges hhandles hqueue hadmit)),
      fun hadmit hpatient => congrArg Host.Outcome.next
        (runCmd_waits c (graphSubmitBody_queued hroute hread hheader htasks hedges hhandles hqueue hadmit hpatient) hqps)⟩
  case start => exact fun g c hg hheld => congrArg Host.Outcome.next (runCmd_answers c (graphStartBody_held hg hheld))
  case release => exact fun g c hg hretired => congrArg Host.Outcome.next (runCmd_answers c (graphReleaseBody_retired hg hretired))
  case abort =>
    exact fun g c => ⟨fun hkind hopen => congrArg Host.Outcome.next (runCmd_waits c (abortBody_tenant hkind hopen) rfl),
      fun hg => ⟨fun hkind ht => congrArg Host.Outcome.next (runCmd_waits c (abortBody_task hkind hg ht) rfl),
        fun hkind hopen => congrArg Host.Outcome.next (runCmd_waits c (abortBody_graph hkind hg hopen) rfl)⟩⟩
  case task =>
    refine fun g k hg hk => ⟨?preempt, ?restart, ?gate, ?resume, ?fend⟩
    case preempt =>
      exact fun c hkind hst => congrArg Host.Outcome.next (runCmd_waits c (preemptBody_running hg hk hkind hst) (preemptTask_qps ..))
    case restart => exact fun c hst => congrArg Host.Outcome.next (runCmd_answers c (taskRestartBody_held hg hk hst))
    case gate => exact fun c hkind hst => congrArg Host.Outcome.next (runCmd_answers c (gateReleaseBody_live hg hk hkind hst))
    case resume => exact fun c hst => congrArg Host.Outcome.next (runCmd_answers c (faultResumeBody_waiting hg hk hst))
    case fend =>
      exact fun c hst => congrArg (fun v => Host.Outcome.next (flushWaits v)) (runCmd_answers c (faultEndBody_waiting hg hk hst))

end Sys2Proof.Machine
end

section
/-! Commands on the rings of a tenant and of the module (R125, R192, R338). -/

namespace Sys2Proof.Machine

section
variable {h : Cmd} {s v w : State} {tn : Nat} {ps bs b : List Byte} {x : Ring}

theorem ringCreateBody_new (hnew : Mp.find s.cRings (tn * 16 + leAt ps 0 1) = none)
    (hroom : (s.cRings.filter (fun p => p.1 / 16 == tn)).length < fget s (rTSC_SHARE_B tn) fTSC_SHARE_B_RINGS) :
    ringCreateBody ps tn s = .ok 0 [] (setRing (.completion (tn * 16 + leAt ps 0 1))
      (newRing tn (leAt ps 1 1) (leAt ps 2 1) (leAt ps 4 4) (leAt ps 8 8) (leAt ps 16 8) 0) s) := by
  unfold ringCreateBody
  dsimp only
  rw [if_neg (by simp [hnew]), if_neg (Nat.not_le.2 hroom)]

theorem faultRingBody_new (hnew : Mp.find s.fRings tn = none) :
    faultRingBody ps tn s = .ok 0 [] (setRing (.fault tn)
      (newRing tn (leAt ps 1 1) (leAt ps 2 1) (leAt ps 4 4) (leAt ps 8 8) (leAt ps 16 8) 0) s) := by
  rw [faultRingBody, if_neg (by simp [hnew])]

theorem traceRingBody_new (hnew : Mp.find s.tRings (leAt ps 0 1) = none) :
    traceRingBody ps tn s = .ok 0 [] (setRing (.trace (leAt ps 0 1))
      (newRing 0 (leAt ps 1 1) (leAt ps 2 1) (leAt ps 4 4) (leAt ps 8 8) (leAt ps 16 8) (leAt ps 24 4)) s) := by
  unfold traceRingBody
  dsimp only
  rw [if_neg (by simp [hnew])]

theorem ringDeleteBody_unused (hmade : (Mp.find s.cRings (tn * 16 + leAt ps 0 1)).isSome = true)
    (hunused : ∀ p ∈ s.graphs, p.2.tenant = tn → p.2.ring ≠ leAt ps 0 1) :
    ringDeleteBody ps tn s = .ok 0 [] { s with cRings := Mp.del s.cRings (tn * 16 + leAt ps 0 1) } := by
  have hfree : ¬s.graphs.any (fun p => p.2.tenant == tn && p.2.ring == leAt ps 0 1) = true := by
    simpa [List.any_eq_true] using fun a g hg ht => hunused (a, g) hg ht
  have hsome : ¬(Mp.find s.cRings (tn * 16 + leAt ps 0 1)).isNone = true := by rw [← Option.not_isSome, hmade]; decide
  unfold ringDeleteBody
  dsimp only
  rw [if_neg hsome, if_neg hfree]

/-- The ring a RING_POP names. -/
def poppedRing (ps : List Byte) (tn : Nat) : RingRef :=
  if leAt ps 0 1 = 0 then .completion (tn * 16 + leAt ps 1 1) else if leAt ps 0 1 = 1 then .fault tn else .trace (leAt ps 1 1)

theorem ringPopBody_read {r : RingRef} (hr : r = poppedRing ps tn) (hiss : leAt ps 0 1 = 2 → issuerOf s h.path = 0)
    (hring : getRing (ringReread r s) r = some x) {n : Nat} (hn : n = min (x.tail - x.head) (min (leAt ps 4 4) (eDataLen h.entry / ringRecSize r)))
    (hread : popRead x.tenant r x n x.head (ringReread r s) = (.ok bs, v))
    (hwrite : vwrite .melhal x.tenant ((x.ctrl + 8) % 2 ^ 64) (leBytes 8 (x.head + n)) accWrite v = (.ok b, w)) :
    ringPopBody h ps tn s = .ok n bs (setRing r { x with head := x.head + n } w) := by
  subst hr hn
  unfold poppedRing at *
  unfold ringPopBody
  dsimp only
  rw [if_neg (fun hc => hc.2 (hiss hc.1)), hring]
  dsimp only
  rw [hread]
  dsimp only
  rw [hwrite]
end

/-- Settles O29: RING_CREATE, FAULT_RING and TRACE_RING make a ring where there is none and the share leaves room (R125, R192, R338),
RING_DELETE takes away one that no graph names, and RING_POP copies records out and moves HEAD past them. -/
theorem ringCommands : Obligations.RingCommands := by
  unfold Obligations.RingCommands
  refine fun h s i => ⟨?create, ?fault, ?trace, ?delete, ?pop⟩
  case create => exact fun c hnew hroom => congrArg Host.Outcome.next (runCmd_answers c (ringCreateBody_new hnew hroom))
  case fault => exact fun c hnew => congrArg Host.Outcome.next (runCmd_answers c (faultRingBody_new hnew))
  case trace => exact fun c hnew => congrArg Host.Outcome.next (runCmd_answers c (traceRingBody_new hnew))
  case delete => exact fun c hmade hunused => congrArg Host.Outcome.next (runCmd_answers c (ringDeleteBody_unused hmade hunused))
  case pop =>
    exact fun c hiss x bs v b w hring hread hwrite => congrArg Host.Outcome.next
      (runCmd_answers c (ringPopBody_read rfl hiss hring rfl hread hwrite))

end Sys2Proof.Machine
end

section
/-! Commands on ports, lasers and wavelengths (R271, R278, R285, R292, R308, R313). -/

namespace Sys2Proof.Machine

section
variable {h : Cmd} {s v : State} {i : Inflight} {t0 : Bool} {fields : List (Nat × Nat)} {bad : List Byte → Nat → List (Nat × Bool)}
  {p tn : Nat} {ps : List Byte} {a : State → Ans}

theorem onPort_up (hup : dieOk s (16 + pN p) = true ∧ dieOk s (80 + pK p) = true) : onPort p s a = a s := by
  rw [onPort, if_neg (by simp [hup.1]), if_neg (by simp [hup.2])]

theorem portTestBody_allowed (hup : dieOk s (16 + pN (leAt ps 0 1)) = true ∧ dieOk s (80 + pK (leAt ps 0 1)) = true)
    (hrange : leAt ps 1 1 ≤ 1) (henter : leAt ps 1 1 = 1 →
      portState s (leAt ps 0 1) = 3 ∧ (portTenant s (leAt ps 0 1) = none ∨ portTenant s (leAt ps 0 1) = some 0))
    (hleave : leAt ps 1 1 = 0 → portState s (leAt ps 0 1) = 5) :
    portTestBody ps tn s = .ok 0 [] (sendLink (leAt ps 0 1) 7 [(1, leAt ps 1 1)]
      (updPort (leAt ps 0 1) (fun x => { x with asked := x.asked ++ [⟨7, leAt ps 1 1, 0, 0⟩] }) s)) := by
  have hok : if leAt ps 1 1 = 1 then
      portState s (leAt ps 0 1) = 3 ∧ (portTenant s (leAt ps 0 1) = none ∨ portTenant s (leAt ps 0 1) = some 0)
      else portState s (leAt ps 0 1) = 5 := by
    split
    · next he => exact henter he
    · next hne => exact hleave (by omega)
  unfold portTestBody
  rw [onPort_up hup]
  dsimp only
  exact if_neg (ne_true_of_eq_false (congrArg not (decide_eq_true hok)))

theorem laserSwitchBody_up (hbase : dieOk s (16 + leAt ps 0 1 / 4) = true) (hsite : dieOk s (80 + leAt ps 0 1) = true)
    (hon : siteState s (leAt ps 0 1) = 3) (hspare : spareState s (leAt ps 0 1) < 4) :
    laserSwitchBody ps tn s = .wait [leAt ps 0 1] 0 0 0 0
      (if spareState s (leAt ps 0 1) = 3 then askSwitch (leAt ps 0 1) s else startSpare (leAt ps 0 1) s) := by
  unfold laserSwitchBody
  dsimp only
  rw [if_neg (by simp [hbase]), if_neg (by simp [hsite]), if_neg (by omega)]

theorem wlSubstBody_free (hup : dieOk s (16 + pN (leAt ps 0 1)) = true ∧ dieOk s (80 + pK (leAt ps 0 1)) = true)
    (hfree : spareFree s (leAt ps 0 1) (leAt ps 2 1) = true) (hplain : streamSpare s (leAt ps 0 1) (leAt ps 1 1) = none) :
    wlSubstBody ps tn s = .ok 0 [] (askChange (leAt ps 0 1) 4 (leAt ps 1 1) (leAt ps 2 1) s) := by
  unfold wlSubstBody
  rw [onPort_up hup]
  dsimp only
  rw [if_neg (by simp [hfree, hplain])]
end

/-- Settles O30: the commands on ports, lasers and wavelengths where no die of the port or site is fenced: VC_WEIGHT, PORT_DOWN and
PORT_FLUSH (R313), PORT_MODE (R285), PORT_TEST (R292), LASER_SWITCH, which waits (R271), WL_SUBST and WL_RESTORE (R278). -/
theorem portCommands : Obligations.PortCommands := by
  unfold Obligations.PortCommands
  refine fun h s i => ⟨?weight, ?down, ?flush, ?mode, ?test, ?laser, ?subst, ?restore⟩
  case weight => exact fun c hup => congrArg Host.Outcome.next (runCmd_answers c (onPort_up hup))
  case down => exact fun c hup => congrArg Host.Outcome.next (runCmd_answers c (onPort_up hup))
  case flush => exact fun c hup => congrArg (fun v => Host.Outcome.next (flushWaits v)) (runCmd_answers c (onPort_up hup))
  case mode => exact fun c hup => congrArg Host.Outcome.next (runCmd_answers c (onPort_up hup))
  case test =>
    intro c hup henter hleave
    have hrange := c.in_range (o := 1) (b := decide (1 < leAt (paramBytes h i) 1 1)) (List.mem_cons_of_mem _ (List.mem_singleton.2 rfl))
    exact congrArg Host.Outcome.next
      (runCmd_answers c (portTestBody_allowed hup (Nat.not_lt.1 (of_decide_eq_false hrange)) henter hleave))
  case laser =>
    refine fun c hbase hsite hon hspare => congrArg Host.Outcome.next (runCmd_waits c (laserSwitchBody_up hbase hsite hon hspare) ?_)
    simp only [apply_ite State.qps, askSwitch_qps, startSpare_qps, ite_self]
    rfl
  case subst => exact fun c hup hfree hplain => congrArg Host.Outcome.next (runCmd_answers c (wlSubstBody_free hup hfree hplain))
  case restore => exact fun c hup => congrArg Host.Outcome.next (runCmd_answers c (onPort_up hup))

end Sys2Proof.Machine
end

section
/-! Commands on the module: profile, thermal mode, Crest, fault reporting, fences, calibration, firmware and factory test mode. -/

namespace Sys2Proof.Machine

section
variable {h : Cmd} {s : State} {tn : Nat} {ps : List Byte}

/-! ## The Crest (R329, R334) -/

/-- A counter set to a value shows that value on the Col die, where the die's own offset is 0. -/
theorem colNow_setCrest (x : Nat) (hskew : Mp.get 0 s.skew 64 = 0) : colNow (setCrest x s) = x := by
  have hshown : colNow (setCrest x s) = ((((x : Int) - Mp.get 0 s.skew 64).toNat : Int) + Mp.get 0 s.skew 64).toNat := rfl
  rw [hshown, hskew]
  omega

theorem timeStepBody_idle (hresident : anyResident s = false) (hholds : tenantHolds s = false) {w : State}
    (hw : w = trace 0 64 7 0xFF (leAt ps 0 8) (leBytes 8 (colNow s))
      { setCrest (leAt ps 0 8) s with lastAccept := min s.lastAccept (leAt ps 0 8) }) :
    timeStepBody ps tn s = .ok 0 [] (if crestState w = 4 then chooseParent (fset rCST_STATUS fCST_STATUS_STATE 0 w) else w) := by
  subst hw
  unfold timeStepBody
  rw [if_neg (by simp [hresident, hholds])]

/-! ## Fences (R254 to R256) -/

/-- A die whose host die can be reached is not answered with the path. -/
theorem reached_of_host {b : Nat} (hhost : dieOk s (hostDie b) = true ∨ hostDie b = b) : ¬(hostDie b ≠ b ∧ (!dieOk s (hostDie b)) = true) := by
  rcases hhost with hup | hself
  · simp [hup]
  · exact fun hc => hc.1 hself

theorem dieFenceBody_open (hhost : dieOk s (hostDie (leAt ps 0 1)) = true ∨ hostDie (leAt ps 0 1) = leAt ps 0 1)
    (hst : (dieOf s (leAt ps 0 1)).st ≠ 2) : dieFenceBody ps tn s = .wait [leAt ps 0 1] 0 0 0 0 (fenceStart (leAt ps 0 1) 7 s) := by
  unfold dieFenceBody
  dsimp only
  rw [if_neg (reached_of_host hhost), if_neg hst]

section
variable (hhost : dieOk s (hostDie (leAt ps 0 1)) = true ∨ hostDie (leAt ps 0 1) = leAt ps 0 1) (hst : (dieOf s (leAt ps 0 1)).st = 2)
include hhost hst

theorem dieRejoinBody_stack (hstack : 32 ≤ leAt ps 0 1 ∧ leAt ps 0 1 < 56) (hcool : Mp.get 0 s.pwr.temps (leAt ps 0 1) ≤ 85) :
    dieRejoinBody ps tn s = .ok 0 [] (topoNow (rejoinOne (leAt ps 0 1) s)) := by
  have hlimit : ¬(if 32 ≤ leAt ps 0 1 ∧ leAt ps 0 1 < 56 then 85 else 95) < Mp.get 0 s.pwr.temps (leAt ps 0 1) := by
    rw [if_pos hstack]; omega
  unfold dieRejoinBody
  dsimp only
  rw [if_neg (reached_of_host hhost), if_neg (not_not.2 hst), if_neg hlimit, if_pos hstack]

theorem dieRejoinBody_die (hdie : ¬(32 ≤ leAt ps 0 1 ∧ leAt ps 0 1 < 56)) (hcool : Mp.get 0 s.pwr.temps (leAt ps 0 1) ≤ 95) :
    dieRejoinBody ps tn s = .wait [leAt ps 0 1] 0 0 0 0 (topoNow (rejoinOne (leAt ps 0 1) s)) := by
  have hlimit : ¬(if 32 ≤ leAt ps 0 1 ∧ leAt ps 0 1 < 56 then 85 else 95) < Mp.get 0 s.pwr.temps (leAt ps 0 1) := by
    rw [if_neg hdie]; omega
  unfold dieRejoinBody
  dsimp only
  rw [if_neg (reached_of_host hhost), if_neg (not_not.2 hst), if_neg hlimit, if_neg hdie]
end

/-! ## Calibration, firmware and factory test mode (R417, R424, R441, R461) -/

theorem calRunBody_ready (hup : leAt ps 0 1 ≠ 0 → dieOk s (unitCode (leAt ps 0 1)) = true) (hfactory : 0x80 ≤ leAt ps 1 1 → factoryPerm s 2 = true)
    (hready : calReady s (leAt ps 0 1) (leAt ps 1 1) (leAt ps 2 2) = true) :
    calRunBody ps tn s = .wait [leAt ps 0 1] (leAt ps 1 1) (leAt ps 2 2) 0 0
      (if leAt ps 1 1 = 0x10 then retrain (leAt ps 0 1 - 1) (leAt ps 2 2) s
        else if leAt ps 1 1 = 0x30 then
          dieClocks (leAt ps 0 1 - 8) (fset (rCLK_CORE_FREQ (leAt ps 0 1 - 8) (leAt ps 2 2)) fCLK_CORE_FREQ_ON 1 s)
        else s) := by
  have hreached : ¬(leAt ps 0 1 ≠ 0 ∧ (!dieOk s (unitCode (leAt ps 0 1))) = true) := fun hc => by simp [hup hc.1] at hc
  have hallowed : ¬(0x80 ≤ leAt ps 1 1 ∧ (!factoryPerm s 2) = true) := fun hc => by simp [hfactory hc.1] at hc
  unfold calRunBody
  dsimp only
  rw [if_neg hreached, if_neg hallowed, if_neg (by simp [hready])]

theorem activateBody_sound (hok : imageOk s (leAt ps 0 1) (bankOf s (leAt ps 0 1) (1 - activeBank s (leAt ps 0 1))) = true) :
    activateBody ps tn s = .ok 0 [] { s with
      fuses := { s.fuses with
        rootRevoked := s.fuses.rootRevoked ||| leAt (bankOf s (leAt ps 0 1) (1 - activeBank s (leAt ps 0 1))) 0x10 1 }
      sec := { s.sec with
        active := Mp.put 0 s.sec.active (leAt ps 0 1) (1 - activeBank s (leAt ps 0 1))
        fresh := s.sec.fresh || leAt ps 0 1 == 0, struck := s.sec.struck && leAt ps 0 1 != 0 } } := by
  unfold activateBody
  dsimp only
  rw [if_pos hok]

theorem factoryEnterBody_granted (hresident : anyResident s = false) (hholds : tenantHolds s = false) (htoken : tokenOk s (dataIn h) = true)
    {w : State} (hw : w = fset rSEC_BOOT_STATUS fSEC_BOOT_STATUS_FACTORY 1 (fset rSEC_FACTORY fSEC_FACTORY_ACTIVE 1
      (fset rSEC_FACTORY fSEC_FACTORY_PERMS (leAt (dataIn h) 2 2) (drawChallenge s)))) :
    factoryEnterBody h ps tn s =
      .ok 0 [] (if bitOf (leAt (dataIn h) 2 2) 3 then fset rSEC_BOOT_STATUS fSEC_BOOT_STATUS_DEBUG 1 w else w) := by
  subst hw
  unfold factoryEnterBody
  rw [if_neg (by simp [hresident, hholds]), if_neg (by simp [htoken])]
end

/-- Settles O31: the commands on the profile, power and thermal mode (R387 to R390), the Crest (R329), fault reporting and injection
(R428, R435; its reply is log entry 949), fences (R256; a stack's return is answered at once, log entry 813), calibration (R461),
firmware (R417; staging during an activation is log entry 978) and factory test mode (R424, R441). -/
theorem moduleCommands : Obligations.ModuleCommands := by
  unfold Obligations.ModuleCommands
  refine fun h s i => ⟨?profile, ?override, ?thermal, ?timeSet, ?timeStep, ?parent, ?report, ?severity, ?pin, ?inject, ?fence, ?rejoin, ?cal,
    ?stage, ?activate, ?enter, ?exit⟩
  case profile => exact fun c => congrArg Host.Outcome.next (runCmd_answers c rfl)
  case override => exact fun c => congrArg Host.Outcome.next (runCmd_answers c rfl)
  case thermal => exact fun c => congrArg Host.Outcome.next (runCmd_answers c rfl)
  case timeSet => exact fun c => ⟨_, congrArg Host.Outcome.next (runCmd_answers c rfl), rfl, fun hskew => colNow_setCrest _ hskew⟩
  case timeStep =>
    exact fun c hresident hholds => congrArg Host.Outcome.next (runCmd_answers c (timeStepBody_idle hresident hholds rfl))
  case parent => exact fun c => congrArg Host.Outcome.next (runCmd_answers c rfl)
  case report => exact fun c => congrArg Host.Outcome.next (runCmd_answers c rfl)
  case severity => exact fun c => congrArg Host.Outcome.next (runCmd_answers c rfl)
  case pin => exact fun c => congrArg Host.Outcome.next (runCmd_answers c rfl)
  case inject => exact fun c hperm => congrArg Host.Outcome.next (runCmd_waits c (if_pos hperm) rfl)
  case fence => exact fun c hhost hst => congrArg Host.Outcome.next (runCmd_waits c (dieFenceBody_open hhost hst) (fenceStart_qps ..))
  case rejoin =>
    exact fun c hhost hst =>
      ⟨fun hstack hcool => congrArg Host.Outcome.next (runCmd_answers c (dieRejoinBody_stack hhost hst hstack hcool)),
        fun hdie hcool => congrArg Host.Outcome.next
          (runCmd_waits c (dieRejoinBody_die hhost hst hdie hcool) ((topoNow_qps _).trans (rejoinOne_qps ..)))⟩
  case cal =>
    refine fun c hup hfactory hready => congrArg Host.Outcome.next (runCmd_waits c (calRunBody_ready hup hfactory hready) ?_)
    simp only [apply_ite State.qps, retrain_qps, dieClocks_qps, fset_qps, ite_self]
    rfl
  case stage => exact fun c hidle => congrArg Host.Outcome.next (runCmd_answers c (if_neg (ne_true_of_eq_false hidle)))
  case activate => exact fun c hok => congrArg Host.Outcome.next (runCmd_answers c (activateBody_sound hok))
  case enter =>
    exact fun c hresident hholds htoken => congrArg Host.Outcome.next (runCmd_answers c (factoryEnterBody_granted hresident hholds htoken rfl))
  case exit => exact fun c => congrArg Host.Outcome.next (runCmd_answers c rfl)

end Sys2Proof.Machine
end

section
/-! The checks of an accepted command and their order (R357, R358, R360, R361, R365). -/

namespace Sys2Proof.Machine

section
variable {h : Cmd} {op : Nat} {s : State} {t0 : Bool} {fields : List (Nat × Nat)} {bad : List Byte → Nat → List (Nat × Bool)}

theorem not_permitted (hiss : issuerOf s h.path ≠ 0)
    (hbar : t0 = true ∨ eTenant (bytesAt h.entry 0 64) ≠ 0xFF ∧ eTenant (bytesAt h.entry 0 64) ≠ issuerOf s h.path) : ¬Permitted h t0 s := by
  rintro (h0 | ⟨hopen, hfor⟩)
  · exact hiss h0
  · rcases hbar with hbar | ⟨hff, hne⟩
    · simp [hopen] at hbar
    · exact hfor.elim hff hne

/-- After the header and the host's memory come the parameters: at fault one of them answers, and else the command is sound. -/
theorem cmdCheck_parameters (hop : opAvailable s h.path op = true) (hp : Permitted h t0 s)
    (hheader : headerBad h.path (bytesAt h.entry 0 64) = none) (hhost : h.hostFail = none) :
    (∃ o, cmdCheck h op t0 fields bad s = some (rsBadParam, o)) ∨
      (cmdCheck h op t0 fields bad s = none ∧ badOffsets h fields bad s = []) := by
  rw [cmdCheck_permitted hop hp, hheader, hhost]
  dsimp only
  cases hlow : lowestOff (badOffsets h fields bad s) with
  | none => exact .inr ⟨rfl, lowestOff_eq_none hlow⟩
  | some o => exact .inl ⟨o, rfl⟩
end

/-- Settles O32: a command whose turn it is answers the first check of R360 it fails, and changes nothing else; the order is that of
its opcode, its issuer, its header, the host's memory and its parameters (R357, R358, R361, R365). -/
theorem checksAreAnsweredInOrder : Obligations.ChecksAreAnsweredInOrder := by
  unfold Obligations.ChecksAreAnsweredInOrder
  refine ⟨fun h s i st r => ⟨?plain, ?settling, ?cores⟩, fun h op t0 fields bad s => ⟨?opcode, ?issuer, fun hop hp => ⟨?header, ?rest⟩⟩⟩
  case plain =>
    repeat refine List.forall_mem_cons.2 ⟨fun t hc => congrArg Host.Outcome.next (runCmd_refused t hc), ?_⟩
    exact List.forall_mem_nil _
  case settling =>
    repeat refine List.forall_mem_cons.2 ⟨fun t hc => congrArg (fun v => Host.Outcome.next (flushWaits v)) (runCmd_refused t hc), ?_⟩
    exact List.forall_mem_nil _
  case cores => exact fun t hc => congrArg (fun v => Host.Outcome.next (flushWaits (flushBinds v))) (runCmd_refused t hc)
  case opcode => exact fun hop => cmdCheck_unavailable hop
  case issuer => exact fun hop hiss hbar => cmdCheck_forbidden hop (not_permitted hiss hbar)
  case header =>
    intro o hbad
    rw [cmdCheck_permitted hop hp, hbad]
  case rest =>
    refine fun hheader => ⟨fun o hfail => ?_, fun hhost => ?_⟩
    · rw [cmdCheck_permitted hop hp, hheader, hfail]
    · refine (cmdCheck_parameters hop hp hheader hhost).imp_right fun ⟨hc, hoffs⟩ => ⟨hc, ?_⟩
      obtain ⟨hfields, hunused⟩ := List.append_eq_nil_iff.1 hoffs
      exact ⟨hfields, Option.toList_eq_nil_iff.1 hunused⟩

end Sys2Proof.Machine
end

section
/-! How commands are fetched from a queue pair or received from another module, and accepted (R352, R355, R362, R367, R368). -/

namespace Sys2Proof.Machine

/-- What neither the trace store nor its counters enter, a trace record keeps. -/
theorem trace_same {β : Type} (f : State → β) (hseq : ∀ s m, f { s with trcSeq := m } = f s) (hrecord : ∀ s l, f { s with trecs := l } = f s)
    (hlost : ∀ s m, f (fcount rTRC_STATUS fTRC_STATUS_LOST 1 { s with trcLost := m }) = f s)
    (src unit type tenant t : Nat) (payload : List Byte) (s : State) : f (trace src unit type tenant t payload s) = f s := by
  unfold trace
  refine (foldl_same _ f (fun s p => ?_) _ _).trans (hseq ..)
  dsimp only
  split
  · split
    · exact hrecord ..
    · exact hlost ..
  · rfl

@[simp] theorem trace_inflight (src unit type tenant t : Nat) (payload : List Byte) (s : State) :
    (trace src unit type tenant t payload s).inflight = s.inflight :=
  trace_same State.inflight (fun _ _ => rfl) (fun _ _ => rfl) (fun _ _ => rfl) ..

@[simp] theorem trace_lastAccept (src unit type tenant t : Nat) (payload : List Byte) (s : State) :
    (trace src unit type tenant t payload s).lastAccept = s.lastAccept :=
  trace_same State.lastAccept (fun _ _ => rfl) (fun _ _ => rfl) (fun _ _ => rfl) ..

section
variable {s : State} {entry : List Byte} {q : Nat}

/-! ## Acceptance (R362) -/

/-- An accepted command is listed last, at a stamp later than that of any command before it. -/
theorem acceptCmd_inflight (path : CmdPath) (qp : Nat) : (acceptCmd path qp entry s).inflight =
    s.inflight ++ [⟨path, entry, max (colNow s) (s.lastAccept + 1), false⟩] := by
  simp only [acceptCmd, apply_ite State.inflight, trace_inflight, ite_self]

theorem acceptCmd_lastAccept (path : CmdPath) (qp : Nat) :
    (acceptCmd path qp entry s).lastAccept = max (colNow s) (s.lastAccept + 1) := by
  simp only [acceptCmd, apply_ite State.lastAccept, trace_lastAccept, ite_self]

theorem acceptCmd_qps (path : CmdPath) (qp : Nat) : (acceptCmd path qp entry s).qps = s.qps := by
  simp only [acceptCmd, apply_ite State.qps, trace_qps, ite_self]

/-! ## The fetch from a queue pair (R352, R355) -/

/-- The state a fetch begins with: whose turn it was. -/
def turnTaken (q : Nat) (s : State) : State := { s with lastZero := q == 0, lastQp := if q = 0 then s.lastQp else q }

/-- The state once a command of a queue pair has been fetched and accepted. -/
def fetchedCmd (q : Nat) (entry : List Byte) (s : State) : State :=
  acceptCmd (.qp q) q (bytesAt entry 0 64) (setQp q { qpOf s q with fetched := ((qpOf s q).fetched + 1) % 2 ^ 32 } (turnTaken q s))

theorem fetchCmd_failed (hready : s.ready = true) (hturn : qpTurn s = some q) : fetchCmd q entry false s = qpError q (turnTaken q s) := by
  unfold fetchCmd
  dsimp only
  rw [if_neg (by simp [hready, hturn]), if_pos Bool.not_false]
  rfl

theorem fetchCmd_read (hready : s.ready = true) (hturn : qpTurn s = some q) : fetchCmd q entry true s =
    if opAvailable (fetchedCmd q entry s) (.qp q) (eOp (bytesAt entry 0 64) % 4096) then fetchedCmd q entry s
    else refuseLast rsBadOpcode (fetchedCmd q entry s) := by
  unfold fetchCmd
  dsimp only
  rw [if_neg (by simp [hready, hturn]), if_neg (by decide)]
  rfl

theorem qpOf_fetchedCmd : qpOf (fetchedCmd q entry s) q = { qpOf s q with fetched := ((qpOf s q).fetched + 1) % 2 ^ 32 } := by
  rw [qpOf, fetchedCmd, acceptCmd_qps]
  exact Mp.get_put_same ..

/-! ## Commands of another module (R367, R368) -/

/-- The first bytes of a field are the field's own. -/
theorem bytesAt_bytesAt (l : List Byte) (n : Nat) : bytesAt (bytesAt l 0 n) 0 n = bytesAt l 0 n := by
  refine List.map_congr_left fun i hi => ?_
  have hin : i < n := List.mem_range.1 hi
  simp [bytesAt, hin]

/-- Whether the module a command came from is admitted to its port and tenant; reports of the Crest always are. -/
def Admitted (a : Nat) (src : Nat) (e : List Byte) (w : State) : Prop :=
  eOp e % 4096 = 0xB80 ∨ fget w a fFLK_ACCEPT_EN = 1 ∧ fget w a fFLK_ACCEPT_LO ≤ src ∧ src ≤ fget w a fFLK_ACCEPT_HI

theorem remoteReceive_available {port src tenant reqId l : Nat} {pkt : Pkt} {rest : List Pkt} {e : List Byte} {w : State}
    (hready : s.ready = true) (hlane : mgtLane s port src reqId = some l) (hqueue : (laneOf s port l).queue = pkt :: rest)
    (hbusy : (laneOf s port l).busy = false) (htenant : pkt.tenant = tenant) (he : e = bytesAt pkt.data 0 64)
    (hw : w = acceptCmd (.fabric port src reqId tenant) 0xFF e (updLane port l (fun x => { x with busy := true }) s))
    (hop : opAvailable w (.fabric port src reqId tenant) (eOp e % 4096) = true) :
    (Admitted (rFLK_ACCEPT (pN port) tenant) src e w → remoteReceive port src tenant reqId e (pkt.data.drop 64) s = w) ∧
    (¬Admitted (rFLK_ACCEPT (pN port) tenant) src e w →
      remoteReceive port src tenant reqId e (pkt.data.drop 64) s = refuseLast rsNotPermitted w) := by
  subst htenant he hw
  unfold remoteReceive Admitted
  rw [hlane]
  dsimp only
  rw [hqueue]
  dsimp only
  rw [if_neg (by simp [hready, hbusy, bytesAt_bytesAt]), if_neg (by simp [hop])]
  have hrange (en lo hi : Nat) : (!(en == 1 && decide (lo ≤ src) && decide (src ≤ hi))) = true ↔ ¬(en = 1 ∧ lo ≤ src ∧ src ≤ hi) := by
    simp only [Bool.not_eq_true', Bool.and_eq_false_iff, beq_eq_false_iff_ne, decide_eq_false_iff_not]; omega
  refine ⟨fun hin => if_neg fun ⟨hcmd, hbar⟩ => (hrange ..).1 hbar (hin.resolve_left hcmd), fun hout => if_pos ?_⟩
  obtain ⟨hcmd, hbar⟩ := not_or.1 hout
  exact ⟨hcmd, (hrange ..).2 hbar⟩
end

/-- Settles O33: COMMAND_FETCH and REMOTE_COMMAND_RECEIVE accept a command at a stamp of its own (R352, R362; log entry 920); an opcode
that is not available is refused at the fetch (log entry 919), a failed fetch is the queue pair's error (R355), and a command of another
module is taken up only if that module is admitted (R367, R368). -/
theorem commandsAreAccepted : Obligations.CommandsAreAccepted := by
  unfold Obligations.CommandsAreAccepted
  refine fun s hready => ⟨fun q entry hturn => ⟨?failed, ?available, ?unavailable, ?listed, ?stamp, ?counted⟩, ?remote⟩
  case failed => exact congrArg Host.Outcome.next (fetchCmd_failed hready hturn)
  case available => exact fun hop => congrArg Host.Outcome.next ((fetchCmd_read hready hturn).trans (if_pos hop))
  case unavailable =>
    exact fun hop => congrArg Host.Outcome.next ((fetchCmd_read hready hturn).trans (if_neg (ne_true_of_eq_false hop)))
  case listed => exact acceptCmd_inflight ..
  case stamp => exact acceptCmd_lastAccept ..
  case counted => exact qpOf_fetchedCmd
  case remote =>
    intro port src tenant reqId l pkt rest hlane hqueue hbusy htenant e path a w hop
    obtain ⟨hin, hout⟩ := remoteReceive_available hready hlane hqueue hbusy htenant rfl rfl hop
    exact ⟨fun hadm => congrArg Host.Outcome.next (hin hadm), fun hbar => congrArg Host.Outcome.next (hout hbar),
      acceptCmd_lastAccept ..⟩

end Sys2Proof.Machine
end

section
/-! Functions of the host interface: doorbells, the control page's queue pair, moderation, Function Level Reset and configuration. -/

namespace Sys2Proof.Machine

section
variable {s : State} {fn i q : Nat} {v : Word32}

/-! ## Doorbells (R350, R354) -/

theorem doorbellCmd_bell (hbell : bellQp s fn i = some q) : doorbellCmd fn i v s =
    if 2 ^ (qpOf s q).log2 < (v.toNat + 2 ^ 32 - (qpOf s q).fetched) % 2 ^ 32 then qpError q (setQp q { qpOf s q with tail := v.toNat } s)
    else setQp q { qpOf s q with tail := v.toNat } s := by
  rw [doorbellCmd, hbell]

theorem doorbellRpl_bell (hbell : bellQp s fn i = some q) : doorbellRpl fn i v s = setQp q { qpOf s q with head := v.toNat } s := by
  rw [doorbellRpl, hbell]

/-! ## The control page's queue pair (R344) -/

/-- A function as a write of its HST_QPB_CFG leaves it. -/
def qpbFn (s : State) (fn : Nat) (v : Word32) : Fn :=
  { fnOf s fn with log2 := fieldOf v.toNat 16 4, modc := fieldOf v.toNat 8 8, vector := fieldOf v.toNat 0 5 }

theorem qpLocal_setFn (f : Nat) (x : Fn) : qpLocal (setFn f x s) fn i = qpLocal s fn i := rfl

theorem qpbEnabled_local (hq : qpLocal s fn 0 = some q) : qpbEnabled s fn = (qpOf s q).created := by
  rw [qpbEnabled, hq]

section
variable (hfn : fnEnabled s fn = true) (hq : qpLocal s fn 0 = some q)
include hfn hq

theorem writeQpb_create (hnew : (qpOf s q).created = false) : writeQpb fn true v s =
    qpMake q (qpbFn s fn v).cmdBase (qpbFn s fn v).rplBase (qpbFn s fn v).log2 (qpbFn s fn v).vector (qpbFn s fn v).modc
      (setFn fn (qpbFn s fn v) s) := by
  unfold writeQpb
  dsimp only
  rw [if_neg (by simp [hfn]), if_neg (by simp [qpbEnabled_local hq, hnew]), if_pos rfl, qpLocal_setFn, hq]
  rfl

theorem writeQpb_keep (hnew : (qpOf s q).created = false) : writeQpb fn false v s = setFn fn (qpbFn s fn v) s := by
  unfold writeQpb
  dsimp only
  rw [if_neg (by simp [hfn]), if_neg (by simp [qpbEnabled_local hq, hnew]), if_neg Bool.false_ne_true]
  rfl

theorem writeQpb_created (hmade : (qpOf s q).created = true) (en : Bool) : writeQpb fn en v s = if en then s else qpDrop q s := by
  unfold writeQpb
  rw [if_neg (by simp [hfn]), if_pos ((qpbEnabled_local hq).trans hmade), hq]
end

/-! ## Moderation (R356), Function Level Reset (R341) and configuration (R343) -/

theorem moderationDone_reply (hunsig : (qpOf s q).unsig ≠ 0) : moderationDone (.reply q) s =
    signalVector (qpOwner s q) (qpOf s q).vector (setQp q { qpOf s q with unsig := 0 } s) := if_neg hunsig

/-- The ring whose records a moderated interrupt is about. -/
def irqRing : IrqSource → Option RingRef
  | .reply _ => none
  | .completion t r => some (.completion (t * 16 + r))
  | .fault t => some (.fault t)
  | .trace r => some (.trace r)

theorem moderationDone_ring {src : IrqSource} {ref : RingRef} {r : Ring} (hsrc : irqRing src = some ref) (hr : getRing s ref = some r)
    (hunsig : r.unsig ≠ 0) : moderationDone src s = signalVector r.tenant r.vector (setRing ref { r with unsig := 0 } s) := by
  cases src <;> cases hsrc <;> simp only [moderationDone, hr, hunsig, if_false]

theorem flr_enabled (hfn : fnEnabled s fn = true) {w : State}
    (hw : w = (qpsOf s fn).foldl (fun w q => if (qpOf w q).created then qpDrop q w else w) s) :
    flr fn s = setFn fn { ({} : Fn) with pend := (fnOf w fn).pend, cfg := (fnOf w fn).cfg } w := by
  subst hw
  rw [flr, if_neg (by simp [hfn])]

theorem cfgRequest_unready (hready : s.ready = false) (off : Nat) (wr : Bool) : cfgRequest fn off wr v s = emit (.cfg fn off none) s := by
  rw [cfgRequest, if_pos (by simp [hready])]

theorem cfgRequest_fixed {off x : Nat} (hready : s.ready = true) (hfn : fnEnabled s fn = true) (hmax : fn ≤ 63) (halign : off % 4 = 0)
    (hpage : off < 4096) (hfixed : cfgFixed s fn off = some x) : cfgRequest fn off false v s = emit (.cfg fn off (some x)) s := by
  have hin : ¬(63 < fn ∨ (!fnEnabled s fn) = true ∨ off % 4 ≠ 0 ∨ 4096 ≤ off) := by
    simp only [hfn, Bool.not_true, Bool.false_eq_true, false_or]
    omega
  rw [cfgRequest, if_neg (by simp [hready]), if_neg hin, if_neg (fun hc => Bool.false_ne_true hc.1), if_neg Bool.false_ne_true, hfixed]
end

/-- Settles O34: the doorbells (R350, R354; one before READY is kept, log entry 901), the control page's queue pair (R344), moderation
(R356), Function Level Reset (R341) and configuration requests (R342, R343; the places of the capabilities are log entry 31). -/
theorem hostFunctionEvents : Obligations.HostFunctionEvents := by
  unfold Obligations.HostFunctionEvents
  refine fun s fn i q v => ⟨?bells, ?page, ?reply, ?rings, ?reset, ?unready, ?config⟩
  case bells =>
    exact fun hbell => ⟨congrArg Host.Outcome.next (doorbellCmd_bell hbell), congrArg Host.Outcome.next (doorbellRpl_bell hbell)⟩
  case page =>
    exact fun hfn hq => ⟨fun hnew => ⟨congrArg Host.Outcome.next (writeQpb_create hfn hq hnew),
        congrArg Host.Outcome.next (writeQpb_keep hfn hq hnew)⟩,
      fun hmade => ⟨congrArg Host.Outcome.next (writeQpb_created hfn hq hmade true),
        congrArg Host.Outcome.next (writeQpb_created hfn hq hmade false)⟩⟩
  case reply => exact fun hunsig => congrArg Host.Outcome.next (moderationDone_reply hunsig)
  case rings =>
    have settled (x : IrqSource × RingRef) (hx : irqRing x.1 = some x.2) (r : Ring) (hr : getRing s x.2 = some r) (hunsig : r.unsig ≠ 0) :
        exec (.msixModerationTimer x.1) s = .next (signalVector r.tenant r.vector (setRing x.2 { r with unsig := 0 } s)) :=
      congrArg Host.Outcome.next (moderationDone_ring hx hr hunsig)
    exact List.forall_mem_cons.2 ⟨settled (.completion fn i, _) rfl, List.forall_mem_cons.2 ⟨settled (.fault fn, _) rfl,
      List.forall_mem_cons.2 ⟨settled (.trace i, _) rfl, List.forall_mem_nil _⟩⟩⟩
  case reset => exact fun hfn => congrArg Host.Outcome.next (flr_enabled hfn rfl)
  case unready => exact fun hready wr off => congrArg Host.Outcome.next (cfgRequest_unready hready off wr)
  case config =>
    exact fun off x hready hfn hmax halign hpage hfixed =>
      congrArg Host.Outcome.next (cfgRequest_fixed hready hfn hmax halign hpage hfixed)

end Sys2Proof.Machine
end

section
/-! The block as a whole: a step runs the command at the front of the queue; every command answers a next state and keeps what `Keeps`
says, so that every step does (R400, R415, R421; no free value is drawn twice because their counter never falls, log entry 3). -/

namespace Sys2Proof.Machine

/-! ## A step with a command waiting -/

theorem step_front (i : Instr) (q : List Instr) (s : State) : step { s with pending := i :: q } = exec i { s with pending := q } := rfl

/-- Settles O1: the second arm of `step`. -/
theorem stepRunsTheFrontCommand : Obligations.StepRunsTheFrontCommand := step_front

/-! ## Every command -/

theorem execSemacqTimeout_next (c : Nat) (s : State) : ∃ t, execSemacqTimeout c s = .next t := by
  unfold execSemacqTimeout
  dsimp only
  split
  case h_1 =>
    split
    · exact ⟨_, rfl⟩
    · split <;> exact ⟨_, rfl⟩
  case h_2 => exact ⟨_, rfl⟩

/-- No command faults and none is refused: each arm of `exec` is a `.next`, the timeout of a SEMACQ in each of its branches. -/
theorem exec_next (i : Instr) (s : State) : ∃ t, exec i s = .next t := by
  cases i with
  | semacqTimeout c => exact execSemacqTimeout_next c s
  | _ => exact ⟨_, rfl⟩

/-- Arm by arm of `exec`, by the law of the arm's command. -/
theorem keeps_exec : ∀ (i : Instr) (s : State), Keeps s (nextOr s (exec i s))
  | .nop .., _ => keeps_execNop ..
  | .endTask .., _ => keeps_execEndTask ..
  | .jmp .., _ => keeps_execJmp ..
  | .jnz .., _ => keeps_execJnz ..
  | .jz .., _ => keeps_execJz ..
  | .loop .., _ => keeps_execLoop ..
  | .call .., _ => keeps_execCall ..
  | .ret .., _ => keeps_execRet ..
  | .yield .., _ => keeps_execYield ..
  | .sxt .., _ => keeps_execSxt ..
  | .trap .., _ => keeps_execTrap ..
  | .add .., _ => keeps_execAdd ..
  | .sub .., _ => keeps_execSub ..
  | .mul .., _ => keeps_execMul ..
  | .andd .., _ => keeps_execAndd ..
  | .orr .., _ => keeps_execOrr ..
  | .xorr .., _ => keeps_execXorr ..
  | .shl .., _ => keeps_execShl ..
  | .shr .., _ => keeps_execShr ..
  | .sar .., _ => keeps_execSar ..
  | .minn .., _ => keeps_execMinn ..
  | .maxx .., _ => keeps_execMaxx ..
  | .slt .., _ => keeps_execSlt ..
  | .sltu .., _ => keeps_execSltu ..
  | .seq .., _ => keeps_execSeq ..
  | .li .., _ => keeps_execLi ..
  | .crst .., _ => keeps_execCrst ..
  | .sld .., _ => keeps_execSld ..
  | .sst .., _ => keeps_execSst ..
  | .sldg .., _ => keeps_execSldg ..
  | .sstg .., _ => keeps_execSstg ..
  | .fence .., _ => keeps_execFence ..
  | .rflush .., _ => keeps_execRflush ..
  | .rinv .., _ => keeps_execRinv ..
  | .vadd .., _ => keeps_execVadd ..
  | .vsub .., _ => keeps_execVsub ..
  | .vmul .., _ => keeps_execVmul ..
  | .vfma .., _ => keeps_execVfma ..
  | .vmin .., _ => keeps_execVmin ..
  | .vmax .., _ => keeps_execVmax ..
  | .vsqrt .., _ => keeps_execVsqrt ..
  | .vrcp .., _ => keeps_execVrcp ..
  | .vrsqrt .., _ => keeps_execVrsqrt ..
  | .vexp2 .., _ => keeps_execVexp2 ..
  | .vlog2 .., _ => keeps_execVlog2 ..
  | .vabs .., _ => keeps_execVabs ..
  | .vcmplt .., _ => keeps_execVcmplt ..
  | .vcmpeq .., _ => keeps_execVcmpeq ..
  | .vsel .., _ => keeps_execVsel ..
  | .vmov .., _ => keeps_execVmov ..
  | .viadd .., _ => keeps_execViadd ..
  | .visub .., _ => keeps_execVisub ..
  | .vimul .., _ => keeps_execVimul ..
  | .vand .., _ => keeps_execVand ..
  | .vor .., _ => keeps_execVor ..
  | .vxor .., _ => keeps_execVxor ..
  | .vshl .., _ => keeps_execVshl ..
  | .vshr .., _ => keeps_execVshr ..
  | .vsar .., _ => keeps_execVsar ..
  | .viota .., _ => keeps_execViota ..
  | .vbcast .., _ => keeps_execVbcast ..
  | .vcvt .., _ => keeps_execVcvt ..
  | .vqb .., _ => keeps_execVqb ..
  | .vdqb .., _ => keeps_execVdqb ..
  | .vrsum .., _ => keeps_execVrsum ..
  | .vrmax .., _ => keeps_execVrmax ..
  | .vrmin .., _ => keeps_execVrmin ..
  | .arsum .., _ => keeps_execArsum ..
  | .armax .., _ => keeps_execArmax ..
  | .asmx .., _ => keeps_execAsmx ..
  | .aresc .., _ => keeps_execAresc ..
  | .anorm .., _ => keeps_execAnorm ..
  | .vld .., _ => keeps_execVld ..
  | .vst .., _ => keeps_execVst ..
  | .vldg .., _ => keeps_execVldg ..
  | .vstg .., _ => keeps_execVstg ..
  | .vlds .., _ => keeps_execVlds ..
  | .vsts .., _ => keeps_execVsts ..
  | .tld .., _ => keeps_execTld ..
  | .tst .., _ => keeps_execTst ..
  | .tldt .., _ => keeps_execTldt ..
  | .tzero .., _ => keeps_execTzero ..
  | .tmm .., _ => keeps_execTmm ..
  | .azero .., _ => keeps_execAzero ..
  | .ast .., _ => keeps_execAst ..
  | .ald .., _ => keeps_execAld ..
  | .ardv .., _ => keeps_execArdv ..
  | .awrv .., _ => keeps_execAwrv ..
  | .evsig .., _ => keeps_execEvsig ..
  | .evwait .., _ => keeps_execEvwait ..
  | .evrd .., _ => keeps_execEvrd ..
  | .semacq .., _ => keeps_execSemacq ..
  | .semacqTimeout .., _ => keeps_execSemacqTimeout ..
  | .semrel .., _ => keeps_execSemrel ..
  | .dmaq .., _ => keeps_execDmaq ..
  | .dmard .., _ => keeps_execDmard ..
  | .racsw .., _ => keeps_execRacsw ..
  | .wacsw .., _ => keeps_execWacsw ..
  | .seed .., _ => keeps_execSeed ..
  | .rseq .., _ => keeps_execRseq ..
  | .instructionCompletion .., _ => keeps_execInstructionCompletion ..
  | .commandFetch .., _ => keeps_execCommandFetch ..
  | .identify .., _ => keeps_execIdentify ..
  | .tenantInfo .., _ => keeps_execTenantInfo ..
  | .regRead .., _ => keeps_execRegRead ..
  | .regWrite .., _ => keeps_execRegWrite ..
  | .qpCreate .., _ => keeps_execQpCreate ..
  | .qpDelete .., _ => keeps_execQpDelete ..
  | .qpAssign .., _ => keeps_execQpAssign ..
  | .bindCores .., _ => keeps_execBindCores ..
  | .bindMemory .., _ => keeps_execBindMemory ..
  | .bindPorts .., _ => keeps_execBindPorts ..
  | .setShare .., _ => keeps_execSetShare ..
  | .schedPolicy .., _ => keeps_execSchedPolicy ..
  | .graphSubmit .., _ => keeps_execGraphSubmit ..
  | .graphStart .., _ => keeps_execGraphStart ..
  | .graphRelease .., _ => keeps_execGraphRelease ..
  | .abort .., _ => keeps_execAbort ..
  | .preempt .., _ => keeps_execPreempt ..
  | .taskRestart .., _ => keeps_execTaskRestart ..
  | .gateRelease .., _ => keeps_execGateRelease ..
  | .ringCreate .., _ => keeps_execRingCreate ..
  | .ringDelete .., _ => keeps_execRingDelete ..
  | .ringPop .., _ => keeps_execRingPop ..
  | .memRead .., _ => keeps_execMemRead ..
  | .memWrite .., _ => keeps_execMemWrite ..
  | .aspace .., _ => keeps_execAspace ..
  | .map .., _ => keeps_execMap ..
  | .unmap .., _ => keeps_execUnmap ..
  | .protect .., _ => keeps_execProtect ..
  | .granuleAttr .., _ => keeps_execGranuleAttr ..
  | .rcWays .., _ => keeps_execRcWays ..
  | .rcFlush .., _ => keeps_execRcFlush ..
  | .dmaLimit .., _ => keeps_execDmaLimit ..
  | .rowRepair .., _ => keeps_execRowRepair ..
  | .stackRejoin .., _ => keeps_execStackRejoin ..
  | .moduleId .., _ => keeps_execModuleId ..
  | .routeSet .., _ => keeps_execRouteSet ..
  | .acceptSet .., _ => keeps_execAcceptSet ..
  | .groupDefine .., _ => keeps_execGroupDefine ..
  | .vcWeight .., _ => keeps_execVcWeight ..
  | .portDown .., _ => keeps_execPortDown ..
  | .portFlush .., _ => keeps_execPortFlush ..
  | .portMode .., _ => keeps_execPortMode ..
  | .portTest .., _ => keeps_execPortTest ..
  | .laserSwitch .., _ => keeps_execLaserSwitch ..
  | .wlSubst .., _ => keeps_execWlSubst ..
  | .wlRestore .., _ => keeps_execWlRestore ..
  | .remote .., _ => keeps_execRemote ..
  | .profileSet .., _ => keeps_execProfileSet ..
  | .override .., _ => keeps_execOverride ..
  | .thermalMode .., _ => keeps_execThermalMode ..
  | .powerRead .., _ => keeps_execPowerRead ..
  | .calRun .., _ => keeps_execCalRun ..
  | .calStatus .., _ => keeps_execCalStatus ..
  | .attest .., _ => keeps_execAttest ..
  | .certRead .., _ => keeps_execCertRead ..
  | .fwStage .., _ => keeps_execFwStage ..
  | .fwActivate .., _ => keeps_execFwActivate ..
  | .rollbackRead .., _ => keeps_execRollbackRead ..
  | .faultRing .., _ => keeps_execFaultRing ..
  | .faultResume .., _ => keeps_execFaultResume ..
  | .faultEnd .., _ => keeps_execFaultEnd ..
  | .dieFence .., _ => keeps_execDieFence ..
  | .dieRejoin .., _ => keeps_execDieRejoin ..
  | .severity .., _ => keeps_execSeverity ..
  | .faultPin .., _ => keeps_execFaultPin ..
  | .cairnRecord .., _ => keeps_execCairnRecord ..
  | .cairnStatus .., _ => keeps_execCairnStatus ..
  | .apportion .., _ => keeps_execApportion ..
  | .traceRing .., _ => keeps_execTraceRing ..
  | .timeSet .., _ => keeps_execTimeSet ..
  | .timeStep .., _ => keeps_execTimeStep ..
  | .parentSet .., _ => keeps_execParentSet ..
  | .crestReport .., _ => keeps_execCrestReport ..
  | .factoryEnter .., _ => keeps_execFactoryEnter ..
  | .factoryExit .., _ => keeps_execFactoryExit ..
  | .faultInject .., _ => keeps_execFaultInject ..
  | .faultInjectOccurrence .., _ => keeps_execFaultInjectOccurrence ..
  | .logRead .., _ => keeps_execLogRead ..
  | .remoteCommandReceive .., _ => keeps_execRemoteCommandReceive ..
  | .hstDbCmd .., _ => keeps_execHstDbCmd ..
  | .hstDbRpl .., _ => keeps_execHstDbRpl ..
  | .qpEnable .., _ => keeps_execQpEnable ..
  | .qpDisable .., _ => keeps_execQpDisable ..
  | .swSys .., _ => keeps_execSwSys ..
  | .swCore .., _ => keeps_execSwCore ..
  | .holdReleaseRequest .., _ => keeps_execHoldReleaseRequest ..
  | .prgSwitch .., _ => keeps_execPrgSwitch ..
  | .injOne .., _ => keeps_execInjOne ..
  | .pam4LevelWrite .., _ => keeps_execPam4LevelWrite ..
  | .crnAckWrite .., _ => keeps_execCrnAckWrite ..
  | .crnIntervalWrite .., _ => keeps_execCrnIntervalWrite ..
  | .safeInfoClear .., _ => keeps_execSafeInfoClear ..
  | .registerWrite .., _ => keeps_execRegisterWrite ..
  | .reg64LowWordRead .., _ => keeps_execReg64LowWordRead ..
  | .reg64LowWordWrite .., _ => keeps_execReg64LowWordWrite ..
  | .rcFieldRead .., _ => keeps_execRcFieldRead ..
  | .graphAdmission .., _ => keeps_execGraphAdmission ..
  | .taskDispatch .., _ => keeps_execTaskDispatch ..
  | .backfillLimitExpiry .., _ => keeps_execBackfillLimitExpiry ..
  | .taskCommit .., _ => keeps_execTaskCommit ..
  | .abortArrival .., _ => keeps_execAbortArrival ..
  | .preemptionRequest .., _ => keeps_execPreemptionRequest ..
  | .contextSaveComplete .., _ => keeps_execContextSaveComplete ..
  | .taskResume .., _ => keeps_execTaskResume ..
  | .recordWrite .., _ => keeps_execRecordWrite ..
  | .ringHeadReread .., _ => keeps_execRingHeadReread ..
  | .coreSheafClearDone .., _ => keeps_execCoreSheafClearDone ..
  | .granuleBindCommit .., _ => keeps_execGranuleBindCommit ..
  | .granuleClearComplete .., _ => keeps_execGranuleClearComplete ..
  | .memoryReadRequest .., _ => keeps_execMemoryReadRequest ..
  | .memoryWriteRequest .., _ => keeps_execMemoryWriteRequest ..
  | .patrolScrubRead .., _ => keeps_execPatrolScrubRead ..
  | .stackWake .., _ => keeps_execStackWake ..
  | .nearTaskStart .., _ => keeps_execNearTaskStart ..
  | .nearChunkComplete .., _ => keeps_execNearChunkComplete ..
  | .pageWalkComplete .., _ => keeps_execPageWalkComplete ..
  | .tagAcquire .., _ => keeps_execTagAcquire ..
  | .transactionResponse .., _ => keeps_execTransactionResponse ..
  | .dmaChunkRetire .., _ => keeps_execDmaChunkRetire ..
  | .faultRecordWrite .., _ => keeps_execFaultRecordWrite ..
  | .collectiveTaskStart .., _ => keeps_execCollectiveTaskStart ..
  | .collectiveFirstSend .., _ => keeps_execCollectiveFirstSend ..
  | .collectiveMessageReceive .., _ => keeps_execCollectiveMessageReceive ..
  | .collectiveChunkRetire .., _ => keeps_execCollectiveChunkRetire ..
  | .collectiveCommit .., _ => keeps_execCollectiveCommit ..
  | .failureNoticeReceive .., _ => keeps_execFailureNoticeReceive ..
  | .attnBlockStage .., _ => keeps_execAttnBlockStage ..
  | .jxlBeatReceive .., _ => keeps_execJxlBeatReceive ..
  | .nak .., _ => keeps_execNak ..
  | .jxlReplayTimeout .., _ => keeps_execJxlReplayTimeout ..
  | .jxlAckTimer .., _ => keeps_execJxlAckTimer ..
  | .jxlRetrain .., _ => keeps_execJxlRetrain ..
  | .jxlTrainStart .., _ => keeps_execJxlTrainStart ..
  | .jxlMarkerReceive .., _ => keeps_execJxlMarkerReceive ..
  | .ident .., _ => keeps_execIdent ..
  | .strapIdentityTimeout .., _ => keeps_execStrapIdentityTimeout ..
  | .stolonIdentityReport .., _ => keeps_execStolonIdentityReport ..
  | .jxlClockLoss .., _ => keeps_execJxlClockLoss ..
  | .fenceTrigger .., _ => keeps_execFenceTrigger ..
  | .fenceComplete .., _ => keeps_execFenceComplete ..
  | .ucieModuleTrain .., _ => keeps_execUcieModuleTrain ..
  | .identQ .., _ => keeps_execIdentQ ..
  | .paramSet .., _ => keeps_execParamSet ..
  | .regRd .., _ => keeps_execRegRd ..
  | .regWr .., _ => keeps_execRegWr ..
  | .statusQ .., _ => keeps_execStatusQ ..
  | .tempFf .., _ => keeps_execTempFf ..
  | .blank .., _ => keeps_execBlank ..
  | .unblank .., _ => keeps_execUnblank ..
  | .engineRefused .., _ => keeps_execEngineRefused ..
  | .sidebandLost .., _ => keeps_execSidebandLost ..
  | .laserMonitorSample .., _ => keeps_execLaserMonitorSample ..
  | .fadeUpdate .., _ => keeps_execFadeUpdate ..
  | .spareWarmDone .., _ => keeps_execSpareWarmDone ..
  | .spareStandby .., _ => keeps_execSpareStandby ..
  | .spareFailed .., _ => keeps_execSpareFailed ..
  | .laserSwitchover .., _ => keeps_execLaserSwitchover ..
  | .switchoverResume .., _ => keeps_execSwitchoverResume ..
  | .ringSlip .., _ => keeps_execRingSlip ..
  | .ringRelock .., _ => keeps_execRingRelock ..
  | .ringFail .., _ => keeps_execRingFail ..
  | .spareWlBad .., _ => keeps_execSpareWlBad ..
  | .lossOfSignal .., _ => keeps_execLossOfSignal ..
  | .signalReturn .., _ => keeps_execSignalReturn ..
  | .adaptationFreeze .., _ => keeps_execAdaptationFreeze ..
  | .eyeScanPass .., _ => keeps_execEyeScanPass ..
  | .siteAcquireLaserLocked .., _ => keeps_execSiteAcquireLaserLocked ..
  | .siteAcquireRings .., _ => keeps_execSiteAcquireRings ..
  | .receiversAdapted .., _ => keeps_execReceiversAdapted ..
  | .blockLockLoss .., _ => keeps_execBlockLockLoss ..
  | .blockLock .., _ => keeps_execBlockLock ..
  | .fabricPacketReceive .., _ => keeps_execFabricPacketReceive ..
  | .fabricPacketSend .., _ => keeps_execFabricPacketSend ..
  | .ack .., _ => keeps_execAck ..
  | .rxstat .., _ => keeps_execRxstat ..
  | .align p st b c, s => keeps_execAlign p st b c s
  | .fabricAckTimer .., _ => keeps_execFabricAckTimer ..
  | .fabricReplayTimeout .., _ => keeps_execFabricReplayTimeout ..
  | .linkDown .., _ => keeps_execLinkDown ..
  | .fabricRetrainAttempt .., _ => keeps_execFabricRetrainAttempt ..
  | .helloA .., _ => keeps_execHelloA ..
  | .helloB .., _ => keeps_execHelloB ..
  | .mode .., _ => keeps_execMode ..
  | .subst .., _ => keeps_execSubst ..
  | .stripe .., _ => keeps_execStripe ..
  | .mon .., _ => keeps_execMon ..
  | .test .., _ => keeps_execTest ..
  | .linkExchangeRepeat .., _ => keeps_execLinkExchangeRepeat ..
  | .time .., _ => keeps_execTime ..
  | .timeBlockSend .., _ => keeps_execTimeBlockSend ..
  | .streamErrorRatioExceeded .., _ => keeps_execStreamErrorRatioExceeded ..
  | .crestEpochPulse, _ => keeps_execCrestEpochPulse _
  | .crestReportTimer .., _ => keeps_execCrestReportTimer ..
  | .parentPortLost, _ => keeps_execParentPortLost _
  | .traceRecordWrite .., _ => keeps_execTraceRecordWrite ..
  | .msixModerationTimer .., _ => keeps_execMsixModerationTimer ..
  | .functionLevelReset .., _ => keeps_execFunctionLevelReset ..
  | .pcieLinkTraining .., _ => keeps_execPcieLinkTraining ..
  | .eqCoefficientRequest .., _ => keeps_execEqCoefficientRequest ..
  | .hostEyeScanPass .., _ => keeps_execHostEyeScanPass ..
  | .loopbackEntry, _ => keeps_execLoopbackEntry _
  | .loopbackExit .., _ => keeps_execLoopbackExit ..
  | .hostLinkDown .., _ => keeps_execHostLinkDown ..
  | .powerOn, _ => keeps_execPowerOn _
  | .railsComplete, _ => keeps_execRailsComplete _
  | .inputMonitorSample .., _ => keeps_execInputMonitorSample ..
  | .overcurrent, _ => keeps_execOvercurrent _
  | .slowRelease, _ => keeps_execSlowRelease _
  | .bor, _ => keeps_execBor _
  | .ovs, _ => keeps_execOvs _
  | .phaseLost, _ => keeps_execPhaseLost _
  | .clockGoodLoss .., _ => keeps_execClockGoodLoss ..
  | .coreIdleSleep .., _ => keeps_execCoreIdleSleep ..
  | .coreWakeComplete .., _ => keeps_execCoreWakeComplete ..
  | .droopStretch .., _ => keeps_execDroopStretch ..
  | .droopRecover .., _ => keeps_execDroopRecover ..
  | .powerCapStep .., _ => keeps_execPowerCapStep ..
  | .temperatureSample .., _ => keeps_execTemperatureSample ..
  | .localThrottleStep .., _ => keeps_execLocalThrottleStep ..
  | .localThrottleReleaseStep .., _ => keeps_execLocalThrottleReleaseStep ..
  | .trip .., _ => keeps_execTrip ..
  | .thermalControlStep .., _ => keeps_execThermalControlStep ..
  | .stackedBandChange .., _ => keeps_execStackedBandChange ..
  | .mrst, _ => keeps_execMrst _
  | .mrstLong, _ => keeps_execMrstLong _
  | .perst, _ => keeps_execPerst _
  | .perstDeassert, _ => keeps_execPerstDeassert _
  | .wdog, _ => keeps_execWdog _
  | .crit .., _ => keeps_execCrit ..
  | .blockResetRelease .., _ => keeps_execBlockResetRelease ..
  | .winnowerLoadComplete .., _ => keeps_execWinnowerLoadComplete ..
  | .romBoot .., _ => keeps_execRomBoot ..
  | .firmwareReady, _ => keeps_execFirmwareReady _
  | .faultSourceOccurrence .., _ => keeps_execFaultSourceOccurrence ..
  | .stolonFaultPoll .., _ => keeps_execStolonFaultPoll ..
  | .faultNPulseEnd, _ => keeps_execFaultNPulseEnd _
  | .localSafeState .., _ => keeps_execLocalSafeState ..
  | .safeAutoReset, _ => keeps_execSafeAutoReset _
  | .intervalClose .., _ => keeps_execIntervalClose ..
  | .powerUp, _ => keeps_execPowerUp _
  | .cairnSupplyLoss .., _ => keeps_execCairnSupplyLoss ..
  | .coverOpen, _ => keeps_execCoverOpen _
  | .magnetic, _ => keeps_execMagnetic _
  | .cairnCrestValue .., _ => keeps_execCairnCrestValue ..
  | .crestLost, _ => keeps_execCrestLost _
  | .calibrationComplete .., _ => keeps_execCalibrationComplete ..
  | .extest .., _ => keeps_execExtest ..
  | .idcode, _ => keeps_execIdcode _
  | .bypass, _ => keeps_execBypass _
  | .samplePreload .., _ => keeps_execSamplePreload ..
  | .privateTestInstruction .., _ => keeps_execPrivateTestInstruction ..
  | .trstN, _ => keeps_execTrstN _
  | .smbusIdentify .., _ => keeps_execSmbusIdentify ..
  | .smbusStatus .., _ => keeps_execSmbusStatus ..
  | .smbusTelemetry .., _ => keeps_execSmbusTelemetry ..
  | .smbusFaults .., _ => keeps_execSmbusFaults ..
  | .cairnSelect .., _ => keeps_execCairnSelect ..
  | .cairnRead .., _ => keeps_execCairnRead ..
  | .cairnLast .., _ => keeps_execCairnLast ..
  | .smbusAlertResponse .., _ => keeps_execSmbusAlertResponse ..
  | .smbusClockLowTimeout, _ => keeps_execSmbusClockLowTimeout _
  | .pcieConfigurationRequest .., _ => keeps_execPcieConfigurationRequest ..
  | .lossOfSignal1Ms .., _ => keeps_execLossOfSignal1Ms ..

theorem exec_next_keeps (i : Instr) (s : State) : ∃ t, exec i s = .next t ∧ Keeps s t := by
  obtain ⟨t, ht⟩ := exec_next i s
  have hkeeps := keeps_exec i s
  rw [ht] at hkeeps
  exact ⟨t, ht, hkeeps⟩

/-! ## Every step -/

theorem keeps_idle (s : State) : Keeps s (idle s) := Keeps.ite (keeps_tick s) (Keeps.refl s)

theorem step_next_keeps (s : State) :
    ∃ t, step s = .next t ∧ t.pending = s.pending.tail ∧ Keeps { s with pending := s.pending.tail } t := by
  cases hp : s.pending with
  | nil =>
    have hs : { s with pending := [] } = s := by rw [← hp]
    have hk := keeps_idle s
    refine ⟨idle s, step_empty hp, hk.1.trans hp, ?_⟩
    rw [List.tail_nil, hs]
    exact hk
  | cons i q =>
    have hs : { s with pending := i :: q } = s := by rw [← hp]
    obtain ⟨t, ht, hk⟩ := exec_next_keeps i { s with pending := q }
    exact ⟨t, by rw [← hs, step_front, ht], hk.1, hk⟩

/-- Settles O58: each command answers a next state with `Keeps` (`keeps_exec`), and a step is one command or one tick of the Crest. -/
theorem everyStepKeeps : Obligations.EveryStepKeeps := ⟨exec_next_keeps, step_next_keeps⟩

end Sys2Proof.Machine
end

section
/-! What the records of faults and traces, the safe state (R189 to R191, R336 to R338, R427 to R435) and replies to commands (R353, R354, R364,
R368) leave alone, stated once for whatever is observed of a state. -/

namespace Sys2Proof.Machine

/-- The registers that fault records, traces, the safe state and the Col die's fault blocks write. -/
def RecordReg (a : Nat) : Prop :=
  a ∈ [rTRC_STATUS, rFLT_FREC_STATUS, rFLT_SAFE_INFO, rFLT_SAFE_T, rFLT_CTRL] ∨ 0x3F00000 ≤ a ∧ a < 0x4000000

/-- An observation that sees none of those registers, nor the rest of what records and replies write. -/
structure Aloof {β : Type} (g : State → β) : Prop where
  reg : ∀ (s : State) (a : Nat) (v : Word64), RecordReg a → g (regPut a v s) = g s
  rest : ∀ (s : State) outputs ports fseq frecs trecs trcSeq trcLost recLost qps fns waits pulse,
    g { s with outputs := outputs, ports := ports, fseq := fseq, frecs := frecs, trecs := trecs, trcSeq := trcSeq, trcLost := trcLost,
               recLost := recLost, qps := qps, fns := fns, waits := waits, pulse := pulse } = g s

theorem aloof_pwr : Aloof State.pwr := ⟨fun _ _ _ _ => rfl, fun _ _ _ _ _ _ _ _ _ _ _ _ _ => rfl⟩
theorem aloof_dies : Aloof State.dies := ⟨fun _ _ _ _ => rfl, fun _ _ _ _ _ _ _ _ _ _ _ _ _ => rfl⟩
theorem aloof_porgers : Aloof State.porgers := ⟨fun _ _ _ _ => rfl, fun _ _ _ _ _ _ _ _ _ _ _ _ _ => rfl⟩
theorem aloof_regVal {a : Nat} (ha : ¬RecordReg a) : Aloof (regVal · a) :=
  ⟨fun _ _ _ hb => regVal_regPut_ne _ _ _ _ (by rintro rfl; exact ha hb), fun _ _ _ _ _ _ _ _ _ _ _ _ _ => rfl⟩

namespace Aloof

variable {β : Type} {g : State → β} (hg : Aloof g)
include hg

theorem fset {a : Nat} (ha : RecordReg a) (f : Fld) (v : Nat) (s : State) : g (fset a f v s) = g s := hg.reg _ _ _ ha

theorem emit (o : Out) (s : State) : g (emit o s) = g s := hg.rest s ..

omit hg in
theorem ite {c : Prop} [Decidable c] {s t u : State} (ht : g t = g s) (hu : g u = g s) : g (if c then t else u) = g s := by
  split <;> assumption

/-! ## Traces and fault records -/

theorem trace (src unit type tenant t : Nat) (payload : List Byte) (s : State) : g (trace src unit type tenant t payload s) = g s := by
  unfold Machine.trace
  refine (foldl_same _ g (fun s p => ?_) _ _).trans (hg.rest s ..)
  dsimp only
  split
  · split
    · exact hg.rest s ..
    · exact (hg.fset (.inl (by decide)) ..).trans (hg.rest s ..)
  · rfl

theorem faultRec (f : FaultInfo) (s : State) : g (faultRec f s) = g s := by
  unfold Machine.faultRec
  refine (hg.trace ..).trans ?_
  split
  · exact hg.rest s ..
  · exact (hg.fset (.inl (by decide)) ..).trans (hg.rest s ..)

/-! ## The safe state and the sources of the Col die -/

theorem showFault (s : State) : g (showFault s) = g s := ite rfl (hg.emit ..)

theorem enterSafe (source : Nat) (s : State) : g (enterSafe source s) = g s := by
  have hcause : g (if fget s rFLT_SAFE_INFO fFLT_SAFE_INFO_VALID = 0 then
      regPut rFLT_SAFE_T (BitVec.ofNat 64 s.crest)
        (Machine.fset rFLT_SAFE_INFO fFLT_SAFE_INFO_VALID 1 (Machine.fset rFLT_SAFE_INFO fFLT_SAFE_INFO_SOURCE source s))
      else s) = g s :=
    ite ((hg.reg _ _ _ (.inl (by decide))).trans ((hg.fset (.inl (by decide)) ..).trans (hg.fset (.inl (by decide)) ..))) rfl
  have hblank (t : State) : g (if isSafe t then t else
      (List.range (nSites t)).foldl (fun s k => Machine.emit (.sideband k 6 []) s) t) = g t :=
    ite rfl (foldl_same _ g (fun s k => hg.emit ..) _ _)
  exact (hg.showFault _).trans ((hg.rest (Machine.fset rFLT_CTRL fFLT_CTRL_SAFE 1 _) ..).trans
    ((hg.fset (.inl (by decide)) ..).trans ((hblank _).trans hcause)))

/-- No source of the Col die fences a die. -/
theorem occur_col (b src core : Nat) (inj : Bool) (s : State) : g (occur 0 b src core inj s) = g s := by
  unfold occur
  split
  · rfl
  next h =>
    have hb : b < 2 := by
      by_contra hb
      rw [srcInfo, if_pos rfl, if_neg (by omega), if_neg (by omega)] at h
      cases h
    have hreg {off : Nat} (hlo : 0x3F00000 ≤ off) (hhi : off < 0x3F10000) : RecordReg (unitA 0 off) := .inr (by unfold unitA; omega)
    have hnoted (t : State) : g (fcount (rFLT_COUNT 0 b) fFLT_COUNT_COUNT 1 (fsetBit (rFLT_STATUS 0 b) fFLT_STATUS_STICKY src true t)) = g t :=
      (hg.fset (hreg (by omega) (by omega)) ..).trans (hg.fset (hreg (by omega) (by omega)) ..)
    have hfirst (now : Nat) (t : State) : g (regPut (rFLT_FIRST_T 0 b) (BitVec.ofNat 64 now)
        (Machine.fset (rFLT_FIRST 0 b) fFLT_FIRST_VALID 1 (Machine.fset (rFLT_FIRST 0 b) fFLT_FIRST_SRC src t))) = g t :=
      (hg.reg _ _ _ (hreg (by omega) (by omega))).trans
        ((hg.fset (hreg (by omega) (by omega)) ..).trans (hg.fset (hreg (by omega) (by omega)) ..))
    have hreport (t : State) {now detail : Nat} : g (report 0 now core detail t) = g t := hg.faultRec ..
    dsimp only
    simp only [if_true, apply_ite g, hg.enterSafe, hreport, hfirst, hnoted, ite_self]

theorem occurs_col (b src : Nat) (s : State) : g (occurs 0 b src s) = g s := hg.occur_col ..

/-- A bit of MGT_TOPOLOGY that changes raises a source of the Col die. -/
theorem topoSet (f : Fld) (i : Nat) (b : Bool) (s : State) (hset : g (fsetBit rMGT_TOPOLOGY f i b s) = g s) :
    g (topoSet f i b s) = g s := ite rfl ((hg.occurs_col ..).trans hset)

/-! ## Replies -/

theorem signalVector (f v : Nat) (s : State) : g (signalVector f v s) = g s := ite rfl (ite (hg.rest s ..) (hg.emit ..))

theorem sendBlock (p : Nat) (bytes : List Byte) (s : State) : g (sendBlock p bytes s) = g s :=
  ite ((hg.emit ..).trans ((hg.emit ..).trans ((hg.rest _ ..).trans (hg.emit ..)))) ((hg.emit ..).trans ((hg.rest _ ..).trans (hg.emit ..)))

theorem laneConsume (p l : Nat) (s : State) : g (laneConsume p l s) = g s := by
  unfold Machine.laneConsume
  split
  · rfl
  · exact ite ((hg.sendBlock ..).trans ((hg.rest _ ..).trans (hg.rest s ..))) (hg.rest s ..)

theorem routeOut (port : Nat) (p : Pkt) (s : State) : g (routeOut port p s) = g s := by
  unfold Machine.routeOut
  split
  · exact hg.rest s ..
  · exact hg.rest s ..
  · exact hg.faultRec ..

theorem respond (port l : Nat) (rsp : Pkt) (s : State) : g (respond port l rsp s) = g s := by
  unfold Machine.respond
  split
  · rfl
  · exact (hg.laneConsume ..).trans ((hg.routeOut ..).trans (hg.rest s ..))

theorem sendReply (path : CmdPath) (discard : Bool) (op tag tAccept tDone status result daddr dlen : Nat) (data : List Byte) (s : State) :
    g (sendReply path discard op tag tAccept tDone status result daddr dlen data s) = g s := by
  cases path with
  | qp q =>
    have hdata : g (if data.take dlen = [] then s else Machine.emit (.hostWrite daddr (data.take dlen)) s) = g s := ite rfl (hg.emit ..)
    exact ite rfl (ite ((hg.signalVector ..).trans ((hg.rest _ ..).trans ((hg.emit ..).trans hdata)))
      ((hg.rest _ ..).trans ((hg.emit ..).trans hdata)))
  | fabric port src reqId t =>
    unfold Machine.sendReply
    dsimp only
    split
    · rfl
    · split
      · rfl
      · exact hg.respond ..

theorem answerWait (w : Wait) (status result tDone : Nat) (data : List Byte) (s : State) :
    g (answerWait w status result tDone data s) = g s := (hg.sendReply ..).trans (hg.rest s ..)

theorem answerLaser (k status : Nat) (s : State) : g (answerLaser k status s) = g s :=
  foldl_same _ g (fun _ _ => hg.answerWait ..) _ _

end Aloof

end Sys2Proof.Machine
end

section
/-! Updates of registers alone, and the clocks of a compute die's cores (R370, R376). -/

namespace Sys2Proof.Machine

/-! ## Folds of which one step moves what is observed -/

/-- Where of all elements only `x` moves an observation, and does so by `h`, a list that names `x` at most once moves it by
`h` or not at all. -/
theorem foldl_once {σ α β : Type} [DecidableEq α] {f : σ → α → σ} {g : σ → β} {h : β → β} {I : σ → Prop} {l : List α} {s : σ} (x : α)
    (hnodup : l.Nodup) (hs : I s) (hkeeps : ∀ t y, I t → I (f t y)) (hset : ∀ t, I t → g (f t x) = h (g t))
    (hother : ∀ t y, y ≠ x → I t → g (f t y) = g t) : g (l.foldl f s) = if x ∈ l then h (g s) else g s := by
  induction l generalizing s with
  | nil => rfl
  | cons y r ih =>
    obtain ⟨hy, hr⟩ := List.nodup_cons.1 hnodup
    rw [List.foldl_cons, ih hr (hkeeps s y hs)]
    by_cases hyx : y = x
    · subst hyx
      rw [if_neg hy, if_pos List.mem_cons_self, hset s hs]
    · have hmem : x ∈ y :: r ↔ x ∈ r := by simp [Ne.symm hyx]
      simp only [hmem, hother s y hyx hs]

/-! ## Updates of registers alone -/

/-- Only registers may differ. -/
def RegsOnly (s t : State) : Prop := t = { s with regs := t.regs }

namespace RegsOnly

theorem refl (s : State) : RegsOnly s s := rfl

theorem trans {s t u : State} (h : RegsOnly s t) (h' : RegsOnly t u) : RegsOnly s u := by
  unfold RegsOnly at h h' ⊢
  rw [h] at h'
  exact h'

theorem regPut (a : Nat) (v : Word64) (s : State) : RegsOnly s (regPut a v s) := rfl
theorem fset (a : Nat) (f : Fld) (v : Nat) (s : State) : RegsOnly s (fset a f v s) := rfl
theorem fsetBit (a : Nat) (f : Fld) (i : Nat) (b : Bool) (s : State) : RegsOnly s (fsetBit a f i b s) := rfl

theorem ite {c : Prop} [Decidable c] {s t u : State} (ht : RegsOnly s t) (hu : RegsOnly s u) : RegsOnly s (if c then t else u) := by
  split <;> assumption

theorem foldl {α : Type} {f : State → α → State} (h : ∀ t x, RegsOnly t (f t x)) (l : List α) (s : State) : RegsOnly s (l.foldl f s) :=
  List.foldlRecOn l f (refl s) (fun t ht x _ => ht.trans (h t x))

/-- What looks at no register sees no difference. -/
theorem same {β : Type} {s t : State} (h : RegsOnly s t) (g : State → β) (hg : ∀ r, g { s with regs := r } = g s) : g t = g s := by
  unfold RegsOnly at h
  rw [h, hg]

end RegsOnly

/-! ## Core clocks -/

theorem regsOnly_coreClock (d c : Nat) (s : State) : RegsOnly s (coreClock d c s) := RegsOnly.ite rfl rfl

theorem regsOnly_dieClocks (d : Nat) (s : State) : RegsOnly s (dieClocks d s) :=
  (RegsOnly.foldl (fun s c => regsOnly_coreClock d c s) _ _).trans rfl

theorem regsOnly_allClocks (s : State) : RegsOnly s (allClocks s) := RegsOnly.foldl (fun s d => regsOnly_dieClocks d s) _ _

/-- No register of the Col die's window lies in the window of another unit (R8). -/
theorem col_ne_unit {off u x : Nat} (hoff : off < 0x4000000) (hu : 1 ≤ u) : colA off ≠ unitA u x := by
  unfold colA unitA
  omega

/-- A register that holds none of a die's core clocks. -/
def NoClock (d a : Nat) : Prop := ∀ c < 16, a ≠ rCLK_CORE_FREQ d c

theorem noClock_col (d : Nat) {off : Nat} (hoff : off < 0x4000000) : NoClock d (colA off) := fun _ _ => col_ne_unit hoff (by omega)

theorem noClock_status (d e : Nat) : NoClock d (rTHM_CD_STATUS e) := fun c hc => by
  simp only [rTHM_CD_STATUS, rCLK_CORE_FREQ, cdA, unitA]
  omega

section
variable {d : Nat} {s : State}

theorem regVal_coreClock_ne {a c : Nat} (h : a ≠ rCLK_CORE_FREQ d c) : regVal (coreClock d c s) a = regVal s a := by
  unfold coreClock
  dsimp only
  split
  · rw [regVal_fset_ne _ _ _ _ _ h, regVal_fset_ne _ _ _ _ _ h]
  · rfl

/-- The clock of every core of a die, before its voltage follows. -/
def coreClocks (d : Nat) (s : State) : State := (List.range 16).foldl (fun s c => coreClock d c s) s

theorem dieClocks_eq (d : Nat) (s : State) :
    dieClocks d s = fset (rTHM_CD_STATUS d) fTHM_CD_STATUS_VCORE (vcoreFor (dieLimit s d)) (coreClocks d s) := rfl

theorem regVal_coreClocks_ne {a : Nat} (h : NoClock d a) : regVal (coreClocks d s) a = regVal s a :=
  List.foldlRecOn (motive := fun t => regVal t a = regVal s a) _ _ rfl
    (fun _ ht c hc => (regVal_coreClock_ne (h c (List.mem_range.1 hc))).trans ht)

theorem fget_coreClocks_ne {a : Nat} (h : NoClock d a) (f : Fld) : fget (coreClocks d s) a f = fget s a f := by
  rw [fget, regVal_coreClocks_ne h, fget]

theorem dieLimit_of_regs {t : State} (hp : regVal t rPWR_PROFILE = regVal s rPWR_PROFILE)
    (hd : regVal t (rTHM_CD_STATUS d) = regVal s (rTHM_CD_STATUS d)) : dieLimit t d = dieLimit s d := by
  simp only [dieLimit, fget, hp, hd]

theorem regVal_dieClocks_ne {a : Nat} (hd : a ≠ rTHM_CD_STATUS d) (h : NoClock d a) : regVal (dieClocks d s) a = regVal s a :=
  (regVal_fset_ne _ _ _ _ _ hd).trans (regVal_coreClocks_ne h)

theorem fget_dieClocks_ne {a : Nat} (hd : a ≠ rTHM_CD_STATUS d) (h : NoClock d a) (f : Fld) : fget (dieClocks d s) a f = fget s a f := by
  rw [fget, regVal_dieClocks_ne hd h, fget]

/-- Of the die's own status only the voltage follows. -/
theorem fget_dieClocks_status {f : Fld} (hf : 2 ≤ f.lo) : fget (dieClocks d s) (rTHM_CD_STATUS d) f = fget s (rTHM_CD_STATUS d) f :=
  (fget_fset_apart _ fTHM_CD_STATUS_VCORE f _ _ (by decide) (.inr hf)).trans (fget_coreClocks_ne (noClock_status d d) f)

theorem vcoreFor_lt (f : Nat) : vcoreFor f < 4 := by
  unfold vcoreFor
  split
  · decide
  · split <;> decide

theorem fget_dieClocks_vcore : fget (dieClocks d s) (rTHM_CD_STATUS d) fTHM_CD_STATUS_VCORE = vcoreFor (dieLimit s d) := by
  rw [dieClocks_eq, fget_fset_same _ _ _ _ (by decide)]
  exact Nat.mod_eq_of_lt (vcoreFor_lt _)

theorem dieLimit_lt : dieLimit s d < 64 := (Nat.min_le_left ..).trans_lt ((Nat.min_le_left ..).trans_lt (fieldOf_lt ..))

theorem coreClock_on {c : Nat} (hon : fget s (rCLK_CORE_FREQ d c) fCLK_CORE_FREQ_ON = 1) :
    coreClock d c s = fset (rCLK_CORE_FREQ d c) fCLK_CORE_FREQ_HALVED (fget s rPWR_STATUS fPWR_STATUS_SLOW)
      (fset (rCLK_CORE_FREQ d c) fCLK_CORE_FREQ_MHZ (50 * dieLimit s d) s) := if_pos hon

/-- A clock as R370 gives it: the MHz of a core of a die, and whether it is halved. -/
def clockOf (d c : Nat) (s : State) : Nat × Nat :=
  (fget s (rCLK_CORE_FREQ d c) fCLK_CORE_FREQ_MHZ, fget s (rCLK_CORE_FREQ d c) fCLK_CORE_FREQ_HALVED)

theorem clockOf_coreClock {c : Nat} (hon : fget s (rCLK_CORE_FREQ d c) fCLK_CORE_FREQ_ON = 1) :
    clockOf d c (coreClock d c s) = (50 * dieLimit s d, fget s rPWR_STATUS fPWR_STATUS_SLOW) := by
  have hmhz : 50 * dieLimit s d < 2 ^ 12 := by have := dieLimit_lt (d := d) (s := s); omega
  rw [coreClock_on hon, clockOf, fget_fset_same _ _ _ _ (by decide), fget_fset_apart _ _ _ _ _ (by decide) (by decide),
    fget_fset_same _ _ _ _ (by decide)]
  exact congrArg₂ _ (Nat.mod_eq_of_lt hmhz) (Nat.mod_eq_of_lt (fieldOf_lt ..))

theorem fget_coreClock_on (c e : Nat) : fget (coreClock d e s) (rCLK_CORE_FREQ d c) fCLK_CORE_FREQ_ON =
    fget s (rCLK_CORE_FREQ d c) fCLK_CORE_FREQ_ON := by
  by_cases hce : rCLK_CORE_FREQ d c = rCLK_CORE_FREQ d e
  · unfold coreClock
    dsimp only
    split
    · rw [hce, fget_fset_apart _ _ _ _ _ (by decide) (by decide), fget_fset_apart _ _ _ _ _ (by decide) (by decide)]
    · rfl
  · rw [fget, regVal_coreClock_ne hce, fget]

/-- A core whose PLL runs takes its die's limit, halved where the slow signal stands (R370). -/
theorem clockOf_dieClocks {c : Nat} (hc : c < 16) (hon : fget s (rCLK_CORE_FREQ d c) fCLK_CORE_FREQ_ON = 1) :
    clockOf d c (dieClocks d s) = (50 * dieLimit s d, fget s rPWR_STATUS fPWR_STATUS_SLOW) := by
  have hvolt : clockOf d c (dieClocks d s) = clockOf d c (coreClocks d s) := by
    rw [dieClocks_eq, clockOf, fget_fset_reg _ _ _ _ _ _ (noClock_status d d c hc).symm,
      fget_fset_reg _ _ _ _ _ _ (noClock_status d d c hc).symm, clockOf]
  rw [hvolt, coreClocks]
  refine (foldl_once (g := clockOf d c) (h := fun _ => (50 * dieLimit s d, fget s rPWR_STATUS fPWR_STATUS_SLOW))
    (I := fun t => fget t (rCLK_CORE_FREQ d c) fCLK_CORE_FREQ_ON = 1 ∧ regVal t rPWR_PROFILE = regVal s rPWR_PROFILE ∧
      regVal t (rTHM_CD_STATUS d) = regVal s (rTHM_CD_STATUS d) ∧ regVal t rPWR_STATUS = regVal s rPWR_STATUS)
    c List.nodup_range ⟨hon, rfl, rfl, rfl⟩ ?keeps ?set ?other).trans (if_pos (List.mem_range.2 hc))
  case keeps =>
    rintro t e ⟨hont, hp, hd, hs⟩
    have hstatus : rTHM_CD_STATUS d ≠ rCLK_CORE_FREQ d e := by
      simp only [rTHM_CD_STATUS, rCLK_CORE_FREQ, cdA, unitA]
      omega
    refine ⟨(fget_coreClock_on c e).trans hont, (regVal_coreClock_ne ?_).trans hp, (regVal_coreClock_ne hstatus).trans hd,
      (regVal_coreClock_ne ?_).trans hs⟩ <;> exact col_ne_unit (by decide) (by omega)
  case set =>
    rintro t ⟨hont, hp, hd, hs⟩
    rw [clockOf_coreClock hont, dieLimit_of_regs hp hd, fget, hs, fget]
  case other =>
    rintro t e he -
    have hne : rCLK_CORE_FREQ d c ≠ rCLK_CORE_FREQ d e := by
      simp only [rCLK_CORE_FREQ, cdA, unitA]
      omega
    simp only [clockOf, fget, regVal_coreClock_ne hne]

theorem fget_dieClocks_on {c : Nat} (hc : c < 16) : fget (dieClocks d s) (rCLK_CORE_FREQ d c) fCLK_CORE_FREQ_ON =
    fget s (rCLK_CORE_FREQ d c) fCLK_CORE_FREQ_ON :=
  (fget_fset_reg _ _ _ _ _ _ (noClock_status d d c hc).symm).trans
    (foldl_same _ (fget · (rCLK_CORE_FREQ d c) fCLK_CORE_FREQ_ON) (fun _ e => fget_coreClock_on c e) _ _)

end

end Sys2Proof.Machine
end

section
/-! The input monitor, the slow signal and the power cap (R370 to R372, R380 to R382); sleep, wake, droop and lost clocks (R375 to R379). -/

namespace Sys2Proof.Machine

/-! ## The input monitor and the slow signal -/

section
variable {s : State} {mv ma : Nat}

/-- The state once a sample has been read (R371). -/
def metered (mv ma : Nat) (s : State) : State := updPwr (fun p => { p with vin := mv, iin := ma, energy := p.energy + mv * ma }) s

/-- An episode in progress keeps the extreme of what it has read (R381). -/
def extremeKept (mv ma : Nat) (s : State) : State :=
  let ext := fget s rPWR_SAG_INFO fPWR_SAG_INFO_EXTREME
  if s.pwr.sag ∧ fget s rPWR_SAG_INFO fPWR_SAG_INFO_CAUSE = 0 then
    fset rPWR_SAG_INFO fPWR_SAG_INFO_EXTREME (min ext (mv / 10)) s
  else if s.pwr.overI ∧ fget s rPWR_SAG_INFO fPWR_SAG_INFO_CAUSE = 1 then
    fset rPWR_SAG_INFO fPWR_SAG_INFO_EXTREME (min 65535 (max ext (ma / 10))) s
  else s

/-- Without overvoltage a sample may begin a sag, and then keeps the episode's extreme. -/
theorem inputSample_eq (hhi : mv ≤ 48500) : inputSample mv ma s = extremeKept mv ma
    (if mv < 38000 ∧ !s.pwr.sag then slowStart 0 (mv / 10) (updPwr (fun p => { p with sag := true }) (metered mv ma s))
     else metered mv ma s) := by
  have hvolt : ¬(48500 < mv ∧ s.pwr.vin ≤ 48500) := by omega
  unfold inputSample
  dsimp only
  rw [if_neg (c := 48500 < mv ∧ s.pwr.vin ≤ 48500) hvolt]
  rfl

theorem inputSample_within (hlo : 38000 ≤ mv) (hhi : mv ≤ 48500) (hsag : s.pwr.sag = false) (hover : s.pwr.overI = false) :
    inputSample mv ma s = metered mv ma s := by
  have hlow : ¬mv < 38000 := by omega
  rw [inputSample_eq hhi, if_neg (fun h => hlow h.1)]
  simp [extremeKept, metered, updPwr, hsag, hover]

theorem inputSample_sagging (hlow : mv < 38000) (hsag : s.pwr.sag = true) (hcause : fget s rPWR_SAG_INFO fPWR_SAG_INFO_CAUSE = 0) :
    inputSample mv ma s = fset rPWR_SAG_INFO fPWR_SAG_INFO_EXTREME
      (min (fget s rPWR_SAG_INFO fPWR_SAG_INFO_EXTREME) (mv / 10)) (metered mv ma s) := by
  rw [inputSample_eq (by omega), if_neg (by simp [hsag])]
  exact if_pos ⟨hsag, hcause⟩

/-! An episode of sag or overcurrent begins: it writes registers and records, and leaves the monitor's own state as it was. -/

theorem aloof_sagInfo : Aloof (regVal · rPWR_SAG_INFO) := aloof_regVal (by unfold RecordReg; decide)

theorem tracePower_pwr (code : Nat) (s : State) : (tracePower code s).pwr = s.pwr := aloof_pwr.trace ..

theorem allClocks_pwr (s : State) : (allClocks s).pwr = s.pwr := (regsOnly_allClocks s).same State.pwr (fun _ => rfl)

theorem slowStart_pwr (cause extreme : Nat) (s : State) : (slowStart cause extreme s).pwr = s.pwr := by
  unfold slowStart
  simp only [allClocks_pwr, tracePower_pwr, aloof_pwr.occurs_col, fset_pwr, fcount_pwr, regPut_pwr]

theorem regVal_allClocks_col {off : Nat} (hoff : off < 0x4000000) (s : State) : regVal (allClocks s) (colA off) = regVal s (colA off) :=
  foldl_same _ (regVal · (colA off)) (fun _ d => regVal_dieClocks_ne (col_ne_unit hoff (by omega)) (noClock_col d hoff)) _ _

theorem fget_slowStart_cause (cause extreme : Nat) (s : State) :
    fget (slowStart cause extreme s) rPWR_SAG_INFO fPWR_SAG_INFO_CAUSE = cause % 2 := by
  have hinfo (t : State) : regVal (allClocks (tracePower 1 (occurs 0 0 cause t))) rPWR_SAG_INFO = regVal t rPWR_SAG_INFO :=
    (regVal_allClocks_col (by decide) _).trans ((aloof_sagInfo.trace ..).trans (aloof_sagInfo.occurs_col ..))
  have hstatus : rPWR_SAG_INFO ≠ rPWR_STATUS := by decide
  rw [slowStart, fget, hinfo, regVal_fset_ne _ _ _ _ _ hstatus, regVal_fset_ne _ _ _ _ _ hstatus, fcount, regVal_fset_ne _ _ _ _ _ hstatus]
  exact (fget_fset_apart _ fPWR_SAG_INFO_EXTREME fPWR_SAG_INFO_CAUSE _ _ (by decide) (by decide)).trans
    (fget_fset_same _ _ _ _ (by decide))

theorem inputSample_sags (hlow : mv < 38000) (hsag : s.pwr.sag = false) :
    ∃ e, inputSample mv ma s = fset rPWR_SAG_INFO fPWR_SAG_INFO_EXTREME e
      (slowStart 0 (mv / 10) (updPwr (fun p => { p with sag := true }) (metered mv ma s))) := by
  rw [inputSample_eq (by omega), if_pos (by simp [hlow, hsag])]
  exact ⟨_, if_pos ⟨by rw [slowStart_pwr]; rfl, fget_slowStart_cause ..⟩⟩

theorem overcurrentStart_begins (hover : s.pwr.overI = false) : overcurrentStart s =
    slowStart 1 (min 65535 (s.pwr.iin / 10)) (updPwr (fun p => { p with overI := true }) s) := if_neg (by simp [hover])

/-- The slow signal is withdrawn. -/
def slowReleased (s : State) : State :=
  if fget s rPWR_STATUS fPWR_STATUS_SLOW = 1 then allClocks (fset rPWR_STATUS fPWR_STATUS_SLOW 0 s) else s

theorem slowEnd_pwr (cause : Nat) (s : State) : (slowEnd cause s).pwr = s.pwr := by
  unfold slowEnd
  exact (tracePower_pwr ..).trans (by split <;> rfl)

theorem slowWithdraw_sag (hsag : s.pwr.sag = true) (hover : s.pwr.overI = false) (hvin : 39000 < s.pwr.vin) :
    slowWithdraw s = slowReleased (slowEnd 0 (updPwr (fun p => { p with sag := false }) s)) := by
  have hpwr : (slowEnd 0 (updPwr (fun p => { p with sag := false }) s)).pwr = { s.pwr with sag := false } := slowEnd_pwr ..
  simp [slowWithdraw, slowReleased, hsag, hvin, hpwr, hover]

theorem slowWithdraw_over (hsag : s.pwr.sag = false) (hover : s.pwr.overI = true)
    (hiin : s.pwr.iin < if s.fuses.a12 then 135000 else 68000) :
    slowWithdraw s = slowReleased (slowEnd 1 (updPwr (fun p => { p with overI := false }) s)) := by
  have hpwr : (slowEnd 1 (updPwr (fun p => { p with overI := false }) s)).pwr = { s.pwr with overI := false } := slowEnd_pwr ..
  simp [slowWithdraw, slowReleased, hsag, hover, hiin, hpwr]

theorem slowWithdraw_sagging (hsag : s.pwr.sag = true) (hover : s.pwr.overI = false) (hvin : s.pwr.vin ≤ 39000) : slowWithdraw s = s := by
  simp [slowWithdraw, hsag, hover, Nat.not_lt.2 hvin]

end

/-! ## The power cap (R372, R382) -/

/-- The power limit of a compute die, in units of 50 MHz. -/
def powerLimit (s : State) (d : Nat) : Nat := fget s (rTHM_CD_STATUS d) fTHM_CD_STATUS_POWER_LIMIT

def setPower (d v : Nat) (s : State) : State := dieClocks d (fset (rTHM_CD_STATUS d) fTHM_CD_STATUS_POWER_LIMIT v s)

theorem status_ne {d e : Nat} (h : d ≠ e) : rTHM_CD_STATUS d ≠ rTHM_CD_STATUS e := by
  simp only [rTHM_CD_STATUS, cdA, unitA]
  omega

theorem regsOnly_setPower (d v : Nat) (s : State) : RegsOnly s (setPower d v s) := (RegsOnly.fset ..).trans (regsOnly_dieClocks ..)

theorem powerLimit_setPower_same (d v : Nat) (s : State) : powerLimit (setPower d v s) d = v % 64 :=
  (fget_dieClocks_status (by decide)).trans (fget_fset_same _ _ _ _ (by decide))

theorem powerLimit_setPower_ne {d e : Nat} (h : d ≠ e) (v : Nat) (s : State) : powerLimit (setPower e v s) d = powerLimit s d :=
  (fget_dieClocks_ne (status_ne h) (noClock_status e d) _).trans (fget_fset_reg _ _ _ _ _ _ (status_ne h))

theorem fget_setPower_col {off : Nat} (hoff : off < 0x4000000) (d v : Nat) (f : Fld) (s : State) :
    fget (setPower d v s) (colA off) f = fget s (colA off) f :=
  (fget_dieClocks_ne (col_ne_unit hoff (by omega)) (noClock_col d hoff) _).trans
    (fget_fset_reg _ _ _ _ _ _ (col_ne_unit hoff (by omega)))

theorem powerLimit_lt (s : State) (d : Nat) : powerLimit s d < 64 := fieldOf_lt ..

/-- The state once the step has shown the cap (R372). -/
def capShown (meanMw : Nat) (s : State) : State :=
  fset rPWR_PROFILE fPWR_PROFILE_CAP_W (capNow s) (updPwr (fun p => { p with mean := meanMw }) s)

/-- Above the cap, with every bound die at its lowest limit. -/
def capStuck (meanMw : Nat) (s : State) : Bool :=
  decide (1000 * capNow s < meanMw) && !(boundDies s).isEmpty && (boundDies s).all (fun d => powerLimit s d ≤ 8)

/-- What a step of the power manager does by the cap and the bound dies of `s`, in the state `v` that has noted whether the cap can be
reached. -/
def capMoved (meanMw : Nat) (s v : State) : State :=
  if 1000 * capNow s < meanMw then (boundDies s).foldl (fun v d => setPower d (max 8 (powerLimit v d - 1)) v) v
  else if 100 * meanMw < 97 * (1000 * capNow s) then
    (boundDies s).foldl (fun v d => if powerLimit v d < fget v rPWR_PROFILE fPWR_PROFILE_CLK_CEIL then
      setPower d (powerLimit v d + 1) v else v) v
  else v

section
variable {s : State} {meanMw : Nat}

theorem fget_capShown_profile {f : Fld} (hf : 13 ≤ f.lo) : fget (capShown meanMw s) rPWR_PROFILE f = fget s rPWR_PROFILE f :=
  fget_fset_apart _ fPWR_PROFILE_CAP_W f _ _ (by decide) (.inr hf)

theorem fget_capShown_ne {a : Nat} (ha : a ≠ rPWR_PROFILE) (f : Fld) : fget (capShown meanMw s) a f = fget s a f :=
  fget_fset_reg _ _ _ _ _ _ ha

theorem powerLimit_capShown (d : Nat) : powerLimit (capShown meanMw s) d = powerLimit s d :=
  fget_capShown_ne (col_ne_unit (by decide) (by omega)).symm _

theorem capNow_capShown : capNow (capShown meanMw s) = capNow s := by
  rw [capNow, fget_capShown_profile (by decide), fget_capShown_profile (by decide), fget_capShown_ne (by decide)]
  rfl

theorem boundDies_capShown : boundDies (capShown meanMw s) = boundDies s := by
  have hcore (c : Nat) : coreState (capShown meanMw s) c = coreState s c := fget_capShown_ne (col_ne_unit (by decide) (by omega)).symm _
  simp only [boundDies, hcore]
  rfl

theorem capStuck_capShown : capStuck meanMw (capShown meanMw s) = capStuck meanMw s := by
  simp only [capStuck, capNow_capShown, boundDies_capShown, powerLimit_capShown]

theorem capMoved_capShown (v : State) : capMoved meanMw (capShown meanMw s) v = capMoved meanMw s v := by
  simp only [capMoved, capNow_capShown, boundDies_capShown]

theorem capStep_eq : capStep meanMw s = capMoved meanMw s (updPwr (fun p => { p with unreach := capStuck meanMw s })
    (if capStuck meanMw s ∧ !s.pwr.unreach then occurs 0 0 4 (fset rPWR_STATUS fPWR_STATUS_CAP_UNREACHABLE 1 (capShown meanMw s))
     else capShown meanMw s)) := by
  rw [← capStuck_capShown, ← capMoved_capShown]
  rfl

/-- The state once the step has noted whether the cap can be reached. -/
def capNoted (meanMw : Nat) (unreach : Bool) (s : State) : State := updPwr (fun p => { p with unreach := unreach }) (capShown meanMw s)

theorem powerLimit_capNoted (unreach : Bool) (d : Nat) : powerLimit (capNoted meanMw unreach s) d = powerLimit s d := powerLimit_capShown d

/-- A cap that is met, or that some die can still give way to. -/
theorem capStep_free (h : capStuck meanMw s = false) :
    capStep meanMw s = capMoved meanMw s (capNoted meanMw false s) := by
  rw [capStep_eq, h, if_neg (by simp), capNoted]

/-- The limits of the bound dies fall by a step each, no lower than 400 MHz. -/
theorem powerLimit_lowered {l : List Nat} (hl : l.Nodup) (v : State) (d : Nat) :
    powerLimit (l.foldl (fun v d => setPower d (max 8 (powerLimit v d - 1)) v) v) d =
      if d ∈ l then max 8 (powerLimit v d - 1) else powerLimit v d := by
  refine foldl_once (g := (powerLimit · d)) (h := fun x => max 8 (x - 1)) (I := fun _ => True) d hl trivial (fun _ _ _ => trivial)
    (fun t _ => (powerLimit_setPower_same ..).trans (Nat.mod_eq_of_lt ?_)) (fun t e he _ => powerLimit_setPower_ne (Ne.symm he) _ _)
  have := powerLimit_lt t d
  omega

/-- Those below the profile's ceiling rise by a step. -/
theorem powerLimit_raised {l : List Nat} (hl : l.Nodup) (v : State) (d : Nat) :
    powerLimit (l.foldl (fun v d => if powerLimit v d < fget v rPWR_PROFILE fPWR_PROFILE_CLK_CEIL then
      setPower d (powerLimit v d + 1) v else v) v) d =
      if d ∈ l then (if powerLimit v d < fget v rPWR_PROFILE fPWR_PROFILE_CLK_CEIL then powerLimit v d + 1 else powerLimit v d)
      else powerLimit v d := by
  refine foldl_once (g := (powerLimit · d))
    (h := fun x => if x < fget v rPWR_PROFILE fPWR_PROFILE_CLK_CEIL then x + 1 else x)
    (I := fun t => fget t rPWR_PROFILE fPWR_PROFILE_CLK_CEIL = fget v rPWR_PROFILE fPWR_PROFILE_CLK_CEIL) d hl rfl ?keeps ?set ?other
  case keeps =>
    intro t e ht
    split
    · exact (fget_setPower_col (by decide) ..).trans ht
    · exact ht
  case set =>
    intro t ht
    rw [ht]
    split
    next hlt =>
      have hceil : fget v rPWR_PROFILE fPWR_PROFILE_CLK_CEIL < 64 := fieldOf_lt ..
      exact (powerLimit_setPower_same ..).trans (Nat.mod_eq_of_lt (by omega))
    · rfl
  case other =>
    intro t e he _
    split
    · exact powerLimit_setPower_ne (Ne.symm he) _ _
    · rfl

theorem boundDies_nodup (s : State) : (boundDies s).Nodup := List.nodup_range.filter _

theorem regsOnly_capMoved (v : State) : RegsOnly v (capMoved meanMw s v) :=
  RegsOnly.ite (RegsOnly.foldl (fun _ _ => regsOnly_setPower ..) _ _)
    (RegsOnly.ite (RegsOnly.foldl (fun _ _ => RegsOnly.ite (regsOnly_setPower ..) (RegsOnly.refl _)) _ _) (RegsOnly.refl v))

/-- Above the cap with a bound die that can still give way. -/
theorem capStep_above (hcap : 1000 * capNow s < meanMw) (hroom : ∃ d ∈ boundDies s, 8 < powerLimit s d) :
    capStep meanMw s = { s with regs := (capStep meanMw s).regs, pwr := { s.pwr with mean := meanMw, unreach := false } } ∧
      ∀ d, powerLimit (capStep meanMw s) d = if d ∈ boundDies s then max 8 (powerLimit s d - 1) else powerLimit s d := by
  obtain ⟨d, hd, hlim⟩ := hroom
  have hfree : capStuck meanMw s = false := by
    have hall : (boundDies s).all (fun d => powerLimit s d ≤ 8) = false :=
      List.all_eq_false.2 ⟨d, hd, by simpa using hlim⟩
    rw [capStuck, hall, Bool.and_false]
  refine ⟨?_, fun e => ?_⟩
  · rw [capStep_free hfree]
    exact regsOnly_capMoved (capNoted meanMw false s)
  · rw [capStep_free hfree, capMoved, if_pos hcap, powerLimit_lowered (boundDies_nodup s), powerLimit_capNoted]

/-- Above the cap with none that can: the source of R382 has occurred, unless the cap could not be reached before either. -/
theorem capStep_stuck_pwr (hcap : 1000 * capNow s < meanMw) (hbound : boundDies s ≠ []) (hlow : ∀ d ∈ boundDies s, powerLimit s d ≤ 8) :
    (capStep meanMw s).pwr = { s.pwr with mean := meanMw, unreach := true } := by
  have hstuck : capStuck meanMw s = true := by simpa [capStuck, hcap, hbound] using hlow
  rw [capStep_eq, (regsOnly_capMoved _).same State.pwr (fun _ => rfl), hstuck]
  have hshown : (if true = true ∧ (!s.pwr.unreach) = true then
      occurs 0 0 4 (fset rPWR_STATUS fPWR_STATUS_CAP_UNREACHABLE 1 (capShown meanMw s)) else capShown meanMw s).pwr =
      { s.pwr with mean := meanMw } := by
    split
    · exact aloof_pwr.occurs_col ..
    · rfl
  exact congrArg (fun p : Pwr => { p with unreach := true }) hshown

theorem capStuck_of_within (hcap : meanMw ≤ 1000 * capNow s) : capStuck meanMw s = false := by
  simp [capStuck, Nat.not_lt.2 hcap]

/-- Below 97 % of the cap. -/
theorem capStep_below (hcap : 100 * meanMw < 97 * (1000 * capNow s)) :
    capStep meanMw s = { s with regs := (capStep meanMw s).regs, pwr := { s.pwr with mean := meanMw, unreach := false } } ∧
      ∀ d, powerLimit (capStep meanMw s) d = if d ∈ boundDies s ∧ powerLimit s d < fget s rPWR_PROFILE fPWR_PROFILE_CLK_CEIL then
        powerLimit s d + 1 else powerLimit s d := by
  have hfree : capStuck meanMw s = false := capStuck_of_within (by omega)
  have hceil : fget (capNoted meanMw false s) rPWR_PROFILE fPWR_PROFILE_CLK_CEIL = fget s rPWR_PROFILE fPWR_PROFILE_CLK_CEIL :=
    fget_capShown_profile (by decide)
  refine ⟨?_, fun d => ?_⟩
  · rw [capStep_free hfree]
    exact regsOnly_capMoved (capNoted meanMw false s)
  · rw [capStep_free hfree, capMoved, if_neg (by omega), if_pos hcap, powerLimit_raised (boundDies_nodup s), powerLimit_capNoted, hceil, ite_and]

/-- Between 97 % of the cap and the cap. -/
theorem capStep_within (hlow : 97 * (1000 * capNow s) ≤ 100 * meanMw) (hcap : meanMw ≤ 1000 * capNow s) :
    capStep meanMw s = updPwr (fun p => { p with mean := meanMw, unreach := false }) (fset rPWR_PROFILE fPWR_PROFILE_CAP_W (capNow s) s) := by
  rw [capStep_free (capStuck_of_within hcap), capMoved, if_neg (by omega), if_neg (by omega)]
  rfl

end

/-! ## Sleep, wake, droop and lost clocks (R375 to R379) -/

section
variable {s : State} {c : Nat}

theorem coreSleep_idle (hbound : coreState s c = 2) (htask : (coreOf s c).task = none) :
    coreSleep c s = fset (bindReg c) fTSC_CORE_BIND_SLEEP 1 s := if_pos ⟨hbound, by rw [htask]; rfl⟩

theorem coreSleep_other (hbound : coreState s c ≠ 2) : coreSleep c s = s := if_neg (fun h => hbound h.1)

/-- The core's PLL runs and its binding no longer shows it asleep. -/
def awake (c : Nat) (s : State) : State :=
  fset (rCLK_CORE_FREQ (c / 16) (c % 16)) fCLK_CORE_FREQ_ON 1 (fset (bindReg c) fTSC_CORE_BIND_SLEEP 0 s)

theorem coreWake_asleep (hrun : droopRun s c = false) (hstate : coreState s c = 1) (hsleep : fget s (bindReg c) fTSC_CORE_BIND_SLEEP = 1) :
    coreWake c s = dieClocks (c / 16) (awake c s) := if_pos ⟨by rw [hrun]; rfl, hstate, hsleep⟩

theorem bindReg_ne_clock (c d e : Nat) (he : e < 16) : bindReg c ≠ rCLK_CORE_FREQ d e := by
  simp only [bindReg, rTSC_CORE_BIND, rCLK_CORE_FREQ, cdA, unitA]
  omega

theorem bindReg_ne_status (c d : Nat) : bindReg c ≠ rTHM_CD_STATUS d := by
  simp only [bindReg, rTSC_CORE_BIND, rTHM_CD_STATUS, cdA, unitA]
  omega

theorem fget_awake_sleep : fget (awake c s) (bindReg c) fTSC_CORE_BIND_SLEEP = 0 :=
  (fget_fset_reg _ _ _ _ _ _ (bindReg_ne_clock c _ _ (Nat.mod_lt _ (by decide)))).trans (fget_fset_same _ _ _ _ (by decide))

theorem fget_awake_on : fget (awake c s) (rCLK_CORE_FREQ (c / 16) (c % 16)) fCLK_CORE_FREQ_ON = 1 := fget_fset_same _ _ _ _ (by decide)

theorem regVal_awake_col {off : Nat} (hoff : off < 0x4000000) : regVal (awake c s) (colA off) = regVal s (colA off) :=
  (regVal_fset_ne _ _ _ _ _ (col_ne_unit hoff (by omega))).trans (regVal_fset_ne _ _ _ _ _ (col_ne_unit hoff (by omega)))

theorem dieLimit_awake (d : Nat) : dieLimit (awake c s) d = dieLimit s d :=
  dieLimit_of_regs (regVal_awake_col (by decide)) ((regVal_fset_ne _ _ _ _ _ (noClock_status _ _ _ (Nat.mod_lt _ (by decide)))).trans
    (regVal_fset_ne _ _ _ _ _ (bindReg_ne_status c d).symm))

/-- The core that wakes runs at what its die's limits give (R370, R376). -/
theorem coreWake_clock (hrun : droopRun s c = false) (hstate : coreState s c = 1) (hsleep : fget s (bindReg c) fTSC_CORE_BIND_SLEEP = 1) :
    let t := coreWake c s
    let f := rCLK_CORE_FREQ (c / 16) (c % 16)
    RegsOnly s t ∧ fget t (bindReg c) fTSC_CORE_BIND_SLEEP = 0 ∧ fget t f fCLK_CORE_FREQ_ON = 1 ∧
      fget t f fCLK_CORE_FREQ_MHZ = 50 * dieLimit s (c / 16) ∧ fget t f fCLK_CORE_FREQ_HALVED = fget s rPWR_STATUS fPWR_STATUS_SLOW ∧
      fget t (rTHM_CD_STATUS (c / 16)) fTHM_CD_STATUS_VCORE = vcoreFor (dieLimit s (c / 16)) := by
  have hc : c % 16 < 16 := Nat.mod_lt _ (by decide)
  have hclock := clockOf_dieClocks hc (fget_awake_on (c := c) (s := s))
  have hslow : fget (awake c s) rPWR_STATUS fPWR_STATUS_SLOW = fget s rPWR_STATUS fPWR_STATUS_SLOW := by
    rw [fget, rPWR_STATUS, regVal_awake_col (by decide), fget]
  rw [dieLimit_awake, hslow, clockOf] at hclock
  obtain ⟨hmhz, hhalved⟩ := Prod.mk.inj hclock
  dsimp only
  rw [coreWake_asleep hrun hstate hsleep]
  refine ⟨(RegsOnly.fset ..).trans ((RegsOnly.fset ..).trans (regsOnly_dieClocks ..)), ?_, ?_, hmhz, hhalved, ?_⟩
  · exact (fget_dieClocks_ne (bindReg_ne_status c _) (fun e he => bindReg_ne_clock c _ e he) _).trans fget_awake_sleep
  · exact (fget_dieClocks_on hc).trans fget_awake_on
  · rw [fget_dieClocks_vcore, dieLimit_awake]

/-- An episode begins stretched. -/
theorem droop_begins (hc : c < nCores s) (hwas : (coreOf s c).stretch = none) :
    droop c false s = updCore c (fun k => { k with stretch := some false }) (fcount (rTHM_CD_DROOP (c / 16)) fTHM_CD_DROOP_EPISODES 1 s) := by
  simp [droop, Nat.not_le.2 hc, hwas]

/-- One already counted reaches 10 %. -/
theorem droop_deepens (hc : c < nCores s) (hwas : (coreOf s c).stretch = some false) :
    droop c true s = updCore c (fun k => { k with stretch := some true })
      (occur (8 + c / 16) 1 2 c false (fcount (rTHM_CD_DROOP (c / 16)) fTHM_CD_DROOP_DEEP 1 s)) := by
  simp [droop, Nat.not_le.2 hc, hwas]

/-- An episode begins deep. -/
theorem droop_begins_deep (hc : c < nCores s) (hwas : (coreOf s c).stretch = none) :
    droop c true s = updCore c (fun k => { k with stretch := some true }) (occur (8 + c / 16) 1 2 c false
      (fcount (rTHM_CD_DROOP (c / 16)) fTHM_CD_DROOP_DEEP 1 (fcount (rTHM_CD_DROOP (c / 16)) fTHM_CD_DROOP_EPISODES 1 s))) := by
  simp [droop, Nat.not_le.2 hc, hwas]

theorem droopEnd_core (hc : c < nCores s) : droopEnd c s = updCore c (fun k => { k with stretch := none }) s := if_neg (Nat.not_le.2 hc)

/-- A block is no longer among those whose clock is good. -/
def unclocked (b : Block) (s : State) : State := { s with boot := { s.boot with stable := s.boot.stable.filter (· != b) } }

theorem clockLost_compute {d : Nat} (hd : d < nDies s) :
    clockLost (.compute d) s = occurs (8 + d) 1 3 (fenceStart d 1 (unclocked (.compute d) s)) := if_pos hd

theorem clockLost_base {n : Nat} (hn : n < nRidges s) :
    clockLost (.base n) s = occurs (1 + n) 5 2 (fenceStart (16 + n) 1 (unclocked (.base n) s)) := if_pos hn

theorem clockLost_porger {k : Nat} (hk : k < nSites s) :
    clockLost (.porger k) s = fenceStart (80 + k) 1 (unclocked (.porger k) s) := if_pos hk

theorem clockLost_core (hc : c < nCores s) :
    clockLost (.core c) s = fset (rCLK_CORE_FREQ (c / 16) (c % 16)) fCLK_CORE_FREQ_ON 0 (unclocked (.core c) s) := if_pos hc

end

/-- Settles O50, from what each event of the power and clock manager does. The thresholds are log entry 45; SAG_START, SAG_END and
SAG_INFO tell of the last episode by 939, a lost PLL clears ON alone by 940, and the Col die's own clock is 948. -/
theorem powerAndClocks : Obligations.PowerAndClocks := by
  unfold Obligations.PowerAndClocks
  refine ⟨fun s => ⟨?within, ?sagging, ?sags, ?surges, ?sagEnds, ?overEnds, ?sagStays, ?cap⟩, fun s c hc =>
    ⟨?sleeps, ?busy, ?wakes, ?begins, ?deepens, ?deep, ?recovers, fun b => ⟨?compute, ?base, ?porger, ?col, ?core⟩⟩⟩
  case within => exact fun mv ma hlo hhi hsag hover => congrArg Host.Outcome.next (inputSample_within hlo hhi hsag hover)
  case sagging => exact fun mv ma hlow hsag hcause => congrArg Host.Outcome.next (inputSample_sagging hlow hsag hcause)
  case sags =>
    intro mv ma hlow hsag
    obtain ⟨e, he⟩ := inputSample_sags (ma := ma) hlow hsag
    exact ⟨e, congrArg Host.Outcome.next he⟩
  case surges => exact fun hover => congrArg Host.Outcome.next (overcurrentStart_begins hover)
  case sagEnds => exact fun hsag hover hvin => congrArg Host.Outcome.next (slowWithdraw_sag hsag hover hvin)
  case overEnds => exact fun hsag hover hiin => congrArg Host.Outcome.next (slowWithdraw_over hsag hover hiin)
  case sagStays => exact fun hsag hover hvin => congrArg Host.Outcome.next (slowWithdraw_sagging hsag hover hvin)
  case cap =>
    intro meanMw
    refine ⟨fun hcap hroom => ?_, fun hcap hbound hlow => ⟨_, rfl, capStep_stuck_pwr hcap hbound hlow⟩, fun hcap => ?_,
      fun hlow hcap => congrArg Host.Outcome.next (capStep_within hlow hcap)⟩
    · obtain ⟨hrest, hlim⟩ := capStep_above hcap hroom
      exact ⟨_, rfl, hrest, fun d _ => hlim d⟩
    · obtain ⟨hrest, hlim⟩ := capStep_below hcap
      exact ⟨_, rfl, hrest, fun d _ => hlim d⟩
  case sleeps => exact fun hbound htask => congrArg Host.Outcome.next (coreSleep_idle hbound htask)
  case busy => exact fun hbound => congrArg Host.Outcome.next (coreSleep_other hbound)
  case wakes => exact fun hrun hstate hsleep => ⟨_, rfl, coreWake_clock hrun hstate hsleep⟩
  case begins => exact fun hwas => congrArg Host.Outcome.next (droop_begins hc hwas)
  case deepens => exact fun hwas => congrArg Host.Outcome.next (droop_deepens hc hwas)
  case deep => exact fun hwas => congrArg Host.Outcome.next (droop_begins_deep hc hwas)
  case recovers => exact congrArg Host.Outcome.next (droopEnd_core hc)
  case compute => exact fun u hu hb => hb ▸ congrArg Host.Outcome.next (clockLost_compute hu)
  case base => exact fun n hn hb => hb ▸ congrArg Host.Outcome.next (clockLost_base hn)
  case porger => exact fun k hk hb => hb ▸ congrArg Host.Outcome.next (clockLost_porger hk)
  case col => exact fun hb => hb ▸ rfl
  case core => exact fun hb => hb ▸ congrArg Host.Outcome.next (clockLost_core hc)

end Sys2Proof.Machine
end

section
/-! Temperatures: samples, throttles, trips and thermal modes (R383 to R387). -/

namespace Sys2Proof.Machine

/-! ## Samples, throttles and trips of a compute die -/

theorem ridges_le (s : State) : nRidges s ≤ 4 := by
  unfold nRidges Fuses.ridges
  split <;> decide

section
variable {s : State} {d : Nat}

theorem lt_twelve (hd : d < nDies s) : d < 12 := by
  have := ridges_le s
  unfold nDies at hd
  omega

theorem isUnitCode_die (hd : d < nDies s) : isUnitCode s d = true := decide_eq_true (.inl hd)

theorem hasSensor_die (hd : d < nDies s) : hasSensor s d = true := by
  rw [hasSensor, isUnitCode_die hd, Bool.true_or]

theorem throttleAt_die (hd : d < nDies s) : throttleAt s d = some ((fieldOf s.pwr.thm 16 8 : Nat) : Int) := if_pos (by have := lt_twelve hd; omega)

theorem throttled_die (hd : d < nDies s) : throttled d = [d] := if_pos (lt_twelve hd)

theorem tempSample_die (hd : d < nDies s) (t : Int) : tempSample d t s =
    fset (rTHM_CD_STATUS d) fTHM_CD_STATUS_T_MAX (wrap 8 t) (updPwr (fun p => { p with temps := Mp.ins p.temps d t }) s) := by
  simp [tempSample, hasSensor_die hd, lt_twelve hd]

theorem tempSample_none {u : Nat} (hu : hasSensor s u = false) (t : Int) : tempSample u t s = s := if_pos (by rw [hu]; rfl)

/-- A throttle step lowers the die's local ceiling by 100 MHz, no lower than 400 MHz. -/
def ceilingDown (d : Nat) (s : State) : State :=
  dieClocks d (fset (rTHM_CD_STATUS d) fTHM_CD_STATUS_LOCAL_CEIL (max 8 (fget s (rTHM_CD_STATUS d) fTHM_CD_STATUS_LOCAL_CEIL - 2)) s)

/-- A release step raises it by 100 MHz, no higher than 2 GHz. -/
def ceilingUp (d : Nat) (s : State) : State :=
  dieClocks d (fset (rTHM_CD_STATUS d) fTHM_CD_STATUS_LOCAL_CEIL (min 40 (fget s (rTHM_CD_STATUS d) fTHM_CD_STATUS_LOCAL_CEIL + 2)) s)

/-- A die's throttle begins: it is hot, its source occurs and a trace record is made. -/
def throttleBegun (d : Nat) (s : State) : State :=
  if s.pwr.hot.contains d then s else tracePower 3 (occurs (8 + d) 1 1 (updPwr (fun p => { p with hot := d :: p.hot }) s))

theorem throttleStep_cool (hd : d < nDies s) (hcool : tempOf s d < (fieldOf s.pwr.thm 16 8 : Nat)) : throttleStep d s = s := by
  simp [throttleStep, throttleAt_die hd, hcool]

theorem throttleStep_hot (hd : d < nDies s) (hok : dieOk s d = true) (hwarm : (fieldOf s.pwr.thm 16 8 : Nat) ≤ tempOf s d) :
    throttleStep d s = ceilingDown d (fset (rTHM_CD_STATUS d) fTHM_CD_STATUS_THROTTLED 1 (throttleBegun d s)) := by
  have hd12 := lt_twelve hd
  simp [throttleStep, throttleAt_die hd, isUnitCode_die hd, hok, Int.not_lt.2 hwarm, hd12, throttled_die hd, throttleSrc,
    ceilingDown, throttleBegun]

theorem throttleRelease_warm (hd : d < nDies s) (hwarm : (fieldOf s.pwr.thm 16 8 : Nat) - 5 ≤ tempOf s d) : throttleRelease d s = s := by
  simp [throttleRelease, throttleAt_die hd, hwarm]

/-- The throttle of a die ends, while the base die under it does not throttle either. -/
theorem throttleRelease_cool (hd : d < nDies s) (hcool : tempOf s d < (fieldOf s.pwr.thm 16 8 : Nat) - 5)
    (hhot : s.pwr.hot.contains d = true) (hbase : s.pwr.hot.contains (16 + d / 3) = false) :
    throttleRelease d s = ceilingUp d (tracePower 4 (updPwr (fun p => { p with hot := p.hot.filter (· != d) }) s)) := by
  have hd12 : ¬32 ≤ d := by have := lt_twelve hd; omega
  have hfree : (s.pwr.hot.filter (· != d)).contains d = false ∧ (s.pwr.hot.filter (· != d)).contains (16 + d / 3) = false := by
    simp only [List.contains_eq_mem, decide_eq_false_iff_not, List.mem_filter] at hbase ⊢
    simp [hbase]
  have hwarm : ¬(!true || decide (((fieldOf s.pwr.thm 16 8 : Nat) : Int) - 5 ≤ tempOf s d)) = true := by
    rw [decide_eq_false (Int.not_le.2 hcool)]
    decide
  have hpwr : (tracePower 4 (updPwr (fun p => { p with hot := p.hot.filter (· != d) }) s)).pwr =
      { s.pwr with hot := s.pwr.hot.filter (· != d) } := tracePower_pwr ..
  unfold throttleRelease
  rw [throttleAt_die hd]
  dsimp only
  rw [isUnitCode_die hd, if_neg hwarm, if_pos hhot, if_neg hd12, throttled_die hd, List.foldl_cons, List.foldl_nil,
    hpwr, hfree.1, hfree.2, if_neg (by decide)]
  rfl

theorem tripAt_die (hd : d < nDies s) : tripAt d = 115 := by
  have := lt_twelve hd
  rw [tripAt, if_neg (by omega), if_neg (by omega)]

theorem tripDie_die (hd : d < nDies s) :
    tripDie d s = fenceStart d 5 (occurs (8 + d) 1 0 (tempSample d (max 115 (tempOf s d)) s)) := by
  have hd12 := lt_twelve hd
  have hcol : d ≠ 64 := by omega
  simp [tripDie, hasSensor_die hd, tripAt_die hd, hd12, hcol]

theorem tripDie_col : tripDie 64 s =
    occurs 0 0 5 (updPwr (fun p => { p with temps := Mp.ins p.temps 64 (max 115 (tempOf s 64)) }) s) := by
  simp [tripDie, hasSensor, tempSample, tripAt]

end

/-! ## Stacked mode -/

/-- The reading under a die has been noted. -/
def underNoted (d : Nat) (t : Int) (s : State) : State := updPwr (fun p => { p with under := Mp.ins p.under d t }) s

section
variable {s : State} {d : Nat} {t : Int}

theorem bandChange_central (hd : d < nDies s) (hmode : fget s rPWR_STATUS fPWR_STATUS_STACKED = 0) (held : Bool) :
    bandChange d t held s = underNoted d t s :=
  (if_neg (by simp [hd])).trans (if_pos hmode)

theorem bandChange_stacked (hd : d < nDies s) (hmode : fget s rPWR_STATUS fPWR_STATUS_STACKED = 1) (held : Bool) :
    bandChange d t held s =
      if Mp.get 0 s.pwr.band d < bandOf t then enterBand d (bandOf t) (underNoted d t s)
      else if held ∧ relaxTo (Mp.get 0 s.pwr.band d) t < Mp.get 0 s.pwr.band d then
        enterBand d (relaxTo (Mp.get 0 s.pwr.band d) t) (underNoted d t s)
      else underNoted d t s :=
  (if_neg (by simp [hd])).trans (if_neg (fun h => by rw [show fget s _ _ = 0 from h] at hmode; cases hmode))

theorem enterBand_die (hd : d < nDies s) (b : Nat) (v : State) :
    enterBand d b v = setThermal d (bandCeil b) (updPwr (fun p => { p with band := Mp.put 0 p.band d b }) v) := if_pos (lt_twelve hd)

end

/-! ## Central mode -/

/-- The ceiling a die's thermal mode sets. -/
def thermalCeil (s : State) (d : Nat) : Nat := fget s (rTHM_CD_STATUS d) fTHM_CD_STATUS_THERMAL_CEIL

theorem thermalCeil_lt (s : State) (d : Nat) : thermalCeil s d < 64 := fieldOf_lt ..

theorem regsOnly_setThermal (d v : Nat) (s : State) : RegsOnly s (setThermal d v s) := (RegsOnly.fset ..).trans (regsOnly_dieClocks ..)

theorem thermalCeil_setThermal_same {v : Nat} (hv : v < 64) (d : Nat) (s : State) : thermalCeil (setThermal d v s) d = v :=
  (fget_dieClocks_status (by decide)).trans ((fget_fset_same _ _ _ _ (by decide)).trans (Nat.mod_eq_of_lt hv))

theorem thermalCeil_setThermal_ne {d e : Nat} (h : e ≠ d) (v : Nat) (s : State) : thermalCeil (setThermal e v s) d = thermalCeil s d :=
  (fget_dieClocks_ne (status_ne h.symm) (noClock_status e d) _).trans (fget_fset_reg _ _ _ _ _ _ (status_ne h.symm))

/-- What the control step makes of the ceiling of a die at a temperature (R387). -/
def steered (raise : Bool) (target temp : Int) (x : Nat) : Nat :=
  if target < temp then max 8 (x - 1) else if raise ∧ temp + 2 ≤ target then min 40 (x + 1) else x

/-- The three passes of the control step: over the compute dies, the base dies and the stacks. -/
def steerDies (raise : Bool) (s : State) : State :=
  let target : Int := (fieldOf s.pwr.thm 24 8 : Nat)
  (List.range (nDies s)).foldl (fun s d =>
    if !dieOk s d then s
    else if target < tempOf s d then setThermal d (max 8 (thermalCeil s d - 1)) s
    else if raise ∧ tempOf s d + 2 ≤ target then setThermal d (min 40 (thermalCeil s d + 1)) s else s) s

def coolOver (u : Nat) (s : State) : State := (throttled u).foldl (fun s d => setThermal d (max 8 (thermalCeil s d - 1)) s) s

def steerBases (thmBd : Nat) (s : State) : State :=
  (List.range (nRidges s)).foldl (fun s n => if dieOk s (16 + n) ∧ (thmBd : Int) < tempOf s (16 + n) then coolOver (16 + n) s else s) s

def steerStacks (raise : Bool) (target : Int) (s : State) : State :=
  (stackCodes s).foldl (fun s u =>
    if !dieOk s u then s
    else if target < tempOf s u then setLimit u (max 25 (Mp.get 100 s.pwr.limit u - 5)) s
    else if raise ∧ tempOf s u + 2 ≤ target then setLimit u (min 100 (Mp.get 100 s.pwr.limit u + 5)) s else s) s

theorem centralStep_eq (raise : Bool) (s : State) :
    centralStep raise s = steerStacks raise (fieldOf s.pwr.thm 8 8 : Nat) (steerBases s.pwr.thmBd (steerDies raise s)) := rfl

/-! ### The compute dies -/

theorem regsOnly_steerDies (raise : Bool) (s : State) : RegsOnly s (steerDies raise s) :=
  RegsOnly.foldl (fun t _ => RegsOnly.ite (RegsOnly.refl t) (RegsOnly.ite (regsOnly_setThermal ..)
    (RegsOnly.ite (regsOnly_setThermal ..) (RegsOnly.refl t)))) _ _

theorem thermalCeil_steerDies {s : State} {d : Nat} (hd : d < nDies s) (hok : dieOk s d = true) (raise : Bool) :
    thermalCeil (steerDies raise s) d = steered raise (fieldOf s.pwr.thm 24 8 : Nat) (tempOf s d) (thermalCeil s d) := by
  refine (foldl_once (g := (thermalCeil · d)) (h := steered raise (fieldOf s.pwr.thm 24 8 : Nat) (tempOf s d))
    (I := fun t => t.dies = s.dies ∧ t.pwr = s.pwr) d List.nodup_range ⟨rfl, rfl⟩ ?keeps ?set ?other).trans (if_pos (List.mem_range.2 hd))
  case keeps =>
    rintro t e ⟨hdies, hpwr⟩
    have hregs : RegsOnly t (if !dieOk t e then t
        else if ((fieldOf s.pwr.thm 24 8 : Nat) : Int) < tempOf t e then setThermal e (max 8 (thermalCeil t e - 1)) t
        else if raise ∧ tempOf t e + 2 ≤ (fieldOf s.pwr.thm 24 8 : Nat) then setThermal e (min 40 (thermalCeil t e + 1)) t else t) :=
      RegsOnly.ite (RegsOnly.refl t) (RegsOnly.ite (regsOnly_setThermal ..) (RegsOnly.ite (regsOnly_setThermal ..) (RegsOnly.refl t)))
    exact ⟨(hregs.same State.dies (fun _ => rfl)).trans hdies, (hregs.same State.pwr (fun _ => rfl)).trans hpwr⟩
  case set =>
    rintro t ⟨hdies, hpwr⟩
    have hokt : dieOk t d = true := by rwa [dieOk, dieOf, hdies]
    have htemp : tempOf t d = tempOf s d := by rw [tempOf, hpwr, tempOf]
    have := thermalCeil_lt t d
    rw [hokt, htemp, if_neg (by decide), steered]
    split
    · exact thermalCeil_setThermal_same (by omega) ..
    split
    · exact thermalCeil_setThermal_same (by omega) ..
    · rfl
  case other =>
    rintro t e he -
    split
    · rfl
    split
    · exact thermalCeil_setThermal_ne he ..
    split
    · exact thermalCeil_setThermal_ne he ..
    · rfl

/-! ### The base dies -/

theorem regsOnly_coolOver (u : Nat) (s : State) : RegsOnly s (coolOver u s) := RegsOnly.foldl (fun _ _ => regsOnly_setThermal ..) _ _

theorem regsOnly_steerBases (thmBd : Nat) (s : State) : RegsOnly s (steerBases thmBd s) :=
  RegsOnly.foldl (fun t _ => RegsOnly.ite (regsOnly_coolOver ..) (RegsOnly.refl t)) _ _

theorem throttled_base_nodup (n : Nat) : (throttled (16 + n)).Nodup := by
  rw [throttled, if_neg (by omega)]
  split
  · exact List.nodup_range.map (fun _ _ h => Nat.add_right_cancel h)
  · exact List.nodup_nil

/-- The compute dies on a base die are its ridge's three. -/
theorem mem_throttled_base {n d : Nat} (hd : d < 12) : d ∈ throttled (16 + n) ↔ n = d / 3 := by
  rw [throttled, if_neg (by omega)]
  split
  · simp only [List.mem_map, List.mem_range]
    constructor
    · rintro ⟨i, hi, rfl⟩
      omega
    · rintro rfl
      exact ⟨d % 3, by omega, by omega⟩
  · simp only [List.not_mem_nil, false_iff]
    omega

theorem thermalCeil_coolOver {n d : Nat} (hd : d < 12) (s : State) :
    thermalCeil (coolOver (16 + n) s) d = if n = d / 3 then max 8 (thermalCeil s d - 1) else thermalCeil s d := by
  have hfold := foldl_once (f := fun s d => setThermal d (max 8 (thermalCeil s d - 1)) s) (g := (thermalCeil · d))
    (h := fun x => max 8 (x - 1)) (I := fun _ => True) (s := s) d (throttled_base_nodup n) trivial (fun _ _ _ => trivial)
    (fun t _ => thermalCeil_setThermal_same (by have := thermalCeil_lt t d; omega) ..) (fun t e he _ => thermalCeil_setThermal_ne he ..)
  exact hfold.trans (ite_congr (propext (mem_throttled_base hd)) (fun _ => rfl) (fun _ => rfl))

/-- A base die above its target: the dies on it come down a step. -/
def baseHot (thmBd : Nat) (s : State) (d : Nat) : Prop := dieOk s (16 + d / 3) = true ∧ (thmBd : Int) < tempOf s (16 + d / 3)

theorem thermalCeil_steerBases {s : State} {d : Nat} (hd : d < nDies s) (thmBd : Nat) :
    (baseHot thmBd s d → thermalCeil (steerBases thmBd s) d = max 8 (thermalCeil s d - 1)) ∧
      (¬baseHot thmBd s d → thermalCeil (steerBases thmBd s) d = thermalCeil s d) := by
  classical
  have hridge : d / 3 ∈ List.range (nRidges s) := List.mem_range.2 (by unfold nDies at hd; omega)
  have hfold : thermalCeil (steerBases thmBd s) d = if baseHot thmBd s d then max 8 (thermalCeil s d - 1) else thermalCeil s d := by
    refine (foldl_once (g := (thermalCeil · d)) (h := fun x => if baseHot thmBd s d then max 8 (x - 1) else x)
      (I := fun t => t.dies = s.dies ∧ t.pwr = s.pwr) (d / 3) List.nodup_range ⟨rfl, rfl⟩ ?keeps ?set ?other).trans (if_pos hridge)
    case keeps =>
      rintro t n ⟨hdies, hpwr⟩
      have hregs : RegsOnly t (if dieOk t (16 + n) ∧ (thmBd : Int) < tempOf t (16 + n) then coolOver (16 + n) t else t) :=
        RegsOnly.ite (regsOnly_coolOver ..) (RegsOnly.refl t)
      exact ⟨(hregs.same State.dies (fun _ => rfl)).trans hdies, (hregs.same State.pwr (fun _ => rfl)).trans hpwr⟩
    case set =>
      rintro t ⟨hdies, hpwr⟩
      have hhot : (dieOk t (16 + d / 3) ∧ (thmBd : Int) < tempOf t (16 + d / 3)) = baseHot thmBd s d := by
        rw [dieOk, dieOf, hdies, tempOf, hpwr]
        rfl
      simp only [hhot]
      split
      · exact (thermalCeil_coolOver (lt_twelve hd) t).trans (if_pos rfl)
      · rfl
    case other =>
      rintro t n hn -
      split
      · exact (thermalCeil_coolOver (lt_twelve hd) t).trans (if_neg hn)
      · rfl
  rw [hfold]
  exact ⟨fun h => if_pos h, fun h => if_neg h⟩

/-! ### The stacks -/

/-- Only registers and the power manager's own state may differ. -/
def PwrOnly (s t : State) : Prop := t = { s with regs := t.regs, pwr := t.pwr }

theorem PwrOnly.trans {s t u : State} (h : PwrOnly s t) (h' : PwrOnly t u) : PwrOnly s u := by
  unfold PwrOnly at h h' ⊢
  rw [h] at h'
  exact h'

theorem RegsOnly.pwrOnly {s t : State} (h : RegsOnly s t) : PwrOnly s t := by
  unfold RegsOnly at h
  rw [h]
  rfl

/-- Nor the thresholds in force, nor a ceiling of a die. -/
def StacksOnly (s t : State) : Prop := PwrOnly s t ∧ t.pwr.thm = s.pwr.thm ∧ ∀ d, thermalCeil t d = thermalCeil s d

theorem StacksOnly.refl (s : State) : StacksOnly s s := ⟨rfl, rfl, fun _ => rfl⟩

theorem StacksOnly.trans {s t u : State} (h : StacksOnly s t) (h' : StacksOnly t u) : StacksOnly s u := by
  obtain ⟨hrest, hthm, hceil⟩ := h
  obtain ⟨hrest', hthm', hceil'⟩ := h'
  exact ⟨hrest.trans hrest', hthm'.trans hthm, fun d => (hceil' d).trans (hceil d)⟩

theorem stacksOnly_setLimit (u v : Nat) (s : State) : StacksOnly s (setLimit u v s) := by
  refine ⟨rfl, rfl, fun d => fget_fset_reg _ _ _ _ _ _ ?_⟩
  simp only [rTHM_CD_STATUS, rTHM_BD_STATUS, cdA, bdA, unitA]
  omega

theorem stacksOnly_steerStacks (raise : Bool) (target : Int) (s : State) : StacksOnly s (steerStacks raise target s) :=
  List.foldlRecOn _ _ (StacksOnly.refl s) (fun t ht u _ => ht.trans (by
    split
    · exact StacksOnly.refl t
    split
    · exact stacksOnly_setLimit ..
    split
    · exact stacksOnly_setLimit ..
    · exact StacksOnly.refl t))

/-! ### The step -/

/-- The thresholds of the registers are in force. -/
def thresholdsTaken (s : State) : State :=
  updPwr (fun p => { p with thm := (regVal s rTHM_CTRL).toNat, thmBd := fget s rTHM_BD_CTRL fTHM_BD_CTRL_BD_TARGET }) s

section
variable {s : State} {raise : Bool}

theorem thermalStep_central (hmode : fget s rPWR_STATUS fPWR_STATUS_STACKED = 0) (hasked : s.pwr.stacked = false) :
    thermalStep raise s = centralStep raise (thresholdsTaken s) := by
  have hsame : switchMode (thresholdsTaken s) = thresholdsTaken s := if_pos (by
    rw [show fget (thresholdsTaken s) rPWR_STATUS fPWR_STATUS_STACKED = 0 from hmode, show (thresholdsTaken s).pwr.stacked = false from hasked]
    rfl)
  unfold thermalStep
  simp only [show updPwr _ s = thresholdsTaken s from rfl, hsame, show fget (thresholdsTaken s) rPWR_STATUS fPWR_STATUS_STACKED = 0 from hmode,
    if_true]

theorem regsOnly_beforeStacks (raise : Bool) (s : State) :
    RegsOnly (thresholdsTaken s) (steerBases (thresholdsTaken s).pwr.thmBd (steerDies raise (thresholdsTaken s))) :=
  (regsOnly_steerDies ..).trans (regsOnly_steerBases ..)

theorem thermalStep_frame (hmode : fget s rPWR_STATUS fPWR_STATUS_STACKED = 0) (hasked : s.pwr.stacked = false) :
    PwrOnly s (thermalStep raise s) ∧ (thermalStep raise s).pwr.thm = (regVal s rTHM_CTRL).toNat := by
  obtain ⟨hrest, hthm, -⟩ := stacksOnly_steerStacks raise (fieldOf (thresholdsTaken s).pwr.thm 8 8 : Nat)
    (steerBases (thresholdsTaken s).pwr.thmBd (steerDies raise (thresholdsTaken s)))
  have hregs := regsOnly_beforeStacks raise s
  rw [thermalStep_central hmode hasked, centralStep_eq]
  have htaken : PwrOnly s (thresholdsTaken s) := rfl
  exact ⟨htaken.trans (hregs.pwrOnly.trans hrest), hthm.trans (congrArg (·.thm) (hregs.same State.pwr (fun _ => rfl)))⟩

/-- The ceiling of a die after the step, by its own temperature and that of its base die. -/
theorem thermalCeil_thermalStep {d : Nat} (hd : d < nDies s) (hmode : fget s rPWR_STATUS fPWR_STATUS_STACKED = 0)
    (hasked : s.pwr.stacked = false) (hok : dieOk s d = true) :
    let x := steered raise (fieldOf (regVal s rTHM_CTRL).toNat 24 8 : Nat) (tempOf s d) (thermalCeil s d)
    (baseHot (fget s rTHM_BD_CTRL fTHM_BD_CTRL_BD_TARGET) s d → thermalCeil (thermalStep raise s) d = max 8 (x - 1)) ∧
      (¬baseHot (fget s rTHM_BD_CTRL fTHM_BD_CTRL_BD_TARGET) s d → thermalCeil (thermalStep raise s) d = x) := by
  have hregs := regsOnly_steerDies raise (thresholdsTaken s)
  have hdies := thermalCeil_steerDies (s := thresholdsTaken s) hd hok raise
  have hbases := thermalCeil_steerBases (s := steerDies raise (thresholdsTaken s)) (d := d)
    (hregs.same nDies (fun _ => rfl) ▸ hd) (fget s rTHM_BD_CTRL fTHM_BD_CTRL_BD_TARGET)
  have hhot : baseHot (fget s rTHM_BD_CTRL fTHM_BD_CTRL_BD_TARGET) (steerDies raise (thresholdsTaken s)) d =
      baseHot (fget s rTHM_BD_CTRL fTHM_BD_CTRL_BD_TARGET) s d :=
    hregs.same (fun t => baseHot (fget s rTHM_BD_CTRL fTHM_BD_CTRL_BD_TARGET) t d) (fun _ => rfl)
  have hstacks := (stacksOnly_steerStacks raise (fieldOf (thresholdsTaken s).pwr.thm 8 8 : Nat)
    (steerBases (thresholdsTaken s).pwr.thmBd (steerDies raise (thresholdsTaken s)))).2.2 d
  rw [thermalStep_central hmode hasked, centralStep_eq, hstacks]
  rw [hhot, hdies] at hbases
  exact hbases

end

/-- Settles O51, from what each event of the thermal manager does. A trip raises the stored temperature to its threshold (log entry
937); the margins of 2 °C and 3 °C and the mode that a step uses are entry 938. -/
theorem temperatures : Obligations.Temperatures := by
  unfold Obligations.Temperatures
  intro s d hd
  refine ⟨?sample, ?none, ?cool, ?goesOn, ?begins, ?release, ?warm, ?trip, ?tripCol, ?central, fun t held => ⟨?noted, ?up, ?stays, ?relaxes⟩⟩
  case sample => exact fun t => congrArg Host.Outcome.next (tempSample_die hd t)
  case none => exact fun u t hu => congrArg Host.Outcome.next (tempSample_none hu t)
  case cool => exact fun hcool => congrArg Host.Outcome.next (throttleStep_cool hd hcool)
  case goesOn =>
    intro hok hwarm hhot
    refine congrArg Host.Outcome.next ((throttleStep_hot hd hok hwarm).trans ?_)
    rw [throttleBegun, if_pos hhot]
    rfl
  case begins =>
    intro hok hwarm hhot
    refine congrArg Host.Outcome.next ((throttleStep_hot hd hok hwarm).trans ?_)
    rw [throttleBegun, if_neg (by rw [hhot]; decide)]
    rfl
  case release => exact fun hcool hhot hbase => congrArg Host.Outcome.next (throttleRelease_cool hd hcool hhot hbase)
  case warm => exact fun hwarm => congrArg Host.Outcome.next (throttleRelease_warm hd hwarm)
  case trip => exact congrArg Host.Outcome.next ((tripDie_die hd).trans (by rw [tempSample_die hd]))
  case tripCol => exact congrArg Host.Outcome.next tripDie_col
  case central =>
    intro raise hmode hasked
    obtain ⟨hrest, hthm⟩ := thermalStep_frame (raise := raise) hmode hasked
    refine ⟨_, rfl, hrest, hthm, fun hok hhot hbase => ?_, fun hok hhot hbase => ?_, fun hok hr hcool hbase => ?_,
      fun hok hr hcool hbase => ?_⟩
    · exact ((thermalCeil_thermalStep hd hmode hasked hok).2 hbase).trans (if_pos hhot)
    · refine ((thermalCeil_thermalStep hd hmode hasked hok).1 hbase).trans ?_
      rw [steered, if_pos hhot]
      rfl
    · refine ((thermalCeil_thermalStep hd hmode hasked hok).2 hbase).trans ?_
      rw [steered, if_neg (by omega), if_pos ⟨hr, hcool⟩]
      rfl
    · refine ((thermalCeil_thermalStep hd hmode hasked hok).2 hbase).trans ?_
      rw [steered, if_neg (by omega), if_neg (by simp [hr])]
      rfl
  case noted => exact fun hmode => congrArg Host.Outcome.next (bandChange_central hd hmode held)
  case up =>
    intro hmode hup
    exact congrArg Host.Outcome.next ((bandChange_stacked hd hmode held).trans ((if_pos hup).trans (enterBand_die hd ..)))
  case stays =>
    intro hmode hup hheld
    refine congrArg Host.Outcome.next ((bandChange_stacked hd hmode held).trans ((if_neg (Nat.not_lt.2 hup)).trans (if_neg ?_)))
    simp [hheld]
  case relaxes =>
    intro hmode hup hrelax
    exact congrArg Host.Outcome.next ((bandChange_stacked hd hmode true).trans
      ((if_neg (Nat.not_lt.2 hup)).trans ((if_pos ⟨rfl, hrelax⟩).trans (enterBand_die hd ..))))

end Sys2Proof.Machine
end

section
/-! Registers whose write is an action (R271, R286, R293, R394, R402, R437, R447, R453). -/

namespace Sys2Proof.Machine

/-! ## RST_CTRL (R394) -/

section
variable {v : Word32} {s : State}

theorem writeRstCtrl_keyless (hkey : fieldOf v.toNat 8 8 ≠ 0xA5) : writeRstCtrl v s = s := if_pos hkey

theorem writeRstCtrl_system (hkey : fieldOf v.toNat 8 8 = 0xA5) (hsys : v.toNat.testBit 1 = true) :
    writeRstCtrl v s = systemReset 8 s := (if_neg (not_not.2 hkey)).trans (if_pos hsys)

theorem writeRstCtrl_core (hkey : fieldOf v.toNat 8 8 = 0xA5) (hsys : v.toNat.testBit 1 = false) (hcore : v.toNat.testBit 0 = true) :
    writeRstCtrl v s = coreReset 9 s :=
  (if_neg (not_not.2 hkey)).trans ((if_neg (by rw [bitOf, hsys]; decide)).trans (if_pos hcore))

end

/-! ## RST_HOLD_CD (R402) -/

/-- A bit in another field of the register reads as before. -/
theorem fbit_fsetBit_apart (a : Nat) (f g : Fld) (i j : Nat) (b : Bool) (s : State) (hf : f.lo + f.w ≤ 64)
    (h : g.lo + g.w ≤ f.lo ∨ f.lo + f.w ≤ g.lo) : fbit (fsetBit a f i b s) a g j = fbit s a g j := by
  rw [fbit, fsetBit, fget_fset_apart _ _ _ _ _ hf h, fbit]

/-- A bit within a field after any bit of it is set. -/
theorem fbit_fsetBit_within (a : Nat) (f : Fld) (i j : Nat) (b : Bool) (s : State) (hf : f.lo + f.w ≤ 64) (hj : j < f.w) :
    fbit (fsetBit a f i b s) a f j = if j = i then b else fbit s a f j := by
  by_cases hji : j = i
  · exact fbit_fsetBit _ _ _ _ _ _ hf (hji ▸ hj)
  · rw [if_neg hji, fsetBit, fbit_fset_same _ _ _ _ _ hf, testBit_withField, if_neg (by omega), decide_eq_true hj, Bool.true_and]
    rfl

/-- Whether a compute die is held, and whether its release is deferred. -/
def holdOf (d : Nat) (s : State) : Bool × Bool := (fbit s rRST_HOLD_CD fRST_HOLD_CD_HOLD d, fbit s rRST_HOLD_CD fRST_HOLD_CD_DEFER d)

section
variable {d : Nat} (hd : d < 12) (v : Word32) (s : State)
include hd

theorem holdOf_hold (e : Nat) (b : Bool) : holdOf d (fsetBit rRST_HOLD_CD fRST_HOLD_CD_HOLD e b s) =
    (if d = e then b else (holdOf d s).1, (holdOf d s).2) :=
  congrArg₂ _ (fbit_fsetBit_within _ _ _ _ _ _ (by decide) hd) (fbit_fsetBit_apart _ _ _ _ _ _ _ (by decide) (by decide))

theorem holdOf_defer (e : Nat) (b : Bool) : holdOf d (fsetBit rRST_HOLD_CD fRST_HOLD_CD_DEFER e b s) =
    ((holdOf d s).1, if d = e then b else (holdOf d s).2) :=
  congrArg₂ _ (fbit_fsetBit_apart _ _ _ _ _ _ _ (by decide) (by decide)) (fbit_fsetBit_within _ _ _ _ _ _ (by decide) hd)

end

/-- What a write to RST_HOLD_CD does for one die. -/
def holdDie (v : Word32) (s : State) (d : Nat) : State :=
  if bitOf v.toNat d then fsetBit rRST_HOLD_CD fRST_HOLD_CD_HOLD d true (fsetBit rRST_HOLD_CD fRST_HOLD_CD_DEFER d false s)
  else if !fbit s rRST_HOLD_CD fRST_HOLD_CD_HOLD d then s
  else if nDies s ≤ d ∨ s.boot.stable.contains (.compute d) then fsetBit rRST_HOLD_CD fRST_HOLD_CD_HOLD d false s
  else fsetBit rRST_HOLD_CD fRST_HOLD_CD_DEFER d true s

theorem writeHold_eq (v : Word32) (s : State) : writeHold v s = (List.range 12).foldl (holdDie v) s := rfl

/-- What it makes of a die's two bits: a release that R401 does not allow yet is deferred. -/
def heldAfter (v : Word32) (s : State) (d : Nat) (x : Bool × Bool) : Bool × Bool :=
  if bitOf v.toNat d then (true, false) else if !x.1 then x
  else if nDies s ≤ d ∨ s.boot.stable.contains (.compute d) then (false, x.2) else (x.1, true)

theorem regsOnly_holdDie (v : Word32) (s : State) (d : Nat) : RegsOnly s (holdDie v s d) :=
  RegsOnly.ite ((RegsOnly.fsetBit ..).trans (RegsOnly.fsetBit ..)) (RegsOnly.ite (RegsOnly.refl s)
    (RegsOnly.ite (RegsOnly.fsetBit ..) (RegsOnly.fsetBit ..)))

section
variable {d : Nat} (hd : d < 12) (v : Word32) (s : State)
include hd

theorem holdOf_holdDie_same : holdOf d (holdDie v s d) = heldAfter v s d (holdOf d s) := by
  have hshown : fbit s rRST_HOLD_CD fRST_HOLD_CD_HOLD d = (holdOf d s).1 := rfl
  rw [holdDie, heldAfter, hshown]
  split
  · rw [holdOf_hold hd, holdOf_defer hd, if_pos rfl, if_pos rfl]
  split
  · rfl
  split
  · rw [holdOf_hold hd, if_pos rfl]
  · rw [holdOf_defer hd, if_pos rfl]

theorem holdOf_holdDie_ne {e : Nat} (h : e ≠ d) : holdOf d (holdDie v s e) = holdOf d s := by
  unfold holdDie
  split
  · rw [holdOf_hold hd, holdOf_defer hd, if_neg h.symm, if_neg h.symm]
  split
  · rfl
  split
  · rw [holdOf_hold hd, if_neg h.symm]
  · rw [holdOf_defer hd, if_neg h.symm]

theorem holdOf_writeHold : holdOf d (writeHold v s) = heldAfter v s d (holdOf d s) := by
  rw [writeHold_eq]
  refine (foldl_once (f := holdDie v) (g := holdOf d) (h := heldAfter v s d) (I := RegsOnly s) d List.nodup_range (RegsOnly.refl s)
    (fun t e ht => ht.trans (regsOnly_holdDie ..)) (fun t ht => ?_) (fun t e he _ => holdOf_holdDie_ne hd v t he)).trans
    (if_pos (List.mem_range.2 hd))
  have hsame : heldAfter v t d = heldAfter v s d := ht.same (heldAfter v · d) (fun _ => rfl)
  rw [holdOf_holdDie_same hd, hsame]

end

theorem regsOnly_writeHold (v : Word32) (s : State) : RegsOnly s (writeHold v s) := RegsOnly.foldl (regsOnly_holdDie v) _ _

/-! ## FLT_SAFE_INFO (R437) -/

theorem fget_writeSafeInfo_valid (v : Word32) (s : State) :
    fget (writeSafeInfo v s) rFLT_SAFE_INFO fFLT_SAFE_INFO_VALID = fieldOf v.toNat 31 1 :=
  (fget_fset_same _ _ _ _ (by decide)).trans (Nat.mod_eq_of_lt (fieldOf_lt ..))

theorem fget_writeSafeInfo_source (v : Word32) (s : State) :
    fget (writeSafeInfo v s) rFLT_SAFE_INFO fFLT_SAFE_INFO_SOURCE = fieldOf v.toNat 0 24 :=
  (fget_fset_apart _ _ _ _ _ (by decide) (by decide)).trans
    ((fget_fset_same _ _ _ _ (by decide)).trans (Nat.mod_eq_of_lt (fieldOf_lt ..)))

/-! ## The registers of an optical engine (R271, R286, R293) -/

section
variable {s : State} {k p : Nat} {v : Word32}

theorem switchGo_standby (hk : k < nSites s) (hgo : v.toNat % 2 = 1) (hspare : spareState s k = 3) :
    switchGo k v s = updPorger k (fun x => { x with go := true, hold := true }) s := if_pos ⟨hk, hgo, hspare⟩

/-- PRG_PAT_CTRL as an injection leaves it: the bits of its fields, INJ_ONE read back as zero. -/
def patKept (v : Word32) : Nat := withField v.toNat 23 1 0 / 2 ^ 18 * 2 ^ 18

theorem testBit_patKept (v : Word32) (j : Nat) : (patKept v).testBit j = (decide (18 ≤ j) && (j != 23 && v.toNat.testBit j)) := by
  rw [patKept, Nat.testBit_mul_two_pow, Nat.testBit_div_two_pow, testBit_withField]
  by_cases h18 : 18 ≤ j
  · have hbit : j - 18 + 18 = j := by omega
    rw [hbit]
    by_cases h23 : j = 23
    · simp [h23]
    · rw [if_neg (by omega)]
      simp [h18, h23]
  · simp [h18]

theorem regVal_injectOne (hk : k < nSites s) (hp : p < 8) :
    (regVal (injectOne k p v s) (rPRG_PAT_CTRL k p)).toNat = patKept v := by
  have hlt : patKept v < 2 ^ 64 := (Nat.div_mul_le_self ..).trans_lt (withField_lt _ _ _ _ (by omega) (by decide))
  have hput : regVal (injectOne k p v s) (rPRG_PAT_CTRL k p) = BitVec.ofNat 64 (patKept v) := by
    rw [injectOne, if_pos ⟨hk, hp⟩]
    dsimp only
    split <;> exact regVal_regPut_same ..
  rw [hput, BitVec.toNat_ofNat, Nat.mod_eq_of_lt hlt]

/-- A field of one bit. -/
theorem fieldOf_one (x j : Nat) : fieldOf x j 1 = b2n (x.testBit j) := by
  rw [fieldOf, Nat.pow_one, Nat.testBit_eq_decide_div_mod_eq, ← Nat.shiftRight_eq_div_pow]
  have := Nat.mod_two_eq_zero_or_one (x >>> j)
  rcases this with h | h <;> simp [b2n, h]

theorem injectOne_frame : injectOne k p v s =
    { s with regs := (injectOne k p v s).regs, outputs := (injectOne k p v s).outputs } := by
  unfold injectOne
  split
  · dsimp only
    split <;> rfl
  · rfl

/-- The levels of PAM4 rise strictly. -/
def levelsRise (v : Word32) : Prop :=
  fieldOf v.toNat 0 6 < fieldOf v.toNat 8 6 ∧ fieldOf v.toNat 8 6 < fieldOf v.toNat 16 6 ∧ fieldOf v.toNat 16 6 < fieldOf v.toNat 24 6

theorem pam4Write_rising (hk : k < nSites s) (hp : p = 6 ∨ p = 7) (hrise : levelsRise v) :
    pam4Write k p v s = regPut (rPRG_PAM4_LVL k p) (BitVec.ofNat 64 (fieldOf v.toNat 0 6 + fieldOf v.toNat 8 6 * 2 ^ 8
      + fieldOf v.toNat 16 6 * 2 ^ 16 + fieldOf v.toNat 24 6 * 2 ^ 24)) s := if_pos ⟨hk, hp, hrise⟩

theorem pam4Write_other (hrise : ¬levelsRise v) : pam4Write k p v s = s := if_neg (fun h => hrise h.2.2)

end

/-! ## The Cairn's registers (R447, R453) -/

section
variable {s : State} {v : Word32}

/-- The low word of a register of the Cairn interface, as the host writes it. -/
theorem hostWrite_cairn {a : Nat} {wide : Bool} (ha : a < 2 ^ 32) (hal : a % 4 = 0) (hunit : a / 0x4000000 = 0x30)
    (hshape : (findReg 0x30 (a % 0x4000000)).map (fun x => (x.1.wide, x.2)) = some (wide, false)) (hup : s.boot.up = true) :
    ∃ r, hostWrite true a v s =
      commitReg r a (if wide then v.toNat + (Mp.get 0#32 s.wrShadow a).toNat * 2 ^ 32 else v.toNat) s := by
  obtain ⟨⟨r, high⟩, hfind, hform⟩ := Option.map_eq_some_iff.1 hshape
  obtain ⟨hwide, rfl⟩ := Prod.mk.inj hform
  have hassigned : unitAssigned s a = true := by
    rw [unitAssigned, decide_eq_true ha, hunit]
    rfl
  have hanswers : unitAnswers s (a / 0x4000000) = true := by simp [unitAnswers, hup, hunit]
  have hmsg : sideMsg true a v.toNat s = s := if_neg (by omega)
  have hdev : devWrite a v s = writeReg r false a v s := by
    rw [devWrite_register hal hassigned hanswers (if_neg (by omega)) (hunit ▸ hfind), hmsg]
  refine ⟨r, hostWrite_of_devWrite ha (hdev.trans ?_)⟩
  cases wide with
  | true => exact writeReg_low_wide a v s hwide
  | false => exact writeReg_low_narrow a v s hwide

theorem commitReg_ack (r : RegDesc) (x : Nat) (hsupply : s.crn.supply = true) : commitReg r rCRN_ACK x s = raiseAck x s := by
  unfold commitReg
  dsimp only
  rw [if_neg (by decide), if_neg (by decide), if_neg (by decide), if_pos rfl, if_pos hsupply]

theorem commitReg_interval (r : RegDesc) (x : Nat) (hsupply : s.crn.supply = true) :
    commitReg r rCRN_INTERVAL x s = askInterval (x % 8) s := by
  unfold commitReg
  dsimp only
  rw [if_neg (by decide), if_neg (by decide), if_neg (by decide), if_neg (by decide), if_pos rfl, if_pos hsupply]

theorem hostWrite_ack (hup : s.boot.up = true) (hsupply : s.crn.supply = true) :
    hostWrite true rCRN_ACK v s = raiseAck (v.toNat + (Mp.get 0#32 s.wrShadow rCRN_ACK).toNat * 2 ^ 32) s := by
  obtain ⟨r, hr⟩ := hostWrite_cairn (a := rCRN_ACK) (wide := true) (s := s) (v := v) (by decide) (by decide) (by decide)
    (by decide +kernel) hup
  exact hr.trans (commitReg_ack r _ hsupply)

theorem hostWrite_interval (hup : s.boot.up = true) (hsupply : s.crn.supply = true) :
    hostWrite true rCRN_INTERVAL v s = askInterval (v.toNat % 8) s := by
  obtain ⟨r, hr⟩ := hostWrite_cairn (a := rCRN_INTERVAL) (wide := false) (s := s) (v := v) (by decide) (by decide) (by decide)
    (by decide +kernel) hup
  exact hr.trans (commitReg_interval r _ hsupply)

end

/-- Settles O36, register by register. HOLD reads 1 while DEFER stands by log entry 944; what INJ_ONE puts out is entry 934. -/
theorem actingRegisters : Obligations.ActingRegisters := by
  unfold Obligations.ActingRegisters
  intro s k p v
  refine ⟨?keyless, ?system, ?core, ?hold, ?safeInfo, ?switch, ?inject, ?levels, ?cairn⟩
  case keyless =>
    exact fun hkey => ⟨congrArg Host.Outcome.next (writeRstCtrl_keyless hkey), congrArg Host.Outcome.next (writeRstCtrl_keyless hkey)⟩
  case system => exact fun hkey hsys => congrArg Host.Outcome.next (writeRstCtrl_system hkey hsys)
  case core => exact fun hkey hsys hcore => congrArg Host.Outcome.next (writeRstCtrl_core hkey hsys hcore)
  case hold =>
    refine ⟨_, rfl, regsOnly_writeHold v s, fun d hd => ?_⟩
    have hhold : fbit (writeHold v s) rRST_HOLD_CD fRST_HOLD_CD_HOLD d = (heldAfter v s d (holdOf d s)).1 :=
      congrArg Prod.fst (holdOf_writeHold hd v s)
    have hdefer : fbit (writeHold v s) rRST_HOLD_CD fRST_HOLD_CD_DEFER d = (heldAfter v s d (holdOf d s)).2 :=
      congrArg Prod.snd (holdOf_writeHold hd v s)
    dsimp only
    rw [hhold, hdefer]
    refine ⟨fun hv => ?_, fun hv hs => ?_, fun hv hs hfree => ?_, fun hv hs hheld => ?_⟩
    · simp [heldAfter, bitOf, hv]
    · simp [heldAfter, bitOf, hv, holdOf, hs]
    · simp [heldAfter, bitOf, hv, holdOf, hs, hfree]
    · simp [heldAfter, bitOf, hv, holdOf, hs, hheld]
  case safeInfo => exact ⟨_, rfl, rfl, fget_writeSafeInfo_valid v s, fget_writeSafeInfo_source v s⟩
  case switch => exact fun hk hgo hspare => congrArg Host.Outcome.next (switchGo_standby hk hgo hspare)
  case inject =>
    intro hk hp
    refine ⟨_, rfl, injectOne_frame, ?_, fun j hlo hhi hj => ?_⟩
    · rw [regVal_injectOne hk hp, fieldOf_one, testBit_patKept]
      rfl
    · rw [regVal_injectOne hk hp, fieldOf_one, fieldOf_one, testBit_patKept, decide_eq_true hlo, bne_iff_ne.2 hj]
      rfl
  case levels =>
    exact fun hk hp => ⟨fun hrise => congrArg Host.Outcome.next (pam4Write_rising hk hp hrise),
      fun hrise => congrArg Host.Outcome.next (pam4Write_other hrise)⟩
  case cairn =>
    exact fun hup hsupply => ⟨congrArg Host.Outcome.next (hostWrite_ack hup hsupply),
      congrArg Host.Outcome.next (hostWrite_interval hup hsupply)⟩

end Sys2Proof.Machine
end

section
/-! The order of bring-up (R401, R406, R410, R419) and the host link (R341, R346, R348, R349). -/

namespace Sys2Proof.Machine

/-! ## The release of the Col die -/

section
variable {s : State}

/-- A challenge is drawn: registers and the counter of free values. -/
theorem drawChallenge_frame (s : State) :
    drawChallenge s = { s with regs := (drawChallenge s).regs, freeCtr := (drawChallenge s).freeCtr } :=
  List.foldlRecOn (motive := fun t : State => t = { s with regs := t.regs, freeCtr := t.freeCtr }) _ _ rfl (fun t ht i _ => by
    rw [ht]
    rfl)

/-- The Crest runs, the incarnation and the challenge are drawn and the time of the release is stamped. -/
def colStamped (s : State) : State :=
  let v := drawChallenge (nextFree (fset rFLK_INCARNATION fFLK_INCARNATION_INCARNATION (freeVal 46 s) { s with crestRun := true }))
  regPut rRST_TIME (BitVec.ofNat 64 (stampAt
    (nextFree (fset rFLK_INCARNATION fFLK_INCARNATION_INCARNATION (freeVal 46 s) { s with crestRun := true })) 64)) v

theorem colStamped_frame (s : State) :
    colStamped s = { s with crestRun := true, regs := (colStamped s).regs, freeCtr := (colStamped s).freeCtr } := by
  unfold colStamped
  dsimp only
  rw [drawChallenge_frame]
  rfl

theorem colRelease_running (hup : s.boot.up = true) : colRelease s = s := if_pos (.inl hup)

theorem colRelease_unpowered (hrails : s.boot.rails ≠ 2) : colRelease s = s := if_pos (.inr (.inr hrails))

/-- The Col die's logic runs and the option load begins. -/
def colLoads (v : State) : State :=
  let v := if v.crn.supply ∧ v.crn.serial ≠ v.crn.lastSerial then
      { fset rCRN_STATUS fCRN_STATUS_REPLACED 1 v with crn := { v.crn with lastSerial := v.crn.serial } }
    else v
  let v := showFault (updBoot (fun b => { b with up := true, loading := true }) v)
  if v.boot.safeNow then safeDefaults v else v

theorem colRelease_eq (hup : s.boot.up = false) (hlost : s.boot.lost = false) (hrails : s.boot.rails = 2) :
    colRelease s = colLoads (colStamped s) := if_neg (by simp [hup, hlost, hrails])

theorem showFault_frame (s : State) : showFault s = { s with outputs := (showFault s).outputs } := by
  unfold showFault
  split <;> rfl

theorem colLoads_eq (hsafe : s.boot.safeNow = false) (hsupply : s.crn.supply = false) :
    colLoads s = showFault (updBoot (fun b => { b with up := true, loading := true }) s) := by
  have hknown : ¬(s.crn.supply = true ∧ s.crn.serial ≠ s.crn.lastSerial) := by simp [hsupply]
  have hdefaults : (showFault (updBoot (fun b => { b with up := true, loading := true }) s)).boot.safeNow = false := by
    rw [showFault_frame]
    exact hsafe
  have hgood : ¬(showFault (updBoot (fun b => { b with up := true, loading := true }) s)).boot.safeNow = true := by
    rw [hdefaults]
    decide
  unfold colLoads
  rw [if_neg hknown]
  exact if_neg hgood

/-- With no image known to be bad and no Cairn supplied. -/
theorem colRelease_starts (hup : s.boot.up = false) (hlost : s.boot.lost = false) (hrails : s.boot.rails = 2)
    (hsafe : s.boot.safeNow = false) (hsupply : s.crn.supply = false) :
    colRelease s = showFault (updBoot (fun b => { b with up := true, loading := true }) (colStamped s)) := by
  have hboot : (colStamped s).boot = s.boot := by rw [colStamped_frame]
  have hcrn : (colStamped s).crn = s.crn := by rw [colStamped_frame]
  rw [colRelease_eq hup hlost hrails, colLoads_eq (by rw [hboot, hsafe]) (by rw [hcrn, hsupply])]

/-- What looks at neither registers, outputs, free values nor the bring-up's own state sees the Crest's start alone. -/
theorem colStarted_same {β : Type} (g : State → β) (hg : ∀ (v : State) o b, g { v with outputs := o, boot := b } = g v) (s : State) :
    g (showFault (updBoot (fun b => { b with up := true, loading := true }) (colStamped s))) = g (colStamped s) :=
  (congrArg g (showFault_frame _)).trans (hg (colStamped s) _ _)

end

/-! ## The release of the other blocks -/

section
variable {s : State}

/-- Recovery releases no block but the Col die and base die 0. -/
def inRecovery (s : State) : Prop := fget s rSEC_BOOT_STATUS fSEC_BOOT_STATUS_RECOVERY = 1

theorem blockRelease_col : blockRelease .col s = colRelease s := if_neg (fun h => h.2.1 rfl)

theorem blockRelease_recovery {b : Block} (h : inRecovery s) (hcol : b ≠ .col) (hbase : b ≠ .base 0) : blockRelease b s = s :=
  if_pos ⟨h, hcol, hbase⟩

/-- Outside recovery, or for base die 0, each block has its own condition. -/
theorem blockRelease_base {n : Nat} (hdone : fget s rWNW_STATUS fWNW_STATUS_DONE = 0) : blockRelease (.base n) s = s := by
  unfold blockRelease
  split
  · rfl
  · exact if_neg (fun h => by rw [hdone] at h; exact absurd h.2.2.1 (by decide))

theorem blockRelease_compute_waits {d : Nat} (h : ¬(s.boot.stable.contains (.base (d / 3)) = true ∧ identified s (d / 3) = true)) :
    blockRelease (.compute d) s = s := by
  unfold blockRelease
  split
  · rfl
  · exact if_neg (fun hrel => h hrel.2)

theorem fget_noteStable (b : Block) (s : State) (a : Nat) (f : Fld) : fget (noteStable b s) a f = fget s a f := by
  unfold noteStable
  split <;> rfl

theorem fbit_noteStable (b : Block) (s : State) (a : Nat) (f : Fld) (i : Nat) : fbit (noteStable b s) a f i = fbit s a f i :=
  congrArg (bitOf · i) (fget_noteStable b s a f)

theorem blockRelease_compute {d : Nat} (h : ¬inRecovery s) (hd : d < nDies s) (hbase : s.boot.stable.contains (.base (d / 3)) = true)
    (hid : identified s (d / 3) = true) (hdefer : fbit s rRST_HOLD_CD fRST_HOLD_CD_DEFER d = true) :
    blockRelease (.compute d) s = fsetBit rRST_HOLD_CD fRST_HOLD_CD_HOLD d false
      (fsetBit rRST_HOLD_CD fRST_HOLD_CD_DEFER d false (noteStable (.compute d) s)) :=
  (if_neg (fun hr => h hr.1)).trans ((if_pos ⟨hd, hbase, hid⟩).trans (if_pos ((fbit_noteStable ..).trans hdefer)))

theorem blockRelease_core {c : Nat} (h : ¬inRecovery s) (hc : c < nCores s) (hdie : s.boot.stable.contains (.compute (c / 16)) = true)
    (hunbound : coreState s c < 2) : blockRelease (.core c) s = noteStable (.core c) s := by
  have hstate : coreState (noteStable (.core c) s) c = coreState s c := fget_noteStable ..
  exact (if_neg (fun hr => h hr.1)).trans ((if_pos ⟨hc, hdie⟩).trans (if_neg (by rw [hstate]; omega)))

theorem blockRelease_porger {k : Nat} (h : ¬inRecovery s) (hk : k < nSites s) (hbase : s.boot.stable.contains (.base (k / 4)) = true)
    (hid : identified s (k / 4) = true) : blockRelease (.porger k) s = noteStable (.porger k) s :=
  (if_neg (fun hr => h hr.1)).trans (if_pos ⟨hk, hbase, hid⟩)

end

/-! ## The option load and the ROM -/

section
variable {s : State} {img : List Byte}

/-- The load ends well: the image's options are in force. -/
def loaded (img : List Byte) (t : State) : State :=
  fset rWNW_STATUS fWNW_STATUS_DONE 1 (fset rWNW_STATUS fWNW_STATUS_ATTEMPTS 0
    (fset rWNW_STATUS fWNW_STATUS_RECORDS (leAt img 4 2) (updBoot (fun b => { b with loading := false }) t)))

theorem winnow_good {t : State} (hloading : s.boot.loading = true) (himg : checkImage img s = .inr t) : winnow img false s = loaded img t := by
  simp [winnow, hloading, himg, loaded]

theorem fget_loaded_done (img : List Byte) (t : State) : fget (loaded img t) rWNW_STATUS fWNW_STATUS_DONE = 1 :=
  fget_fset_same _ _ _ _ (by decide)

theorem fget_loaded_attempts (img : List Byte) (t : State) : fget (loaded img t) rWNW_STATUS fWNW_STATUS_ATTEMPTS = 0 :=
  (fget_fset_apart _ _ _ _ _ (by decide) (by decide)).trans (fget_fset_same _ _ _ _ (by decide))

theorem fget_loaded_records (img : List Byte) (t : State) :
    fget (loaded img t) rWNW_STATUS fWNW_STATUS_RECORDS = leAt img 4 2 % 2048 :=
  (fget_fset_apart _ _ _ _ _ (by decide) (by decide)).trans
    ((fget_fset_apart _ _ _ _ _ (by decide) (by decide)).trans (fget_fset_same _ _ _ _ (by decide)))

/-- A bad image before the third attempt. -/
theorem winnow_bad {e : Nat} (hloading : s.boot.loading = true) (himg : checkImage img s = .inl e)
    (hfew : fget s rWNW_STATUS fWNW_STATUS_ATTEMPTS < 2) :
    winnow img false s = fset rWNW_STATUS fWNW_STATUS_LAST_ERR e
      (fset rWNW_STATUS fWNW_STATUS_ATTEMPTS (fget s rWNW_STATUS fWNW_STATUS_ATTEMPTS + 1) s) := by
  have hcount : min 3 (fget s rWNW_STATUS fWNW_STATUS_ATTEMPTS + 1) = fget s rWNW_STATUS fWNW_STATUS_ATTEMPTS + 1 := by omega
  have hthird : fget s rWNW_STATUS fWNW_STATUS_ATTEMPTS ≠ 2 := by omega
  simp [winnow, hloading, himg, hcount, hthird]

/-- Neither bank of component 0 is good: recovery. -/
theorem bootRom_recovery {v : BootVerdict} (hup : s.boot.up = true) (hloading : s.boot.loading = false) (hchosen : s.boot.chosen = false)
    (hactive : v.activeOk = false) (hfallback : v.fallbackOk = false) :
    bootRom v s = becomeReady (fset rSEC_BOOT_STATUS fSEC_BOOT_STATUS_RECOVERY 1 (fset rSEC_BOOT_STATUS fSEC_BOOT_STATUS_ROOT_SLOT
      (((List.range 3).find? (fun k => bitOf s.fuses.rootBlown k && !bitOf s.fuses.rootRevoked k)).getD 15)
      (updBoot (fun b => { b with chosen := true }) s))) := by
  simp [bootRom, hup, hloading, hchosen, hactive, hfallback]

theorem firmwareRuns_chosen (hup : s.boot.up = true) (hchosen : s.boot.chosen = true) (hfw : s.boot.fw = false)
    (hwhole : fget s rSEC_BOOT_STATUS fSEC_BOOT_STATUS_RECOVERY = 0) :
    firmwareRuns s = becomeReady (updBoot (fun b => { b with fw := true }) s) := if_pos (by simp [hup, hchosen, hfw, hwhole])

theorem becomeReady_linkless (hlink : fget s rHST_LINK_STATUS fHST_LINK_STATUS_LTSSM ≠ 3) : becomeReady s = s := if_pos (by simp [hlink])

theorem becomeReady_ready (hready : s.ready = true) : becomeReady s = s := if_pos (by simp [hready])

end

/-! ## The host link -/

section
variable {s : State}

theorem takeOverride_frame (l : Nat) (s : State) : takeOverride l s = { s with txeq := (takeOverride l s).txeq } := by
  unfold takeOverride
  dsimp only
  split <;> rfl

/-- Only registers and the lanes' coefficients may differ. -/
def LinkOnly (s t : State) : Prop := t = { s with regs := t.regs, txeq := t.txeq }

theorem LinkOnly.trans {s t u : State} (h : LinkOnly s t) (h' : LinkOnly t u) : LinkOnly s u := by
  unfold LinkOnly at h h' ⊢
  rw [h] at h'
  exact h'

theorem RegsOnly.linkOnly {s t : State} (h : RegsOnly s t) : LinkOnly s t := by
  unfold RegsOnly at h
  rw [h]
  rfl

/-- The lanes take their overrides, as a link in L0 enters Recovery. -/
def linkRecovered (s : State) : State :=
  (List.range 8).foldl (fun s l => takeOverride l s)
    (if fget s rHST_LINK_STATUS fHST_LINK_STATUS_LTSSM = 3 then fcount rHST_LINK_STATUS fHST_LINK_STATUS_RECOVERIES 1 s else s)

/-- The link is in L0 at a rate and width. -/
def linkUp (rate width : Nat) (eq16 eq32 : Bool) (v : State) : State :=
  fset rHST_LINK_STATUS fHST_LINK_STATUS_EQ16 (b2n eq16) (fset rHST_LINK_STATUS fHST_LINK_STATUS_EQ32 (b2n eq32)
    (fset rHST_LINK_STATUS fHST_LINK_STATUS_RATE rate (fset rHST_LINK_STATUS fHST_LINK_STATUS_WIDTH width
      (fset rHST_LINK_STATUS fHST_LINK_STATUS_LTSSM 3 v))))

theorem linkOnly_linkRecovered (s : State) : LinkOnly s (linkRecovered s) := by
  have hfold (v : State) : LinkOnly v ((List.range 8).foldl (fun s l => takeOverride l s) v) :=
    List.foldlRecOn (motive := LinkOnly v) _ _ rfl (fun t ht l _ => ht.trans (by
      unfold LinkOnly
      rw [takeOverride_frame]))
  refine LinkOnly.trans ?_ (hfold _)
  split <;> rfl

theorem linkUp_ready (rate width : Nat) (eq16 eq32 : Bool) (v : State) : (linkUp rate width eq16 eq32 v).ready = v.ready := rfl

theorem linkOnly_linkTrain (rate width : Nat) (eq16 eq32 : Bool) (s : State) :
    LinkOnly s (linkUp rate width eq16 eq32 (linkRecovered s)) := by
  have hup (v : State) : RegsOnly v (linkUp rate width eq16 eq32 v) :=
    (RegsOnly.fset ..).trans ((RegsOnly.fset ..).trans ((RegsOnly.fset ..).trans ((RegsOnly.fset ..).trans (RegsOnly.fset ..))))
  exact (linkOnly_linkRecovered s).trans (hup _).linkOnly

theorem linkTrain_ready {rate width : Nat} (eq16 eq32 : Bool) (hup : s.boot.up = true) (hperst : s.boot.perst = false) (hlo : 1 ≤ rate)
    (hhi : rate ≤ 5) (hwidth : width ∈ [1, 2, 4, 8]) (hready : s.ready = true) :
    linkTrain rate width eq16 eq32 s = linkUp rate width eq16 eq32 (linkRecovered s) := by
  have hgoes : (!s.boot.up || s.boot.perst || rate == 0 || decide (5 < rate) || ! [1, 2, 4, 8].contains width) = false := by
    rw [hup, hperst, beq_false_of_ne (by omega : rate ≠ 0), decide_eq_false (by omega), List.contains_iff_mem.2 hwidth]
    rfl
  have hstill : (linkUp rate width eq16 eq32 (linkRecovered s)).ready = true := by
    rw [linkUp_ready, linkOnly_linkRecovered s]
    exact hready
  unfold linkTrain
  rw [hgoes, if_neg (by decide)]
  exact becomeReady_ready hstill

theorem coefRequest_valid {l pre main post : Nat} (hl : l < 8) (hovr : fget s (rHST_TXEQ l) fHST_TXEQ_OVR = 0)
    (hsum : pre + main + post = 48) (hmain : 16 + pre + post ≤ main) (hpre : pre ≤ 12) :
    coefRequest l pre main post s = setCoef l pre main post s := if_pos ⟨hl, hovr, by simp [coefOk, hsum, hmain, hpre]⟩

theorem coefRequest_sum {l pre main post : Nat} (hsum : pre + main + post ≠ 48) : coefRequest l pre main post s = s :=
  if_neg (fun h => by simp [coefOk, hsum] at h)

theorem hostEye_passes {l : Nat} {m : Word32} (hl : l < 8) (hlink : fget s rHST_LINK_STATUS fHST_LINK_STATUS_LTSSM = 3)
    (hrate : 4 ≤ fget s rHST_LINK_STATUS fHST_LINK_STATUS_RATE) (hmargin : margining s l = false) :
    hostEye l m s = regPut (rHST_EYE l) (m.setWidth 64) s := if_pos ⟨hl, hlink, hrate, by rw [hmargin]; rfl⟩

/-! The pattern registers are others than the link's status. -/

theorem status_ne_patCtrl : rHST_LINK_STATUS ≠ rHST_PAT_CTRL := by decide

theorem status_ne_patErr (l : Nat) : rHST_LINK_STATUS ≠ rHST_PAT_ERR l := by
  simp only [rHST_LINK_STATUS, rHST_PAT_ERR, colA]
  omega

/-- The link in Loopback, with the check that was armed. -/
theorem loopIn_enters (hrate : fget s rHST_LINK_STATUS fHST_LINK_STATUS_RATE ≠ 0) (hlink : fget s rHST_LINK_STATUS fHST_LINK_STATUS_LTSSM ≠ 6) :
    RegsOnly s (loopIn s) ∧ fget (loopIn s) rHST_LINK_STATUS fHST_LINK_STATUS_LTSSM = 6 := by
  have hstate : fget (fset rHST_LINK_STATUS fHST_LINK_STATUS_LTSSM 6 s) rHST_LINK_STATUS fHST_LINK_STATUS_LTSSM = 6 :=
    fget_fset_same _ _ _ _ (by decide)
  have henter : ¬(fget s rHST_LINK_STATUS fHST_LINK_STATUS_RATE = 0 ∨ fget s rHST_LINK_STATUS fHST_LINK_STATUS_LTSSM = 6) := by
    simp [hrate, hlink]
  unfold loopIn
  dsimp only
  rw [if_neg henter]
  split
  · exact ⟨rfl, hstate⟩
  · refine ⟨(RegsOnly.fset ..).trans ((RegsOnly.fset ..).trans (RegsOnly.foldl (fun _ _ => RegsOnly.regPut ..) _ _)), ?_⟩
    exact (foldl_same _ (fget · rHST_LINK_STATUS fHST_LINK_STATUS_LTSSM) (fun _ l => fget_regPut_ne _ _ _ _ _ (status_ne_patErr l)) _ _).trans
      ((fget_fset_reg _ _ _ _ _ _ status_ne_patCtrl).trans hstate)

/-- The link is in Detect, or Disabled, at no rate and no width. -/
def linkGone (state : Nat) (s : State) : State :=
  fset rHST_LINK_STATUS fHST_LINK_STATUS_LTSSM state (fset rHST_LINK_STATUS fHST_LINK_STATUS_RATE 0
    (fset rHST_LINK_STATUS fHST_LINK_STATUS_WIDTH 0 s))

theorem loopOut_leaves (errors : List Nat) (hlink : fget s rHST_LINK_STATUS fHST_LINK_STATUS_LTSSM = 6) :
    RegsOnly s (loopOut errors s) ∧ ∀ f, fget (loopOut errors s) rHST_LINK_STATUS f = fget (linkGone 0 s) rHST_LINK_STATUS f := by
  have hregs : RegsOnly s (linkGone 0 s) := rfl
  unfold loopOut
  dsimp only
  rw [if_neg (not_not.2 hlink)]
  split
  · exact ⟨hregs, fun _ => rfl⟩
  · refine ⟨hregs.trans ((RegsOnly.fset ..).trans ((RegsOnly.fset ..).trans (RegsOnly.foldl (fun _ _ => RegsOnly.fset ..) _ _))), fun f => ?_⟩
    exact (foldl_same _ (fget · rHST_LINK_STATUS f) (fun _ l => fget_fset_reg _ _ _ _ _ _ (status_ne_patErr l)) _ _).trans
      ((fget_fset_reg _ _ _ _ _ _ status_ne_patCtrl).trans (fget_fset_reg _ _ _ _ _ _ status_ne_patCtrl))

theorem linkLost_leaves (disabled : Bool) (hlink : fget s rHST_LINK_STATUS fHST_LINK_STATUS_LTSSM = 3) :
    linkLost disabled s = occurs 0 1 10 (linkGone (if disabled then 8 else 0) s) := if_neg (not_not.2 hlink)

theorem fget_linkGone_state {x : Nat} (hx : x < 16) (s : State) : fget (linkGone x s) rHST_LINK_STATUS fHST_LINK_STATUS_LTSSM = x :=
  (fget_fset_same _ _ _ _ (by decide)).trans (Nat.mod_eq_of_lt hx)

theorem fget_linkGone_rate (x : Nat) (s : State) : fget (linkGone x s) rHST_LINK_STATUS fHST_LINK_STATUS_RATE = 0 :=
  (fget_fset_apart _ _ _ _ _ (by decide) (by decide)).trans (fget_fset_same _ _ _ _ (by decide))

theorem fget_linkGone_width (x : Nat) (s : State) : fget (linkGone x s) rHST_LINK_STATUS fHST_LINK_STATUS_WIDTH = 0 :=
  (fget_fset_apart _ _ _ _ _ (by decide) (by decide)).trans
    ((fget_fset_apart _ _ _ _ _ (by decide) (by decide)).trans (fget_fset_same _ _ _ _ (by decide)))

theorem fget_linkUp {rate width : Nat} (hrate : rate < 16) (hwidth : width < 16) (eq16 eq32 : Bool) (v : State) :
    let t := linkUp rate width eq16 eq32 v
    fget t rHST_LINK_STATUS fHST_LINK_STATUS_LTSSM = 3 ∧ fget t rHST_LINK_STATUS fHST_LINK_STATUS_RATE = rate ∧
      fget t rHST_LINK_STATUS fHST_LINK_STATUS_WIDTH = width ∧ fget t rHST_LINK_STATUS fHST_LINK_STATUS_EQ16 = b2n eq16 ∧
      fget t rHST_LINK_STATUS fHST_LINK_STATUS_EQ32 = b2n eq32 := by
  have hbit (b : Bool) : b2n b % 2 = b2n b := by cases b <;> rfl
  refine ⟨?ltssm, ?rate, ?width, (fget_fset_same _ _ _ _ (by decide)).trans (hbit eq16), ?eq32⟩ <;> unfold linkUp
  case ltssm =>
    rw [fget_fset_apart _ _ _ _ _ (by decide) (by decide), fget_fset_apart _ _ _ _ _ (by decide) (by decide),
      fget_fset_apart _ _ _ _ _ (by decide) (by decide), fget_fset_apart _ _ _ _ _ (by decide) (by decide)]
    exact fget_fset_same _ _ _ _ (by decide)
  case rate =>
    rw [fget_fset_apart _ _ _ _ _ (by decide) (by decide), fget_fset_apart _ _ _ _ _ (by decide) (by decide)]
    exact (fget_fset_same _ _ _ _ (by decide)).trans (Nat.mod_eq_of_lt hrate)
  case width =>
    rw [fget_fset_apart _ _ _ _ _ (by decide) (by decide), fget_fset_apart _ _ _ _ _ (by decide) (by decide),
      fget_fset_apart _ _ _ _ _ (by decide) (by decide)]
    exact (fget_fset_same _ _ _ _ (by decide)).trans (Nat.mod_eq_of_lt hwidth)
  case eq32 =>
    rw [fget_fset_apart _ _ _ _ _ (by decide) (by decide)]
    exact (fget_fset_same _ _ _ _ (by decide)).trans (hbit eq32)

end

/-- Settles O38, block by block and event by event. In recovery only the Col die and base die 0 are released (log entry 979); the
order of the other releases rests on entries 943, 945 and 946. -/
theorem bringUpAndHostLink : Obligations.BringUpAndHostLink := by
  unfold Obligations.BringUpAndHostLink
  refine ⟨fun s b n d c k => ⟨?running, ?unpowered, ?col, ?base, ?dieWaits, ?dieUnidentified, ?recovery, ?compute, ?core, ?porger, ?good,
    ?bad, ?rom, ?firmware, ?linkless⟩, fun s => ⟨?trains, ?coef, ?eye, ?enters, ?leaves, ?lost⟩⟩
  case running => exact fun hup => congrArg Host.Outcome.next (blockRelease_col.trans (colRelease_running hup))
  case unpowered => exact fun hrails => congrArg Host.Outcome.next (blockRelease_col.trans (colRelease_unpowered hrails))
  case col =>
    intro hup hlost hrails hsafe hsupply
    have hboot := congrArg State.boot (showFault_frame (updBoot (fun b => { b with up := true, loading := true }) (colStamped s)))
    have hstamped := colStamped_frame s
    refine ⟨_, congrArg Host.Outcome.next (blockRelease_col.trans (colRelease_starts hup hlost hrails hsafe hsupply)),
      congrArg Boot.up hboot, congrArg Boot.loading hboot, ?_, ?_, ?_, ?_, ?_⟩
    · exact (colStarted_same State.crestRun (fun _ _ _ => rfl) s).trans (by rw [hstamped])
    · exact (colStarted_same State.crest (fun _ _ _ => rfl) s).trans (by rw [hstamped])
    · exact (colStarted_same State.fuses (fun _ _ _ => rfl) s).trans (by rw [hstamped])
    · exact (colStarted_same State.cores (fun _ _ _ => rfl) s).trans (by rw [hstamped])
    · exact (colStarted_same State.mem (fun _ _ _ => rfl) s).trans (by rw [hstamped])
  case base => exact fun hdone => congrArg Host.Outcome.next (blockRelease_base hdone)
  case dieWaits => exact fun hbase => congrArg Host.Outcome.next (blockRelease_compute_waits (fun h => by rw [hbase] at h; cases h.1))
  case dieUnidentified => exact fun hid => congrArg Host.Outcome.next (blockRelease_compute_waits (fun h => by rw [hid] at h; cases h.2))
  case recovery => exact fun hr hcol hbase => congrArg Host.Outcome.next (blockRelease_recovery (not_not.1 hr) hcol hbase)
  case compute => exact fun hr hd hbase hid hdefer => congrArg Host.Outcome.next (blockRelease_compute hr hd hbase hid hdefer)
  case core => exact fun hr hc hdie hunbound => congrArg Host.Outcome.next (blockRelease_core hr hc hdie hunbound)
  case porger => exact fun hr hk hbase hid => congrArg Host.Outcome.next (blockRelease_porger hr hk hbase hid)
  case good =>
    exact fun img t hloading himg => ⟨_, congrArg Host.Outcome.next (winnow_good hloading himg), rfl, fget_loaded_done img t,
      fget_loaded_attempts img t, fget_loaded_records img t⟩
  case bad => exact fun img e hloading himg hfew => congrArg Host.Outcome.next (winnow_bad hloading himg hfew)
  case rom =>
    exact fun hup hloading hchosen v hactive hfallback =>
      congrArg Host.Outcome.next (bootRom_recovery hup hloading hchosen hactive hfallback)
  case firmware => exact fun hup hchosen hfw hwhole => congrArg Host.Outcome.next (firmwareRuns_chosen hup hchosen hfw hwhole)
  case linkless => exact becomeReady_linkless
  case trains =>
    intro rate width eq16 eq32 hup hperst hlo hhi hwidth hready
    have hlanes : width < 16 := by
      simp only [List.mem_cons, List.not_mem_nil, or_false] at hwidth
      omega
    exact ⟨_, congrArg Host.Outcome.next (linkTrain_ready eq16 eq32 hup hperst hlo hhi hwidth hready),
      linkOnly_linkTrain rate width eq16 eq32 s, fget_linkUp (by omega) hlanes eq16 eq32 _⟩
  case coef =>
    exact fun l pre main post hl hovr =>
      ⟨fun hsum hmain hpre => congrArg Host.Outcome.next (coefRequest_valid hl hovr hsum hmain hpre),
        fun hsum => congrArg Host.Outcome.next (coefRequest_sum hsum)⟩
  case eye => exact fun l m hl hlink hrate hmargin => congrArg Host.Outcome.next (hostEye_passes hl hlink hrate hmargin)
  case enters =>
    intro hrate hlink
    obtain ⟨hregs, hstate⟩ := loopIn_enters hrate hlink
    exact ⟨_, rfl, hregs, hstate⟩
  case leaves =>
    intro errs hlink
    obtain ⟨hregs, hfield⟩ := loopOut_leaves errs hlink
    exact ⟨_, rfl, hregs, (hfield _).trans (fget_linkGone_state (by decide) s), (hfield _).trans (fget_linkGone_rate 0 s),
      (hfield _).trans (fget_linkGone_width 0 s)⟩
  case lost => exact fun dis hlink => congrArg Host.Outcome.next (linkLost_leaves dis hlink)

end Sys2Proof.Machine
end

section
/-! Fault sources, their injection, FAULT_N and the local safe state of a base die (R427 to R436, R441, R442). -/

namespace Sys2Proof.Machine

/-! ## An occurrence (R428 to R430) -/

/-- What the occurrence of a source does (R428 to R430). -/
def reacted (u b x core : Nat) (inj : Bool) (s : State) : State :=
  let st := rFLT_STATUS u b
  let lvl := srcLevel s u b x
  let v := fcount (rFLT_COUNT u b) fFLT_COUNT_COUNT 1 (fsetBit st fFLT_STATUS_STICKY x true s)
  let v := if fget s st fFLT_STATUS_STICKY = 0 then regPut (rFLT_FIRST_T u b) (BitVec.ofNat 64 (stampAt s (unitDie u)))
    (fset (rFLT_FIRST u b) fFLT_FIRST_VALID 1 (fset (rFLT_FIRST u b) fFLT_FIRST_SRC x v)) else v
  let v := if fbit s st fFLT_STATUS_STICKY x = true ∨ lvl = 0 then v else
    report u (stampAt s (unitDie u)) core (srcCode u b x + lvl * 2 ^ 24 + b2n inj * 2 ^ 26) v
  if lvl = 2 then (if u = 0 then enterSafe (srcCode u b x) v else fenceStart (fenceTarget u b x) 5 v)
  else if lvl = 3 then enterSafe (srcCode u b x) v else v

theorem occur_eq_reacted {u b x : Nat} (h : (srcInfo u b x).isSome = true) (core : Nat) (inj : Bool) (s : State) :
    occur u b x core inj s = reacted u b x core inj s := by
  obtain ⟨i, hi⟩ := Option.isSome_iff_exists.1 h
  unfold occur reacted
  simp only [hi, Bool.or_eq_true, beq_iff_eq]

section
variable {s : State} {code : Nat}

/-- The reaction to a source, by its code. -/
def sourceReacted (code core : Nat) (inj : Bool) (s : State) : State :=
  reacted (code / 65536) (code / 256 % 256) (code % 256) (sourceCore (code / 65536) (code / 256 % 256) (code % 256) core) inj s

/-- LINE_LOST of a base die (R155). -/
def isLineLost (code : Nat) : Prop := 1 ≤ code / 65536 ∧ code / 65536 ≤ 4 ∧ code / 256 % 256 = 1 ∧ code % 256 = 24

theorem srcInfo_of_isSource (h : isSource s code = true) : (srcInfo (code / 65536) (code / 256 % 256) (code % 256)).isSome = true := by
  simp only [isSource, Bool.and_eq_true] at h
  exact h.2

theorem sourceOccurs_none (h : isSource s code = false) (core : Nat) (inj : Bool) : sourceOccurs code core inj s = s :=
  if_neg (by rw [h]; decide)

theorem sourceOccurs_source {inj : Bool} (h : isSource s code = true) (hline : inj = true ∨ ¬isLineLost code) (core : Nat) :
    sourceOccurs code core inj s = sourceReacted code core inj s := by
  have hstrike : ¬((!inj) = true ∧ 1 ≤ code / 65536 ∧ code / 65536 ≤ 4 ∧ code / 256 % 256 = 1 ∧ code % 256 = 24) := by
    rintro ⟨hinj, hcode⟩
    exact hline.elim (fun hi => by rw [hi] at hinj; cases hinj) (fun hn => hn hcode)
  exact (if_pos h).trans ((if_neg hstrike).trans (occur_eq_reacted (srcInfo_of_isSource h) ..))

theorem sourceOccurs_line (h : isSource s code = true) (hline : isLineLost code) (core : Nat) :
    sourceOccurs code core false s = strikeLine (code / 65536 - 1) s := (if_pos h).trans (if_pos ⟨rfl, hline⟩)

/-! ## Injection (R441, R442) -/

/-- What one occurrence that is injected does: a source reacts, a point inserts a real error. -/
def injected (code : Nat) (s : State) : State :=
  if isSource s code = true then sourceReacted code 0xFFFF true s
  else if 32 ≤ code / 65536 then
    emit (.fabric (8 * (code / 65536 - 32) + code % 256) 17
      (leBytes 1 (fget s (rPRG_PAT_CTRL (code / 65536 - 32) (code % 256)) fPRG_PAT_CTRL_INJ_WL))) s
  else { s with inj := Mp.upd 0 s.inj code (· + 1) }

theorem injectNow_eq (code : Nat) (s : State) : injectNow code s = injected code s := by
  unfold injectNow injected
  split
  next h => exact sourceOccurs_source h (.inl rfl) _
  · rfl

theorem injectStep_none (h : s.waits.find? (fun w => w.op == 0xF02 && w.keys == [code]) = none) : injectStep code s = s := by
  rw [injectStep, h]

theorem injectStep_some {w : Wait} (h : s.waits.find? (fun w => w.op == 0xF02 && w.keys == [code]) = some w) :
    injectStep code s = if w.a ≤ 1 then answerWait w 0 0 (colNow (injected code s)) [] (injected code s)
      else setWait w { w with a := w.a - 1 } (injected code s) := by
  rw [injectStep, h]
  dsimp only
  rw [injectNow_eq]

/-! ## FAULT_N and the Stolon lines (R431, R435) -/

theorem stolonPoll_polls {n : Nat} (h : (dieOf s (16 + n)).localSafe = false) : stolonPoll n s = readUnseen n s :=
  if_neg (by rw [h]; decide)

theorem pulseEnd_idle (h : s.pulse = false) : pulseEnd s = s := if_neg (by rw [h]; decide)

theorem pulseEnd_shows (h : s.pulse = true) (htap : s.test.tap ≠ 3) : pulseEnd s = emit
    (.pin "FAULT_N" (!(fget s rFLT_CTRL fFLT_CTRL_PIN == 1 || s.dies.any (fun p => p.2.localSafe)))) { s with pulse := false } :=
  (if_pos h).trans (if_neg htap)

end

/-! ## The local safe state of a base die (R436) -/

theorem not_recordReg {a : Nat} (ha : 0x4000000 ≤ a) : ¬RecordReg a := by
  simp only [RecordReg, List.mem_cons, List.not_mem_nil, or_false, rTRC_STATUS, rFLT_FREC_STATUS, rFLT_SAFE_INFO, rFLT_SAFE_T, rFLT_CTRL, colA]
  omega

theorem aloof_fuses : Aloof State.fuses := ⟨fun _ _ _ _ => rfl, fun _ _ _ _ _ _ _ _ _ _ _ _ _ => rfl⟩

/-! ### Dark sites -/

/-- A Porger that goes dark keeps its ports' states. -/
def darkened (s : State) (k : Nat) (x : Porger) : Porger :=
  { x with blanked := true, go := false, gap := false, hold := false, prev := (List.range 8).map (lineState s k) }

/-- The commands that wait for a switch-over are answered. -/
def switchAnswered (k : Nat) (s : State) : State := if (porgerOf s k).gap then answerLaser k 0 s else s

/-- The ports that are not off show BLANKED. -/
def portsDark (k : Nat) (s : State) : State := onPorts (fun p s => if lineState s k p = 0 then s else setLine k p 7 s) s

theorem blankSite_eq (k : Nat) (s : State) : blankSite k false s =
    if nSites s ≤ k ∨ siteState s k ≠ 3 then s else if (porgerOf s k).blanked then s
    else portsDark k (updPorger k (darkened (switchAnswered k s) k) (switchAnswered k s)) := rfl

section
variable {s : State} {k : Nat} {β : Type} {g : State → β}

theorem portsDark_same (hline : ∀ s p v, g (setLine k p v s) = g s) (s : State) : g (portsDark k s) = g s :=
  foldl_same _ g (fun _ _ => Aloof.ite rfl (hline ..)) _ _

/-- What sees no Porger and no port's state sees no site go dark. -/
theorem blankSite_same (hg : Aloof g) (hporgers : ∀ (s : State) x, g { s with porgers := x } = g s)
    (hline : ∀ s p v, g (setLine k p v s) = g s) (s : State) : g (blankSite k false s) = g s := by
  have hanswered : g (switchAnswered k s) = g s := Aloof.ite (hg.answerLaser ..) rfl
  rw [blankSite_eq]
  exact Aloof.ite rfl (Aloof.ite rfl ((portsDark_same hline _).trans ((hporgers (switchAnswered k s) _).trans hanswered)))

theorem switchAnswered_porgers (k : Nat) (s : State) : (switchAnswered k s).porgers = s.porgers :=
  Aloof.ite (g := State.porgers) (aloof_porgers.answerLaser ..) rfl

theorem porgerOf_updPorger_same (k : Nat) (f : Porger → Porger) (s : State) : porgerOf (updPorger k f s) k = f (porgerOf s k) :=
  Mp.get_put_same ..

theorem porgerOf_updPorger_ne {j k : Nat} (h : j ≠ k) (f : Porger → Porger) (s : State) : porgerOf (updPorger k f s) j = porgerOf s j :=
  Mp.get_put_ne _ _ _ _ _ h

/-- A port's state lies in another unit than its site's. -/
theorem siteReg_ne_lineReg {j k p : Nat} (hj : j < 16) : siteReg j ≠ lineReg k p := by
  simp only [siteReg, lineReg, rUCI_SITE_STATUS, rPRG_PORT_STATUS, bdA, oeA, unitA]
  omega

theorem siteState_blankSite {j : Nat} (hj : j < 16) (k : Nat) (s : State) : siteState (blankSite k false s) j = siteState s j := by
  have hreg : regVal (blankSite k false s) (siteReg j) = regVal s (siteReg j) :=
    blankSite_same (g := (regVal · (siteReg j))) (aloof_regVal (not_recordReg (Nat.le_add_right_of_le (by omega))))
      (fun _ _ => rfl) (fun _ _ _ => regVal_fset_ne _ _ _ _ _ (siteReg_ne_lineReg hj)) s
  rw [siteState, fget, hreg, siteState, fget]

theorem porgers_blankSite_lit (hk : k < nSites s) (hst : siteState s k = 3) (hlit : (porgerOf s k).blanked = false) :
    (blankSite k false s).porgers = (updPorger k (darkened (switchAnswered k s) k) s).porgers := by
  have hdark : blankSite k false s = portsDark k (updPorger k (darkened (switchAnswered k s) k) (switchAnswered k s)) := by
    rw [blankSite_eq, if_neg (by simp [hst, hk]), if_neg (by simp [hlit])]
  have hports (v : State) : (portsDark k v).porgers = v.porgers := portsDark_same (fun _ _ _ => rfl) v
  rw [hdark, hports]
  exact congrArg (Mp.upd {} · k (darkened (switchAnswered k s) k)) (switchAnswered_porgers k s)

theorem blankSite_of_not_lit (h : ¬(k < nSites s ∧ siteState s k = 3 ∧ (porgerOf s k).blanked = false)) :
    blankSite k false s = s := by
  rw [blankSite_eq]
  split
  · rfl
  next hlit =>
    obtain ⟨hk, hst⟩ := not_or.1 hlit
    exact if_pos (Bool.of_not_eq_false fun hdark => h ⟨Nat.not_le.1 hk, not_not.1 hst, hdark⟩)

theorem blanked_blankSite_other {j : Nat} (hj : (porgerOf s j).blanked = true) (k : Nat) :
    (porgerOf (blankSite k false s) j).blanked = true := by
  by_cases h : k < nSites s ∧ siteState s k = 3 ∧ (porgerOf s k).blanked = false
  · obtain ⟨hk, hst, hlit⟩ := h
    have hne : j ≠ k := by
      rintro rfl
      rw [hlit] at hj
      cases hj
    rw [porgerOf, porgers_blankSite_lit hk hst hlit]
    exact (congrArg Porger.blanked (porgerOf_updPorger_ne hne ..)).trans hj
  · rw [blankSite_of_not_lit h, hj]

theorem blanked_blankSite_same (hk : k < nSites s) (hst : siteState s k = 3) : (porgerOf (blankSite k false s) k).blanked = true := by
  cases hlit : (porgerOf s k).blanked with
  | true => exact blanked_blankSite_other hlit k
  | false =>
    rw [porgerOf, porgers_blankSite_lit hk hst hlit]
    exact congrArg Porger.blanked (porgerOf_updPorger_same ..)

end

/-! ### A base die that looks after itself -/

section
variable {s : State} {n : Nat}

def selfHeld (n : Nat) (s : State) : State := setDie (16 + n) { dieOf s (16 + n) with localSafe := true } s

def sitesDark (n : Nat) (s : State) : State := (List.range 4).foldl (fun s i => blankSite (4 * n + i) false s) s

def stacksRefresh (n : Nat) (s : State) : State :=
  (List.range 6).foldl (fun s k => if stackState s n k = 2 then fset (rMEM_STACK_STATUS n k) fMEM_STACK_STATUS_STATE 3 s else s) s

theorem selfSafe_eq (hn : n < nRidges s) (hfree : (dieOf s (16 + n)).localSafe = false) :
    selfSafe n s = stacksRefresh n (sitesDark n (selfHeld n s)) := if_neg (by simp [hn, hfree])

theorem regsOnly_stacksRefresh (n : Nat) (s : State) : RegsOnly s (stacksRefresh n s) :=
  RegsOnly.foldl (fun t _ => RegsOnly.ite (RegsOnly.fset ..) (RegsOnly.refl t)) _ _

theorem dies_sitesDark (n : Nat) (s : State) : (sitesDark n s).dies = s.dies :=
  foldl_same _ State.dies (fun t _ => blankSite_same aloof_dies (fun _ _ => rfl) (fun _ _ _ => rfl) t) _ _

theorem blanked_sitesDark {i : Nat} (hi : i < 4) (hn : 4 * n + i < nSites s) (hst : siteState s (4 * n + i) = 3) :
    (porgerOf (sitesDark n s) (4 * n + i)).blanked = true := by
  have hsite : 4 * n + i < 16 := by
    have := ridges_le s
    unfold nSites at hn
    omega
  refine foldl_reaches (Q := fun t => t.fuses = s.fuses ∧ siteState t (4 * n + i) = 3) (x := i)
    (P := fun t => (porgerOf t (4 * n + i)).blanked = true) (List.mem_range.2 hi) ⟨rfl, hst⟩ ?before ?set
    (fun t j ht => blanked_blankSite_other ht _)
  case before =>
    rintro t ⟨hfuses, hstt⟩ j -
    exact ⟨(blankSite_same aloof_fuses (fun _ _ => rfl) (fun _ _ _ => rfl) t).trans hfuses, (siteState_blankSite hsite ..).trans hstt⟩
  case set =>
    rintro t ⟨hfuses, hstt⟩
    refine blanked_blankSite_same ?_ hstt
    rw [nSites, nRidges, hfuses]
    exact hn

/-- The Stolon line is seen down. -/
def lineDown (n : Nat) (s : State) : State := topoSet fMGT_TOPOLOGY_STOLON_UP n false (showFault s)

theorem lineDown_same {β : Type} {g : State → β} (hg : Aloof g) (hregs : ∀ a f i b s, g (fsetBit a f i b s) = g s) (s : State) :
    g (lineDown n s) = g s := (hg.topoSet _ _ _ _ (hregs ..)).trans (hg.showFault s)

theorem aloof_topology : Aloof (regVal · rMGT_TOPOLOGY) := aloof_regVal (by unfold RecordReg; decide)

theorem fbit_topoSet {f : Fld} {i : Nat} (hf : f.lo + f.w ≤ 64) (hi : i < f.w) (b : Bool) (s : State) :
    fbit (topoSet f i b s) rMGT_TOPOLOGY f i = b := by
  unfold topoSet
  split
  next h => exact h
  · have hreg (v : State) : fbit (occurs 0 1 1 v) rMGT_TOPOLOGY f i = fbit v rMGT_TOPOLOGY f i := by
      rw [fbit, fget, aloof_topology.occurs_col, fbit, fget]
    rw [hreg, fbit_fsetBit _ _ _ _ _ _ hf hi, if_pos rfl]

/-! ### The fence of a base die -/

theorem dieOf_setDie_same (u : Nat) (x : DieSt) (s : State) : dieOf (setDie u x s) u = x := Mp.get_put_same ..

theorem dieOf_setDie_ne {u v : Nat} (h : v ≠ u) (x : DieSt) (s : State) : dieOf (setDie u x s) v = dieOf s v := Mp.get_put_ne _ _ _ _ _ h

/-- What a fence writes beside the unit's own state. -/
def fenceShown (cause u : Nat) (s : State) : State :=
  if u < 12 then
    fset (rJXL_PORT_EVT (u / 3) (u % 3)) fJXL_PORT_EVT_FENCED 1 (fset (rJXL_PORT_EVT (u / 3) (u % 3)) fJXL_PORT_EVT_CAUSE cause
      (fset (rJXL_PORT_STATUS (u / 3) (u % 3)) fJXL_PORT_STATUS_STATE 5 (fset (rJXL_CD_STATUS u) fJXL_CD_STATUS_STATE 5
        (jStop (u / 3) (u % 3) s))))
  else if 32 ≤ u ∧ u < 56 then fset (rMEM_STACK_STATUS ((u - 32) / 6) ((u - 32) % 6)) fMEM_STACK_STATUS_STATE 4 s
  else if 80 ≤ u then fset (rUCI_SITE_STATUS ((u - 80) / 4) ((u - 80) % 4)) fUCI_SITE_STATUS_STATE 5 s
  else s

theorem fenceOne_eq (cause : Nat) (s : State) (u : Nat) : fenceOne cause s u =
    if (dieOf s u).st = 0 ∨ (dieOf s u).st = 3 then fenceShown cause u (setDie u { dieOf s u with st := 1, cause := cause } s) else s := rfl

/-- It writes registers and the buffers of a die-link port. -/
theorem fenceShown_same {β : Type} {g : State → β} (hset : ∀ s a f v, g (fset a f v s) = g s) (hstop : ∀ s n p, g (jStop n p s) = g s)
    (cause u : Nat) (s : State) : g (fenceShown cause u s) = g s := by
  unfold fenceShown
  split
  · rw [hset, hset, hset, hset, hstop]
  split
  · exact hset ..
  split
  · exact hset ..
  · rfl

theorem fenceShown_dies (cause u : Nat) (s : State) : (fenceShown cause u s).dies = s.dies :=
  fenceShown_same (fun _ _ _ _ => rfl) (fun _ _ _ => rfl) ..

theorem fenceShown_porgers (cause u : Nat) (s : State) : (fenceShown cause u s).porgers = s.porgers :=
  fenceShown_same (fun _ _ _ _ => rfl) (fun _ _ _ => rfl) ..

/-- No register of the Col die shows a fence. -/
theorem regVal_fenceShown_col {off : Nat} (hoff : off < 0x4000000) (cause u : Nat) (s : State) :
    regVal (fenceShown cause u s) (colA off) = regVal s (colA off) := by
  have hne {m x : Nat} (hm : 1 ≤ m) : colA off ≠ unitA m x := col_ne_unit hoff hm
  unfold fenceShown
  split
  · have hridge (f : Fld) (x v : Nat) (t : State) : regVal (fset (bdA (u / 3) x) f v t) (colA off) = regVal t (colA off) :=
      regVal_fset_ne _ _ _ _ _ (hne (by omega))
    have hdie (f : Fld) (x v : Nat) (t : State) : regVal (fset (cdA u x) f v t) (colA off) = regVal t (colA off) :=
      regVal_fset_ne _ _ _ _ _ (hne (by omega))
    exact (hridge ..).trans ((hridge ..).trans ((hridge ..).trans (hdie ..)))
  split
  · exact regVal_fset_ne _ _ _ _ _ (hne (by omega))
  split
  · exact regVal_fset_ne _ _ _ _ _ (hne (by omega))
  · rfl

theorem fenceOne_porgers (cause : Nat) (s : State) (u : Nat) : (fenceOne cause s u).porgers = s.porgers :=
  Aloof.ite (g := State.porgers) (fenceShown_porgers ..) rfl

theorem regVal_fenceOne_col {off : Nat} (hoff : off < 0x4000000) (cause : Nat) (s : State) (u : Nat) :
    regVal (fenceOne cause s u) (colA off) = regVal s (colA off) :=
  Aloof.ite (g := (regVal · (colA off))) (regVal_fenceShown_col hoff ..) rfl

theorem dieOf_fenceOne_ne {u v : Nat} (h : v ≠ u) (cause : Nat) (s : State) : dieOf (fenceOne cause s u) v = dieOf s v := by
  rw [fenceOne_eq]
  split
  · rw [dieOf, fenceShown_dies]
    exact dieOf_setDie_ne h ..
  · rfl

theorem dieOf_fenceOne_same {u : Nat} (h : (dieOf s u).st = 0 ∨ (dieOf s u).st = 3) (cause : Nat) :
    dieOf (fenceOne cause s u) u = { dieOf s u with st := 1, cause := cause } := by
  rw [fenceOne_eq, if_pos h, dieOf, fenceShown_dies]
  exact dieOf_setDie_same ..

/-- Whatever no fence of one unit moves, the fence of a die moves neither. -/
theorem fenceStart_same {β : Type} {g : State → β} {cause : Nat} (hone : ∀ s v, g (fenceOne cause s v) = g s) (u : Nat) (s : State) :
    g (fenceStart u cause s) = g s := Aloof.ite ((foldl_same _ g hone _ _).trans (hone ..)) (hone ..)

theorem fenceStart_porgers (u cause : Nat) (s : State) : (fenceStart u cause s).porgers = s.porgers :=
  fenceStart_same (fenceOne_porgers cause) u s

theorem regVal_fenceStart_col {off : Nat} (hoff : off < 0x4000000) (u cause : Nat) (s : State) :
    regVal (fenceStart u cause s) (colA off) = regVal s (colA off) :=
  fenceStart_same (g := (regVal · (colA off))) (regVal_fenceOne_col hoff cause) u s

theorem ridgeUnits_ne {n u : Nat} (hn : n < 4) (hu : u ∈ ridgeUnits n) : 16 + n ≠ u := by
  simp only [ridgeUnits, List.mem_append, List.mem_map, List.mem_range] at hu
  obtain (⟨i, hi, rfl⟩ | ⟨i, hi, rfl⟩) | ⟨i, hi, rfl⟩ := hu <;> omega

/-- The units of a ridge follow their base die, whose own state is as its fence left it. -/
theorem dieOf_fenceStart_base (hn : n < 4) (cause : Nat) (s : State) :
    dieOf (fenceStart (16 + n) cause s) (16 + n) = dieOf (fenceOne cause s (16 + n)) (16 + n) := by
  rw [fenceStart, if_pos (by omega), Nat.add_sub_cancel_left]
  exact List.foldlRecOn (motive := fun t => dieOf t (16 + n) = dieOf (fenceOne cause s (16 + n)) (16 + n)) _ _ rfl
    (fun t ht u hu => (dieOf_fenceOne_ne (ridgeUnits_ne hn hu) ..).trans ht)

/-! ### The local safe state -/

/-- The state before the Col die fences the die. -/
def safeSeen (n : Nat) (s : State) : State := lineDown n (stacksRefresh n (sitesDark n (selfHeld n s)))

theorem localSafe_again (h : (dieOf s (16 + n)).localSafe = true) : localSafe n s = s := if_pos (.inr h)

theorem localSafe_eq (hn : n < nRidges s) (hfree : (dieOf s (16 + n)).localSafe = false) :
    localSafe n s = fenceStart (16 + n) 1 (safeSeen n s) := by
  have henter : ¬(nRidges s ≤ n ∨ (dieOf s (16 + n)).localSafe = true) := by simp [hn, hfree]
  rw [localSafe, if_neg henter, selfSafe_eq hn hfree, safeSeen, lineDown]

theorem dieOf_safeSeen : dieOf (safeSeen n s) (16 + n) = { dieOf s (16 + n) with localSafe := true } := by
  have hdies : (safeSeen n s).dies = (selfHeld n s).dies :=
    (lineDown_same aloof_dies (fun _ _ _ _ _ => rfl) _).trans
      (((regsOnly_stacksRefresh ..).same State.dies (fun _ => rfl)).trans (dies_sitesDark ..))
  rw [dieOf, hdies]
  exact dieOf_setDie_same ..

theorem dieOf_localSafe (hn : n < nRidges s) (hfree : (dieOf s (16 + n)).localSafe = false) (hst : (dieOf s (16 + n)).st = 0) :
    dieOf (localSafe n s) (16 + n) = { dieOf s (16 + n) with localSafe := true, st := 1, cause := 1 } := by
  have hst' : (dieOf (safeSeen n s) (16 + n)).st = 0 := by rw [dieOf_safeSeen, hst]
  rw [localSafe_eq hn hfree, dieOf_fenceStart_base (hn.trans_le (ridges_le s)), dieOf_fenceOne_same (.inl hst'), dieOf_safeSeen]

theorem stolonUp_localSafe (hn : n < nRidges s) (hfree : (dieOf s (16 + n)).localSafe = false) :
    fbit (localSafe n s) rMGT_TOPOLOGY fMGT_TOPOLOGY_STOLON_UP n = false := by
  have hreg : regVal (fenceStart (16 + n) 1 (safeSeen n s)) rMGT_TOPOLOGY = regVal (safeSeen n s) rMGT_TOPOLOGY :=
    regVal_fenceStart_col (by decide) ..
  rw [localSafe_eq hn hfree, fbit, fget, hreg]
  exact fbit_topoSet (f := fMGT_TOPOLOGY_STOLON_UP) (by decide) (hn.trans_le (ridges_le s)) false _

theorem blanked_localSafe {i : Nat} (hn : n < nRidges s) (hfree : (dieOf s (16 + n)).localSafe = false) (hi : i < 4)
    (hst : siteState s (4 * n + i) = 3) : (porgerOf (localSafe n s) (4 * n + i)).blanked = true := by
  have hporgers : (localSafe n s).porgers = (sitesDark n (selfHeld n s)).porgers := by
    rw [localSafe_eq hn hfree, fenceStart_porgers]
    exact (lineDown_same aloof_porgers (fun _ _ _ _ _ => rfl) _).trans ((regsOnly_stacksRefresh ..).same State.porgers (fun _ => rfl))
  rw [porgerOf, hporgers]
  exact blanked_sitesDark (s := selfHeld n s) hi (by unfold nSites; exact (by omega : 4 * n + i < 4 * nRidges s)) hst

end

/-- Settles O53: the occurrence of a source and its injection, FAULT_N, and the local safe state with its fence. The last occurrence
answers FAULT_INJECT (log entry 949); a base die in its local safe state is fenced with cause CLOCK, its STOLON_UP cleared (947). -/
theorem faultSources : Obligations.FaultSources := by
  unfold Obligations.FaultSources
  intro s code
  refine ⟨?source, ?line, ?unknown, ?uninjected, ?injects, ?polls, ?idle, ?shows, ?again, ?safe⟩
  case source => exact fun core h hline => congrArg Host.Outcome.next (sourceOccurs_source h (.inr hline) core)
  case line => exact fun core h hlo hhi hb hx => congrArg Host.Outcome.next (sourceOccurs_line h ⟨hlo, hhi, hb, hx⟩ core)
  case unknown => exact fun core h => congrArg Host.Outcome.next (sourceOccurs_none h core false)
  case uninjected => exact fun h => congrArg Host.Outcome.next (injectStep_none h)
  case injects =>
    exact fun w h => ⟨fun hlast => congrArg Host.Outcome.next ((injectStep_some h).trans (if_pos hlast)),
      fun hmore => congrArg Host.Outcome.next ((injectStep_some h).trans (if_neg (Nat.not_le.2 hmore)))⟩
  case polls => exact fun n h => congrArg Host.Outcome.next (stolonPoll_polls h)
  case idle => exact fun h => congrArg Host.Outcome.next (pulseEnd_idle h)
  case shows => exact fun h htap => congrArg Host.Outcome.next (pulseEnd_shows h htap)
  case again => exact fun n h => congrArg Host.Outcome.next (localSafe_again h)
  case safe =>
    intro n hn hfree hst
    have hdie := dieOf_localSafe hn hfree hst
    exact ⟨_, rfl, congrArg DieSt.localSafe hdie, congrArg DieSt.st hdie, congrArg DieSt.cause hdie, stolonUp_localSafe hn hfree,
      fun i hi hsite => blanked_localSafe hn hfree hi hsite⟩

end Sys2Proof.Machine
end

section
/-! The Cairn: intervals and events (R447 to R454, R459). -/

namespace Sys2Proof.Machine

section
variable {s : State} {m : Meter}

/-! ## An interval that closes (R447, R449, R450) -/

/-- The meter's energy is taken (R448). -/
def measured (m : Meter) (s : State) : State := updCrn (fun c => { c with eCum := max c.eCum (c.eLast + m.energyMj) }) s

theorem measured_recno (m : Meter) (s : State) : (measured m s).crn.recno = s.crn.recno := rfl

/-- The record of the interval in progress, closed at a time with extra flags. -/
def intervalRec (flags t1 : Nat) (m : Meter) (s : State) : CairnRec :=
  ⟨1, 0, flags + (if 160000 < m.iMax then 2 else 0), s.crn.tStart, t1, m.durUs, m.iMax, (measured m s).crn.eCum - s.crn.eLast, m.vMin, m.vMax⟩

/-- A record is stored. -/
def recorded (r : CairnRec) (s : State) : State := updCrn (fun c => (storeRecord r c).1) s

/-- The energy of the interval is apportioned, once the module is ready (R456). -/
def apportionTaken (e t0 t1 : Nat) (s : State) : State :=
  if s.crn.apportioned ∧ s.ready then updCrn (fun c => { c with entries := c.entries ++ apportionRecord s.crn.recno e t0 t1 s }) s else s

/-- The next interval begins. -/
def intervalBegun (t1 t2 : Nat) (s : State) : State :=
  updCrn (fun c => { c with
    eLast := c.eCum, tStart := t2, crest := t2, dur := 0, holders := holdersAt t1 c
    changes := c.changes.filter (fun h => decide (t1 < h.t)), weights := weightsNow s, apportioned := s.boot.up }) s

/-- Another interval that was asked for takes effect. -/
def wantTaken (t2 : Nat) (s : State) : State :=
  match s.crn.want with
  | some k =>
    if k = s.crn.code then updCrn (fun c => { c with want := none }) s
    else cairnEvent 4 t2 (updCrn (fun c => { c with want := none, code := k, param := c.param + 1 }) s)
  | none => s

theorem closeInterval_eq (flags t1 t2 : Nat) (m : Meter) (s : State) : closeInterval flags t1 t2 m s =
    wantTaken t2 (intervalBegun t1 t2 (apportionTaken ((measured m s).crn.eCum - s.crn.eLast) s.crn.tStart t1
      (putCairn (intervalRec flags t1 m s) (measured m s)))) := rfl

theorem wantTaken_none {t2 : Nat} (h : s.crn.want = none) : wantTaken t2 s = s := by
  rw [wantTaken, h]

theorem intervalBegun_want (t1 t2 : Nat) (s : State) : (intervalBegun t1 t2 s).crn.want = s.crn.want := rfl

/-- The interval of `s` is in the store, and apportioned. -/
def intervalStored (flags t1 : Nat) (m : Meter) (s : State) : State :=
  apportionTaken ((measured m s).crn.eCum - s.crn.eLast) s.crn.tStart t1 (recorded (intervalRec flags t1 m s) (measured m s))

/-- While there is room in the store no record gives way. -/
theorem putCairn_room (hroom : s.crn.recno < storeSize) (r : CairnRec) : putCairn r s = recorded r s := by
  have hover : (storeRecord r s.crn).2 = false := by
    simp only [storeRecord, decide_eq_false_iff_not]
    omega
  unfold putCairn
  dsimp only
  rw [hover]
  rfl

/-- Only what the Cairn keeps may differ. -/
def CrnOnly (s t : State) : Prop := t = { s with crn := t.crn }

theorem CrnOnly.trans {s t u : State} (h : CrnOnly s t) (h' : CrnOnly t u) : CrnOnly s u := by
  unfold CrnOnly at h h' ⊢
  rw [h] at h'
  exact h'

theorem crnOnly_updCrn (f : Crn → Crn) (s : State) : CrnOnly s (updCrn f s) := rfl

theorem crnOnly_apportionTaken (e t0 t1 : Nat) (s : State) : CrnOnly s (apportionTaken e t0 t1 s) := by
  unfold apportionTaken
  split
  · exact crnOnly_updCrn ..
  · rfl

/-- Apportioning adds entries alone. -/
theorem apportionTaken_crn (e t0 t1 : Nat) (s : State) :
    (apportionTaken e t0 t1 s).crn = { s.crn with entries := (apportionTaken e t0 t1 s).crn.entries } := by
  unfold apportionTaken
  split <;> rfl

theorem crnOnly_intervalStored (flags t1 : Nat) (m : Meter) (s : State) : CrnOnly s (intervalStored flags t1 m s) :=
  (crnOnly_updCrn ..).trans ((crnOnly_updCrn ..).trans (crnOnly_apportionTaken ..))

theorem intervalStored_crn (flags t1 : Nat) (m : Meter) (s : State) : (intervalStored flags t1 m s).crn =
    { (storeRecord (intervalRec flags t1 m s) (measured m s).crn).1 with entries := (intervalStored flags t1 m s).crn.entries } :=
  apportionTaken_crn ..

/-- The energy the Cairn has counted up to the close (R448). -/
def energyNow (m : Meter) (s : State) : Nat := max s.crn.eCum (s.crn.eLast + m.energyMj)

/-- The signed bytes of the interval's record. -/
def intervalBody (flags t1 : Nat) (m : Meter) (s : State) : List Byte :=
  recordBody ⟨1, 0, flags + (if 160000 < m.iMax then 2 else 0), s.crn.tStart, t1, m.durUs, m.iMax, energyNow m s - s.crn.eLast, m.vMin, m.vMax⟩
    { s.crn with eCum := energyNow m s }

theorem intervalStored_fields (flags t1 : Nat) (m : Meter) (s : State) :
    let c := (intervalStored flags t1 m s).crn
    c.supply = s.crn.supply ∧ c.want = s.crn.want ∧ c.recno = s.crn.recno + 1 ∧ c.eCum = energyNow m s ∧
      Mp.find c.store (s.crn.recno + 1) = some (intervalBody flags t1 m s ++ signed cxRec (Config.secret 1) (intervalBody flags t1 m s)) := by
  dsimp only
  rw [intervalStored_crn]
  exact ⟨rfl, rfl, rfl, rfl, Mp.find_ins_same ..⟩

/-- With no other interval asked for and room in the store. -/
theorem closeInterval_plain (hwant : s.crn.want = none) (hroom : s.crn.recno < storeSize) (flags t1 t2 : Nat) :
    closeInterval flags t1 t2 m s = intervalBegun t1 t2 (intervalStored flags t1 m s) := by
  obtain ⟨-, hstill, -⟩ := intervalStored_fields flags t1 m s
  have hput : putCairn (intervalRec flags t1 m s) (measured m s) = recorded (intervalRec flags t1 m s) (measured m s) :=
    putCairn_room (by rw [measured_recno]; exact hroom) _
  rw [closeInterval_eq, hput, ← intervalStored]
  exact wantTaken_none (by rw [intervalBegun_want, hstill, hwant])

/-- What an interval that closes leaves in the Cairn. -/
theorem closeInterval_closes (hwant : s.crn.want = none) (hroom : s.crn.recno < storeSize) (flags t1 : Nat) :
    let t := closeInterval flags t1 t1 m s
    CrnOnly s t ∧ t.crn.supply = s.crn.supply ∧ t.crn.recno = s.crn.recno + 1 ∧ t.crn.eCum = energyNow m s ∧
      t.crn.eLast = energyNow m s ∧ t.crn.tStart = t1 ∧ t.crn.dur = 0 ∧ Mp.find t.crn.store (s.crn.recno + 1) =
        some (intervalBody flags t1 m s ++ signed cxRec (Config.secret 1) (intervalBody flags t1 m s)) := by
  obtain ⟨hsupply, -, hrecno, henergy, hstore⟩ := intervalStored_fields flags t1 m s
  dsimp only
  rw [closeInterval_plain hwant hroom]
  exact ⟨(crnOnly_intervalStored ..).trans (crnOnly_updCrn ..), hsupply, hrecno, henergy, henergy, rfl, rfl, hstore⟩

end

/-! ## The supply, the cover, a magnetic field and the Crest (R451, R454, R459) -/

section
variable {s : State} {m : Meter}

theorem intervalEnd_off (h : s.crn.supply = false) : intervalEnd m s = s := if_pos (by rw [h]; rfl)

theorem intervalEnd_on (h : s.crn.supply = true) : intervalEnd m s =
    closeInterval 0 (cairnNow s.crn m.durUs) (cairnNow s.crn m.durUs) m s := if_neg (by rw [h]; decide)

theorem supplyLoss_off (h : s.crn.supply = false) : supplyLoss m s = s := if_pos (by rw [h]; rfl)

theorem supplyLoss_on (h : s.crn.supply = true) : supplyLoss m s = updCrn (fun c => { c with supply := false })
    (closeInterval 12 (cairnNow s.crn m.durUs) (cairnNow s.crn m.durUs) m s) := if_neg (by rw [h]; decide)

theorem supplyUp_on (h : s.crn.supply = true) : supplyUp s = s := if_pos h

/-- The supply returns, and no cover opened meanwhile. -/
theorem supplyUp_off (h : s.crn.supply = false) (hcovers : s.crn.covers = 0) : supplyUp s =
    cairnEvent 1 s.crn.crest (updCrn (fun c => { c with supply := true, pwrfail := c.pwrfail + 1 }) s) := by
  have hcrn : updCrn (fun c => { c with supply := true, pwrfail := c.pwrfail + 1, covers := 0 }) s =
      updCrn (fun c => { c with supply := true, pwrfail := c.pwrfail + 1 }) s := by
    unfold updCrn
    rw [← hcovers]
  unfold supplyUp
  rw [if_neg (by rw [h]; decide), hcovers, hcrn]
  rfl

theorem coverOpens_on (h : s.crn.supply = true) :
    coverOpens s = cairnEvent 2 s.crn.crest (updCrn (fun c => { c with tamper := c.tamper + 1 }) s) := if_pos h

theorem coverOpens_off (h : s.crn.supply = false) : coverOpens s = updCrn (fun c => { c with covers := c.covers + 1 }) s :=
  if_neg (by rw [h]; decide)

theorem magneticField_on (h : s.crn.supply = true) :
    magneticField s = cairnEvent 3 s.crn.crest (updCrn (fun c => { c with tamper := c.tamper + 1 }) s) := if_pos h

theorem magneticField_off (h : s.crn.supply = false) : magneticField s = s := if_neg (by rw [h]; decide)

theorem crestGone_on (h : s.crn.supply = true) (hlost : s.crn.lost = false) :
    crestGone s = cairnEvent 5 s.crn.crest (updCrn (fun c => { c with lost := true }) s) := if_pos ⟨h, by rw [hlost]; rfl⟩

theorem crestGone_off (h : s.crn.supply = false) : crestGone s = s := if_neg (fun hon => by rw [h] at hon; cases hon.1)

/-! ### A Crest value that arrives (R454) -/

/-- The incarnation of the module. -/
def incarnationOf (s : State) : Nat := fget s rFLK_INCARNATION fFLK_INCARNATION_INCARNATION

/-- The interval up to the value: closed where the Crest stepped or the module is a new one, and otherwise read. -/
def crestMeasured (step new : Bool) (v copy : Nat) (m : Meter) (s : State) : State :=
  if (step || new) && m.durUs != 0 then closeInterval 8 copy (if step then v else copy) m s
  else updCrn (fun c => { c with dur := m.durUs, tStart := if step then v else c.tStart }) s

/-- The copy takes the value; a step and a new incarnation are recorded. -/
def crestTaken (step new : Bool) (v inc : Nat) (s : State) : State :=
  let s := updCrn (fun c => { c with crest := v, incarnation := inc }) s
  let s := if step then cairnEvent 7 v s else s
  if new then cairnEvent 8 v s else s

theorem crestCome_eq (hsupply : s.crn.supply = true) (hup : s.boot.up = true) (hrun : s.crestRun = true) (hlost : s.crn.lost = false)
    {step new : Bool} (hstep : decide (4000 < stampAt s 64 - cairnNow s.crn m.durUs ∨ 4000 < cairnNow s.crn m.durUs - stampAt s 64) = step)
    (hnew : (incarnationOf s != s.crn.incarnation) = new) :
    crestCome m s = crestTaken step new (stampAt s 64) (incarnationOf s)
      (crestMeasured step new (stampAt s 64) (cairnNow s.crn m.durUs) m s) := by
  have hcomes : ¬((!s.crn.supply) = true ∨ (!s.boot.up) = true ∨ (!s.crestRun) = true) := by simp [hsupply, hup, hrun]
  subst hstep hnew
  unfold crestCome
  rw [if_neg hcomes, hlost]
  rfl

/-- A value within 4,000 counts of the copy, in the same incarnation. -/
theorem crestCome_follows (hsupply : s.crn.supply = true) (hup : s.boot.up = true) (hrun : s.crestRun = true) (hlost : s.crn.lost = false)
    (hhi : stampAt s 64 ≤ cairnNow s.crn m.durUs + 4000) (hlo : cairnNow s.crn m.durUs ≤ stampAt s 64 + 4000)
    (hinc : incarnationOf s = s.crn.incarnation) :
    crestCome m s = updCrn (fun c => { c with dur := m.durUs, crest := stampAt s 64 }) s := by
  rw [crestCome_eq hsupply hup hrun hlost (decide_eq_false (by omega)) (bne_eq_false_iff_eq.2 hinc), hinc]
  rfl

/-- The Crest stepped as the interval began: it begins at the value. -/
theorem crestCome_steps_first (hsupply : s.crn.supply = true) (hup : s.boot.up = true) (hrun : s.crestRun = true) (hlost : s.crn.lost = false)
    (hstep : cairnNow s.crn m.durUs + 4000 < stampAt s 64 ∨ stampAt s 64 + 4000 < cairnNow s.crn m.durUs)
    (hinc : incarnationOf s = s.crn.incarnation) (hdur : m.durUs = 0) :
    crestCome m s = cairnEvent 7 (stampAt s 64) (updCrn (fun c => { c with dur := 0, tStart := stampAt s 64, crest := stampAt s 64 }) s) := by
  rw [crestCome_eq hsupply hup hrun hlost (decide_eq_true (by omega)) (bne_eq_false_iff_eq.2 hinc), hinc]
  unfold crestMeasured
  rw [hdur, if_neg (by decide)]
  rfl

/-- The Crest stepped: the interval closes, and the next one begins at the value. -/
theorem crestCome_steps (hsupply : s.crn.supply = true) (hup : s.boot.up = true) (hrun : s.crestRun = true) (hlost : s.crn.lost = false)
    (hstep : cairnNow s.crn m.durUs + 4000 < stampAt s 64 ∨ stampAt s 64 + 4000 < cairnNow s.crn m.durUs)
    (hinc : incarnationOf s = s.crn.incarnation) (hdur : m.durUs ≠ 0) :
    crestCome m s = cairnEvent 7 (stampAt s 64) (updCrn (fun c => { c with crest := stampAt s 64, incarnation := incarnationOf s })
      (closeInterval 8 (cairnNow s.crn m.durUs) (stampAt s 64) m s)) := by
  rw [crestCome_eq hsupply hup hrun hlost (decide_eq_true (by omega)) (bne_eq_false_iff_eq.2 hinc)]
  unfold crestMeasured
  rw [if_pos (by simp [hdur])]
  rfl

/-- A new incarnation: the interval closes, and the next one begins, at the copy. -/
theorem crestCome_renews (hsupply : s.crn.supply = true) (hup : s.boot.up = true) (hrun : s.crestRun = true) (hlost : s.crn.lost = false)
    (hhi : stampAt s 64 ≤ cairnNow s.crn m.durUs + 4000) (hlo : cairnNow s.crn m.durUs ≤ stampAt s 64 + 4000)
    (hinc : incarnationOf s ≠ s.crn.incarnation) (hdur : m.durUs ≠ 0) :
    crestCome m s = cairnEvent 8 (stampAt s 64) (updCrn (fun c => { c with crest := stampAt s 64, incarnation := incarnationOf s })
      (closeInterval 8 (cairnNow s.crn m.durUs) (cairnNow s.crn m.durUs) m s)) := by
  rw [crestCome_eq hsupply hup hrun hlost (decide_eq_false (by omega)) (bne_iff_ne.2 hinc)]
  unfold crestMeasured
  rw [if_pos (by simp [hdur])]
  rfl

end

/-- Settles O54, from what each of the Cairn's events does. Its copy of the Crest runs at 4,000 counts a microsecond and what an event
record measures is free (log entry 952); the stamps of POWER_UP are entry 954. -/
theorem cairnMetrology : Obligations.CairnMetrology := by
  unfold Obligations.CairnMetrology
  intro s
  refine ⟨?closes, ?off, ?powered, ?returns, ?cover, ?coverHeld, ?magnet, ?lost, ?value⟩
  case closes =>
    intro m hsupply hwant hroom
    refine ⟨⟨_, congrArg Host.Outcome.next (intervalEnd_on hsupply), ?_⟩, ⟨_, congrArg Host.Outcome.next (supplyLoss_on hsupply), ?_⟩⟩
    · obtain ⟨hcrn, hon, hrest⟩ := closeInterval_closes (m := m) hwant hroom 0 (cairnNow s.crn m.durUs)
      exact ⟨⟨hcrn, hrest⟩, hon.trans hsupply⟩
    · obtain ⟨hcrn, -, hrest⟩ := closeInterval_closes (m := m) hwant hroom 12 (cairnNow s.crn m.durUs)
      exact ⟨⟨hcrn.trans (crnOnly_updCrn ..), hrest⟩, rfl⟩
  case off =>
    exact fun m h => ⟨congrArg Host.Outcome.next (intervalEnd_off h), congrArg Host.Outcome.next (supplyLoss_off h),
      congrArg Host.Outcome.next (magneticField_off h), congrArg Host.Outcome.next (crestGone_off h)⟩
  case powered => exact fun h => congrArg Host.Outcome.next (supplyUp_on h)
  case returns => exact fun h hcovers => congrArg Host.Outcome.next (supplyUp_off h hcovers)
  case cover => exact fun h => congrArg Host.Outcome.next (coverOpens_on h)
  case coverHeld => exact fun h => congrArg Host.Outcome.next (coverOpens_off h)
  case magnet => exact fun h => congrArg Host.Outcome.next (magneticField_on h)
  case lost => exact fun h hlost => congrArg Host.Outcome.next (crestGone_on h hlost)
  case value =>
    intro m hsupply hup hrun hlost
    exact ⟨fun hhi hlo hinc => congrArg Host.Outcome.next (crestCome_follows hsupply hup hrun hlost hhi hlo hinc),
      fun hstep hinc hdur => congrArg Host.Outcome.next (crestCome_steps_first hsupply hup hrun hlost hstep hinc hdur),
      fun hstep hinc hdur => congrArg Host.Outcome.next (crestCome_steps hsupply hup hrun hlost hstep hinc hdur),
      fun hhi hlo hinc hdur => congrArg Host.Outcome.next (crestCome_renews hsupply hup hrun hlost hhi hlo hinc hdur)⟩

end Sys2Proof.Machine
end

section
/-! Calibration (R462 to R465), the test access port (R469 to R471) and the SMBus-class sideband (R483 to R485). -/

namespace Sys2Proof.Machine

/-! ## A calibration run that ends (R462, R463) -/

section
variable {s : State} {u code inst : Nat} {v : Word32} {within : Bool}

/-- The command whose run it is. -/
def calWait (s : State) (u code inst : Nat) : Option Wait :=
  s.waits.find? (fun w => w.op == 0x700 && w.keys == [u] && w.a == code && w.b == inst)

/-- What a calibration keeps is brought up to date. -/
def calNoted (u code inst : Nat) (f : Cal → Cal) (s : State) : State := { s with cals := Mp.upd {} s.cals (calKey u code inst) f }

/-- Whether the run's precondition stands at its end. -/
def calStands (s : State) (u code inst : Nat) : Prop := calReady s u code inst = true ∨ code = 0x10 ∨ code = 0x30

/-- The results applied so far and this one, as far as the counter goes. -/
def calCount (s : State) (u code inst : Nat) : Nat := min (2 ^ 32 - 1) ((Mp.get {} s.cals (calKey u code inst)).count + 1)

theorem calDone_none (h : calWait s u code inst = none) : calDone u code inst within v s = s := by
  unfold calWait at h
  rw [calDone, h]

theorem calDone_some {w : Wait} (h : calWait s u code inst = some w) : calDone u code inst within v s =
    let q := droopOver u code inst s
    if code ≠ 0x10 ∧ code ≠ 0x30 ∧ !calReady q u code inst then
      answerWait w rsState 4 (colNow q) [] (calNoted u code inst (fun c => { c with result := 4 }) q)
    else if !within then
      answerWait w rsState (if code = 0x20 ∧ v = 2#32 then 2 else 3) (colNow q) []
        (calNoted u code inst (fun c => { c with result := if code = 0x20 ∧ v = 2#32 then 2 else 3 }) q)
    else answerWait w 0 (calCount q u code inst) (colNow q) [] (calApply u code inst v
      (calNoted u code inst (fun _ => ⟨1, calCount q u code inst, stampAt q (unitDie u)⟩) q)) := by
  unfold calWait at h
  rw [calDone, h]
  rfl

theorem interrupted_iff (s : State) (u code inst : Nat) :
    (code ≠ 0x10 ∧ code ≠ 0x30 ∧ (!calReady s u code inst) = true) ↔ ¬calStands s u code inst := by
  simp only [calStands, not_or, Bool.not_eq_true, Bool.not_eq_true']
  tauto

theorem calDone_interrupted {w : Wait} (h : calWait s u code inst = some w) (hready : ¬calStands (droopOver u code inst s) u code inst) :
    calDone u code inst within v s = answerWait w rsState 4 (colNow (droopOver u code inst s)) []
      (calNoted u code inst (fun c => { c with result := 4 }) (droopOver u code inst s)) :=
  (calDone_some h).trans (if_pos ((interrupted_iff ..).2 hready))

theorem calDone_outside {w : Wait} (h : calWait s u code inst = some w) (hready : calStands (droopOver u code inst s) u code inst)
    (hcode : code ≠ 0x20) : calDone u code inst false v s = answerWait w rsState 3 (colNow (droopOver u code inst s)) []
      (calNoted u code inst (fun c => { c with result := 3 }) (droopOver u code inst s)) := by
  have hresult : (if code = 0x20 ∧ v = 2#32 then 2 else 3) = 3 := if_neg (fun hc => hcode hc.1)
  rw [calDone_some h]
  dsimp only
  rw [if_neg (fun hi => (interrupted_iff ..).1 hi hready), if_pos (by rfl), hresult]

theorem calDone_within {w : Wait} (h : calWait s u code inst = some w) (hready : calStands (droopOver u code inst s) u code inst) :
    let q := droopOver u code inst s
    calDone u code inst true v s = answerWait w 0 (calCount q u code inst) (colNow q) [] (calApply u code inst v
      (calNoted u code inst (fun _ => ⟨1, calCount q u code inst, stampAt q (unitDie u)⟩) q)) :=
  (calDone_some h).trans ((if_neg (fun hi => (interrupted_iff ..).1 hi hready)).trans (if_neg (by decide)))

end

/-! ## The test access port (R469 to R471) -/

section
variable {s : State}

/-- An instruction is loaded and shows in MGT_TAP_STATUS. -/
def tapShown (i cells : Nat) (s : State) : State :=
  fset rMGT_TAP_STATUS fMGT_TAP_STATUS_EXTEST (b2n (i == 3)) (fset rMGT_TAP_STATUS fMGT_TAP_STATUS_PRIVATE (b2n (i == 4))
    { s with test := { s.test with tap := i, cells := cells } })

theorem tapLoad_pins {i : Nat} (h : s.test.tap ≠ 3 ∨ i = 3) (cells : Nat) : tapLoad i cells s = tapShown i cells s :=
  if_neg (fun hp => h.elim (fun ht => ht hp.1) (fun hi => hp.2 hi))

/-- What looks at no outputs sees the same whether the pins are given back or not. -/
theorem tapLoad_same {β : Type} {g : State → β} (hg : ∀ (s : State) o, g { s with outputs := o } = g s) (i cells : Nat) (s : State) :
    g (tapLoad i cells s) = g (tapShown i cells s) :=
  Aloof.ite ((congrArg g (showFault_frame _)).trans (hg ..)) rfl

theorem fget_tapShown_extest (i cells : Nat) (s : State) : fget (tapShown i cells s) rMGT_TAP_STATUS fMGT_TAP_STATUS_EXTEST = b2n (i == 3) % 2 :=
  fget_fset_same _ _ _ _ (by decide)

theorem fget_tapShown_private (i cells : Nat) (s : State) :
    fget (tapShown i cells s) rMGT_TAP_STATUS fMGT_TAP_STATUS_PRIVATE = b2n (i == 4) % 2 :=
  (fget_fset_apart _ _ _ _ _ (by decide) (by decide)).trans (fget_fset_same _ _ _ _ (by decide))

/-! ### Private instructions (R471) -/

/-- The dies that such an instruction names. -/
def tapDies (dies : Nat) (s : State) : List Nat := (List.range 16).filter (fun b => bitOf dies b && isUnitCode s (tapDie b))

/-- One die is fenced for die-stack access. -/
def tapFence (s : State) (b : Nat) : State := fenceStart (tapDie b) 7 (fsetBit rMGT_TAP_STATUS fMGT_TAP_STATUS_DIES b true s)

/-- Die-stack access is open. -/
def tapOpened (dies : Nat) (s : State) : State :=
  fset rSEC_BOOT_STATUS fSEC_BOOT_STATUS_DEBUG 1
    (fset rMGT_TAP_STATUS fMGT_TAP_STATUS_STACK_OPEN 1 ((tapDies dies s).foldl tapFence (tapLoad 4 s.test.cells s)))

theorem tapPrivate_refused {dies : Nat} {hook : Option TestHook} (h : factoryPerm s 3 = false) : tapPrivate dies hook s = s :=
  if_pos (by rw [h]; rfl)

theorem tapPrivate_opens {dies : Nat} (h : factoryPerm s 3 = true) (hdies : tapDies dies s ≠ []) (hook : Option TestHook) :
    tapPrivate dies hook s = match hook with
      | none => tapOpened dies s
      | some x => runHook x (tapOpened dies s) := by
  unfold tapDies at hdies
  unfold tapPrivate
  rw [h, if_neg (by decide)]
  dsimp only
  rw [if_neg hdies]
  rfl

theorem regVal_tapFence_tap (s : State) (b : Nat) :
    regVal (tapFence s b) rMGT_TAP_STATUS = regVal (fsetBit rMGT_TAP_STATUS fMGT_TAP_STATUS_DIES b true s) rMGT_TAP_STATUS :=
  regVal_fenceStart_col (by decide) ..

/-- The other fields of MGT_TAP_STATUS are as they were. -/
theorem fget_tapFence {f : Fld} (hf : 16 ≤ f.lo) (s : State) (b : Nat) : fget (tapFence s b) rMGT_TAP_STATUS f = fget s rMGT_TAP_STATUS f := by
  rw [fget, regVal_tapFence_tap]
  exact fget_fset_apart _ fMGT_TAP_STATUS_DIES f _ _ (by decide) (.inr hf)

theorem fbit_tapFence {b : Nat} (hb : b < 16) (s : State) (c : Nat) : fbit (tapFence s c) rMGT_TAP_STATUS fMGT_TAP_STATUS_DIES b =
    if b = c then true else fbit s rMGT_TAP_STATUS fMGT_TAP_STATUS_DIES b := by
  rw [fbit, fget, regVal_tapFence_tap]
  exact fbit_fsetBit_within _ fMGT_TAP_STATUS_DIES _ _ _ _ (by decide) hb

/-- A unit that a command has fenced. -/
def commandFenced (u : Nat) (s : State) : Prop := (dieOf s u).st = 1 ∧ (dieOf s u).cause = 7

theorem commandFenced_fenceOne {u : Nat} (h : commandFenced u s) (v : Nat) : commandFenced u (fenceOne 7 s v) := by
  by_cases hv : u = v
  · subst hv
    have hstays : ¬((dieOf s u).st = 0 ∨ (dieOf s u).st = 3) := by
      rw [h.1]
      decide
    rwa [fenceOne_eq, if_neg hstays]
  · rwa [commandFenced, dieOf_fenceOne_ne hv]

theorem commandFenced_fenceOne_same {u : Nat} (h : (dieOf s u).st = 0 ∨ commandFenced u s) : commandFenced u (fenceOne 7 s u) := by
  obtain hst | hfenced := h
  · rw [commandFenced, dieOf_fenceOne_same (.inl hst)]
    exact ⟨rfl, rfl⟩
  · exact commandFenced_fenceOne hfenced u

theorem commandFenced_fenceStart {u : Nat} (h : commandFenced u s) (v : Nat) : commandFenced u (fenceStart v 7 s) := by
  unfold fenceStart
  split
  · exact List.foldlRecOn _ _ (commandFenced_fenceOne h v) (fun t ht x _ => commandFenced_fenceOne ht x)
  · exact commandFenced_fenceOne h v

theorem commandFenced_fenceStart_same {u : Nat} (h : (dieOf s u).st = 0 ∨ commandFenced u s) : commandFenced u (fenceStart u 7 s) := by
  unfold fenceStart
  split
  · exact List.foldlRecOn _ _ (commandFenced_fenceOne_same h) (fun t ht x _ => commandFenced_fenceOne ht x)
  · exact commandFenced_fenceOne_same h

/-- A unit that is not fenced is fenced by the command or left. -/
theorem commandFenced_or_free {u : Nat} (h : (dieOf s u).st = 0 ∨ commandFenced u s) (v : Nat) :
    (dieOf (fenceOne 7 s v) u).st = 0 ∨ commandFenced u (fenceOne 7 s v) := by
  by_cases hv : u = v
  · subst hv
    exact .inr (commandFenced_fenceOne_same h)
  · rwa [commandFenced, dieOf_fenceOne_ne hv]

theorem commandFenced_or_free_fenceStart {u : Nat} (h : (dieOf s u).st = 0 ∨ commandFenced u s) (v : Nat) :
    (dieOf (fenceStart v 7 s) u).st = 0 ∨ commandFenced u (fenceStart v 7 s) := by
  unfold fenceStart
  split
  · exact List.foldlRecOn (motive := fun t => (dieOf t u).st = 0 ∨ commandFenced u t) _ _ (commandFenced_or_free h v)
      (fun t ht x _ => commandFenced_or_free ht x)
  · exact commandFenced_or_free h v

/-- A die named is fenced with cause COMMAND, and its bit of DIES is set. -/
theorem tapFences {l : List Nat} {b : Nat} (hb : b < 16) (hmem : b ∈ l) (hst : (dieOf s (tapDie b)).st = 0) :
    fbit (l.foldl tapFence s) rMGT_TAP_STATUS fMGT_TAP_STATUS_DIES b = true ∧ commandFenced (tapDie b) (l.foldl tapFence s) := by
  refine ⟨?_, ?_⟩
  · refine foldl_reaches (Q := fun _ => True) (P := fun t => fbit t rMGT_TAP_STATUS fMGT_TAP_STATUS_DIES b = true) hmem trivial
      (fun _ _ _ _ => trivial) (fun t _ => (fbit_tapFence hb t b).trans (if_pos rfl)) (fun t y ht => ?_)
    rw [fbit_tapFence hb, ht, ite_self]
  · exact foldl_reaches (Q := fun t => (dieOf t (tapDie b)).st = 0 ∨ commandFenced (tapDie b) t) (P := commandFenced (tapDie b)) hmem
      (.inl hst) (fun t ht y _ => commandFenced_or_free_fenceStart (s := fsetBit _ _ y true t) ht (tapDie y))
      (fun t ht => commandFenced_fenceStart_same (s := fsetBit _ _ b true t) ht)
      (fun t y ht => commandFenced_fenceStart (s := fsetBit _ _ y true t) ht (tapDie y))

theorem fget_tapOpened_private (dies : Nat) (s : State) : fget (tapOpened dies s) rMGT_TAP_STATUS fMGT_TAP_STATUS_PRIVATE = 1 := by
  have hloaded : fget (tapLoad 4 s.test.cells s) rMGT_TAP_STATUS fMGT_TAP_STATUS_PRIVATE = 1 :=
    (tapLoad_same (g := (fget · rMGT_TAP_STATUS fMGT_TAP_STATUS_PRIVATE)) (fun _ _ => rfl) ..).trans (fget_tapShown_private ..)
  rw [tapOpened, fget_fset_reg _ _ _ _ _ _ (by decide), fget_fset_apart _ _ _ _ _ (by decide) (by decide)]
  exact (foldl_same _ (fget · rMGT_TAP_STATUS fMGT_TAP_STATUS_PRIVATE) (fun t b => fget_tapFence (by decide) t b) _ _).trans hloaded

theorem fget_tapOpened_stack (dies : Nat) (s : State) : fget (tapOpened dies s) rMGT_TAP_STATUS fMGT_TAP_STATUS_STACK_OPEN = 1 :=
  (fget_fset_reg _ _ _ _ _ _ (by decide)).trans (fget_fset_same _ _ _ _ (by decide))

theorem fget_tapOpened_debug (dies : Nat) (s : State) : fget (tapOpened dies s) rSEC_BOOT_STATUS fSEC_BOOT_STATUS_DEBUG = 1 :=
  fget_fset_same _ _ _ _ (by decide)

theorem tapOpened_die {dies b : Nat} (hb : b < 16) (hnamed : b ∈ tapDies dies s) (hst : (dieOf s (tapDie b)).st = 0) :
    fbit (tapOpened dies s) rMGT_TAP_STATUS fMGT_TAP_STATUS_DIES b = true ∧ commandFenced (tapDie b) (tapOpened dies s) := by
  have hloaded : (tapLoad 4 s.test.cells s).dies = s.dies := tapLoad_same (g := State.dies) (fun _ _ => rfl) ..
  obtain ⟨hbit, hfenced⟩ := tapFences (s := tapLoad 4 s.test.cells s) hb hnamed (by rwa [dieOf, hloaded])
  refine ⟨?_, hfenced⟩
  rw [tapOpened, fbit, fget_fset_reg _ _ _ _ _ _ (by decide), fget_fset_apart _ _ _ _ _ (by decide) (by decide)]
  exact hbit

end

/-! ## The SMBus-class sideband (R483 to R485) -/

section
variable {s : State}

theorem smbusRead_silent (h : smbusAnswers s = false) (ok : Bool) (bytes : List Byte) : smbusRead ok bytes s = s := if_pos (by rw [h]; rfl)

theorem smbusRead_answers (h : smbusAnswers s = true) (ok : Bool) (bytes : List Byte) :
    smbusRead ok bytes s = emit (.smbus (if ok then bytes else [])) s := if_neg (by rw [h]; decide)

theorem cairnSelect_silent (h : smbusAnswers s = false) (r o : Nat) (ok : Bool) : cairnSelect r o ok s = s := if_pos (by rw [h]; rfl)

theorem cairnSelect_good (h : smbusAnswers s = true) {r o : Nat} (hr : r < 2 ^ 64) (ho : o < 2 ^ 16) :
    cairnSelect r o true s = { s with test := { s.test with recno := r, offset := o } } := by
  rw [cairnSelect, h, if_neg (by decide), if_pos rfl, Nat.mod_eq_of_lt hr, Nat.mod_eq_of_lt ho]

theorem cairnSelect_bad (h : smbusAnswers s = true) (r o : Nat) : cairnSelect r o false s = emit (.smbus []) s := by
  rw [cairnSelect, h, if_neg (by decide), if_neg (by decide)]

theorem cairnRead_silent (h : smbusAnswers s = false) (ok : Bool) : cairnRead ok s = s := by
  rw [cairnRead, h]
  exact (if_neg (fun hok => Bool.false_ne_true hok.1)).trans (smbusRead_silent h ..)

theorem cairnRead_bad (h : smbusAnswers s = true) : cairnRead false s = emit (.smbus []) s :=
  (if_neg (fun hok => Bool.false_ne_true hok.2)).trans (smbusRead_answers h ..)

theorem cairnRead_good (h : smbusAnswers s = true) {bytes : List Byte} (hbytes : cairnBytes s = bytes) :
    cairnRead true s = emit (.smbus bytes) { s with test := { s.test with offset := s.test.offset + (bytes.length - 1) } } := by
  rw [← hbytes]
  exact if_pos ⟨h, rfl⟩

/-- A status byte with no piece of the record leaves OFFSET as it is. -/
theorem cairnRead_status (h : smbusAnswers s = true) {b : Byte} (hbytes : cairnBytes s = [b]) : cairnRead true s = emit (.smbus [b]) s :=
  cairnRead_good h hbytes

theorem cairnBytes_off (h : s.crn.supply = false) : cairnBytes s = [2#8] := if_pos (by rw [h]; rfl)

theorem cairnBytes_on (h : s.crn.supply = true) : cairnBytes s = match Mp.find s.crn.store s.test.recno with
    | none => [1#8]
    | some r => if 2596 ≤ s.test.offset then [3#8] else 0#8 :: (r.drop s.test.offset).take 240 := if_neg (by rw [h]; decide)

theorem cairnLast_on (h : s.crn.supply = true) (ok : Bool) : cairnLast ok s = smbusRead ok (leBytes 8 s.crn.recno) s := if_pos h

theorem alertAnswer_high (h : alertLow s = false) (ok : Bool) : alertAnswer ok s = s := if_neg (by rw [h]; decide)

theorem alertAnswer_silent (h : smbusAnswers s = false) (ok : Bool) : alertAnswer ok s = s := by
  unfold alertAnswer
  split
  · exact smbusRead_silent h ..
  · rfl

theorem alertAnswer_low (h : smbusAnswers s = true) (hlow : alertLow s = true) : alertAnswer true s = emit (.smbus [0xB8#8]) s :=
  (if_pos hlow).trans (smbusRead_answers h ..)

end

/-- Settles O55: the end of a calibration, each instruction of the test access port and each command of the sideband. The results 4, 3
and 2 of a calibration are log entry 950; TRST_N closes the access by 951; a NACK as an empty answer and the byte 0xB8 are 969. -/
theorem calibrationTestPortAndSmbus : Obligations.CalibrationTestPortAndSmbus := by
  unfold Obligations.CalibrationTestPortAndSmbus
  refine ⟨fun s => ⟨?calibration, ?extest, ?loads, ?refused, ?opens, ?resets⟩, fun s => ⟨?silent, ?answers, ?high, rfl⟩⟩
  case calibration =>
    intro u code inst v
    refine ⟨fun h within => congrArg Host.Outcome.next (calDone_none h), fun w h => ⟨fun hready within => ?_, fun hready hcode => ?_,
      fun hready => ?_⟩⟩
    · exact congrArg Host.Outcome.next (calDone_interrupted h hready)
    · exact congrArg Host.Outcome.next (calDone_outside h hready hcode)
    · exact congrArg Host.Outcome.next (calDone_within h hready)
  case extest =>
    exact fun pins => ⟨_, congrArg Host.Outcome.next (tapLoad_pins (.inr rfl) pins), rfl, fget_tapShown_extest 3 pins s,
      fget_tapShown_private 3 pins s⟩
  case loads =>
    intro htap
    refine ⟨⟨_, congrArg (Host.Outcome.next <| emit (.tap (idCode s)) ·) (tapLoad_pins (.inl htap) s.test.cells), rfl, rfl⟩,
      ⟨_, congrArg Host.Outcome.next (tapLoad_pins (.inl htap) s.test.cells), rfl, rfl⟩, fun pins =>
      ⟨_, congrArg (Host.Outcome.next <| emit (.tap pins) ·) (tapLoad_pins (.inl htap) pins), rfl, rfl⟩⟩
  case refused => exact fun dies hook h => congrArg Host.Outcome.next (tapPrivate_refused h)
  case opens =>
    intro dies b hperm hb hbit hunit hst
    have hnamed : b ∈ tapDies dies s := List.mem_filter.2 ⟨List.mem_range.2 hb, by rw [hbit, hunit]; rfl⟩
    have hopens := tapPrivate_opens hperm (List.ne_nil_of_mem hnamed)
    obtain ⟨hdies, hfence, hcause⟩ := tapOpened_die hb hnamed hst
    exact ⟨_, congrArg Host.Outcome.next (hopens none), fun h => congrArg Host.Outcome.next (hopens (some h)),
      fget_tapOpened_debug dies s, fget_tapOpened_private dies s, fget_tapOpened_stack dies s, hdies, hfence, hcause⟩
  case resets =>
    exact ⟨_, rfl, (tapLoad_same (g := fun t => t.test.tap) (fun _ _ => rfl) 0 s.test.cells s).trans rfl, regVal_regPut_same ..⟩
  case silent =>
    intro h ok r o
    have hread (bytes : List Byte) : smbusRead ok bytes s = s := smbusRead_silent h ok bytes
    exact ⟨congrArg Host.Outcome.next (hread _), congrArg Host.Outcome.next (hread _), congrArg Host.Outcome.next (hread _),
      congrArg Host.Outcome.next (hread _), congrArg Host.Outcome.next (cairnSelect_silent h r o ok),
      congrArg Host.Outcome.next (cairnRead_silent h ok), fun hon => congrArg Host.Outcome.next ((cairnLast_on hon ok).trans (hread _)),
      congrArg Host.Outcome.next (alertAnswer_silent h ok)⟩
  case answers =>
    intro h
    have hgood (bytes : List Byte) : smbusRead true bytes s = emit (.smbus bytes) s := smbusRead_answers h true bytes
    have hbad (bytes : List Byte) : smbusRead false bytes s = emit (.smbus []) s := smbusRead_answers h false bytes
    refine ⟨congrArg Host.Outcome.next (hgood _), congrArg Host.Outcome.next (hgood _), congrArg Host.Outcome.next (hgood _),
      congrArg Host.Outcome.next (hgood _), fun r o hr ho => congrArg Host.Outcome.next (cairnSelect_good h hr ho),
      fun hoff => congrArg Host.Outcome.next (cairnRead_status h (cairnBytes_off hoff)), fun hon hnone => ?unknown,
      fun rd hon hsome hin => ?piece, fun rd hon hsome hend => ?done, fun hon => congrArg Host.Outcome.next ((cairnLast_on hon true).trans (hgood _)),
      fun hlow => congrArg Host.Outcome.next (alertAnswer_low h hlow), fun r o => ⟨congrArg Host.Outcome.next (hbad _),
      congrArg Host.Outcome.next (hbad _), congrArg Host.Outcome.next (hbad _), congrArg Host.Outcome.next (hbad _),
      congrArg Host.Outcome.next (cairnSelect_bad h r o), congrArg Host.Outcome.next (cairnRead_bad h)⟩⟩
    case unknown => exact congrArg Host.Outcome.next (cairnRead_status h ((cairnBytes_on hon).trans (by rw [hnone])))
    case piece =>
      exact congrArg Host.Outcome.next (cairnRead_good h ((cairnBytes_on hon).trans (by rw [hsome]; exact if_neg (Nat.not_le.2 hin))))
    case done =>
      exact congrArg Host.Outcome.next (cairnRead_status h ((cairnBytes_on hon).trans (by rw [hsome]; exact if_pos hend)))
  case high => exact fun ok h => congrArg Host.Outcome.next (alertAnswer_high h ok)

end Sys2Proof.Machine
end
